-- ==== Sys2Proof/Word.lean ====
section
/-! DEFINITION. The plainest data types of the model: bytes and the words of the Syoft cores. -/

namespace Sys2Proof

/-- One byte of memory (R2: multi-byte values are little-endian lists of these). -/
abbrev Byte := BitVec 8

/-- A general register of a Syoft core, 24 bits wide (R260). -/
abbrev Word24 := BitVec 24

/-- A product register of the M unit, 48 bits wide. -/
abbrev Prod := BitVec 48

/-- An accumulator of the M unit, 60 bits wide (R253). -/
abbrev Acc := BitVec 60

end Sys2Proof
end

