-- ==== Sys2Proof/Syntax.lean ====
section
/-! DEFINITION. The commands of the block, one constructor per row of the opcode table, with the operands each carries.
Operands state what the world outside the model decides: data on a wire, an error a memory cell makes, the dot of the line
at which an event falls. -/

namespace Sys2Proof

/-- The tag a host, Cellar or peer leaves on a DMA channel it starts (R32). -/
inductive DmaTag where
  | host | cellar | peer
deriving DecidableEq, Repr

/-- Whoever makes an access to device memory or to a register (R24, R32, R619). -/
inductive Initiator where
  | bar (xspi : Bool)
  | dataPort (xspi : Bool)
  | cellar
  | seq (p : Fin 8)
  | audio (c : Fin 4)
  | peer (n : Fin 4)
  | dma (n : Fin 64) (tag : DmaTag)
  | press (e : Fin 2)
  | plane (n : Fin 32)
  | harp (p : Fin 8)
  | safe (p : Fin 8) (j : Fin 2)
  | rind (p : Fin 8)
  | writeback (p : Fin 8)
  | camera (n : Fin 16) (landing : Bool)
  | clip (k : Fin 8)
  | feed (k : Fin 8) (landing : Bool)
deriving DecidableEq, Repr

/-- The interface a mailbox request came over (R417). -/
inductive Via where
  | pcie | xspi | peer (pos : Fin 4) | cellar
deriving DecidableEq, Repr

/-- Which part of a 64-bit register a read takes (R54). -/
inductive ReadPart where
  | low | high | whole
deriving DecidableEq, Repr

/-- A line's access: a read, or a write with byte enables (an absent byte is not enabled). -/
inductive LineOp where
  | read
  | write (bytes : List (Option Byte))
deriving DecidableEq, Repr

/-- What the error correction of the Vat finds on an access: nothing, one word corrected, one word uncorrectable, or an
address-parity error (R86 to R89). -/
inductive VatErr where
  | none
  | corrected (word : Fin 4)
  | uncorrectable (word : Fin 4)
  | parity
deriving DecidableEq, Repr

/-- The bit that fails a march test (R99). -/
structure BgtBit where
  row : Fin 64
  word : Fin 4
  bitNo : Fin 137
deriving DecidableEq, Repr

/-- What the header ECC of a CSI-2 packet finds (R213). -/
inductive HdrErr where
  | none | corrected | uncorrectable
deriving DecidableEq, Repr

/-- The end of a frame-sync pulse: its stream, and the dot of the line at which it falls (R216). -/
structure FsyncEnd where
  stream : Fin 16
  dot : Nat
deriving DecidableEq, Repr

/-- What the error correction of a core's memory finds in one 32-bit word that a local load reads: nothing, one bit corrected, or an
uncorrectable word, with the bits in which the word as read differs from what was written (R260). -/
inductive Ecc where
  | none
  | corrected
  | uncorrectable (flip : BitVec 32)
deriving DecidableEq, Repr

/-- What the error correction finds in the two words of a D container that a local load reads, the lower word first (R257, R260). -/
structure EccPair where
  low : Ecc
  high : Ecc
deriving DecidableEq, Repr

/-- The I and J operations of formats R and I that compute one general register from two operands (R269). -/
inductive AluOp where
  | add | sub | and | or | xor | shl | shr | sar | min | max | minu | maxu | cmpeq | cmplt | cmpltu | adds | subs | abs | clz
deriving DecidableEq, Repr

/-- The M operations that multiply two general registers (R270). -/
inductive MulOp where
  | mul | mulu | mac | msu | macz | macu
deriving DecidableEq, Repr

/-- The containers of R257, as loads and as stores. -/
inductive LdOp where
  | b | bs | h | hs | t | w | d
deriving DecidableEq, Repr
inductive StOp where
  | b | h | t | w | d
deriving DecidableEq, Repr

/-- Where a local or far access goes: the address register, the space, the address mode and the signed offset (R262, R271). -/
structure LAddr where
  x : Fin 8
  sp : Fin 8
  am : Fin 4
  off : BitVec 9
deriving DecidableEq, Repr

/-- A syllable, decoded (R261 to R272). `j` places an ALU operation in the J unit rather than the I unit. -/
inductive Syl where
  | alu (j : Bool) (op : AluOp) (d a b : Fin 32)
  | alui (j : Bool) (op : AluOp) (d a : Fin 32) (imm : BitVec 12)
  | li (j : Bool) (d : Fin 32) (imm : BitVec 17)
  | lih (j : Bool) (d : Fin 32) (imm : BitVec 12)
  | movx (j : Bool) (d : Fin 8) (a : Fin 32)
  | movg (j : Bool) (d : Fin 32) (a : Fin 8)
  | addx (j : Bool) (d a : Fin 8) (imm : BitVec 12)
  | rdp (j : Bool) (d : Fin 32) (a : Fin 4) (imm : BitVec 12)
  | rda (j : Bool) (d : Fin 32) (a : Fin 4) (imm : BitVec 12)
  | rdar (j : Bool) (d : Fin 32) (a : Fin 4) (imm : BitVec 12)
  | mul (op : MulOp) (d : Fin 4) (a b : Fin 32)
  | mova (d : Fin 4) (a : Fin 32) (n : BitVec 6)
  | ashr (d a : Fin 4) (n : BitVec 6)
  | ains (d : Fin 4) (a : Fin 32) (k : BitVec 6)
  | ld (op : LdOp) (g : Fin 32) (at_ : LAddr) (ecc high : Ecc)
  | st (op : StOp) (g : Fin 32) (at_ : LAddr)
  | ldx (d : Fin 8) (at_ : LAddr) (ecc : Ecc)
  | stx (d : Fin 8) (at_ : LAddr)
  | setw (w : Fin 4) (g : Fin 32)
  | nopc
  | br (tgt : BitVec 16)
  | bz (g : Fin 32) (tgt : BitVec 16)
  | bnz (g : Fin 32) (tgt : BitVec 16)
  | call (tgt : BitVec 16)
  | ret
  | loop (g : Fin 32) (tgt : BitVec 16)
  | wait
  | fence
  | reti
  | trap (imm : BitVec 16)
  | brg (g : Fin 32)
  | callg (g : Fin 32)
  | csrr (g : Fin 32) (csr : BitVec 12)
  | csrw (g : Fin 32) (csr : BitVec 12)
  | csrs (g : Fin 32) (csr : BitVec 12)
  | csrc (g : Fin 32) (csr : BitVec 12)
deriving DecidableEq, Repr

/-- What the fetch of a bundle, or a memory of a core, meets that no operation of the opcode table carries: a fetched word whose
encoding is illegal in itself (R262), an uncorrectable error in a fetched syllable (R260), a bundle that runs past the end of
program memory or starts there (R263, R273), an imprecise error that waits to be taken (R278), or a single-bit error of a fetched
syllable, which is corrected and counted and traps nothing (R260). -/
inductive TrapCause where
  | illegal (w : BitVec 32)
  | fetchErr (ecc : Bool)
  | pending
  | corrected
deriving DecidableEq, Repr

/-- A slip of a slave port's FIFO: the port, whether of those it sends or of those it receives, and whether a frame is dropped or
repeated (R311). -/
structure PortSlip where
  port : Fin 8
  tx : Bool
  drop : Bool
deriving DecidableEq, Repr

/-- The MSI-X table as the host has written it: the vectors masked, and the message address and data of each vector (R415). -/
structure MsixTable where
  masked : BitVec 64
  entries : List (BitVec 64 × BitVec 32)
deriving DecidableEq, Repr

/-- The data of a CAN frame received, and the error counts that the controller then has (R484, R486). -/
structure CanRx where
  data : List Byte
  txErrors : BitVec 8
  rxErrors : BitVec 8
deriving DecidableEq, Repr

/-- The message of a MSG flit: a tunnelled access, its response, or the acknowledgement of a write (R524). `id` matches an
answer with its request. -/
inductive Msg where
  | readReq (id : Nat) (off : BitVec 32) (len : Fin 65)
  | writeReq (id : Nat) (off : BitVec 32) (data : List (Option Byte))
  | response (id : Nat) (err : Bool) (data : List Byte)
  | ack (id : Nat) (err : Bool)
deriving DecidableEq, Repr

/-- A reference setting as a TIMING flit carries it: REF_GEOM and REF_SYN_* (R514). -/
structure TimingSetting where
  lines : Nat
  dots : Nat
  synN : Nat
  synNum : Nat
  synDen : Nat
  synP : Nat
deriving DecidableEq, Repr

/-- The payload of a TIMING flit (R514). Stamps are in 1/256 dot: the 48-bit stamp times 256 plus the fraction. -/
structure Timing where
  launch : Nat
  epoch : BitVec 32
  setting : TimingSetting
  /-- A pending setting with its apply stamp. -/
  pending : Option (TimingSetting × Nat)
  /-- T_arrive and T_launch of the last TIMING flit received from the other end. -/
  last : Option (Nat × Nat)
deriving DecidableEq, Repr

/-- A flit's body by its type (R506). -/
inductive FlitBody where
  | idle
  | timing (t : Timing)
  | line (n : BitVec 14) (part : BitVec 10) (fs fe : Bool) (format : Fin 4) (data : List Byte)
  | msg (m : Msg)
  | audio (count : BitVec 32) (samples : List (BitVec 24))
  | intr (src : Fin 512) (ack : Bool)
deriving DecidableEq, Repr

/-- What every flit carries beside its body: TYPE as received, positions, class and channel, the sequence number of a sequenced flit,
and the control word; and whether the CRC of its bytes 0x00 to 0x7B is the one at 0x7C (R505, R506, R510). -/
structure FlitHead where
  typ : Fin 16
  dst : Fin 4
  src : Fin 4
  class0 : Bool
  channel : Fin 4
  seq : Fin 4096
  ackSeq : Fin 4096
  nak : Bool
  pool : Fin 4
  credits : BitVec 8
  crcOk : Bool
deriving DecidableEq, Repr

/-- What discovery finds: this device's position, the devices on the master's link 1, the devices in the chain, and the link
that faces the master (R502, R503). -/
structure Chain where
  pos : Fin 4
  n1 : Fin 4
  devices : Fin 5
  upstream : Fin 2
deriving DecidableEq, Repr

/-- What a shutdown self-test item finds: a repair made with a spare (R571), or a block or unit that fails (R573). IDs of kind 31 name
essential blocks (assumption 40). -/
structure TestFind where
  item : Fin 8
  id : BitVec 16
  sub : BitVec 8
  addr : BitVec 32
  fails : Bool
deriving DecidableEq, Repr

/-- The commands, one constructor per row of the opcode table. -/
inductive Instr where
  /-- `IRS_REG_WRITE` (R34). -/
  | irsRegWrite (who : Initiator) (off : BitVec 24) (data : List Byte)
  /-- `REF_CTL_APPLY` (R47). -/
  | refCtlApply
  /-- `REF_FRAME_START` (R47). -/
  | refFrameStart (mw : List Nat)
  /-- `REF_LINE_START` (R46). -/
  | refLineStart
  /-- `REF_SYN_LOCK` (R49). -/
  | refSynLock
  /-- `BEAM_NOW_READ` (R54). -/
  | beamNowRead (who : Initiator) (part : ReadPart) (dot : Nat)
  /-- `BEAM_EPOCH_READ` (R55). -/
  | beamEpochRead (who : Initiator)
  /-- `REF_LOST` (R64). -/
  | refLost
  /-- `REF_RESTORED` (R66). -/
  | refRestored
  /-- `VAT_REINIT` (R76). -/
  | vatReinit
  /-- `VAT_INIT_DONE` (R76). -/
  | vatInitDone
  /-- `VAT_ACCESS` (R71). -/
  | vatAccess (who : Initiator) (line : Fin 0x400000) (op : LineOp) (err : VatErr) (c0Wait : Nat) (conflict : Nat)
  /-- `VAT_SET_ALIAS_WRITE` (R94). -/
  | vatSetAliasWrite (who : Initiator) (off : Fin 0x10000000) (data : List Byte) (err : VatErr)
  /-- `VAT_CLEAR_ALIAS_WRITE` (R94). -/
  | vatClearAliasWrite (who : Initiator) (off : Fin 0x10000000) (data : List Byte) (err : VatErr)
  /-- `VAT_CE_WRITEBACK` (R86). -/
  | vatCeWriteback (k : Fin 64)
  /-- `VAT_BANK_TRANSITION_DONE` (R82). -/
  | vatBankTransitionDone (k : Fin 64)
  /-- `VAT_C0_RES_APPLY` (R80). -/
  | vatC0ResApply (k : Fin 64)
  /-- `SCRUB_LINE` (R91). -/
  | scrubLine (k : Fin 64) (row : Fin 65536) (err : VatErr)
  /-- `VAT_BANK_SCRUB_DONE` (R92). -/
  | vatBankScrubDone (k : Fin 64)
  /-- `BGT_REGION_OPEN` (R97). -/
  | bgtRegionOpen
  /-- `BGT_REGION_CLOSE` (R97). -/
  | bgtRegionClose (fails : List BgtBit)
  /-- `BGT_REGION_SKIP` (R98). -/
  | bgtRegionSkip
  /-- `PLANE_LINE_FETCHED` (R132). -/
  | planeLineFetched (n : Fin 32) (cclk : Nat)
  /-- `HARP_GATE_WRITE` (R149). -/
  | harpGateWrite (who : Initiator) (off : BitVec 18) (wide : Bool) (data : BitVec 64)
  /-- `HARP_OBJ_PUBLISH` (R149). -/
  | harpObjPublish (who : Initiator) (obj : Fin 4096) (data : BitVec 32)
  /-- `HARP_AFF_PUBLISH` (R150). -/
  | harpAffPublish (who : Initiator) (set : Fin 1024)
  /-- `HARP_SCAN` (R156). -/
  | harpScan (p : Fin 8) (scanWait : Nat) (avail : Option Nat)
  /-- `HARP_STAGE_DONE` (R164). -/
  | harpStageDone (p : Fin 8)
  /-- `PIPE_LINE_START` (R169). -/
  | pipeLineStart (p : Fin 8) (dot : Nat) (safeLate : BitVec 2) (wbStall : Bool)
  /-- `PIPE_FRAME_START` (R58). -/
  | pipeFrameStart (p : Fin 8) (dot : Nat)
  /-- `PIPE_LATCH` (R184). -/
  | pipeLatch (p : Fin 8)
  /-- `PIPE_LATE_LATCH` (R182). -/
  | pipeLateLatch (p : Fin 8)
  /-- `FETCH_DRAIN_RELEASE` (R186). -/
  | fetchDrainRelease (p : Fin 8)
  /-- `PIPE_COMMIT` (R179). -/
  | pipeCommit (who : Initiator) (p : Fin 8) (slotMask : BitVec 12) (seq : BitVec 16)
  /-- `WB_FRAME_DONE` (R192). -/
  | wbFrameDone (p : Fin 8)
  /-- `PORT_HPD_RISE` (R195). -/
  | portHpdRise (k : Fin 8) (dot : Nat)
  /-- `PORT_HPD_FALL` (R195). -/
  | portHpdFall (k : Fin 8)
  /-- `PORT_TRAINING_DONE` (R195). -/
  | portTrainingDone (k : Fin 8)
  /-- `PORT_TRAINING_TIMEOUT` (R195). -/
  | portTrainingTimeout (k : Fin 8)
  /-- `PORT_LINK_LOSS` (R557). -/
  | portLinkLoss (k : Fin 8) (lanes : BitVec 4)
  /-- `CSI_FS` (R211). -/
  | csiFs (port : Fin 4) (vc : Fin 16) (frameNum : BitVec 16) (hdr : HdrErr) (dot : Nat)
  /-- `CSI_LONG_PACKET` (R210). -/
  | csiLongPacket (port : Fin 4) (vc : Fin 16) (dt : BitVec 6) (data : List Byte) (hdr : HdrErr) (crcErr : Bool)
  /-- `CSI_SHORT_IGNORED` (R206). -/
  | csiShortIgnored (port : Fin 4) (vc : Fin 16) (dt : BitVec 6) (hdr : HdrErr)
  /-- `CSI_FE` (R212). -/
  | csiFe (port : Fin 4) (vc : Fin 16) (frameNum : BitVec 16) (hdr : HdrErr) (dot : Nat)
  /-- `STREAM_FRAME_COMPLETE` (R212). -/
  | streamFrameComplete (n : Fin 16) (dot : Nat)
  /-- `LANDING_TAG_VALID` (R217). -/
  | landingTagValid (n : Fin 16) (err : Bool)
  /-- `RACE_CUTOFF` (R218). -/
  | raceCutoff (n : Fin 32) (slackCclk : Option Nat) (latency10ns : Option Nat)
  /-- `STREAM_TIMEOUT` (R214). -/
  | streamTimeout (n : Fin 16) (dot : Nat)
  /-- `CSI_SYNC_LOSS` (R215). -/
  | csiSyncLoss (port : Fin 4)
  /-- `CSI_RESYNC_DONE` (R215). -/
  | csiResyncDone (port : Fin 4) (synced : Bool)
  /-- `CAM_FSYNC_PULSE` (R216). -/
  | camFsyncPulse (n : Fin 16) (dot : Nat)
  /-- `CAM_FSYNC_END` (R216). -/
  | camFsyncEnd (pulse : FsyncEnd)
  /-- `RIND_VERDICT` (R231). -/
  | rindVerdict (p : Fin 8) (r : Fin 64)
  /-- `RIND_C0_COND_SET` (R246). -/
  | rindC0CondSet (c : Fin 3)
  /-- `RIND_C0_COND_CLEAR` (R246). -/
  | rindC0CondClear (c : Fin 3)
  /-- `ADD` (R269). -/
  | add (k : Fin 13) (stop : Bool) (j : Bool) (d a b : Fin 32)
  /-- `SUB` (R269). -/
  | sub (k : Fin 13) (stop : Bool) (j : Bool) (d a b : Fin 32)
  /-- `AND` (R269). -/
  | and (k : Fin 13) (stop : Bool) (j : Bool) (d a b : Fin 32)
  /-- `OR` (R269). -/
  | or (k : Fin 13) (stop : Bool) (j : Bool) (d a b : Fin 32)
  /-- `XOR` (R269). -/
  | xor (k : Fin 13) (stop : Bool) (j : Bool) (d a b : Fin 32)
  /-- `SHL` (R269). -/
  | shl (k : Fin 13) (stop : Bool) (j : Bool) (d a b : Fin 32)
  /-- `SHR` (R269). -/
  | shr (k : Fin 13) (stop : Bool) (j : Bool) (d a b : Fin 32)
  /-- `SAR` (R269). -/
  | sar (k : Fin 13) (stop : Bool) (j : Bool) (d a b : Fin 32)
  /-- `MIN` (R269). -/
  | min (k : Fin 13) (stop : Bool) (j : Bool) (d a b : Fin 32)
  /-- `MAX` (R269). -/
  | max (k : Fin 13) (stop : Bool) (j : Bool) (d a b : Fin 32)
  /-- `MINU` (R269). -/
  | minu (k : Fin 13) (stop : Bool) (j : Bool) (d a b : Fin 32)
  /-- `MAXU` (R269). -/
  | maxu (k : Fin 13) (stop : Bool) (j : Bool) (d a b : Fin 32)
  /-- `CMPEQ` (R269). -/
  | cmpeq (k : Fin 13) (stop : Bool) (j : Bool) (d a b : Fin 32)
  /-- `CMPLT` (R269). -/
  | cmplt (k : Fin 13) (stop : Bool) (j : Bool) (d a b : Fin 32)
  /-- `CMPLTU` (R269). -/
  | cmpltu (k : Fin 13) (stop : Bool) (j : Bool) (d a b : Fin 32)
  /-- `ADDS` (R269). -/
  | adds (k : Fin 13) (stop : Bool) (j : Bool) (d a b : Fin 32)
  /-- `SUBS` (R269). -/
  | subs (k : Fin 13) (stop : Bool) (j : Bool) (d a b : Fin 32)
  /-- `ABS` (R269). -/
  | abs (k : Fin 13) (stop : Bool) (j : Bool) (d a : Fin 32)
  /-- `CLZ` (R269). -/
  | clz (k : Fin 13) (stop : Bool) (j : Bool) (d a : Fin 32)
  /-- `ADDI` (R269). -/
  | addi (k : Fin 13) (stop : Bool) (j : Bool) (d a : Fin 32) (imm : BitVec 12)
  /-- `ANDI` (R269). -/
  | andi (k : Fin 13) (stop : Bool) (j : Bool) (d a : Fin 32) (imm : BitVec 12)
  /-- `ORI` (R269). -/
  | ori (k : Fin 13) (stop : Bool) (j : Bool) (d a : Fin 32) (imm : BitVec 12)
  /-- `XORI` (R269). -/
  | xori (k : Fin 13) (stop : Bool) (j : Bool) (d a : Fin 32) (imm : BitVec 12)
  /-- `SHLI` (R269). -/
  | shli (k : Fin 13) (stop : Bool) (j : Bool) (d a : Fin 32) (imm : BitVec 12)
  /-- `SHRI` (R269). -/
  | shri (k : Fin 13) (stop : Bool) (j : Bool) (d a : Fin 32) (imm : BitVec 12)
  /-- `SARI` (R269). -/
  | sari (k : Fin 13) (stop : Bool) (j : Bool) (d a : Fin 32) (imm : BitVec 12)
  /-- `CMPEQI` (R269). -/
  | cmpeqi (k : Fin 13) (stop : Bool) (j : Bool) (d a : Fin 32) (imm : BitVec 12)
  /-- `CMPLTI` (R269). -/
  | cmplti (k : Fin 13) (stop : Bool) (j : Bool) (d a : Fin 32) (imm : BitVec 12)
  /-- `LI` (R269). -/
  | li (k : Fin 13) (stop : Bool) (j : Bool) (d : Fin 32) (imm : BitVec 17)
  /-- `LIH` (R269). -/
  | lih (k : Fin 13) (stop : Bool) (j : Bool) (d : Fin 32) (imm : BitVec 12)
  /-- `MOVX` (R269). -/
  | movx (k : Fin 13) (stop : Bool) (j : Bool) (d : Fin 8) (a : Fin 32)
  /-- `MOVG` (R269). -/
  | movg (k : Fin 13) (stop : Bool) (j : Bool) (d : Fin 32) (a : Fin 8)
  /-- `ADDX` (R269). -/
  | addx (k : Fin 13) (stop : Bool) (j : Bool) (d a : Fin 8) (imm : BitVec 12)
  /-- `RDP` (R269). -/
  | rdp (k : Fin 13) (stop : Bool) (j : Bool) (d : Fin 32) (a : Fin 4) (imm : BitVec 12)
  /-- `RDA` (R269). -/
  | rda (k : Fin 13) (stop : Bool) (j : Bool) (d : Fin 32) (a : Fin 4) (imm : BitVec 12)
  /-- `RDAR` (R269). -/
  | rdar (k : Fin 13) (stop : Bool) (j : Bool) (d : Fin 32) (a : Fin 4) (imm : BitVec 12)
  /-- `MUL` (R270). -/
  | mul (k : Fin 13) (stop : Bool) (d : Fin 4) (a b : Fin 32)
  /-- `MULU` (R270). -/
  | mulu (k : Fin 13) (stop : Bool) (d : Fin 4) (a b : Fin 32)
  /-- `MAC` (R270). -/
  | mac (k : Fin 13) (stop : Bool) (d : Fin 4) (a b : Fin 32)
  /-- `MSU` (R270). -/
  | msu (k : Fin 13) (stop : Bool) (d : Fin 4) (a b : Fin 32)
  /-- `MACZ` (R270). -/
  | macz (k : Fin 13) (stop : Bool) (d : Fin 4) (a b : Fin 32)
  /-- `MACU` (R270). -/
  | macu (k : Fin 13) (stop : Bool) (d : Fin 4) (a b : Fin 32)
  /-- `MOVA` (R270). -/
  | mova (k : Fin 13) (stop : Bool) (d : Fin 4) (a : Fin 32) (n : BitVec 6)
  /-- `ASHR` (R270). -/
  | ashr (k : Fin 13) (stop : Bool) (d a : Fin 4) (n : BitVec 6)
  /-- `AINS` (R270). -/
  | ains (k : Fin 13) (stop : Bool) (d : Fin 4) (a : Fin 32) (n : BitVec 6)
  /-- `LD_B` (R271). -/
  | ldB (k : Fin 13) (stop : Bool) (g : Fin 32) (at_ : LAddr) (ecc : Ecc)
  /-- `LD_BS` (R271). -/
  | ldBs (k : Fin 13) (stop : Bool) (g : Fin 32) (at_ : LAddr) (ecc : Ecc)
  /-- `LD_H` (R271). -/
  | ldH (k : Fin 13) (stop : Bool) (g : Fin 32) (at_ : LAddr) (ecc : Ecc)
  /-- `LD_HS` (R271). -/
  | ldHs (k : Fin 13) (stop : Bool) (g : Fin 32) (at_ : LAddr) (ecc : Ecc)
  /-- `LD_T` (R271). -/
  | ldT (k : Fin 13) (stop : Bool) (g : Fin 32) (at_ : LAddr) (ecc : Ecc)
  /-- `LD_W` (R271). -/
  | ldW (k : Fin 13) (stop : Bool) (g : Fin 32) (at_ : LAddr) (ecc : Ecc)
  /-- `LD_D` (R271). -/
  | ldD (k : Fin 13) (stop : Bool) (g : Fin 32) (at_ : LAddr) (ecc : EccPair)
  /-- `ST_B` (R271). -/
  | stB (k : Fin 13) (stop : Bool) (g : Fin 32) (at_ : LAddr)
  /-- `ST_H` (R271). -/
  | stH (k : Fin 13) (stop : Bool) (g : Fin 32) (at_ : LAddr)
  /-- `ST_T` (R271). -/
  | stT (k : Fin 13) (stop : Bool) (g : Fin 32) (at_ : LAddr)
  /-- `ST_W` (R271). -/
  | stW (k : Fin 13) (stop : Bool) (g : Fin 32) (at_ : LAddr)
  /-- `ST_D` (R271). -/
  | stD (k : Fin 13) (stop : Bool) (g : Fin 32) (at_ : LAddr)
  /-- `LDX` (R271). -/
  | ldx (k : Fin 13) (stop : Bool) (d : Fin 8) (at_ : LAddr) (ecc : Ecc)
  /-- `STX` (R271). -/
  | stx (k : Fin 13) (stop : Bool) (d : Fin 8) (at_ : LAddr)
  /-- `SETW` (R271). -/
  | setw (k : Fin 13) (stop : Bool) (w : Fin 4) (g : Fin 32)
  /-- `NOPC` (R272). -/
  | nopc (k : Fin 13) (stop : Bool)
  /-- `BR` (R272). -/
  | br (k : Fin 13) (stop : Bool) (tgt : BitVec 16)
  /-- `BZ` (R272). -/
  | bz (k : Fin 13) (stop : Bool) (g : Fin 32) (tgt : BitVec 16)
  /-- `BNZ` (R272). -/
  | bnz (k : Fin 13) (stop : Bool) (g : Fin 32) (tgt : BitVec 16)
  /-- `CALL` (R275). -/
  | call (k : Fin 13) (stop : Bool) (tgt : BitVec 16)
  /-- `RET` (R275). -/
  | ret (k : Fin 13) (stop : Bool)
  /-- `LOOP` (R274). -/
  | loop (k : Fin 13) (stop : Bool) (g : Fin 32) (tgt : BitVec 16)
  /-- `WAIT` (R276). -/
  | wait (k : Fin 13) (stop : Bool)
  /-- `WAIT_END` (R276). -/
  | waitEnd (k : Fin 13) (dot : Nat)
  /-- `FENCE` (R258). -/
  | fence (k : Fin 13) (stop : Bool)
  /-- `RETI` (R282). -/
  | reti (k : Fin 13) (stop : Bool)
  /-- `TRAP` (R272). -/
  | trap (k : Fin 13) (stop : Bool) (imm : BitVec 16)
  /-- `BRG` (R272). -/
  | brg (k : Fin 13) (stop : Bool) (g : Fin 32)
  /-- `CALLG` (R272). -/
  | callg (k : Fin 13) (stop : Bool) (g : Fin 32)
  /-- `CSRR` (R272). -/
  | csrr (k : Fin 13) (stop : Bool) (g : Fin 32) (csr : BitVec 12)
  /-- `CSRW` (R272). -/
  | csrw (k : Fin 13) (stop : Bool) (g : Fin 32) (csr : BitVec 12)
  /-- `CSRS` (R272). -/
  | csrs (k : Fin 13) (stop : Bool) (g : Fin 32) (csr : BitVec 12)
  /-- `CSRC` (R272). -/
  | csrc (k : Fin 13) (stop : Bool) (g : Fin 32) (csr : BitVec 12)
  /-- `BEAM_LO_READ` (R277). -/
  | beamLoRead (k : Fin 13) (stop : Bool) (g : Fin 32) (dot : Nat)
  /-- `CYCLE_LO_READ` (R277). -/
  | cycleLoRead (k : Fin 13) (stop : Bool) (g : Fin 32) (stall : BitVec 48)
  /-- `IVEC_CLAIM` (R406). -/
  | ivecClaim (k : Fin 13) (stop : Bool) (g : Fin 32)
  /-- `FAR_LOAD_RESPONSE` (R258). -/
  | farLoadResponse (k : Fin 13) (host : List Byte)
  /-- `FAR_STORE_ACK` (R258). -/
  | farStoreAck (k : Fin 13)
  /-- `TRAP_ENTRY` (R279). -/
  | trapEntry (k : Fin 13) (cause : TrapCause)
  /-- `INTERRUPT_ENTRY` (R281). -/
  | interruptEntry (k : Fin 13)
  /-- `LOCKSTEP_MISMATCH` (R284). -/
  | lockstepMismatch
  /-- `SEQ_LEAVE_RESET` (R286). -/
  | seqLeaveReset (p : Fin 8)
  /-- `SEQ_HALT` (R287). -/
  | seqHalt (p : Fin 8)
  /-- `SEQL_KICK` (R299). -/
  | seqlKick (p : Fin 8)
  /-- `SEQL_DOORBELL` (R301). -/
  | seqlDoorbell (p : Fin 8)
  /-- `SLOT_WRITE_SERVED` (R291). -/
  | slotWriteServed (p : Fin 8) (latency : BitVec 8)
  /-- `SEQ_WDT_EXPIRE` (R299). -/
  | seqWdtExpire (p : Fin 8)
  /-- `AUD_MCLK_LOST` (R307). -/
  | audMclkLost (d : Fin 2)
  /-- `AUD_MCLK_RESTORED` (R307). -/
  | audMclkRestored (d : Fin 2)
  /-- `AUD_PORT_SLIP` (R311). -/
  | audPortSlip (slip : PortSlip)
  /-- `TDM_FS_ERROR` (R312). -/
  | tdmFsError (p : Fin 8)
  /-- `TDM_RESYNC_DONE` (R312). -/
  | tdmResyncDone (p : Fin 8) (ok : Bool)
  /-- `ASRC_LOCK` (R322). -/
  | asrcLock (b : Fin 6) (ratio : BitVec 24)
  /-- `ASRC_UNLOCK` (R322). -/
  | asrcUnlock (b : Fin 6)
  /-- `XP_GAIN_WRITE` (R317). -/
  | xpGainWrite (who : Initiator) (inp out : Fin 128) (target : BitVec 16)
  /-- `ST_GAIN_WRITE` (R321). -/
  | stGainWrite (who : Initiator) (t : Fin 2) (target : BitVec 16)
  /-- `GAIN_CHANGE_START` (R317). -/
  | gainChangeStart (inp out : Fin 128) (st : Option (Fin 2))
  /-- `AUD_ZC_TIMEOUT` (R317). -/
  | audZcTimeout (inp out : Fin 128) (st : Option (Fin 2))
  /-- `AUD_CORE_LEAVE_RESET` (R324). -/
  | audCoreLeaveReset (c : Fin 4)
  /-- `AUD_BLOCK_BOUNDARY` (R326). -/
  | audBlockBoundary (c : Fin 4)
  /-- `AUDL_DONE` (R326). -/
  | audlDone (c : Fin 4)
  /-- `AUDL_KICK` (R328). -/
  | audlKick (c : Fin 4)
  /-- `AUDL_DOORBELL` (R336). -/
  | audlDoorbell (c : Fin 4)
  /-- `AUD_CORE_WDT_EXPIRE` (R328). -/
  | audCoreWdtExpire (c : Fin 4)
  /-- `AUD_FRAME_LATCH` (R329). -/
  | audFrameLatch (d : Fin 3) (phase : BitVec 8) (dot : Nat)
  /-- `PLAY_GO` (R333). -/
  | playGo (who : Initiator) (k : Fin 8) (ctl : BitVec 32)
  /-- `PLAY_STOP` (R334). -/
  | playStop (who : Initiator) (k : Fin 8) (ctl : BitVec 32)
  /-- `AUD_PLAY_START` (R333). -/
  | audPlayStart (k : Fin 8)
  /-- `AUD_PLAY_DONE` (R333). -/
  | audPlayDone (k : Fin 8)
  /-- `PRESS_START` (R343). -/
  | pressStart (who : Initiator) (e : Fin 2) (hi : BitVec 8) (lo : Option (BitVec 32))
  /-- `PRESS_ENTRY_FETCHED` (R345). -/
  | pressEntryFetched (e : Fin 2)
  /-- `PRESS_NOP` (R349). -/
  | pressNop (e : Fin 2)
  /-- `PRESS_FILL` (R349). -/
  | pressFill (e : Fin 2) (chunks : Nat)
  /-- `PRESS_COPY` (R349). -/
  | pressCopy (e : Fin 2) (chunks : Nat)
  /-- `PRESS_BLEND` (R349). -/
  | pressBlend (e : Fin 2) (chunks : Nat)
  /-- `PRESS_CONVERT` (R349). -/
  | pressConvert (e : Fin 2) (chunks : Nat)
  /-- `PRESS_EXPAND` (R349). -/
  | pressExpand (e : Fin 2) (chunks : Nat)
  /-- `PRESS_ROTATE` (R349). -/
  | pressRotate (e : Fin 2) (chunks : Nat)
  /-- `PRESS_ENTRY_DONE` (R345). -/
  | pressEntryDone (e : Fin 2)
  /-- `PRESS_TIMEOUT` (R353). -/
  | pressTimeout (e : Fin 2) (write : Bool) (chunks requests : Nat)
  /-- `PRESS_ABORT` (R355). -/
  | pressAbort (e : Fin 2)
  /-- `DMA_START` (R366). -/
  | dmaStart (who : Initiator) (n : Fin 64) (hi : BitVec 8) (lo : Option (BitVec 32))
  /-- `DMA_DESC_FETCHED` (R372). -/
  | dmaDescFetched (n : Fin 64) (host : List Byte)
  /-- `DMA_GATE_OPEN` (R370). -/
  | dmaGateOpen (n : Fin 64)
  /-- `DMA_DESC_DONE` (R372). -/
  | dmaDescDone (n : Fin 64) (host : List Byte)
  /-- `DMA_TIMEOUT` (R373). -/
  | dmaTimeout (n : Fin 64) (write : Bool) (beats : Nat) (host : List Byte)
  /-- `DMA_STOP` (R375). -/
  | dmaStop (n : Fin 64)
  /-- `DMA_DEADLINE` (R377). -/
  | dmaDeadline (n : Fin 64)
  /-- `TIMER_WRAP` (R383). -/
  | timerWrap (n : Fin 64) (ticks : BitVec 32)
  /-- `TIMER_COMPARE` (R388). -/
  | timerCompare (n : Fin 64) (ticks : BitVec 32)
  /-- `TIMER_CAPTURE` (R391). -/
  | timerCapture (n : Fin 64) (ticks : BitVec 32)
  /-- `TIMER_SLAVE_RESTART` (R390). -/
  | timerSlaveRestart (n : Fin 64)
  /-- `TIMER_LINE_RESTART` (R395). -/
  | timerLineRestart (n : Fin 64)
  /-- `TIMER_START` (R393). -/
  | timerStart (mask : BitVec 64)
  /-- `TIMER_STOP` (R393). -/
  | timerStop (mask : BitVec 64)
  /-- `TIMER_COUNT_WRITE` (R388). -/
  | timerCountWrite (n : Fin 64) (value : BitVec 32)
  /-- `TIMER_CMP_WRITE` (R388). -/
  | timerCmpWrite (n : Fin 64) (value : BitVec 32)
  /-- `TIMER_COUNT_READ` (R387). -/
  | timerCountRead (who : Initiator) (n : Fin 64) (ticks : BitVec 32)
  /-- `TIMER_CAPTURE_READ` (R391). -/
  | timerCaptureRead (who : Initiator) (n : Fin 64) (part : ReadPart)
  /-- `INTC_EN_SET` (R405). -/
  | intcEnSet (who : Initiator) (g : Fin 16) (bits : BitVec 32)
  /-- `INTC_EN_CLR` (R405). -/
  | intcEnClr (who : Initiator) (g : Fin 16) (bits : BitVec 32)
  /-- `INTC_PEND_SET` (R405). -/
  | intcPendSet (who : Initiator) (g : Fin 16) (bits : BitVec 32)
  /-- `INTC_PEND_CLR` (R405). -/
  | intcPendClr (who : Initiator) (g : Fin 16) (bits : BitVec 32)
  /-- `MSIX_ENABLE` (R621). -/
  | msixEnable (table : MsixTable) (functionMask : Bool)
  /-- `MSIX_UNMASK` (R408). -/
  | msixUnmask (v : Option (Fin 64))
  /-- `MBX_DOORBELL` (R421). -/
  | mbxDoorbell (via : Via) (m : Fin 16)
  /-- `NOP` (R424). -/
  | nop (m : Fin 16)
  /-- `GET_INFO` (R424). -/
  | getInfo (m : Fin 16)
  /-- `PARAM_SET` (R426). -/
  | paramSet (m : Fin 16)
  /-- `PARAM_GET` (R426). -/
  | paramGet (m : Fin 16)
  /-- `POWER_STATE` (R532). -/
  | powerState (m : Fin 16)
  /-- `RESET_WARM` (R544). -/
  | resetWarm (m : Fin 16)
  /-- `RESET_BLOCK` (R546). -/
  | resetBlock (m : Fin 16)
  /-- `FAULT_STATUS` (R582). -/
  | faultStatus (m : Fin 16)
  /-- `REINSTATE` (R565). -/
  | reinstate (m : Fin 16)
  /-- `SELFTEST_RUN` (R568). -/
  | selftestRun (m : Fin 16)
  /-- `SELFTEST_RESULTS` (R573). -/
  | selftestResults (m : Fin 16)
  /-- `LOG_READ` (R472). -/
  | logRead (m : Fin 16)
  /-- `UPDATE_BEGIN` (R454). -/
  | updateBegin (m : Fin 16)
  /-- `UPDATE_DATA` (R454). -/
  | updateData (m : Fin 16)
  /-- `UPDATE_FINISH` (R454). -/
  | updateFinish (m : Fin 16)
  /-- `UPDATE_ACTIVATE_TRIAL` (R455). -/
  | updateActivateTrial (m : Fin 16)
  /-- `UPDATE_ACTIVATE_COMMIT` (R455). -/
  | updateActivateCommit (m : Fin 16)
  /-- `GET_CERT` (R459). -/
  | getCert (m : Fin 16)
  /-- `ATTEST` (R460). -/
  | attest (m : Fin 16)
  /-- `LIFECYCLE_CHALLENGE` (R462). -/
  | lifecycleChallenge (m : Fin 16)
  /-- `KEYGEN` (R458). -/
  | keygen (m : Fin 16)
  /-- `CERT_INSTALL` (R459). -/
  | certInstall (m : Fin 16)
  /-- `LIFECYCLE_TRANSITION` (R462). -/
  | lifecycleTransition (m : Fin 16)
  /-- `REVOKE_KEY` (R462). -/
  | revokeKey (m : Fin 16)
  /-- `TAKEOVER` (R495). -/
  | takeover (m : Fin 16)
  /-- `TAKEOVER_RELEASE` (R495). -/
  | takeoverRelease (m : Fin 16)
  /-- `HANDBACK` (R496). -/
  | handback (m : Fin 16)
  /-- `HANDBACK_TAKE` (R496). -/
  | handbackTake
  /-- `SAFE_WRITE` (R428). -/
  | safeWrite (m : Fin 16)
  /-- `SAFE_WRITE_AT_REACHED` (R428). -/
  | safeWriteAtReached (m : Fin 16) (dot : Nat)
  /-- `MBX_HEAD_WRITE` (R431). -/
  | mbxHeadWrite (m : Fin 16) (head : BitVec 9) (ringErr : Bool)
  /-- `MBX_MOD_TIMEOUT` (R434). -/
  | mbxModTimeout (m : Fin 16)
  /-- `DP_WINDOW_WRITE` (R437). -/
  | dpWindowWrite (xspi : Bool) (data : List Byte) (timeoutAt : Option Nat)
  /-- `DP_WINDOW_READ` (R437). -/
  | dpWindowRead (xspi : Bool) (len : Nat) (timeoutAt : Option Nat)
  /-- `DP_PREFETCH` (R439). -/
  | dpPrefetch (len : BitVec 10)
  /-- `DP_PREFETCH_READY` (R439). -/
  | dpPrefetchReady (timeoutAt : Option Nat)
  /-- `XSPI_READ` (R418). -/
  | xspiRead (addr : BitVec 32) (len : Nat)
  /-- `XSPI_WRITE` (R418). -/
  | xspiWrite (addr : BitVec 32) (data : List Byte)
  /-- `HOST_TIMEOUT` (R494). -/
  | hostTimeout
  /-- `CELLAR_WDT_EXPIRE` (R448). -/
  | cellarWdtExpire
  /-- `ROM_BOOT` (R453). -/
  | romBoot
  /-- `SENSOR_READ` (R464). -/
  | sensorRead (readings : List Int)
  /-- `VOLTAGE_SAMPLE` (R466). -/
  | voltageSample (v : Fin 24) (mv : BitVec 16)
  /-- `CLOCK_MONITOR_CHANGE` (R466). -/
  | clockMonitorChange (mon : Fin 8) (ok : Bool)
  /-- `LOG_FLUSH` (R471). -/
  | logFlush
  /-- `BOOT_TO_VIEW` (R483). -/
  | bootToView
  /-- `CAN_FRAME_RX` (R486). -/
  | canFrameRx (n : Fin 2) (ide : Bool) (id : BitVec 29) (rx : CanRx)
  /-- `SIGNAL_TIMEOUT` (R486). -/
  | signalTimeout (e : Fin 128)
  /-- `CAN_BUSOFF` (R484). -/
  | canBusoff (n : Fin 2) (tec rec : BitVec 8)
  /-- `CAN_BUSOFF_RECOVERY` (R484). -/
  | canBusoffRecovery (n : Fin 2)
  /-- `TELLTALE_WRITE` (R488). -/
  | telltaleWrite (p : Fin 8)
  /-- `CHIME_PREEMPT` (R492). -/
  | chimePreempt (k : Fin 4)
  /-- `TELLTALE_BLINK` (R489). -/
  | telltaleBlink (t : Fin 64)
  /-- `BULB_CHECK_END` (R489). -/
  | bulbCheckEnd (t : Fin 64)
  /-- `LINK_UP` (R508). -/
  | linkUp (l : Fin 2) (pass : BitVec 4) (c0 : Nat)
  /-- `LINK_DOWN` (R508). -/
  | linkDown (l : Fin 2)
  /-- `LINK_RETRAIN` (R507). -/
  | linkRetrain (l : Fin 2) (failed : BitVec 4)
  /-- `CHAIN_DISCOVERY` (R503). -/
  | chainDiscovery (chain : Option Chain) (conflict : BitVec 2)
  /-- `FLIT_LAUNCH` (R511). -/
  | flitLaunch (l : Fin 2) (dot : Nat) (frac : BitVec 8)
  /-- `TIMING_FLIT_RX` (R515). -/
  | timingFlitRx (l : Fin 2) (h : FlitHead) (t : Timing) (dot : Nat) (frac : BitVec 8)
  /-- `LINE_FLIT_RX` (R520). -/
  | lineFlitRx (l : Fin 2) (h : FlitHead) (n : BitVec 14) (part : BitVec 10) (fs fe : Bool) (format : Fin 4) (data : List Byte) (dot : Nat)
  /-- `MSG_FLIT_RX` (R524). -/
  | msgFlitRx (l : Fin 2) (h : FlitHead) (m : Msg) (host : List Byte)
  /-- `AUDIO_FLIT_RX` (R527). -/
  | audioFlitRx (l : Fin 2) (h : FlitHead) (count : BitVec 32) (samples : List (BitVec 24)) (same : Bool)
  /-- `INTR_FLIT_RX` (R526). -/
  | intrFlitRx (l : Fin 2) (h : FlitHead) (src : Fin 512) (ack : Bool)
  /-- `IDLE_FLIT_RX` (R510). -/
  | idleFlitRx (l : Fin 2) (h : FlitHead)
  /-- `CASC_TIME_STEP` (R516). -/
  | cascTimeStep
  /-- `CASC_HOLDOVER` (R517). -/
  | cascHoldover
  /-- `TUNNEL_TIMEOUT` (R524). -/
  | tunnelTimeout (id : Nat)
  /-- `CASC_PEER_IRQ_FIFO_READ` (R529). -/
  | cascPeerIrqFifoRead (who : Initiator)
  /-- `PWR_REQ_RISE` (R537). -/
  | pwrReqRise
  /-- `POWER_RETURN_DONE` (R538). -/
  | powerReturnDone
  /-- `PWR_GOOD_RISE` (R604). -/
  | pwrGoodRise (bankA bankB : Nat)
  /-- `THERMAL_TRIP` (R541). -/
  | thermalTrip
  /-- `POR` (R543). -/
  | por (role : Fin 4) (xspi : Bool) (pwrGood : Bool)
  /-- `PIN_RESET` (R543). -/
  | pinReset (role : Fin 4) (xspi : Bool)
  /-- `HOST_RESET` (R417). -/
  | hostReset (linkDown : Bool)
  /-- `FLR` (R543). -/
  | flr
  /-- `WARM_RESET` (R544). -/
  | warmReset
  /-- `WDT_RESET` (R543). -/
  | wdtReset
  /-- `RETRY_DONE` (R559). -/
  | retryDone (id : BitVec 16) (ok : Bool)
  /-- `SUSPECT_EXPIRE` (R558). -/
  | suspectExpire (id : BitVec 16)
  /-- `SELFTEST_COMPLETE` (R568). -/
  | selftestComplete (elapsedMs : BitVec 32) (last : Fin 9) (finds : List TestFind)
  /-- `REPAIR_MAP_WRITE` (R577). -/
  | repairMapWrite
  /-- `TEST_SESSION_OPEN` (R581). -/
  | testSessionOpen
  /-- `TEST_SESSION_CLOSE` (R581). -/
  | testSessionClose
  /-- `PIN_FUNCTION_SWITCH` (R597). -/
  | pinFunctionSwitch (pin : Fin 112)
  /-- `PIN_FILTER_CHANGE` (R598). -/
  | pinFilterChange (pin : Fin 112) (level accept suppressed : Bool)
  /-- `PIN_DEBOUNCE_END` (R598). -/
  | pinDebounceEnd (pin : Fin 112) (level suppressed : Bool)
  /-- `PIN_FLAG_CLR` (R599). -/
  | pinFlagClr (who : Initiator) (hi : Bool) (bits : BitVec 64)
  /-- `PIN_DOUT_SET` (R601). -/
  | pinDoutSet (who : Initiator) (hi : Bool) (bits : BitVec 64)
  /-- `PIN_DOUT_CLR` (R601). -/
  | pinDoutClr (who : Initiator) (hi : Bool) (bits : BitVec 64)
  /-- `AUD_SAMPLE_EDGE` (R316). -/
  | audSampleEdge (d : Fin 3) (rx : List (BitVec 12 × BitVec 24)) (low : List (Fin 8 × BitVec 24)) (starved : BitVec 8)
  /-- `CSI_PHY_SYNC_ACQUIRED` (R206). -/
  | csiPhySyncAcquired (port : Fin 4)
  /-- `TDM_PORT_SYNC_ACQUIRED` (R309). -/
  | tdmPortSyncAcquired (p : Fin 8)
  /-- `LP5X_PERIODIC_RETRAINING` (R557). -/
  | lp5xPeriodicRetraining (c : Fin 16) (ok : Bool)
  /-- `MSIX_DISABLE` (R621). -/
  | msixDisable
  /-- `BUS_MASTER_ENABLE_WRITE` (R431). -/
  | busMasterEnableWrite (en : Bool) (ringErr : Bool)
  /-- `PCIE_LINK_UP` (R543). -/
  | pcieLinkUp (pmeEn : Bool)
  /-- `PME_TURN_OFF` (R540). -/
  | pmeTurnOff
  /-- `TAKEOVER_TIMEOUT` (R495). -/
  | takeoverTimeout
deriving DecidableEq, Repr

end Sys2Proof
end

