-- ==== Sys2Proof/Decode.lean ====
section
/-! DEFINITION. Commands spelt by table words. The opcode table of this block gives no row any bits, so no word spells a command. -/

namespace Sys2Proof

/-- The command that the bits of a table word spell: no row of the table has bits. -/
def decodeTableWord (_nbits _w : Nat) : Option Instr := none

end Sys2Proof
end

