-- ==== Sys2Proof/Config.lean ====
section
/-! DEFINITION. What an implementation fixes and the spec leaves open: the free values. Each is an opaque constant, so
nothing can be proved of the value it gives; the assumption log names each. -/

namespace Sys2Proof

/-- The `n`-th 64-bit draw of the Cellar's true random number generator (R75, R462; assumption 1). -/
opaque Config.trng : Nat → BitVec 64

/-- How far the slots given to the background test have brought an open region, when its phase is read (R97, R98; assumption 143). -/
opaque Config.bgtPhase : Nat → Nat

/-- Whether a ring entry that the device writes to host memory of its own accord draws a PCIe error (R433; assumption 170). -/
opaque Config.ringErr : Nat → Bool

/-- SHA-384 of a byte string (R449; assumption 2). -/
opaque Config.sha384 : List Byte → List Byte

/-- The verdict of an ECDSA P-384 signature check: public key, message, signature (R449; assumption 2). -/
opaque Config.verify : List Byte → List Byte → List Byte → Bool

/-- The signature the unit's private key makes: public key of the pair, message, draw (R449; assumption 2). -/
opaque Config.sign : List Byte → List Byte → Nat → List Byte

/-- X and Y of the public key of the `n`-th key pair drawn (R449, R458; assumption 2). -/
opaque Config.keyPair : Nat → List Byte

/-- The PKCS#10 request, in DER, for a public key (R462; assumption 2). -/
opaque Config.csr : List Byte → Nat → List Byte

/-- The subject public key, and the agreement of issuer and intermediate, that an X.509 certificate states
(R459; assumption 2). -/
opaque Config.certKey : List Byte → List Byte
opaque Config.certIssuedBy : List Byte → List Byte → Bool

/-- The level filter of a voltage monitor over its last samples, in mV (R466; assumption 3). -/
opaque Config.voltFilter : List Nat → Nat

/-- A sample position that lies exactly midway between two source pixels takes the upper one in a NEAREST or one-tap
filter (R110, R112; assumption 4). -/
opaque Config.nearestTieUp : Bool

/-- One component of the horizontal polyphase filter: SHARP, the step at which it filters (u4.20), the phase of 64, and its 8 taps, each the
sum of the group of 1, 2 or 4 source pixels that it averages (R112; assumption 4). -/
opaque Config.filterH : Bool → Nat → Nat → Nat → List Nat → Nat

/-- One component of the vertical filter: SHARP, step, the phase of 64, the lines' samples (R110, R112; assumption 4). -/
opaque Config.filterV : Bool → Nat → Nat → List Nat → Nat

/-- Whether a quotient that R110 or R128 forms, and rounds in a way the spec does not state, is rounded up (assumption 4). -/
opaque Config.roundsUp : Nat → Nat → Bool

/-- A derived horizon value outside its register format, as the engine takes it (R129; assumption 5). -/
opaque Config.horizonOverflow : Int → Int

/-- Bytes of LP5X installed (R26; assumption 7). -/
opaque Config.lp5xTotal : Nat

/-- The channel that holds an LP5X address, given the channels interleaved (R563; assumption 7). -/
opaque Config.lp5xChannel : Nat → Nat → Nat

/-- The cclk that the draw unit waits for pattern rows outside its cache, and how many pixels of the object it has then drawn at the
deadline (R159; assumption 136). -/
opaque Config.harpWait : Nat → Nat
opaque Config.harpShown : Nat → Nat

/-- A sum of the object layer past full scale, as the Harp takes it (R155; assumption 10). -/
opaque Config.harpOverflow : Nat → Nat

/-- How far firmware lengthens a frame-sync lead after a late line, in dots, before the limit of 1 µs (R223; assumption 11). -/
opaque Config.paceLengthen : Nat → Nat

/-- TAG_DATA of a DP_LINK notification, of port and event (R195, R424; assumption 13). -/
opaque Config.dpLinkTag : Nat → Nat → Nat

/-- The sink at a port reports Adaptive-Sync support, and a refresh range that covers the pipe's, from the first rate to the second, each a
fraction in Hz (R196; assumption 31). -/
opaque Config.sinkCovers : Nat → Nat × Nat → Nat × Nat → Bool

/-- The sample that an ASRC bridge puts out: bridge, channel, sample index (R322; assumption 18). -/
opaque Config.asrcSample : Nat → Nat → Nat → BitVec 24

/-- A sample of a bridge at step 1 to 63 of its fade in or out over 64 samples (R322; assumption 18). -/
opaque Config.asrcFaded : Nat → BitVec 24 → BitVec 24

/-- The ratio that an enabled bridge measures, of bridge and sample index of its destination domain (R322; assumption 18). -/
opaque Config.asrcRatio : Nat → Nat → BitVec 24

/-- The moment of a TDM frame at which its pins are read, in BCLK periods from the frame's first (R309; assumption 25). -/
opaque Config.tdmPhase : Nat → Nat

/-- What a trap or interrupt entry with no failing access leaves in EADDR [23:0] and CAUSE.SPACE [26:24] (R278, R279;
assumption 20). -/
opaque Config.trapFields : Nat → BitVec 27

/-- The value of an address register that one syllable both loads and advances (R271; assumption 21). -/
opaque Config.ldxClash : Nat → BitVec 24

/-- What a load from the Cellar's own local I/O page returns (R447; assumption 22). -/
opaque Config.cellarPage : Nat → BitVec 24

/-- DATA1 of a SEQ_STOP or AUD_CORE_STOP log entry that no trap caused (R470; assumption 23). -/
opaque Config.stopCause : Nat

/-- The level of an output function whose waveform no rule fixes at the moment of the read: serial clocks and data (R592, R593;
assumption 25). -/
opaque Config.padWave : Nat → Bool

/-- Code, severity and data of a log entry that a rule asks for and no rule codes, by its kind: 0 and 1 an entry to and exit from
HOLDOVER (R517), 2 the sending of a pipe disabled (R513), 3 a sensor marked invalid (R464); the second argument is the entry's
number (assumption 27). -/
opaque Config.logEntry : Nat → Nat → BitVec 16 × Fin 4 × BitVec 32 × BitVec 32

/-- Milliseconds that a shutdown self-test has run, counted in the maximum times of its items (R575; assumption 37). -/
opaque Config.selftestSpent : Nat → Nat

/-- LEVEL and reading of a CELLAR_CLOCK log entry and notification, of monitor and verdict (R466, R470; assumption 36). -/
opaque Config.clockLevel : Nat → Bool → BitVec 8 × BitVec 16

/-- FRAME_NUM of a frame that a feed carries, which comes with no frame number (R212, R520; assumption 28). -/
opaque Config.feedFrameNum : Nat → BitVec 16

/-- MINSLACK and MAXLAT of an output frame in which a raced engine took no line (R220; assumption 94). -/
opaque Config.minslackNone : Nat → BitVec 16
opaque Config.maxlatNone : Nat → BitVec 16

/-- The colorimetry that the VSC packet of a pipe names (R195; assumption 169). -/
opaque Config.colorimetry : Nat → BitVec 4

/-- INFO and the payload bytes of a TIMING flit and of a MSG flit that hold the values listed (R505, R506, R514, R524;
assumption 165). -/
opaque Config.timingBytes : List Nat → BitVec 32 × List Byte
opaque Config.msgBytes : List Nat → BitVec 32 × List Byte

end Sys2Proof
end

