-- ==== Sys2Proof/Machine/State.lean ====
section
/-! DEFINITION. The state of the block as plain data, its faults and refusals, and the state after reset. -/

namespace Sys2Proof.Machine

/-- Retention class of a field or parameter (R16). -/
inductive Cls where
  | sticky | warm | plain
deriving DecidableEq, Repr

/-- Type of a register field (R12). -/
inductive FTyp where
  | rw | ro | wo | sc | set | clr
deriving DecidableEq, Repr

/-- One register field: the IRS offset of its register, its bits, its reset value, class and type (R11).
`live` marks a read-only field that reports the present state of a unit (R618). -/
structure Fld where
  off : Nat
  lsb : Nat
  width : Nat
  reset : Nat
  cls : Cls
  typ : FTyp
  live : Bool
deriving DecidableEq, Repr

/-- Who owns a register (R30). -/
inductive Owner where
  | host | firmware
deriving DecidableEq, Repr

/-- The write tag of an initiator (R32). -/
inductive Tag where
  | host | cellar | seq (p : Nat) | aud (c : Nat) | peer | unit
deriving DecidableEq, Repr

/-- Why the machine stops. No command of this block has a behaviour to which the spec gives no effect at all, so
nothing raises `unreachable`; it exists because the interface asks for a type of faults (safe: a stop proves nothing). -/
inductive Fault where
  | unreachable
deriving DecidableEq, Repr

/-- Why a command is refused. -/
inductive Refusal where
  /-- No meaning was written for the command (raised by `exec` alone; safe). -/
  | notModelled (mnemonic : String)
deriving DecidableEq, Repr

/-- A pixel: red, green, blue and alpha, 12 bits each (R121). -/
structure Px where
  r : Nat
  g : Nat
  b : Nat
  a : Nat
deriving DecidableEq, Repr

/-- The LP5X controller, bit per channel: those its last initialisation interleaved, and those of them out of service since (R563). -/
structure LpState where
  channels : Nat
  out : Nat
deriving DecidableEq, Repr

/-- The synthesiser and geometry setting in force on the reference raster (R45, R46). -/
structure RefSetting where
  lines : Nat
  dots : Nat
  synN : Nat
  synNum : Nat
  synDen : Nat
  synP : Nat
deriving DecidableEq, Repr

/-- The running part of one pipe lock (R56 to R62) that its registers do not show. -/
structure LockRun where
  /-- Frame field of the anchor frame awaited or last taken as anchor. -/
  anchorFrame : Nat
  /-- Pipe frames started since the last anchor pipe frame; `none` before the first anchor. -/
  since : Option Nat
  /-- Dots by which R61 has moved the anchor target. -/
  shift : Nat
  /-- Slew target in use: 0 nominal, 1 raised, 2 lowered (R59). -/
  slew : Nat
deriving DecidableEq, Repr

/-- The high half of a 64-bit register (or the epoch) that a low-word read left for one initiator (R54, R55). -/
structure Shadow where
  tag : Tag
  off : Nat
  value : Nat
deriving DecidableEq, Repr

/-- The reference raster beside its registers. -/
structure RefState where
  setting : RefSetting
  locks : List LockRun
  shadows : List Shadow
deriving DecidableEq, Repr

/-- An open region of the background test (R97, R98). -/
structure BgtRun where
  bank : Nat
  region : Nat
deriving DecidableEq, Repr

/-- The Vat beside its registers: its contents by physical place, the hash key, and work in progress. -/
structure VatState where
  /-- Contents: address = bank × 4 MB + row × 64 + byte; an unlisted byte is 0 (R76: zero-filled). -/
  data : List Host.Cell
  /-- Poisoned 128-bit ECC words (R88), each as its physical address div 16; strictly rising. -/
  poison : List Nat
  /-- The halves KA and KB of the hash key (R73, R75). -/
  ka : Nat
  kb : Nat
  /-- log2 of the interleave-group width W in force (R72). -/
  groupLog2 : Nat
  /-- The class-0 reservation in force at each bank (R80). -/
  c0Res : List Nat
  /-- Corrected words waiting for their write-back (R86): bank and ECC word index. -/
  ceQueue : List (Nat × Nat)
  /-- Beam stamps of the recent corrections of each bank, newest first (R92). -/
  ceStamps : List (Nat × Nat)
  /-- Bank power transitions in progress: bank, state left, state sought (R82). -/
  moving : List (Nat × Nat × Nat)
  /-- Power states commanded of banks in transition, which follow the transition in progress (R82): bank, state. -/
  queued : List (Nat × Nat)
  /-- Banks under an immediate full scrub (R92). -/
  scrubbing : List Nat
  /-- Of those, the banks that saw a new burst since the scrub began. -/
  scrubBurst : List Nat
  /-- Banks in which an uncorrectable or parity error was met since the last initialisation, newest first (R92). -/
  ueSince : List Nat
  /-- The open background-test region. -/
  bgt : Option BgtRun
  /-- Requests that VAT_ACCESS showed to fail their address parity and whose requester has not had the answer: requester and line (R89). -/
  failed : List (Initiator × Nat)
  /-- A refused access was raised in this reference frame (R83). -/
  parkedSeen : Bool
  /-- A poisoned read was raised in this reference frame (R90). -/
  poisonSeen : Bool
  /-- The bytes and the bus-error flag that the last VAT_ACCESS or alias write returned to its requester. -/
  respData : List Byte
  respError : Bool
deriving DecidableEq, Repr

/-- A completed output line: its pipe line, the pipe dot of its first pixel, and its pixels. -/
structure LineBuf where
  line : Nat
  x : Nat
  px : List Px
deriving DecidableEq, Repr

/-- The camera or feed frame a RING engine took at its latch line (R125, R211). -/
structure RingTake where
  stream : Nat
  buf : Nat
  base : Nat
  stride : Nat
  w : Nat
  h : Nat
  fmt : Nat
deriving DecidableEq, Repr

/-- A plane engine beside its registers (R104 to R138). -/
structure PlaneRun where
  /-- The pipe it belongs to, and the slot it fills there (R106, R107). -/
  pipe : Option Nat
  slot : Nat
  /-- The pipe line whose fetch is in progress, and the line complete in its buffer (R132). -/
  fetch : Option Nat
  ready : Option LineBuf
  /-- It underran and fetches nothing more in this frame (R137). -/
  stopped : Bool
  /-- Affine position, 16 fraction bits, and the axes written since the last snapshot (R127). -/
  affX : Int
  affY : Int
  dirtyX : Bool
  dirtyY : Bool
  /-- Status flags of the coming frame, raised by work for its line 0 (bits as PLANE_n_STATUS [6:1]). -/
  nxt : Nat
  /-- Its latched address failed the check of R189, or no frame was there (R125): transparent for the frame. -/
  bad : Bool
  noFrame : Bool
  ring : Option RingTake
  /-- No commit has named its slot since it joined (R179). -/
  paramBase : Bool
  /-- Longest fetch of the frame in progress, cclk. -/
  cost : Nat
  /-- The camera frame bound by a RACED engine, and the tap lines substituted at this line's cut-off (R217, R219). -/
  bound : Option Nat
  subs : List (Nat × Option Nat)
  cutoff : Option Nat
  /-- Measures of the output frame (R220): least slack and largest latency over the lines taken, none before the first, and lines
  replaced; and the same of the line-0 work of the coming frame. -/
  slack : Option Nat
  latency : Option Nat
  replaced : Nat
  slack0 : Option Nat
  latency0 : Option Nat
  replaced0 : Nat
  /-- A line of the frame, and of its line-0 work, was replaced as late (R219, R223). -/
  late : Bool
  late0 : Bool
deriving DecidableEq, Repr

/-- Words held by the write gate of one initiator (R149). -/
structure HarpGate where
  tag : Tag
  /-- An affine set rather than a context. -/
  aff : Bool
  index : Nat
  words : List (Nat × Nat)
deriving DecidableEq, Repr

/-- A context captured for a pipe's frame, with its affine set (R158): the eight and the four words. -/
structure Capture where
  index : Nat
  ctx : List Nat
  aff : List Nat
deriving DecidableEq, Repr

/-- The Harp's work for one pipe. -/
structure HarpRun where
  /-- The output line whose work is in progress, and the line complete in its buffer. -/
  work : Option Nat
  ready : Option LineBuf
  caps : List Capture
  stopped : Bool
  /-- Status flags of the coming frame, raised by the line-0 work. -/
  nxt : Nat
  /-- A staging copy in progress, with the registers it took at its latch: ADDR, FIRST, COUNT, AFF_FIRST, AFF_COUNT (R164);
  HARP_STAGED was raised in this frame. -/
  stage : Option (Nat × Nat × Nat × Nat × Nat)
  staged : Bool
  /-- Most units on a line, and longest work, of the frame in progress, and of the line-0 work of the coming frame. -/
  units : Nat
  cyc : Nat
  nxtUnits : Nat
  nxtCyc : Nat
deriving DecidableEq, Repr

/-- The Harp beside its registers. -/
structure HarpState where
  gates : List HarpGate
  pipes : List HarpRun
deriving DecidableEq, Repr

/-- A composed line that writeback holds: where it goes, what is written, and whether a later frame has started since (R192, R193,
R519). `link` holds the link, the channel and the class of a sending pipe. -/
structure WbLine where
  line : Nat
  addr : Nat
  data : List Byte
  link : Option (Nat × Nat × Bool)
  format : Nat
  last : Bool
  old : Bool
deriving DecidableEq, Repr

/-- A writeback frame in progress (R192, R193). -/
structure WbRun where
  active : Bool
  buf : Nat
  stamp : Nat
  /-- Lines composed and not yet written, oldest first. -/
  held : List WbLine
  /-- Frames that the next frame start found with lines still unwritten, oldest first: buffer and stamp. -/
  ending : List (Nat × Nat)
  /-- Frames since the last written one; the next buffer. -/
  since : Nat
  next : Nat
deriving DecidableEq, Repr

/-- One pipe beside its registers. -/
structure PipeRun where
  /-- Blanking line in progress. -/
  blank : Nat
  /-- The first frame awaits its anchor under R62 and R172. -/
  firstWait : Bool
  /-- The pipe was enabled and its blanking line 0 is about to start (R172). -/
  atBlank0 : Bool
  /-- The frame has started and its line 0 is about to. -/
  atLine0 : Bool
  /-- The latch line of this blanking was acted on. -/
  latchDone : Bool
  /-- The blanking line at which a set latched for the next frame (R182). -/
  latchLine : Option Nat
  /-- The pending set (R180): slot, ADDR, ADDR2; its SEQ; whether it holds a firmware commit or a deferred one, and whether
  it was pending at the start of this line. -/
  pend : Bool
  addrs : List (Nat × Nat × Nat)
  seq : Option Nat
  fw : Bool
  deferred : Bool
  aged : Bool
  /-- Committed addresses in use: slot, ADDR, ADDR2. -/
  slots : List (Nat × Nat × Nat)
  /-- Addresses replaced at a late latch whose discarded fetch has not drained (R186). -/
  drain : List (Nat × Nat)
  /-- The fetch of line 0 of the next frame has begun. -/
  line0 : Bool
  /-- Sources raised in this pipe frame, bit per i of R198. -/
  raised : Nat
  /-- Layers switched off on the next line or before, as UNDERRUN [14:0], for the coming frame. -/
  nxtOff : Nat
  /-- Safety-plane lines fetched (R174). -/
  safe0 : Option LineBuf
  safe1 : Option LineBuf
  wb : WbRun
  /-- The composed line being sent, at tap B (R177). -/
  sent : List Px
  /-- The pipe frame in progress began with a new picture rather than a repeat (R183). -/
  repeating : Bool
  /-- Reference stamp of the start of the line in progress (R289), and lines sent (R395). -/
  lineStamp : Nat
  linesSent : Nat
  /-- Longest time from issue to service of its sequencer's IRS stores in this pipe frame, cclk (R302). -/
  slotLat : Nat
deriving DecidableEq, Repr

/-- The main stream attributes of a frame: its active and total size, the two sync pulses (start, width, negative), and the component
depth code (R195, R200; what the MSA holds beside the sync: PRESUMED, assumption 169). -/
structure Msa where
  hactive : Nat
  htotal : Nat
  vactive : Nat
  hsync : Nat × Nat × Bool
  vsync : Nat × Nat × Bool
  depth : Nat
deriving DecidableEq, Repr

/-- The secondary data packets that a display port sends (R195). -/
inductive Sdp where
  /-- The main stream attributes. -/
  | msa (m : Msa)
  /-- The VSC packet, with the component depth code of its RGB and the colorimetry. -/
  | vsc (depth : Nat) (colorimetry : BitVec 4)
  /-- The Adaptive-Sync packet; the sink ignores the timing of the MSA. -/
  | adaptiveSync
deriving DecidableEq, Repr

/-- One display port beside its registers (R194 to R197). -/
structure PortRun where
  /-- A new route waits: 0 none, 1 for the old pipe's frame start, 2 for the new pipe's (R197). -/
  route : Nat
  /-- Beam stamp of the rise of HPD (R195). -/
  hpdStamp : Nat
  /-- The physical lane of each logical lane it was trained on, and whether its polarity is inverted (R194). -/
  lanes : List (Nat × Bool)
  /-- The link resets its scrambler to the alternate seed of eDP (R195). -/
  altSeed : Bool
  /-- The packets sent with the frame in progress (R195). -/
  packets : List Sdp
deriving DecidableEq, Repr

/-- A landing slot's tag, or a landing write in progress: slot, camera frame, line (R217). -/
structure LandTag where
  slot : Nat
  frame : Nat
  line : Nat
deriving DecidableEq, Repr

/-- One camera stream beside its registers (R208 to R223). -/
structure StreamRun where
  /-- FS packets seen, numbering the frames. -/
  frames : Nat
  inFrame : Bool
  buf : Option Nat
  frameNum : Nat
  lines : Nat
  corrupt : Bool
  /-- A complete frame whose last write awaits its acknowledgement: buffer, accepted with errors, long (R212). -/
  done : Option (Nat × Bool × Bool)
  /-- Completed frames; each buffer's count at its last completion, 0 while never written (R211). -/
  count : Nat
  age : List Nat
  /-- Valid tags, most recently landed first, and landing writes in progress. -/
  tags : List LandTag
  landing : List LandTag
  /-- The line that each landing slot holds, valid or not (R219). -/
  slots : List LandTag
  /-- Beam stamp from which the timeout counts (R214). -/
  since : Nat
  /-- Reference frames since the frame sync was enabled; the stamp at which the pulse went high, while it is. -/
  syncFrames : Nat
  pulse : Option Nat
  /-- The frame starts whose pulse has not fired, oldest first: reference frame numbers in REF, pipe frame stamps in PIPE (R216). -/
  syncArmed : List Nat
deriving DecidableEq, Repr

/-- Camera ingest beside its registers. -/
structure CameraState where
  streams : List StreamRun
  /-- Ports under resynchronisation, and the stamps of recent errors: port, stamp (R215). -/
  resync : List Nat
  errors : List (Nat × Nat)
  /-- CSI_ERR raised in this reference frame, bit per port (R224). -/
  portSeen : Nat
  /-- The five events of CAM_EVT, bit per stream, of the current and the last reference frame (R225). -/
  evtCur : List Nat
  evtLast : List Nat
  /-- The events raised in this reference frame, bit per stream (R224). -/
  evtSeen : List Nat
deriving DecidableEq, Repr

/-- One check rectangle in progress beside its registers (R228 to R239). -/
structure RectRun where
  rect : Nat
  /-- CRC register, and whether the last line has passed. -/
  crc : Nat
  done : Bool
  /-- A named layer was off on one of its lines (R236). -/
  off : Bool
deriving DecidableEq, Repr

/-- One Rind instance beside its registers. -/
structure RindRun where
  rects : List RectRun
  /-- The expected entries held, per rectangle; none where the read failed (R233). -/
  entries : List (Nat × Option (List Nat))
  /-- The last four CRCs of each rectangle, newest first (R235). -/
  kept : List (Nat × List Nat)
  /-- Rectangles with a failing ALERT verdict in this frame. -/
  alert : Bool
  /-- RIND_FAIL and RIND_EXP_ERR raised in this frame. -/
  failRaised : Bool
  expRaised : Bool
  /-- A broken condition, a class-0 layer off, a class-0 underrun and a slow class-0 response in this frame (R247, R248). -/
  cond : Bool
  off : Bool
  under : Bool
  slow : Bool
  /-- Whether the frame in progress has a class-0 layer, and its raced engines with their streams (R247). -/
  hasC0 : Bool
  raced : List (Nat × Nat)
deriving DecidableEq, Repr

/-- Rind beside its registers. -/
structure RindState where
  pipes : List RindRun
  /-- Rectangles whose failure was logged in this reference frame: pipe, rectangle (R240). -/
  logged : List (Nat × Nat)
  /-- Longest class-0 response of this reference frame (R248). -/
  maxlat : Nat
deriving DecidableEq, Repr

/-- The architectural registers of a Syoft core (R254, R277). -/
structure CoreRegs where
  g : List (BitVec 24)
  x : List (BitVec 24)
  w : List (BitVec 16)
  p : List Prod
  a : List Acc
  pc : BitVec 16
  /-- The return stack: its ring, PTR and COUNT (R275). -/
  rs : List (BitVec 16)
  ptr : BitVec 3
  count : BitVec 4
  ie : Bool
  exl : Bool
  lact : Bool
  aov : Bool
  estatus : BitVec 4
  epc : BitVec 16
  code : BitVec 5
  imprecise : Bool
  space : BitVec 3
  eaddr : BitVec 24
  vbase : BitVec 16
  lc : BitVec 24
  ls : BitVec 16
  le : BitVec 16
  xmod : List (BitVec 5)
  waitTarget : BitVec 48
  cycle : BitVec 48
  rsTrap : Bool
deriving DecidableEq, Repr

/-- Why a bundle is held (R258, R276): a WAIT, with whether the line start or block boundary it waits for has come; a far load
without its response; a far store that finds eight outstanding; a FENCE. -/
inductive Hold where
  | none
  | wait (hit : Bool)
  | far
  | stores
  | fence
deriving DecidableEq, Repr

/-- An M operation in flight, with the bundles that have issued since (R267). Its general-register sources are held as values;
accumulators are read in its final stage. -/
structure MInFlight where
  op : Syl
  ga : BitVec 24
  gb : BitVec 24
  age : Nat
deriving DecidableEq, Repr

/-- A posted far store (R258): its device address and bytes, the far window and the address used, and whether it was served, with an
error. -/
structure FarStore where
  addr : Nat
  data : List Byte
  sp : Nat
  ea : Nat
  served : Bool
  err : Bool
deriving DecidableEq, Repr

/-- An imprecise error that waits for its trap (R278): code, space and address. -/
structure Imprecise where
  code : Nat
  sp : Nat
  ea : Nat
deriving DecidableEq, Repr

/-- A stop that waits for a bundle boundary (R287, R299): a commanded one, or the watchdog's. -/
inductive StopDue where
  | none | halt | wdt
deriving DecidableEq, Repr

/-- A Syoft core. -/
structure CoreRun where
  regs : CoreRegs
  /-- It is out of reset and issues bundles. -/
  live : Bool
  /-- It waits to leave reset: the frames its pipe had started when the start was applied (R286). -/
  armed : Option Nat
  /-- The start in progress is a FRAME start (R286, R299). -/
  armFrame : Bool
  /-- The syllables of the bundle in progress, first to last. -/
  bundle : List Syl
  /-- The bundle in progress is complete and held. -/
  hold : Hold
  /-- The WAIT of the held bundle has ended; what still holds the bundle is an access (R276, R290). -/
  waited : Bool
  mpipe : List MInFlight
  posted : List FarStore
  imprecise : List Imprecise
  /-- The high halves shadowed for BEAM_HI, CYCLE_HI, and the page's own pair (R277, R289, R325). -/
  beamShadow : Option (BitVec 24)
  cycleShadow : Option (BitVec 24)
  pageShadow : Option (BitVec 24)
  /-- SEQL_WAITCFG or AUDL_WAITCFG. -/
  waitCfg : BitVec 24
  /-- A stop waits for the next bundle boundary; the core starts again after it (R286, R287). -/
  stopDue : StopDue
  again : Bool
  /-- Reference lines since the watchdog restarted (R299). -/
  wdt : Nat
deriving DecidableEq, Repr

/-- A crosspoint node (output × 128 + input) or side-tone path (16,384 + path) whose gain changes (R317, R318). -/
structure NodeRun where
  key : Nat
  /-- 0 written and not yet armed, 1 waiting for a crossing, 2 ramping. -/
  phase : Nat
  /-- Sample at which it armed, at which its change began, and the gain at arming; the ramp's length. -/
  n0 : Nat
  n1 : Nat
  g0 : Nat
  ramp : Nat
deriving DecidableEq, Repr

/-- A clip as a GO took it (R333). -/
structure PlayClip where
  addr : Nat
  len : Nat
  start : Nat
  comp : Bool
  format : Nat
  domain : Nat
  plays : Nat
  /-- The start sample, and the sample at which the first sample enters the crosspoint. -/
  index : Nat
  enter : Nat
deriving DecidableEq, Repr

/-- One clip player beside its registers. -/
structure PlayRun where
  armed : Option PlayClip
  playing : Option PlayClip
  pos : Nat
  rep : Nat
  /-- The sample in progress. -/
  cur : Int
  /-- A STOP waits for the next sample; the last sample has entered. -/
  stopping : Bool
  finished : Bool
  /-- The samples fetched ahead, at most 1 KB of the clip, and the next one to fetch: its place and the plays before it (R332). -/
  buf : List Int
  fpos : Nat
  frep : Nat
deriving DecidableEq, Repr

/-- What the fabric keeps for one audio core (R326, R328). -/
structure AudCoreRun where
  /-- The exchange runs; the core runs. -/
  on : Bool
  live : Bool
  /-- Samples exchanged in this block, and block boundaries since the start. -/
  pos : Nat
  blocks : Nat
  done : Bool
  play : Bool
  /-- Boundaries since the last kick. -/
  wdt : Nat
deriving DecidableEq, Repr

/-- The received audio of one Rolwauz link: sample periods waiting, oldest first, and the period in progress (R527). -/
structure LinkAudio where
  fifo : List (List Int)
  started : Bool
  cur : List Int
deriving DecidableEq, Repr

/-- The audio fabric beside its registers. -/
structure AudioState where
  /-- Received samples of the period in progress, by source code, and the side-tone's PDM samples by input. -/
  rx : List (Nat × Int)
  low : List (Nat × Int)
  /-- The inputs' and the side-tone sources' samples of the last period. -/
  prev : List Int
  stPrev : List Int
  /-- The outputs' values of the last two periods. -/
  y1 : List Int
  y2 : List Int
  /-- What was sent in the last period, by destination code. -/
  tx : List (Nat × Int)
  nodes : List NodeRun
  players : List PlayRun
  cores : List AudCoreRun
  links : List LinkAudio
  /-- Where each domain's last latch placed the reference frame start, in 1/256 of a sample period (R329). -/
  frameAt : List Int
  /-- The frames that wait in each TDM port's slave FIFOs, oldest first: received, and to be sent (R311). -/
  rxFifo : List (List (List (Nat × Int)))
  txFifo : List (List (List (Nat × Int)))
  /-- Bit p: port p drops the next frame that is to enter its empty send FIFO (R311). -/
  txDrop : Nat
  /-- How far each bridge's outputs are faded in, from 0 to 64 output samples (R322). -/
  fade : List Nat
  /-- Sources raised in this reference frame: bit 0 AUD_CLIP, 1 AUD_ZC_TIMEOUT, 2 AUD_PORT_SLIP, 3 CASC_AUD_SLIP, 4 + c
  AUD_CORE_LATE_c. -/
  seen : Nat
deriving DecidableEq, Repr

/-- The work of a Press engine (R345). -/
inductive PressPhase where
  | idle | fetch | run | finish
deriving DecidableEq, Repr

/-- A Press engine beside its registers. -/
structure PressRun where
  phase : PressPhase
  /-- Entries fetched in this activation, and the budget taken at the start (R354, R360). -/
  fetched : Nat
  budget : Nat
  /-- The 64 bytes of the entry in progress, and its status and rows once known. -/
  entry : List Byte
  status : Nat
  rows : Nat
  aborting : Bool
deriving DecidableEq, Repr

/-- The work of a DMA channel (R372). -/
inductive DmaPhase where
  | idle | fetch | gate | move | finish
deriving DecidableEq, Repr

/-- A DMA channel beside its registers. -/
structure DmaRun where
  phase : DmaPhase
  /-- The budget taken at the start, and the deadline's stamp, if any, until it is missed (R374, R377). -/
  budget : Nat
  deadline : Option Nat
  /-- The 32 bytes of the descriptor in progress, and its status once known. -/
  desc : List Byte
  status : Nat
  /-- The stamp of the gate (R370). -/
  gate : Nat
deriving DecidableEq, Repr

/-- One timer beside its registers (R383 to R395). -/
structure TimerRun where
  /-- The compare in use (R388). -/
  cmp : Nat
  /-- An event waits to restart it, and to be captured with the count as it stood; a master event waits to be counted in the next cclk
  (R390, R391). -/
  restartDue : Bool
  captureDue : Option Nat
  tickDue : Bool
  /-- Lines its pipe had sent when the lock was enabled, and at the last restart (R395). -/
  lockBase : Nat
  lockSeen : Nat
deriving DecidableEq, Repr

/-- The timers beside their registers. -/
structure TimerState where
  runs : List TimerRun
  /-- Shadow counts: reader, timer, count; and the timer each reader read last (R387). -/
  shadows : List (Tag × Nat × Nat)
  last : List (Tag × Nat)
deriving DecidableEq, Repr

/-- The interrupt controller beside its registers. -/
structure IntcState where
  /-- The in-service stack of each core 0 to 12, top first; an empty entry is `none` (R407). -/
  service : List (List (Option Nat))
  /-- Sources whose peer message awaits its acknowledgement (R410). -/
  peerWait : List Nat
  /-- MSI-X vectors masked in the table, the function mask, and the Pending Bit Array (R408, R415). -/
  msixMasked : BitVec 64
  functionMask : Bool
  pba : BitVec 64
  /-- The MSI-X table: message address and data of each vector, as the host has written them (R415). -/
  msixTable : List (BitVec 64 × BitVec 32)
  /-- Cores whose presentation a mask took away: each still takes the interrupt (R411). -/
  late : List Nat
deriving DecidableEq, Repr

/-- What the device sends to the host over PCIe (R415). -/
inductive HostMsg where
  | msix (v : Nat) (entry : BitVec 64 × BitVec 32)
  | memWrite (addr : Nat) (data : List Byte)
  | memRead (addr len : Nat)
  | pme
deriving DecidableEq, Repr

/-- An entry of a completion ring (R432) before it is placed. -/
structure RingEntry where
  mbx : Nat
  completion : Bool
  tagData : Nat
  status : Nat
  opcode : Nat
  stamp : Nat
  data2 : Nat
  notifyNow : Bool
deriving DecidableEq, Repr

/-- A request taken from a mailbox and not yet completed (R421, R429). -/
structure Rung where
  mbx : Nat
  via : Via
  /-- A HOST or FLR reset passed: its response and ring entry are discarded (R417). -/
  discard : Bool
  /-- The request area as such a reset found it. -/
  copy : Option (List Byte)
deriving DecidableEq, Repr

/-- Pieces of a blob parameter staged by one mailbox (R427). -/
structure Staging where
  mbx : Nat
  pid : Nat
  bytes : List Byte
deriving DecidableEq, Repr

/-- A SAFE_WRITE armed for a beam stamp (R428). -/
structure SafeArm where
  mbx : Nat
  addr : Nat
  stamp : Nat
  data : List Byte
deriving DecidableEq, Repr

/-- A request that waits for an event while later requests proceed (R429). -/
structure Waiting where
  mbx : Nat
  /-- What it waits for, by the opcode of the request. -/
  opcode : Nat
  arg : Nat
deriving DecidableEq, Repr

/-- The host interface beside its registers. -/
structure HifState where
  /-- Requests rung and not yet served, in the order of their doorbells (R429). -/
  rung : List Rung
  /-- Requests served that wait for an event. -/
  waiting : List (Rung × Waiting)
  /-- Ring entries held in the device, in posting order (R433, R435). -/
  held : List RingEntry
  /-- Mailboxes whose age timer runs (R434). -/
  ageOn : List Nat
  /-- U of each mailbox: entries written since it last notified (R434). -/
  unnotified : List Nat
  /-- Ring parameters that await the completion of the request that sets them (R446): its mailbox, PID, value. -/
  ringPend : List (Nat × Nat × Nat)
  staging : List Staging
  safeArms : List SafeArm
  /-- Bytes prefetched for an xSPI read of the data window (R439). -/
  prefetch : List Byte
  /-- Length of a prefetch in progress. -/
  prefetchLen : Nat
  /-- The interfaces, xSPI as `true`, with a data-port write that a peer has not acknowledged; and the doorbells behind them, in order of
  arrival (R441). -/
  dpWait : List Bool
  bells : List (Bool × Nat)
  /-- A dropped write was logged in this reference frame (R31). -/
  dropLogged : Bool
  pcieUp : Bool
  busMaster : Bool
  pmeEn : Bool
  /-- A PME_Turn_Off handshake was received (R540). -/
  turnOff : Bool
  /-- A link-down in P2 or P3 is a HOST reset that waits for the return to P0 (R540). -/
  hostDue : Bool
  /-- WAKE_N is driven low (R435). -/
  wakeN : Bool
  /-- Data returned by the last host read transaction. -/
  readOut : List Byte
  /-- Bytes that the host's memory answers to the reads of the command in progress, in order (R29). -/
  hostIn : List Byte
  /-- Messages sent to the host, newest first. -/
  out : List HostMsg
deriving DecidableEq, Repr

/-- One entry of the event log (R469). -/
structure LogEntry where
  seconds : Nat
  stamp : Nat
  code : Nat
  seq : Nat
  severity : Nat
  estimated : Bool
  data0 : Nat
  data1 : Nat
deriving DecidableEq, Repr

/-- One-time fuses (R456 to R462). -/
structure Fuses where
  lifecycle : Nat
  /-- Blown anti-rollback bits (R457). -/
  arb : Nat
  serial : Nat
  /-- SHA-384 of firmware keys 0 to 3, and their revocation fuses. -/
  keyHash : List (List Byte)
  revoked : List Bool
  /-- Public half of the unit key, once generated; the private half is wrapped and unreadable (R458). -/
  unitKey : Option (List Byte)
  keyDisabled : Bool
  /-- SHA-384 of the installed device certificate (R459). -/
  certDigest : Option (List Byte)
  /-- The fused life-cycle public key that checks tokens (R462). -/
  lifecycleKey : List Byte
deriving DecidableEq, Repr

/-- An open update session (R454). -/
structure Update where
  /-- Target slot 0 or 1, or a scene package target 2 to 5 (R482). -/
  target : Nat
  len : Nat
  erased : List Nat
deriving DecidableEq, Repr

/-- The rate limit of one sensor or monitor (R465): the reading of the sensors after which it last acted, and whether a change waits. -/
structure RateLimit where
  kind : Nat
  index : Nat
  reads : Nat
  owed : Bool
deriving DecidableEq, Repr

/-- The Cellar beside its registers. -/
structure CellarState where
  /-- A WDT reset is due, with its WDT_CAUSE (R448). -/
  wdtDue : Option Nat
  fuses : Fuses
  /-- Boot flash by offset; an unlisted byte is erased, 0xFF. -/
  flash : List Host.Cell
  /-- The log ring in retention SRAM, oldest first (R471). -/
  log : List LogEntry
  /-- The sector of the flash log that the next unit goes to (R471). -/
  logSector : Nat
  /-- Entries of the ring not yet flushed. -/
  unflushed : Nat
  update : Option Update
  /-- The LIFECYCLE nonce in force (R462). -/
  nonce : Option (List Byte)
  /-- Security version and key of the running slot. -/
  runSvn : Nat
  runKey : Nat
  /-- EPC of the Cellar core as the last WDT reset found it (R470). -/
  epc : Nat
  /-- The ROM has a start to carry out (R453). -/
  romDue : Bool
  /-- The running firmware image has been loaded. -/
  booted : Bool
  /-- A WARM reset is due (R463, R544, R568, R581). -/
  warmDue : Bool
  /-- A WDT reset that the firmware has to log, with its WDT_CAUSE (R448). -/
  wdtLog : Option Nat
  /-- The running slot was booted as a trial, and COMMIT has not come (R454, R455). -/
  trialWaits : Bool
  /-- Readings of the thermal sensors taken, one each 100 µs: the clock of the seconds count and of the rate limits (R464, R465, R468). -/
  reads : Nat
  /-- Sensors marked invalid while upsets do not count (R464, R557). -/
  heldOut : List Nat
  /-- PWR_GOOD is high (R537). -/
  pwrGood : Bool
  rates : List RateLimit
  /-- The last four samples of each voltage monitor, newest first (R466). -/
  volt : List (List Nat)
  /-- Consecutive readings of each sensor at 165 °C or more, up to 2 (R541). -/
  hot : List Nat
  /-- Consecutive readings of each sensor more than 15 °C from the median (R464). -/
  astray : List Nat
  /-- GP banks A and B take their 3.3 V range (R604). -/
  gpHigh : List Bool
  /-- The test port of a part in RETURN waits for the next POR or PIN reset (R463). -/
  testPortWaits : Bool
deriving DecidableEq, Repr

/-- A flit as the transmitter keeps it: its destination, sender, class, channel and sequence number (R505, R507). -/
structure Flit where
  dst : Nat
  src : Nat
  class0 : Bool
  channel : Nat
  seq : Nat
  body : FlitBody
  /-- Flit slots for which it has waited (R512). -/
  wait : Nat := 0
deriving DecidableEq, Repr

/-- One Rolwauz Link beside its registers. -/
structure CascLink where
  /-- Sequence number of the next sequenced flit, and the last good one received (R507). -/
  txSeq : Nat
  rxSeq : Nat
  /-- Sequenced flits sent and not acknowledged, oldest first, and those to be replayed. -/
  replay : List Flit
  resend : List Flit
  /-- Credits held for the other end's four pools, and credits owed to it (R510). -/
  credits : List Nat
  owed : List Nat
  /-- A NAK is owed; stamps of the NAKs of the last millisecond (R507). -/
  nakOwed : Bool
  discarding : Bool
  naks : List Nat
  /-- Flits ready and not launched: class-0 LINE; the four best-effort channels and, fifth, the message queue; AUDIO. -/
  c0 : List Flit
  best : List (List Flit)
  audio : List Flit
  /-- Whose turn is next among the best-effort queues (R511). -/
  turn : Nat
  timingDue : Bool
  /-- The link trains again after it was UP, its queues kept (R507, R508). -/
  retraining : Bool
  /-- T_arrive and T_launch of the last TIMING flit received (R514). -/
  lastTiming : Option (Nat × Nat)
  /-- TIMING flits missed: reference lines since the last valid one (R517). -/
  silent : Nat
  /-- Samples of the outgoing AUDIO flit in progress (R527). -/
  audioOut : List (BitVec 24)
  /-- Longest class-0 wait of this reference frame, in slots (R512). -/
  c0max : Nat
  /-- The last flit launched, with its control word: acknowledged sequence, NAK, pool and credits returned. -/
  sent : Option (Flit × Nat × Bool × Nat × Nat)
  /-- Active lanes as the link came UP, and the bytes of that flit on each of them (R504, R505). -/
  width : Nat
  lanes : List (List Byte)
  /-- The size of the other end's CLASS0 pool, and of this receiver's four pools, as the link last came UP (R510). -/
  farC0 : Nat
  pools : List Nat
deriving DecidableEq, Repr

/-- A feed's line in reception (R520). -/
structure FeedRun where
  line : Nat
  /-- The parts received, in order; a part was missing, or had another FORMAT. -/
  parts : Nat
  data : List Byte
  missing : Bool
  badFormat : Bool
  /-- The line is class 0; the last line of which a part came outside a frame (R213, R521). -/
  class0 : Bool
  orphan : Option Nat
deriving DecidableEq, Repr

/-- A tunnelled access of this device (R524): the window's position, the offset, the bytes to write (none for a read) or the
length to read, and the answer. -/
structure Tunnel where
  id : Nat
  pos : Nat
  off : Nat
  len : Nat
  data : Option (List (Option Byte))
  answer : Option (Bool × List Byte)
deriving DecidableEq, Repr

/-- A step of a slave's time that waits for its line start (R516). -/
structure TimeStep where
  /-- The stamp at which the exchange arrived, on the slave's beam, and at which its flit was launched, on the master's. -/
  own : Nat
  master : Nat
  /-- The dots that the flit has travelled since (R515, R516). -/
  delay : Nat
  /-- The master's epoch and setting. -/
  epoch : Nat
  setting : RefSetting
deriving DecidableEq, Repr

/-- The cascade beside its registers. -/
structure CascState where
  links : List CascLink
  feeds : List FeedRun
  /-- Devices on the master's link 1 (R502). -/
  n1 : Nat
  /-- Sources sent to the peer and not yet placed on a link (R410). -/
  intrOut : List Nat
  tunnels : List Tunnel
  nextId : Nat
  /-- A command met a tunnelled access that has no answer yet, and the request it adds. -/
  blocked : Bool
  ask : Option Tunnel
  /-- The peer interrupt FIFO, oldest first: source, position (R526). -/
  fifo : List (Nat × Nat)
  /-- abs(e) in 1/512 dot of the last 16 TIMING flits, newest first (R515); its maximum in 1/16 dot in this reference frame (R529). -/
  errs : List Nat
  errMax : Nat
  /-- A setting that the master applies at a stamp (R516). -/
  geom : Option (RefSetting × Nat)
  step : Option TimeStep
  /-- The slave has just started its beam counter, and takes its first exchange as R516 says. -/
  fresh : Bool
deriving DecidableEq, Repr

/-- What the fault manager keeps of one fault unit beside its register (R557 to R561, R583). -/
structure FltUnit where
  id : Nat
  /-- Beam stamps of its upsets, newest first. -/
  upsets : List Nat
  /-- Beam stamps at which its retry attempts began, newest first. -/
  attempts : List Nat
  retrying : Bool
  /-- Beam stamps of its uncorrectable link-ECC errors (an LP5X channel, R561). -/
  uncorrectable : List Nat
  /-- Beam stamp of its last SUSPECT notification (R583). -/
  noted : Option Nat
deriving DecidableEq, Repr

/-- An entry of the soft repair map (R577). -/
structure MapEntry where
  id : Nat
  sub : Nat
  spare : Nat
  addr : Nat
deriving DecidableEq, Repr

/-- What the last shutdown self-test found (R573). -/
structure TestRecord where
  seconds : Nat
  elapsedMs : Nat
  /-- Item, worst result, count of repairs or failures. -/
  items : List (Nat × Nat × Nat)
  /-- Block or unit ID, result, item: each that is not PASS. -/
  blocks : List (Nat × Nat × Nat)
deriving DecidableEq, Repr

/-- The fault manager beside its registers. -/
structure FaultState where
  units : List FltUnit
  /-- The always-on record of RETIRED units (R549, R562). -/
  record : List Nat
  /-- The entries of the valid copy of the repair map, and those not yet written to flash (R577). -/
  map : List MapEntry
  mapNew : List MapEntry
  mapSeq : Nat
  last : Option TestRecord
  /-- The thermal-trip hold drives FAULT_N (R541, R567). -/
  tripHold : Bool
  /-- The sensor and reading that tripped, until they are logged (R542). -/
  tripLog : Option (Nat × Nat)
  /-- Class-0 breaches counted (R567). -/
  breaches : Nat
  /-- A test session is open (R581). -/
  testSession : Bool
  /-- The running self-test ends into P4 rather than a WARM reset (R568, R538). -/
  testFromP4 : Bool
  /-- A results record that no firmware start has announced yet (R585). -/
  resultsDue : Bool
deriving DecidableEq, Repr


/-- The general-purpose pins beside their registers. -/
structure PinsState where
  /-- Pins whose debounce window is open (R598). -/
  window : List Nat
deriving DecidableEq, Repr

/-- A telltale of the scene package in use (R487 to R489). -/
structure TtRun where
  /-- Admitted under R487. -/
  active : Bool
  /-- Its bulb check runs; the present half of its blinking is lit. -/
  bulb : Bool
  half : Bool
  /-- A displayed state waits for the next latch line. -/
  due : Bool
  /-- PIPE_p_FRAMES as its cell was last written (R489). -/
  since : Nat
deriving DecidableEq, Repr

/-- A chime on a clip player: player, chime entry, PRIO, crosspoint output, and the chime that waits to follow it with its START
(R491, R492). -/
structure ChimeRun where
  player : Nat
  entry : Nat
  prio : Nat
  out : Nat
  next : Option (Nat × Nat)
deriving DecidableEq, Repr

/-- The standalone services beside their registers (R476 to R497). -/
structure SvcState where
  /-- Resources held: service, resource class, instance (R476). -/
  held : List (Nat × Nat × Nat)
  /-- Boot-to-view has not yet run since the firmware started (R483). -/
  bootDue : Bool
  /-- AUTOSTART of the package in use, and its digest (R479, R481). -/
  autostart : Nat
  digest : List Byte
  /-- Decoded state of each signal entry: 0 OFF, 1 ON, 2 BLINK, 3 TIMEOUT (R486). -/
  signals : List Nat
  /-- Signal entries received at least once since the services started (R489). -/
  heard : List Nat
  telltales : List TtRun
  /-- Oldest first. -/
  chimes : List ChimeRun
  /-- A takeover asked for signal notifications (R495). -/
  notify : Bool
  /-- Services being handed back, which take their resources at the next latch lines (R496). -/
  back : Nat
  /-- The pipes at whose latch line TELLTALE has stopped writing for a takeover, the last one first (R495). -/
  quiet : List Nat
  /-- Beam stamp at which a takeover last released a service (R495). -/
  released : Nat
  /-- The registers of the service record as a WARM reset found them: SVC_STATUS, SVC_TT_LIT, SVC_TT_VALID, and PKG_SEQ; none where the record
  was discarded (R545). -/
  record : Option (Nat × Nat × Nat × Nat)
deriving DecidableEq, Repr

/-! ### Each record as a reset leaves it -/


def stream0 : StreamRun :=
  { frames := 0, inFrame := false, buf := none, frameNum := 0, lines := 0, corrupt := false, done := none, count := 0,
    age := [], tags := [], landing := [], slots := [], since := 0, syncFrames := 0, pulse := none, syncArmed := [] }

/-- The registers of core `k` after a reset that clears it (R254). -/
def coreRegs0 (k : Nat) : CoreRegs :=
  { g := List.replicate 32 0, x := List.replicate 8 0, w := List.replicate 4 0, p := List.replicate 4 0,
    a := List.replicate 4 0, pc := 0, rs := List.replicate 8 0, ptr := 0, count := 0, ie := false, exl := false,
    lact := false, aov := false, estatus := 0, epc := 0, code := 0, imprecise := false, space := 0, eaddr := 0,
    vbase := 0, lc := 0, ls := 0, le := 0, xmod := List.replicate 8 0, waitTarget := 0, cycle := 0,
    rsTrap := !(8 ≤ k && k < 12) }

def core0 (k : Nat) : CoreRun :=
  { regs := coreRegs0 k, live := false, armed := none, armFrame := false, bundle := [], hold := .none, waited := false, mpipe := [],
    posted := [], imprecise := [], beamShadow := none, cycleShadow := none, pageShadow := none, waitCfg := 0,
    stopDue := .none, again := false, wdt := 0 }

def link0 : CascLink :=
  { txSeq := 0, rxSeq := 4095, replay := [], resend := [], credits := [0, 0, 0, 0], owed := [0, 0, 0, 0], nakOwed := false,
    discarding := false, naks := [], c0 := [], best := [[], [], [], [], []], audio := [], turn := 0, timingDue := false,
    retraining := false,
    lastTiming := none, silent := 0, audioOut := [], c0max := 0, sent := none, width := 0, lanes := [], farC0 := 0, pools := [0, 0, 0, 0] }

def feed0 : FeedRun := { line := 0, parts := 0, data := [], missing := false, badFormat := false, class0 := false, orphan := none }

def rind0 : RindRun :=
  { rects := [], entries := [], kept := [], alert := false, failRaised := false, expRaised := false, cond := false,
    off := false, under := false, slow := false, hasC0 := false, raced := [] }

def dma0 : DmaRun := { phase := .idle, budget := 0, deadline := none, desc := [], status := 0, gate := 0 }

def harp0 : HarpRun :=
  { work := none, ready := none, caps := [], stopped := false, nxt := 0, stage := none, staged := false, units := 0, cyc := 0,
    nxtUnits := 0, nxtCyc := 0 }

def plane0 : PlaneRun :=
  { pipe := none, slot := 0, fetch := none, ready := none, stopped := false, affX := 0, affY := 0, dirtyX := false,
    dirtyY := false, nxt := 0, bad := false, noFrame := false, ring := none, paramBase := true, cost := 0, bound := none,
    subs := [], cutoff := none, slack := none, latency := none, replaced := 0,
    slack0 := none, latency0 := none, replaced0 := 0, late := false, late0 := false }

def port0 : PortRun := { route := 0, hpdStamp := 0, lanes := [], altSeed := false, packets := [] }

def press0 : PressRun := { phase := .idle, fetched := 0, budget := 0, entry := [], status := 0, rows := 0, aborting := false }

def pipe0 : PipeRun :=
  { blank := 0, firstWait := false, atBlank0 := false, atLine0 := false, latchDone := false, latchLine := none, pend := false, addrs := [],
    seq := none, fw := false, deferred := false, aged := false, slots := [], drain := [], line0 := false, raised := 0,
    nxtOff := 0, safe0 := none, safe1 := none,
    wb := { active := false, buf := 0, stamp := 0, held := [], ending := [], since := 0, next := 0 }, sent := [], repeating := false,
    lineStamp := 0, linesSent := 0, slotLat := 0 }

def lock0 : LockRun := { anchorFrame := 0, since := none, shift := 0, slew := 0 }

def timer0 : TimerRun := { cmp := 0, restartDue := false, captureDue := none, tickDue := false, lockBase := 0, lockSeen := 0 }

def player0 : PlayRun := ⟨none, none, 0, 0, 0, false, false, [], 0, 0⟩

def audCore0 : AudCoreRun := ⟨false, false, 0, 0, false, false, 0⟩

def tt0 : TtRun := { active := false, bulb := false, half := true, due := false, since := 0 }

/-- The machine's state: everything the spec gives the block, and the queue of waiting commands. -/
structure State where
  /-- Register fields that differ from their reset values, by key (R11). -/
  cells : List (Nat × Nat)
  /-- Frame-latched values in force (R131, R200), and per-line values in force (R132), by the same keys. -/
  latched : List (Nat × Nat)
  snap : List (Nat × Nat)
  /-- Firmware parameters that no register holds (R18). -/
  params : List (Nat × Nat)
  /-- Device memory outside the Vat and the flash; an unlisted byte reads 0. -/
  mem : List Host.Cell
  ref : RefState
  lp : LpState
  vat : VatState
  planes : List PlaneRun
  harp : HarpState
  pipes : List PipeRun
  ports : List PortRun
  cam : CameraState
  rind : RindState
  intc : IntcState
  hif : HifState
  cellar : CellarState
  fault : FaultState
  svc : SvcState
  casc : CascState
  timers : TimerState
  pins : PinsState
  aud : AudioState
  /-- The 13 Syoft cores (R28). -/
  cores : List CoreRun
  press : List PressRun
  dma : List DmaRun
  /-- What the last register read returned. -/
  lastRead : Nat
  /-- How many free values were drawn (the model's own). -/
  freeCount : Nat
  /-- Commands waiting, first in, first out. -/
  pending : List Instr
deriving DecidableEq, Repr

/-! ### The state after reset -/

/-- The fuses of a unit as it is first powered (assumption 41): the spec states no value of a unit's own. -/
def fuses0 : Fuses :=
  { lifecycle := 0, arb := 0, serial := 0, keyHash := List.replicate 4 (List.replicate 48 0#8), revoked := List.replicate 4 false,
    unitKey := none, keyDisabled := false, certDigest := none, lifecycleKey := [] }

/-- Right after POR, every register at its reset value, the reference synthesiser locking (R16, R47), and the ROM about to run (R453). -/
def State.reset : State :=
  { cells := [(3 * 2 ^ 30 + 0x200000 * 64, 1)], latched := [], snap := [], params := [], mem := [],
    ref := { setting := { lines := 3000, dots := 4400, synN := 190, synNum := 2, synDen := 25, synP := 6 },
             locks := List.replicate 8 lock0, shadows := [] },
    lp := { channels := 65535, out := 0 },
    vat := { data := [], poison := [], ka := 0, kb := 0, groupLog2 := 3, c0Res := List.replicate 64 2, ceQueue := [],
             ceStamps := [], moving := [], queued := [], scrubbing := [], scrubBurst := [], ueSince := [], bgt := none, failed := [],
             parkedSeen := false, poisonSeen := false, respData := [], respError := false },
    planes := List.replicate 32 plane0,
    harp := { gates := [], pipes := List.replicate 8 harp0 },
    pipes := List.replicate 8 pipe0, ports := List.replicate 8 port0,
    cam := { streams := List.replicate 16 stream0, resync := [], errors := [], portSeen := 0,
             evtCur := List.replicate 5 0, evtLast := List.replicate 5 0, evtSeen := List.replicate 5 0 },
    rind := { pipes := List.replicate 8 rind0, logged := [], maxlat := 0 },
    intc := { service := List.replicate 13 [], peerWait := [], msixMasked := BitVec.allOnes 64, functionMask := false, pba := 0, msixTable := [], late := [] },
    hif := { rung := [], waiting := [], held := [], ageOn := [], unnotified := List.replicate 16 0, ringPend := [], staging := [],
             safeArms := [], prefetch := [], prefetchLen := 0, dpWait := [], bells := [], dropLogged := false, pcieUp := false, busMaster := false,
             pmeEn := false, turnOff := false, hostDue := false, wakeN := false, readOut := [], hostIn := [], out := [] },
    cellar := { wdtDue := none, fuses := fuses0, flash := [], log := [], logSector := 0, unflushed := 0, update := none,
                nonce := none, runSvn := 0, runKey := 0, epc := 0, romDue := true, booted := false, warmDue := false, pwrGood := true,
                wdtLog := none, trialWaits := false, reads := 0, heldOut := [], rates := [], volt := List.replicate 24 [], hot := List.replicate 12 0, astray := List.replicate 12 0, gpHigh := [false, false],
                testPortWaits := false },
    fault := { units := [], record := [], map := [], mapNew := [], mapSeq := 0, last := none, tripHold := false, tripLog := none,
               breaches := 0, testSession := false, testFromP4 := false, resultsDue := false },
    svc := { held := [], bootDue := true, autostart := 0, digest := [], signals := List.replicate 128 0, heard := [],
             telltales := [], chimes := [], notify := false, back := 0, quiet := [], released := 0, record := none },
    casc := { links := [link0, link0], feeds := List.replicate 8 feed0, n1 := 0, intrOut := [], tunnels := [], nextId := 0,
              blocked := false, ask := none, fifo := [], errs := [], errMax := 0, geom := none, step := none, fresh := false },
    timers := { runs := List.replicate 64 timer0, shadows := [], last := [] },
    pins := { window := [] },
    aud := { frameAt := [0, 0, 0], rxFifo := List.replicate 8 [], txFifo := List.replicate 8 [], txDrop := 0, rx := [], low := [], prev := List.replicate 128 0, stPrev := [0, 0], y1 := List.replicate 128 0,
             y2 := List.replicate 128 0, tx := [], nodes := [], players := List.replicate 8 player0,
             cores := List.replicate 4 audCore0, links := List.replicate 2 ⟨[], false, []⟩, fade := List.replicate 6 0, seen := 0 },
    cores := (List.range 13).map core0, press := List.replicate 2 press0, dma := List.replicate 64 dma0,
    lastRead := 0, freeCount := 0, pending := [] }

end Sys2Proof.Machine
end

