-- ==== Sys2Proof/Machine/RegRow.lean ====
section
/-! DEFINITION. What a row of a register table says (R11, R25, R30). -/

namespace Sys2Proof.Machine

/-- One row of a register table, standing for `n1 × n2` instances at `base + i × s1 + j × s2`. -/
structure RegRow where
  name : String
  base : Nat
  n1 : Nat
  s1 : Nat
  n2 : Nat
  s2 : Nat
  wide : Bool
  owner : Owner
  flds : Nat → Nat → List Fld

end Sys2Proof.Machine
end

