-- ==== Sys2Proof/Machine/RegsSystem.lean ====
section
/-! DEFINITION. The register fields of the raster sequencers, the audio block, the Press, the DMA engine, the timers, the interrupt controller, the host interface, the Cellar, the standalone services, the cascade, power and resets, faults and self-test, the pins: one named field per row of the register tables of spec/ (offset, bits, reset, class, type), and the same tables as rows for the register bus. -/

namespace Sys2Proof.Machine

/-! ### R302 (spec/10_raster_sequencers.md) -/
def F.seqCtl_RUN (p : Nat) : Fld := ⟨0xF00000 + p * 0x40, 0, 1, 0, .warm, .rw, false⟩
def F.seqCtl_START_AT (p : Nat) : Fld := ⟨0xF00000 + p * 0x40, 1, 1, 0, .warm, .rw, false⟩
def F.seqCtl_WDT_ACTION (p : Nat) : Fld := ⟨0xF00000 + p * 0x40, 2, 2, 0, .warm, .rw, false⟩
def F.seqCtl_ENTRY (p : Nat) : Fld := ⟨0xF00000 + p * 0x40, 16, 15, 0, .warm, .rw, false⟩
def F.seqWdt_LINES (p : Nat) : Fld := ⟨0xF00004 + p * 0x40, 0, 16, 0, .warm, .rw, false⟩
def F.seqStatus_STATE (p : Nat) : Fld := ⟨0xF00008 + p * 0x40, 0, 3, 0, .plain, .ro, true⟩
def F.seqStatus_PC (p : Nat) : Fld := ⟨0xF00008 + p * 0x40, 16, 15, 0, .plain, .ro, true⟩
def F.seqStopinfo_CAUSE (p : Nat) : Fld := ⟨0xF0000C + p * 0x40, 0, 5, 0, .plain, .ro, false⟩
def F.seqStopinfo_EPC (p : Nat) : Fld := ⟨0xF0000C + p * 0x40, 16, 16, 0, .plain, .ro, false⟩
def F.seqEcc_CE (p : Nat) : Fld := ⟨0xF00010 + p * 0x40, 0, 16, 0, .warm, .ro, false⟩
def F.seqEcc_UE (p : Nat) : Fld := ⟨0xF00010 + p * 0x40, 16, 16, 0, .warm, .ro, false⟩
def F.seqSlot_MAXLAT (p : Nat) : Fld := ⟨0xF00014 + p * 0x40, 0, 8, 0, .plain, .ro, false⟩
def F.seqSlot_DROPS (p : Nat) : Fld := ⟨0xF00014 + p * 0x40, 16, 16, 0, .warm, .ro, false⟩
def F.seqStops_COUNT (p : Nat) : Fld := ⟨0xF00018 + p * 0x40, 0, 16, 0, .warm, .ro, false⟩

/-- Register rows of spec/10_raster_sequencers.md. -/
def regsSeqRows : List RegRow := [
  { name := "SEQ_p_CTL", base := 0xF00000, n1 := 8, s1 := 0x40, n2 := 1, s2 := 0x0, wide := false, owner := .firmware,
    flds := fun i _ => [F.seqCtl_RUN i, F.seqCtl_START_AT i, F.seqCtl_WDT_ACTION i, F.seqCtl_ENTRY i] },
  { name := "SEQ_p_WDT", base := 0xF00004, n1 := 8, s1 := 0x40, n2 := 1, s2 := 0x0, wide := false, owner := .firmware,
    flds := fun i _ => [F.seqWdt_LINES i] },
  { name := "SEQ_p_STATUS", base := 0xF00008, n1 := 8, s1 := 0x40, n2 := 1, s2 := 0x0, wide := false, owner := .firmware,
    flds := fun i _ => [F.seqStatus_STATE i, F.seqStatus_PC i] },
  { name := "SEQ_p_STOPINFO", base := 0xF0000C, n1 := 8, s1 := 0x40, n2 := 1, s2 := 0x0, wide := false, owner := .firmware,
    flds := fun i _ => [F.seqStopinfo_CAUSE i, F.seqStopinfo_EPC i] },
  { name := "SEQ_p_ECC", base := 0xF00010, n1 := 8, s1 := 0x40, n2 := 1, s2 := 0x0, wide := false, owner := .firmware,
    flds := fun i _ => [F.seqEcc_CE i, F.seqEcc_UE i] },
  { name := "SEQ_p_SLOT", base := 0xF00014, n1 := 8, s1 := 0x40, n2 := 1, s2 := 0x0, wide := false, owner := .firmware,
    flds := fun i _ => [F.seqSlot_MAXLAT i, F.seqSlot_DROPS i] },
  { name := "SEQ_p_STOPS", base := 0xF00018, n1 := 8, s1 := 0x40, n2 := 1, s2 := 0x0, wide := false, owner := .firmware,
    flds := fun i _ => [F.seqStops_COUNT i] }]

/-! ### R337 (spec/11_audio.md) -/
def F.audDomCtl_RATE (d : Nat) : Fld := ⟨0xA00000 + d * 0x40, 0, 2, 0, .warm, .rw, false⟩
def F.audDomCtl_EXT (d : Nat) : Fld := ⟨0xA00000 + d * 0x40, 2, 1, 0, .warm, .rw, false⟩
def F.audDomStatus_RUNNING (d : Nat) : Fld := ⟨0xA00004 + d * 0x40, 0, 1, 0, .plain, .ro, true⟩
def F.audDomStatus_EXT_ACTIVE (d : Nat) : Fld := ⟨0xA00004 + d * 0x40, 1, 1, 0, .plain, .ro, true⟩
def F.audDomStatus_EXT_LOST (d : Nat) : Fld := ⟨0xA00004 + d * 0x40, 2, 1, 0, .plain, .ro, true⟩
def F.audDomNow_COUNT (d : Nat) : Fld := ⟨0xA00008 + d * 0x40, 0, 48, 0, .plain, .ro, true⟩
def F.audDomFcount_COUNT (d : Nat) : Fld := ⟨0xA00010 + d * 0x40, 0, 48, 0, .plain, .ro, false⟩
def F.audDomFcount_PHASE (d : Nat) : Fld := ⟨0xA00010 + d * 0x40, 48, 8, 0, .plain, .ro, false⟩
def F.audDomFrate_RATE (d : Nat) : Fld := ⟨0xA00018 + d * 0x40, 0, 24, 0, .plain, .ro, false⟩
def F.audDomFrate_FRAME (d : Nat) : Fld := ⟨0xA00018 + d * 0x40, 32, 16, 0, .plain, .ro, false⟩
def F.tdmCtl_EN (p : Nat) : Fld := ⟨0xA00100 + p * 0x40, 0, 1, 0, .warm, .rw, false⟩
def F.tdmCtl_ROLE (p : Nat) : Fld := ⟨0xA00100 + p * 0x40, 1, 1, 0, .warm, .rw, false⟩
def F.tdmCtl_FORMAT (p : Nat) : Fld := ⟨0xA00100 + p * 0x40, 2, 2, 2, .warm, .rw, false⟩
def F.tdmCtl_SLOTS_M1 (p : Nat) : Fld := ⟨0xA00100 + p * 0x40, 4, 4, 1, .warm, .rw, false⟩
def F.tdmCtl_WIDTH (p : Nat) : Fld := ⟨0xA00100 + p * 0x40, 8, 2, 2, .warm, .rw, false⟩
def F.tdmCtl_BITS (p : Nat) : Fld := ⟨0xA00100 + p * 0x40, 10, 1, 1, .warm, .rw, false⟩
def F.tdmCtl_BCLK_INV (p : Nat) : Fld := ⟨0xA00100 + p * 0x40, 11, 1, 0, .warm, .rw, false⟩
def F.tdmCtl_FS_INV (p : Nat) : Fld := ⟨0xA00100 + p * 0x40, 12, 1, 0, .warm, .rw, false⟩
def F.tdmCtl_DOMAIN (p : Nat) : Fld := ⟨0xA00100 + p * 0x40, 13, 2, 0, .warm, .rw, false⟩
def F.tdmCtl_TX_IDLE (p : Nat) : Fld := ⟨0xA00100 + p * 0x40, 15, 1, 0, .warm, .rw, false⟩
def F.tdmStatus_STATE (p : Nat) : Fld := ⟨0xA00104 + p * 0x40, 0, 2, 0, .plain, .ro, true⟩
def F.tdmStatus_HEALTH (p : Nat) : Fld := ⟨0xA00104 + p * 0x40, 2, 2, 0, .sticky, .ro, false⟩
def F.tdmStatus_SLIPS (p : Nat) : Fld := ⟨0xA00104 + p * 0x40, 8, 8, 0, .warm, .ro, false⟩
def F.tdmErr_FS_ERR (p : Nat) : Fld := ⟨0xA00108 + p * 0x40, 0, 16, 0, .warm, .ro, false⟩
def F.tdmErr_RESYNC (p : Nat) : Fld := ⟨0xA00108 + p * 0x40, 16, 16, 0, .warm, .ro, false⟩
def F.pdmCtl_EN (g : Nat) : Fld := ⟨0xA00380 + g * 0x4, 0, 1, 0, .warm, .rw, false⟩
def F.pdmCtl_DOMAIN (g : Nat) : Fld := ⟨0xA00380 + g * 0x4, 1, 2, 0, .warm, .rw, false⟩
def F.pdmCtl_HPF (g : Nat) : Fld := ⟨0xA00380 + g * 0x4, 3, 1, 1, .warm, .rw, false⟩
def F.pdmCtl_CH_EN (g : Nat) : Fld := ⟨0xA00380 + g * 0x4, 4, 4, 0, .warm, .rw, false⟩
def F.stCtl_SRC (t : Nat) : Fld := ⟨0xA003C0 + t * 0x8, 0, 12, 0, .warm, .rw, false⟩
def F.stCtl_DST (t : Nat) : Fld := ⟨0xA003C0 + t * 0x8, 16, 12, 0, .warm, .rw, false⟩
def F.stCtl_EN (t : Nat) : Fld := ⟨0xA003C0 + t * 0x8, 31, 1, 0, .warm, .rw, false⟩
def F.stGain_TARGET (t : Nat) : Fld := ⟨0xA003C4 + t * 0x8, 0, 16, 0, .warm, .rw, false⟩
def F.stGain_CURRENT (t : Nat) : Fld := ⟨0xA003C4 + t * 0x8, 16, 16, 0, .plain, .ro, true⟩
def F.asrcCtl_EN (b : Nat) : Fld := ⟨0xA00300 + b * 0x10, 0, 1, 0, .warm, .rw, false⟩
def F.asrcCtl_SRC_DOM (b : Nat) : Fld := ⟨0xA00300 + b * 0x10, 1, 2, 0, .warm, .rw, false⟩
def F.asrcCtl_DST_DOM (b : Nat) : Fld := ⟨0xA00300 + b * 0x10, 3, 2, 1, .warm, .rw, false⟩
def F.asrcStatus_LOCKED (b : Nat) : Fld := ⟨0xA00304 + b * 0x10, 0, 1, 0, .plain, .ro, true⟩
def F.asrcStatus_RATIO (b : Nat) : Fld := ⟨0xA00304 + b * 0x10, 8, 24, 0, .plain, .ro, true⟩
def F.asrcUnlocks_COUNT (b : Nat) : Fld := ⟨0xA00308 + b * 0x10, 0, 16, 0, .warm, .ro, false⟩
/-! ### R338 (spec/11_audio.md) -/
def F.playAddr_ADDR (k : Nat) : Fld := ⟨0xA00400 + k * 0x40, 0, 40, 0, .warm, .rw, false⟩
def F.playLen_LEN (k : Nat) : Fld := ⟨0xA00408 + k * 0x40, 0, 24, 0, .warm, .rw, false⟩
def F.playCtl_GO (k : Nat) : Fld := ⟨0xA0040C + k * 0x40, 0, 1, 0, .plain, .sc, true⟩
def F.playCtl_STOP (k : Nat) : Fld := ⟨0xA0040C + k * 0x40, 1, 1, 0, .plain, .sc, true⟩
def F.playCtl_COMP (k : Nat) : Fld := ⟨0xA0040C + k * 0x40, 2, 1, 0, .warm, .rw, false⟩
def F.playCtl_FORMAT (k : Nat) : Fld := ⟨0xA0040C + k * 0x40, 3, 1, 0, .warm, .rw, false⟩
def F.playCtl_DOMAIN (k : Nat) : Fld := ⟨0xA0040C + k * 0x40, 4, 2, 0, .warm, .rw, false⟩
def F.playCtl_REPEAT (k : Nat) : Fld := ⟨0xA0040C + k * 0x40, 8, 8, 0, .warm, .rw, false⟩
def F.playStart_STAMP (k : Nat) : Fld := ⟨0xA00410 + k * 0x40, 0, 48, 0, .warm, .rw, false⟩
def F.playStatus_STATE (k : Nat) : Fld := ⟨0xA00418 + k * 0x40, 0, 2, 0, .plain, .ro, true⟩
def F.playStatus_ERR (k : Nat) : Fld := ⟨0xA00418 + k * 0x40, 2, 1, 0, .plain, .ro, true⟩
def F.playStatus_POS (k : Nat) : Fld := ⟨0xA00418 + k * 0x40, 8, 24, 0, .plain, .ro, true⟩
def F.playSample_INDEX (k : Nat) : Fld := ⟨0xA00420 + k * 0x40, 0, 48, 0, .plain, .ro, true⟩
def F.audCoreCtl_RUN (c : Nat) : Fld := ⟨0xA00600 + c * 0x20, 0, 1, 0, .warm, .rw, false⟩
def F.audCoreCtl_DOMAIN (c : Nat) : Fld := ⟨0xA00600 + c * 0x20, 1, 2, 0, .warm, .rw, false⟩
def F.audCoreCtl_WDT_ACTION (c : Nat) : Fld := ⟨0xA00600 + c * 0x20, 3, 1, 0, .warm, .rw, false⟩
def F.audCoreCtl_BLOCK_LEN (c : Nat) : Fld := ⟨0xA00600 + c * 0x20, 4, 9, 64, .warm, .rw, false⟩
def F.audCoreEntry_ENTRY (c : Nat) : Fld := ⟨0xA00604 + c * 0x20, 0, 16, 0, .warm, .rw, false⟩
def F.audCoreIn_BASE (c : Nat) : Fld := ⟨0xA00608 + c * 0x20, 0, 19, 0, .warm, .rw, false⟩
def F.audCoreOut_BASE (c : Nat) : Fld := ⟨0xA0060C + c * 0x20, 0, 19, 0x8000, .warm, .rw, false⟩
def F.audCoreWdt_BLOCKS (c : Nat) : Fld := ⟨0xA00610 + c * 0x20, 0, 16, 0, .warm, .rw, false⟩
def F.audCoreStatus_STATE (c : Nat) : Fld := ⟨0xA00614 + c * 0x20, 0, 3, 0, .plain, .ro, true⟩
def F.audCoreStatus_PC (c : Nat) : Fld := ⟨0xA00614 + c * 0x20, 16, 16, 0, .plain, .ro, true⟩
def F.audCoreErr_LATE (c : Nat) : Fld := ⟨0xA00618 + c * 0x20, 0, 16, 0, .warm, .ro, false⟩
def F.audCoreErr_STOPS (c : Nat) : Fld := ⟨0xA00618 + c * 0x20, 16, 8, 0, .warm, .ro, false⟩
def F.audCoreEcc_CE (c : Nat) : Fld := ⟨0xA0061C + c * 0x20, 0, 16, 0, .warm, .ro, false⟩
def F.audCoreEcc_UE (c : Nat) : Fld := ⟨0xA0061C + c * 0x20, 16, 16, 0, .warm, .ro, false⟩
/-! ### R339 (spec/11_audio.md) -/
def F.xpIn_SRC (i : Nat) : Fld := ⟨0xA01000 + i * 0x4, 0, 12, 0, .warm, .rw, false⟩
def F.xpIn_DOMAIN (i : Nat) : Fld := ⟨0xA01000 + i * 0x4, 16, 2, 3, .plain, .ro, true⟩
def F.xpOut_DST (o : Nat) : Fld := ⟨0xA01400 + o * 0x8, 0, 12, 0, .warm, .rw, false⟩
def F.xpOut_DOMAIN (o : Nat) : Fld := ⟨0xA01400 + o * 0x8, 16, 2, 3, .plain, .ro, true⟩
def F.xpOutCfg_RAMP (o : Nat) : Fld := ⟨0xA01404 + o * 0x8, 0, 12, 0, .warm, .rw, false⟩
def F.xpOutCfg_TIMEOUT (o : Nat) : Fld := ⟨0xA01404 + o * 0x8, 16, 16, 480, .warm, .rw, false⟩
def F.xpClip_COUNT (o : Nat) : Fld := ⟨0xA02000 + o * 0x4, 0, 16, 0, .warm, .ro, false⟩
def F.audZcTimeouts_COUNT : Fld := ⟨0xA02400, 0, 32, 0, .warm, .ro, false⟩
def F.xpGain_TARGET (o : Nat) (i : Nat) : Fld := ⟨0xA10000 + o * 0x200 + i * 0x4, 0, 16, 0, .warm, .rw, false⟩
def F.xpGain_CURRENT (o : Nat) (i : Nat) : Fld := ⟨0xA10000 + o * 0x200 + i * 0x4, 16, 16, 0, .plain, .ro, true⟩

/-- Register rows of spec/11_audio.md. -/
def regsAudioRows0 : List RegRow := [
  { name := "AUD_DOM_d_CTL", base := 0xA00000, n1 := 3, s1 := 0x40, n2 := 1, s2 := 0x0, wide := false, owner := .firmware,
    flds := fun i _ => [F.audDomCtl_RATE i, F.audDomCtl_EXT i] },
  { name := "AUD_DOM_d_STATUS", base := 0xA00004, n1 := 3, s1 := 0x40, n2 := 1, s2 := 0x0, wide := false, owner := .firmware,
    flds := fun i _ => [F.audDomStatus_RUNNING i, F.audDomStatus_EXT_ACTIVE i, F.audDomStatus_EXT_LOST i] },
  { name := "AUD_DOM_d_NOW", base := 0xA00008, n1 := 3, s1 := 0x40, n2 := 1, s2 := 0x0, wide := true, owner := .firmware,
    flds := fun i _ => [F.audDomNow_COUNT i] },
  { name := "AUD_DOM_d_FCOUNT", base := 0xA00010, n1 := 3, s1 := 0x40, n2 := 1, s2 := 0x0, wide := true, owner := .firmware,
    flds := fun i _ => [F.audDomFcount_COUNT i, F.audDomFcount_PHASE i] },
  { name := "AUD_DOM_d_FRATE", base := 0xA00018, n1 := 3, s1 := 0x40, n2 := 1, s2 := 0x0, wide := true, owner := .firmware,
    flds := fun i _ => [F.audDomFrate_RATE i, F.audDomFrate_FRAME i] },
  { name := "TDM_p_CTL", base := 0xA00100, n1 := 8, s1 := 0x40, n2 := 1, s2 := 0x0, wide := false, owner := .firmware,
    flds := fun i _ => [F.tdmCtl_EN i, F.tdmCtl_ROLE i, F.tdmCtl_FORMAT i, F.tdmCtl_SLOTS_M1 i, F.tdmCtl_WIDTH i, F.tdmCtl_BITS i, F.tdmCtl_BCLK_INV i, F.tdmCtl_FS_INV i, F.tdmCtl_DOMAIN i, F.tdmCtl_TX_IDLE i] },
  { name := "TDM_p_STATUS", base := 0xA00104, n1 := 8, s1 := 0x40, n2 := 1, s2 := 0x0, wide := false, owner := .firmware,
    flds := fun i _ => [F.tdmStatus_STATE i, F.tdmStatus_HEALTH i, F.tdmStatus_SLIPS i] },
  { name := "TDM_p_ERR", base := 0xA00108, n1 := 8, s1 := 0x40, n2 := 1, s2 := 0x0, wide := false, owner := .firmware,
    flds := fun i _ => [F.tdmErr_FS_ERR i, F.tdmErr_RESYNC i] },
  { name := "PDM_g_CTL", base := 0xA00380, n1 := 2, s1 := 0x4, n2 := 1, s2 := 0x0, wide := false, owner := .firmware,
    flds := fun i _ => [F.pdmCtl_EN i, F.pdmCtl_DOMAIN i, F.pdmCtl_HPF i, F.pdmCtl_CH_EN i] },
  { name := "ST_t_CTL", base := 0xA003C0, n1 := 2, s1 := 0x8, n2 := 1, s2 := 0x0, wide := false, owner := .firmware,
    flds := fun i _ => [F.stCtl_SRC i, F.stCtl_DST i, F.stCtl_EN i] },
  { name := "ST_t_GAIN", base := 0xA003C4, n1 := 2, s1 := 0x8, n2 := 1, s2 := 0x0, wide := false, owner := .firmware,
    flds := fun i _ => [F.stGain_TARGET i, F.stGain_CURRENT i] },
  { name := "ASRC_b_CTL", base := 0xA00300, n1 := 6, s1 := 0x10, n2 := 1, s2 := 0x0, wide := false, owner := .firmware,
    flds := fun i _ => [F.asrcCtl_EN i, F.asrcCtl_SRC_DOM i, F.asrcCtl_DST_DOM i] }]

/-- Register rows of spec/11_audio.md. -/
def regsAudioRows1 : List RegRow := [
  { name := "ASRC_b_STATUS", base := 0xA00304, n1 := 6, s1 := 0x10, n2 := 1, s2 := 0x0, wide := false, owner := .firmware,
    flds := fun i _ => [F.asrcStatus_LOCKED i, F.asrcStatus_RATIO i] },
  { name := "ASRC_b_UNLOCKS", base := 0xA00308, n1 := 6, s1 := 0x10, n2 := 1, s2 := 0x0, wide := false, owner := .firmware,
    flds := fun i _ => [F.asrcUnlocks_COUNT i] },
  { name := "PLAY_k_ADDR", base := 0xA00400, n1 := 8, s1 := 0x40, n2 := 1, s2 := 0x0, wide := true, owner := .firmware,
    flds := fun i _ => [F.playAddr_ADDR i] },
  { name := "PLAY_k_LEN", base := 0xA00408, n1 := 8, s1 := 0x40, n2 := 1, s2 := 0x0, wide := false, owner := .firmware,
    flds := fun i _ => [F.playLen_LEN i] },
  { name := "PLAY_k_CTL", base := 0xA0040C, n1 := 8, s1 := 0x40, n2 := 1, s2 := 0x0, wide := false, owner := .firmware,
    flds := fun i _ => [F.playCtl_GO i, F.playCtl_STOP i, F.playCtl_COMP i, F.playCtl_FORMAT i, F.playCtl_DOMAIN i, F.playCtl_REPEAT i] },
  { name := "PLAY_k_START", base := 0xA00410, n1 := 8, s1 := 0x40, n2 := 1, s2 := 0x0, wide := true, owner := .firmware,
    flds := fun i _ => [F.playStart_STAMP i] },
  { name := "PLAY_k_STATUS", base := 0xA00418, n1 := 8, s1 := 0x40, n2 := 1, s2 := 0x0, wide := false, owner := .firmware,
    flds := fun i _ => [F.playStatus_STATE i, F.playStatus_ERR i, F.playStatus_POS i] },
  { name := "PLAY_k_SAMPLE", base := 0xA00420, n1 := 8, s1 := 0x40, n2 := 1, s2 := 0x0, wide := true, owner := .firmware,
    flds := fun i _ => [F.playSample_INDEX i] },
  { name := "AUD_CORE_c_CTL", base := 0xA00600, n1 := 4, s1 := 0x20, n2 := 1, s2 := 0x0, wide := false, owner := .firmware,
    flds := fun i _ => [F.audCoreCtl_RUN i, F.audCoreCtl_DOMAIN i, F.audCoreCtl_WDT_ACTION i, F.audCoreCtl_BLOCK_LEN i] },
  { name := "AUD_CORE_c_ENTRY", base := 0xA00604, n1 := 4, s1 := 0x20, n2 := 1, s2 := 0x0, wide := false, owner := .firmware,
    flds := fun i _ => [F.audCoreEntry_ENTRY i] },
  { name := "AUD_CORE_c_IN", base := 0xA00608, n1 := 4, s1 := 0x20, n2 := 1, s2 := 0x0, wide := false, owner := .firmware,
    flds := fun i _ => [F.audCoreIn_BASE i] },
  { name := "AUD_CORE_c_OUT", base := 0xA0060C, n1 := 4, s1 := 0x20, n2 := 1, s2 := 0x0, wide := false, owner := .firmware,
    flds := fun i _ => [F.audCoreOut_BASE i] }]

/-- Register rows of spec/11_audio.md. -/
def regsAudioRows2 : List RegRow := [
  { name := "AUD_CORE_c_WDT", base := 0xA00610, n1 := 4, s1 := 0x20, n2 := 1, s2 := 0x0, wide := false, owner := .firmware,
    flds := fun i _ => [F.audCoreWdt_BLOCKS i] },
  { name := "AUD_CORE_c_STATUS", base := 0xA00614, n1 := 4, s1 := 0x20, n2 := 1, s2 := 0x0, wide := false, owner := .firmware,
    flds := fun i _ => [F.audCoreStatus_STATE i, F.audCoreStatus_PC i] },
  { name := "AUD_CORE_c_ERR", base := 0xA00618, n1 := 4, s1 := 0x20, n2 := 1, s2 := 0x0, wide := false, owner := .firmware,
    flds := fun i _ => [F.audCoreErr_LATE i, F.audCoreErr_STOPS i] },
  { name := "AUD_CORE_c_ECC", base := 0xA0061C, n1 := 4, s1 := 0x20, n2 := 1, s2 := 0x0, wide := false, owner := .firmware,
    flds := fun i _ => [F.audCoreEcc_CE i, F.audCoreEcc_UE i] },
  { name := "XP_IN_i", base := 0xA01000, n1 := 128, s1 := 0x4, n2 := 1, s2 := 0x0, wide := false, owner := .firmware,
    flds := fun i _ => [F.xpIn_SRC i, F.xpIn_DOMAIN i] },
  { name := "XP_OUT_o", base := 0xA01400, n1 := 128, s1 := 0x8, n2 := 1, s2 := 0x0, wide := false, owner := .firmware,
    flds := fun i _ => [F.xpOut_DST i, F.xpOut_DOMAIN i] },
  { name := "XP_OUT_o_CFG", base := 0xA01404, n1 := 128, s1 := 0x8, n2 := 1, s2 := 0x0, wide := false, owner := .firmware,
    flds := fun i _ => [F.xpOutCfg_RAMP i, F.xpOutCfg_TIMEOUT i] },
  { name := "XP_CLIP_o", base := 0xA02000, n1 := 128, s1 := 0x4, n2 := 1, s2 := 0x0, wide := false, owner := .firmware,
    flds := fun i _ => [F.xpClip_COUNT i] },
  { name := "AUD_ZC_TIMEOUTS", base := 0xA02400, n1 := 1, s1 := 0x0, n2 := 1, s2 := 0x0, wide := false, owner := .firmware,
    flds := fun _ _ => [F.audZcTimeouts_COUNT] },
  { name := "XP_GAIN_i_o", base := 0xA10000, n1 := 128, s1 := 0x200, n2 := 128, s2 := 0x4, wide := false, owner := .firmware,
    flds := fun i j => [F.xpGain_TARGET i j, F.xpGain_CURRENT i j] }]

/-- All register rows of spec/11_audio.md. -/
def regsAudioRows : List RegRow := regsAudioRows0 ++ regsAudioRows1 ++ regsAudioRows2

/-! ### R359 (spec/12_press.md) -/
def F.pressStartLo_ADDR (e : Nat) : Fld := ⟨0x800000 + e * 0x100, 0, 32, 0, .plain, .rw, false⟩
def F.pressStartHi_ADDR (e : Nat) : Fld := ⟨0x800004 + e * 0x100, 0, 8, 0, .plain, .wo, false⟩
def F.pressCtl_ABORT (e : Nat) : Fld := ⟨0x800008 + e * 0x100, 0, 1, 0, .plain, .sc, true⟩
def F.pressBudget_ENTRIES (e : Nat) : Fld := ⟨0x80000C + e * 0x100, 0, 16, 0xFFFF, .warm, .rw, false⟩
def F.pressStatus_STATE (e : Nat) : Fld := ⟨0x800010 + e * 0x100, 0, 2, 0, .plain, .ro, true⟩
def F.pressStatus_HALT (e : Nat) : Fld := ⟨0x800010 + e * 0x100, 4, 3, 0, .plain, .ro, false⟩
def F.pressStatus_START_REJ (e : Nat) : Fld := ⟨0x800010 + e * 0x100, 8, 8, 0, .warm, .ro, false⟩
def F.pressStatus_WB_ERR (e : Nat) : Fld := ⟨0x800010 + e * 0x100, 16, 8, 0, .plain, .ro, false⟩
def F.pressStatus_ERR_ENTRIES (e : Nat) : Fld := ⟨0x800010 + e * 0x100, 24, 8, 0, .plain, .ro, false⟩
def F.pressCur_ADDR (e : Nat) : Fld := ⟨0x800018 + e * 0x100, 0, 40, 0, .plain, .ro, true⟩
def F.pressEntries_COUNT (e : Nat) : Fld := ⟨0x800020 + e * 0x100, 0, 32, 0, .plain, .ro, true⟩
def F.pressErr_ADDR (e : Nat) : Fld := ⟨0x800028 + e * 0x100, 0, 40, 0, .plain, .ro, false⟩
def F.pressErr_STATUS (e : Nat) : Fld := ⟨0x800028 + e * 0x100, 40, 8, 0, .plain, .ro, false⟩
def F.pressErr_VALID (e : Nat) : Fld := ⟨0x800028 + e * 0x100, 48, 1, 0, .plain, .ro, false⟩
def F.pressActs_COUNT (e : Nat) : Fld := ⟨0x800030 + e * 0x100, 0, 32, 0, .warm, .ro, false⟩
def F.pressDoneStamp_STAMP (e : Nat) : Fld := ⟨0x800038 + e * 0x100, 0, 48, 0, .plain, .ro, false⟩

/-- Register rows of spec/12_press.md. -/
def regsPressRows : List RegRow := [
  { name := "PRESS_e_START_LO", base := 0x800000, n1 := 2, s1 := 0x100, n2 := 1, s2 := 0x0, wide := false, owner := .host,
    flds := fun i _ => [F.pressStartLo_ADDR i] },
  { name := "PRESS_e_START_HI", base := 0x800004, n1 := 2, s1 := 0x100, n2 := 1, s2 := 0x0, wide := false, owner := .host,
    flds := fun i _ => [F.pressStartHi_ADDR i] },
  { name := "PRESS_e_CTL", base := 0x800008, n1 := 2, s1 := 0x100, n2 := 1, s2 := 0x0, wide := false, owner := .firmware,
    flds := fun i _ => [F.pressCtl_ABORT i] },
  { name := "PRESS_e_BUDGET", base := 0x80000C, n1 := 2, s1 := 0x100, n2 := 1, s2 := 0x0, wide := false, owner := .firmware,
    flds := fun i _ => [F.pressBudget_ENTRIES i] },
  { name := "PRESS_e_STATUS", base := 0x800010, n1 := 2, s1 := 0x100, n2 := 1, s2 := 0x0, wide := false, owner := .firmware,
    flds := fun i _ => [F.pressStatus_STATE i, F.pressStatus_HALT i, F.pressStatus_START_REJ i, F.pressStatus_WB_ERR i, F.pressStatus_ERR_ENTRIES i] },
  { name := "PRESS_e_CUR", base := 0x800018, n1 := 2, s1 := 0x100, n2 := 1, s2 := 0x0, wide := true, owner := .firmware,
    flds := fun i _ => [F.pressCur_ADDR i] },
  { name := "PRESS_e_ENTRIES", base := 0x800020, n1 := 2, s1 := 0x100, n2 := 1, s2 := 0x0, wide := false, owner := .firmware,
    flds := fun i _ => [F.pressEntries_COUNT i] },
  { name := "PRESS_e_ERR", base := 0x800028, n1 := 2, s1 := 0x100, n2 := 1, s2 := 0x0, wide := true, owner := .firmware,
    flds := fun i _ => [F.pressErr_ADDR i, F.pressErr_STATUS i, F.pressErr_VALID i] },
  { name := "PRESS_e_ACTS", base := 0x800030, n1 := 2, s1 := 0x100, n2 := 1, s2 := 0x0, wide := false, owner := .firmware,
    flds := fun i _ => [F.pressActs_COUNT i] },
  { name := "PRESS_e_DONE_STAMP", base := 0x800038, n1 := 2, s1 := 0x100, n2 := 1, s2 := 0x0, wide := true, owner := .firmware,
    flds := fun i _ => [F.pressDoneStamp_STAMP i] }]

/-! ### R380 (spec/13_dma.md) -/
def F.chStartLo_ADDR (n : Nat) : Fld := ⟨0x900000 + n * 0x40, 0, 32, 0, .plain, .rw, false⟩
def F.chStartHi_ADDR (n : Nat) : Fld := ⟨0x900004 + n * 0x40, 0, 8, 0, .plain, .wo, false⟩
def F.chCtl_PRIO (n : Nat) : Fld := ⟨0x900008 + n * 0x40, 0, 3, 0, .warm, .rw, false⟩
def F.chCtl_STOP (n : Nat) : Fld := ⟨0x900008 + n * 0x40, 3, 1, 0, .plain, .sc, true⟩
def F.chBudget_ENTRIES (n : Nat) : Fld := ⟨0x90000C + n * 0x40, 0, 16, 0xFFFF, .warm, .rw, false⟩
def F.chDeadline_LINES (n : Nat) : Fld := ⟨0x900010 + n * 0x40, 0, 24, 0, .warm, .rw, false⟩
def F.chStatus_STATE (n : Nat) : Fld := ⟨0x900014 + n * 0x40, 0, 3, 0, .plain, .ro, true⟩
def F.chStatus_HALT (n : Nat) : Fld := ⟨0x900014 + n * 0x40, 4, 3, 0, .plain, .ro, false⟩
def F.chStatus_TAG (n : Nat) : Fld := ⟨0x900014 + n * 0x40, 8, 3, 0, .plain, .ro, true⟩
def F.chStatus_START_REJ (n : Nat) : Fld := ⟨0x900014 + n * 0x40, 16, 8, 0, .warm, .ro, false⟩
def F.chCur_ADDR (n : Nat) : Fld := ⟨0x900018 + n * 0x40, 0, 40, 0, .plain, .ro, true⟩
def F.chDone_COUNT (n : Nat) : Fld := ⟨0x900020 + n * 0x40, 0, 32, 0, .warm, .ro, false⟩
def F.chBad_COUNT (n : Nat) : Fld := ⟨0x900024 + n * 0x40, 0, 16, 0, .warm, .ro, false⟩
def F.chBad_WB_ERR (n : Nat) : Fld := ⟨0x900024 + n * 0x40, 16, 16, 0, .warm, .ro, false⟩
def F.chErr_ADDR (n : Nat) : Fld := ⟨0x900028 + n * 0x40, 0, 40, 0, .plain, .ro, false⟩
def F.chErr_STATUS (n : Nat) : Fld := ⟨0x900028 + n * 0x40, 40, 8, 0, .plain, .ro, false⟩
def F.chErr_VALID (n : Nat) : Fld := ⟨0x900028 + n * 0x40, 48, 1, 0, .plain, .ro, false⟩
def F.chLastStamp_STAMP (n : Nat) : Fld := ⟨0x900030 + n * 0x40, 0, 48, 0, .plain, .ro, false⟩
def F.chFetched_COUNT (n : Nat) : Fld := ⟨0x900038 + n * 0x40, 0, 16, 0, .plain, .ro, true⟩
/-- DMA_BUSY, whose bits show the channels that are not IDLE (R381). -/
def F.dmaBusy_BUSY : Fld := ⟨0x901000, 0, 64, 0, .plain, .ro, true⟩
def F.chFetched_MISSES (n : Nat) : Fld := ⟨0x900038 + n * 0x40, 16, 16, 0, .warm, .ro, false⟩

/-- Register rows of spec/13_dma.md. -/
def regsDmaRows : List RegRow := [
  { name := "CH_n_START_LO", base := 0x900000, n1 := 64, s1 := 0x40, n2 := 1, s2 := 0x0, wide := false, owner := .host,
    flds := fun i _ => [F.chStartLo_ADDR i] },
  { name := "CH_n_START_HI", base := 0x900004, n1 := 64, s1 := 0x40, n2 := 1, s2 := 0x0, wide := false, owner := .host,
    flds := fun i _ => [F.chStartHi_ADDR i] },
  { name := "CH_n_CTL", base := 0x900008, n1 := 64, s1 := 0x40, n2 := 1, s2 := 0x0, wide := false, owner := .firmware,
    flds := fun i _ => [F.chCtl_PRIO i, F.chCtl_STOP i] },
  { name := "CH_n_BUDGET", base := 0x90000C, n1 := 64, s1 := 0x40, n2 := 1, s2 := 0x0, wide := false, owner := .firmware,
    flds := fun i _ => [F.chBudget_ENTRIES i] },
  { name := "CH_n_DEADLINE", base := 0x900010, n1 := 64, s1 := 0x40, n2 := 1, s2 := 0x0, wide := false, owner := .firmware,
    flds := fun i _ => [F.chDeadline_LINES i] },
  { name := "CH_n_STATUS", base := 0x900014, n1 := 64, s1 := 0x40, n2 := 1, s2 := 0x0, wide := false, owner := .firmware,
    flds := fun i _ => [F.chStatus_STATE i, F.chStatus_HALT i, F.chStatus_TAG i, F.chStatus_START_REJ i] },
  { name := "CH_n_CUR", base := 0x900018, n1 := 64, s1 := 0x40, n2 := 1, s2 := 0x0, wide := true, owner := .firmware,
    flds := fun i _ => [F.chCur_ADDR i] },
  { name := "CH_n_DONE", base := 0x900020, n1 := 64, s1 := 0x40, n2 := 1, s2 := 0x0, wide := false, owner := .firmware,
    flds := fun i _ => [F.chDone_COUNT i] },
  { name := "CH_n_BAD", base := 0x900024, n1 := 64, s1 := 0x40, n2 := 1, s2 := 0x0, wide := false, owner := .firmware,
    flds := fun i _ => [F.chBad_COUNT i, F.chBad_WB_ERR i] },
  { name := "CH_n_ERR", base := 0x900028, n1 := 64, s1 := 0x40, n2 := 1, s2 := 0x0, wide := true, owner := .firmware,
    flds := fun i _ => [F.chErr_ADDR i, F.chErr_STATUS i, F.chErr_VALID i] },
  { name := "CH_n_LAST_STAMP", base := 0x900030, n1 := 64, s1 := 0x40, n2 := 1, s2 := 0x0, wide := true, owner := .firmware,
    flds := fun i _ => [F.chLastStamp_STAMP i] },
  { name := "CH_n_FETCHED", base := 0x900038, n1 := 64, s1 := 0x40, n2 := 1, s2 := 0x0, wide := false, owner := .firmware,
    flds := fun i _ => [F.chFetched_COUNT i, F.chFetched_MISSES i] },
  { name := "DMA_BUSY", base := 0x901000, n1 := 1, s1 := 0x0, n2 := 1, s2 := 0x0, wide := true, owner := .firmware,
    flds := fun _ _ => [F.dmaBusy_BUSY] }]

/-! ### R398 (spec/14_timers.md) -/
def F.timerCtl_EN (n : Nat) : Fld := ⟨0xB00000 + n * 0x40, 0, 1, 0, .warm, .rw, false⟩
def F.timerCtl_SRC (n : Nat) : Fld := ⟨0xB00000 + n * 0x40, 1, 4, 0, .warm, .rw, false⟩
def F.timerCtl_EDGE (n : Nat) : Fld := ⟨0xB00000 + n * 0x40, 12, 2, 0, .warm, .rw, false⟩
def F.timerCtl_CMP_SYNC (n : Nat) : Fld := ⟨0xB00000 + n * 0x40, 14, 1, 0, .warm, .rw, false⟩
def F.timerCtl_OUT_MODE (n : Nat) : Fld := ⟨0xB00000 + n * 0x40, 16, 2, 0, .warm, .rw, false⟩
def F.timerCtl_POL (n : Nat) : Fld := ⟨0xB00000 + n * 0x40, 18, 1, 0, .warm, .rw, false⟩
def F.timerCtl_SLAVE (n : Nat) : Fld := ⟨0xB00000 + n * 0x40, 20, 2, 0, .warm, .rw, false⟩
def F.timerCtl_MASTER (n : Nat) : Fld := ⟨0xB00000 + n * 0x40, 24, 6, 0, .warm, .rw, false⟩
def F.timerCtl_MEVT (n : Nat) : Fld := ⟨0xB00000 + n * 0x40, 30, 2, 0, .warm, .rw, false⟩
def F.timerCapctl_CAP_SRC (n : Nat) : Fld := ⟨0xB00004 + n * 0x40, 0, 2, 0, .warm, .rw, false⟩
def F.timerCapctl_IRQ (n : Nat) : Fld := ⟨0xB00004 + n * 0x40, 8, 4, 0, .warm, .rw, false⟩
def F.timerLock_EN (n : Nat) : Fld := ⟨0xB00008 + n * 0x40, 0, 1, 0, .warm, .rw, false⟩
def F.timerLock_PIPE (n : Nat) : Fld := ⟨0xB00008 + n * 0x40, 1, 3, 0, .warm, .rw, false⟩
def F.timerLock_LINE_DIV (n : Nat) : Fld := ⟨0xB00008 + n * 0x40, 8, 8, 1, .warm, .rw, false⟩
def F.timerReload_VALUE (n : Nat) : Fld := ⟨0xB0000C + n * 0x40, 0, 32, 0xFFFFFFFF, .warm, .rw, false⟩
def F.timerCmp_VALUE (n : Nat) : Fld := ⟨0xB00010 + n * 0x40, 0, 32, 0, .warm, .rw, false⟩
def F.timerCount_COUNT (n : Nat) : Fld := ⟨0xB00018 + n * 0x40, 0, 32, 0, .plain, .rw, false⟩
def F.timerCapture_VALUE (n : Nat) : Fld := ⟨0xB00020 + n * 0x40, 0, 32, 0, .plain, .ro, false⟩
def F.timerCapture_PEND (n : Nat) : Fld := ⟨0xB00020 + n * 0x40, 32, 1, 0, .plain, .ro, false⟩
def F.timerCapture_OVF (n : Nat) : Fld := ⟨0xB00020 + n * 0x40, 33, 1, 0, .plain, .ro, false⟩
def F.timerStatus_OUT (n : Nat) : Fld := ⟨0xB00028 + n * 0x40, 0, 1, 0, .plain, .ro, true⟩
def F.timerStatus_ARMED (n : Nat) : Fld := ⟨0xB00028 + n * 0x40, 1, 1, 0, .plain, .ro, true⟩
def F.timerStatus_CMP_PEND (n : Nat) : Fld := ⟨0xB00028 + n * 0x40, 2, 1, 0, .plain, .ro, true⟩
def F.timerEvents_OVF (n : Nat) : Fld := ⟨0xB0002C + n * 0x40, 0, 16, 0, .plain, .ro, false⟩
def F.timerEvents_CMP (n : Nat) : Fld := ⟨0xB0002C + n * 0x40, 16, 16, 0, .plain, .ro, false⟩
/-! ### R399 (spec/14_timers.md) -/
def F.timerRun_RUN : Fld := ⟨0xB01000, 0, 64, 0, .plain, .ro, true⟩

/-- Register rows of spec/14_timers.md. -/
def regsTimerRows : List RegRow := [
  { name := "TIMER_n_CTL", base := 0xB00000, n1 := 64, s1 := 0x40, n2 := 1, s2 := 0x0, wide := false, owner := .firmware,
    flds := fun i _ => [F.timerCtl_EN i, F.timerCtl_SRC i, F.timerCtl_EDGE i, F.timerCtl_CMP_SYNC i, F.timerCtl_OUT_MODE i, F.timerCtl_POL i, F.timerCtl_SLAVE i, F.timerCtl_MASTER i, F.timerCtl_MEVT i] },
  { name := "TIMER_n_CAPCTL", base := 0xB00004, n1 := 64, s1 := 0x40, n2 := 1, s2 := 0x0, wide := false, owner := .firmware,
    flds := fun i _ => [F.timerCapctl_CAP_SRC i, F.timerCapctl_IRQ i] },
  { name := "TIMER_n_LOCK", base := 0xB00008, n1 := 64, s1 := 0x40, n2 := 1, s2 := 0x0, wide := false, owner := .firmware,
    flds := fun i _ => [F.timerLock_EN i, F.timerLock_PIPE i, F.timerLock_LINE_DIV i] },
  { name := "TIMER_n_RELOAD", base := 0xB0000C, n1 := 64, s1 := 0x40, n2 := 1, s2 := 0x0, wide := false, owner := .firmware,
    flds := fun i _ => [F.timerReload_VALUE i] },
  { name := "TIMER_n_CMP", base := 0xB00010, n1 := 64, s1 := 0x40, n2 := 1, s2 := 0x0, wide := false, owner := .firmware,
    flds := fun i _ => [F.timerCmp_VALUE i] },
  { name := "TIMER_n_COUNT", base := 0xB00018, n1 := 64, s1 := 0x40, n2 := 1, s2 := 0x0, wide := false, owner := .firmware,
    flds := fun i _ => [F.timerCount_COUNT i] },
  { name := "TIMER_n_CAPTURE", base := 0xB00020, n1 := 64, s1 := 0x40, n2 := 1, s2 := 0x0, wide := true, owner := .firmware,
    flds := fun i _ => [F.timerCapture_VALUE i, F.timerCapture_PEND i, F.timerCapture_OVF i] },
  { name := "TIMER_n_STATUS", base := 0xB00028, n1 := 64, s1 := 0x40, n2 := 1, s2 := 0x0, wide := false, owner := .firmware,
    flds := fun i _ => [F.timerStatus_OUT i, F.timerStatus_ARMED i, F.timerStatus_CMP_PEND i] },
  { name := "TIMER_n_EVENTS", base := 0xB0002C, n1 := 64, s1 := 0x40, n2 := 1, s2 := 0x0, wide := false, owner := .firmware,
    flds := fun i _ => [F.timerEvents_OVF i, F.timerEvents_CMP i] },
  { name := "TIMER_RUN", base := 0xB01000, n1 := 1, s1 := 0x0, n2 := 1, s2 := 0x0, wide := true, owner := .firmware,
    flds := fun _ _ => [F.timerRun_RUN] }]

/-! ### R413 (spec/15_interrupts.md) -/
def F.intcEnSet_SRC (g : Nat) : Fld := ⟨0x100000 + g * 0x10, 0, 32, 0, .warm, .set, false⟩
def F.intcEnClr_SRC (g : Nat) : Fld := ⟨0x100000 + g * 0x10, 0, 32, 0, .warm, .clr, false⟩
def F.intcPendSet_SRC (g : Nat) : Fld := ⟨0x100008 + g * 0x10, 0, 32, 0, .plain, .set, false⟩
def F.intcPendClr_SRC (g : Nat) : Fld := ⟨0x100008 + g * 0x10, 0, 32, 0, .plain, .clr, false⟩
def F.intcRaw_SRC (g : Nat) : Fld := ⟨0x100100 + g * 0x4, 0, 32, 0, .plain, .ro, true⟩
def F.intcHvecAssert_VEC : Fld := ⟨0x100200, 0, 64, 0, .plain, .ro, true⟩
def F.intcHostMode_MSIX : Fld := ⟨0x100208, 0, 1, 0, .plain, .ro, true⟩
def F.intcHostMode_INT_N : Fld := ⟨0x100208, 4, 4, 0, .plain, .ro, true⟩
def F.intcSpurious_COUNT : Fld := ⟨0x100210, 0, 16, 0, .warm, .ro, false⟩
def F.intcCoreState_PRESENTED (k : Nat) : Fld := ⟨0x100300 + k * 0x4, 0, 1, 0, .plain, .ro, true⟩
def F.intcCoreState_DEPTH (k : Nat) : Fld := ⟨0x100300 + k * 0x4, 4, 4, 0, .plain, .ro, true⟩
def F.intcCoreState_TOP (k : Nat) : Fld := ⟨0x100300 + k * 0x4, 16, 9, 0, .plain, .ro, true⟩
def F.intcCoreState_TOP_VALID (k : Nat) : Fld := ⟨0x100300 + k * 0x4, 25, 1, 0, .plain, .ro, true⟩
def F.intcTgt_DEST (s : Nat) : Fld := ⟨0x101000 + s * 0x4, 0, 5, 2, .warm, .rw, false⟩
def F.intcTgt_HVEC (s : Nat) : Fld := ⟨0x101000 + s * 0x4, 8, 6, 0, .warm, .rw, false⟩
def F.intcTgt_PRIO (s : Nat) : Fld := ⟨0x101000 + s * 0x4, 16, 3, 0, .warm, .rw, false⟩
def F.intcTgt_LEVEL (s : Nat) : Fld := ⟨0x101000 + s * 0x4, 31, 1, if 416 ≤ s ∧ s ≤ 443 then 1 else 0, .plain, .ro, false⟩

/-- Register rows of spec/15_interrupts.md. -/
def regsIntcRows : List RegRow := [
  { name := "INTC_EN_SET_g", base := 0x100000, n1 := 16, s1 := 0x10, n2 := 1, s2 := 0x0, wide := false, owner := .host,
    flds := fun i _ => [F.intcEnSet_SRC i] },
  { name := "INTC_EN_CLR_g", base := 0x100004, n1 := 16, s1 := 0x10, n2 := 1, s2 := 0x0, wide := false, owner := .host,
    flds := fun i _ => [F.intcEnClr_SRC i] },
  { name := "INTC_PEND_SET_g", base := 0x100008, n1 := 16, s1 := 0x10, n2 := 1, s2 := 0x0, wide := false, owner := .host,
    flds := fun i _ => [F.intcPendSet_SRC i] },
  { name := "INTC_PEND_CLR_g", base := 0x10000C, n1 := 16, s1 := 0x10, n2 := 1, s2 := 0x0, wide := false, owner := .host,
    flds := fun i _ => [F.intcPendClr_SRC i] },
  { name := "INTC_RAW_g", base := 0x100100, n1 := 16, s1 := 0x4, n2 := 1, s2 := 0x0, wide := false, owner := .firmware,
    flds := fun i _ => [F.intcRaw_SRC i] },
  { name := "INTC_HVEC_ASSERT", base := 0x100200, n1 := 1, s1 := 0x0, n2 := 1, s2 := 0x0, wide := true, owner := .firmware,
    flds := fun _ _ => [F.intcHvecAssert_VEC] },
  { name := "INTC_HOST_MODE", base := 0x100208, n1 := 1, s1 := 0x0, n2 := 1, s2 := 0x0, wide := false, owner := .firmware,
    flds := fun _ _ => [F.intcHostMode_MSIX, F.intcHostMode_INT_N] },
  { name := "INTC_SPURIOUS", base := 0x100210, n1 := 1, s1 := 0x0, n2 := 1, s2 := 0x0, wide := false, owner := .firmware,
    flds := fun _ _ => [F.intcSpurious_COUNT] },
  { name := "INTC_CORE_k_STATE", base := 0x100300, n1 := 13, s1 := 0x4, n2 := 1, s2 := 0x0, wide := false, owner := .firmware,
    flds := fun i _ => [F.intcCoreState_PRESENTED i, F.intcCoreState_DEPTH i, F.intcCoreState_TOP i, F.intcCoreState_TOP_VALID i] },
  { name := "INTC_TGT_s", base := 0x101000, n1 := 512, s1 := 0x4, n2 := 1, s2 := 0x0, wide := false, owner := .firmware,
    flds := fun i _ => [F.intcTgt_DEST i, F.intcTgt_HVEC i, F.intcTgt_PRIO i, F.intcTgt_LEVEL i] }]

/-! ### R445 (spec/16_host_interface.md) -/
def F.dpAddr_ADDR : Fld := ⟨0x1000, 0, 40, 0, .plain, .rw, false⟩
def F.dpCtl_INC : Fld := ⟨0x1008, 0, 2, 3, .plain, .rw, false⟩
def F.dpPrefetch_LEN : Fld := ⟨0x100C, 0, 10, 0, .plain, .wo, false⟩
def F.dpStatus_ERR : Fld := ⟨0x1010, 0, 3, 0, .plain, .ro, false⟩
def F.dpStatus_READY : Fld := ⟨0x1010, 4, 1, 0, .plain, .ro, false⟩
def F.dpStatus_ERR_COUNT : Fld := ⟨0x1010, 16, 16, 0, .warm, .ro, false⟩
def F.dpErrAddr_ADDR : Fld := ⟨0x1018, 0, 40, 0, .plain, .ro, false⟩
def F.hifDroppedWr_COUNT : Fld := ⟨0x1100, 0, 32, 0, .warm, .ro, false⟩
def F.hifDecodeErr_COUNT : Fld := ⟨0x1104, 0, 32, 0, .warm, .ro, false⟩
def F.mbxDoorbell_RING (m : Nat) : Fld := ⟨0x2000 + m * 0x20, 0, 1, 0, .plain, .wo, false⟩
def F.mbxHeadDb_HEAD (m : Nat) : Fld := ⟨0x2004 + m * 0x20, 0, 9, 0, .plain, .rw, false⟩
def F.mbxStatus_STATE (m : Nat) : Fld := ⟨0x2008 + m * 0x20, 0, 2, 0, .plain, .ro, false⟩
def F.mbxStatus_TAIL (m : Nat) : Fld := ⟨0x2008 + m * 0x20, 8, 9, 0, .plain, .ro, false⟩
def F.mbxStatus_HELD (m : Nat) : Fld := ⟨0x2008 + m * 0x20, 20, 5, 0, .plain, .ro, false⟩
def F.mbxStatus_UNNOTIFIED (m : Nat) : Fld := ⟨0x2008 + m * 0x20, 25, 7, 0, .plain, .ro, false⟩
def F.mbxCounts_DB_REJ (m : Nat) : Fld := ⟨0x200C + m * 0x20, 0, 8, 0, .warm, .ro, false⟩
def F.mbxCounts_LOST (m : Nat) : Fld := ⟨0x200C + m * 0x20, 8, 8, 0, .warm, .ro, false⟩
def F.mbxCounts_RING_ERR (m : Nat) : Fld := ⟨0x200C + m * 0x20, 16, 8, 0, .warm, .ro, false⟩
def F.mbxCounts_BAD_HEAD (m : Nat) : Fld := ⟨0x200C + m * 0x20, 24, 8, 0, .warm, .ro, false⟩

/-- Register rows of spec/16_host_interface.md. -/
def regsHifRows : List RegRow := [
  { name := "DP_ADDR", base := 0x1000, n1 := 1, s1 := 0x0, n2 := 1, s2 := 0x0, wide := true, owner := .host,
    flds := fun _ _ => [F.dpAddr_ADDR] },
  { name := "DP_CTL", base := 0x1008, n1 := 1, s1 := 0x0, n2 := 1, s2 := 0x0, wide := false, owner := .host,
    flds := fun _ _ => [F.dpCtl_INC] },
  { name := "DP_PREFETCH", base := 0x100C, n1 := 1, s1 := 0x0, n2 := 1, s2 := 0x0, wide := false, owner := .host,
    flds := fun _ _ => [F.dpPrefetch_LEN] },
  { name := "DP_STATUS", base := 0x1010, n1 := 1, s1 := 0x0, n2 := 1, s2 := 0x0, wide := false, owner := .firmware,
    flds := fun _ _ => [F.dpStatus_ERR, F.dpStatus_READY, F.dpStatus_ERR_COUNT] },
  { name := "DP_ERR_ADDR", base := 0x1018, n1 := 1, s1 := 0x0, n2 := 1, s2 := 0x0, wide := true, owner := .firmware,
    flds := fun _ _ => [F.dpErrAddr_ADDR] },
  { name := "HIF_DROPPED_WR", base := 0x1100, n1 := 1, s1 := 0x0, n2 := 1, s2 := 0x0, wide := false, owner := .firmware,
    flds := fun _ _ => [F.hifDroppedWr_COUNT] },
  { name := "HIF_DECODE_ERR", base := 0x1104, n1 := 1, s1 := 0x0, n2 := 1, s2 := 0x0, wide := false, owner := .firmware,
    flds := fun _ _ => [F.hifDecodeErr_COUNT] },
  { name := "MBX_m_DOORBELL", base := 0x2000, n1 := 16, s1 := 0x20, n2 := 1, s2 := 0x0, wide := false, owner := .host,
    flds := fun i _ => [F.mbxDoorbell_RING i] },
  { name := "MBX_m_HEAD_DB", base := 0x2004, n1 := 16, s1 := 0x20, n2 := 1, s2 := 0x0, wide := false, owner := .host,
    flds := fun i _ => [F.mbxHeadDb_HEAD i] },
  { name := "MBX_m_STATUS", base := 0x2008, n1 := 16, s1 := 0x20, n2 := 1, s2 := 0x0, wide := false, owner := .firmware,
    flds := fun i _ => [F.mbxStatus_STATE i, F.mbxStatus_TAIL i, F.mbxStatus_HELD i, F.mbxStatus_UNNOTIFIED i] },
  { name := "MBX_m_COUNTS", base := 0x200C, n1 := 16, s1 := 0x20, n2 := 1, s2 := 0x0, wide := false, owner := .firmware,
    flds := fun i _ => [F.mbxCounts_DB_REJ i, F.mbxCounts_LOST i, F.mbxCounts_RING_ERR i, F.mbxCounts_BAD_HEAD i] }]

/-! ### R474 (spec/17_cellar.md) -/
def F.cellarStatus_LIFECYCLE : Fld := ⟨0x80000, 0, 3, 0, .sticky, .ro, false⟩
def F.cellarStatus_SLOT : Fld := ⟨0x80000, 4, 1, 0, .sticky, .ro, false⟩
def F.cellarStatus_TRIAL : Fld := ⟨0x80000, 5, 1, 0, .sticky, .ro, false⟩
def F.cellarStatus_WDT_CAUSE : Fld := ⟨0x80000, 6, 2, 0, .sticky, .ro, false⟩
def F.cellarStatus_LOCKSTEP_ERR : Fld := ⟨0x80000, 8, 1, 0, .sticky, .ro, false⟩
def F.cellarStatus_ROM_RECOVERY : Fld := ⟨0x80000, 9, 1, 0, .sticky, .ro, false⟩
def F.cellarStatus_TIME_EST : Fld := ⟨0x80000, 10, 1, 1, .sticky, .ro, false⟩
def F.cellarStatus_ARB : Fld := ⟨0x80000, 16, 8, 0, .sticky, .ro, false⟩
def F.cellarSeconds_COUNT : Fld := ⟨0x80008, 0, 64, 0, .sticky, .ro, false⟩
def F.cellarFwver_VERSION : Fld := ⟨0x80010, 0, 32, 0, .sticky, .ro, false⟩
def F.cellarSerial_SERIAL : Fld := ⟨0x80014, 0, 32, 0, .sticky, .ro, false⟩
def F.cellarLogSeq_NEXT : Fld := ⟨0x80018, 0, 32, 0, .sticky, .ro, false⟩
def F.cellarLogFlushed_SEQ : Fld := ⟨0x8001C, 0, 32, 0, .sticky, .ro, false⟩
def F.cellarLogLost_COUNT : Fld := ⟨0x80020, 0, 16, 0, .sticky, .ro, false⟩
def F.cellarTemp_TEMP (i : Nat) : Fld := ⟨0x80040 + i * 0x4, 0, 16, 0, .plain, .ro, false⟩
def F.cellarTemp_VALID (i : Nat) : Fld := ⟨0x80040 + i * 0x4, 16, 1, 0, .plain, .ro, true⟩
def F.cellarTemp_LEVEL (i : Nat) : Fld := ⟨0x80040 + i * 0x4, 17, 2, 0, .plain, .ro, true⟩
def F.cellarTempMax_TEMP : Fld := ⟨0x80070, 0, 16, 0, .plain, .ro, false⟩
def F.cellarVolt_MV (v : Nat) : Fld := ⟨0x80080 + v * 0x4, 0, 16, 0, .plain, .ro, false⟩
def F.cellarVolt_LEVEL (v : Nat) : Fld := ⟨0x80080 + v * 0x4, 16, 2, 0, .plain, .ro, true⟩
def F.cellarClkmon_OK : Fld := ⟨0x800E0, 0, 8, 0, .plain, .ro, true⟩
def F.cellarPwr_MW (j : Nat) : Fld := ⟨0x80100 + j * 0x4, 0, 20, 0, .plain, .ro, false⟩

/-- Register rows of spec/17_cellar.md. -/
def regsCellarRows : List RegRow := [
  { name := "CELLAR_STATUS", base := 0x80000, n1 := 1, s1 := 0x0, n2 := 1, s2 := 0x0, wide := false, owner := .firmware,
    flds := fun _ _ => [F.cellarStatus_LIFECYCLE, F.cellarStatus_SLOT, F.cellarStatus_TRIAL, F.cellarStatus_WDT_CAUSE, F.cellarStatus_LOCKSTEP_ERR, F.cellarStatus_ROM_RECOVERY, F.cellarStatus_TIME_EST, F.cellarStatus_ARB] },
  { name := "CELLAR_SECONDS", base := 0x80008, n1 := 1, s1 := 0x0, n2 := 1, s2 := 0x0, wide := true, owner := .firmware,
    flds := fun _ _ => [F.cellarSeconds_COUNT] },
  { name := "CELLAR_FWVER", base := 0x80010, n1 := 1, s1 := 0x0, n2 := 1, s2 := 0x0, wide := false, owner := .firmware,
    flds := fun _ _ => [F.cellarFwver_VERSION] },
  { name := "CELLAR_SERIAL", base := 0x80014, n1 := 1, s1 := 0x0, n2 := 1, s2 := 0x0, wide := false, owner := .firmware,
    flds := fun _ _ => [F.cellarSerial_SERIAL] },
  { name := "CELLAR_LOG_SEQ", base := 0x80018, n1 := 1, s1 := 0x0, n2 := 1, s2 := 0x0, wide := false, owner := .firmware,
    flds := fun _ _ => [F.cellarLogSeq_NEXT] },
  { name := "CELLAR_LOG_FLUSHED", base := 0x8001C, n1 := 1, s1 := 0x0, n2 := 1, s2 := 0x0, wide := false, owner := .firmware,
    flds := fun _ _ => [F.cellarLogFlushed_SEQ] },
  { name := "CELLAR_LOG_LOST", base := 0x80020, n1 := 1, s1 := 0x0, n2 := 1, s2 := 0x0, wide := false, owner := .firmware,
    flds := fun _ _ => [F.cellarLogLost_COUNT] },
  { name := "CELLAR_TEMP_i", base := 0x80040, n1 := 12, s1 := 0x4, n2 := 1, s2 := 0x0, wide := false, owner := .firmware,
    flds := fun i _ => [F.cellarTemp_TEMP i, F.cellarTemp_VALID i, F.cellarTemp_LEVEL i] },
  { name := "CELLAR_TEMP_MAX", base := 0x80070, n1 := 1, s1 := 0x0, n2 := 1, s2 := 0x0, wide := false, owner := .firmware,
    flds := fun _ _ => [F.cellarTempMax_TEMP] },
  { name := "CELLAR_VOLT_v", base := 0x80080, n1 := 24, s1 := 0x4, n2 := 1, s2 := 0x0, wide := false, owner := .firmware,
    flds := fun i _ => [F.cellarVolt_MV i, F.cellarVolt_LEVEL i] },
  { name := "CELLAR_CLKMON", base := 0x800E0, n1 := 1, s1 := 0x0, n2 := 1, s2 := 0x0, wide := false, owner := .firmware,
    flds := fun _ _ => [F.cellarClkmon_OK] },
  { name := "CELLAR_PWR_j", base := 0x80100, n1 := 14, s1 := 0x4, n2 := 1, s2 := 0x0, wide := false, owner := .firmware,
    flds := fun i _ => [F.cellarPwr_MW i] }]

/-! ### R499 (spec/18_standalone_services.md) -/
def F.svcStatus_STATE : Fld := ⟨0x81000, 0, 15, 0, .plain, .ro, true⟩
def F.svcStatus_HOST_PRESENT : Fld := ⟨0x81000, 16, 1, 0, .plain, .ro, true⟩
def F.svcStatus_PKG_SLOT : Fld := ⟨0x81000, 18, 2, 0, .plain, .ro, true⟩
def F.svcStatus_PKG_VALID : Fld := ⟨0x81000, 20, 1, 0, .plain, .ro, true⟩
def F.svcPkgVersion_VERSION : Fld := ⟨0x81004, 0, 32, 0, .plain, .ro, true⟩
def F.svcTtLit_TT : Fld := ⟨0x81008, 0, 64, 0, .plain, .ro, true⟩
def F.svcTtValid_TT : Fld := ⟨0x81010, 0, 64, 0, .plain, .ro, true⟩
def F.svcBootStamp_STAMP : Fld := ⟨0x81018, 0, 48, 0, .plain, .ro, false⟩
def F.canStatus_STATE (n : Nat) : Fld := ⟨0x81100 + n * 0x10, 0, 2, 0, .plain, .ro, true⟩
def F.canStatus_TEC (n : Nat) : Fld := ⟨0x81100 + n * 0x10, 8, 8, 0, .plain, .ro, true⟩
def F.canStatus_REC (n : Nat) : Fld := ⟨0x81100 + n * 0x10, 16, 8, 0, .plain, .ro, true⟩
def F.canFrames_COUNT (n : Nat) : Fld := ⟨0x81104 + n * 0x10, 0, 32, 0, .warm, .ro, false⟩

/-- Register rows of spec/18_standalone_services.md. -/
def regsServiceRows : List RegRow := [
  { name := "SVC_STATUS", base := 0x81000, n1 := 1, s1 := 0x0, n2 := 1, s2 := 0x0, wide := false, owner := .firmware,
    flds := fun _ _ => [F.svcStatus_STATE, F.svcStatus_HOST_PRESENT, F.svcStatus_PKG_SLOT, F.svcStatus_PKG_VALID] },
  { name := "SVC_PKG_VERSION", base := 0x81004, n1 := 1, s1 := 0x0, n2 := 1, s2 := 0x0, wide := false, owner := .firmware,
    flds := fun _ _ => [F.svcPkgVersion_VERSION] },
  { name := "SVC_TT_LIT", base := 0x81008, n1 := 1, s1 := 0x0, n2 := 1, s2 := 0x0, wide := true, owner := .firmware,
    flds := fun _ _ => [F.svcTtLit_TT] },
  { name := "SVC_TT_VALID", base := 0x81010, n1 := 1, s1 := 0x0, n2 := 1, s2 := 0x0, wide := true, owner := .firmware,
    flds := fun _ _ => [F.svcTtValid_TT] },
  { name := "SVC_BOOT_STAMP", base := 0x81018, n1 := 1, s1 := 0x0, n2 := 1, s2 := 0x0, wide := true, owner := .firmware,
    flds := fun _ _ => [F.svcBootStamp_STAMP] },
  { name := "CAN_n_STATUS", base := 0x81100, n1 := 2, s1 := 0x10, n2 := 1, s2 := 0x0, wide := false, owner := .firmware,
    flds := fun i _ => [F.canStatus_STATE i, F.canStatus_TEC i, F.canStatus_REC i] },
  { name := "CAN_n_FRAMES", base := 0x81104, n1 := 2, s1 := 0x10, n2 := 1, s2 := 0x0, wide := false, owner := .firmware,
    flds := fun i _ => [F.canFrames_COUNT i] }]

/-! ### R529 (spec/19_cascade.md) -/
def F.cascStatus_ROLE : Fld := ⟨0xE00000, 0, 2, 0, .sticky, .ro, false⟩
def F.cascStatus_POSITION : Fld := ⟨0xE00000, 4, 2, 0, .plain, .ro, true⟩
def F.cascStatus_POS_VALID : Fld := ⟨0xE00000, 6, 1, 0, .plain, .ro, true⟩
def F.cascStatus_DEVICES : Fld := ⟨0xE00000, 8, 3, 0, .plain, .ro, true⟩
def F.cascStatus_CHAIN_READY : Fld := ⟨0xE00000, 12, 1, 0, .plain, .ro, true⟩
def F.cascStatus_UPSTREAM : Fld := ⟨0xE00000, 13, 1, 0, .plain, .ro, true⟩
def F.cascTime_STATE : Fld := ⟨0xE00008, 0, 3, 0, .plain, .ro, true⟩
def F.cascTime_HOPS : Fld := ⟨0xE00008, 4, 2, 0, .plain, .ro, true⟩
def F.cascTime_ERROR : Fld := ⟨0xE00008, 8, 24, 0, .plain, .ro, false⟩
def F.cascTimeMax_ERROR : Fld := ⟨0xE0000C, 0, 16, 0, .plain, .ro, false⟩
def F.cascJumps_COUNT : Fld := ⟨0xE00010, 0, 16, 0, .warm, .ro, false⟩
def F.cascPeerIrqFifo_SRC : Fld := ⟨0xE00014, 0, 9, 0, .plain, .ro, true⟩
def F.cascPeerIrqFifo_POS : Fld := ⟨0xE00014, 12, 2, 0, .plain, .ro, true⟩
def F.cascPeerIrqFifo_VALID : Fld := ⟨0xE00014, 31, 1, 0, .plain, .ro, true⟩
def F.cascPeerIrqLost_COUNT : Fld := ⟨0xE00018, 0, 16, 0, .warm, .ro, false⟩
def F.cascTx_CHANNEL (p : Nat) : Fld := ⟨0xE00040 + p * 0x4, 0, 2, 0, .warm, .rw, false⟩
def F.cascLCtl_EN (l : Nat) : Fld := ⟨0xE00100 + l * 0x80, 0, 1, 1, .warm, .rw, false⟩
def F.cascLCtl_LANES_MAX (l : Nat) : Fld := ⟨0xE00100 + l * 0x80, 1, 2, 2, .warm, .rw, false⟩
def F.cascLCtl_C0_CREDITS (l : Nat) : Fld := ⟨0xE00100 + l * 0x80, 8, 9, 128, .warm, .rw, false⟩
def F.cascLStatus_STATE (l : Nat) : Fld := ⟨0xE00104 + l * 0x80, 0, 3, 0, .plain, .ro, true⟩
def F.cascLStatus_LANES_ACTIVE (l : Nat) : Fld := ⟨0xE00104 + l * 0x80, 4, 3, 0, .plain, .ro, true⟩
def F.cascLStatus_PARTNER_POS (l : Nat) : Fld := ⟨0xE00104 + l * 0x80, 8, 2, 0, .plain, .ro, true⟩
def F.cascLStatus_LANE_HEALTH (l : Nat) : Fld := ⟨0xE00104 + l * 0x80, 16, 8, 0, .sticky, .ro, false⟩
def F.cascLDelay_D (l : Nat) : Fld := ⟨0xE00108 + l * 0x80, 0, 20, 0, .plain, .ro, true⟩
def F.cascLErr_CRC (l : Nat) : Fld := ⟨0xE0010C + l * 0x80, 0, 16, 0, .warm, .ro, false⟩
def F.cascLErr_TUNNEL (l : Nat) : Fld := ⟨0xE0010C + l * 0x80, 16, 16, 0, .warm, .ro, false⟩
def F.cascLRetrain_COUNT (l : Nat) : Fld := ⟨0xE00110 + l * 0x80, 0, 16, 0, .warm, .ro, false⟩
def F.cascLC0max_SLOTS (l : Nat) : Fld := ⟨0xE00114 + l * 0x80, 0, 8, 0, .plain, .ro, false⟩
def F.cascLAud_EN (l : Nat) : Fld := ⟨0xE00118 + l * 0x80, 0, 1, 0, .warm, .rw, false⟩
def F.cascLAud_DOMAIN (l : Nat) : Fld := ⟨0xE00118 + l * 0x80, 1, 2, 0, .warm, .rw, false⟩
def F.cascLAud_SLIPS (l : Nat) : Fld := ⟨0xE00118 + l * 0x80, 16, 16, 0, .warm, .ro, false⟩
def F.cascFeedCtl_EN (k : Nat) : Fld := ⟨0xE00400 + k * 0x10, 0, 1, 0, .warm, .rw, false⟩
def F.cascFeedCtl_STREAM (k : Nat) : Fld := ⟨0xE00400 + k * 0x10, 4, 4, 0, .warm, .rw, false⟩
def F.cascFeedCtl_FORMAT (k : Nat) : Fld := ⟨0xE00400 + k * 0x10, 8, 2, 0, .warm, .rw, false⟩
def F.cascFeedStatus_STATE (k : Nat) : Fld := ⟨0xE00404 + k * 0x10, 0, 2, 0, .plain, .ro, true⟩
def F.cascFeedStatus_LINE (k : Nat) : Fld := ⟨0xE00404 + k * 0x10, 16, 14, 0, .plain, .ro, true⟩
def F.cascFeedErrs_PARTS (k : Nat) : Fld := ⟨0xE00408 + k * 0x10, 0, 16, 0, .warm, .ro, false⟩
def F.cascFeedErrs_FORMAT (k : Nat) : Fld := ⟨0xE00408 + k * 0x10, 16, 16, 0, .warm, .ro, false⟩

/-- Register rows of spec/19_cascade.md. -/
def regsCascadeRows0 : List RegRow := [
  { name := "CASC_STATUS", base := 0xE00000, n1 := 1, s1 := 0x0, n2 := 1, s2 := 0x0, wide := false, owner := .firmware,
    flds := fun _ _ => [F.cascStatus_ROLE, F.cascStatus_POSITION, F.cascStatus_POS_VALID, F.cascStatus_DEVICES, F.cascStatus_CHAIN_READY, F.cascStatus_UPSTREAM] },
  { name := "CASC_TIME", base := 0xE00008, n1 := 1, s1 := 0x0, n2 := 1, s2 := 0x0, wide := false, owner := .firmware,
    flds := fun _ _ => [F.cascTime_STATE, F.cascTime_HOPS, F.cascTime_ERROR] },
  { name := "CASC_TIME_MAX", base := 0xE0000C, n1 := 1, s1 := 0x0, n2 := 1, s2 := 0x0, wide := false, owner := .firmware,
    flds := fun _ _ => [F.cascTimeMax_ERROR] },
  { name := "CASC_JUMPS", base := 0xE00010, n1 := 1, s1 := 0x0, n2 := 1, s2 := 0x0, wide := false, owner := .firmware,
    flds := fun _ _ => [F.cascJumps_COUNT] },
  { name := "CASC_PEER_IRQ_FIFO", base := 0xE00014, n1 := 1, s1 := 0x0, n2 := 1, s2 := 0x0, wide := false, owner := .firmware,
    flds := fun _ _ => [F.cascPeerIrqFifo_SRC, F.cascPeerIrqFifo_POS, F.cascPeerIrqFifo_VALID] },
  { name := "CASC_PEER_IRQ_LOST", base := 0xE00018, n1 := 1, s1 := 0x0, n2 := 1, s2 := 0x0, wide := false, owner := .firmware,
    flds := fun _ _ => [F.cascPeerIrqLost_COUNT] },
  { name := "CASC_TX_p", base := 0xE00040, n1 := 8, s1 := 0x4, n2 := 1, s2 := 0x0, wide := false, owner := .firmware,
    flds := fun i _ => [F.cascTx_CHANNEL i] },
  { name := "CASC_L_CTL", base := 0xE00100, n1 := 2, s1 := 0x80, n2 := 1, s2 := 0x0, wide := false, owner := .firmware,
    flds := fun i _ => [F.cascLCtl_EN i, F.cascLCtl_LANES_MAX i, F.cascLCtl_C0_CREDITS i] },
  { name := "CASC_L_STATUS", base := 0xE00104, n1 := 2, s1 := 0x80, n2 := 1, s2 := 0x0, wide := false, owner := .firmware,
    flds := fun i _ => [F.cascLStatus_STATE i, F.cascLStatus_LANES_ACTIVE i, F.cascLStatus_PARTNER_POS i, F.cascLStatus_LANE_HEALTH i] },
  { name := "CASC_L_DELAY", base := 0xE00108, n1 := 2, s1 := 0x80, n2 := 1, s2 := 0x0, wide := false, owner := .firmware,
    flds := fun i _ => [F.cascLDelay_D i] },
  { name := "CASC_L_ERR", base := 0xE0010C, n1 := 2, s1 := 0x80, n2 := 1, s2 := 0x0, wide := false, owner := .firmware,
    flds := fun i _ => [F.cascLErr_CRC i, F.cascLErr_TUNNEL i] },
  { name := "CASC_L_RETRAIN", base := 0xE00110, n1 := 2, s1 := 0x80, n2 := 1, s2 := 0x0, wide := false, owner := .firmware,
    flds := fun i _ => [F.cascLRetrain_COUNT i] }]

/-- Register rows of spec/19_cascade.md. -/
def regsCascadeRows1 : List RegRow := [
  { name := "CASC_L_C0MAX", base := 0xE00114, n1 := 2, s1 := 0x80, n2 := 1, s2 := 0x0, wide := false, owner := .firmware,
    flds := fun i _ => [F.cascLC0max_SLOTS i] },
  { name := "CASC_L_AUD", base := 0xE00118, n1 := 2, s1 := 0x80, n2 := 1, s2 := 0x0, wide := false, owner := .firmware,
    flds := fun i _ => [F.cascLAud_EN i, F.cascLAud_DOMAIN i, F.cascLAud_SLIPS i] },
  { name := "CASC_FEED_k_CTL", base := 0xE00400, n1 := 8, s1 := 0x10, n2 := 1, s2 := 0x0, wide := false, owner := .firmware,
    flds := fun i _ => [F.cascFeedCtl_EN i, F.cascFeedCtl_STREAM i, F.cascFeedCtl_FORMAT i] },
  { name := "CASC_FEED_k_STATUS", base := 0xE00404, n1 := 8, s1 := 0x10, n2 := 1, s2 := 0x0, wide := false, owner := .firmware,
    flds := fun i _ => [F.cascFeedStatus_STATE i, F.cascFeedStatus_LINE i] },
  { name := "CASC_FEED_k_ERRS", base := 0xE00408, n1 := 8, s1 := 0x10, n2 := 1, s2 := 0x0, wide := false, owner := .firmware,
    flds := fun i _ => [F.cascFeedErrs_PARTS i, F.cascFeedErrs_FORMAT i] }]

/-- All register rows of spec/19_cascade.md. -/
def regsCascadeRows : List RegRow := regsCascadeRows0 ++ regsCascadeRows1

/-! ### R555 (spec/20_power_reset.md) -/
def F.pwrStatus_STATE : Fld := ⟨0x82000, 0, 3, 0, .plain, .ro, true⟩
def F.pwrStatus_TRANSIT : Fld := ⟨0x82000, 3, 1, 0, .plain, .ro, true⟩
def F.pwrStatus_LP5X_SR : Fld := ⟨0x82000, 4, 1, 0, .plain, .ro, true⟩
def F.pwrStatus_WAKE_REQ : Fld := ⟨0x82000, 5, 1, 0, .plain, .ro, true⟩
def F.pwrTrimmed_UNIT : Fld := ⟨0x82004, 0, 31, 0, .plain, .ro, true⟩
def F.pwrStamp_STAMP : Fld := ⟨0x82008, 0, 48, 0, .plain, .ro, false⟩
def F.pwrReset_LAST : Fld := ⟨0x82010, 0, 3, 0, .sticky, .ro, false⟩
def F.pwrReset_TRIP : Fld := ⟨0x82010, 3, 1, 0, .sticky, .ro, false⟩
def F.pwrResets_PIN : Fld := ⟨0x82018, 0, 8, 0, .sticky, .ro, false⟩
def F.pwrResets_HOST : Fld := ⟨0x82018, 8, 8, 0, .sticky, .ro, false⟩
def F.pwrResets_FLR : Fld := ⟨0x82018, 16, 8, 0, .sticky, .ro, false⟩
def F.pwrResets_WARM : Fld := ⟨0x82018, 24, 8, 0, .sticky, .ro, false⟩
def F.pwrResets_WDT : Fld := ⟨0x82018, 32, 8, 0, .sticky, .ro, false⟩
def F.pwrResets_TRIP : Fld := ⟨0x82018, 40, 8, 0, .sticky, .ro, false⟩

/-- Register rows of spec/20_power_reset.md. -/
def regsPowerRows : List RegRow := [
  { name := "PWR_STATUS", base := 0x82000, n1 := 1, s1 := 0x0, n2 := 1, s2 := 0x0, wide := false, owner := .firmware,
    flds := fun _ _ => [F.pwrStatus_STATE, F.pwrStatus_TRANSIT, F.pwrStatus_LP5X_SR, F.pwrStatus_WAKE_REQ] },
  { name := "PWR_TRIMMED", base := 0x82004, n1 := 1, s1 := 0x0, n2 := 1, s2 := 0x0, wide := false, owner := .firmware,
    flds := fun _ _ => [F.pwrTrimmed_UNIT] },
  { name := "PWR_STAMP", base := 0x82008, n1 := 1, s1 := 0x0, n2 := 1, s2 := 0x0, wide := true, owner := .firmware,
    flds := fun _ _ => [F.pwrStamp_STAMP] },
  { name := "PWR_RESET", base := 0x82010, n1 := 1, s1 := 0x0, n2 := 1, s2 := 0x0, wide := false, owner := .firmware,
    flds := fun _ _ => [F.pwrReset_LAST, F.pwrReset_TRIP] },
  { name := "PWR_RESETS", base := 0x82018, n1 := 1, s1 := 0x0, n2 := 1, s2 := 0x0, wide := true, owner := .firmware,
    flds := fun _ _ => [F.pwrResets_PIN, F.pwrResets_HOST, F.pwrResets_FLR, F.pwrResets_WARM, F.pwrResets_WDT, F.pwrResets_TRIP] }]

/-! ### R586 (spec/21_faults_selftest.md) -/
def F.fltSummary_SUSPECT : Fld := ⟨0x83000, 0, 8, 0, .warm, .ro, false⟩
def F.fltSummary_RETIRED : Fld := ⟨0x83000, 8, 8, 0, .warm, .ro, false⟩
def F.fltSummary_UNUSABLE : Fld := ⟨0x83000, 16, 8, 0, .sticky, .ro, false⟩
def F.fltSummary_ESSENTIAL : Fld := ⟨0x83000, 24, 1, 0, .sticky, .ro, false⟩
def F.fltSummary_FAULT_N : Fld := ⟨0x83000, 25, 1, 0, .plain, .ro, true⟩
def F.fltLast_UNIT : Fld := ⟨0x83008, 0, 16, 0, .warm, .ro, false⟩
def F.fltLast_CAUSE : Fld := ⟨0x83008, 16, 8, 0, .warm, .ro, false⟩
def F.fltLast_STATE : Fld := ⟨0x83008, 24, 2, 0, .warm, .ro, false⟩
def F.fltLastStamp_STAMP : Fld := ⟨0x83010, 0, 48, 0, .warm, .ro, false⟩
def F.stStatus_STATE : Fld := ⟨0x83020, 0, 2, 0, .plain, .ro, true⟩
def F.stStatus_ITEM : Fld := ⟨0x83020, 4, 4, 0, .plain, .ro, true⟩
def F.stStatus_REMAIN_MS : Fld := ⟨0x83020, 16, 16, 0, .plain, .ro, true⟩
def F.stLast_SECONDS : Fld := ⟨0x83028, 0, 64, 0, .sticky, .ro, false⟩
def F.stResult_ITEMS : Fld := ⟨0x83030, 0, 16, 0, .sticky, .ro, false⟩
def F.stResult_REPAIRS : Fld := ⟨0x83030, 16, 16, 0, .sticky, .ro, false⟩
def F.fltMap_ENTRIES : Fld := ⟨0x83040, 0, 12, 0, .sticky, .ro, false⟩
def F.fltMap_VALID : Fld := ⟨0x83040, 16, 1, 0, .sticky, .ro, false⟩
def F.fltMap_PENDING : Fld := ⟨0x83040, 17, 1, 0, .plain, .ro, true⟩
/-! ### R587 (spec/21_faults_selftest.md) -/
def F.fltU_STATE (k : Nat) (i : Nat) : Fld := ⟨0x83100 + k * 0x100 + i * 0x4, 0, 2, 0, .warm, .ro, false⟩
def F.fltU_CAUSE (k : Nat) (i : Nat) : Fld := ⟨0x83100 + k * 0x100 + i * 0x4, 8, 8, 0, .warm, .ro, false⟩
def F.fltU_COUNT60 (k : Nat) (i : Nat) : Fld := ⟨0x83100 + k * 0x100 + i * 0x4, 16, 5, 0, .warm, .ro, false⟩
def F.fltU_ATTEMPTS (k : Nat) (i : Nat) : Fld := ⟨0x83100 + k * 0x100 + i * 0x4, 22, 2, 0, .warm, .ro, false⟩
def F.fltU_TOTAL (k : Nat) (i : Nat) : Fld := ⟨0x83100 + k * 0x100 + i * 0x4, 24, 8, 0, .warm, .ro, false⟩
def F.fltB_USABLE (k : Nat) (i : Nat) : Fld := ⟨0x84000 + k * 0x100 + i * 0x4, 0, 1, 1, .sticky, .ro, false⟩
def F.fltB_RESULT (k : Nat) (i : Nat) : Fld := ⟨0x84000 + k * 0x100 + i * 0x4, 1, 2, 0, .sticky, .ro, false⟩
def F.fltB_REPAIRS (k : Nat) (i : Nat) : Fld := ⟨0x84000 + k * 0x100 + i * 0x4, 8, 8, 0, .sticky, .ro, false⟩

/-- Register rows of spec/21_faults_selftest.md. -/
def regsFaultRows : List RegRow := [
  { name := "FLT_SUMMARY", base := 0x83000, n1 := 1, s1 := 0x0, n2 := 1, s2 := 0x0, wide := false, owner := .firmware,
    flds := fun _ _ => [F.fltSummary_SUSPECT, F.fltSummary_RETIRED, F.fltSummary_UNUSABLE, F.fltSummary_ESSENTIAL, F.fltSummary_FAULT_N] },
  { name := "FLT_LAST", base := 0x83008, n1 := 1, s1 := 0x0, n2 := 1, s2 := 0x0, wide := false, owner := .firmware,
    flds := fun _ _ => [F.fltLast_UNIT, F.fltLast_CAUSE, F.fltLast_STATE] },
  { name := "FLT_LAST_STAMP", base := 0x83010, n1 := 1, s1 := 0x0, n2 := 1, s2 := 0x0, wide := true, owner := .firmware,
    flds := fun _ _ => [F.fltLastStamp_STAMP] },
  { name := "ST_STATUS", base := 0x83020, n1 := 1, s1 := 0x0, n2 := 1, s2 := 0x0, wide := false, owner := .firmware,
    flds := fun _ _ => [F.stStatus_STATE, F.stStatus_ITEM, F.stStatus_REMAIN_MS] },
  { name := "ST_LAST", base := 0x83028, n1 := 1, s1 := 0x0, n2 := 1, s2 := 0x0, wide := true, owner := .firmware,
    flds := fun _ _ => [F.stLast_SECONDS] },
  { name := "ST_RESULT", base := 0x83030, n1 := 1, s1 := 0x0, n2 := 1, s2 := 0x0, wide := false, owner := .firmware,
    flds := fun _ _ => [F.stResult_ITEMS, F.stResult_REPAIRS] },
  { name := "FLT_MAP", base := 0x83040, n1 := 1, s1 := 0x0, n2 := 1, s2 := 0x0, wide := false, owner := .firmware,
    flds := fun _ _ => [F.fltMap_ENTRIES, F.fltMap_VALID, F.fltMap_PENDING] },
  { name := "FLT_U_k_i", base := 0x83100, n1 := 10, s1 := 0x100, n2 := 64, s2 := 0x4, wide := false, owner := .firmware,
    flds := fun i j => [F.fltU_STATE i j, F.fltU_CAUSE i j, F.fltU_COUNT60 i j, F.fltU_ATTEMPTS i j, F.fltU_TOTAL i j] },
  { name := "FLT_B_k_i", base := 0x84000, n1 := 10, s1 := 0x100, n2 := 64, s2 := 0x4, wide := false, owner := .firmware,
    flds := fun i j => [F.fltB_USABLE i j, F.fltB_RESULT i j, F.fltB_REPAIRS i j] }]

/-! ### R601 (spec/22_pins.md) -/
def F.pinCfg_MUX (i : Nat) : Fld := ⟨0xC00000 + i * 0x10, 0, 4, 0, .warm, .rw, false⟩
def F.pinCfg_OVL (i : Nat) : Fld := ⟨0xC00000 + i * 0x10, 4, 4, 0, .warm, .rw, false⟩
def F.pinCfg_DRIVE (i : Nat) : Fld := ⟨0xC00000 + i * 0x10, 8, 2, 1, .warm, .rw, false⟩
def F.pinCfg_SLEW (i : Nat) : Fld := ⟨0xC00000 + i * 0x10, 10, 1, 0, .warm, .rw, false⟩
def F.pinCfg_OD (i : Nat) : Fld := ⟨0xC00000 + i * 0x10, 11, 1, 0, .warm, .rw, false⟩
def F.pinCfg_PULL (i : Nat) : Fld := ⟨0xC00000 + i * 0x10, 12, 2, 1, .warm, .rw, false⟩
def F.pinCfg_SCHMITT (i : Nat) : Fld := ⟨0xC00000 + i * 0x10, 14, 1, 1, .warm, .rw, false⟩
def F.pinCfg_INV_IN (i : Nat) : Fld := ⟨0xC00000 + i * 0x10, 15, 1, 0, .warm, .rw, false⟩
def F.pinCfg_INV_OUT (i : Nat) : Fld := ⟨0xC00000 + i * 0x10, 16, 1, 0, .warm, .rw, false⟩
def F.pinCfg_IRQ (i : Nat) : Fld := ⟨0xC00000 + i * 0x10, 17, 3, 0, .warm, .rw, false⟩
def F.pinCfg_FILT (i : Nat) : Fld := ⟨0xC00000 + i * 0x10, 20, 2, 0, .warm, .rw, false⟩
def F.pinCfg_SCLK (i : Nat) : Fld := ⟨0xC00000 + i * 0x10, 22, 2, 0, .warm, .rw, false⟩
def F.pinFilt_N (i : Nat) : Fld := ⟨0xC00004 + i * 0x10, 0, 16, 0, .warm, .rw, false⟩
def F.pinState_SYNC (i : Nat) : Fld := ⟨0xC00008 + i * 0x10, 0, 1, 0, .plain, .ro, true⟩
def F.pinState_FILTERED (i : Nat) : Fld := ⟨0xC00008 + i * 0x10, 1, 1, 0, .plain, .ro, true⟩
def F.pinState_OE (i : Nat) : Fld := ⟨0xC00008 + i * 0x10, 2, 1, 0, .plain, .ro, true⟩
def F.pinState_OUT (i : Nat) : Fld := ⟨0xC00008 + i * 0x10, 3, 1, 0, .plain, .ro, true⟩
def F.pinState_SWITCHING (i : Nat) : Fld := ⟨0xC00008 + i * 0x10, 4, 1, 0, .plain, .ro, true⟩
def F.pinInLo_PIN : Fld := ⟨0xC00800, 0, 64, 0, .plain, .ro, true⟩
def F.pinInHi_PIN : Fld := ⟨0xC00808, 0, 48, 0, .plain, .ro, true⟩
def F.pinDoutLo_PIN : Fld := ⟨0xC00810, 0, 64, 0, .warm, .rw, false⟩
def F.pinDoutHi_PIN : Fld := ⟨0xC00818, 0, 48, 0, .warm, .rw, false⟩
def F.pinDoutSetLo_PIN : Fld := ⟨0xC00810, 0, 64, 0, .warm, .set, false⟩
def F.pinDoutSetHi_PIN : Fld := ⟨0xC00818, 0, 48, 0, .warm, .set, false⟩
def F.pinDoutClrLo_PIN : Fld := ⟨0xC00810, 0, 64, 0, .warm, .clr, false⟩
def F.pinDoutClrHi_PIN : Fld := ⟨0xC00818, 0, 48, 0, .warm, .clr, false⟩
def F.pinOeLo_PIN : Fld := ⟨0xC00840, 0, 64, 0, .warm, .rw, false⟩
def F.pinOeHi_PIN : Fld := ⟨0xC00848, 0, 48, 0, .warm, .rw, false⟩
def F.pinFlagLo_PIN : Fld := ⟨0xC00850, 0, 64, 0, .plain, .ro, false⟩
def F.pinFlagHi_PIN : Fld := ⟨0xC00858, 0, 48, 0, .plain, .ro, false⟩
def F.pinFlagClrLo_PIN : Fld := ⟨0xC00850, 0, 64, 0, .plain, .clr, false⟩
def F.pinFlagClrHi_PIN : Fld := ⟨0xC00858, 0, 48, 0, .plain, .clr, false⟩
def F.pinStraps_ROLE : Fld := ⟨0xC00900, 0, 2, 0, .sticky, .ro, false⟩
def F.pinStraps_XSPI_TGT_EN : Fld := ⟨0xC00900, 2, 1, 0, .sticky, .ro, false⟩
def F.pinStraps_ROLE_BAD : Fld := ⟨0xC00900, 3, 1, 0, .sticky, .ro, false⟩

/-- Register rows of spec/22_pins.md. -/
def regsPinRows0 : List RegRow := [
  { name := "PIN_i_CFG", base := 0xC00000, n1 := 112, s1 := 0x10, n2 := 1, s2 := 0x0, wide := false, owner := .firmware,
    flds := fun i _ => [F.pinCfg_MUX i, F.pinCfg_OVL i, F.pinCfg_DRIVE i, F.pinCfg_SLEW i, F.pinCfg_OD i, F.pinCfg_PULL i, F.pinCfg_SCHMITT i, F.pinCfg_INV_IN i, F.pinCfg_INV_OUT i, F.pinCfg_IRQ i, F.pinCfg_FILT i, F.pinCfg_SCLK i] },
  { name := "PIN_i_FILT", base := 0xC00004, n1 := 112, s1 := 0x10, n2 := 1, s2 := 0x0, wide := false, owner := .firmware,
    flds := fun i _ => [F.pinFilt_N i] },
  { name := "PIN_i_STATE", base := 0xC00008, n1 := 112, s1 := 0x10, n2 := 1, s2 := 0x0, wide := false, owner := .firmware,
    flds := fun i _ => [F.pinState_SYNC i, F.pinState_FILTERED i, F.pinState_OE i, F.pinState_OUT i, F.pinState_SWITCHING i] },
  { name := "PIN_IN_LO", base := 0xC00800, n1 := 1, s1 := 0x0, n2 := 1, s2 := 0x0, wide := true, owner := .firmware,
    flds := fun _ _ => [F.pinInLo_PIN] },
  { name := "PIN_IN_HI", base := 0xC00808, n1 := 1, s1 := 0x0, n2 := 1, s2 := 0x0, wide := true, owner := .firmware,
    flds := fun _ _ => [F.pinInHi_PIN] },
  { name := "PIN_DOUT_LO", base := 0xC00810, n1 := 1, s1 := 0x0, n2 := 1, s2 := 0x0, wide := true, owner := .firmware,
    flds := fun _ _ => [F.pinDoutLo_PIN] },
  { name := "PIN_DOUT_HI", base := 0xC00818, n1 := 1, s1 := 0x0, n2 := 1, s2 := 0x0, wide := true, owner := .firmware,
    flds := fun _ _ => [F.pinDoutHi_PIN] },
  { name := "PIN_DOUT_SET_LO", base := 0xC00820, n1 := 1, s1 := 0x0, n2 := 1, s2 := 0x0, wide := true, owner := .firmware,
    flds := fun _ _ => [F.pinDoutSetLo_PIN] },
  { name := "PIN_DOUT_SET_HI", base := 0xC00828, n1 := 1, s1 := 0x0, n2 := 1, s2 := 0x0, wide := true, owner := .firmware,
    flds := fun _ _ => [F.pinDoutSetHi_PIN] },
  { name := "PIN_DOUT_CLR_LO", base := 0xC00830, n1 := 1, s1 := 0x0, n2 := 1, s2 := 0x0, wide := true, owner := .firmware,
    flds := fun _ _ => [F.pinDoutClrLo_PIN] },
  { name := "PIN_DOUT_CLR_HI", base := 0xC00838, n1 := 1, s1 := 0x0, n2 := 1, s2 := 0x0, wide := true, owner := .firmware,
    flds := fun _ _ => [F.pinDoutClrHi_PIN] },
  { name := "PIN_OE_LO", base := 0xC00840, n1 := 1, s1 := 0x0, n2 := 1, s2 := 0x0, wide := true, owner := .firmware,
    flds := fun _ _ => [F.pinOeLo_PIN] }]

/-- Register rows of spec/22_pins.md. -/
def regsPinRows1 : List RegRow := [
  { name := "PIN_OE_HI", base := 0xC00848, n1 := 1, s1 := 0x0, n2 := 1, s2 := 0x0, wide := true, owner := .firmware,
    flds := fun _ _ => [F.pinOeHi_PIN] },
  { name := "PIN_FLAG_LO", base := 0xC00850, n1 := 1, s1 := 0x0, n2 := 1, s2 := 0x0, wide := true, owner := .firmware,
    flds := fun _ _ => [F.pinFlagLo_PIN] },
  { name := "PIN_FLAG_HI", base := 0xC00858, n1 := 1, s1 := 0x0, n2 := 1, s2 := 0x0, wide := true, owner := .firmware,
    flds := fun _ _ => [F.pinFlagHi_PIN] },
  { name := "PIN_FLAG_CLR_LO", base := 0xC00860, n1 := 1, s1 := 0x0, n2 := 1, s2 := 0x0, wide := true, owner := .firmware,
    flds := fun _ _ => [F.pinFlagClrLo_PIN] },
  { name := "PIN_FLAG_CLR_HI", base := 0xC00868, n1 := 1, s1 := 0x0, n2 := 1, s2 := 0x0, wide := true, owner := .firmware,
    flds := fun _ _ => [F.pinFlagClrHi_PIN] },
  { name := "PIN_STRAPS", base := 0xC00900, n1 := 1, s1 := 0x0, n2 := 1, s2 := 0x0, wide := false, owner := .firmware,
    flds := fun _ _ => [F.pinStraps_ROLE, F.pinStraps_XSPI_TGT_EN, F.pinStraps_ROLE_BAD] }]

/-- All register rows of spec/22_pins.md. -/
def regsPinRows : List RegRow := regsPinRows0 ++ regsPinRows1

end Sys2Proof.Machine
end

