-- ==== Sys2Proof/Machine/RegsVideo.lean ====
section
/-! DEFINITION. The register fields of the reference raster, the Vat, the plane engines, the Harp, the pipes, safety planes, writeback and ports, camera ingest, Rind: one named field per row of the register tables of spec/ (offset, bits, reset, class, type), and the same tables as rows for the register bus. -/

namespace Sys2Proof.Machine

/-! ### R68 (spec/02_reference_raster.md) -/
def F.refStatus_STATE : Fld := ⟨0x200000, 0, 2, 0, .plain, .ro, true⟩
def F.refStatus_SLAVE : Fld := ⟨0x200000, 2, 1, 0, .plain, .ro, true⟩
def F.refStatus_RECONFIG_PEND : Fld := ⟨0x200000, 3, 1, 0, .plain, .ro, true⟩
def F.refStatus_REF_IN_OK : Fld := ⟨0x200000, 4, 1, 0, .plain, .ro, true⟩
def F.refCtl_APPLY : Fld := ⟨0x200004, 0, 1, 0, .plain, .sc, false⟩
def F.beamNow_FRAME : Fld := ⟨0x200008, 32, 16, 0, .warm, .ro, false⟩
def F.beamNow_LINE : Fld := ⟨0x200008, 16, 16, 0, .warm, .ro, false⟩
def F.beamNow_DOT : Fld := ⟨0x200008, 0, 16, 0, .warm, .ro, false⟩
def F.beamEpoch_EPOCH : Fld := ⟨0x200010, 0, 32, 0, .warm, .ro, false⟩
def F.refGeom_LINES : Fld := ⟨0x200018, 16, 16, 3000, .warm, .rw, false⟩
def F.refGeom_DOTS : Fld := ⟨0x200018, 0, 16, 0x1130, .warm, .rw, false⟩
def F.refSynInt_N : Fld := ⟨0x20001C, 0, 9, 190, .warm, .rw, false⟩
def F.refSynInt_P : Fld := ⟨0x20001C, 16, 2, 1, .warm, .rw, false⟩
def F.refSynNum_NUM : Fld := ⟨0x200020, 0, 24, 2, .warm, .rw, false⟩
def F.refSynDen_DEN : Fld := ⟨0x200024, 0, 24, 25, .warm, .rw, false⟩
/-! ### R69 (spec/02_reference_raster.md) -/
def F.lockCtl_EN (n : Nat) : Fld := ⟨0x200100 + n * 0x20, 0, 1, 0, .warm, .rw, false⟩
def F.lockCtl_FIXED (n : Nat) : Fld := ⟨0x200100 + n * 0x20, 1, 1, 0, .warm, .rw, false⟩
def F.lockCtl_NUM (n : Nat) : Fld := ⟨0x200100 + n * 0x20, 8, 4, 1, .warm, .rw, false⟩
def F.lockCtl_DEN (n : Nat) : Fld := ⟨0x200100 + n * 0x20, 12, 4, 1, .warm, .rw, false⟩
def F.lockCtl_SLEW (n : Nat) : Fld := ⟨0x200100 + n * 0x20, 16, 5, 20, .warm, .rw, false⟩
def F.lockPhase_LINE (n : Nat) : Fld := ⟨0x200104 + n * 0x20, 16, 16, 0, .warm, .rw, false⟩
def F.lockPhase_DOT (n : Nat) : Fld := ⟨0x200104 + n * 0x20, 0, 16, 0, .warm, .rw, false⟩
def F.lockStatus_STATE (n : Nat) : Fld := ⟨0x200108 + n * 0x20, 0, 2, 0, .plain, .ro, true⟩
def F.lockStatus_SLEWING (n : Nat) : Fld := ⟨0x200108 + n * 0x20, 2, 1, 0, .plain, .ro, true⟩
def F.lockStatus_SLOW (n : Nat) : Fld := ⟨0x200108 + n * 0x20, 3, 1, 0, .plain, .ro, true⟩
def F.lockStatus_ERROR (n : Nat) : Fld := ⟨0x200108 + n * 0x20, 8, 24, 0, .plain, .ro, false⟩
def F.lockFstamp_STAMP (n : Nat) : Fld := ⟨0x200110 + n * 0x20, 0, 48, 0, .plain, .ro, false⟩

/-- Register rows of spec/02_reference_raster.md. -/
def regsTimeRows : List RegRow := [
  { name := "REF_STATUS", base := 0x200000, n1 := 1, s1 := 0x0, n2 := 1, s2 := 0x0, wide := false, owner := .firmware,
    flds := fun _ _ => [F.refStatus_STATE, F.refStatus_SLAVE, F.refStatus_RECONFIG_PEND, F.refStatus_REF_IN_OK] },
  { name := "REF_CTL", base := 0x200004, n1 := 1, s1 := 0x0, n2 := 1, s2 := 0x0, wide := false, owner := .firmware,
    flds := fun _ _ => [F.refCtl_APPLY] },
  { name := "BEAM_NOW", base := 0x200008, n1 := 1, s1 := 0x0, n2 := 1, s2 := 0x0, wide := true, owner := .firmware,
    flds := fun _ _ => [F.beamNow_FRAME, F.beamNow_LINE, F.beamNow_DOT] },
  { name := "BEAM_EPOCH", base := 0x200010, n1 := 1, s1 := 0x0, n2 := 1, s2 := 0x0, wide := false, owner := .firmware,
    flds := fun _ _ => [F.beamEpoch_EPOCH] },
  { name := "REF_GEOM", base := 0x200018, n1 := 1, s1 := 0x0, n2 := 1, s2 := 0x0, wide := false, owner := .firmware,
    flds := fun _ _ => [F.refGeom_LINES, F.refGeom_DOTS] },
  { name := "REF_SYN_INT", base := 0x20001C, n1 := 1, s1 := 0x0, n2 := 1, s2 := 0x0, wide := false, owner := .firmware,
    flds := fun _ _ => [F.refSynInt_N, F.refSynInt_P] },
  { name := "REF_SYN_NUM", base := 0x200020, n1 := 1, s1 := 0x0, n2 := 1, s2 := 0x0, wide := false, owner := .firmware,
    flds := fun _ _ => [F.refSynNum_NUM] },
  { name := "REF_SYN_DEN", base := 0x200024, n1 := 1, s1 := 0x0, n2 := 1, s2 := 0x0, wide := false, owner := .firmware,
    flds := fun _ _ => [F.refSynDen_DEN] },
  { name := "LOCK_n_CTL", base := 0x200100, n1 := 8, s1 := 0x20, n2 := 1, s2 := 0x0, wide := false, owner := .firmware,
    flds := fun i _ => [F.lockCtl_EN i, F.lockCtl_FIXED i, F.lockCtl_NUM i, F.lockCtl_DEN i, F.lockCtl_SLEW i] },
  { name := "LOCK_n_PHASE", base := 0x200104, n1 := 8, s1 := 0x20, n2 := 1, s2 := 0x0, wide := false, owner := .firmware,
    flds := fun i _ => [F.lockPhase_LINE i, F.lockPhase_DOT i] },
  { name := "LOCK_n_STATUS", base := 0x200108, n1 := 8, s1 := 0x20, n2 := 1, s2 := 0x0, wide := false, owner := .firmware,
    flds := fun i _ => [F.lockStatus_STATE i, F.lockStatus_SLEWING i, F.lockStatus_SLOW i, F.lockStatus_ERROR i] },
  { name := "LOCK_n_FSTAMP", base := 0x200110, n1 := 8, s1 := 0x20, n2 := 1, s2 := 0x0, wide := true, owner := .firmware,
    flds := fun i _ => [F.lockFstamp_STAMP i] }]

/-! ### R101 (spec/03_vat.md) -/
def F.vatStatus_STATE : Fld := ⟨0xD00000, 0, 2, 0, .sticky, .ro, false⟩
def F.vatStatus_BANKS : Fld := ⟨0xD00000, 8, 7, 0, .sticky, .ro, false⟩
def F.vatStatus_KEY_ID : Fld := ⟨0xD00000, 16, 16, 0, .sticky, .ro, false⟩
def F.vatCtl_INIT : Fld := ⟨0xD00004, 0, 1, 0, .plain, .sc, true⟩
def F.vatCtl_C0_RES : Fld := ⟨0xD00004, 4, 3, 2, .sticky, .rw, false⟩
def F.vatCtl_GROUP_LOG2 : Fld := ⟨0xD00004, 8, 3, 3, .sticky, .rw, false⟩
def F.vatCtl_SCRUB_EN : Fld := ⟨0xD00004, 12, 1, 1, .sticky, .rw, false⟩
def F.vatCtl_BGT_EN : Fld := ⟨0xD00004, 13, 1, 1, .sticky, .rw, false⟩
def F.vatScrub_PERIOD : Fld := ⟨0xD00008, 0, 12, 8, .sticky, .rw, false⟩
def F.vatBgtCtl_INTERVAL : Fld := ⟨0xD0000C, 0, 16, 1000, .sticky, .rw, false⟩
def F.vatBgtPos_BANK : Fld := ⟨0xD00010, 0, 6, 0, .sticky, .ro, false⟩
def F.vatBgtPos_REGION : Fld := ⟨0xD00010, 6, 10, 0, .sticky, .ro, false⟩
def F.vatBgtPos_PHASE : Fld := ⟨0xD00010, 16, 2, 0, .plain, .ro, true⟩
def F.vatBgtPos_PASSES : Fld := ⟨0xD00010, 20, 12, 0, .sticky, .ro, false⟩
def F.vatBgtSkipped_COUNT : Fld := ⟨0xD00014, 0, 16, 0, .sticky, .ro, false⟩
def F.vatBgtFail_BANK : Fld := ⟨0xD00018, 0, 6, 0, .sticky, .ro, false⟩
def F.vatBgtFail_ROW : Fld := ⟨0xD00018, 6, 16, 0, .sticky, .ro, false⟩
def F.vatBgtFail_WORD : Fld := ⟨0xD00018, 22, 2, 0, .sticky, .ro, false⟩
def F.vatBgtFail_BIT : Fld := ⟨0xD00018, 24, 8, 0, .sticky, .ro, false⟩
def F.vatBgtFail_VALID : Fld := ⟨0xD00018, 32, 1, 0, .sticky, .ro, false⟩
def F.vatBgtFail_COUNT : Fld := ⟨0xD00018, 40, 8, 0, .sticky, .ro, false⟩
def F.vatErrLast_BANK : Fld := ⟨0xD00020, 0, 6, 0, .sticky, .ro, false⟩
def F.vatErrLast_ROW : Fld := ⟨0xD00020, 6, 16, 0, .sticky, .ro, false⟩
def F.vatErrLast_WORD : Fld := ⟨0xD00020, 22, 2, 0, .sticky, .ro, false⟩
def F.vatErrLast_PARITY : Fld := ⟨0xD00020, 24, 1, 0, .sticky, .ro, false⟩
def F.vatErrLast_VALID : Fld := ⟨0xD00020, 25, 1, 0, .sticky, .ro, false⟩
def F.vatLock_BASE (k : Nat) : Fld := ⟨0xD00040 + k * 0x4, 0, 13, 0, .sticky, .rw, false⟩
def F.vatLock_SIZE (k : Nat) : Fld := ⟨0xD00040 + k * 0x4, 16, 13, 0, .sticky, .rw, false⟩
/-! ### R102 (spec/03_vat.md) -/
def F.vatBankCtl_PWR (k : Nat) : Fld := ⟨0xD01000 + k * 0x20, 0, 2, 0, .warm, .rw, false⟩
def F.vatBankCtl_P3_PWR (k : Nat) : Fld := ⟨0xD01000 + k * 0x20, 2, 2, 1, .warm, .rw, false⟩
def F.vatBankStatus_PWR (k : Nat) : Fld := ⟨0xD01004 + k * 0x20, 0, 2, 0, .sticky, .ro, false⟩
def F.vatBankStatus_HEALTH (k : Nat) : Fld := ⟨0xD01004 + k * 0x20, 2, 2, 0, .sticky, .ro, false⟩
def F.vatBankStatus_IN_HASH (k : Nat) : Fld := ⟨0xD01004 + k * 0x20, 4, 1, 1, .sticky, .ro, false⟩
def F.vatBankStatus_RET_VOID (k : Nat) : Fld := ⟨0xD01004 + k * 0x20, 5, 1, 0, .sticky, .ro, false⟩
def F.vatBankStatus_FILLING (k : Nat) : Fld := ⟨0xD01004 + k * 0x20, 6, 1, 0, .plain, .ro, true⟩
def F.vatBankErr_CE (k : Nat) : Fld := ⟨0xD01008 + k * 0x20, 0, 16, 0, .sticky, .ro, false⟩
def F.vatBankErr_UE (k : Nat) : Fld := ⟨0xD01008 + k * 0x20, 16, 4, 0, .sticky, .ro, false⟩
def F.vatBankErr_PAR (k : Nat) : Fld := ⟨0xD01008 + k * 0x20, 20, 4, 0, .sticky, .ro, false⟩
def F.vatBankErr_PARKED (k : Nat) : Fld := ⟨0xD01008 + k * 0x20, 24, 8, 0, .sticky, .ro, false⟩
def F.vatBankConflict_COUNT (k : Nat) : Fld := ⟨0xD01010 + k * 0x20, 0, 48, 0, .sticky, .ro, false⟩
def F.vatBankC0max_WAIT (k : Nat) : Fld := ⟨0xD01018 + k * 0x20, 0, 8, 0, .sticky, .ro, false⟩

/-- Register rows of spec/03_vat.md. -/
def regsVatRows0 : List RegRow := [
  { name := "VAT_STATUS", base := 0xD00000, n1 := 1, s1 := 0x0, n2 := 1, s2 := 0x0, wide := false, owner := .firmware,
    flds := fun _ _ => [F.vatStatus_STATE, F.vatStatus_BANKS, F.vatStatus_KEY_ID] },
  { name := "VAT_CTL", base := 0xD00004, n1 := 1, s1 := 0x0, n2 := 1, s2 := 0x0, wide := false, owner := .firmware,
    flds := fun _ _ => [F.vatCtl_INIT, F.vatCtl_C0_RES, F.vatCtl_GROUP_LOG2, F.vatCtl_SCRUB_EN, F.vatCtl_BGT_EN] },
  { name := "VAT_SCRUB", base := 0xD00008, n1 := 1, s1 := 0x0, n2 := 1, s2 := 0x0, wide := false, owner := .firmware,
    flds := fun _ _ => [F.vatScrub_PERIOD] },
  { name := "VAT_BGT_CTL", base := 0xD0000C, n1 := 1, s1 := 0x0, n2 := 1, s2 := 0x0, wide := false, owner := .firmware,
    flds := fun _ _ => [F.vatBgtCtl_INTERVAL] },
  { name := "VAT_BGT_POS", base := 0xD00010, n1 := 1, s1 := 0x0, n2 := 1, s2 := 0x0, wide := false, owner := .firmware,
    flds := fun _ _ => [F.vatBgtPos_BANK, F.vatBgtPos_REGION, F.vatBgtPos_PHASE, F.vatBgtPos_PASSES] },
  { name := "VAT_BGT_SKIPPED", base := 0xD00014, n1 := 1, s1 := 0x0, n2 := 1, s2 := 0x0, wide := false, owner := .firmware,
    flds := fun _ _ => [F.vatBgtSkipped_COUNT] },
  { name := "VAT_BGT_FAIL", base := 0xD00018, n1 := 1, s1 := 0x0, n2 := 1, s2 := 0x0, wide := true, owner := .firmware,
    flds := fun _ _ => [F.vatBgtFail_BANK, F.vatBgtFail_ROW, F.vatBgtFail_WORD, F.vatBgtFail_BIT, F.vatBgtFail_VALID, F.vatBgtFail_COUNT] },
  { name := "VAT_ERR_LAST", base := 0xD00020, n1 := 1, s1 := 0x0, n2 := 1, s2 := 0x0, wide := false, owner := .firmware,
    flds := fun _ _ => [F.vatErrLast_BANK, F.vatErrLast_ROW, F.vatErrLast_WORD, F.vatErrLast_PARITY, F.vatErrLast_VALID] },
  { name := "VAT_LOCK_k", base := 0xD00040, n1 := 4, s1 := 0x4, n2 := 1, s2 := 0x0, wide := false, owner := .firmware,
    flds := fun i _ => [F.vatLock_BASE i, F.vatLock_SIZE i] },
  { name := "VAT_BANK_k_CTL", base := 0xD01000, n1 := 64, s1 := 0x20, n2 := 1, s2 := 0x0, wide := false, owner := .firmware,
    flds := fun i _ => [F.vatBankCtl_PWR i, F.vatBankCtl_P3_PWR i] },
  { name := "VAT_BANK_k_STATUS", base := 0xD01004, n1 := 64, s1 := 0x20, n2 := 1, s2 := 0x0, wide := false, owner := .firmware,
    flds := fun i _ => [F.vatBankStatus_PWR i, F.vatBankStatus_HEALTH i, F.vatBankStatus_IN_HASH i, F.vatBankStatus_RET_VOID i, F.vatBankStatus_FILLING i] },
  { name := "VAT_BANK_k_ERR", base := 0xD01008, n1 := 64, s1 := 0x20, n2 := 1, s2 := 0x0, wide := false, owner := .firmware,
    flds := fun i _ => [F.vatBankErr_CE i, F.vatBankErr_UE i, F.vatBankErr_PAR i, F.vatBankErr_PARKED i] }]

/-- Register rows of spec/03_vat.md. -/
def regsVatRows1 : List RegRow := [
  { name := "VAT_BANK_k_CONFLICT", base := 0xD01010, n1 := 64, s1 := 0x20, n2 := 1, s2 := 0x0, wide := true, owner := .firmware,
    flds := fun i _ => [F.vatBankConflict_COUNT i] },
  { name := "VAT_BANK_k_C0MAX", base := 0xD01018, n1 := 64, s1 := 0x20, n2 := 1, s2 := 0x0, wide := false, owner := .firmware,
    flds := fun i _ => [F.vatBankC0max_WAIT i] }]

/-- All register rows of spec/03_vat.md. -/
def regsVatRows : List RegRow := regsVatRows0 ++ regsVatRows1

/-! ### R140 (spec/04_planes.md) -/
def F.planeAssigned_ENGINE : Fld := ⟨0x400000, 0, 32, 0, .plain, .ro, true⟩
def F.planeEvtClamp_ENGINE : Fld := ⟨0x400010, 0, 32, 0, .plain, .ro, false⟩
def F.planeEvtBadTile_ENGINE : Fld := ⟨0x400014, 0, 32, 0, .plain, .ro, false⟩
def F.planeEvtNoFrame_ENGINE : Fld := ⟨0x400018, 0, 32, 0, .plain, .ro, false⟩
def F.planeEvtUnderrun_ENGINE : Fld := ⟨0x40001C, 0, 32, 0, .plain, .ro, false⟩
/-! ### R141 (spec/04_planes.md) -/
def F.planeCfg_EN (n : Nat) : Fld := ⟨0x401000 + n * 0x100, 0, 1, 0, .warm, .rw, false⟩
def F.planeCfg_KIND (n : Nat) : Fld := ⟨0x401000 + n * 0x100, 1, 2, 0, .warm, .rw, false⟩
def F.planeCfg_PIPE (n : Nat) : Fld := ⟨0x401000 + n * 0x100, 4, 3, 0, .warm, .rw, false⟩
def F.planeCfg_SLOT (n : Nat) : Fld := ⟨0x401000 + n * 0x100, 8, 4, 0, .warm, .rw, false⟩
def F.planeCfg_CLASS0 (n : Nat) : Fld := ⟨0x401000 + n * 0x100, 12, 1, 0, .warm, .rw, false⟩
def F.planeCfg_WIDE (n : Nat) : Fld := ⟨0x401000 + n * 0x100, 13, 1, 0, .warm, .rw, false⟩
def F.planeCfg_MODE (n : Nat) : Fld := ⟨0x401000 + n * 0x100, 14, 2, 0, .warm, .rw, false⟩
def F.planeCfg_EDGE (n : Nat) : Fld := ⟨0x401000 + n * 0x100, 16, 2, 0, .warm, .rw, false⟩
def F.planeCfg_MIRROR_H (n : Nat) : Fld := ⟨0x401000 + n * 0x100, 18, 1, 0, .warm, .rw, false⟩
def F.planeCfg_MIRROR_V (n : Nat) : Fld := ⟨0x401000 + n * 0x100, 19, 1, 0, .warm, .rw, false⟩
def F.planeCfg_FILTER (n : Nat) : Fld := ⟨0x401000 + n * 0x100, 20, 2, 0, .warm, .rw, false⟩
def F.planeCfg_VTAPS (n : Nat) : Fld := ⟨0x401000 + n * 0x100, 22, 2, 0, .warm, .rw, false⟩
def F.planeCfg_BILINEAR (n : Nat) : Fld := ⟨0x401000 + n * 0x100, 24, 1, 1, .warm, .rw, false⟩
def F.planeCfg_PREMUL (n : Nat) : Fld := ⟨0x401000 + n * 0x100, 25, 1, 0, .warm, .rw, false⟩
def F.planeCfg_SRC_SEL (n : Nat) : Fld := ⟨0x401000 + n * 0x100, 26, 2, 0, .warm, .rw, false⟩
def F.planeCfg_STREAM (n : Nat) : Fld := ⟨0x401000 + n * 0x100, 28, 4, 0, .warm, .rw, false⟩
def F.planeFmt_FORMAT (n : Nat) : Fld := ⟨0x401004 + n * 0x100, 0, 6, 4, .warm, .rw, false⟩
def F.planeFmt_CSC (n : Nat) : Fld := ⟨0x401004 + n * 0x100, 8, 2, 1, .warm, .rw, false⟩
def F.planeFmt_FULL_RANGE (n : Nat) : Fld := ⟨0x401004 + n * 0x100, 10, 1, 0, .warm, .rw, false⟩
def F.planeFmt_TILE (n : Nat) : Fld := ⟨0x401004 + n * 0x100, 12, 2, 0, .warm, .rw, false⟩
def F.planeSrc_SRC_W (n : Nat) : Fld := ⟨0x401008 + n * 0x100, 0, 15, 0, .warm, .rw, false⟩
def F.planeSrc_SRC_H (n : Nat) : Fld := ⟨0x401008 + n * 0x100, 16, 15, 0, .warm, .rw, false⟩
def F.planeMap_MAP_W_M1 (n : Nat) : Fld := ⟨0x40100C + n * 0x100, 0, 9, 0, .warm, .rw, false⟩
def F.planeMap_MAP_H_M1 (n : Nat) : Fld := ⟨0x40100C + n * 0x100, 16, 9, 0, .warm, .rw, false⟩
def F.planeBase_ADDR (n : Nat) : Fld := ⟨0x401010 + n * 0x100, 0, 40, 0, .warm, .ro, false⟩
def F.planeBase2_ADDR (n : Nat) : Fld := ⟨0x401018 + n * 0x100, 0, 40, 0, .warm, .ro, false⟩
def F.planeStride_BYTES (n : Nat) : Fld := ⟨0x401020 + n * 0x100, 0, 24, 0, .warm, .rw, false⟩
def F.planeStride2_BYTES (n : Nat) : Fld := ⟨0x401024 + n * 0x100, 0, 24, 0, .warm, .rw, false⟩
def F.planePatcount_COUNT (n : Nat) : Fld := ⟨0x401028 + n * 0x100, 0, 17, 0, .warm, .rw, false⟩
def F.planeDst_DST_Y (n : Nat) : Fld := ⟨0x40102C + n * 0x100, 0, 14, 0, .warm, .rw, false⟩
def F.planeDst_DST_H (n : Nat) : Fld := ⟨0x40102C + n * 0x100, 16, 14, 0, .warm, .rw, false⟩
def F.planeHstep_STEP (n : Nat) : Fld := ⟨0x401030 + n * 0x100, 0, 24, 0x100000, .warm, .rw, false⟩
def F.planeVstep_STEP (n : Nat) : Fld := ⟨0x401034 + n * 0x100, 0, 24, 0x100000, .warm, .rw, false⟩
def F.planeWmax_WIDTH (n : Nat) : Fld := ⟨0x401038 + n * 0x100, 0, 14, 0, .warm, .rw, false⟩
/-! ### R142 (spec/04_planes.md) -/
def F.planeLine_EN (n : Nat) : Fld := ⟨0x401040 + n * 0x100, 0, 1, 1, .warm, .rw, false⟩
def F.planeAlpha_ALPHA (n : Nat) : Fld := ⟨0x401044 + n * 0x100, 0, 12, 4095, .warm, .rw, false⟩
def F.planeWin_DST_X (n : Nat) : Fld := ⟨0x401048 + n * 0x100, 0, 14, 0, .warm, .rw, false⟩
def F.planeWin_DST_W (n : Nat) : Fld := ⟨0x401048 + n * 0x100, 16, 14, 0, .warm, .rw, false⟩
def F.planeScrollX_POS (n : Nat) : Fld := ⟨0x40104C + n * 0x100, 0, 24, 0, .warm, .rw, false⟩
def F.planeScrollY_POS (n : Nat) : Fld := ⟨0x401050 + n * 0x100, 0, 24, 0, .warm, .rw, false⟩
def F.planeAffX0_POS (n : Nat) : Fld := ⟨0x401054 + n * 0x100, 0, 24, 0, .warm, .rw, false⟩
def F.planeAffY0_POS (n : Nat) : Fld := ⟨0x401058 + n * 0x100, 0, 24, 0, .warm, .rw, false⟩
def F.planeAffDx_STEP (n : Nat) : Fld := ⟨0x40105C + n * 0x100, 0, 24, 0x10000, .warm, .rw, false⟩
def F.planeAffDy_STEP (n : Nat) : Fld := ⟨0x401060 + n * 0x100, 0, 24, 0, .warm, .rw, false⟩
def F.planeAffDmx_STEP (n : Nat) : Fld := ⟨0x401064 + n * 0x100, 0, 24, 0, .warm, .rw, false⟩
def F.planeAffDmy_STEP (n : Nat) : Fld := ⟨0x401068 + n * 0x100, 0, 24, 0x10000, .warm, .rw, false⟩
def F.planeHzLine_LINE (n : Nat) : Fld := ⟨0x40106C + n * 0x100, 0, 16, 0, .warm, .rw, false⟩
def F.planeHzKz_K (n : Nat) : Fld := ⟨0x401070 + n * 0x100, 0, 24, 0, .warm, .rw, false⟩
def F.planeHzKs_K (n : Nat) : Fld := ⟨0x401074 + n * 0x100, 0, 24, 0, .warm, .rw, false⟩
def F.planeHzSmax_S (n : Nat) : Fld := ⟨0x401078 + n * 0x100, 0, 24, 0x40000, .warm, .rw, false⟩
def F.planeHzCx_POS (n : Nat) : Fld := ⟨0x40107C + n * 0x100, 0, 24, 0, .warm, .rw, false⟩
def F.planeHzCy_POS (n : Nat) : Fld := ⟨0x401080 + n * 0x100, 0, 24, 0, .warm, .rw, false⟩
def F.planeHzVx_DIR (n : Nat) : Fld := ⟨0x401084 + n * 0x100, 0, 24, 0, .warm, .rw, false⟩
def F.planeHzVy_DIR (n : Nat) : Fld := ⟨0x401088 + n * 0x100, 0, 24, 0xFF0000, .warm, .rw, false⟩
def F.planeHzXc_COL (n : Nat) : Fld := ⟨0x40108C + n * 0x100, 0, 14, 0, .warm, .rw, false⟩
def F.planeConst_RGB (n : Nat) : Fld := ⟨0x401090 + n * 0x100, 0, 36, 0, .warm, .rw, false⟩
/-! ### R143 (spec/04_planes.md) -/
def F.planeStatus_ACTIVE (n : Nat) : Fld := ⟨0x4010C0 + n * 0x100, 0, 1, 0, .plain, .ro, true⟩
def F.planeStatus_UNDERRUN (n : Nat) : Fld := ⟨0x4010C0 + n * 0x100, 1, 1, 0, .plain, .ro, false⟩
def F.planeStatus_CLAMP_H (n : Nat) : Fld := ⟨0x4010C0 + n * 0x100, 2, 1, 0, .plain, .ro, false⟩
def F.planeStatus_CLAMP_V (n : Nat) : Fld := ⟨0x4010C0 + n * 0x100, 3, 1, 0, .plain, .ro, false⟩
def F.planeStatus_BAD_TILE (n : Nat) : Fld := ⟨0x4010C0 + n * 0x100, 4, 1, 0, .plain, .ro, false⟩
def F.planeStatus_ZERO_SRC (n : Nat) : Fld := ⟨0x4010C0 + n * 0x100, 5, 1, 0, .plain, .ro, false⟩
def F.planeStatus_NO_FRAME (n : Nat) : Fld := ⟨0x4010C0 + n * 0x100, 6, 1, 0, .plain, .ro, false⟩
def F.planeStatus_LAST (n : Nat) : Fld := ⟨0x4010C0 + n * 0x100, 9, 6, 0, .plain, .ro, false⟩
def F.planeStatus_FETCH_LINE (n : Nat) : Fld := ⟨0x4010C0 + n * 0x100, 16, 16, 0, .plain, .ro, true⟩
def F.planeCost_MAXC (n : Nat) : Fld := ⟨0x4010C4 + n * 0x100, 0, 16, 0, .plain, .ro, false⟩
def F.planeUnderruns_COUNT (n : Nat) : Fld := ⟨0x4010C8 + n * 0x100, 0, 16, 0, .warm, .ro, false⟩
/-! ### R144 (spec/04_planes.md) -/
def F.planePal_R (n : Nat) (e : Nat) : Fld := ⟨0x480000 + n * 0x800 + e * 0x8, 36, 12, 0, .warm, .rw, false⟩
def F.planePal_G (n : Nat) (e : Nat) : Fld := ⟨0x480000 + n * 0x800 + e * 0x8, 24, 12, 0, .warm, .rw, false⟩
def F.planePal_B (n : Nat) (e : Nat) : Fld := ⟨0x480000 + n * 0x800 + e * 0x8, 12, 12, 0, .warm, .rw, false⟩
def F.planePal_A (n : Nat) (e : Nat) : Fld := ⟨0x480000 + n * 0x800 + e * 0x8, 0, 12, 0, .warm, .rw, false⟩

/-- Register rows of spec/04_planes.md. -/
def regsPlaneRows0 : List RegRow := [
  { name := "PLANE_ASSIGNED", base := 0x400000, n1 := 1, s1 := 0x0, n2 := 1, s2 := 0x0, wide := false, owner := .firmware,
    flds := fun _ _ => [F.planeAssigned_ENGINE] },
  { name := "PLANE_EVT_CLAMP", base := 0x400010, n1 := 1, s1 := 0x0, n2 := 1, s2 := 0x0, wide := false, owner := .firmware,
    flds := fun _ _ => [F.planeEvtClamp_ENGINE] },
  { name := "PLANE_EVT_BAD_TILE", base := 0x400014, n1 := 1, s1 := 0x0, n2 := 1, s2 := 0x0, wide := false, owner := .firmware,
    flds := fun _ _ => [F.planeEvtBadTile_ENGINE] },
  { name := "PLANE_EVT_NO_FRAME", base := 0x400018, n1 := 1, s1 := 0x0, n2 := 1, s2 := 0x0, wide := false, owner := .firmware,
    flds := fun _ _ => [F.planeEvtNoFrame_ENGINE] },
  { name := "PLANE_EVT_UNDERRUN", base := 0x40001C, n1 := 1, s1 := 0x0, n2 := 1, s2 := 0x0, wide := false, owner := .firmware,
    flds := fun _ _ => [F.planeEvtUnderrun_ENGINE] },
  { name := "PLANE_n_CFG", base := 0x401000, n1 := 32, s1 := 0x100, n2 := 1, s2 := 0x0, wide := false, owner := .firmware,
    flds := fun i _ => [F.planeCfg_EN i, F.planeCfg_KIND i, F.planeCfg_PIPE i, F.planeCfg_SLOT i, F.planeCfg_CLASS0 i, F.planeCfg_WIDE i, F.planeCfg_MODE i, F.planeCfg_EDGE i, F.planeCfg_MIRROR_H i, F.planeCfg_MIRROR_V i, F.planeCfg_FILTER i, F.planeCfg_VTAPS i, F.planeCfg_BILINEAR i, F.planeCfg_PREMUL i, F.planeCfg_SRC_SEL i, F.planeCfg_STREAM i] },
  { name := "PLANE_n_FMT", base := 0x401004, n1 := 32, s1 := 0x100, n2 := 1, s2 := 0x0, wide := false, owner := .firmware,
    flds := fun i _ => [F.planeFmt_FORMAT i, F.planeFmt_CSC i, F.planeFmt_FULL_RANGE i, F.planeFmt_TILE i] },
  { name := "PLANE_n_SRC", base := 0x401008, n1 := 32, s1 := 0x100, n2 := 1, s2 := 0x0, wide := false, owner := .firmware,
    flds := fun i _ => [F.planeSrc_SRC_W i, F.planeSrc_SRC_H i] },
  { name := "PLANE_n_MAP", base := 0x40100C, n1 := 32, s1 := 0x100, n2 := 1, s2 := 0x0, wide := false, owner := .firmware,
    flds := fun i _ => [F.planeMap_MAP_W_M1 i, F.planeMap_MAP_H_M1 i] },
  { name := "PLANE_n_BASE", base := 0x401010, n1 := 32, s1 := 0x100, n2 := 1, s2 := 0x0, wide := true, owner := .firmware,
    flds := fun i _ => [F.planeBase_ADDR i] },
  { name := "PLANE_n_BASE2", base := 0x401018, n1 := 32, s1 := 0x100, n2 := 1, s2 := 0x0, wide := true, owner := .firmware,
    flds := fun i _ => [F.planeBase2_ADDR i] },
  { name := "PLANE_n_STRIDE", base := 0x401020, n1 := 32, s1 := 0x100, n2 := 1, s2 := 0x0, wide := false, owner := .firmware,
    flds := fun i _ => [F.planeStride_BYTES i] }]

/-- Register rows of spec/04_planes.md. -/
def regsPlaneRows1 : List RegRow := [
  { name := "PLANE_n_STRIDE2", base := 0x401024, n1 := 32, s1 := 0x100, n2 := 1, s2 := 0x0, wide := false, owner := .firmware,
    flds := fun i _ => [F.planeStride2_BYTES i] },
  { name := "PLANE_n_PATCOUNT", base := 0x401028, n1 := 32, s1 := 0x100, n2 := 1, s2 := 0x0, wide := false, owner := .firmware,
    flds := fun i _ => [F.planePatcount_COUNT i] },
  { name := "PLANE_n_DST", base := 0x40102C, n1 := 32, s1 := 0x100, n2 := 1, s2 := 0x0, wide := false, owner := .firmware,
    flds := fun i _ => [F.planeDst_DST_Y i, F.planeDst_DST_H i] },
  { name := "PLANE_n_HSTEP", base := 0x401030, n1 := 32, s1 := 0x100, n2 := 1, s2 := 0x0, wide := false, owner := .firmware,
    flds := fun i _ => [F.planeHstep_STEP i] },
  { name := "PLANE_n_VSTEP", base := 0x401034, n1 := 32, s1 := 0x100, n2 := 1, s2 := 0x0, wide := false, owner := .firmware,
    flds := fun i _ => [F.planeVstep_STEP i] },
  { name := "PLANE_n_WMAX", base := 0x401038, n1 := 32, s1 := 0x100, n2 := 1, s2 := 0x0, wide := false, owner := .firmware,
    flds := fun i _ => [F.planeWmax_WIDTH i] },
  { name := "PLANE_n_LINE", base := 0x401040, n1 := 32, s1 := 0x100, n2 := 1, s2 := 0x0, wide := false, owner := .firmware,
    flds := fun i _ => [F.planeLine_EN i] },
  { name := "PLANE_n_ALPHA", base := 0x401044, n1 := 32, s1 := 0x100, n2 := 1, s2 := 0x0, wide := false, owner := .firmware,
    flds := fun i _ => [F.planeAlpha_ALPHA i] },
  { name := "PLANE_n_WIN", base := 0x401048, n1 := 32, s1 := 0x100, n2 := 1, s2 := 0x0, wide := false, owner := .firmware,
    flds := fun i _ => [F.planeWin_DST_X i, F.planeWin_DST_W i] },
  { name := "PLANE_n_SCROLL_X", base := 0x40104C, n1 := 32, s1 := 0x100, n2 := 1, s2 := 0x0, wide := false, owner := .firmware,
    flds := fun i _ => [F.planeScrollX_POS i] },
  { name := "PLANE_n_SCROLL_Y", base := 0x401050, n1 := 32, s1 := 0x100, n2 := 1, s2 := 0x0, wide := false, owner := .firmware,
    flds := fun i _ => [F.planeScrollY_POS i] },
  { name := "PLANE_n_AFF_X0", base := 0x401054, n1 := 32, s1 := 0x100, n2 := 1, s2 := 0x0, wide := false, owner := .firmware,
    flds := fun i _ => [F.planeAffX0_POS i] }]

/-- Register rows of spec/04_planes.md. -/
def regsPlaneRows2 : List RegRow := [
  { name := "PLANE_n_AFF_Y0", base := 0x401058, n1 := 32, s1 := 0x100, n2 := 1, s2 := 0x0, wide := false, owner := .firmware,
    flds := fun i _ => [F.planeAffY0_POS i] },
  { name := "PLANE_n_AFF_DX", base := 0x40105C, n1 := 32, s1 := 0x100, n2 := 1, s2 := 0x0, wide := false, owner := .firmware,
    flds := fun i _ => [F.planeAffDx_STEP i] },
  { name := "PLANE_n_AFF_DY", base := 0x401060, n1 := 32, s1 := 0x100, n2 := 1, s2 := 0x0, wide := false, owner := .firmware,
    flds := fun i _ => [F.planeAffDy_STEP i] },
  { name := "PLANE_n_AFF_DMX", base := 0x401064, n1 := 32, s1 := 0x100, n2 := 1, s2 := 0x0, wide := false, owner := .firmware,
    flds := fun i _ => [F.planeAffDmx_STEP i] },
  { name := "PLANE_n_AFF_DMY", base := 0x401068, n1 := 32, s1 := 0x100, n2 := 1, s2 := 0x0, wide := false, owner := .firmware,
    flds := fun i _ => [F.planeAffDmy_STEP i] },
  { name := "PLANE_n_HZ_LINE", base := 0x40106C, n1 := 32, s1 := 0x100, n2 := 1, s2 := 0x0, wide := false, owner := .firmware,
    flds := fun i _ => [F.planeHzLine_LINE i] },
  { name := "PLANE_n_HZ_KZ", base := 0x401070, n1 := 32, s1 := 0x100, n2 := 1, s2 := 0x0, wide := false, owner := .firmware,
    flds := fun i _ => [F.planeHzKz_K i] },
  { name := "PLANE_n_HZ_KS", base := 0x401074, n1 := 32, s1 := 0x100, n2 := 1, s2 := 0x0, wide := false, owner := .firmware,
    flds := fun i _ => [F.planeHzKs_K i] },
  { name := "PLANE_n_HZ_SMAX", base := 0x401078, n1 := 32, s1 := 0x100, n2 := 1, s2 := 0x0, wide := false, owner := .firmware,
    flds := fun i _ => [F.planeHzSmax_S i] },
  { name := "PLANE_n_HZ_CX", base := 0x40107C, n1 := 32, s1 := 0x100, n2 := 1, s2 := 0x0, wide := false, owner := .firmware,
    flds := fun i _ => [F.planeHzCx_POS i] },
  { name := "PLANE_n_HZ_CY", base := 0x401080, n1 := 32, s1 := 0x100, n2 := 1, s2 := 0x0, wide := false, owner := .firmware,
    flds := fun i _ => [F.planeHzCy_POS i] },
  { name := "PLANE_n_HZ_VX", base := 0x401084, n1 := 32, s1 := 0x100, n2 := 1, s2 := 0x0, wide := false, owner := .firmware,
    flds := fun i _ => [F.planeHzVx_DIR i] }]

/-- Register rows of spec/04_planes.md. -/
def regsPlaneRows3 : List RegRow := [
  { name := "PLANE_n_HZ_VY", base := 0x401088, n1 := 32, s1 := 0x100, n2 := 1, s2 := 0x0, wide := false, owner := .firmware,
    flds := fun i _ => [F.planeHzVy_DIR i] },
  { name := "PLANE_n_HZ_XC", base := 0x40108C, n1 := 32, s1 := 0x100, n2 := 1, s2 := 0x0, wide := false, owner := .firmware,
    flds := fun i _ => [F.planeHzXc_COL i] },
  { name := "PLANE_n_CONST", base := 0x401090, n1 := 32, s1 := 0x100, n2 := 1, s2 := 0x0, wide := true, owner := .firmware,
    flds := fun i _ => [F.planeConst_RGB i] },
  { name := "PLANE_n_STATUS", base := 0x4010C0, n1 := 32, s1 := 0x100, n2 := 1, s2 := 0x0, wide := false, owner := .firmware,
    flds := fun i _ => [F.planeStatus_ACTIVE i, F.planeStatus_UNDERRUN i, F.planeStatus_CLAMP_H i, F.planeStatus_CLAMP_V i, F.planeStatus_BAD_TILE i, F.planeStatus_ZERO_SRC i, F.planeStatus_NO_FRAME i, F.planeStatus_LAST i, F.planeStatus_FETCH_LINE i] },
  { name := "PLANE_n_COST", base := 0x4010C4, n1 := 32, s1 := 0x100, n2 := 1, s2 := 0x0, wide := false, owner := .firmware,
    flds := fun i _ => [F.planeCost_MAXC i] },
  { name := "PLANE_n_UNDERRUNS", base := 0x4010C8, n1 := 32, s1 := 0x100, n2 := 1, s2 := 0x0, wide := false, owner := .firmware,
    flds := fun i _ => [F.planeUnderruns_COUNT i] },
  { name := "PLANE_n_PAL_e", base := 0x480000, n1 := 32, s1 := 0x800, n2 := 256, s2 := 0x8, wide := true, owner := .firmware,
    flds := fun i j => [F.planePal_R i j, F.planePal_G i j, F.planePal_B i j, F.planePal_A i j] }]

/-- All register rows of spec/04_planes.md. -/
def regsPlaneRows : List RegRow := regsPlaneRows0 ++ regsPlaneRows1 ++ regsPlaneRows2 ++ regsPlaneRows3

/-! ### R147 (spec/05_harp_objects.md) -/
def F.harpObjCtl_EN (i : Nat) : Fld := ⟨0x500000 + i * 0x20, 0, 1, 0, .warm, .rw, false⟩
def F.harpObjCtl_AFFINE (i : Nat) : Fld := ⟨0x500000 + i * 0x20, 1, 1, 0, .warm, .rw, false⟩
def F.harpObjCtl_HFLIP (i : Nat) : Fld := ⟨0x500000 + i * 0x20, 2, 1, 0, .warm, .rw, false⟩
def F.harpObjCtl_VFLIP (i : Nat) : Fld := ⟨0x500000 + i * 0x20, 3, 1, 0, .warm, .rw, false⟩
def F.harpObjCtl_BILINEAR (i : Nat) : Fld := ⟨0x500000 + i * 0x20, 4, 1, 0, .warm, .rw, false⟩
def F.harpObjCtl_CLIP_EN (i : Nat) : Fld := ⟨0x500000 + i * 0x20, 5, 1, 0, .warm, .rw, false⟩
def F.harpObjCtl_PREMUL (i : Nat) : Fld := ⟨0x500000 + i * 0x20, 6, 1, 0, .warm, .rw, false⟩
def F.harpObjCtl_FORMAT (i : Nat) : Fld := ⟨0x500000 + i * 0x20, 8, 4, 0, .warm, .rw, false⟩
def F.harpObjCtl_PAL (i : Nat) : Fld := ⟨0x500000 + i * 0x20, 12, 3, 0, .warm, .rw, false⟩
def F.harpObjCtl_PRIORITY (i : Nat) : Fld := ⟨0x500000 + i * 0x20, 16, 8, 0, .warm, .rw, false⟩
def F.harpObjCtl_PIPE_MASK (i : Nat) : Fld := ⟨0x500000 + i * 0x20, 24, 8, 0, .warm, .rw, false⟩
def F.harpObjPos_X (i : Nat) : Fld := ⟨0x500004 + i * 0x20, 0, 14, 0, .warm, .rw, false⟩
def F.harpObjPos_Y (i : Nat) : Fld := ⟨0x500004 + i * 0x20, 16, 14, 0, .warm, .rw, false⟩
def F.harpObjSize_W_M1 (i : Nat) : Fld := ⟨0x500008 + i * 0x20, 0, 8, 0, .warm, .rw, false⟩
def F.harpObjSize_H_M1 (i : Nat) : Fld := ⟨0x500008 + i * 0x20, 8, 8, 0, .warm, .rw, false⟩
def F.harpObjSize_BOX_W_M1 (i : Nat) : Fld := ⟨0x500008 + i * 0x20, 16, 8, 0, .warm, .rw, false⟩
def F.harpObjSize_BOX_H_M1 (i : Nat) : Fld := ⟨0x500008 + i * 0x20, 24, 8, 0, .warm, .rw, false⟩
def F.harpObjLook_ALPHA (i : Nat) : Fld := ⟨0x50000C + i * 0x20, 0, 12, 0, .warm, .rw, false⟩
def F.harpObjLook_PAL_OFS (i : Nat) : Fld := ⟨0x50000C + i * 0x20, 12, 8, 0, .warm, .rw, false⟩
def F.harpObjLook_STRIDE (i : Nat) : Fld := ⟨0x50000C + i * 0x20, 20, 8, 0, .warm, .rw, false⟩
def F.harpObjPat_ADDR (i : Nat) : Fld := ⟨0x500010 + i * 0x20, 0, 32, 0, .warm, .rw, false⟩
def F.harpObjClipx_X0 (i : Nat) : Fld := ⟨0x500014 + i * 0x20, 0, 13, 0, .warm, .rw, false⟩
def F.harpObjClipx_X1 (i : Nat) : Fld := ⟨0x500014 + i * 0x20, 16, 13, 0, .warm, .rw, false⟩
def F.harpObjClipy_Y0 (i : Nat) : Fld := ⟨0x500018 + i * 0x20, 0, 13, 0, .warm, .rw, false⟩
def F.harpObjClipy_Y1 (i : Nat) : Fld := ⟨0x500018 + i * 0x20, 16, 13, 0, .warm, .rw, false⟩
def F.harpObjPub_AFF_SET (i : Nat) : Fld := ⟨0x50001C + i * 0x20, 0, 10, 0, .warm, .rw, false⟩
def F.harpObjPub_TAG (i : Nat) : Fld := ⟨0x50001C + i * 0x20, 16, 16, 0, .warm, .rw, false⟩
/-! ### R150 (spec/05_harp_objects.md) -/
def F.harpAffMx_MXX (s : Nat) : Fld := ⟨0x520000 + s * 0x10, 0, 16, 0, .warm, .rw, false⟩
def F.harpAffMx_MXY (s : Nat) : Fld := ⟨0x520000 + s * 0x10, 16, 16, 0, .warm, .rw, false⟩
def F.harpAffMy_MYX (s : Nat) : Fld := ⟨0x520004 + s * 0x10, 0, 16, 0, .warm, .rw, false⟩
def F.harpAffMy_MYY (s : Nat) : Fld := ⟨0x520004 + s * 0x10, 16, 16, 0, .warm, .rw, false⟩
def F.harpAffPiv_PIVX (s : Nat) : Fld := ⟨0x520008 + s * 0x10, 0, 16, 0, .warm, .rw, false⟩
def F.harpAffPiv_PIVY (s : Nat) : Fld := ⟨0x520008 + s * 0x10, 16, 16, 0, .warm, .rw, false⟩
def F.harpAffPub_PUB (s : Nat) : Fld := ⟨0x52000C + s * 0x10, 0, 32, 0, .warm, .wo, false⟩
/-! ### R146 (spec/05_harp_objects.md) -/
def F.harpPal_R (q : Nat) (e : Nat) : Fld := ⟨0x528000 + q * 0x800 + e * 0x8, 36, 12, 0, .warm, .rw, false⟩
def F.harpPal_G (q : Nat) (e : Nat) : Fld := ⟨0x528000 + q * 0x800 + e * 0x8, 24, 12, 0, .warm, .rw, false⟩
def F.harpPal_B (q : Nat) (e : Nat) : Fld := ⟨0x528000 + q * 0x800 + e * 0x8, 12, 12, 0, .warm, .rw, false⟩
def F.harpPal_A (q : Nat) (e : Nat) : Fld := ⟨0x528000 + q * 0x800 + e * 0x8, 0, 12, 0, .warm, .rw, false⟩
/-! ### R166 (spec/05_harp_objects.md) -/
def F.harpStatus_DISCARDS : Fld := ⟨0x530000, 0, 16, 0, .plain, .ro, false⟩
def F.harpEvtOvfCount_PIPE : Fld := ⟨0x530010, 0, 8, 0, .plain, .ro, false⟩
def F.harpEvtOvfTime_PIPE : Fld := ⟨0x530014, 0, 8, 0, .plain, .ro, false⟩
def F.harpEvtUnderrun_PIPE : Fld := ⟨0x530018, 0, 8, 0, .plain, .ro, false⟩
def F.harpEvtBadObj_PIPE : Fld := ⟨0x53001C, 0, 8, 0, .plain, .ro, false⟩
def F.harpGrp_OWNER (g : Nat) : Fld := ⟨0x530100 + g * 0x4, 0, 4, 8, .warm, .rw, false⟩
/-! ### R167 (spec/05_harp_objects.md) -/
def F.harpPipeCtl_EN (p : Nat) : Fld := ⟨0x531000 + p * 0x40, 0, 1, 0, .warm, .rw, false⟩
def F.harpPipeStageAddr_ADDR (p : Nat) : Fld := ⟨0x531008 + p * 0x40, 0, 40, 0, .warm, .rw, false⟩
def F.harpPipeStage_FIRST (p : Nat) : Fld := ⟨0x531010 + p * 0x40, 0, 12, 0, .warm, .rw, false⟩
def F.harpPipeStage_COUNT (p : Nat) : Fld := ⟨0x531010 + p * 0x40, 16, 13, 0, .warm, .rw, false⟩
def F.harpPipeStageAff_AFF_FIRST (p : Nat) : Fld := ⟨0x531014 + p * 0x40, 0, 10, 0, .warm, .rw, false⟩
def F.harpPipeStageAff_AFF_COUNT (p : Nat) : Fld := ⟨0x531014 + p * 0x40, 16, 11, 0, .warm, .rw, false⟩
def F.harpPipeStatus_OVF_COUNT (p : Nat) : Fld := ⟨0x531020 + p * 0x40, 0, 1, 0, .plain, .ro, false⟩
def F.harpPipeStatus_OVF_TIME (p : Nat) : Fld := ⟨0x531020 + p * 0x40, 1, 1, 0, .plain, .ro, false⟩
def F.harpPipeStatus_UNDERRUN (p : Nat) : Fld := ⟨0x531020 + p * 0x40, 2, 1, 0, .plain, .ro, false⟩
def F.harpPipeStatus_BAD_OBJ (p : Nat) : Fld := ⟨0x531020 + p * 0x40, 3, 1, 0, .plain, .ro, false⟩
def F.harpPipeStatus_STAGE_ERR (p : Nat) : Fld := ⟨0x531020 + p * 0x40, 4, 1, 0, .plain, .ro, false⟩
def F.harpPipeStatus_LAST (p : Nat) : Fld := ⟨0x531020 + p * 0x40, 8, 5, 0, .plain, .ro, false⟩
def F.harpPipeStatus_MAXUNITS (p : Nat) : Fld := ⟨0x531020 + p * 0x40, 16, 9, 0, .plain, .ro, false⟩
def F.harpPipeDrops_COUNT (p : Nat) : Fld := ⟨0x531024 + p * 0x40, 0, 32, 0, .warm, .ro, false⟩
def F.harpPipeUnderruns_COUNT (p : Nat) : Fld := ⟨0x531028 + p * 0x40, 0, 16, 0, .warm, .ro, false⟩
def F.harpPipeMaxcyc_CCLK (p : Nat) : Fld := ⟨0x53102C + p * 0x40, 0, 16, 0, .plain, .ro, false⟩
def F.harpPipeLaststage_STAMP (p : Nat) : Fld := ⟨0x531030 + p * 0x40, 0, 48, 0, .plain, .ro, false⟩

/-- Register rows of spec/05_harp_objects.md. -/
def regsHarpRows0 : List RegRow := [
  { name := "HARP_OBJ_i_CTL", base := 0x500000, n1 := 4096, s1 := 0x20, n2 := 1, s2 := 0x0, wide := false, owner := .firmware,
    flds := fun i _ => [F.harpObjCtl_EN i, F.harpObjCtl_AFFINE i, F.harpObjCtl_HFLIP i, F.harpObjCtl_VFLIP i, F.harpObjCtl_BILINEAR i, F.harpObjCtl_CLIP_EN i, F.harpObjCtl_PREMUL i, F.harpObjCtl_FORMAT i, F.harpObjCtl_PAL i, F.harpObjCtl_PRIORITY i, F.harpObjCtl_PIPE_MASK i] },
  { name := "HARP_OBJ_i_POS", base := 0x500004, n1 := 4096, s1 := 0x20, n2 := 1, s2 := 0x0, wide := false, owner := .firmware,
    flds := fun i _ => [F.harpObjPos_X i, F.harpObjPos_Y i] },
  { name := "HARP_OBJ_i_SIZE", base := 0x500008, n1 := 4096, s1 := 0x20, n2 := 1, s2 := 0x0, wide := false, owner := .firmware,
    flds := fun i _ => [F.harpObjSize_W_M1 i, F.harpObjSize_H_M1 i, F.harpObjSize_BOX_W_M1 i, F.harpObjSize_BOX_H_M1 i] },
  { name := "HARP_OBJ_i_LOOK", base := 0x50000C, n1 := 4096, s1 := 0x20, n2 := 1, s2 := 0x0, wide := false, owner := .firmware,
    flds := fun i _ => [F.harpObjLook_ALPHA i, F.harpObjLook_PAL_OFS i, F.harpObjLook_STRIDE i] },
  { name := "HARP_OBJ_i_PAT", base := 0x500010, n1 := 4096, s1 := 0x20, n2 := 1, s2 := 0x0, wide := false, owner := .firmware,
    flds := fun i _ => [F.harpObjPat_ADDR i] },
  { name := "HARP_OBJ_i_CLIPX", base := 0x500014, n1 := 4096, s1 := 0x20, n2 := 1, s2 := 0x0, wide := false, owner := .firmware,
    flds := fun i _ => [F.harpObjClipx_X0 i, F.harpObjClipx_X1 i] },
  { name := "HARP_OBJ_i_CLIPY", base := 0x500018, n1 := 4096, s1 := 0x20, n2 := 1, s2 := 0x0, wide := false, owner := .firmware,
    flds := fun i _ => [F.harpObjClipy_Y0 i, F.harpObjClipy_Y1 i] },
  { name := "HARP_OBJ_i_PUB", base := 0x50001C, n1 := 4096, s1 := 0x20, n2 := 1, s2 := 0x0, wide := false, owner := .firmware,
    flds := fun i _ => [F.harpObjPub_AFF_SET i, F.harpObjPub_TAG i] },
  { name := "HARP_AFF_s_MX", base := 0x520000, n1 := 1024, s1 := 0x10, n2 := 1, s2 := 0x0, wide := false, owner := .firmware,
    flds := fun i _ => [F.harpAffMx_MXX i, F.harpAffMx_MXY i] },
  { name := "HARP_AFF_s_MY", base := 0x520004, n1 := 1024, s1 := 0x10, n2 := 1, s2 := 0x0, wide := false, owner := .firmware,
    flds := fun i _ => [F.harpAffMy_MYX i, F.harpAffMy_MYY i] },
  { name := "HARP_AFF_s_PIV", base := 0x520008, n1 := 1024, s1 := 0x10, n2 := 1, s2 := 0x0, wide := false, owner := .firmware,
    flds := fun i _ => [F.harpAffPiv_PIVX i, F.harpAffPiv_PIVY i] },
  { name := "HARP_AFF_s_PUB", base := 0x52000C, n1 := 1024, s1 := 0x10, n2 := 1, s2 := 0x0, wide := false, owner := .firmware,
    flds := fun i _ => [F.harpAffPub_PUB i] }]

/-- Register rows of spec/05_harp_objects.md. -/
def regsHarpRows1 : List RegRow := [
  { name := "HARP_PAL_q_e", base := 0x528000, n1 := 8, s1 := 0x800, n2 := 256, s2 := 0x8, wide := true, owner := .firmware,
    flds := fun i j => [F.harpPal_R i j, F.harpPal_G i j, F.harpPal_B i j, F.harpPal_A i j] },
  { name := "HARP_STATUS", base := 0x530000, n1 := 1, s1 := 0x0, n2 := 1, s2 := 0x0, wide := false, owner := .firmware,
    flds := fun _ _ => [F.harpStatus_DISCARDS] },
  { name := "HARP_EVT_OVF_COUNT", base := 0x530010, n1 := 1, s1 := 0x0, n2 := 1, s2 := 0x0, wide := false, owner := .firmware,
    flds := fun _ _ => [F.harpEvtOvfCount_PIPE] },
  { name := "HARP_EVT_OVF_TIME", base := 0x530014, n1 := 1, s1 := 0x0, n2 := 1, s2 := 0x0, wide := false, owner := .firmware,
    flds := fun _ _ => [F.harpEvtOvfTime_PIPE] },
  { name := "HARP_EVT_UNDERRUN", base := 0x530018, n1 := 1, s1 := 0x0, n2 := 1, s2 := 0x0, wide := false, owner := .firmware,
    flds := fun _ _ => [F.harpEvtUnderrun_PIPE] },
  { name := "HARP_EVT_BAD_OBJ", base := 0x53001C, n1 := 1, s1 := 0x0, n2 := 1, s2 := 0x0, wide := false, owner := .firmware,
    flds := fun _ _ => [F.harpEvtBadObj_PIPE] },
  { name := "HARP_GRP_g", base := 0x530100, n1 := 64, s1 := 0x4, n2 := 1, s2 := 0x0, wide := false, owner := .firmware,
    flds := fun i _ => [F.harpGrp_OWNER i] },
  { name := "HARP_PIPE_p_CTL", base := 0x531000, n1 := 8, s1 := 0x40, n2 := 1, s2 := 0x0, wide := false, owner := .firmware,
    flds := fun i _ => [F.harpPipeCtl_EN i] },
  { name := "HARP_PIPE_p_STAGE_ADDR", base := 0x531008, n1 := 8, s1 := 0x40, n2 := 1, s2 := 0x0, wide := true, owner := .firmware,
    flds := fun i _ => [F.harpPipeStageAddr_ADDR i] },
  { name := "HARP_PIPE_p_STAGE", base := 0x531010, n1 := 8, s1 := 0x40, n2 := 1, s2 := 0x0, wide := false, owner := .firmware,
    flds := fun i _ => [F.harpPipeStage_FIRST i, F.harpPipeStage_COUNT i] },
  { name := "HARP_PIPE_p_STAGE_AFF", base := 0x531014, n1 := 8, s1 := 0x40, n2 := 1, s2 := 0x0, wide := false, owner := .firmware,
    flds := fun i _ => [F.harpPipeStageAff_AFF_FIRST i, F.harpPipeStageAff_AFF_COUNT i] },
  { name := "HARP_PIPE_p_STATUS", base := 0x531020, n1 := 8, s1 := 0x40, n2 := 1, s2 := 0x0, wide := false, owner := .firmware,
    flds := fun i _ => [F.harpPipeStatus_OVF_COUNT i, F.harpPipeStatus_OVF_TIME i, F.harpPipeStatus_UNDERRUN i, F.harpPipeStatus_BAD_OBJ i, F.harpPipeStatus_STAGE_ERR i, F.harpPipeStatus_LAST i, F.harpPipeStatus_MAXUNITS i] }]

/-- Register rows of spec/05_harp_objects.md. -/
def regsHarpRows2 : List RegRow := [
  { name := "HARP_PIPE_p_DROPS", base := 0x531024, n1 := 8, s1 := 0x40, n2 := 1, s2 := 0x0, wide := false, owner := .firmware,
    flds := fun i _ => [F.harpPipeDrops_COUNT i] },
  { name := "HARP_PIPE_p_UNDERRUNS", base := 0x531028, n1 := 8, s1 := 0x40, n2 := 1, s2 := 0x0, wide := false, owner := .firmware,
    flds := fun i _ => [F.harpPipeUnderruns_COUNT i] },
  { name := "HARP_PIPE_p_MAXCYC", base := 0x53102C, n1 := 8, s1 := 0x40, n2 := 1, s2 := 0x0, wide := false, owner := .firmware,
    flds := fun i _ => [F.harpPipeMaxcyc_CCLK i] },
  { name := "HARP_PIPE_p_LASTSTAGE", base := 0x531030, n1 := 8, s1 := 0x40, n2 := 1, s2 := 0x0, wide := true, owner := .firmware,
    flds := fun i _ => [F.harpPipeLaststage_STAMP i] }]

/-- All register rows of spec/05_harp_objects.md. -/
def regsHarpRows : List RegRow := regsHarpRows0 ++ regsHarpRows1 ++ regsHarpRows2

/-! ### R199 (spec/06_composition_scanout.md) -/
def F.pipeCommit_SLOT_MASK (p : Nat) : Fld := ⟨0x300000 + p * 0x2000, 0, 12, 0, .plain, .wo, false⟩
def F.pipeCommit_SEQ (p : Nat) : Fld := ⟨0x300000 + p * 0x2000, 16, 16, 0, .plain, .wo, false⟩
def F.pipeCommitStatus_PENDING (p : Nat) : Fld := ⟨0x300010 + p * 0x2000, 0, 2, 0, .plain, .ro, true⟩
def F.pipeCommitStatus_RESULT (p : Nat) : Fld := ⟨0x300010 + p * 0x2000, 2, 2, 0, .plain, .ro, false⟩
def F.pipeCommitStatus_FW (p : Nat) : Fld := ⟨0x300010 + p * 0x2000, 4, 1, 0, .plain, .ro, false⟩
def F.pipeCommitStatus_REPEAT (p : Nat) : Fld := ⟨0x300010 + p * 0x2000, 5, 1, 0, .plain, .ro, true⟩
def F.pipeCommitStatus_SUPERSEDED (p : Nat) : Fld := ⟨0x300010 + p * 0x2000, 8, 8, 0, .warm, .ro, false⟩
def F.pipeCommitStatus_LINE (p : Nat) : Fld := ⟨0x300010 + p * 0x2000, 16, 13, 0, .plain, .ro, false⟩
def F.pipeCommitSeq_LATCHED (p : Nat) : Fld := ⟨0x300014 + p * 0x2000, 0, 16, 0, .plain, .ro, false⟩
def F.pipeCommitSeq_PENDING (p : Nat) : Fld := ⟨0x300014 + p * 0x2000, 16, 16, 0, .plain, .ro, true⟩
def F.pipeLatchStamp_STAMP (p : Nat) : Fld := ⟨0x300018 + p * 0x2000, 0, 48, 0, .plain, .ro, false⟩
def F.pipeRetired_COUNT (p : Nat) : Fld := ⟨0x300020 + p * 0x2000, 0, 32, 0, .warm, .ro, false⟩
def F.pipeSlotAddr_ADDR (p : Nat) (s : Nat) : Fld := ⟨0x300100 + p * 0x2000 + s * 0x10, 0, 40, 0, .warm, .rw, false⟩
def F.pipeSlotAddr2_ADDR (p : Nat) (s : Nat) : Fld := ⟨0x300108 + p * 0x2000 + s * 0x10, 0, 40, 0, .warm, .rw, false⟩
def F.pipeSlotRel_ADDR (p : Nat) (s : Nat) : Fld := ⟨0x300200 + p * 0x2000 + s * 0x10, 0, 40, 0, .warm, .ro, false⟩
def F.pipeSlotRel_SKIPPED (p : Nat) (s : Nat) : Fld := ⟨0x300200 + p * 0x2000 + s * 0x10, 40, 1, 0, .warm, .ro, false⟩
def F.pipeSlotRel_COUNT (p : Nat) (s : Nat) : Fld := ⟨0x300200 + p * 0x2000 + s * 0x10, 48, 16, 0, .warm, .ro, false⟩
def F.pipeSlotRelfrm_RETIRED (p : Nat) (s : Nat) : Fld := ⟨0x300208 + p * 0x2000 + s * 0x10, 0, 32, 0, .warm, .ro, false⟩
/-! ### R200 (spec/06_composition_scanout.md) -/
def F.pipeCtl_EN (p : Nat) : Fld := ⟨0x300400 + p * 0x2000, 0, 1, 0, .warm, .rw, false⟩
def F.pipeCtl_READY_GATE (p : Nat) : Fld := ⟨0x300400 + p * 0x2000, 1, 1, 0, .warm, .rw, false⟩
def F.pipeCtl_OUT_LUT_EN (p : Nat) : Fld := ⟨0x300400 + p * 0x2000, 2, 1, 0, .warm, .rw, false⟩
def F.pipeCtl_DEPTH (p : Nat) : Fld := ⟨0x300400 + p * 0x2000, 4, 2, 2, .warm, .rw, false⟩
def F.pipeCtl_DITHER (p : Nat) : Fld := ⟨0x300400 + p * 0x2000, 6, 2, 0, .warm, .rw, false⟩
def F.pipeCtl_OBJ_ABOVE (p : Nat) : Fld := ⟨0x300400 + p * 0x2000, 8, 4, 11, .warm, .rw, false⟩
def F.pipeCtl_CLASS0 (p : Nat) : Fld := ⟨0x300400 + p * 0x2000, 12, 1, 0, .warm, .rw, false⟩
def F.pipeDomain_SLOT (p : Nat) : Fld := ⟨0x300404 + p * 0x2000, 0, 12, 0, .warm, .rw, false⟩
def F.pipeDomain_OBJ (p : Nat) : Fld := ⟨0x300404 + p * 0x2000, 12, 1, 0, .warm, .rw, false⟩
def F.pipeDomain_SAFE (p : Nat) : Fld := ⟨0x300404 + p * 0x2000, 13, 2, 0, .warm, .rw, false⟩
def F.pipeDomain_TF (p : Nat) : Fld := ⟨0x300404 + p * 0x2000, 16, 2, 0, .warm, .rw, false⟩
def F.pipeH_HACTIVE (p : Nat) : Fld := ⟨0x300410 + p * 0x2000, 0, 14, 0, .warm, .rw, false⟩
def F.pipeH_HTOTAL_M1 (p : Nat) : Fld := ⟨0x300410 + p * 0x2000, 16, 14, 0, .warm, .rw, false⟩
def F.pipeHsync_START (p : Nat) : Fld := ⟨0x300414 + p * 0x2000, 0, 14, 0, .warm, .rw, false⟩
def F.pipeHsync_WIDTH (p : Nat) : Fld := ⟨0x300414 + p * 0x2000, 16, 14, 0, .warm, .rw, false⟩
def F.pipeHsync_POL (p : Nat) : Fld := ⟨0x300414 + p * 0x2000, 31, 1, 0, .warm, .rw, false⟩
def F.pipeV_VACTIVE (p : Nat) : Fld := ⟨0x300418 + p * 0x2000, 0, 14, 0, .warm, .rw, false⟩
def F.pipeV_VBLANK_MIN (p : Nat) : Fld := ⟨0x300418 + p * 0x2000, 16, 13, 2, .warm, .rw, false⟩
def F.pipeVmax_VBLANK_MAX (p : Nat) : Fld := ⟨0x30041C + p * 0x2000, 0, 13, 2, .warm, .rw, false⟩
def F.pipeVmax_VSYNC_START (p : Nat) : Fld := ⟨0x30041C + p * 0x2000, 16, 8, 0, .warm, .rw, false⟩
def F.pipeVmax_VSYNC_W (p : Nat) : Fld := ⟨0x30041C + p * 0x2000, 24, 7, 0, .warm, .rw, false⟩
def F.pipeVmax_VPOL (p : Nat) : Fld := ⟨0x30041C + p * 0x2000, 31, 1, 0, .warm, .rw, false⟩
def F.pipeFreq_HZ (p : Nat) : Fld := ⟨0x300420 + p * 0x2000, 0, 32, 0, .warm, .rw, false⟩
def F.pipeBg_RGB (p : Nat) : Fld := ⟨0x300430 + p * 0x2000, 0, 36, 0, .warm, .rw, false⟩
/-! ### R201 (spec/06_composition_scanout.md) -/
def F.safeCtl_EN (p : Nat) (j : Nat) : Fld := ⟨0x300480 + p * 0x2000 + j * 0x20, 0, 1, 0, .sticky, .rw, false⟩
def F.safeCtl_FORMAT (p : Nat) (j : Nat) : Fld := ⟨0x300480 + p * 0x2000 + j * 0x20, 1, 2, 0, .sticky, .rw, false⟩
def F.safeCtl_PREMUL (p : Nat) (j : Nat) : Fld := ⟨0x300480 + p * 0x2000 + j * 0x20, 3, 1, 0, .sticky, .rw, false⟩
def F.safePos_X (p : Nat) (j : Nat) : Fld := ⟨0x300484 + p * 0x2000 + j * 0x20, 0, 14, 0, .sticky, .rw, false⟩
def F.safePos_Y (p : Nat) (j : Nat) : Fld := ⟨0x300484 + p * 0x2000 + j * 0x20, 16, 14, 0, .sticky, .rw, false⟩
def F.safeSize_W (p : Nat) (j : Nat) : Fld := ⟨0x300488 + p * 0x2000 + j * 0x20, 0, 14, 0, .sticky, .rw, false⟩
def F.safeSize_H (p : Nat) (j : Nat) : Fld := ⟨0x300488 + p * 0x2000 + j * 0x20, 16, 14, 0, .sticky, .rw, false⟩
def F.safeStride_BYTES (p : Nat) (j : Nat) : Fld := ⟨0x30048C + p * 0x2000 + j * 0x20, 0, 24, 0, .sticky, .rw, false⟩
def F.safeBase_ADDR (p : Nat) (j : Nat) : Fld := ⟨0x300490 + p * 0x2000 + j * 0x20, 0, 40, 0, .sticky, .rw, false⟩
def F.safeConst_RGB (p : Nat) (j : Nat) : Fld := ⟨0x300498 + p * 0x2000 + j * 0x20, 0, 36, 0, .sticky, .rw, false⟩
def F.pipeWbCtl_EN (p : Nat) : Fld := ⟨0x300500 + p * 0x2000, 0, 1, 0, .warm, .rw, false⟩
def F.pipeWbCtl_TAP (p : Nat) : Fld := ⟨0x300500 + p * 0x2000, 1, 1, 0, .warm, .rw, false⟩
def F.pipeWbCtl_FORMAT (p : Nat) : Fld := ⟨0x300500 + p * 0x2000, 2, 3, 0, .warm, .rw, false⟩
def F.pipeWbCtl_DEST (p : Nat) : Fld := ⟨0x300500 + p * 0x2000, 5, 1, 0, .warm, .rw, false⟩
def F.pipeWbCtl_LINK (p : Nat) : Fld := ⟨0x300500 + p * 0x2000, 6, 1, 0, .warm, .rw, false⟩
def F.pipeWbCtl_COUNT_M1 (p : Nat) : Fld := ⟨0x300500 + p * 0x2000, 8, 4, 0, .warm, .rw, false⟩
def F.pipeWbCtl_EVERY_M1 (p : Nat) : Fld := ⟨0x300500 + p * 0x2000, 16, 4, 0, .warm, .rw, false⟩
def F.pipeWbBase_ADDR (p : Nat) : Fld := ⟨0x300508 + p * 0x2000, 0, 40, 0, .warm, .rw, false⟩
def F.pipeWbStride_BYTES (p : Nat) : Fld := ⟨0x300510 + p * 0x2000, 0, 24, 0, .warm, .rw, false⟩
def F.pipeWbSpacing_BYTES (p : Nat) : Fld := ⟨0x300514 + p * 0x2000, 0, 32, 0, .warm, .rw, false⟩
def F.pipeWbStatus_INDEX (p : Nat) : Fld := ⟨0x300518 + p * 0x2000, 0, 4, 0, .plain, .ro, true⟩
def F.pipeWbStatus_INCOMPLETE (p : Nat) : Fld := ⟨0x300518 + p * 0x2000, 4, 1, 0, .plain, .ro, false⟩
def F.pipeWbStatus_BUSY (p : Nat) : Fld := ⟨0x300518 + p * 0x2000, 5, 1, 0, .plain, .ro, true⟩
def F.pipeWbStatus_OVERFLOWS (p : Nat) : Fld := ⟨0x300518 + p * 0x2000, 16, 16, 0, .warm, .ro, false⟩
def F.pipeWbStamp_STAMP (p : Nat) : Fld := ⟨0x300520 + p * 0x2000, 0, 48, 0, .plain, .ro, false⟩
/-! ### R202 (spec/06_composition_scanout.md) -/
def F.pipeStatus_STATE (p : Nat) : Fld := ⟨0x300600 + p * 0x2000, 0, 2, 0, .plain, .ro, true⟩
def F.pipeStatus_WAITING (p : Nat) : Fld := ⟨0x300600 + p * 0x2000, 2, 1, 0, .plain, .ro, true⟩
def F.pipeStatus_LP5X_REASON (p : Nat) : Fld := ⟨0x300600 + p * 0x2000, 3, 2, 0, .plain, .ro, false⟩
def F.pipeStatus_LINE (p : Nat) : Fld := ⟨0x300600 + p * 0x2000, 16, 16, 0, .plain, .ro, true⟩
def F.pipeUnderrun_SLOT (p : Nat) : Fld := ⟨0x300604 + p * 0x2000, 0, 12, 0, .plain, .ro, true⟩
def F.pipeUnderrun_OBJ (p : Nat) : Fld := ⟨0x300604 + p * 0x2000, 12, 1, 0, .plain, .ro, true⟩
def F.pipeUnderrun_SAFE (p : Nat) : Fld := ⟨0x300604 + p * 0x2000, 13, 2, 0, .plain, .ro, true⟩
def F.pipeUnderrun_LAST (p : Nat) : Fld := ⟨0x300604 + p * 0x2000, 16, 15, 0, .plain, .ro, false⟩
def F.pipeBadaddr_SLOT (p : Nat) : Fld := ⟨0x300608 + p * 0x2000, 0, 12, 0, .plain, .ro, true⟩
def F.pipeBadaddr_SAFE (p : Nat) : Fld := ⟨0x300608 + p * 0x2000, 13, 2, 0, .plain, .ro, true⟩
def F.pipeFirstUr_LINE (p : Nat) : Fld := ⟨0x30060C + p * 0x2000, 0, 14, 0, .plain, .ro, false⟩
def F.pipeFirstUr_LAYER (p : Nat) : Fld := ⟨0x30060C + p * 0x2000, 16, 4, 0, .plain, .ro, false⟩
def F.pipeFrames_COUNT (p : Nat) : Fld := ⟨0x300610 + p * 0x2000, 0, 32, 0, .warm, .ro, false⟩
def F.pipeRepeats_COUNT (p : Nat) : Fld := ⟨0x300614 + p * 0x2000, 0, 16, 0, .warm, .ro, false⟩
def F.pipeUrFrames_COUNT (p : Nat) : Fld := ⟨0x300618 + p * 0x2000, 0, 16, 0, .warm, .ro, false⟩
/-! ### R203 (spec/06_composition_scanout.md) -/
def F.portCtl_EN (k : Nat) : Fld := ⟨0x310000 + k * 0x100, 0, 1, 0, .warm, .rw, false⟩
def F.portCtl_EDP (k : Nat) : Fld := ⟨0x310000 + k * 0x100, 1, 1, 0, .warm, .rw, false⟩
def F.portCtl_PIPE (k : Nat) : Fld := ⟨0x310000 + k * 0x100, 2, 3, k, .warm, .rw, false⟩
def F.portCtl_LANES (k : Nat) : Fld := ⟨0x310000 + k * 0x100, 5, 2, 1, .warm, .rw, false⟩
def F.portCtl_RATE (k : Nat) : Fld := ⟨0x310000 + k * 0x100, 8, 4, 3, .warm, .rw, false⟩
def F.portCtl_ASSR (k : Nat) : Fld := ⟨0x310000 + k * 0x100, 12, 1, 0, .warm, .rw, false⟩
def F.portCtl_ADAPTIVE (k : Nat) : Fld := ⟨0x310000 + k * 0x100, 13, 1, 0, .warm, .rw, false⟩
def F.portLanemap_LANE (k : Nat) : Fld := ⟨0x310004 + k * 0x100, 0, 8, 228, .warm, .rw, false⟩
def F.portLanemap_INVERT (k : Nat) : Fld := ⟨0x310004 + k * 0x100, 8, 4, 0, .warm, .rw, false⟩
def F.portStatus_STATE (k : Nat) : Fld := ⟨0x310008 + k * 0x100, 0, 3, 0, .plain, .ro, true⟩
def F.portStatus_LANES_ACTIVE (k : Nat) : Fld := ⟨0x310008 + k * 0x100, 3, 3, 0, .plain, .ro, true⟩
def F.portStatus_RATE (k : Nat) : Fld := ⟨0x310008 + k * 0x100, 8, 4, 0, .plain, .ro, true⟩
def F.portStatus_HPD (k : Nat) : Fld := ⟨0x310008 + k * 0x100, 12, 1, 0, .plain, .ro, true⟩
def F.portStatus_ROUTE_PEND (k : Nat) : Fld := ⟨0x310008 + k * 0x100, 13, 1, 0, .plain, .ro, true⟩
def F.portStatus_PIPE (k : Nat) : Fld := ⟨0x310008 + k * 0x100, 16, 3, 0, .plain, .ro, true⟩

/-- Register rows of spec/06_composition_scanout.md. -/
def regsPipeRows0 : List RegRow := [
  { name := "PIPE_p_COMMIT", base := 0x300000, n1 := 8, s1 := 0x2000, n2 := 1, s2 := 0x0, wide := false, owner := .host,
    flds := fun i _ => [F.pipeCommit_SLOT_MASK i, F.pipeCommit_SEQ i] },
  { name := "PIPE_p_COMMIT_STATUS", base := 0x300010, n1 := 8, s1 := 0x2000, n2 := 1, s2 := 0x0, wide := false, owner := .firmware,
    flds := fun i _ => [F.pipeCommitStatus_PENDING i, F.pipeCommitStatus_RESULT i, F.pipeCommitStatus_FW i, F.pipeCommitStatus_REPEAT i, F.pipeCommitStatus_SUPERSEDED i, F.pipeCommitStatus_LINE i] },
  { name := "PIPE_p_COMMIT_SEQ", base := 0x300014, n1 := 8, s1 := 0x2000, n2 := 1, s2 := 0x0, wide := false, owner := .firmware,
    flds := fun i _ => [F.pipeCommitSeq_LATCHED i, F.pipeCommitSeq_PENDING i] },
  { name := "PIPE_p_LATCH_STAMP", base := 0x300018, n1 := 8, s1 := 0x2000, n2 := 1, s2 := 0x0, wide := true, owner := .firmware,
    flds := fun i _ => [F.pipeLatchStamp_STAMP i] },
  { name := "PIPE_p_RETIRED", base := 0x300020, n1 := 8, s1 := 0x2000, n2 := 1, s2 := 0x0, wide := false, owner := .firmware,
    flds := fun i _ => [F.pipeRetired_COUNT i] },
  { name := "PIPE_p_SLOT_s_ADDR", base := 0x300100, n1 := 8, s1 := 0x2000, n2 := 12, s2 := 0x10, wide := true, owner := .host,
    flds := fun i j => [F.pipeSlotAddr_ADDR i j] },
  { name := "PIPE_p_SLOT_s_ADDR2", base := 0x300108, n1 := 8, s1 := 0x2000, n2 := 12, s2 := 0x10, wide := true, owner := .host,
    flds := fun i j => [F.pipeSlotAddr2_ADDR i j] },
  { name := "PIPE_p_SLOT_s_REL", base := 0x300200, n1 := 8, s1 := 0x2000, n2 := 12, s2 := 0x10, wide := true, owner := .firmware,
    flds := fun i j => [F.pipeSlotRel_ADDR i j, F.pipeSlotRel_SKIPPED i j, F.pipeSlotRel_COUNT i j] },
  { name := "PIPE_p_SLOT_s_RELFRM", base := 0x300208, n1 := 8, s1 := 0x2000, n2 := 12, s2 := 0x10, wide := false, owner := .firmware,
    flds := fun i j => [F.pipeSlotRelfrm_RETIRED i j] },
  { name := "PIPE_p_CTL", base := 0x300400, n1 := 8, s1 := 0x2000, n2 := 1, s2 := 0x0, wide := false, owner := .firmware,
    flds := fun i _ => [F.pipeCtl_EN i, F.pipeCtl_READY_GATE i, F.pipeCtl_OUT_LUT_EN i, F.pipeCtl_DEPTH i, F.pipeCtl_DITHER i, F.pipeCtl_OBJ_ABOVE i, F.pipeCtl_CLASS0 i] },
  { name := "PIPE_p_DOMAIN", base := 0x300404, n1 := 8, s1 := 0x2000, n2 := 1, s2 := 0x0, wide := false, owner := .firmware,
    flds := fun i _ => [F.pipeDomain_SLOT i, F.pipeDomain_OBJ i, F.pipeDomain_SAFE i, F.pipeDomain_TF i] },
  { name := "PIPE_p_H", base := 0x300410, n1 := 8, s1 := 0x2000, n2 := 1, s2 := 0x0, wide := false, owner := .firmware,
    flds := fun i _ => [F.pipeH_HACTIVE i, F.pipeH_HTOTAL_M1 i] }]

/-- Register rows of spec/06_composition_scanout.md. -/
def regsPipeRows1 : List RegRow := [
  { name := "PIPE_p_HSYNC", base := 0x300414, n1 := 8, s1 := 0x2000, n2 := 1, s2 := 0x0, wide := false, owner := .firmware,
    flds := fun i _ => [F.pipeHsync_START i, F.pipeHsync_WIDTH i, F.pipeHsync_POL i] },
  { name := "PIPE_p_V", base := 0x300418, n1 := 8, s1 := 0x2000, n2 := 1, s2 := 0x0, wide := false, owner := .firmware,
    flds := fun i _ => [F.pipeV_VACTIVE i, F.pipeV_VBLANK_MIN i] },
  { name := "PIPE_p_VMAX", base := 0x30041C, n1 := 8, s1 := 0x2000, n2 := 1, s2 := 0x0, wide := false, owner := .firmware,
    flds := fun i _ => [F.pipeVmax_VBLANK_MAX i, F.pipeVmax_VSYNC_START i, F.pipeVmax_VSYNC_W i, F.pipeVmax_VPOL i] },
  { name := "PIPE_p_FREQ", base := 0x300420, n1 := 8, s1 := 0x2000, n2 := 1, s2 := 0x0, wide := false, owner := .firmware,
    flds := fun i _ => [F.pipeFreq_HZ i] },
  { name := "PIPE_p_BG", base := 0x300430, n1 := 8, s1 := 0x2000, n2 := 1, s2 := 0x0, wide := true, owner := .firmware,
    flds := fun i _ => [F.pipeBg_RGB i] },
  { name := "SAFE_j_CTL", base := 0x300480, n1 := 8, s1 := 0x2000, n2 := 2, s2 := 0x20, wide := false, owner := .firmware,
    flds := fun i j => [F.safeCtl_EN i j, F.safeCtl_FORMAT i j, F.safeCtl_PREMUL i j] },
  { name := "SAFE_j_POS", base := 0x300484, n1 := 8, s1 := 0x2000, n2 := 2, s2 := 0x20, wide := false, owner := .firmware,
    flds := fun i j => [F.safePos_X i j, F.safePos_Y i j] },
  { name := "SAFE_j_SIZE", base := 0x300488, n1 := 8, s1 := 0x2000, n2 := 2, s2 := 0x20, wide := false, owner := .firmware,
    flds := fun i j => [F.safeSize_W i j, F.safeSize_H i j] },
  { name := "SAFE_j_STRIDE", base := 0x30048C, n1 := 8, s1 := 0x2000, n2 := 2, s2 := 0x20, wide := false, owner := .firmware,
    flds := fun i j => [F.safeStride_BYTES i j] },
  { name := "SAFE_j_BASE", base := 0x300490, n1 := 8, s1 := 0x2000, n2 := 2, s2 := 0x20, wide := true, owner := .firmware,
    flds := fun i j => [F.safeBase_ADDR i j] },
  { name := "SAFE_j_CONST", base := 0x300498, n1 := 8, s1 := 0x2000, n2 := 2, s2 := 0x20, wide := true, owner := .firmware,
    flds := fun i j => [F.safeConst_RGB i j] },
  { name := "PIPE_p_WB_CTL", base := 0x300500, n1 := 8, s1 := 0x2000, n2 := 1, s2 := 0x0, wide := false, owner := .firmware,
    flds := fun i _ => [F.pipeWbCtl_EN i, F.pipeWbCtl_TAP i, F.pipeWbCtl_FORMAT i, F.pipeWbCtl_DEST i, F.pipeWbCtl_LINK i, F.pipeWbCtl_COUNT_M1 i, F.pipeWbCtl_EVERY_M1 i] }]

/-- Register rows of spec/06_composition_scanout.md. -/
def regsPipeRows2 : List RegRow := [
  { name := "PIPE_p_WB_BASE", base := 0x300508, n1 := 8, s1 := 0x2000, n2 := 1, s2 := 0x0, wide := true, owner := .firmware,
    flds := fun i _ => [F.pipeWbBase_ADDR i] },
  { name := "PIPE_p_WB_STRIDE", base := 0x300510, n1 := 8, s1 := 0x2000, n2 := 1, s2 := 0x0, wide := false, owner := .firmware,
    flds := fun i _ => [F.pipeWbStride_BYTES i] },
  { name := "PIPE_p_WB_SPACING", base := 0x300514, n1 := 8, s1 := 0x2000, n2 := 1, s2 := 0x0, wide := false, owner := .firmware,
    flds := fun i _ => [F.pipeWbSpacing_BYTES i] },
  { name := "PIPE_p_WB_STATUS", base := 0x300518, n1 := 8, s1 := 0x2000, n2 := 1, s2 := 0x0, wide := false, owner := .firmware,
    flds := fun i _ => [F.pipeWbStatus_INDEX i, F.pipeWbStatus_INCOMPLETE i, F.pipeWbStatus_BUSY i, F.pipeWbStatus_OVERFLOWS i] },
  { name := "PIPE_p_WB_STAMP", base := 0x300520, n1 := 8, s1 := 0x2000, n2 := 1, s2 := 0x0, wide := true, owner := .firmware,
    flds := fun i _ => [F.pipeWbStamp_STAMP i] },
  { name := "PIPE_p_STATUS", base := 0x300600, n1 := 8, s1 := 0x2000, n2 := 1, s2 := 0x0, wide := false, owner := .firmware,
    flds := fun i _ => [F.pipeStatus_STATE i, F.pipeStatus_WAITING i, F.pipeStatus_LP5X_REASON i, F.pipeStatus_LINE i] },
  { name := "PIPE_p_UNDERRUN", base := 0x300604, n1 := 8, s1 := 0x2000, n2 := 1, s2 := 0x0, wide := false, owner := .firmware,
    flds := fun i _ => [F.pipeUnderrun_SLOT i, F.pipeUnderrun_OBJ i, F.pipeUnderrun_SAFE i, F.pipeUnderrun_LAST i] },
  { name := "PIPE_p_BADADDR", base := 0x300608, n1 := 8, s1 := 0x2000, n2 := 1, s2 := 0x0, wide := false, owner := .firmware,
    flds := fun i _ => [F.pipeBadaddr_SLOT i, F.pipeBadaddr_SAFE i] },
  { name := "PIPE_p_FIRST_UR", base := 0x30060C, n1 := 8, s1 := 0x2000, n2 := 1, s2 := 0x0, wide := false, owner := .firmware,
    flds := fun i _ => [F.pipeFirstUr_LINE i, F.pipeFirstUr_LAYER i] },
  { name := "PIPE_p_FRAMES", base := 0x300610, n1 := 8, s1 := 0x2000, n2 := 1, s2 := 0x0, wide := false, owner := .firmware,
    flds := fun i _ => [F.pipeFrames_COUNT i] },
  { name := "PIPE_p_REPEATS", base := 0x300614, n1 := 8, s1 := 0x2000, n2 := 1, s2 := 0x0, wide := false, owner := .firmware,
    flds := fun i _ => [F.pipeRepeats_COUNT i] },
  { name := "PIPE_p_UR_FRAMES", base := 0x300618, n1 := 8, s1 := 0x2000, n2 := 1, s2 := 0x0, wide := false, owner := .firmware,
    flds := fun i _ => [F.pipeUrFrames_COUNT i] }]

/-- Register rows of spec/06_composition_scanout.md. -/
def regsPipeRows3 : List RegRow := [
  { name := "PORT_k_CTL", base := 0x310000, n1 := 8, s1 := 0x100, n2 := 1, s2 := 0x0, wide := false, owner := .firmware,
    flds := fun i _ => [F.portCtl_EN i, F.portCtl_EDP i, F.portCtl_PIPE i, F.portCtl_LANES i, F.portCtl_RATE i, F.portCtl_ASSR i, F.portCtl_ADAPTIVE i] },
  { name := "PORT_k_LANEMAP", base := 0x310004, n1 := 8, s1 := 0x100, n2 := 1, s2 := 0x0, wide := false, owner := .firmware,
    flds := fun i _ => [F.portLanemap_LANE i, F.portLanemap_INVERT i] },
  { name := "PORT_k_STATUS", base := 0x310008, n1 := 8, s1 := 0x100, n2 := 1, s2 := 0x0, wide := false, owner := .firmware,
    flds := fun i _ => [F.portStatus_STATE i, F.portStatus_LANES_ACTIVE i, F.portStatus_RATE i, F.portStatus_HPD i, F.portStatus_ROUTE_PEND i, F.portStatus_PIPE i] }]

/-- All register rows of spec/06_composition_scanout.md. -/
def regsPipeRows : List RegRow := regsPipeRows0 ++ regsPipeRows1 ++ regsPipeRows2 ++ regsPipeRows3

/-! ### R225 (spec/07_camera_ingest.md) -/
def F.csiCtl_EN (k : Nat) : Fld := ⟨0x600000 + k * 0x100, 0, 1, 0, .warm, .rw, false⟩
def F.csiCtl_CPHY (k : Nat) : Fld := ⟨0x600000 + k * 0x100, 1, 1, 0, .warm, .rw, false⟩
def F.csiCtl_LANES (k : Nat) : Fld := ⟨0x600000 + k * 0x100, 2, 2, 2, .warm, .rw, false⟩
def F.csiCtl_RATE (k : Nat) : Fld := ⟨0x600000 + k * 0x100, 16, 13, 1500, .warm, .rw, false⟩
def F.csiLanemap_LANE (k : Nat) : Fld := ⟨0x600004 + k * 0x100, 0, 8, 228, .warm, .rw, false⟩
def F.csiLanemap_INVERT (k : Nat) : Fld := ⟨0x600004 + k * 0x100, 8, 4, 0, .warm, .rw, false⟩
def F.csiStatus_STATE (k : Nat) : Fld := ⟨0x600008 + k * 0x100, 0, 2, 0, .plain, .ro, true⟩
def F.csiStatus_HEALTH (k : Nat) : Fld := ⟨0x600008 + k * 0x100, 2, 2, 0, .sticky, .ro, false⟩
def F.csiErr0_ECC_CE (k : Nat) : Fld := ⟨0x600010 + k * 0x100, 0, 16, 0, .warm, .ro, false⟩
def F.csiErr0_ECC_UE (k : Nat) : Fld := ⟨0x600010 + k * 0x100, 16, 16, 0, .warm, .ro, false⟩
def F.csiErr1_CRC (k : Nat) : Fld := ⟨0x600014 + k * 0x100, 0, 16, 0, .warm, .ro, false⟩
def F.csiErr1_DT_UNSUPP (k : Nat) : Fld := ⟨0x600014 + k * 0x100, 16, 8, 0, .warm, .ro, false⟩
def F.csiErr1_RESYNC (k : Nat) : Fld := ⟨0x600014 + k * 0x100, 24, 8, 0, .warm, .ro, false⟩
def F.camEvtFrameErr_STREAM : Fld := ⟨0x600800, 0, 16, 0, .plain, .ro, false⟩
def F.camEvtTimeout_STREAM : Fld := ⟨0x600804, 0, 16, 0, .plain, .ro, false⟩
def F.camEvtDrop_STREAM : Fld := ⟨0x600808, 0, 16, 0, .plain, .ro, false⟩
def F.camEvtLate_STREAM : Fld := ⟨0x60080C, 0, 16, 0, .plain, .ro, false⟩
def F.camEvtOverrun_STREAM : Fld := ⟨0x600810, 0, 16, 0, .plain, .ro, false⟩
/-! ### R226 (spec/07_camera_ingest.md) -/
def F.streamCtl_EN (n : Nat) : Fld := ⟨0x601000 + n * 0x100, 0, 1, 0, .warm, .rw, false⟩
def F.streamCtl_PORT (n : Nat) : Fld := ⟨0x601000 + n * 0x100, 1, 2, 0, .warm, .rw, false⟩
def F.streamCtl_VC (n : Nat) : Fld := ⟨0x601000 + n * 0x100, 4, 4, 0, .warm, .rw, false⟩
def F.streamCtl_DT (n : Nat) : Fld := ⟨0x601000 + n * 0x100, 8, 6, 30, .warm, .rw, false⟩
def F.streamCtl_RACED (n : Nat) : Fld := ⟨0x601000 + n * 0x100, 14, 1, 0, .warm, .rw, false⟩
def F.streamCtl_ACCEPT_ERR (n : Nat) : Fld := ⟨0x601000 + n * 0x100, 15, 1, 0, .warm, .rw, false⟩
def F.streamCtl_RING_M1 (n : Nat) : Fld := ⟨0x601000 + n * 0x100, 16, 3, 2, .warm, .rw, false⟩
def F.streamSize_W (n : Nat) : Fld := ⟨0x601004 + n * 0x100, 0, 14, 0, .warm, .rw, false⟩
def F.streamSize_H (n : Nat) : Fld := ⟨0x601004 + n * 0x100, 16, 14, 0, .warm, .rw, false⟩
def F.streamRingBase_ADDR (n : Nat) : Fld := ⟨0x601008 + n * 0x100, 0, 40, 0, .warm, .rw, false⟩
def F.streamStride_BYTES (n : Nat) : Fld := ⟨0x601010 + n * 0x100, 0, 24, 0, .warm, .rw, false⟩
def F.streamSpacing_BYTES (n : Nat) : Fld := ⟨0x601014 + n * 0x100, 0, 32, 0, .warm, .rw, false⟩
def F.streamLandBase_ADDR (n : Nat) : Fld := ⟨0x601018 + n * 0x100, 0, 40, 0, .warm, .rw, false⟩
def F.streamLand_LINES (n : Nat) : Fld := ⟨0x601020 + n * 0x100, 0, 9, 16, .warm, .rw, false⟩
def F.streamTimeout_US (n : Nat) : Fld := ⟨0x601024 + n * 0x100, 0, 24, 0x186A0, .warm, .rw, false⟩
def F.streamFsync_MODE (n : Nat) : Fld := ⟨0x601028 + n * 0x100, 0, 2, 0, .warm, .rw, false⟩
def F.streamFsync_PIPE (n : Nat) : Fld := ⟨0x601028 + n * 0x100, 4, 3, 0, .warm, .rw, false⟩
def F.streamFsync_PULSE (n : Nat) : Fld := ⟨0x601028 + n * 0x100, 8, 8, 10, .warm, .rw, false⟩
def F.streamFsync_REF_PERIOD (n : Nat) : Fld := ⟨0x601028 + n * 0x100, 16, 4, 1, .warm, .rw, false⟩
def F.streamFsyncLead_DOTS (n : Nat) : Fld := ⟨0x60102C + n * 0x100, 0, 24, 0, .warm, .rw, false⟩
def F.streamFsyncPhase_LINE (n : Nat) : Fld := ⟨0x601030 + n * 0x100, 16, 16, 0, .warm, .rw, false⟩
def F.streamFsyncPhase_DOT (n : Nat) : Fld := ⟨0x601030 + n * 0x100, 0, 16, 0, .warm, .rw, false⟩
def F.streamStatus_STATE (n : Nat) : Fld := ⟨0x601040 + n * 0x100, 0, 2, 0, .plain, .ro, true⟩
def F.streamStatus_NEWEST (n : Nat) : Fld := ⟨0x601040 + n * 0x100, 4, 3, 0, .plain, .ro, true⟩
def F.streamStatus_NEWEST_VALID (n : Nat) : Fld := ⟨0x601040 + n * 0x100, 7, 1, 0, .plain, .ro, true⟩
def F.streamStatus_WRITING (n : Nat) : Fld := ⟨0x601040 + n * 0x100, 8, 3, 0, .plain, .ro, true⟩
def F.streamStatus_PACED (n : Nat) : Fld := ⟨0x601040 + n * 0x100, 11, 1, 0, .plain, .ro, false⟩
def F.streamStatus_LINE (n : Nat) : Fld := ⟨0x601040 + n * 0x100, 16, 14, 0, .plain, .ro, true⟩
def F.streamErrs_SHORT (n : Nat) : Fld := ⟨0x601044 + n * 0x100, 0, 8, 0, .warm, .ro, false⟩
def F.streamErrs_LONG (n : Nat) : Fld := ⟨0x601044 + n * 0x100, 8, 8, 0, .warm, .ro, false⟩
def F.streamErrs_CORRUPT (n : Nat) : Fld := ⟨0x601044 + n * 0x100, 16, 8, 0, .warm, .ro, false⟩
def F.streamErrs_DROPS (n : Nat) : Fld := ⟨0x601044 + n * 0x100, 24, 8, 0, .warm, .ro, false⟩
def F.streamRace_LATE (n : Nat) : Fld := ⟨0x601048 + n * 0x100, 0, 16, 0, .warm, .ro, false⟩
def F.streamRace_OVERRUN (n : Nat) : Fld := ⟨0x601048 + n * 0x100, 16, 16, 0, .warm, .ro, false⟩
def F.streamMinslack_CCLK (n : Nat) : Fld := ⟨0x60104C + n * 0x100, 0, 16, 0, .plain, .ro, false⟩
def F.streamMaxlat_NS10 (n : Nat) : Fld := ⟨0x601050 + n * 0x100, 0, 16, 0, .plain, .ro, false⟩
def F.streamOrphan_LINES (n : Nat) : Fld := ⟨0x601054 + n * 0x100, 0, 16, 0, .warm, .ro, false⟩
def F.streamOrphan_FE (n : Nat) : Fld := ⟨0x601054 + n * 0x100, 16, 16, 0, .warm, .ro, false⟩
def F.streamFeStamp_STAMP (n : Nat) : Fld := ⟨0x601058 + n * 0x100, 0, 48, 0, .plain, .ro, false⟩
def F.streamBuf_FS_STAMP (n : Nat) (b : Nat) : Fld := ⟨0x601080 + n * 0x100 + b * 0x10, 0, 48, 0, .plain, .ro, false⟩
def F.streamBuf_COMPLETE (n : Nat) (b : Nat) : Fld := ⟨0x601080 + n * 0x100 + b * 0x10, 48, 1, 0, .plain, .ro, true⟩
def F.streamBuf_ERR (n : Nat) (b : Nat) : Fld := ⟨0x601080 + n * 0x100 + b * 0x10, 49, 1, 0, .plain, .ro, true⟩
def F.streamBuf_LONG (n : Nat) (b : Nat) : Fld := ⟨0x601080 + n * 0x100 + b * 0x10, 51, 1, 0, .plain, .ro, true⟩
def F.streamBuf_WRITING (n : Nat) (b : Nat) : Fld := ⟨0x601080 + n * 0x100 + b * 0x10, 52, 1, 0, .plain, .ro, true⟩
def F.streamBuf_HOLDERS (n : Nat) (b : Nat) : Fld := ⟨0x601080 + n * 0x100 + b * 0x10, 53, 6, 0, .plain, .ro, true⟩
def F.streamBufSeq_SEQ (n : Nat) (b : Nat) : Fld := ⟨0x601088 + n * 0x100 + b * 0x10, 0, 32, 0, .plain, .ro, false⟩
def F.streamBufSeq_FRAME_NUM (n : Nat) (b : Nat) : Fld := ⟨0x601088 + n * 0x100 + b * 0x10, 32, 16, 0, .plain, .ro, false⟩

/-- Register rows of spec/07_camera_ingest.md. -/
def regsCameraRows0 : List RegRow := [
  { name := "CSI_k_CTL", base := 0x600000, n1 := 4, s1 := 0x100, n2 := 1, s2 := 0x0, wide := false, owner := .firmware,
    flds := fun i _ => [F.csiCtl_EN i, F.csiCtl_CPHY i, F.csiCtl_LANES i, F.csiCtl_RATE i] },
  { name := "CSI_k_LANEMAP", base := 0x600004, n1 := 4, s1 := 0x100, n2 := 1, s2 := 0x0, wide := false, owner := .firmware,
    flds := fun i _ => [F.csiLanemap_LANE i, F.csiLanemap_INVERT i] },
  { name := "CSI_k_STATUS", base := 0x600008, n1 := 4, s1 := 0x100, n2 := 1, s2 := 0x0, wide := false, owner := .firmware,
    flds := fun i _ => [F.csiStatus_STATE i, F.csiStatus_HEALTH i] },
  { name := "CSI_k_ERR0", base := 0x600010, n1 := 4, s1 := 0x100, n2 := 1, s2 := 0x0, wide := false, owner := .firmware,
    flds := fun i _ => [F.csiErr0_ECC_CE i, F.csiErr0_ECC_UE i] },
  { name := "CSI_k_ERR1", base := 0x600014, n1 := 4, s1 := 0x100, n2 := 1, s2 := 0x0, wide := false, owner := .firmware,
    flds := fun i _ => [F.csiErr1_CRC i, F.csiErr1_DT_UNSUPP i, F.csiErr1_RESYNC i] },
  { name := "CAM_EVT_FRAME_ERR", base := 0x600800, n1 := 1, s1 := 0x0, n2 := 1, s2 := 0x0, wide := false, owner := .firmware,
    flds := fun _ _ => [F.camEvtFrameErr_STREAM] },
  { name := "CAM_EVT_TIMEOUT", base := 0x600804, n1 := 1, s1 := 0x0, n2 := 1, s2 := 0x0, wide := false, owner := .firmware,
    flds := fun _ _ => [F.camEvtTimeout_STREAM] },
  { name := "CAM_EVT_DROP", base := 0x600808, n1 := 1, s1 := 0x0, n2 := 1, s2 := 0x0, wide := false, owner := .firmware,
    flds := fun _ _ => [F.camEvtDrop_STREAM] },
  { name := "CAM_EVT_LATE", base := 0x60080C, n1 := 1, s1 := 0x0, n2 := 1, s2 := 0x0, wide := false, owner := .firmware,
    flds := fun _ _ => [F.camEvtLate_STREAM] },
  { name := "CAM_EVT_OVERRUN", base := 0x600810, n1 := 1, s1 := 0x0, n2 := 1, s2 := 0x0, wide := false, owner := .firmware,
    flds := fun _ _ => [F.camEvtOverrun_STREAM] },
  { name := "STREAM_n_CTL", base := 0x601000, n1 := 16, s1 := 0x100, n2 := 1, s2 := 0x0, wide := false, owner := .firmware,
    flds := fun i _ => [F.streamCtl_EN i, F.streamCtl_PORT i, F.streamCtl_VC i, F.streamCtl_DT i, F.streamCtl_RACED i, F.streamCtl_ACCEPT_ERR i, F.streamCtl_RING_M1 i] },
  { name := "STREAM_n_SIZE", base := 0x601004, n1 := 16, s1 := 0x100, n2 := 1, s2 := 0x0, wide := false, owner := .firmware,
    flds := fun i _ => [F.streamSize_W i, F.streamSize_H i] }]

/-- Register rows of spec/07_camera_ingest.md. -/
def regsCameraRows1 : List RegRow := [
  { name := "STREAM_n_RING_BASE", base := 0x601008, n1 := 16, s1 := 0x100, n2 := 1, s2 := 0x0, wide := true, owner := .firmware,
    flds := fun i _ => [F.streamRingBase_ADDR i] },
  { name := "STREAM_n_STRIDE", base := 0x601010, n1 := 16, s1 := 0x100, n2 := 1, s2 := 0x0, wide := false, owner := .firmware,
    flds := fun i _ => [F.streamStride_BYTES i] },
  { name := "STREAM_n_SPACING", base := 0x601014, n1 := 16, s1 := 0x100, n2 := 1, s2 := 0x0, wide := false, owner := .firmware,
    flds := fun i _ => [F.streamSpacing_BYTES i] },
  { name := "STREAM_n_LAND_BASE", base := 0x601018, n1 := 16, s1 := 0x100, n2 := 1, s2 := 0x0, wide := true, owner := .firmware,
    flds := fun i _ => [F.streamLandBase_ADDR i] },
  { name := "STREAM_n_LAND", base := 0x601020, n1 := 16, s1 := 0x100, n2 := 1, s2 := 0x0, wide := false, owner := .firmware,
    flds := fun i _ => [F.streamLand_LINES i] },
  { name := "STREAM_n_TIMEOUT", base := 0x601024, n1 := 16, s1 := 0x100, n2 := 1, s2 := 0x0, wide := false, owner := .firmware,
    flds := fun i _ => [F.streamTimeout_US i] },
  { name := "STREAM_n_FSYNC", base := 0x601028, n1 := 16, s1 := 0x100, n2 := 1, s2 := 0x0, wide := false, owner := .firmware,
    flds := fun i _ => [F.streamFsync_MODE i, F.streamFsync_PIPE i, F.streamFsync_PULSE i, F.streamFsync_REF_PERIOD i] },
  { name := "STREAM_n_FSYNC_LEAD", base := 0x60102C, n1 := 16, s1 := 0x100, n2 := 1, s2 := 0x0, wide := false, owner := .firmware,
    flds := fun i _ => [F.streamFsyncLead_DOTS i] },
  { name := "STREAM_n_FSYNC_PHASE", base := 0x601030, n1 := 16, s1 := 0x100, n2 := 1, s2 := 0x0, wide := false, owner := .firmware,
    flds := fun i _ => [F.streamFsyncPhase_LINE i, F.streamFsyncPhase_DOT i] },
  { name := "STREAM_n_STATUS", base := 0x601040, n1 := 16, s1 := 0x100, n2 := 1, s2 := 0x0, wide := false, owner := .firmware,
    flds := fun i _ => [F.streamStatus_STATE i, F.streamStatus_NEWEST i, F.streamStatus_NEWEST_VALID i, F.streamStatus_WRITING i, F.streamStatus_PACED i, F.streamStatus_LINE i] },
  { name := "STREAM_n_ERRS", base := 0x601044, n1 := 16, s1 := 0x100, n2 := 1, s2 := 0x0, wide := false, owner := .firmware,
    flds := fun i _ => [F.streamErrs_SHORT i, F.streamErrs_LONG i, F.streamErrs_CORRUPT i, F.streamErrs_DROPS i] },
  { name := "STREAM_n_RACE", base := 0x601048, n1 := 16, s1 := 0x100, n2 := 1, s2 := 0x0, wide := false, owner := .firmware,
    flds := fun i _ => [F.streamRace_LATE i, F.streamRace_OVERRUN i] }]

/-- Register rows of spec/07_camera_ingest.md. -/
def regsCameraRows2 : List RegRow := [
  { name := "STREAM_n_MINSLACK", base := 0x60104C, n1 := 16, s1 := 0x100, n2 := 1, s2 := 0x0, wide := false, owner := .firmware,
    flds := fun i _ => [F.streamMinslack_CCLK i] },
  { name := "STREAM_n_MAXLAT", base := 0x601050, n1 := 16, s1 := 0x100, n2 := 1, s2 := 0x0, wide := false, owner := .firmware,
    flds := fun i _ => [F.streamMaxlat_NS10 i] },
  { name := "STREAM_n_ORPHAN", base := 0x601054, n1 := 16, s1 := 0x100, n2 := 1, s2 := 0x0, wide := false, owner := .firmware,
    flds := fun i _ => [F.streamOrphan_LINES i, F.streamOrphan_FE i] },
  { name := "STREAM_n_FE_STAMP", base := 0x601058, n1 := 16, s1 := 0x100, n2 := 1, s2 := 0x0, wide := true, owner := .firmware,
    flds := fun i _ => [F.streamFeStamp_STAMP i] },
  { name := "STREAM_n_BUF_b", base := 0x601080, n1 := 16, s1 := 0x100, n2 := 8, s2 := 0x10, wide := true, owner := .firmware,
    flds := fun i j => [F.streamBuf_FS_STAMP i j, F.streamBuf_COMPLETE i j, F.streamBuf_ERR i j, F.streamBuf_LONG i j, F.streamBuf_WRITING i j, F.streamBuf_HOLDERS i j] },
  { name := "STREAM_n_BUF_b_SEQ", base := 0x601088, n1 := 16, s1 := 0x100, n2 := 8, s2 := 0x10, wide := true, owner := .firmware,
    flds := fun i j => [F.streamBufSeq_SEQ i j, F.streamBufSeq_FRAME_NUM i j] }]

/-- All register rows of spec/07_camera_ingest.md. -/
def regsCameraRows : List RegRow := regsCameraRows0 ++ regsCameraRows1 ++ regsCameraRows2

/-! ### R250 (spec/08_rind_safety.md) -/
def F.rindCtl_EN (p : Nat) : Fld := ⟨0x700000 + p * 0x1000, 0, 1, 0, .warm, .rw, false⟩
def F.rindCtl_EXP_HALF (p : Nat) : Fld := ⟨0x700000 + p * 0x1000, 1, 1, 0, .warm, .rw, false⟩
def F.rindExpBase_ADDR (p : Nat) : Fld := ⟨0x700008 + p * 0x1000, 0, 40, 0, .warm, .rw, false⟩
def F.rindFailCur_RECT (p : Nat) : Fld := ⟨0x700010 + p * 0x1000, 0, 64, 0, .plain, .ro, false⟩
def F.rindFailLast_RECT (p : Nat) : Fld := ⟨0x700018 + p * 0x1000, 0, 64, 0, .plain, .ro, false⟩
def F.rindC0_C0_OK (p : Nat) : Fld := ⟨0x700020 + p * 0x1000, 0, 1, 0, .plain, .ro, false⟩
def F.rindC0_UR (p : Nat) : Fld := ⟨0x700020 + p * 0x1000, 1, 1, 0, .plain, .ro, false⟩
def F.rindC0_SLACK (p : Nat) : Fld := ⟨0x700020 + p * 0x1000, 2, 1, 0, .plain, .ro, false⟩
def F.rindC0_COND (p : Nat) : Fld := ⟨0x700020 + p * 0x1000, 3, 1, 0, .plain, .ro, false⟩
def F.rindC0_REPLACED (p : Nat) : Fld := ⟨0x700020 + p * 0x1000, 16, 16, 0, .plain, .ro, false⟩
def F.rindC0Bad_COUNT (p : Nat) : Fld := ⟨0x700024 + p * 0x1000, 0, 32, 0, .warm, .ro, false⟩
def F.rindSafe_UNLOCKED (p : Nat) : Fld := ⟨0x700028 + p * 0x1000, 0, 2, 0, .plain, .ro, true⟩
def F.rindC0Cond_RESIDENCY : Fld := ⟨0x708000, 0, 1, 0, .plain, .ro, true⟩
def F.rindC0Cond_BANK : Fld := ⟨0x708000, 1, 1, 0, .plain, .ro, true⟩
def F.rindC0Cond_TJ : Fld := ⟨0x708000, 2, 1, 0, .plain, .ro, true⟩
def F.rindC0Maxlat_CCLK : Fld := ⟨0x708004, 0, 16, 0, .plain, .ro, false⟩
def F.rindC0Worst_CCLK : Fld := ⟨0x708008, 0, 16, 0, .sticky, .ro, false⟩
def F.rindC0Breaches_COUNT : Fld := ⟨0x70800C, 0, 16, 0, .sticky, .ro, false⟩
def F.rindAlertState_PIPE : Fld := ⟨0x708010, 0, 8, 0, .plain, .ro, true⟩
/-! ### R251 (spec/08_rind_safety.md) -/
def F.rectPos_X (p : Nat) (r : Nat) : Fld := ⟨0x700400 + p * 0x1000 + r * 0x20, 0, 14, 0, .warm, .rw, false⟩
def F.rectPos_Y (p : Nat) (r : Nat) : Fld := ⟨0x700400 + p * 0x1000 + r * 0x20, 16, 14, 0, .warm, .rw, false⟩
def F.rectSize_W (p : Nat) (r : Nat) : Fld := ⟨0x700404 + p * 0x1000 + r * 0x20, 0, 14, 0, .warm, .rw, false⟩
def F.rectSize_H (p : Nat) (r : Nat) : Fld := ⟨0x700404 + p * 0x1000 + r * 0x20, 16, 14, 0, .warm, .rw, false⟩
def F.rectCtl_EN (p : Nat) (r : Nat) : Fld := ⟨0x700408 + p * 0x1000 + r * 0x20, 0, 1, 0, .warm, .rw, false⟩
def F.rectCtl_TAP (p : Nat) (r : Nat) : Fld := ⟨0x700408 + p * 0x1000 + r * 0x20, 1, 1, 0, .warm, .rw, false⟩
def F.rectCtl_MATCH_EN (p : Nat) (r : Nat) : Fld := ⟨0x700408 + p * 0x1000 + r * 0x20, 2, 1, 0, .warm, .rw, false⟩
def F.rectCtl_FREEZE_EN (p : Nat) (r : Nat) : Fld := ⟨0x700408 + p * 0x1000 + r * 0x20, 3, 1, 0, .warm, .rw, false⟩
def F.rectCtl_REPORT (p : Nat) (r : Nat) : Fld := ⟨0x700408 + p * 0x1000 + r * 0x20, 4, 1, 1, .warm, .rw, false⟩
def F.rectCtl_ALERT (p : Nat) (r : Nat) : Fld := ⟨0x700408 + p * 0x1000 + r * 0x20, 5, 1, 0, .warm, .rw, false⟩
def F.rectCtl_EXP_COUNT (p : Nat) (r : Nat) : Fld := ⟨0x700408 + p * 0x1000 + r * 0x20, 8, 5, 0, .warm, .rw, false⟩
def F.rectCtl_FREEZE_LIMIT (p : Nat) (r : Nat) : Fld := ⟨0x700408 + p * 0x1000 + r * 0x20, 16, 8, 3, .warm, .rw, false⟩
def F.rectLayers_MASK (p : Nat) (r : Nat) : Fld := ⟨0x70040C + p * 0x1000 + r * 0x20, 0, 15, 0, .warm, .rw, false⟩
def F.rectCrc_CRC (p : Nat) (r : Nat) : Fld := ⟨0x700410 + p * 0x1000 + r * 0x20, 0, 32, 0, .plain, .ro, false⟩
def F.rectVerdict_VERDICT (p : Nat) (r : Nat) : Fld := ⟨0x700414 + p * 0x1000 + r * 0x20, 0, 3, 0, .plain, .ro, false⟩
def F.rectVerdict_MATCH_IDX (p : Nat) (r : Nat) : Fld := ⟨0x700414 + p * 0x1000 + r * 0x20, 4, 4, 0, .plain, .ro, false⟩
def F.rectVerdict_RUN (p : Nat) (r : Nat) : Fld := ⟨0x700414 + p * 0x1000 + r * 0x20, 8, 8, 0, .plain, .ro, true⟩
def F.rectVerdict_FRAME (p : Nat) (r : Nat) : Fld := ⟨0x700414 + p * 0x1000 + r * 0x20, 16, 16, 0, .plain, .ro, false⟩
def F.rectFails_COUNT (p : Nat) (r : Nat) : Fld := ⟨0x700418 + p * 0x1000 + r * 0x20, 0, 32, 0, .warm, .ro, false⟩

/-- Register rows of spec/08_rind_safety.md. -/
def regsRindRows0 : List RegRow := [
  { name := "RIND_p_CTL", base := 0x700000, n1 := 8, s1 := 0x1000, n2 := 1, s2 := 0x0, wide := false, owner := .firmware,
    flds := fun i _ => [F.rindCtl_EN i, F.rindCtl_EXP_HALF i] },
  { name := "RIND_p_EXP_BASE", base := 0x700008, n1 := 8, s1 := 0x1000, n2 := 1, s2 := 0x0, wide := true, owner := .firmware,
    flds := fun i _ => [F.rindExpBase_ADDR i] },
  { name := "RIND_p_FAIL_CUR", base := 0x700010, n1 := 8, s1 := 0x1000, n2 := 1, s2 := 0x0, wide := true, owner := .firmware,
    flds := fun i _ => [F.rindFailCur_RECT i] },
  { name := "RIND_p_FAIL_LAST", base := 0x700018, n1 := 8, s1 := 0x1000, n2 := 1, s2 := 0x0, wide := true, owner := .firmware,
    flds := fun i _ => [F.rindFailLast_RECT i] },
  { name := "RIND_p_C0", base := 0x700020, n1 := 8, s1 := 0x1000, n2 := 1, s2 := 0x0, wide := false, owner := .firmware,
    flds := fun i _ => [F.rindC0_C0_OK i, F.rindC0_UR i, F.rindC0_SLACK i, F.rindC0_COND i, F.rindC0_REPLACED i] },
  { name := "RIND_p_C0_BAD", base := 0x700024, n1 := 8, s1 := 0x1000, n2 := 1, s2 := 0x0, wide := false, owner := .firmware,
    flds := fun i _ => [F.rindC0Bad_COUNT i] },
  { name := "RIND_p_SAFE", base := 0x700028, n1 := 8, s1 := 0x1000, n2 := 1, s2 := 0x0, wide := false, owner := .firmware,
    flds := fun i _ => [F.rindSafe_UNLOCKED i] },
  { name := "RIND_C0_COND", base := 0x708000, n1 := 1, s1 := 0x0, n2 := 1, s2 := 0x0, wide := false, owner := .firmware,
    flds := fun _ _ => [F.rindC0Cond_RESIDENCY, F.rindC0Cond_BANK, F.rindC0Cond_TJ] },
  { name := "RIND_C0_MAXLAT", base := 0x708004, n1 := 1, s1 := 0x0, n2 := 1, s2 := 0x0, wide := false, owner := .firmware,
    flds := fun _ _ => [F.rindC0Maxlat_CCLK] },
  { name := "RIND_C0_WORST", base := 0x708008, n1 := 1, s1 := 0x0, n2 := 1, s2 := 0x0, wide := false, owner := .firmware,
    flds := fun _ _ => [F.rindC0Worst_CCLK] },
  { name := "RIND_C0_BREACHES", base := 0x70800C, n1 := 1, s1 := 0x0, n2 := 1, s2 := 0x0, wide := false, owner := .firmware,
    flds := fun _ _ => [F.rindC0Breaches_COUNT] },
  { name := "RIND_ALERT_STATE", base := 0x708010, n1 := 1, s1 := 0x0, n2 := 1, s2 := 0x0, wide := false, owner := .firmware,
    flds := fun _ _ => [F.rindAlertState_PIPE] }]

/-- Register rows of spec/08_rind_safety.md. -/
def regsRindRows1 : List RegRow := [
  { name := "RECT_r_POS", base := 0x700400, n1 := 8, s1 := 0x1000, n2 := 64, s2 := 0x20, wide := false, owner := .firmware,
    flds := fun i j => [F.rectPos_X i j, F.rectPos_Y i j] },
  { name := "RECT_r_SIZE", base := 0x700404, n1 := 8, s1 := 0x1000, n2 := 64, s2 := 0x20, wide := false, owner := .firmware,
    flds := fun i j => [F.rectSize_W i j, F.rectSize_H i j] },
  { name := "RECT_r_CTL", base := 0x700408, n1 := 8, s1 := 0x1000, n2 := 64, s2 := 0x20, wide := false, owner := .firmware,
    flds := fun i j => [F.rectCtl_EN i j, F.rectCtl_TAP i j, F.rectCtl_MATCH_EN i j, F.rectCtl_FREEZE_EN i j, F.rectCtl_REPORT i j, F.rectCtl_ALERT i j, F.rectCtl_EXP_COUNT i j, F.rectCtl_FREEZE_LIMIT i j] },
  { name := "RECT_r_LAYERS", base := 0x70040C, n1 := 8, s1 := 0x1000, n2 := 64, s2 := 0x20, wide := false, owner := .firmware,
    flds := fun i j => [F.rectLayers_MASK i j] },
  { name := "RECT_r_CRC", base := 0x700410, n1 := 8, s1 := 0x1000, n2 := 64, s2 := 0x20, wide := false, owner := .firmware,
    flds := fun i j => [F.rectCrc_CRC i j] },
  { name := "RECT_r_VERDICT", base := 0x700414, n1 := 8, s1 := 0x1000, n2 := 64, s2 := 0x20, wide := false, owner := .firmware,
    flds := fun i j => [F.rectVerdict_VERDICT i j, F.rectVerdict_MATCH_IDX i j, F.rectVerdict_RUN i j, F.rectVerdict_FRAME i j] },
  { name := "RECT_r_FAILS", base := 0x700418, n1 := 8, s1 := 0x1000, n2 := 64, s2 := 0x20, wide := false, owner := .firmware,
    flds := fun i j => [F.rectFails_COUNT i j] }]

/-- All register rows of spec/08_rind_safety.md. -/
def regsRindRows : List RegRow := regsRindRows0 ++ regsRindRows1

end Sys2Proof.Machine
end

