-- ==== Sys2Proof/Machine/Ops.lean ====
section
/-! DEFINITION. The named operations every command uses: bit fields and byte order, sparse stores, register fields and
parameters, memory bytes, beam stamps, and the small helpers for folding a change over indices. -/

namespace Sys2Proof.Machine

/-! ### Bits and bytes (R2, R3) -/

/-- Bits `[lo + w - 1 : lo]` of a number (R3). -/
def bitsAt (v lo w : Nat) : Nat := v / 2 ^ lo % 2 ^ w

/-- Bit `i` of a number (R3). -/
def bitAt (v i : Nat) : Bool := v / 2 ^ i % 2 == 1

/-- `v` with its bits `[lo + w - 1 : lo]` replaced by `x`. -/
def setBitsAt (v lo w x : Nat) : Nat := v - bitsAt v lo w * 2 ^ lo + x % 2 ^ w * 2 ^ lo

/-- The two's complement value of the low `w` bits of `v`. -/
def signedAt (w v : Nat) : Int :=
  if v % 2 ^ w < 2 ^ (w - 1) then (v % 2 ^ w : Nat) else (v % 2 ^ w : Nat) - (2 ^ w : Nat)

/-- The low `w` bits of an integer, as an unsigned number. -/
def unsignedAt (w : Nat) (x : Int) : Nat := (x % (2 ^ w : Nat)).toNat

/-- 1 for true, 0 for false. -/
def bit (b : Bool) : Nat := if b then 1 else 0

/-- The number a little-endian list of bytes spells (R2). -/
def leNat : List Byte → Nat
  | [] => 0
  | b :: t => b.toNat + 256 * leNat t

/-- The `n` little-endian bytes of a number (R2). -/
def natLE (n v : Nat) : List Byte :=
  match n with
  | 0 => []
  | k + 1 => BitVec.ofNat 8 v :: natLE k (v / 256)

/-- `n` bytes of all ones: what a failed read returns (R26, R90). -/
def onesBytes (n : Nat) : List Byte := List.replicate n 0xFF#8

/-- Division rounded half up, for the roundings the spec states. -/
def divRound (a b : Nat) : Nat := (2 * a + b) / (2 * b)

/-- `v` limited to the range `lo` to `hi`. -/
def clampInt (lo hi v : Int) : Int := if v < lo then lo else if hi < v then hi else v

/-! ### Sparse stores in canonical form -/

/-- The value a sparse store holds at `k`, or `d` where it lists none. -/
def Sparse.get {β : Type} (k : Nat) (d : β) : List (Nat × β) → β
  | [] => d
  | (k', v) :: t => if k = k' then v else if k < k' then d else Sparse.get k d t

/-- A sparse store with `k` set to `v`; the entry is dropped when `v` is the unlisted value `d`. -/
def Sparse.put {β : Type} [DecidableEq β] (k : Nat) (v d : β) : List (Nat × β) → List (Nat × β)
  | [] => if v = d then [] else [(k, v)]
  | (k', v') :: t =>
    if k < k' then (if v = d then (k', v') :: t else (k, v) :: (k', v') :: t)
    else if k = k' then (if v = d then t else (k, v) :: t)
    else (k', v') :: Sparse.put k v d t

/-- The keys of a sparse store rise strictly. -/
abbrev Sparse.Rising {β : Type} (l : List (Nat × β)) : Prop := l.Pairwise fun a b => a.1 < b.1

/-- The canonical form of memory: addresses strictly rising, and no entry equal to what an unlisted address reads as. -/
abbrev Memory.wf (d : Byte) (l : List Host.Cell) : Prop := Sparse.Rising l ∧ ∀ c ∈ l, c.2 ≠ d

/-! ### Register fields -/

/-- The retention group of a field: its class, with the fields of R618 apart. -/
def Fld.group (f : Fld) : Nat :=
  if f.live then 3 else match f.cls with | .sticky => 0 | .warm => 1 | .plain => 2

/-- The key of a field in the register store. -/
def Fld.key (f : Fld) : Nat := f.group * 2 ^ 30 + f.off * 64 + f.lsb

/-- The present value of a register field, of the field's width. -/
def State.rd (s : State) (f : Fld) : Nat := Sparse.get f.key f.reset s.cells % 2 ^ f.width

/-- A register field set to a value, cut to the field's width. -/
def State.wr (s : State) (f : Fld) (v : Nat) : State :=
  { s with cells := Sparse.put f.key (v % 2 ^ f.width) f.reset s.cells }

/-- A one-bit field as a truth value. -/
def State.flag (s : State) (f : Fld) : Bool := s.rd f != 0

/-- A field set to 1. -/
def State.set1 (s : State) (f : Fld) : State := s.wr f 1

/-- A field set to 0. -/
def State.clr (s : State) (f : Fld) : State := s.wr f 0

/-- A saturating counter field raised by `n`. -/
def State.incBy (s : State) (f : Fld) (n : Nat) : State := s.wr f (min (s.rd f + n) (2 ^ f.width - 1))

/-- A saturating counter field raised by one. -/
def State.inc (s : State) (f : Fld) : State := s.incBy f 1

/-- A counter field that wraps, raised by one. -/
def State.incWrap (s : State) (f : Fld) : State := s.wr f (s.rd f + 1)

/-- A field raised to `v` when `v` is larger (a recorded maximum, saturating). -/
def State.maxTo (s : State) (f : Fld) (v : Nat) : State := s.wr f (max (s.rd f) (min v (2 ^ f.width - 1)))

/-- Bit `i` of a bit-per-instance field. -/
def State.bitOf (s : State) (f : Fld) (i : Nat) : Bool := bitAt (s.rd f) i

/-- Bit `i` of a bit-per-instance field set to `b`. -/
def State.setBit (s : State) (f : Fld) (i : Nat) (b : Bool) : State := s.wr f (setBitsAt (s.rd f) i 1 (bit b))

/-! ### Firmware parameters kept by their own value (R18, R19) -/

/-- A firmware parameter that no register holds: its PID, default and class. -/
structure Prm where
  pid : Nat
  default : Nat
  cls : Cls
deriving DecidableEq, Repr

/-- The key of a parameter in the parameter store. -/
def Prm.key (p : Prm) : Nat := (match p.cls with | .sticky => 0 | .warm => 1 | .plain => 2) * 2 ^ 16 + p.pid

/-- The present value of a parameter. -/
def State.prm (s : State) (p : Prm) : Nat := Sparse.get p.key p.default s.params

/-- A parameter set to a value. -/
def State.setPrm (s : State) (p : Prm) (v : Nat) : State :=
  { s with params := Sparse.put p.key v p.default s.params }

/-! ### Memory bytes -/

/-- The byte of the device memories outside the Vat at a device address; an unlisted byte reads 0. -/
def State.byteAt (s : State) (a : Nat) : Byte := Sparse.get a 0#8 s.mem

/-- One byte of the device memories outside the Vat written. -/
def State.setByte (s : State) (a : Nat) (b : Byte) : State := { s with mem := Sparse.put a b 0#8 s.mem }

/-- `n` bytes read from `a` upward. -/
def State.bytesAt (s : State) (a n : Nat) : List Byte := (List.range n).map fun i => s.byteAt (a + i)

/-- Bytes written from `a` upward, in ascending order. -/
def State.setBytes (s : State) (a : Nat) : List Byte → State
  | [] => s
  | b :: t => (s.setByte a b).setBytes (a + 1) t

/-- Bytes of a list-held store (flash, local memories) read from `a` upward. -/
def cellsAt (d : Byte) (l : List Host.Cell) (a n : Nat) : List Byte := (List.range n).map fun i => Sparse.get (a + i) d l

/-- Bytes of a list-held store written from `a` upward. -/
def putCells (d : Byte) (a : Nat) : List Byte → List Host.Cell → List Host.Cell
  | [], l => l
  | b :: t, l => putCells d (a + 1) t (Sparse.put a b d l)

/-! ### Folding a change over indices -/

/-- `f 0`, then `f 1`, up to `f (n - 1)`. -/
def State.forN (s : State) (n : Nat) (f : Nat → State → State) : State := (List.range n).foldl (fun s i => f i s) s

/-- `f` for each member of a list, in order. -/
def State.forL {α : Type} (s : State) (l : List α) (f : α → State → State) : State := l.foldl (fun s i => f i s) s

/-- `f` when the condition holds. -/
def State.iff (s : State) (c : Bool) (f : State → State) : State := if c then f s else s

/-- A fresh index for a free value: the counter is read and advanced. -/
def State.fresh (s : State) : Nat × State := (s.freeCount, { s with freeCount := s.freeCount + 1 })

/-- A standalone service holds the resource: its class is the top digits of the PIDs that name it (R476, R477). -/
def State.heldRes (s : State) (c i : Nat) : Bool := s.svc.held.any fun h => h.2.1 == c && h.2.2 == i

/-- The units are stopped: the device is in P2, P3 or P4, runs its shutdown self-test, or is held by the thermal trip
(R531, R535, R541, R568). -/
def State.stopped (s : State) : Bool := 2 ≤ s.rd F.pwrStatus_STATE || s.flag F.stStatus_STATE || s.fault.tripHold

/-- The unit of a trim bit is not trimmed off (R533). -/
def State.untrimmed (s : State) (bitNo : Nat) : Bool := !bitAt (s.rd F.pwrTrimmed_UNIT) bitNo

/-- The unit of a trim bit runs. -/
def State.runs (s : State) (bitNo : Nat) : Bool := s.untrimmed bitNo && !s.stopped

/-! ### Beam stamps (R6, R51 to R53) -/

/-- The stamp with the given fields, as one 48-bit number (R6). -/
def stampOf (frame line dot : Nat) : Nat := frame * 2 ^ 32 + line * 2 ^ 16 + dot

/-- The present beam stamp (R54). -/
def State.now (s : State) : Nat := stampOf (s.rd F.beamNow_FRAME) (s.rd F.beamNow_LINE) (s.rd F.beamNow_DOT)

/-- A target stamp is reached at a current stamp (R52). -/
def reached (target now : Nat) : Bool := (now + 2 ^ 48 - target % 2 ^ 48) % 2 ^ 48 < 2 ^ 47

/-- Advancing a stamp by a count of dots in a geometry (R51). -/
def advanceStamp (lines dots stamp n : Nat) : Nat :=
  let total := stamp % 2 ^ 16 + n
  let line := stamp / 2 ^ 16 % 2 ^ 16 + total / dots
  stampOf ((stamp / 2 ^ 32 + line / lines) % 65536) (line % lines) (total % dots)

/-- The stamp `n` dots after another in the geometry in force (R51). -/
def State.advance (s : State) (stamp n : Nat) : Nat :=
  advanceStamp (max 1 s.ref.setting.lines) (max 1 s.ref.setting.dots) stamp n

/-- The signed count of dots from stamp `a` to stamp `b`, taken in the half-range window of R52. -/
def State.dotsBetween (s : State) (a b : Nat) : Int :=
  let frames : Int := signedAt 16 ((b / 2 ^ 32 + 65536 - a / 2 ^ 32 % 65536) % 65536)
  let line (x : Nat) : Int := (x / 2 ^ 16 % 2 ^ 16 : Nat)
  let dot (x : Nat) : Int := (x % 2 ^ 16 : Nat)
  (frames * s.ref.setting.lines + (line b - line a)) * s.ref.setting.dots + (dot b - dot a)

/-- The beam moved on within its line to `dot`; the beam never moves back, and never leaves its line here. -/
def State.atDot (s : State) (dot : Nat) : State :=
  if s.rd F.beamNow_DOT ≤ dot ∧ dot < s.ref.setting.dots ∧ 2 ≤ s.rd F.refStatus_STATE then s.wr F.beamNow_DOT dot else s

/-- The reference dot frequency as a fraction: numerator and denominator in Hz (R45). -/
def RefSetting.freq (r : RefSetting) : Nat × Nat :=
  (25000000 * (r.synN * max 1 r.synDen + r.synNum), max 1 r.synDen * max 1 r.synP)

/-- Microseconds as a count of reference dots, rounded up. -/
def State.usDots (s : State) (us : Nat) : Nat :=
  let (n, d) := s.ref.setting.freq
  (us * n + (d * 1000000 - 1)) / (d * 1000000)

end Sys2Proof.Machine
end

