-- ==== Sys2Proof/Machine/Delivery.lean ====
section
/-! DEFINITION. The interrupt controller's shared operations: pending and enable bits, raising a source, the delivery
decision, and the in-service stacks of the cores (R401 to R411). -/

namespace Sys2Proof.Machine

/-- The sources that some chapter assigns; every other number is reserved (R401). -/
def srcAssigned (n : Nat) : Bool :=
  n ≤ 21 || (32 ≤ n && n ≤ 131) || (144 ≤ n && n ≤ 148) || (160 ≤ n && n ≤ 184) || (192 ≤ n && n ≤ 211)
    || (224 ≤ n && n ≤ 233) || (256 ≤ n && n ≤ 347) || (352 ≤ n && n ≤ 443) || (448 ≤ n && n ≤ 459)
    || (464 ≤ n && n ≤ 472) || (480 ≤ n && n ≤ 486) || (490 ≤ n && n ≤ 494) || (496 ≤ n && n ≤ 511)

/-- The bits of group `g` that some chapter assigns (R401). -/
def groupMask (g : Nat) : Nat := ((List.range 32).filter fun i => srcAssigned (32 * g + i)).foldl (fun m i => m + 2 ^ i) 0

/-- A level source (R402). -/
def srcLevel (n : Nat) : Bool := 416 ≤ n && n ≤ 443

/-- The core a DEST code names, if any (R404). -/
def destCore (d : Nat) : Option Nat :=
  if d = 2 then some 12 else if 8 ≤ d ∧ d ≤ 15 then some (d - 8) else if 16 ≤ d ∧ d ≤ 19 then some (d - 8) else none

/-- A DEST code that firmware accepts (R404). -/
def destValid (d : Nat) : Bool := d ≤ 3 || (8 ≤ d && d ≤ 19)

/-- The pending bit of a source (R403). -/
def State.isPending (s : State) (n : Nat) : Bool := bitAt (s.rd (F.intcPendSet_SRC (n / 32))) (n % 32)

/-- The enable bit of a source (R403). -/
def State.isEnabled (s : State) (n : Nat) : Bool := bitAt (s.rd (F.intcEnSet_SRC (n / 32))) (n % 32)

/-- The input of a level source (R402). -/
def State.isRaw (s : State) (n : Nat) : Bool := bitAt (s.rd (F.intcRaw_SRC (n / 32))) (n % 32)

/-- A pending bit set or cleared. -/
def State.setPending (s : State) (n : Nat) (b : Bool) : State := s.setBit (F.intcPendSet_SRC (n / 32)) (n % 32) b

/-- A source stands in some core's in-service stack (R406). -/
def State.inService (s : State) (n : Nat) : Bool := s.intc.service.any fun st => st.contains (some n)

/-- The bit positions set in a 32-bit word. -/
def wordBits (w : Nat) : List Nat := if w = 0 then [] else (List.range 32).filter fun i => bitAt w i

/-- The sources that are pending and enabled, in ascending order. -/
def State.activeSources (s : State) : List Nat :=
  (List.range 16).flatMap fun g =>
    (wordBits (s.rd (F.intcPendSet_SRC g) &&& s.rd (F.intcEnSet_SRC g))).map fun i => 32 * g + i

/-- The host vectors asserted by a list of active sources (R408). -/
def State.vectorsOf (s : State) (act : List Nat) : Nat :=
  act.foldl (fun m n => if s.rd (F.intcTgt_DEST n) = 1 then m ||| 2 ^ s.rd (F.intcTgt_HVEC n) else m) 0

/-- One MSI-X message requested for vector `v`: kept in the Pending Bit Array while masked, or sent, with the request kept before it
merged into it (R408). -/
def msixRequest (v : Nat) (s : State) : State :=
  if s.intc.functionMask || s.intc.msixMasked.getLsbD v then
    { s with intc := { s.intc with pba := s.intc.pba ||| BitVec.ofNat 64 (2 ^ v) } }
  else { s with intc := { s.intc with pba := s.intc.pba &&& ~~~ BitVec.ofNat 64 (2 ^ v) }
                hif := { s.hif with out := .msix v (s.intc.msixTable.getD v (0, 0)) :: s.hif.out } }

/-- The INT_N pins that the asserted vectors drive low while MSI-X is not in use (R408). -/
def intNOf (vec : Nat) : Nat :=
  (List.range 4).foldl (fun m k => if (List.range 16).any fun j => bitAt vec (4 * j + k) then m ||| 2 ^ k else m) 0

/-- A source sent to the peer: the pending bit of an edge source clears, and its message awaits an
acknowledgement (R410). -/
def peerSend (n : Nat) (s : State) : State :=
  if s.intc.peerWait.contains n then s else
    let s := if srcLevel n then s else s.setPending n false
    { s with intc := { s.intc with peerWait := s.intc.peerWait ++ [n] }
             casc := { s.casc with intrOut := s.casc.intrOut ++ [n] } }

/-- The delivery decision of R411 step 5. `again` lists the vectors that a completion left to be looked at again: each
that is still asserted requests one more message (R408). -/
def deliverAgain (again : List Nat) (s : State) : State :=
  let act := s.activeSources
  let old := s.rd F.intcHvecAssert_VEC
  let vec := s.vectorsOf act
  let s := s.wr F.intcHvecAssert_VEC vec
  let s := if s.flag F.intcHostMode_MSIX then
      (s.clr F.intcHostMode_INT_N).forL
        ((List.range 64).filter fun v => bitAt vec v && (!bitAt old v || again.contains v)) msixRequest
    else s.wr F.intcHostMode_INT_N (intNOf vec)
  let s := s.forN 13 fun k s => s.wr (F.intcCoreState_PRESENTED k)
    (bit (act.any fun n => destCore (s.rd (F.intcTgt_DEST n)) == some k && !s.inService n))
  s.forL (act.filter fun n => s.rd (F.intcTgt_DEST n) = 3) peerSend

/-- The delivery decision with no completion before it. -/
def deliver (s : State) : State := deliverAgain [] s

/-- A source's event reaches the INTC: its pending bit sets, and the delivery decision follows (R402). -/
def raise (n : Nat) (s : State) : State := if srcAssigned n then deliver (s.setPending n true) else s

/-- The input of a level source changes; a change to asserted sets its pending bit (R402). -/
def setLevel (n : Nat) (b : Bool) (s : State) : State :=
  let was := s.isRaw n
  let s := s.setBit (F.intcRaw_SRC (n / 32)) (n % 32) b
  deliver (if b && !was then s.setPending n true else s)

/-- A core's in-service stack shown in INTC_CORE_k_STATE (R407). -/
def showStack (k : Nat) (s : State) : State :=
  let st := s.intc.service.getD k []
  let top := (st.head?.getD none)
  ((s.wr (F.intcCoreState_DEPTH k) st.length).wr (F.intcCoreState_TOP k) (top.getD 0)).wr
    (F.intcCoreState_TOP_VALID k) (bit top.isSome)

/-- A source completes: it leaves service, and a level source still asserted becomes pending again (R407). -/
def completeSource (n : Nat) (s : State) : State := if srcLevel n && s.isRaw n then s.setPending n true else s

/-- The stack of core `k` replaced and shown. -/
def setStack (k : Nat) (st : List (Option Nat)) (s : State) : State :=
  showStack k { s with intc := { s.intc with service := s.intc.service.set k st } }

/-- A trap or interrupt entry pushes an empty entry; a ninth push completes and discards the oldest (R407). -/
def pushService (k : Nat) (s : State) : State :=
  let st := s.intc.service.getD k []
  let s := match (if st.length ≥ 8 then st.getLast?.getD none else none) with
    | some n => completeSource n s
    | none => s
  deliver (setStack k ((none :: st).take 8) s)

/-- RETI pops the top entry and completes the source it holds (R407). -/
def popService (k : Nat) (s : State) : State :=
  let st := s.intc.service.getD k []
  let s := setStack k st.tail s
  deliver (match st.head?.getD none with
    | some n => completeSource n s
    | none => s)

/-- Enables are cleared by `f`: a core that is no longer presented an interrupt still takes it (R411). -/
def masking (f : State → State) (s : State) : State :=
  let t := f s
  let lost := (List.range 13).filter fun k => s.flag (F.intcCoreState_PRESENTED k) && !t.flag (F.intcCoreState_PRESENTED k)
  { t with intc := { t.intc with late := t.intc.late ++ lost.filter fun k => !t.intc.late.contains k } }

/-- Core `k` is presented an interrupt, or has been and a mask has come since (R406, R411). -/
def State.presented (s : State) (k : Nat) : Bool := s.flag (F.intcCoreState_PRESENTED k) || s.intc.late.contains k

/-- What was presented to core `k` before a mask is taken, or given up. -/
def lateTaken (k : Nat) (s : State) : State := { s with intc := { s.intc with late := s.intc.late.filter (· != k) } }

/-- A reset of a core completes every source on its stack and empties it (R407). -/
def clearService (k : Nat) (s : State) : State :=
  let st := s.intc.service.getD k []
  let s := setStack k [] (lateTaken k s)
  deliver (s.forL (st.filterMap id) completeSource)

/-- The source a claim of core `k` chooses: highest PRIO, then lowest number (R406). -/
def claimChoice (k : Nat) (s : State) : Option Nat :=
  (s.activeSources.filter fun n => destCore (s.rd (F.intcTgt_DEST n)) == some k && !s.inService n).foldl
    (fun best n => match best with
      | none => some n
      | some b => if s.rd (F.intcTgt_PRIO b) < s.rd (F.intcTgt_PRIO n) then some n else some b) none

/-- A claim by core `k`: the vector IVEC returns, and the state after it (R406). A core whose stack is empty has no top
entry to fill, so its claim is spurious too (DESIGN CHOICE, assumption 12; safe: no bit changes). -/
def claim (k : Nat) (s : State) : Nat × State :=
  let st := s.intc.service.getD k []
  match st.head?, claimChoice k s with
  | some none, some n => (0x200 + n, deliver (setStack k (some n :: st.tail) (s.setPending n false)))
  | _, _ => (0x1FF, s.inc F.intcSpurious_COUNT)

end Sys2Proof.Machine
end

