-- ==== Sys2Proof/Machine/Mailbox.lean ====
section
/-! DEFINITION. The host side's shared operations: completion rings and their moderation (R431 to R435), the response
area (R423), notifications, the event log (R469 to R471), dropped writes (R31) and decode errors (R26). -/

namespace Sys2Proof.Machine

/-- IRS offset 0 as a device address (R25). -/
def irsBase : Nat := 0x6000000000

def P.hostwinBase : Prm := ⟨0x0001, 0, .plain⟩
def P.mbxNotify : Prm := ⟨0x0002, 0, .warm⟩
def P.ringLoc (m : Nat) : Prm := ⟨0x0100 + m * 0x10, 0, .plain⟩
def P.ringBase (m : Nat) : Prm := ⟨0x0101 + m * 0x10, 0, .plain⟩
def P.modCount (m : Nat) : Prm := ⟨0x0102 + m * 0x10, 1, .plain⟩
def P.modTime (m : Nat) : Prm := ⟨0x0103 + m * 0x10, 0, .plain⟩
def P.mbxWake (m : Nat) : Prm := ⟨0x0104 + m * 0x10, 0, .plain⟩
def P.logNotify : Prm := ⟨0x0805, 2, .sticky⟩

/-- Device address of the request area of mailbox `m` (R420). -/
def reqArea (m : Nat) : Nat := irsBase + 0x20000 + m * 0x2000

/-- Device address of the response area of mailbox `m` (R420). -/
def respArea (m : Nat) : Nat := reqArea m + 0x1000

/-- Device address of the DEVICE ring of mailbox `m` (R431). -/
def ringArea (m : Nat) : Nat := irsBase + 0x40000 + m * 0x1000

/-- The device is in P2 or P3, where ring entries and notifications are held (R435). -/
def State.asleep (s : State) : Bool := s.rd F.pwrStatus_STATE == 2 || s.rd F.pwrStatus_STATE == 3

/-- The unconsumed entries of ring `m` (R431). -/
def State.unconsumed (s : State) (m : Nat) : Nat := (s.rd (F.mbxStatus_TAIL m) + 512 - s.rd (F.mbxHeadDb_HEAD m)) % 512

/-- The entries held for ring `m`. -/
def State.heldOf (s : State) (m : Nat) : List RingEntry := s.hif.held.filter fun e => e.mbx == m

/-- MBX_m_STATUS.HELD follows the held queue (R445). -/
def showHeld (m : Nat) (s : State) : State := s.wr (F.mbxStatus_HELD m) (min 16 (s.heldOf m).length)

/-- U of mailbox `m` (R434). -/
def State.unnotified (s : State) (m : Nat) : Nat := s.hif.unnotified.getD m 0

/-- U of mailbox `m` set; MBX_m_STATUS shows it, saturating (R434, R445). -/
def setUnnotified (m n : Nat) (s : State) : State :=
  { s.wr (F.mbxStatus_UNNOTIFIED m) (min 127 n) with
    hif := { s.hif with unnotified := (List.range 16).map fun i => if i = m then n else s.hif.unnotified.getD i 0 } }

/-- The mailbox notifies: U and the age timer stop, and source MBX_m is raised (R434). -/
def mbxNotify (m : Nat) (s : State) : State :=
  let s := setUnnotified m 0 s
  raise m { s with hif := { s.hif with ageOn := s.hif.ageOn.filter (· != m) } }

/-- The 16 bytes of an entry written at tail `t` (R432). -/
def entryBytes (e : RingEntry) (t : Nat) : List Byte :=
  natLE 4 e.tagData ++ natLE 4 (e.status % 256 + e.mbx * 256 + bit (t < 256) * 2 ^ 15 + e.opcode % 65536 * 65536)
    ++ natLE 6 e.stamp ++ natLE 2 e.data2

/-- The ring parameter of a PID (R446). -/
def ringPrm (pid : Nat) : Prm :=
  let m := (pid - 0x0100) / 0x10
  match pid % 0x10 with
  | 0 => P.ringLoc m
  | 1 => P.ringBase m
  | 2 => P.modCount m
  | 3 => P.modTime m
  | _ => P.mbxWake m

/-- A ring parameter takes effect: a move of the ring sets HEAD and TAIL to 0, and a lower MBX_MOD_COUNT may notify (R434, R446). -/
def ringSet (pid v : Nat) (s : State) : State :=
  let m := (pid - 0x0100) / 0x10
  let moved := pid % 0x10 < 2 && s.prm (ringPrm pid) != v
  let s := s.setPrm (ringPrm pid) v
  let s := if moved then (s.clr (F.mbxStatus_TAIL m)).clr (F.mbxHeadDb_HEAD m) else s
  if pid % 0x10 = 2 ∧ s.unnotified m ≠ 0 ∧ max 1 v ≤ s.unnotified m then mbxNotify m s else s

/-- The ring parameters that a request of mailbox `m` set, once its completion has been written (R446). -/
def applyRingPend (m : Nat) (s : State) : State :=
  let mine := s.hif.ringPend.filter fun r => r.1 == m
  { s with hif := { s.hif with ringPend := s.hif.ringPend.filter fun r => r.1 != m } }.forL mine fun r s => ringSet r.2.1 r.2.2 s

/-- After a completion's entry has left the device, the mailbox reads DONE (R421, R433). -/
def entryDone (e : RingEntry) (s : State) : State :=
  if e.completion then applyRingPend e.mbx (s.wr (F.mbxStatus_STATE e.mbx) 2) else s

/-- Whether the write of an entry to a HOST ring draws a PCIe error: as the command says, or free (R433; assumption 170). -/
def ringWriteErr (err : Option Bool) (s : State) : Bool × State :=
  match err with
  | some b => (b, s)
  | none => let (i, s) := s.fresh; (Config.ringErr i, s)

/-- An entry completes a request whose acceptance is notified at once: RESET of KIND WARM (R544) and SELFTEST with MODE RUN (R568).
The kind, or the mode, is the first byte of the request's payload. -/
def State.startsAtOnce (s : State) (e : RingEntry) : Bool :=
  e.completion && e.status == 0
    && ((e.opcode == 0x21 && s.byteAt (reqArea e.mbx + 16) == 0) || (e.opcode == 0x32 && s.byteAt (reqArea e.mbx + 16) == 1))

/-- A ring entry written at TAIL, or lost to a PCIe error on its posted write (R431, R433). -/
def writeEntry (err : Option Bool) (e : RingEntry) (s : State) : State :=
  let m := e.mbx
  let t := s.rd (F.mbxStatus_TAIL m)
  let host := s.prm (P.ringLoc m) != 0
  let (err, s) := if host then ringWriteErr err s else (false, s)
  if err then raise 20 (entryDone e (s.inc (F.mbxCounts_RING_ERR m)))
  else
    let bytes := entryBytes e t
    let s := if host then { s with hif := { s.hif with out := .memWrite (s.prm (P.ringBase m) + t % 256 * 16) bytes :: s.hif.out } }
             else s.setBytes (ringArea m + t % 256 * 16) bytes
    let s := s.wr (F.mbxStatus_TAIL m) ((t + 1) % 512)
    let s := setUnnotified m (s.unnotified m + 1) s
    let s := if s.unnotified m ≥ max 1 (s.prm (P.modCount m)) || s.prm (P.modTime m) == 0 || e.notifyNow
        || (e.completion && e.opcode == 0x20) || s.startsAtOnce e then mbxNotify m s
      else if s.hif.ageOn.contains m then s else { s with hif := { s.hif with ageOn := m :: s.hif.ageOn } }
    entryDone e s

/-- Ring `m` cannot take an entry now (R431, R433, R435). -/
def State.ringFull (s : State) (m : Nat) : Bool :=
  s.asleep || s.unconsumed m ≥ 256 || (s.prm (P.ringLoc m) != 0 && !(s.hif.busMaster && s.hif.pcieUp))

/-- One wake request per stay in P2 or P3: a PM_PME message, or WAKE_N low (R435). -/
def wakeRequest (s : State) : State :=
  if s.flag F.pwrStatus_WAKE_REQ then s else
    let s := s.set1 F.pwrStatus_WAKE_REQ
    if s.hif.pmeEn && s.hif.pcieUp then { s with hif := { s.hif with out := .pme :: s.hif.out } }
    else { s with hif := { s.hif with wakeN := true } }

/-- An entry posted to its mailbox's ring: written, held, or, for a notification that finds the queue full, dropped
(R431, R433, R435). -/
def postEntry (e : RingEntry) (s : State) : State :=
  let m := e.mbx
  if s.ringFull m || !(s.heldOf m).isEmpty then
    if !e.completion && (s.heldOf m).length ≥ 16 then raise 21 (s.inc (F.mbxCounts_LOST m))
    else
      let s := showHeld m { s with hif := { s.hif with held := s.hif.held ++ [e] } }
      s.iff (s.asleep && s.prm (P.mbxWake m) != 0) wakeRequest
  else writeEntry none e s

/-- The held entries of ring `m` written in posting order while the ring takes them; `fuel` bounds their number. -/
def flushHeld (err : Option Bool) (m : Nat) : Nat → State → State
  | 0, s => showHeld m s
  | fuel + 1, s =>
    match s.heldOf m with
    | [] => showHeld m s
    | e :: _ =>
      if s.ringFull m then showHeld m s
      else flushHeld err m fuel (writeEntry err e { s with hif := { s.hif with held := s.hif.held.erase e } })

/-- A notification of an event of another chapter, in the ring of mailbox MBX_NOTIFY (R431, R432). -/
def notify (code tagData data2 : Nat) (s : State) : State :=
  postEntry { mbx := s.prm P.mbxNotify % 16, completion := false, tagData := tagData, status := 0, opcode := code,
              stamp := s.now, data2 := data2, notifyNow := false } s

/-! ### The event log (R469 to R471) -/

/-- An entry appended to the log ring; a ring that holds 2,048 unflushed entries loses its oldest (R471). -/
def logEvent (code severity data0 data1 : Nat) (s : State) : State :=
  let seq := s.rd F.cellarLogSeq_NEXT
  let e : LogEntry := { seconds := s.rd F.cellarSeconds_COUNT, stamp := s.now, code := code, seq := seq,
                        severity := severity, estimated := s.flag F.cellarStatus_TIME_EST, data0 := data0, data1 := data1 }
  let full := s.cellar.unflushed ≥ 2048
  let s := s.iff full fun s => s.inc F.cellarLogLost_COUNT
  let kept := if s.cellar.log.length ≥ 2048 then s.cellar.log.drop 1 else s.cellar.log
  let s := { s with cellar := { s.cellar with log := kept ++ [e], unflushed := min 2048 (s.cellar.unflushed + 1) } }
  let s := s.wr F.cellarLogSeq_NEXT (seq + 1)
  if s.prm P.logNotify ≤ severity then notify 0x8005 seq code (raise 486 s) else s

/-- A write that the device drops: counted, raised, and logged once per reference frame (R31). -/
def droppedWrite (off data : Nat) (s : State) : State :=
  let s := raise 17 (s.inc F.hifDroppedWr_COUNT)
  if s.hif.dropLogged then s
  else logEvent 0x0101 1 off data { s with hif := { s.hif with dropLogged := true } }

/-- A direct register write is allowed: by the owner, by the Cellar, by the sequencer a register is visible to, or by an audio
core in the audio block (R31, R32). `host` marks a host-owned register. -/
def mayWrite (host : Bool) (seqPipe : Option Nat) (audio : Bool) (t : Tag) : Bool :=
  match t with
  | .cellar => true
  | .host => host
  | .peer => host
  | .seq p => seqPipe == some p
  | .aud _ => audio
  | .unit => false

/-- Kind and instance codes of a requester (R619). -/
def initiatorCode : Initiator → Nat × Nat × Nat
  | .bar x => (0, bit x, 0)
  | .dataPort x => (1, bit x, 0)
  | .cellar => (2, 0, 0)
  | .seq p => (3, p.val, 0)
  | .audio c => (4, c.val, 0)
  | .peer n => (5, n.val, 0)
  | .dma n t => (6, n.val, match t with | .host => 0 | .cellar => 1 | .peer => 2)
  | .press e => (7, e.val, 0)
  | .plane n => (8, n.val, 0)
  | .harp p => (9, p.val, 0)
  | .safe p j => (10, p.val * 2 + j.val, 0)
  | .rind p => (11, p.val, 0)
  | .writeback p => (12, p.val, 0)
  | .camera n _ => (13, n.val, 0)
  | .clip k => (14, k.val, 0)
  | .feed k _ => (15, k.val, 0)

/-- The tag an initiator's IRS writes carry (R32); a unit that does not reach the IRS has none of the five tags. -/
def initiatorTag : Initiator → Tag
  | .bar _ => .host
  | .dataPort _ => .host
  | .seq p => .seq p.val
  | .audio c => .aud c.val
  | .peer _ => .peer
  | .dma _ t => (match t with | .host => .host | .cellar => .cellar | .peer => .peer)
  | .cellar => .cellar
  | _ => .unit

/-- A write dropped (R31); one from a raster sequencer is counted in its slot register too (R293). -/
def droppedBy (t : Tag) (off data : Nat) (s : State) : State :=
  let s := droppedWrite off data s
  match t with
  | .seq p => s.inc (F.seqSlot_DROPS p)
  | _ => s

/-- A decode error: counted, raised and logged with its initiator, address and stamp (R26, R619). -/
def decodeError (who : Initiator) (addr : Nat) (s : State) : State :=
  let (kind, inst, tag) := initiatorCode who
  logEvent 0x0100 1 (addr % 2 ^ 32) (addr / 2 ^ 32 % 256 + kind * 2 ^ 8 + inst * 2 ^ 16 + tag * 2 ^ 24)
    (raise 16 (s.inc F.hifDecodeErr_COUNT))

/-! ### The device address space (R25 to R29) -/

/-- The first device address of the Vat (R25). -/
def vatBase : Nat := 0x4000000000

/-- The first device addresses of the set alias and of the clear alias (R25). -/
def setAliasBase : Nat := 0x4100000000
def clearAliasBase : Nat := 0x4200000000

/-- An address of the LP5X region (R25). -/
def isLp5x (a : Nat) : Bool := a < 0x2000000000

/-- An address of the Vat (R25). -/
def isVat (a : Nat) : Bool := vatBase ≤ a && a < vatBase + 0x10000000

/-- A region of the device address space. -/
inductive Region where
  | lp5x | vat | setAlias | clearAlias | peer (n : Nat) | irs | local (k : Nat) | host | none
deriving DecidableEq, Repr

/-- The region of an address (R25, R28). -/
def regionOf (a : Nat) : Region :=
  if a < 0x2000000000 then .lp5x
  else if isVat a then .vat
  else if 0x4100000000 ≤ a ∧ a < 0x4110000000 then .setAlias
  else if 0x4200000000 ≤ a ∧ a < 0x4210000000 then .clearAlias
  else if 0x4400000000 ≤ a ∧ a < 0x4800000000 then .peer ((a - 0x4400000000) / 0x100000000)
  else if irsBase ≤ a ∧ a < irsBase + 0x1000000 then .irs
  else if 0x7000000000 ≤ a ∧ a < 0x7000D00000 then .local ((a - 0x7000000000) / 0x100000)
  else if 0x8000000000 ≤ a ∧ a < 0x10000000000 then .host else .none

/-- An initiator reaches a region (R29). -/
def reaches (who : Initiator) (r : Region) : Bool :=
  match who, r with
  | _, .none => false
  | .bar _, r => r == .irs
  | .dataPort _, .host => false
  | .dataPort _, .local k => k < 12
  | .dataPort _, _ => true
  | .dma _ _, .local k => k < 12
  | .dma _ _, _ => true
  | .seq p, .local k => k == p.val
  | .seq _, r => r != .host
  | .audio c, .local k => k == 8 + c.val
  | .audio _, r => r != .host
  | .cellar, _ => true
  | .peer _, r => r == .vat || r == .setAlias || r == .clearAlias || r == .irs
  | _, r => r == .lp5x || r == .vat

/-- An access to the IRS offset `off` by one that reaches the IRS; by any other it is a decode error (R26, R29). -/
def onIrs (who : Initiator) (off : Nat) (f : State → State) (s : State) : State :=
  if reaches who .irs then f s else decodeError who (irsBase + off) s

/-- The trim bits whose unit holds the register at an IRS offset (R533, R534). -/
def trimBits (off : Nat) (s : State) : List Nat :=
  match off / 0x100000 with
  | 3 => if off < 0x310000 then [(off - 0x300000) / 0x2000]
         else if off < 0x310800 then [s.rd (F.portCtl_PIPE ((off - 0x310000) / 0x100))]
         else if 0x320000 ≤ off ∧ off < 0x360000 then [(off - 0x320000) / 0x8000] else []
  | 5 => [30]
  | 6 => if off < 0x600400 then [8 + (off - 0x600000) / 0x100] else []
  | 7 => if off < 0x708000 then [(off - 0x700000) / 0x1000] else []
  | 8 => [16]
  | 9 => [17]
  | 10 => if 0xA00600 ≤ off ∧ off < 0xA00680 then [15, 26 + (off - 0xA00600) / 0x20] else [15]
  | 14 => if 0xE00100 ≤ off ∧ off < 0xE00200 then [13 + (off - 0xE00100) / 0x80] else []
  | 15 => if off < 0xF00200 then [18 + (off - 0xF00000) / 0x40] else []
  | _ => []

/-- The register at an offset lies in a trimmed unit (R534). -/
def State.irsTrimmed (s : State) (off : Nat) : Bool := s.rd F.pwrTrimmed_UNIT != 0 && (trimBits off s).any fun b => !s.untrimmed b

/-- The shutdown self-test runs (R575, R586). -/
def State.selfTesting (s : State) : Bool := s.rd F.stStatus_STATE != 0

/-- An initiator that stands for the host. -/
def isHost (who : Initiator) : Bool := match who with | .bar _ => true | .dataPort _ => true | _ => false

/-- A direct write that no register sees: into a trimmed unit, or by the host during the self-test, the mailbox registers apart (R534, R575). -/
def State.shutOut (s : State) (who : Initiator) (off : Nat) : Bool :=
  s.irsTrimmed off || (s.selfTesting && isHost who && !(0x2000 ≤ off && off < 0x2200))

/-- A write command of the register at IRS offset `off`, done by `f` where the register is there to take it (R26, R29, R31, R534, R575). -/
def writeIrs (who : Initiator) (off data : Nat) (f : State → State) (s : State) : State :=
  onIrs who off (fun s => if s.shutOut who off then droppedBy (initiatorTag who) off data s else f s) s

/-- A read command of the IRS offset `off`: its value is kept as the last one read. To one that does not reach the IRS it is a decode
error that returns all ones (R26, R29). -/
def readIrs (who : Initiator) (off : Nat) (f : State → Nat × State) (s : State) : State :=
  if reaches who .irs then
    let (v, s) := f s
    { s with lastRead := v }
  else { decodeError who (irsBase + off) s with lastRead := 0xFFFFFFFF }

/-! ### Requests and responses (R421 to R425, R429) -/

/-- A field of the request in mailbox `m`: `n` bytes at `o`. -/
def State.req (s : State) (m o n : Nat) : Nat := leNat (s.bytesAt (reqArea m + o) n)

/-- OPCODE of the request in mailbox `m` (R422). -/
def State.reqOpcode (s : State) (m : Nat) : Nat := s.req m 0 2

/-- LEN of the request in mailbox `m`: the low 12 bits of the word at 0x08 (R422). -/
def State.reqLen (s : State) (m : Nat) : Nat := s.req m 8 2 % 4096

/-- The payload bytes of the request in mailbox `m`. -/
def State.payload (s : State) (m : Nat) : List Byte := s.bytesAt (reqArea m + 16) (s.reqLen m)

/-- A little-endian field of a byte list; bytes beyond its end count as 0. -/
def fieldAt (b : List Byte) (o n : Nat) : Nat := leNat ((b.drop o).take n)

/-- What serving a request gives: a response at once, or a wait for an event (R429). -/
inductive Reply where
  | done (status detail : Nat) (payload : List Byte)
  | wait (arg : Nat)
  /-- The request was completed on the way. -/
  | posted
deriving DecidableEq, Repr

/-- Status codes of responses (R425). -/
def St.ok : Nat := 0
def St.badOpcode : Nat := 1
def St.badParam : Nat := 2
def St.notOwner : Nat := 3
def St.busy : Nat := 4
def St.busySelftest : Nat := 5
def St.retiredUnit : Nat := 6
def St.lifecycleDenied : Nat := 7
def St.authFail : Nat := 8
def St.timeout : Nat := 9

/-- The response of mailbox `m` written, then its completion posted (R421, R423, R443). A request that a HOST or FLR
reset overtook has its response and ring entry discarded; its effects stand (R417). -/
def complete (r : Rung) (opcode status detail : Nat) (payload : List Byte) (s : State) : State :=
  let m := r.mbx
  if r.discard then applyRingPend m s else
    let tag := s.req m 4 4
    let nn := s.req m 2 1 % 2 == 1
    let s := s.setBytes (respArea m)
      (natLE 4 (status + opcode * 65536) ++ natLE 4 tag ++ natLE 4 payload.length ++ natLE 4 detail ++ payload)
    postEntry { mbx := m, completion := true, tagData := tag, status := status, opcode := opcode, stamp := s.now,
                data2 := 0, notifyNow := nn } s

/-- The completion of a request that waited for an event (R429). -/
def completeWaiting (w : Rung × Waiting) (status detail : Nat) (payload : List Byte) (s : State) : State :=
  complete w.1 w.2.opcode status detail payload { s with hif := { s.hif with waiting := s.hif.waiting.erase w } }

end Sys2Proof.Machine
end

