-- ==== Sys2Proof/Machine/FaultOps.lean ====
section
/-! DEFINITION. The fault manager's shared operations (R557 to R567, R583): counting an upset, the retry limit, retiring
and reinstating a unit, and FAULT_N. -/

namespace Sys2Proof.Machine

def P.portSpare (k : Nat) : Prm := ⟨0x0B00 + k, 0xFF, .warm⟩
def P.faultnMask : Prm := ⟨0x0B10, 0, .sticky⟩
def P.repairEn : Prm := ⟨0x0B11, 1, .sticky⟩
def P.notifyTransient : Prm := ⟨0x0B12, 1, .sticky⟩

/-- The ID of unit `i` of kind `k` (R557). -/
def unitId (k i : Nat) : Nat := k * 256 + i

/-- How many units of a fault-unit kind there are (R557). -/
def unitCount (k : Nat) : Nat := [8, 16, 4, 16, 64, 8, 8, 1, 2, 12].getD k 0

/-- An ID names a unit (R557). -/
def unitKnown (id : Nat) : Bool := id % 256 < unitCount (id / 256)

/-- How many blocks of a block kind, 16 to 25, there are (R573). -/
def blockCount (k : Nat) : Nat := if k < 16 then 0 else [32, 1, 8, 8, 8, 4, 2, 1, 1, 1].getD (k - 16) 0

/-- The state of a unit: 0 HEALTHY, 1 SUSPECT, 2 RETIRED (R558). -/
def State.unitState (s : State) (id : Nat) : Nat := s.rd (F.fltU_STATE (id / 256) (id % 256))

/-- A block is usable (R573). -/
def State.usable (s : State) (k i : Nat) : Bool := s.flag (F.fltB_USABLE (k - 16) i)

/-- What the fault manager keeps of a unit. -/
def State.fltUnit (s : State) (id : Nat) : FltUnit :=
  (s.fault.units.find? fun u => u.id == id).getD
    { id := id, upsets := [], attempts := [], retrying := false, uncorrectable := [], noted := none }

/-- What the fault manager keeps of a unit, replaced. -/
def setFltUnit (u : FltUnit) (s : State) : State :=
  { s with fault := { s.fault with units := u :: s.fault.units.filter fun v => v.id != u.id } }

/-- A stamp lies within the last `us` microseconds. -/
def State.within (s : State) (us stamp : Nat) : Bool :=
  0 ≤ s.dotsBetween stamp s.now && s.dotsBetween stamp s.now ≤ (s.usDots us : Nat)

/-- FAULT_N recomputed (R567): the trip hold, an unusable essential block, or a RETIRED unit of a masked kind. -/
def updateFaultN (s : State) : State :=
  let masked := (List.range 10).any fun k =>
    bitAt (s.prm P.faultnMask) k && (List.range (unitCount k)).any fun i => s.unitState (unitId k i) == 2
  s.wr F.fltSummary_FAULT_N (bit (s.fault.tripHold || s.flag F.fltSummary_ESSENTIAL || masked))

/-- The HEALTH field of the unit's own chapter set (R558, R566). -/
def setHealth (id st : Nat) (s : State) : State :=
  let i := id % 256
  match id / 256 with
  | 2 => s.wr (F.csiStatus_HEALTH i) st
  | 4 => s.wr (F.vatBankStatus_HEALTH i) st
  | 5 => s.wr (F.cascLStatus_LANE_HEALTH (i / 4)) (setBitsAt (s.rd (F.cascLStatus_LANE_HEALTH (i / 4))) (2 * (i % 4)) 2 st)
  | 6 => s.wr (F.tdmStatus_HEALTH i) st
  | _ => s

/-- The summary counts of FLT_SUMMARY moved with a unit's change of state (R586). -/
def moveSummary (old new : Nat) (s : State) : State :=
  let s := if old = 1 then s.wr F.fltSummary_SUSPECT (s.rd F.fltSummary_SUSPECT - 1)
           else if old = 2 then s.wr F.fltSummary_RETIRED (s.rd F.fltSummary_RETIRED - 1) else s
  if new = 1 then s.inc F.fltSummary_SUSPECT else if new = 2 then s.inc F.fltSummary_RETIRED else s

/-- A unit's state written, with its HEALTH field, its cause and the record of the last change (R558, R586, R587). -/
def setUnitState (id st cause : Nat) (s : State) : State :=
  let s := moveSummary (s.unitState id) st s
  let s := (s.wr (F.fltU_STATE (id / 256) (id % 256)) st).wr (F.fltU_CAUSE (id / 256) (id % 256)) cause
  let s := ((s.wr F.fltLast_UNIT id).wr F.fltLast_CAUSE cause).wr F.fltLast_STATE st
  updateFaultN (setHealth id st (s.wr F.fltLastStamp_STAMP s.now))

/-- A FAULT notification of a unit's state (R583). -/
def notifyFault (id st cause : Nat) (s : State) : State :=
  notify 0x8002 (id + st * 2 ^ 16 + cause * 2 ^ 24) (s.rd (F.fltU_COUNT60 (id / 256) (id % 256))) s

def onPort (k : Nat) (f : PortRun → PortRun) (s : State) : State := { s with ports := s.ports.modify k f }

/-- Port `k` takes a state in which it sends nothing (R195). -/
def portDown (k st : Nat) (s : State) : State :=
  onPort k (fun r => { r with lanes := [], packets := [] }) ((s.wr (F.portStatus_STATE k) st).clr (F.portStatus_LANES_ACTIVE k))

/-- A retired port moves to its spare, where that is disabled, HEALTHY, held by no service and not the second port of a 4-lane
pair (R564). -/
def movePort (id k : Nat) (s : State) : State :=
  let sp := s.prm (P.portSpare k)
  let pair := sp % 2 == 1 && s.rd (F.portCtl_LANES (sp - 1)) == 2 && s.flag (F.portCtl_EN (sp - 1))
  if sp < 8 && !s.flag (F.portCtl_EN sp) && s.unitState (unitId 0 sp) == 0 && !s.heldRes 0x34 sp && !pair then
    let s := (((s.wr (F.portCtl_EDP sp) (s.rd (F.portCtl_EDP k))).wr (F.portCtl_LANES sp) (s.rd (F.portCtl_LANES k))).wr
      (F.portCtl_RATE sp) (s.rd (F.portCtl_RATE k))).wr (F.portCtl_ASSR sp) (s.rd (F.portCtl_ASSR k))
    let s := (((s.wr (F.portCtl_ADAPTIVE sp) (s.rd (F.portCtl_ADAPTIVE k))).wr (F.portLanemap_LANE sp)
      (s.rd (F.portLanemap_LANE k))).wr (F.portLanemap_INVERT sp) (s.rd (F.portLanemap_INVERT k))).wr
      (F.portCtl_PIPE sp) (s.rd (F.portCtl_PIPE k))
    let s := s.wr (F.portStatus_STATE sp) (if s.flag (F.portStatus_HPD sp) then 1 else 5)
    logEvent 0x0803 1 id (sp * 256) ((s.set1 (F.portCtl_EN sp)).wr (F.portStatus_PIPE sp) (s.rd (F.portCtl_PIPE k)))
  else s

/-- Lane rate of a rate code, in Mbit/s (R203). -/
def portRate (code : Nat) : Nat := [1620, 2700, 5400, 8100, 2160, 2430, 3240, 4320, 10000, 13500, 20000].getD code 0

/-- The bandwidth bound of R196: a dot frequency with its slew, in units of 250 ppm, and a depth code, against lanes of a rate code. -/
def lanesCarry (hz slew depth lanes code : Nat) : Bool :=
  let need := hz * (4000 + slew) * 3 * [6, 8, 10, 12].getD depth 10
  let rate := lanes * portRate code * 1000000
  if code < 8 then need * 1000 ≤ 97 * rate * 4000 * 8 else need * 13200 ≤ 97 * rate * 4000 * 128

/-- The configured width of port `k` (R203). -/
def State.portWidth (s : State) (k : Nat) : Nat := match s.rd (F.portCtl_LANES k) with | 0 => 1 | 2 => 4 | _ => 2

/-- The lanes that port `k` trains on: the widest set of its lanes in service, 4, 2 or 1, within its configured width; none where R196
does not hold on a narrower set at the configured rate, which is the highest one the port uses (R194, R563; DEDUCED, assumption 140). -/
def State.portLanes (s : State) (k : Nat) : Nat :=
  let good (l : Nat) : Bool := s.unitState (unitId 1 (2 * k + l)) != 2
  let width := s.portWidth k
  let n := if width = 4 ∧ (List.range 4).all good then 4
    else if 2 ≤ width ∧ good 0 ∧ good 1 then 2 else if good 0 || good 1 then 1 else 0
  let p := s.rd (F.portCtl_PIPE k)
  let slew := if s.flag (F.lockCtl_EN p) then s.rd (F.lockCtl_SLEW p) else 0
  if n = width ∨ lanesCarry (s.rd (F.pipeFreq_HZ p)) slew (s.rd (F.pipeCtl_DEPTH p)) n (s.rd (F.portCtl_RATE k)) then n else 0

/-- COUNT60 and ATTEMPTS of a unit shown from what the manager keeps of it (R587). -/
def showCounts (id : Nat) (s : State) : State :=
  let u := s.fltUnit id
  (s.wr (F.fltU_COUNT60 (id / 256) (id % 256)) (min 31 (u.upsets.filter (s.within 60000000)).length)).wr
    (F.fltU_ATTEMPTS (id / 256) (id % 256)) (min 3 (u.attempts.filter (s.within 1000000)).length)

/-- A HEALTHY unit becomes SUSPECT: raised, logged and notified (R558, R583). -/
def makeSuspect (id cause : Nat) (s : State) : State :=
  if s.unitState id != 0 then s else
    let s := raise 490 (setUnitState id 1 cause s)
    let s := logEvent 0x0800 1 (id + cause * 2 ^ 16) (s.rd (F.fltU_COUNT60 (id / 256) (id % 256))) s
    let u := s.fltUnit id
    if s.prm P.notifyTransient != 0 && !(u.noted.any (s.within 10000)) then
      notifyFault id 1 cause (setFltUnit { u with noted := some s.now } s)
    else s

/-- A unit that P1 trimming stops (R533, R534, R557). -/
def State.trimmedUnit (s : State) (id : Nat) : Bool :=
  let i := id % 256
  let off (b : Nat) : Bool := bitAt (s.rd F.pwrTrimmed_UNIT) b
  match id / 256 with
  | 0 => off (s.rd (F.portCtl_PIPE i))
  | 1 => off (s.rd (F.portCtl_PIPE (i / 2)))
  | 2 => off (8 + i)
  | 3 => off 12
  | 5 => off (13 + i / 4)
  | 6 => off 15
  | _ => false

/-- An attempt of a unit begins (R559). -/
def openAttempt (id : Nat) (s : State) : State :=
  showCounts id (setFltUnit { s.fltUnit id with attempts := (s.now :: (s.fltUnit id).attempts).take 4, retrying := true } s)

/-- An upset of a unit counts, unless the unit is RETIRED or trimmed, an attempt of it runs, or the device is in P2 to P4 (R557, R559). -/
def State.upsetCounts (s : State) (id : Nat) : Bool :=
  !(s.unitState id = 2 || s.trimmedUnit id || (s.fltUnit id).retrying || s.stopped)

/-- An upset is counted, and a HEALTHY unit becomes SUSPECT (R558). -/
def countUpset (id cause : Nat) (s : State) : State :=
  let u := s.fltUnit id
  let s := setFltUnit { u with upsets := (s.now :: u.upsets).take 32 } s
  makeSuspect id cause (showCounts id (s.inc (F.fltU_TOTAL (id / 256) (id % 256))))

/-- A link that is UP retrains, on the lanes left: an upset of each of them, whose retry is this retrain (R508, R509, R557). -/
def laneRetrain (l : Nat) (s : State) : State :=
  let s := raise (464 + l) ((s.inc (F.cascLRetrain_COUNT l)).wr (F.cascLStatus_STATE l) 1)
  let s := { s with casc := { s.casc with links := s.casc.links.modify l fun k => { k with naks := [], retraining := true } } }
  s.forL (((List.range 4).map fun j => unitId 5 (4 * l + j)).filter s.upsetCounts) fun id s => openAttempt id (countUpset id 5 s)

/-- The retired unit's work moves, as far as the unit's own registers carry it (R563): a display lane starts its port's
retraining on the lanes left, a Rolwauz lane its link's retrain, an LP5X channel and a CAN controller leave service, and a Vat bank raises
VAT_BANK_RETIRED (R93). -/
def remapUnit (id : Nat) (s : State) : State :=
  let i := id % 256
  match id / 256 with
  | 0 => movePort id i (portDown i 4 s)
  | 1 =>
    let k := i / 2
    let base := if s.flag (F.portCtl_EN (k / 2 * 2)) && s.rd (F.portCtl_LANES (k / 2 * 2)) == 2 then k / 2 * 2 else k
    let lanes := s.portLanes base
    let s := s.clr (F.portStatus_LANES_ACTIVE base)
    if !s.flag (F.portCtl_EN base) then s
    else if lanes = 0 then movePort id base (portDown base 4 s)
    else logEvent 0x0803 1 id lanes (if s.flag (F.portStatus_HPD base) then portDown base 1 s else s)
  | 3 => { s with lp := { s.lp with out := setBitsAt s.lp.out i 1 1 } }
  | 4 => raise 452 (logEvent 0x0303 2 i 0 s)
  | 5 => logEvent 0x0803 1 id ((List.range 4).filter fun l => s.unitState (unitId 5 (i / 4 * 4 + l)) != 2).length
           (s.iff (s.rd (F.cascLStatus_STATE (i / 4)) == 2) (laneRetrain (i / 4)))
  | 8 => s.wr (F.canStatus_STATE i) 0
  | 9 => s.clr (F.cellarTemp_VALID i)
  | _ => s

/-- A unit is retired, in the order of R562. A unit already RETIRED stays as it is (R558). -/
def retire (id cause : Nat) (s : State) : State :=
  if s.unitState id = 2 then s else
    let s := setUnitState id 2 cause s
    let s := { s with fault := { s.fault with record := id :: s.fault.record.filter (· != id) } }
    let s := remapUnit id s
    let s := setFltUnit { s.fltUnit id with retrying := false } s
    let s := raise 491 s
    let s := logEvent 0x0801 2 (id + cause * 2 ^ 16) (s.rd (F.fltU_COUNT60 (id / 256) (id % 256))) s
    notifyFault id 2 cause s

/-- A retry attempt of a unit begins, unless three began within the last second: then the fault is permanent
(R559, R560). -/
def beginAttempt (id cause : Nat) (s : State) : State :=
  let u := s.fltUnit id
  if 3 ≤ (u.attempts.filter (s.within 1000000)).length then retire id cause s
  else openAttempt id s

/-- An upset of a unit (R557 to R561): not counted while the unit is RETIRED or trimmed, while an attempt of it runs, or while
the device is in P2 to P4; the 16th within 60 s is permanent; otherwise it starts a retry attempt. -/
def upset (id cause : Nat) (s : State) : State :=
  if !s.upsetCounts id then s else
    let s := countUpset id cause s
    if 16 ≤ s.rd (F.fltU_COUNT60 (id / 256) (id % 256)) then retire id 6 s else beginAttempt id 5 s

/-- A retry attempt of a unit ends: restored, or failed and followed by the next (R559). -/
def endAttempt (id : Nat) (ok : Bool) (s : State) : State :=
  let u := s.fltUnit id
  if !u.retrying then s
  else
    let s := setFltUnit { u with retrying := false } s
    if ok then showCounts id s else beginAttempt id 5 s

end Sys2Proof.Machine
end

