-- ==== Sys2Proof/Machine/Vat.lean ====
section
/-! DEFINITION. The Vat (R71 to R103): placement, bank states, ECC and poison, aliases, locked windows, initialisation,
scrubbing and the background test. -/

namespace Sys2Proof.Machine

abbrev Out := Host.Outcome State Fault Refusal

/-! ### Placement (R72 to R74) -/

/-- The banks of an interleave group, W of R72: never more than the 64 of the Vat. -/
def State.groupSize (s : State) : Nat := 2 ^ min 6 s.vat.groupLog2

/-- The banks of group `g` that are in the hash, in ascending order (R73). -/
def State.groupBanks (s : State) (g : Nat) : List Nat :=
  let w := s.groupSize
  ((List.range w).map (· + g * w)).filter fun k => s.flag (F.vatBankStatus_IN_HASH k)

/-- The row hash h(r) of R73 for `b` banks. -/
def hashRow (ka kb b r : Nat) : Nat := (((r * ka) % 2 ^ 32) ^^^ kb) % b

/-- The bank and row of the line at a Vat offset, or none past the Vat's end or where the group holds no such
address (R25, R73, R74). -/
def State.vatLoc (s : State) (off : Nat) : Option (Nat × Nat) :=
  let span := s.groupSize * 0x400000
  let banks := s.groupBanks (off / span)
  let b := banks.length
  let l := off % span / 64
  if 0x10000000 ≤ off ∨ b = 0 ∨ b * 65536 ≤ l then none
  else some (banks.getD ((l % b + hashRow s.vat.ka s.vat.kb b (l / b)) % b) 0, l / b)

/-- The physical address of byte `i` of a row of a bank. -/
def physAddr (k row i : Nat) : Nat := k * 0x400000 + row * 64 + i

/-- A bank takes accesses: the Vat is READY, the bank is ON, not filling, and not RETIRED (R76, R83, R93). -/
def State.bankServes (s : State) (k : Nat) : Bool :=
  s.rd F.vatStatus_STATE == 2 && s.rd (F.vatBankStatus_PWR k) == 0 && !s.flag (F.vatBankStatus_FILLING k)
    && s.rd (F.vatBankStatus_HEALTH k) != 2

/-! ### Errors (R83, R86, R88 to R90, R92) -/

/-- A refused access: counted at the bank, raised once per reference frame (R83). -/
def parked (k : Nat) (s : State) : State :=
  let s := s.inc (F.vatBankErr_PARKED k)
  if s.vat.parkedSeen then s else raise 454 { s with vat := { s.vat with parkedSeen := true } }

/-- A read returned poison: raised and logged once per reference frame (R90). -/
def poisonSeen (k row w : Nat) (s : State) : State :=
  if s.vat.poisonSeen then s
  else logEvent 0x0301 2 (k + row * 64) w (raise 453 { s with vat := { s.vat with poisonSeen := true } })

/-- The ECC word of a physical byte address. -/
def eccWord (pa : Nat) : Nat := pa / 16

/-- A word is poisoned (R88). -/
def State.poisoned (s : State) (w : Nat) : Bool := s.vat.poison.contains w

/-- A word poisoned or cleared; the list stays strictly rising. -/
def setPoison (w : Nat) (b : Bool) (s : State) : State :=
  let rest := s.vat.poison.filter (· != w)
  let l := if b then rest.filter (· < w) ++ w :: rest.filter (w < ·) else rest
  { s with vat := { s.vat with poison := l } }

/-- One more uncorrectable or parity error of a bank; the second since the last initialisation is permanent (R92). -/
def countUe (k cause : Nat) (s : State) : State :=
  let seen := s.vat.ueSince.contains k
  let s := { s with vat := { s.vat with ueSince := k :: s.vat.ueSince } }
  s.iff seen (retire (unitId 4 k) cause)

/-- VAT_ERR_LAST records a location (R88, R89). -/
def recordErr (k row w : Nat) (parity : Bool) (s : State) : State :=
  ((((s.wr F.vatErrLast_BANK k).wr F.vatErrLast_ROW row).wr F.vatErrLast_WORD w).wr F.vatErrLast_PARITY (bit parity)).set1
    F.vatErrLast_VALID

/-- A read found an uncorrectable error in a word not yet poisoned (R88). -/
def uncorrectable (k row w : Nat) (s : State) : State :=
  let s := setPoison (eccWord (physAddr k row (16 * w))) true s
  let s := recordErr k row w false (s.inc (F.vatBankErr_UE k))
  countUe k 3 (logEvent 0x0300 2 (k + row * 64) w (raise 449 s))

/-- An address-parity mismatch (R89). The bank performs no access, so no ECC word failed: WORD is recorded as 0 (DESIGN CHOICE,
assumption 119). -/
def addressParity (k row : Nat) (s : State) : State :=
  let s := recordErr k row 0 true ((s.inc (F.vatBankErr_UE k)).inc (F.vatBankErr_PAR k))
  countUe k 4 (raise 450 s)

/-- A corrected word: counted, queued for its write-back, and a burst of more than 16 in 1 ms is an upset that starts a
full scrub (R86, R92). -/
def corrected (k row w : Nat) (s : State) : State :=
  let s := s.inc (F.vatBankErr_CE k)
  let recent := (s.vat.ceStamps.filter fun c => c.1 == k && s.within 1000 c.2).length
  let stamps := (k, s.now) :: (s.vat.ceStamps.filter fun c => s.within 1000 c.2)
  let s := { s with vat := { s.vat with ceQueue := s.vat.ceQueue ++ [(k, eccWord (physAddr k row (16 * w)))], ceStamps := stamps } }
  if recent < 16 then s
  else
    let again := s.vat.scrubbing.contains k
    let s := { s with vat := { s.vat with
      ceStamps := s.vat.ceStamps.filter (fun c => c.1 != k),
      scrubbing := if again then s.vat.scrubbing else k :: s.vat.scrubbing,
      scrubBurst := if again then k :: s.vat.scrubBurst.filter (· != k) else s.vat.scrubBurst } }
    upset (unitId 4 k) 2 (raise 451 s)

/-- What an access met in one ECC word it reads: the state after it, and whether the word now reads as poison. -/
def readWord (k row w : Nat) (err : VatErr) (s : State) : State × Bool :=
  if s.poisoned (eccWord (physAddr k row (16 * w))) then (s, true)
  else match err with
    | .uncorrectable e => if e.val = w then (uncorrectable k row w s, true) else (s, false)
    | .corrected e => if e.val = w then (corrected k row w s, false) else (s, false)
    | _ => (s, false)

/-! ### Line accesses -/

/-- The ECC words that bytes `[i, i + n)` of a line touch. -/
def wordsOf (i n : Nat) : List Nat := (List.range 4).filter fun w => i < 16 * w + 16 && 16 * w < i + n

/-- The answer to a unit's own access of a line whose address parity VAT_ACCESS showed to have failed, if one waits: the bank performed
no access (R89). -/
def takeFailed (who : Initiator) (off : Nat) (s : State) : Bool × State :=
  (s.vat.failed.contains (who, off / 64), { s with vat := { s.vat with failed := s.vat.failed.erase (who, off / 64) } })

/-- A read of `n` bytes inside one line, through the window at `base`: the data, whether a bus error or poison was returned, and the
state after (R71, R74, R83, R86 to R90). -/
def lineRead (who : Initiator) (base off n : Nat) (err : VatErr) (s : State) : List Byte × Bool × State :=
  match s.vatLoc off with
  | none => (onesBytes n, true, decodeError who (base + off) s)
  | some (k, row) =>
    if !s.bankServes k then (onesBytes n, true, poisonSeen k row 0 (parked k s))
    else if err = .parity then (onesBytes n, true, poisonSeen k row 0 (addressParity k row s))
    else
      let step := fun (acc : State × Bool) (w : Nat) =>
        let (s', p) := readWord k row w err acc.1
        (if p then poisonSeen k row w s' else s', acc.2 || p)
      let (s, bad) := (wordsOf (off % 64) n).foldl step (s, false)
      if bad then (onesBytes n, true, s) else (cellsAt 0#8 s.vat.data (physAddr k row (off % 64)) n, false, s)

/-- A write into a locked window by anyone but the Cellar or a DMA channel it started (R96). -/
def State.lockedAgainst (s : State) (who : Initiator) (off : Nat) : Bool :=
  (match who with | .cellar => false | .dma _ .cellar => false | _ => true) &&
    (List.range 4).any fun k =>
      s.rd (F.vatLock_BASE k) * 65536 ≤ off && off < (s.rd (F.vatLock_BASE k) + s.rd (F.vatLock_SIZE k)) * 65536

/-- How a write combines with what a byte holds: a plain write, or a set or clear alias (R94). -/
inductive WriteKind where
  | plain | setBits | clearBits
deriving DecidableEq, Repr

/-- The window of the device address space that a write of a kind goes through (R25, R94). -/
def WriteKind.base : WriteKind → Nat
  | .plain => vatBase
  | .setBits => setAliasBase
  | .clearBits => clearAliasBase

/-- The byte a write leaves. -/
def WriteKind.apply (k : WriteKind) (old new : Byte) : Byte :=
  match k with
  | .plain => new
  | .setBits => old ||| new
  | .clearBits => old &&& ~~~new

/-- The enabled bytes of a write that fall in ECC word `w` of a line whose first byte of the write is at `i`: their places
in the line, with their values. -/
def wordBytes (i w : Nat) (bytes : List (Option Byte)) : List (Nat × Byte) :=
  (List.range 16).filterMap fun j =>
    if 16 * w + j < i then none else ((bytes.getD (16 * w + j - i) none).map fun b => (16 * w + j, b))

/-- The enabled bytes of one ECC word written: a write of all 16 bytes clears poison, any other is a read-modify-write
that a poisoned word drops (R87, R88, R95). The flag is a bus error. -/
def writeWord (k row w : Nat) (kind : WriteKind) (err : VatErr) (bs : List (Nat × Byte)) (s : State) : State × Bool :=
  if bs.isEmpty then (s, false)
  else
    let whole := bs.length == 16 && kind == .plain
    let (s, bad) := if whole then (setPoison (eccWord (physAddr k row (16 * w))) false s, false) else readWord k row w err s
    if bad then (s, true)
    else
      let put := fun (l : List Host.Cell) (b : Nat × Byte) =>
        let a := physAddr k row b.1
        Sparse.put a (kind.apply (Sparse.get a 0#8 l) b.2) 0#8 l
      ({ s with vat := { s.vat with data := bs.foldl put s.vat.data } }, false)

/-- A write inside one line, with byte enables (R71, R83, R87 to R89, R94 to R96). The flag is a bus error. The spec does not say which
of a locked window, a refusing bank and a parity mismatch comes first (assumption 120), nor what becomes of the other ECC words of a
write that meets a poisoned one (assumption 121); both DESIGN CHOICE. -/
def lineWrite (who : Initiator) (off : Nat) (bytes : List (Option Byte)) (kind : WriteKind) (err : VatErr) (s : State) :
    Bool × State :=
  match s.vatLoc off with
  | none => (true, decodeError who (kind.base + off) s)
  | some (k, row) =>
    if s.lockedAgainst who off then (true, raise 457 s)
    else if !s.bankServes k then (true, parked k s)
    else if err = .parity then (true, addressParity k row s)
    else
      let step := fun (acc : State × Bool) (w : Nat) =>
        let (s', e) := writeWord k row w kind err (wordBytes (off % 64) w bytes) acc.1
        (s', acc.2 || e)
      let (s, e) := (List.range 4).foldl step (s, false)
      (e, s)

/-- A read of `n` bytes from a Vat offset, through the window at `base`, line by line; `fuel` bounds the lines. -/
def vatRead (who : Initiator) (base : Nat) : Nat → Nat → Nat → State → List Byte × Bool × State
  | 0, _, n, s => (onesBytes n, n != 0, s)
  | fuel + 1, off, n, s =>
    if n = 0 then ([], false, s)
    else
      let m := min n (64 - off % 64)
      let (f, s) := takeFailed who off s
      let (d, e, s) := if f then (onesBytes m, true, s) else lineRead who base off m .none s
      let (d', e', s) := vatRead who base fuel (off + m) (n - m) s
      (d ++ d', e || e', s)

/-- A write from a Vat offset, line by line; `fuel` bounds the lines. -/
def vatWrite (who : Initiator) (kind : WriteKind) : Nat → Nat → List Byte → State → Bool × State
  | 0, _, bs, s => (!bs.isEmpty, s)
  | fuel + 1, off, bs, s =>
    if bs.isEmpty then (false, s)
    else
      let m := 64 - off % 64
      let (f, s) := takeFailed who off s
      let (e, s) := if f then (true, s) else lineWrite who off ((bs.take m).map some) kind .none s
      let (e', s) := vatWrite who kind fuel (off + m) (bs.drop m) s
      (e || e', s)

/-! ### Initialisation (R75, R76) -/

/-- Any pipe or camera stream is enabled (R76). -/
def State.scanning (s : State) : Bool :=
  (List.range 8).any (fun p => s.flag (F.pipeCtl_EN p)) || (List.range 16).any fun n => s.flag (F.streamCtl_EN n)

/-- A Vat initialisation starts: a new key, W taken from its parameter, RETIRED banks left out, the banks in ON filling
with zeros and the others void (R76). A bank that is changing state is in none of the three states; it counts as void, and is
zero-filled when it next enters ON (DEDUCED, assumption 122). -/
def vatInitStart (s : State) : State :=
  let (n, s) := s.fresh
  let key := (Config.trng n).toNat
  let s := s.wr F.vatStatus_STATE 1
  let s := s.incWrap F.vatStatus_KEY_ID
  let s := { s with vat := { s.vat with
    ka := key % 2 ^ 32 / 2 * 2 + 1, kb := key / 2 ^ 32, groupLog2 := min 6 (s.rd F.vatCtl_GROUP_LOG2),
    data := [], poison := [], ceQueue := [], bgt := none, failed := [] } }
  let s := s.forN 64 fun k s =>
    let s := s.wr (F.vatBankStatus_IN_HASH k) (bit (s.rd (F.vatBankStatus_HEALTH k) != 2))
    if s.rd (F.vatBankStatus_PWR k) = 0 then s.set1 (F.vatBankStatus_FILLING k)
    else if s.rd (F.vatBankStatus_PWR k) = 2 then s
    else
      -- a wake in progress now ends with a zero-fill (R85, R102)
      (s.set1 (F.vatBankStatus_RET_VOID k)).iff (s.vat.moving.any fun m => m.1 == k && m.2.2 == 0) (·.set1 (F.vatBankStatus_FILLING k))
  let s := (s.clr F.vatBgtPos_PHASE).set1 F.vatCtl_INIT
  s.wr F.vatStatus_BANKS ((List.range 64).filter fun k => s.flag (F.vatBankStatus_IN_HASH k)).length

/-- VAT_REINIT: firmware starts an initialisation, unless a pipe or stream is enabled (R76). -/
def execVatReinit (s : State) : Out := .next (if s.scanning then s else vatInitStart s)

/-- The zero-fill completes: READY, the per-bank counters zeroed, VAT_INIT_DONE raised (R76, R102). -/
def vatInitEnd (s : State) : State :=
  let s := (s.wr F.vatStatus_STATE 2).clr F.vatCtl_INIT
  let s := s.forN 64 fun k s =>
    ((((((((if s.rd (F.vatBankStatus_PWR k) = 0 then s.clr (F.vatBankStatus_FILLING k) else s)).clr (F.vatBankErr_CE k)).clr (F.vatBankErr_UE k)).clr (F.vatBankErr_PAR k)).clr
      (F.vatBankErr_PARKED k)).clr (F.vatBankConflict_COUNT k)).clr (F.vatBankC0max_WAIT k))
  let s := (((s.clr F.vatBgtPos_PASSES).clr F.vatBgtFail_VALID).clr F.vatBgtFail_COUNT).clr F.vatErrLast_VALID
  raise 448 { s.clr F.rindC0Worst_CCLK with vat := { s.vat with ueSince := [], ceStamps := [] } }

/-- VAT_INIT_DONE: the initialisation in progress ends (R76). -/
def execVatInitDone (s : State) : Out := .next (if s.rd F.vatStatus_STATE = 1 then vatInitEnd s else s)

/-! ### Accesses -/

/-- What an access returned is kept for its requester. -/
def keepResp (d : List Byte) (e : Bool) (s : State) : State := { s with vat := { s.vat with respData := d, respError := e } }

/-- A write through an alias, within one line; to one that does not reach the aliases it is a decode error (R26, R29, R94). -/
def aliasWrite (who : Initiator) (kind : WriteKind) (off : Nat) (data : List Byte) (err : VatErr) (s : State) : State :=
  if reaches who .setAlias then
    let (e, s) := lineWrite who off ((data.take (64 - off % 64)).map some) kind err s
    keepResp [] e s
  else keepResp [] true (decodeError who (kind.base + off) s)

/-- VAT_SET_ALIAS_WRITE: the data is ORed into the Vat bytes in one read-modify-write; the data stays within one line
(R94, R95). -/
def execVatSetAliasWrite (who : Initiator) (off : Fin 0x10000000) (data : List Byte) (err : VatErr) (s : State) : Out :=
  .next (aliasWrite who .setBits off.val data err s)

/-- VAT_CLEAR_ALIAS_WRITE: the data's one bits are cleared in the Vat bytes in one read-modify-write (R94, R95). -/
def execVatClearAliasWrite (who : Initiator) (off : Fin 0x10000000) (data : List Byte) (err : VatErr) (s : State) : Out :=
  .next (aliasWrite who .clearBits off.val data err s)

/-- VAT_CE_WRITEBACK: the oldest corrected word of a bank is written back; its data was already corrected (R86). -/
def execVatCeWriteback (k : Fin 64) (s : State) : Out :=
  .next (match s.vat.ceQueue.find? fun c => c.1 == k.val with
    | none => s
    | some c => { s with vat := { s.vat with ceQueue := s.vat.ceQueue.erase c } })

/-- VAT_C0_RES_APPLY: the reservation parameter takes effect at the bank's wheel position 0 (R80). -/
def execVatC0ResApply (k : Fin 64) (s : State) : Out :=
  .next { s with vat := { s.vat with c0Res := s.vat.c0Res.set k.val (min 4 (s.rd F.vatCtl_C0_RES)) } }

/-! ### Bank power (R82 to R85) -/

/-- The contents of a bank lost. -/
def clearBank (k : Nat) (s : State) : State :=
  { s with vat := { s.vat with
      data := s.vat.data.filter (fun c => c.1 / 0x400000 != k),
      poison := s.vat.poison.filter (fun w => w / 0x40000 != k) } }

/-- A region of the background test open in a bank is restored and closed, because the bank leaves ON (R82). The spec does not say that
such a region counts as tested, untested or skipped: VAT_BGT_POS stays on it and nothing is counted (DESIGN CHOICE, assumption 123). -/
def bgtRestored (k : Nat) (s : State) : State :=
  if s.vat.bgt.any fun b => b.bank == k then { s.clr F.vatBgtPos_PHASE with vat := { s.vat with bgt := none } } else s

/-- A bank is commanded to a power state (R82). A command of 3 is ignored (R102). A command during a transition waits until that
transition is complete (DESIGN CHOICE, assumption 125). A zero-fill that the entry to ON brings shows in FILLING (R102), and one that the
bank leaves ON amid ends there, with contents that are not valid (DEDUCED, assumption 144). -/
def bankCommand (k target : Nat) (s : State) : State :=
  if 3 ≤ target then s
  else if s.vat.moving.any fun m => m.1 == k then
    { s with vat := { s.vat with queued := (k, target) :: s.vat.queued.filter fun m => m.1 != k } }
  else
    let now := s.rd (F.vatBankStatus_PWR k)
    if now = target then s
    else
      -- a zero-fill that the bank's leaving ON cuts short leaves no valid contents
      let from_ := if s.flag (F.vatBankStatus_FILLING k) then 2 else now
      let s := ((bgtRestored k s).wr (F.vatBankStatus_PWR k) 3).clr (F.vatBankStatus_FILLING k)
      let s := s.iff (target == 0 && (now == 2 || s.flag (F.vatBankStatus_RET_VOID k))) (·.set1 (F.vatBankStatus_FILLING k))
      { s with vat := { s.vat with moving := (k, from_, target) :: s.vat.moving } }

/-- A valid thermal sensor reads above 125 °C (R85). -/
def State.above125 (s : State) : Bool :=
  (List.range 12).any fun i => s.flag (F.cellarTemp_VALID i) && (2000 : Int) < signedAt 16 (s.rd (F.cellarTemp_TEMP i))

/-- A bank in RETENTION above 125 °C is void: flagged, raised and logged (R85). One whose RET_VOID is already set raises and logs nothing
more (DESIGN CHOICE, assumption 150). -/
def voidBank (k : Nat) (s : State) : State :=
  if s.rd (F.vatBankStatus_PWR k) = 1 ∧ s.flag (F.vatBankStatus_RET_VOID k) = false then
    logEvent 0x0302 2 k 0 (raise 456 (s.set1 (F.vatBankStatus_RET_VOID k))) else s

/-- A bank reaches the state it was moving to (R82, R85). RET_VOID ends only with a zero-fill, on entry to ON. -/
def bankArrive (k from_ target : Nat) (s : State) : State :=
  let s := { s.wr (F.vatBankStatus_PWR k) target with vat := { s.vat with moving := s.vat.moving.filter fun m => m.1 != k } }
  match target with
  | 0 =>
    let s := if from_ = 2 ∨ s.flag (F.vatBankStatus_RET_VOID k) then clearBank k s else s
    raise 455 ((s.clr (F.vatBankStatus_RET_VOID k)).clr (F.vatBankStatus_FILLING k))
  | 1 =>
    let s := if from_ = 2 then clearBank k (s.set1 (F.vatBankStatus_RET_VOID k)) else s
    s.iff s.above125 (voidBank k)
  | _ => clearBank k s

/-- VAT_BANK_TRANSITION_DONE: a commanded transition completes, and a command that waited for it follows (R82). -/
def execVatBankTransitionDone (k : Fin 64) (s : State) : Out :=
  .next (match s.vat.moving.find? fun m => m.1 == k.val with
    | none => s
    | some (_, f, t) =>
      let s := bankArrive k.val f t s
      match s.vat.queued.find? fun m => m.1 == k.val with
      | none => s
      | some m => bankCommand k.val m.2 { s with vat := { s.vat with queued := s.vat.queued.filter fun m => m.1 != k.val } })

/-- A bank takes its P3 state (R84). A transition in progress, or an unfinished zero-fill, leaves contents that are not valid. -/
def bankP3 (k : Nat) (s : State) : State :=
  let s := bgtRestored k s
  let now := (s.vat.moving.find? fun m => m.1 == k).elim (s.rd (F.vatBankStatus_PWR k)) fun m => if m.2.2 = 2 then 2 else m.2.1
  let now := if s.flag (F.vatBankStatus_FILLING k) then 2 else now
  let s := { s.clr (F.vatBankStatus_FILLING k) with vat := { s.vat with queued := s.vat.queued.filter fun m => m.1 != k } }
  bankArrive k now (if s.rd (F.vatBankCtl_P3_PWR k) == 2 then 2 else 1) s

/-! ### Scrubbing (R91, R92) -/

/-- SCRUB_LINE: the patrol scrubber, or the full scrub of a bank's retry, reads one line of a bank in ON, correcting or poisoning its
words (R91, R92). -/
def execScrubLine (k : Fin 64) (row : Fin 65536) (err : VatErr) (s : State) : Out :=
  .next (if (s.flag F.vatCtl_SCRUB_EN || s.vat.scrubbing.contains k.val) && s.bankServes k.val then
    if err = .parity then addressParity k.val row.val s
    else s.forN 4 fun w s => (readWord k.val row.val w err s).1
  else s)

/-- VAT_BANK_SCRUB_DONE: a full-bank scrub ends; with no new burst the bank leaves SUSPECT, with one the attempt failed
(R92, R559). -/
def execVatBankScrubDone (k : Fin 64) (s : State) : Out :=
  .next (if !s.vat.scrubbing.contains k.val then s
  else
    let again := s.vat.scrubBurst.contains k.val
    let left := if again then s.vat.scrubbing else s.vat.scrubbing.filter (· != k.val)
    let s := { s with vat := { s.vat with scrubBurst := s.vat.scrubBurst.filter (· != k.val), scrubbing := left } }
    let s := endAttempt (unitId 4 k.val) (!again) s
    if !again && s.unitState (unitId 4 k.val) = 1 then setUnitState (unitId 4 k.val) 0 2 s else s)

/-! ### The transparent background test (R97 to R99) -/

/-- VAT_BGT_POS moved one region on; the wrap past the last region of the device is a pass (R97). -/
def bgtAdvance (s : State) : State :=
  if s.rd F.vatBgtPos_BANK < 63 then s.wr F.vatBgtPos_BANK (s.rd F.vatBgtPos_BANK + 1)
  else
    let s := s.clr F.vatBgtPos_BANK
    if s.rd F.vatBgtPos_REGION < 1023 then s.wr F.vatBgtPos_REGION (s.rd F.vatBgtPos_REGION + 1)
    else raise 459 ((s.clr F.vatBgtPos_REGION).inc F.vatBgtPos_PASSES)

/-- The regions of banks not in ON are passed over (R97), and those of RETIRED banks with them, which refuse every access (DESIGN CHOICE,
assumption 124); `fuel` bounds the banks. -/
def bgtSkipOff : Nat → State → State
  | 0, s => s
  | fuel + 1, s => if s.bankServes (s.rd F.vatBgtPos_BANK) then s else bgtSkipOff fuel (bgtAdvance s)

/-- BGT_REGION_OPEN: the next region opens and its save begins (R97). -/
def execBgtRegionOpen (s : State) : Out :=
  .next (if s.flag F.vatCtl_BGT_EN && s.vat.bgt.isNone && (List.range 64).any s.bankServes then
    let s := bgtSkipOff 64 s
    { s.wr F.vatBgtPos_PHASE 1 with
      vat := { s.vat with bgt := some { bank := s.rd F.vatBgtPos_BANK, region := s.rd F.vatBgtPos_REGION } } }
  else s)

/-- The phase of an open region, as far as the slots given to the test have brought it: save, march, restore, never backward (R97, R98).
How many slots it had is not stated, so the phase moves on by a free value. -/
def bgtProgress (s : State) : State :=
  if s.vat.bgt.isNone then s
  else
    let (i, s) := s.fresh
    s.wr F.vatBgtPos_PHASE (max (s.rd F.vatBgtPos_PHASE) (1 + Config.bgtPhase i % 3))

/-- A repair-map entry offered at runtime, where the bank has a spare row left (R571, R579). -/
def offerRepair (id sub addr limit : Nat) (s : State) : State :=
  let mine := (s.fault.map ++ s.fault.mapNew).filter fun e => e.id == id && e.sub == sub && e.spare != 0xFF
  let used := mine.length
  if limit ≤ used || mine.any fun e => e.addr == addr then s
  else
    let e : MapEntry := { id := id, sub := sub, spare := used, addr := addr }
    logEvent 0x0806 0 (id + sub * 2 ^ 16) addr
      { s.set1 F.fltMap_PENDING with fault := { s.fault with mapNew := s.fault.mapNew ++ [e] } }

/-- A bit failed the march test: recorded, and offered to the repair map (R99). -/
def bgtFail (b : BgtRun) (f : BgtBit) (s : State) : State :=
  let row := b.region * 64 + f.row.val
  let s := ((((s.wr F.vatBgtFail_BANK b.bank).wr F.vatBgtFail_ROW row).wr F.vatBgtFail_WORD f.word.val).wr
    F.vatBgtFail_BIT f.bitNo.val).set1 F.vatBgtFail_VALID
  offerRepair (unitId 4 b.bank) 0 row 32 s

/-- The failing bits of a region, in the order found; together they are one failing region and one upset (R92, R99). -/
def bgtFails (b : BgtRun) (l : List BgtBit) (s : State) : State :=
  if l.isEmpty then s
  else
    let s := raise 458 (s.inc F.vatBgtFail_COUNT)
    let s := upset (unitId 4 b.bank) 8 (s.forL l (bgtFail b))
    -- the retry is a full scrub of the bank (R557)
    if (s.fltUnit (unitId 4 b.bank)).retrying && !s.vat.scrubbing.contains b.bank then
      { s with vat := { s.vat with scrubbing := b.bank :: s.vat.scrubbing } }
    else s

/-- The open region closes. -/
def bgtClose (s : State) : State :=
  bgtAdvance { s.clr F.vatBgtPos_PHASE with vat := { s.vat with bgt := none } }

/-- BGT_REGION_CLOSE: save, march and restore are complete and VAT_BGT_POS advances (R97, R99). -/
def execBgtRegionClose (fails : List BgtBit) (s : State) : Out :=
  .next (match s.vat.bgt with
    | none => s
    | some b => bgtClose (bgtFails b fails s))

/-- BGT_REGION_SKIP: a region without its slots is restored, closed untested and counted (R98). -/
def execBgtRegionSkip (s : State) : Out :=
  .next (match s.vat.bgt with
    | none => s
    | some _ => bgtClose (s.inc F.vatBgtSkipped_COUNT))

end Sys2Proof.Machine
end

