-- ==== Sys2Proof/Machine/Memory.lean ====
section
/-! DEFINITION. Reads and writes of device memory that need no register bus: the Vat and the LP5X (R25, R26, R29, R563). -/

namespace Sys2Proof.Machine

/-- The bits set in a number of `n` bits. -/
def bitsSet (n v : Nat) : List Nat := (List.range n).filter (bitAt v)

/-- The installed capacity, which falls by the share of each channel left out of the interleave (R26, R563). -/
def State.lp5xTop (s : State) : Nat := Config.lp5xTotal / 16 * (bitsSet 16 s.lp.channels).length

/-- An LP5X access reaches a channel in service: not in self-refresh, and not retired since the last initialisation (R534, R563). -/
def State.lp5xServes (s : State) (a : Nat) : Bool :=
  !s.flag F.pwrStatus_LP5X_SR && !bitAt s.lp.out (Config.lp5xChannel s.lp.channels a % 16)

/-- Bytes read from the Vat or the LP5X; any other address is a decode error (R26, R29). The flag is a bus error or
poison. -/
def memRead (who : Initiator) (a n : Nat) (s : State) : List Byte × Bool × State :=
  if isVat a then vatRead who vatBase (n / 64 + 2) (a - vatBase) n s
  else if isLp5x a && a + n ≤ s.lp5xTop then
    if s.lp5xServes a then (s.bytesAt a n, false, s) else (onesBytes n, true, s)
  else (onesBytes n, true, decodeError who a s)

/-- Bytes written to the Vat or the LP5X; any other address is a decode error (R26, R29). The flag is a bus error. -/
def memWrite (who : Initiator) (a : Nat) (bs : List Byte) (s : State) : Bool × State :=
  if isVat a then vatWrite who .plain (bs.length / 64 + 2) (a - vatBase) bs s
  else if isLp5x a && a + bs.length ≤ s.lp5xTop then
    if s.lp5xServes a then (false, s.setBytes a bs) else (true, s)
  else (true, decodeError who a s)

/-- A read repeated over a list, in order, up to the first that fails: what a line or an object draws is lost with it (R90, R137). -/
def readAll {α β : Type} (f : α → State → β × Bool × State) : List α → State → List β × Bool × State
  | [], s => ([], false, s)
  | a :: t, s =>
    let (b, e, s) := f a s
    if e then ([b], true, s)
    else
      let (bs, e, s) := readAll f t s
      (b :: bs, e, s)

end Sys2Proof.Machine
end

