-- ==== Sys2Proof/Machine/Pixels.lean ====
section
/-! DEFINITION. Pixels: the direct-colour formats and their expansion to 12 bits, YCbCr conversion (R120 to R124). -/

namespace Sys2Proof.Machine

/-- The transparent pixel (R113). -/
def Px.clear : Px := ⟨0, 0, 0, 0⟩

/-- A component of `w` bits widened to 12 by repeating its bits from the top, or a 16-bit one rounded down (R121). -/
def widen12 (w v : Nat) : Nat :=
  if 12 ≤ w then (if w = 16 then min ((v + 8) / 16) 4095 else v)
  else if w = 0 then 4095
  else
    -- the bits repeated past 12, then cut to 12
    let reps := 12 / w + 1
    let all := (List.range reps).foldl (fun a _ => a * 2 ^ w + v) 0
    all / 2 ^ (w * reps - 12)

/-- A field widened to 12 bits: `w` bits at `lo`. -/
def comp12 (word lo w : Nat) : Nat := widen12 w (bitsAt word lo w)

/-- Bytes per pixel of a direct-colour code of R120. -/
def directBytes (code : Nat) : Nat := [2, 2, 2, 3, 4, 4, 6, 8, 1].getD code 4

/-- A direct-colour code of R120. -/
def isDirect (code : Nat) : Bool := code ≤ 8

/-- A direct-colour pixel expanded to RGBA 12:12:12:12 (R120, R121); `const` colours format A 8. -/
def directPx (code word const : Nat) : Px :=
  match code with
  | 0 => ⟨comp12 word 11 5, comp12 word 5 6, comp12 word 0 5, 4095⟩
  | 1 => ⟨comp12 word 11 5, comp12 word 6 5, comp12 word 1 5, comp12 word 0 1⟩
  | 2 => ⟨comp12 word 12 4, comp12 word 8 4, comp12 word 4 4, comp12 word 0 4⟩
  | 3 => ⟨comp12 word 16 8, comp12 word 8 8, comp12 word 0 8, 4095⟩
  | 4 => ⟨comp12 word 24 8, comp12 word 16 8, comp12 word 8 8, comp12 word 0 8⟩
  | 5 => ⟨comp12 word 22 10, comp12 word 12 10, comp12 word 2 10, comp12 word 0 2⟩
  | 6 => ⟨bitsAt word 36 12, bitsAt word 24 12, bitsAt word 12 12, bitsAt word 0 12⟩
  | 7 => ⟨comp12 word 48 16, comp12 word 32 16, comp12 word 16 16, comp12 word 0 16⟩
  | _ => ⟨bitsAt const 24 12, bitsAt const 12 12, bitsAt const 0 12, comp12 word 0 8⟩

/-- A pixel of 64 bits R, G, B, A at 12 bits each, as palettes hold it. -/
def wordPx (w : Nat) : Px := ⟨bitsAt w 36 12, bitsAt w 24 12, bitsAt w 12 12, bitsAt w 0 12⟩

/-- Round an exact fraction to the nearest integer, halves upward; the denominator is positive. -/
def roundInt (num : Int) (den : Nat) : Int := (2 * num + den) / (2 * den)

/-- An exact fraction rounded and limited to 12 bits. -/
def round12 (num : Int) (den : Nat) : Nat := (clampInt 0 4095 (roundInt num den)).toNat

/-- The luma weights Kr and Kb in 1/10,000 of BT.601, BT.709 and BT.2020, by the CSC code (R124; PRESUMED, assumption 6: the
three ITU recommendations R124 names give them). -/
def csc (code : Nat) : Nat × Nat := match code with | 0 => (2990, 1140) | 2 => (2627, 593) | _ => (2126, 722)

/-- R124: a luma value in units of 1/1,023 and chroma values in eighths of a 10-bit step, converted to RGB. The chroma values
are exact sums of interpolation weights, so the one rounding is the last. -/
def yccPx (code : Nat) (full : Bool) (y cb8 cr8 : Nat) : Px :=
  let (kr, kb) := csc code
  let kg := 10000 - kr - kb
  -- with ranges dy for luma and dc for chroma, E'Y = yn / dy and E'C = cn / (8 dc)
  let (yn, dy, dc) : Int × Nat × Nat := if full then ((y : Int), 1023, 1023) else ((y : Int) - 64, 876, 896)
  let cb : Int := (cb8 : Int) - 8 * 512
  let cr : Int := (cr8 : Int) - 8 * 512
  -- over the common denominator dy * 8 * dc * 10000 * kg
  let den := dy * 8 * dc * 10000 * kg
  let ey : Int := yn * (8 * dc * 10000 * kg : Nat)
  let er : Int := ey + cr * (2 * (10000 - kr) * dy * kg : Nat)
  let eb : Int := ey + cb * (2 * (10000 - kb) * dy * kg : Nat)
  let eg : Int := ey - cr * (2 * (10000 - kr) * dy * kr : Nat) - cb * (2 * (10000 - kb) * dy * kb : Nat)
  ⟨round12 (er * 4095) den, round12 (eg * 4095) den, round12 (eb * 4095) den, 4095⟩

/-- A quotient whose rounding the spec does not state: the integer below it, or the one above (assumption 4). -/
def freeRound (num den : Nat) : Nat := num / den + bit (num % den != 0 && Config.roundsUp num den)

/-- The weighted sum of four samples by the 6-bit fractions of x and y, over 4,096 (R128, R154). -/
def bilinearSum (fx fy : Nat) (l : List Nat) : Nat :=
  (64 - fx) * (64 - fy) * l.getD 0 0 + fx * (64 - fy) * l.getD 1 0 + (64 - fx) * fy * l.getD 2 0 + fx * fy * l.getD 3 0

/-- A pixel's alpha multiplied (R121). -/
def Px.fade (p : Px) (alpha : Nat) : Px := { p with a := divRound (p.a * alpha) 4095 }

end Sys2Proof.Machine
end

