-- ==== Sys2Proof/Machine/Raster.lean ====
section
/-! DEFINITION. Values in force behind their registers (frame-latched and per-line), the pipes' geometry, the sources of a
pipe (R198), and the pipe locks (R56 to R63). -/

namespace Sys2Proof.Machine

/-! ### Latched values (R131, R132, R200) -/

/-- A frame-latched field as the last latch took it. -/
def State.lat (s : State) (f : Fld) : Nat := Sparse.get f.key f.reset s.latched % 2 ^ f.width

/-- A frame-latched bit in force. -/
def State.latFlag (s : State) (f : Fld) : Bool := s.lat f != 0

/-- A per-line field as the last snapshot took it. -/
def State.snp (s : State) (f : Fld) : Nat := Sparse.get f.key f.reset s.snap % 2 ^ f.width

/-- The part of a store with keys in `[lo, hi)` replaced by the same part of another. -/
def moveRange {β : Type} (lo hi : Nat) (src dst : List (Nat × β)) : List (Nat × β) :=
  dst.filter (fun c => c.1 < lo) ++ src.filter (fun c => lo ≤ c.1 && c.1 < hi) ++ dst.filter (fun c => max lo hi ≤ c.1)

/-- The key of IRS offset `off` in retention group `g`. -/
def offKey (g off : Nat) : Nat := g * 2 ^ 30 + off * 64

/-- The registers at offsets `[lo, hi)` latch: classes STICKY and WARM, which hold every frame-latched register. -/
def latchRange (lo hi : Nat) (s : State) : State :=
  let sticky := moveRange (offKey 0 lo) (offKey 0 hi) s.cells s.latched
  { s with latched := moveRange (offKey 1 lo) (offKey 1 hi) s.cells sticky }

/-- The WARM registers at offsets `[lo, hi)` are copied into the per-line snapshot. -/
def snapRange (lo hi : Nat) (s : State) : State :=
  { s with snap := moveRange (offKey 1 lo) (offKey 1 hi) s.cells s.snap }

/-! ### Records of a list by index -/

/-- A list with its `i`-th member changed. -/
def modAt {α : Type} (l : List α) (i : Nat) (f : α → α) : List α := l.modify i f

/-! ### Pipe geometry (R169, R200) -/

/-- 14-bit sizes where 0 stands for 8,192. -/
def size14 (v : Nat) : Nat := if v = 0 then 8192 else v

def State.hactive (s : State) (p : Nat) : Nat := size14 (s.lat (F.pipeH_HACTIVE p))
def State.htotal (s : State) (p : Nat) : Nat := s.lat (F.pipeH_HTOTAL_M1 p) + 1
def State.vactive (s : State) (p : Nat) : Nat := size14 (s.lat (F.pipeV_VACTIVE p))
def State.vmin (s : State) (p : Nat) : Nat := s.lat (F.pipeV_VBLANK_MIN p)
def State.vmax (s : State) (p : Nat) : Nat := s.lat (F.pipeVmax_VBLANK_MAX p)
def State.pipeHz (s : State) (p : Nat) : Nat := s.lat (F.pipeFreq_HZ p)

/-- Pipe `p` beside its registers. -/
def State.pipe (s : State) (p : Nat) : PipeRun := s.pipes.getD p pipe0

/-- Pipe `p`'s own state changed. -/
def onPipe (p : Nat) (f : PipeRun → PipeRun) (s : State) : State := { s with pipes := modAt s.pipes p f }

/-- A pipe is enabled and scanning or about to: its state is not OFF (R202). -/
def State.pipeOn (s : State) (p : Nat) : Bool := s.rd (F.pipeStatus_STATE p) != 0

/-- Edge source `i` of pipe `p`, at most once per pipe frame; RELEASE (3) each time (R198). -/
def pipeRaise (p i : Nat) (s : State) : State :=
  if i != 3 && bitAt (s.pipe p).raised i then s
  else raise (32 + 12 * p + i) (onPipe p (fun r => { r with raised := r.raised ||| 2 ^ i }) s)

/-! ### Pipe locks (R56 to R63) -/

def P.lockEn (n : Nat) : Prm := ⟨0x2100 + n * 0x10, 0, .warm⟩
def P.lockNum (n : Nat) : Prm := ⟨0x2101 + n * 0x10, 1, .warm⟩
def P.lockDen (n : Nat) : Prm := ⟨0x2102 + n * 0x10, 1, .warm⟩
def P.lockPhase (n : Nat) : Prm := ⟨0x2103 + n * 0x10, 0, .warm⟩
def P.lockSlewPpm (n : Nat) : Prm := ⟨0x2104 + n * 0x10, 5000, .warm⟩
def P.lockFixed (n : Nat) : Prm := ⟨0x2105 + n * 0x10, 0, .warm⟩

def State.lock (s : State) (n : Nat) : LockRun := s.ref.locks.getD n lock0

def onLock (n : Nat) (f : LockRun → LockRun) (s : State) : State :=
  { s with ref := { s.ref with locks := modAt s.ref.locks n f } }

/-- A ratio field: values outside 1 to 8 are taken as 1 (R69). -/
def ratio (v : Nat) : Nat := if 1 ≤ v ∧ v ≤ 8 then v else 1

def State.lockRatioNum (s : State) (n : Nat) : Nat := ratio (s.rd (F.lockCtl_NUM n))
def State.lockRatioDen (s : State) (n : Nat) : Nat := ratio (s.rd (F.lockCtl_DEN n))

/-- SLEW as firmware derives it from the parameter and the pipe's frequency (R59). -/
def deriveSlew (ppm hz : Nat) : Nat :=
  let want := min 20 (ppm / 250)
  if hz = 0 then want else min want ((1600000000 - hz) * 1000000 / (250 * hz))

/-- The reference dots of `dots` pipe dots at the nominal frequency: round(dots × f_dot / f_pipe) (R63). -/
def State.pipeDots (s : State) (p dots : Nat) : Nat :=
  let (n, d) := s.ref.setting.freq
  divRound (dots * n) (d * max 1 (s.pipeHz p))

/-- Reference dots from a frame's start to dot `d` of its line `l` (R63). -/
def State.lineDots (s : State) (p l d : Nat) : Nat := s.pipeDots p (l * s.htotal p + d)

/-- The reference stamp of dot `d` of line `l` of the frame that LOCK_n_FSTAMP records (R63). -/
def State.pipeStamp (s : State) (p l d : Nat) : Nat := s.advance (s.rd (F.lockFstamp_STAMP p)) (s.lineDots p l d)

/-- Fixed-blanking mode: as the parameter says, and always where the pipe's blanking minimum equals its maximum (R70). -/
def State.lockFixedNow (s : State) (n : Nat) : Nat :=
  if s.rd (F.pipeV_VBLANK_MIN n) = s.rd (F.pipeVmax_VBLANK_MAX n) then 1 else s.prm (P.lockFixed n)

/-- The lock's parameters reach its registers (R70). -/
def lockApply (n : Nat) (s : State) : State :=
  let s := (s.wr (F.lockCtl_NUM n) (s.prm (P.lockNum n))).wr (F.lockCtl_DEN n) (s.prm (P.lockDen n))
  let s := (s.wr (F.lockPhase_LINE n) (s.prm (P.lockPhase n) / 65536)).wr (F.lockPhase_DOT n) (s.prm (P.lockPhase n) % 65536)
  let s := s.wr (F.lockCtl_FIXED n) (s.lockFixedNow n)
  s.wr (F.lockCtl_SLEW n) (deriveSlew (s.prm (P.lockSlewPpm n)) (s.rd (F.pipeFreq_HZ n)))

/-- The anchor target of lock `n` for anchor frame `frame` (R57). -/
def State.anchorTarget (s : State) (n frame shift : Nat) : Nat :=
  s.advance (stampOf frame 0 0) (s.rd (F.lockPhase_LINE n) * s.ref.setting.dots + s.rd (F.lockPhase_DOT n) + shift)

/-- The lock is enabled on an enabled pipe (R60). -/
def State.lockOn (s : State) (n : Nat) : Bool := s.flag (F.lockCtl_EN n) && s.pipeOn n

/-- A lock is enabled or restarted: PULLING, and the first anchor frame is the first whose target lies ahead
(R47, R56, R60, R62). The frequency that the last anchor set holds until the next anchor pipe frame (R59). -/
def lockRestart (n : Nat) (s : State) : State :=
  let was := s.rd (F.lockStatus_STATE n)
  let frame := s.rd F.beamNow_FRAME
  let ahead := !reached (s.anchorTarget n frame 0) s.now
  let s := onLock n (fun r => { r with anchorFrame := if ahead then frame else (frame + 1) % 65536, since := none, shift := 0 }) s
  let s := (s.wr (F.lockStatus_STATE n) 1).clr (F.lockStatus_ERROR n)
  if was = 2 then pipeRaise n 8 s else s

/-- A lock is OFF (R60). The spec does not say what the frequency does when the lock is turned OFF in mid-slew: it drops to nominal at
once, and SLEWING and SLOW with it (DESIGN CHOICE, assumption 129). -/
def lockOff (n : Nat) (s : State) : State :=
  onLock n (fun _ => lock0)
    ((((s.clr (F.lockStatus_STATE n)).clr (F.lockStatus_ERROR n)).clr (F.lockStatus_SLEWING n)).clr (F.lockStatus_SLOW n))

/-- abs(E) is at most one pipe line period: HTOTAL / f_pipe in reference dots (R59, R60). -/
def State.withinLine (s : State) (n : Nat) (e : Nat) : Bool :=
  let (fn, fd) := s.ref.setting.freq
  e * s.pipeHz n * fd ≤ s.htotal n * fn

/-- The next pipe frame is an anchor pipe frame: none was taken yet, NUM frames have started since the last anchor, or the
anchor frame has begun (R56; DEDUCED, assumption 8). -/
def State.nextIsAnchor (s : State) (n : Nat) : Bool :=
  match (s.lock n).since with
  | none => true
  | some k => s.lockRatioNum n ≤ k || reached (stampOf (s.lock n).anchorFrame 0 0) s.now

/-- The anchor target of the next anchor pipe frame is reached (R58 condition 2). -/
def State.anchorReached (s : State) (n : Nat) : Bool :=
  reached (s.anchorTarget n (s.lock n).anchorFrame (s.lock n).shift) s.now

/-- The slew target of an anchor with error `e`: 0 nominal, 1 raised, 2 lowered (R59). With SLEW 0 every target is the nominal
frequency. -/
def State.slewFor (s : State) (n : Nat) (e : Int) : Nat :=
  if s.rd (F.lockCtl_SLEW n) = 0 || s.withinLine n e.natAbs then 0 else if 0 < e then 1 else if s.flag (F.lockCtl_FIXED n) then 2 else 0

/-- SLEWING and SLOW of the frame that starts: off nominal at its start or at its end (R59, R69). In a frame whose ramp runs between
raised and lowered, SLOW is 1 (DESIGN CHOICE, assumption 131: the spec does not say which direction it shows). -/
def showSlew (n old new : Nat) (s : State) : State :=
  (s.wr (F.lockStatus_SLEWING n) (bit (old != 0 || new != 0))).wr (F.lockStatus_SLOW n) (bit (old == 2 || new == 2))

/-- What an anchor shows and keeps, given the error it has measured, the anchor's frame, the shift and the slew (R57 to R63). -/
def lockMeasured (n : Nat) (e : Int) (frame shift : Nat) (told : Bool) (slew : Nat) (s : State) : State :=
  let was := s.rd (F.lockStatus_STATE n)
  let now := if s.withinLine n e.natAbs then 2 else 1
  let s := s.wr (F.lockStatus_ERROR n) (unsignedAt 24 (clampInt (-8388607) 8388607 e))
  let s := s.wr (F.lockStatus_STATE n) now
  let s := showSlew n (s.lock n).slew slew s
  let s := lockApply n s
  let s := onLock n (fun r => { r with anchorFrame := (frame + s.lockRatioDen n) % 65536, since := some 1, shift := shift, slew := slew }) s
  let s := if told then pipeRaise n 10 s else s
  if now = was then s else pipeRaise n (if now = 2 then 9 else 8) s

/-- An anchor pipe frame starts: E measured, taken modulo the anchor period or re-anchored, and the state and slew set
(R57, R59 to R61). New lock parameters take effect after the measure (R70). The shift of a re-anchored target stays for all later
anchors of the lock, until it restarts (DESIGN CHOICE, assumption 132: R61 says only that the anchor target moves). -/
def lockAnchor (n : Nat) (s : State) : State :=
  let r := s.lock n
  let den := s.lockRatioDen n
  let frameDots := s.ref.setting.lines * s.ref.setting.dots
  let period : Int := (den * frameDots : Nat)
  let e := s.dotsBetween (s.anchorTarget n r.anchorFrame r.shift) s.now
  -- k periods bring E into (-period/2, period/2]
  let k : Int := if period = 0 then 0 else -((period - 2 * e) / (2 * period))
  let slip := decide (period < 2 * (e.natAbs : Int))
  let frame := if slip then (((r.anchorFrame : Int) + k * den) % 65536).toNat else r.anchorFrame
  let e := if slip then e - k * period else e
  let stuck := s.rd (F.lockCtl_SLEW n) == 0 && decide (0 < e) && !s.withinLine n e.natAbs
  let shift := if stuck then r.shift + e.toNat else r.shift
  let e := if stuck then 0 else e
  lockMeasured n e frame shift (slip || stuck) (s.slewFor n e) s

/-- The lock's part in a pipe frame start (R56 to R63). -/
def lockFrameStart (n : Nat) (s : State) : State :=
  let s := s.wr (F.lockFstamp_STAMP n) s.now
  if !s.lockOn n then s
  else if s.nextIsAnchor n then lockAnchor n s
  else
    let s := showSlew n (s.lock n).slew (s.lock n).slew s
    onLock n (fun r => { r with since := r.since.map (· + 1) }) s

end Sys2Proof.Machine
end

