-- ==== Sys2Proof/Machine/CoreOps.lean ====
section
/-! DEFINITION. The Syoft cores as the other blocks see them (R28, R254, R283 to R290): kinds and memories, their state shown in
the control registers, and the line starts and block boundaries that end a WAIT. -/

namespace Sys2Proof.Machine

/-- Cores 0 to 7 are sequencers, 8 to 11 audio cores, 12 the Cellar (R28). -/
def isSeq (k : Nat) : Bool := k < 8
def isAud (k : Nat) : Bool := 8 ≤ k && k < 12

/-- Device address of a core's program memory, and of its data memory (R28); the Cellar's own memories, which no other
initiator reaches, stand in the same places of slot 12. -/
def progBase (k : Nat) : Nat := 0x7000000000 + k * 0x100000
def dataBase (k : Nat) : Nat := progBase k + 0x80000

/-- Syllables of program memory and bytes of data memory (R283). -/
def progSize (k : Nat) : Nat := if isSeq k then 24576 else if isAud k then 49152 else 65536
def dataSize (k : Nat) : Nat := if isSeq k then 0xC000 else if isAud k then 0x60000 else 0x40000

def State.core (s : State) (k : Nat) : CoreRun := s.cores.getD k (core0 k)

def onCore (k : Nat) (f : CoreRun → CoreRun) (s : State) : State := { s with cores := modAt s.cores k f }

/-- SEQ_p_STATUS or AUD_CORE_c_STATUS: the state code and the PC (R302, R337). -/
def setCoreState (k st : Nat) (s : State) : State :=
  if isSeq k then s.wr (F.seqStatus_STATE k) st else if isAud k then s.wr (F.audCoreStatus_STATE (k - 8)) st else s

def showPc (k : Nat) (s : State) : State :=
  let pc := (s.core k).regs.pc.toNat
  if isSeq k then s.wr (F.seqStatus_PC k) pc else if isAud k then s.wr (F.audCoreStatus_PC (k - 8)) pc else s

/-- WAITCFG.MODE; 3 is taken as 0 (R289, R325). -/
def CoreRun.waitMode (r : CoreRun) : Nat := if r.waitCfg.toNat % 4 = 3 then 0 else r.waitCfg.toNat % 4

/-- An event that a held WAIT of core `k` may wait for has come. -/
def waitHit (k : Nat) (s : State) : State :=
  onCore k (fun r => match r.hold with
    | .wait _ => { r with hold := .wait true }
    | _ => r) s

/-- A line of pipe `p` starts: it ends a LINE wait that seeks it (R290). -/
def seqLine (p : Nat) (s : State) : State :=
  let r := s.core p
  if r.waitMode != 0 && (bitAt r.waitCfg.toNat 20 || bitsAt r.waitCfg.toNat 4 14 == s.rd (F.pipeStatus_LINE p) % 2 ^ 14) then
    waitHit p s
  else s

/-- A block boundary of audio core `c`: it ends a BLOCK wait (R325). -/
def audBlockEvent (c : Nat) (s : State) : State := if (s.core (8 + c)).waitMode != 0 then waitHit (8 + c) s else s

end Sys2Proof.Machine
end

