-- ==== Sys2Proof/Machine/CascadeOps.lean ====
section
/-! DEFINITION. The cascade as the other blocks use it: the route to a position (R502), flits made ready for a link (R519), and
accesses to the peer windows (R27, R523, R524). -/

namespace Sys2Proof.Machine

def State.link (s : State) (l : Nat) : CascLink := s.casc.links.getD l link0

def onCasc (f : CascState → CascState) (s : State) : State := { s with casc := f s.casc }

def onLink (l : Nat) (f : CascLink → CascLink) (s : State) : State := onCasc (fun c => { c with links := modAt c.links l f }) s

/-- The link is UP (R508). -/
def State.linkUp (s : State) (l : Nat) : Bool := s.rd (F.cascLStatus_STATE l) == 2

/-- This device's position, while it holds one (R502). -/
def State.myPos (s : State) : Nat := s.rd F.cascStatus_POSITION

/-- The link that leads to position `pos` of the chain: none for this device itself or where no device stands (R27, R502). -/
def State.routeTo (s : State) (pos : Nat) : Option Nat :=
  let me := s.myPos
  let up := s.rd F.cascStatus_UPSTREAM
  let n1 := s.casc.n1
  if !s.flag F.cascStatus_POS_VALID || s.rd F.cascStatus_DEVICES ≤ pos || pos == me then none
  else if me = 0 then some (if pos ≤ n1 then 1 else 0)
  else if me ≤ n1 then some (if me < pos && pos ≤ n1 then 1 - up else up)
  else some (if me < pos then 1 - up else up)

/-- A flit joins the queue of its kind on link `l`: class-0 lines, best-effort lines by channel, messages, audio (R511). -/
def pushFlit (l : Nat) (f : Flit) (s : State) : State :=
  onLink l (fun k => match f.body with
    | .line .. => if f.class0 then { k with c0 := k.c0 ++ [f] } else { k with best := modAt k.best f.channel (· ++ [f]) }
    | .audio .. => { k with audio := k.audio ++ [f] }
    | _ => { k with best := modAt k.best 4 (· ++ [f]) }) s

/-- A flit from this device to position `dst`; its sequence number is set at its launch. -/
def State.flitTo (s : State) (dst : Nat) (body : FlitBody) : Flit :=
  { dst := dst, src := s.myPos, class0 := false, channel := 0, seq := 0, body := body }

/-- The 112-byte parts of a line (R519). -/
def lineParts : Nat → List Byte → List (List Byte)
  | 0, _ => []
  | fuel + 1, d => if d.length ≤ 112 then [d] else d.take 112 :: lineParts fuel (d.drop 112)

/-- The number of a LINE flit's line. -/
def Flit.lineNo (f : Flit) : Option Nat := match f.body with | .line n .. => some n.toNat | _ => none

/-- The flits of a line to the neighbour on link `l` (R519). -/
def State.lineFlits (s : State) (l ch n : Nat) (class0 fs fe : Bool) (format : Nat) (d : List Byte) : List Flit :=
  let parts := lineParts (d.length / 112 + 1) d
  parts.zipIdx.map fun q =>
    { s.flitTo (s.rd (F.cascLStatus_PARTNER_POS l))
        (.line (BitVec.ofNat 14 n) (BitVec.ofNat 10 q.2) (fs && q.2 == 0) (fe && q.2 + 1 == parts.length) (Fin.ofNat 4 format) q.1) with
      class0 := class0, channel := ch }

/-- A flit of a line of channel `ch` and class `class0`, of line `upTo` or before. -/
def Flit.ofLine (ch upTo : Nat) (class0 : Bool) (f : Flit) : Bool :=
  f.channel == ch && f.class0 == class0 && f.lineNo.any (· ≤ upTo)

/-- How many lines of a channel have flits that link `l` has not launched (R193, R519). -/
def State.unsent (s : State) (l ch : Nat) (class0 : Bool) : Nat :=
  let k := s.link l
  (((k.c0 ++ k.best.getD ch []).filter (Flit.ofLine ch 16384 class0)).filterMap (·.lineNo)).eraseDups.length

/-- The flits of the lines up to `upTo` of a channel that link `l` has not launched are not sent (R519). -/
def unsend (l ch : Nat) (class0 : Bool) (upTo : Nat) (s : State) : State :=
  let keep (f : Flit) : Bool := !f.ofLine ch upTo class0
  onLink l (fun k => { k with c0 := k.c0.filter keep, best := modAt k.best ch fun q => q.filter keep }) s

/-- A composed line of a sending pipe handed to its link (R519). The flag tells that it cannot be sent, as the link is not UP; what
of the frame still waits is then not sent. -/
def sendLine (l ch n : Nat) (class0 fs fe : Bool) (format : Nat) (d : List Byte) (s : State) : Bool × State :=
  if !s.linkUp l then (true, unsend l ch class0 16384 s)
  else (false, (s.lineFlits l ch n class0 fs fe format d).foldl (fun s f => pushFlit l f s) s)

/-! ### The peer windows (R27, R523, R524) -/

/-- What a window offset maps at the peer, within which an access must stay (R523). -/
def windowMaps (off n : Nat) : Bool := off + n ≤ 0x30000000 || (0x30000000 ≤ off && off + n ≤ 0x31000000)

/-- One piece of a tunnelled access, of at most 64 bytes. It takes the answer that came for it; without one, the command is
blocked and the request is asked for (R524). A link that is not UP answers with a bus error at once. -/
def peerPiece (pos off len : Nat) (data : Option (List (Option Byte))) (s : State) : List Byte × Bool × State :=
  if s.casc.blocked then (onesBytes len, true, s)
  else
    let same (t : Tunnel) : Bool := t.pos == pos && t.off == off && t.len == len && t.data == data
    match s.casc.tunnels.find? same with
    | some t =>
      match t.answer with
      | some (e, d) =>
        (if e then onesBytes len else d, e, onCasc (fun c => { c with tunnels := c.tunnels.filter fun u => u.id != t.id }) s)
      | none => (onesBytes len, true, onCasc (fun c => { c with blocked := true }) s)
    | none =>
      let l := (s.routeTo pos).getD 0
      if !s.linkUp l then (onesBytes len, true, raise 472 (s.inc (F.cascLErr_TUNNEL l)))
      else
        let t : Tunnel := { id := s.casc.nextId, pos := pos, off := off, len := len, data := data, answer := none }
        (onesBytes len, true, onCasc (fun c => { c with blocked := true, ask := some t }) s)

/-- A read through a peer window, split at 64-byte boundaries; `fuel` bounds the pieces. -/
def peerRead (pos : Nat) : Nat → Nat → Nat → State → List Byte × Bool × State
  | 0, _, n, s => (onesBytes n, n != 0, s)
  | fuel + 1, off, n, s =>
    if n = 0 then ([], false, s)
    else
      let m := min n (64 - off % 64)
      let (d, e, s) := peerPiece pos off m none s
      let (d', e', s) := peerRead pos fuel (off + m) (n - m) s
      (d ++ d', e || e', s)

/-- A write through a peer window, split at 64-byte boundaries; `fuel` bounds the pieces. -/
def peerWrite (pos : Nat) : Nat → Nat → List (Option Byte) → State → Bool × State
  | 0, _, bs, s => (!bs.isEmpty, s)
  | fuel + 1, off, bs, s =>
    if bs.isEmpty then (false, s)
    else
      let m := 64 - off % 64
      let (_, e, s) := peerPiece pos off (bs.take m).length (some (bs.take m)) s
      let (e', s) := peerWrite pos fuel (off + m) (bs.drop m) s
      (e || e', s)

/-- The request of a tunnelled access placed in the message queue of its link (R524). -/
def sendRequest (t : Tunnel) (s : State) : State :=
  let m : Msg := match t.data with
    | none => .readReq t.id (BitVec.ofNat 32 t.off) (Fin.ofNat 65 t.len)
    | some d => .writeReq t.id (BitVec.ofNat 32 t.off) d
  pushFlit ((s.routeTo t.pos).getD 0) (s.flitTo t.pos (.msg m))
    (onCasc (fun c => { c with tunnels := c.tunnels ++ [t], nextId := c.nextId + 1 }) s)

/-- A command that may make tunnelled accesses. While one of them has no answer the command has no effect but to send that
access's request, and what `g` notes of its waiting; it is sent again once the answer has come (DESIGN CHOICE, assumption 24). -/
def withPeerElse (g f : State → State) (s : State) : State :=
  let s' := f (onCasc (fun c => { c with blocked := false, ask := none }) s)
  if s'.casc.blocked then
    g (match s'.casc.ask with
      | some t => sendRequest t s
      | none => s)
  else s'

/-- A command that may make tunnelled accesses, of whose waiting nothing is noted. -/
def withPeer (f : State → State) (s : State) : State := withPeerElse id f s

end Sys2Proof.Machine
end

