-- ==== Sys2Proof/Machine/PinOps.lean ====
section
/-! DEFINITION. The general-purpose pins as the other blocks see them: which function a pin carries, and the level an input
function reads (R592 to R594). -/

namespace Sys2Proof.Machine

/-- Pin `i` carries ALT function `alt`; during a change of function it carries none (R592, R593, R597). -/
def State.pinHas (s : State) (i alt : Nat) : Bool :=
  !s.flag (F.pinState_SWITCHING i) && (s.rd (F.pinCfg_MUX i) == alt || s.rd (F.pinCfg_OVL i) == alt)

/-- The level of pin `i` after INV_IN (R594). -/
def State.pinLevel (s : State) (i : Nat) : Bool := s.flag (F.pinState_SYNC i) != s.flag (F.pinCfg_INV_IN i)

/-- The level an input function reads: the OR over the pins that carry it, 0 where none does (R594). -/
def State.pinInput (s : State) (carries : Nat → Bool) : Bool :=
  (List.range 112).any fun i => carries i && s.pinLevel i

/-- The level of TMR_n_IN (R385, R592). -/
def State.timerIn (s : State) (n : Nat) : Bool :=
  s.pinInput fun i => (i % 64 == n && s.pinHas i 2) || ((i + 32) % 64 == n && s.pinHas i 10)

end Sys2Proof.Machine
end

