-- ==== Sys2Proof/Machine/Timers.lean ====
section
/-! DEFINITION. The timers (R383 to R400). Ticks of cclk and of reference dots have no command of their own: the commands that such a
timer meets carry how many have passed (DESIGN CHOICE, assumption 16). -/

namespace Sys2Proof.Machine

def State.timer (s : State) (n : Nat) : TimerRun := s.timers.runs.getD n timer0

def onTimer (n : Nat) (f : TimerRun → TimerRun) (s : State) : State :=
  { s with timers := { s.timers with runs := modAt s.timers.runs n f } }

/-- SLAVE modes (R390). -/
def State.timerSlave (s : State) (n : Nat) : Nat := s.rd (F.timerCtl_SLAVE n)

/-- A GATE-mode timer's ticks count only while its level is active (R390). -/
def State.timerGate (s : State) (n : Nat) : Bool :=
  s.timerSlave n != 1 || (match s.rd (F.timerCtl_MEVT n) with
    | 2 => s.flag (F.timerStatus_OUT (s.rd (F.timerCtl_MASTER n)))
    | 3 => s.timerIn n
    | _ => true)

/-- Timer `n` counts ticks: enabled, and its gate open (R383, R390). -/
def State.timerCounts (s : State) (n : Nat) : Bool := s.flag (F.timerCtl_EN n) && s.timerGate n && !s.stopped

/-- A source whose ticks have no command: cclk and reference dots (R384). -/
def State.timerFree (s : State) (n : Nat) : Bool := s.timerSlave n != 3 && [1, 2].contains (s.rd (F.timerCtl_SRC n))

/-- OUT_MODE in use (R398). -/
def State.timerMode (s : State) (n : Nat) : Nat := if s.rd (F.timerCtl_OUT_MODE n) = 3 then 0 else s.rd (F.timerCtl_OUT_MODE n)

/-- An edge of TMR_n_IN that EDGE selects: rising, falling or both; 3 is taken as 0 (R385, R398). -/
def State.timerEdge (s : State) (n : Nat) (rising : Bool) : Bool :=
  match s.rd (F.timerCtl_EDGE n) with
  | 1 => !rising
  | 2 => true
  | _ => rising

/-- Events of timer `n` raise its source once where TIMER_n_CAPCTL.IRQ names any: 0 OVF, 1 CMP, 2 CAP, 3 CAP_OVF (R397). -/
def timerIrq (n : Nat) (evs : List Nat) (s : State) : State :=
  if evs.any fun ev => bitAt (s.rd (F.timerCapctl_IRQ n)) ev then raise (352 + n) s else s

/-- Wrap or restart: the count is 0, a pending compare comes into use, and the compare arms (R388). -/
def timerPeriod (n : Nat) (s : State) : State :=
  let s := s.clr (F.timerCount_COUNT n)
  let s := if s.flag (F.timerStatus_CMP_PEND n) then
      onTimer n (fun r => { r with cmp := s.rd (F.timerCmp_VALUE n) }) (s.clr (F.timerStatus_CMP_PEND n)) else s
  s.set1 (F.timerStatus_ARMED n)

/-! ### One cclk (R392) -/

/-- Step 5 for a tick of timer `n`, with the chain ticks of the same cclk: the timers that counted, and whether each wrapped (R383, R384).
`fuel` bounds the chain. -/
def timerTick : Nat → Nat → State → List (Nat × Bool) × State
  | 0, _, s => ([], s)
  | fuel + 1, n, s =>
    if !s.timerCounts n then ([], s)
    else if s.rd (F.timerCount_COUNT n) < s.rd (F.timerReload_VALUE n) then
      ([(n, false)], s.wr (F.timerCount_COUNT n) (s.rd (F.timerCount_COUNT n) + 1))
    else
      let s := timerPeriod n (s.incWrap (F.timerEvents_OVF n))
      if n < 63 && s.rd (F.timerCtl_SRC (n + 1)) == 9 && s.timerSlave (n + 1) != 3 then
        let (l, s) := timerTick fuel (n + 1) s
        ((n, true) :: l, s)
      else ([(n, true)], s)

/-- The armed compare is reached (R388). -/
def State.timerFires (s : State) (n : Nat) : Bool :=
  s.flag (F.timerStatus_ARMED n) && (s.rd (F.timerCount_COUNT n) + 2 ^ 32 - (s.timer n).cmp) % 2 ^ 32 < 2 ^ 31

/-- The output level after a cclk in which a period or, with `started`, the timer began and the compare fired or did not; the output of a
timer that is not enabled holds its level (R388, R389). -/
def State.timerLevel (s : State) (n : Nat) (begins started fired : Bool) : Bool :=
  let mode := s.timerMode n
  let level := (begins && mode == 1) || (started && mode != 0) || s.flag (F.timerStatus_OUT n)
  if fired && s.flag (F.timerCtl_EN n) then (match mode with | 1 => false | 2 => !level | _ => level) else level

/-- A master signal of timer `m` (0 OVF, 1 CMP, 2 OUT) is passed to its slaves for the next cclk: a tick of each CLOCK slave, a restart of
each RESET slave, a capture of the count where CAP_SRC is MASTER (R390, R391). -/
def timerSignal (m ev : Nat) (s : State) : State :=
  let slaves := (List.range 64).filter fun n => s.rd (F.timerCtl_MASTER n) == m && s.rd (F.timerCtl_MEVT n) == ev
  s.forL slaves fun n s => onTimer n (fun r =>
    { r with restartDue := r.restartDue || s.timerSlave n == 2
             tickDue := r.tickDue || s.timerSlave n == 3
             captureDue := if s.rd (F.timerCapctl_CAP_SRC n) == 2 then some (s.rd (F.timerCount_COUNT n)) else r.captureDue }) s

/-- Steps 5 to 7 of one cclk: the timers in `ticks` count, those in `begun` have been restarted and those in `started` started, and those in
`wrote` have a new count or compare. Counts come first, then the compares, then outputs, sources and the signals to slaves (R392). -/
def timerCclk (ticks begun started wrote : List Nat) (s : State) : State :=
  let (done, s) := ticks.foldl (fun (a : List (Nat × Bool) × State) n =>
    let (l, s) := timerTick 64 n a.2
    (a.1 ++ l, s)) ([], s)
  let touched := (done.map (·.1) ++ begun ++ started ++ wrote).eraseDups
  let wraps := (done.filter (·.2)).map (·.1)
  let fired := touched.filter s.timerFires
  let s := s.forL fired fun n s => (s.clr (F.timerStatus_ARMED n)).incWrap (F.timerEvents_CMP n)
  let level (n : Nat) : Bool := s.timerLevel n (wraps.contains n || begun.contains n) (started.contains n) (fired.contains n)
  let rose := touched.filter fun n => level n && !s.flag (F.timerStatus_OUT n)
  let s := s.forL touched fun n s => s.wr (F.timerStatus_OUT n) (bit (level n))
  let s := s.forL touched fun n s =>
    timerIrq n ((if wraps.contains n then [0] else []) ++ if fired.contains n then [1] else []) s
  let s := s.forL wraps fun n s => timerSignal n 0 s
  let s := s.forL fired fun n s => timerSignal n 1 s
  s.forL rose fun n s => timerSignal n 2 s

/-- The CLOCK slaves that count in the next cclk. -/
def State.timersDue (s : State) : List Nat := (List.range 64).filter fun n => (s.timer n).tickDue

/-- The cclk in which CLOCK slaves count the signals of the cclk before, and those that follow it, `fuel` of them at most; signals left
then wait for the next event of a timer (R390; DESIGN CHOICE, assumption 16). -/
def timerFollow : Nat → State → State
  | 0, s => s
  | fuel + 1, s =>
    let due := s.timersDue
    if due.isEmpty then s
    else timerFollow fuel (timerCclk due [] [] [] (s.forL due fun n s => onTimer n (fun r => { r with tickDue := false }) s))

/-- A cclk in which timers count, begin or are written, and the cclk that follow from it (R390, R392). -/
def timerRun (ticks begun started wrote : List Nat) (s : State) : State :=
  let due := s.timersDue
  timerFollow 64 (timerCclk (ticks ++ due.filter fun n => !ticks.contains n) begun started wrote
    (s.forL due fun n s => onTimer n (fun r => { r with tickDue := false }) s))

/-- A tick of every timer that counts source `src`, in one cclk (R384, R392). -/
def timerSource (src : Nat) (s : State) : State :=
  timerRun ((List.range 64).filter fun n => s.rd (F.timerCtl_SRC n) == src && s.timerSlave n != 3) [] [] [] s

/-- `ticks` of a free source counted, up to the next compare or wrap and no further (assumption 16). -/
def timerAdvance (n ticks : Nat) (s : State) : State :=
  let c := s.rd (F.timerCount_COUNT n)
  let top := s.rd (F.timerReload_VALUE n)
  if !(s.timerCounts n && s.timerFree n) || top ≤ c then s
  else
    let stop := min (c + ticks) top
    let cmp := (s.timer n).cmp
    s.wr (F.timerCount_COUNT n) (if s.flag (F.timerStatus_ARMED n) && c < cmp && cmp ≤ stop then cmp else stop)

/-- A restart: the count becomes 0 and the tick of that cclk is discarded (R390, R395). -/
def timerRestart (n : Nat) (s : State) : State :=
  if s.flag (F.timerCtl_EN n) then timerRun [] [n] [] [] (timerPeriod n s) else s

/-- The edges of the timer pins between two states act: ticks of the timers that count them, and what waits for the restart of a RESET slave
or for a capture (R384, R385, R390, R391). -/
def timerPins (before s : State) : State :=
  let moved := (List.range 64).filter fun n => before.timerIn n != s.timerIn n && s.timerEdge n (s.timerIn n)
  let own (n : Nat) : Bool := s.rd (F.timerCtl_MEVT n) == 3
  let ticks := moved.filter fun n => if s.timerSlave n = 3 then own n else s.rd (F.timerCtl_SRC n) == 8
  if moved.isEmpty then s
  else
    let s := s.forL moved fun n s => onTimer n (fun r =>
      { r with restartDue := r.restartDue || (s.timerSlave n == 2 && own n)
               captureDue := if s.rd (F.timerCapctl_CAP_SRC n) == 1 || (s.rd (F.timerCapctl_CAP_SRC n) == 2 && own n) then
                   some (s.rd (F.timerCount_COUNT n)) else r.captureDue }) s
    if ticks.isEmpty then s else timerRun ticks [] [] [] s

/-- TIMER_WRAP: a tick of a free source finds the count at or above RELOAD (R383). -/
def execTimerWrap (n : Fin 64) (ticks : BitVec 32) (s : State) : Out :=
  let s := timerAdvance n.val ticks.toNat s
  .next (if s.timerFree n.val && s.rd (F.timerReload_VALUE n.val) ≤ s.rd (F.timerCount_COUNT n.val) then timerRun [n.val] [] [] [] s else s)

/-- TIMER_COMPARE: the armed compare is reached and fires (R388). -/
def execTimerCompare (n : Fin 64) (ticks : BitVec 32) (s : State) : Out :=
  .next (timerRun [] [] [] [n.val] (timerAdvance n.val ticks.toNat s))

/-- A capture of timer `n`, of the count `v`; its events raise its source once (R391, R397). -/
def timerCapture (n v : Nat) (s : State) : State :=
  let twice := s.flag (F.timerCapture_PEND n)
  let s := (s.wr (F.timerCapture_VALUE n) v).set1 (F.timerCapture_PEND n)
  if twice then timerIrq n [2, 3] (s.set1 (F.timerCapture_OVF n)) else timerIrq n [2] s

/-- TIMER_CAPTURE: a capture event that has come latches the count as it stood at the end of the cclk before it; a timer that counts a free
source carries its ticks (R391). -/
def execTimerCapture (n : Fin 64) (ticks : BitVec 32) (s : State) : Out :=
  let n := n.val
  let s := timerAdvance n ticks.toNat s
  .next (match (s.timer n).captureDue with
    | some v => timerCapture n (if s.timerFree n then s.rd (F.timerCount_COUNT n) else v) (onTimer n (fun r => { r with captureDue := none }) s)
    | none => s)

/-- TIMER_SLAVE_RESTART: a master event, or its own pin's edge, restarts a RESET slave (R390). -/
def execTimerSlaveRestart (n : Fin 64) (s : State) : Out :=
  let n := n.val
  .next (if s.timerSlave n = 2 ∧ (s.timer n).restartDue = true then timerRestart n (onTimer n (fun r => { r with restartDue := false }) s) else s)

/-- TIMER_LINE_RESTART: the start of every LINE_DIV-th line of the pipe restarts a locked timer (R395). -/
def execTimerLineRestart (n : Fin 64) (s : State) : Out :=
  let n := n.val
  let k := (s.pipe (s.rd (F.timerLock_PIPE n))).linesSent - (s.timer n).lockBase
  .next (if s.flag (F.timerLock_EN n) && k != (s.timer n).lockSeen && k % max 1 (s.rd (F.timerLock_LINE_DIV n)) == 0 then
    timerRestart n (onTimer n (fun r => { r with lockSeen := k }) s) else s)

/-- TIMER_START: the timers of a mask start in one cclk: COUNT 0, the compare armed, EN 1, and a PWM or TOGGLE output active (R389,
R393). -/
def timerStartMask (mask : Nat) (s : State) : State :=
  let l := bitsSet 64 mask
  timerRun [] [] l [] (s.forL l fun n s => ((s.clr (F.timerCount_COUNT n)).set1 (F.timerStatus_ARMED n)).set1 (F.timerCtl_EN n))

/-- TIMER_STOP: the timers of a mask stop and keep their counts (R393). -/
def timerStopMask (mask : Nat) (s : State) : State := s.forL (bitsSet 64 mask) fun n s => s.clr (F.timerCtl_EN n)

def execTimerStart (mask : BitVec 64) (s : State) : Out := .next (timerStartMask mask.toNat s)
def execTimerStop (mask : BitVec 64) (s : State) : Out := .next (timerStopMask mask.toNat s)

/-- The cclk in which timer `n` is written: one that counts cclk counts it before its compare is evaluated (R384, R392). -/
def timerWritten (n : Nat) (s : State) : State :=
  timerRun (if s.timerSlave n != 3 && s.rd (F.timerCtl_SRC n) == 1 then [n] else []) [] [] [n] s

/-- A write of COUNT loads the count and arms the compare (R388, R398). -/
def timerWriteCount (n v : Nat) (s : State) : State :=
  timerWritten n ((s.wr (F.timerCount_COUNT n) v).set1 (F.timerStatus_ARMED n))

/-- TIMER_COUNT_WRITE (R388). -/
def execTimerCountWrite (n : Fin 64) (value : BitVec 32) (s : State) : Out := .next (timerWriteCount n.val value.toNat s)

/-- A compare is written: in use at once, or at the next wrap or restart (R388). A value equal to the one in use changes
nothing. -/
def timerWriteCmp (n v : Nat) (s : State) : State :=
  let s := s.wr (F.timerCmp_VALUE n) v
  if s.flag (F.timerCtl_CMP_SYNC n) then s.set1 (F.timerStatus_CMP_PEND n)
  else
  let s := s.clr (F.timerStatus_CMP_PEND n)
  if (s.timer n).cmp = v then s
  else timerWritten n ((onTimer n (fun r => { r with cmp := v }) s).set1 (F.timerStatus_ARMED n))

/-- TIMER_CMP_WRITE (R388). -/
def execTimerCmpWrite (n : Fin 64) (value : BitVec 32) (s : State) : Out := .next (timerWriteCmp n.val value.toNat s)

/-- The timers above `n` in its chain, in ascending order (R386). -/
def State.chainAbove (s : State) (n : Nat) : List Nat :=
  ((List.range 64).drop (n + 1)).takeWhile fun m => s.rd (F.timerCtl_SRC m) == 9

/-- A read of TIMER_n_COUNT by one tag: the shadow a lower timer's read left, or the live count, which shadows the timers
above in the chain (R387). A read answered from a shadow leaves the others as they are (DEDUCED, assumption 17). -/
def timerReadCount (t : Tag) (n : Nat) (s : State) : Nat × State :=
  let below := (s.timers.last.find? fun l => l.1 == t).any fun l => l.2 < n && (s.chainAbove l.2).contains n
  let shadow := if below then (s.timers.shadows.find? fun x => x.1 == t && x.2.1 == n).map (·.2.2) else none
  let others := s.timers.shadows.filter fun x => !(x.1 == t && x.2.1 == n)
  let last := (t, n) :: s.timers.last.filter fun l => l.1 != t
  match shadow with
  | some v => (v, { s with timers := { s.timers with shadows := others, last := last } })
  | none =>
    let above := s.chainAbove n
    let kept := others.filter fun x => !(x.1 == t && above.contains x.2.1)
    let new := above.map fun m => (t, m, s.rd (F.timerCount_COUNT m))
    (s.rd (F.timerCount_COUNT n), { s with timers := { s.timers with shadows := new ++ kept, last := last } })

/-- TIMER_COUNT_READ (R387). -/
def execTimerCountRead (who : Initiator) (n : Fin 64) (ticks : BitVec 32) (s : State) : Out :=
  .next (readIrs who (0xB00018 + n.val * 0x40) (timerReadCount (initiatorTag who) n.val) (timerAdvance n.val ticks.toNat s))

/-- The flags of TIMER_n_CAPTURE, cleared by the read (R391). -/
def timerCaptureFlags (n : Nat) (s : State) : Nat × State :=
  (s.rd (F.timerCapture_PEND n) + 2 * s.rd (F.timerCapture_OVF n), (s.clr (F.timerCapture_PEND n)).clr (F.timerCapture_OVF n))

/-- A read of TIMER_n_CAPTURE: the whole or its high word clears the flags, its low word nothing (R391, R398). -/
def timerReadCapture (n : Nat) (part : ReadPart) (s : State) : Nat × State :=
  let v := s.rd (F.timerCapture_VALUE n)
  match part with
  | .low => (v, s)
  | .high => timerCaptureFlags n s
  | .whole => let (f, s) := timerCaptureFlags n s; (v + f * 2 ^ 32, s)

/-- TIMER_CAPTURE_READ (R391). -/
def execTimerCaptureRead (who : Initiator) (n : Fin 64) (part : ReadPart) (s : State) : Out :=
  .next (readIrs who (0xB00020 + n.val * 0x40) (timerReadCapture n.val part) s)

/-- A written TIMER_CTL, as its parameter or register sets it: a NONE output is inactive (R389). -/
def timerCtlWritten (n : Nat) (s : State) : State := if s.timerMode n = 0 then s.clr (F.timerStatus_OUT n) else s

/-- A written TIMER_LOCK: a lock enabled, or moved to another pipe, begins the count of lines (R395). -/
def timerLockWritten (n : Nat) (was : Bool) (s : State) : State :=
  if s.flag (F.timerLock_EN n) && !was then
    onTimer n (fun r => { r with lockBase := (s.pipe (s.rd (F.timerLock_PIPE n))).linesSent, lockSeen := 0 }) s
  else s

end Sys2Proof.Machine
end

