-- ==== Sys2Proof/Machine/Audio.lean ====
section
/-! DEFINITION. The audio fabric (R304 to R340): domains, ports, the crosspoint and its gains, side-tone paths, bridges, the
exchange with the audio cores, and the clip players. The samples a sample edge carries are those that arrived in the period
before it; the values of a period are computed when it ends, at the next edge. -/

namespace Sys2Proof.Machine

/-! ### Domains and codes (R304, R305, R314) -/

/-- A domain field: 3 is taken as 0 (R337). -/
def dom (v : Nat) : Nat := if v = 3 then 0 else v

/-- Sample index of domain `d` (R308). -/
def State.audNow (s : State) (d : Nat) : Nat := s.rd (F.audDomNow_COUNT d)

/-- Clip player `k` beside its registers. -/
def State.player (s : State) (k : Nat) : PlayRun :=
  s.aud.players.getD k player0

/-- The domain of clip player `k`: that of the clip it took, or that of its register while idle (R305, R333). -/
def State.playDomain (s : State) (k : Nat) : Nat :=
  match (s.player k).playing.or (s.player k).armed with
  | some c => c.domain
  | none => dom (s.rd (F.playCtl_DOMAIN k))

/-- The domain of a source or destination code (R314). -/
def State.codeDomain (s : State) (src : Bool) (code : Nat) : Option Nat :=
  match code / 256 with
  | 1 => if code < 0x180 then some (dom (s.rd (F.tdmCtl_DOMAIN ((code - 0x100) / 16)))) else none
  | 2 => if src && code < 0x208 then
      some (if dom (s.rd (F.pdmCtl_DOMAIN ((code - 0x200) / 4))) = 2 then 2 else 0) else none
  | 3 => if code < 0x340 then some (dom (s.rd (F.audCoreCtl_DOMAIN ((code - 0x300) / 16)))) else none
  | 4 => if code < 0x460 then
      some (dom (if src then s.rd (F.asrcCtl_DST_DOM ((code - 0x400) / 16)) else s.rd (F.asrcCtl_SRC_DOM ((code - 0x400) / 16))))
      else none
  | 5 => if code < 0x520 then some (dom (s.rd (F.cascLAud_DOMAIN ((code - 0x500) / 16)))) else none
  | 6 => if src && code < 0x608 then some (s.playDomain (code - 0x600)) else none
  | _ => none

/-- A code of the table of R314, as source or destination. -/
def State.codeValid (s : State) (src : Bool) (code : Nat) : Bool := code == 0 || (s.codeDomain src code).isSome

def State.inDomain (s : State) (i : Nat) : Option Nat := s.codeDomain true (s.rd (F.xpIn_SRC i))
def State.outDomain (s : State) (o : Nat) : Option Nat := s.codeDomain false (s.rd (F.xpOut_DST o))

/-! ### Samples (R309, R313, R316, R321, R322, R326, R332, R527) -/

/-- A 24-bit sample limited (R316). -/
def sat24 (v : Int) : Int := clampInt (-8388608) 8388607 v

/-- A sample with its low 8 bits at 0 (R309). -/
def cut16 (v : Int) : Int := v / 256 * 256

/-- Device address of the data memory of core `k` (R28). -/
def coreData (k : Nat) : Nat := 0x7000080000 + k * 0x100000

def State.audCore (s : State) (c : Nat) : AudCoreRun := s.aud.cores.getD c audCore0

def onAud (f : AudioState → AudioState) (s : State) : State := { s with aud := f s.aud }

def onAudCore (c : Nat) (f : AudCoreRun → AudCoreRun) (s : State) : State :=
  onAud (fun a => { a with cores := modAt a.cores c f }) s

/-- Samples per block of core `c` (R326, R338). -/
def State.blockLen (s : State) (c : Nat) : Nat := max 1 (s.rd (F.audCoreCtl_BLOCK_LEN c))

/-- The address of sample `k` of channel `j` in half `h` of a core's buffer (R326). -/
def State.audSlot (s : State) (c base h k j : Nat) : Nat := coreData (8 + c) + base / 4 * 4 + ((h * s.blockLen c + k) * 16 + j) * 4

/-- A TDM port sends and receives: enabled, in step and not RETIRED (R309, R312). -/
def State.tdmRuns (s : State) (p : Nat) : Bool :=
  s.flag (F.tdmCtl_EN p) && s.rd (F.tdmStatus_STATE p) == 2 && s.unitState (unitId 6 p) != 2

/-- Slots of a TDM port (R337). -/
def State.tdmSlots (s : State) (p : Nat) : Nat := max 1 (s.rd (F.tdmCtl_SLOTS_M1 p)) + 1

/-- The received sample of a code. -/
def State.received (s : State) (code : Nat) : Int := ((s.aud.rx.find? fun r => r.1 == code).map (·.2)).getD 0

/-- Some crosspoint output names an input of bridge `b` (R335). -/
def State.asrcFed (s : State) (b : Nat) : Bool :=
  (List.range 128).any fun o => s.rd (F.xpOut_DST o) / 16 == 0x40 + b

/-- Output channel `j` of bridge `b`: 0 until it has locked, then faded in, and out once it unlocks (R322). -/
def State.asrcOut (s : State) (b j : Nat) : Int :=
  let v := Config.asrcSample b j (s.audNow (dom (s.rd (F.asrcCtl_DST_DOM b))))
  let k := s.aud.fade.getD b 0
  if k = 0 then 0 else if k < 64 then (Config.asrcFaded k v).toInt else v.toInt

/-- PDM input `m` is decimated (R313). -/
def State.pdmOn (s : State) (m : Nat) : Bool := s.flag (F.pdmCtl_EN (m / 4)) && bitAt (s.rd (F.pdmCtl_CH_EN (m / 4))) (m % 4)

/-- The sample that a source code gives in the period in progress. -/
def State.sample (s : State) (code : Nat) : Int :=
  let u := (code % 256) / 16
  let j := code % 16
  match code / 256 with
  | 1 => if s.tdmRuns u && j < s.tdmSlots u then
      (if s.flag (F.tdmCtl_BITS u) then s.received code else cut16 (s.received code)) else 0
  | 2 =>
    if s.pdmOn (code - 0x200) then s.received code else 0
  | 3 =>
    let r := s.audCore u
    if r.on && r.play then signedAt 24 (leNat (s.bytesAt (s.audSlot u (s.rd (F.audCoreOut_BASE u)) (r.blocks % 2) r.pos j) 3)) else 0
  | 4 => if s.asrcFed u then s.asrcOut u j else 0
  | 5 => if s.flag (F.cascLAud_EN u) && s.rd (F.cascLStatus_STATE u) == 2 then
      ((s.aud.links.getD u ⟨[], false, []⟩).cur.getD j 0) else 0
  | 6 => if (s.player j).playing.isSome then (s.player j).cur else 0
  | _ => 0

/-- The sample of crosspoint input `i`. -/
def State.xIn (s : State) (i : Nat) : Int := s.sample (s.rd (F.xpIn_SRC i))

/-- The sample of side-tone path `t`; a PDM input passes its low-delay decimator (R321). -/
def State.stIn (s : State) (t : Nat) : Int :=
  let code := s.rd (F.stCtl_SRC t)
  if code / 256 = 2 then
    (if s.pdmOn (code - 0x200) then ((s.aud.low.find? fun r => r.1 == code - 0x200).map (·.2)).getD 0 else 0)
  else s.sample code

/-! ### Gains (R315, R317, R318, R321) -/

def targetFld (key : Nat) : Fld := if key < 16384 then F.xpGain_TARGET (key / 128) (key % 128) else F.stGain_TARGET (key - 16384)
def currentFld (key : Nat) : Fld := if key < 16384 then F.xpGain_CURRENT (key / 128) (key % 128) else F.stGain_CURRENT (key - 16384)

/-- The domain in which a node's samples are counted: its output's; a side-tone path is of domain A (R317, R321). -/
def State.nodeDomain (s : State) (key : Nat) : Option Nat :=
  if key < 16384 then s.outDomain (key / 128) else if key < 16386 then some 0 else none

/-- RAMP and TIMEOUT of a node (R317, R321). -/
def State.nodeRamp (s : State) (key : Nat) : Nat := if key < 16384 then s.rd (F.xpOutCfg_RAMP (key / 128)) else 0
def State.nodeTimeout (s : State) (key : Nat) : Nat := if key < 16384 then s.rd (F.xpOutCfg_TIMEOUT (key / 128)) else 480

/-- A node's input sample now and in the last period. -/
def State.nodeIn (s : State) (key : Nat) : Int × Int :=
  if key < 16384 then (s.xIn (key % 128), s.aud.prev.getD (key % 128) 0) else (s.stIn (key - 16384), s.aud.stPrev.getD (key - 16384) 0)

/-- A zero crossing (R317). -/
def crossing (x before : Int) : Bool := x == 0 || (0 < x && before < 0) || (x < 0 && 0 < before)

/-- The node's run replaced, or dropped. -/
def setNode (key : Nat) (r : Option NodeRun) (s : State) : State :=
  onAud (fun a => { a with nodes := (a.nodes.filter fun n => n.key != key) ++ r.toList }) s

/-- The state of a node that changes. -/
def State.node (s : State) (key : Nat) : Option NodeRun := s.aud.nodes.find? fun n => n.key == key

/-- A target gain is written (R317, R318). -/
def gainWrite (key v : Nat) (s : State) : State :=
  if 16386 ≤ key then s
  else
    let s := s.wr (targetFld key) v
    let new : NodeRun := { key := key, phase := 0, n0 := 0, n1 := 0, g0 := 0, ramp := 0 }
    match s.node key with
    | some r => if r.phase = 1 then (if s.rd (currentFld key) = v then setNode key none s else s) else setNode key (some new) s
    | none => setNode key (some new) s

/-- A source of the fabric raised at most once in a reference frame. -/
def audOnce (b src : Nat) (s : State) : State :=
  if bitAt s.aud.seen b then s else raise src (onAud (fun a => { a with seen := a.seen ||| 2 ^ b }) s)

/-- The gain of step `k` of a ramp of `r` from `g0` to `t` (R317). -/
def rampGain (g0 t k r : Nat) : Nat := (roundInt ((g0 : Int) * r + ((t : Int) - g0) * k) r).toNat

/-- A waiting node's change begins in the period in progress (R317). -/
def nodeBegin (r : NodeRun) (now : Nat) (s : State) : State :=
  let t := s.rd (targetFld r.key)
  let ramp := s.nodeRamp r.key
  if ramp ≤ 1 then setNode r.key none (s.wr (currentFld r.key) t)
  else setNode r.key (some { r with phase := 2, n1 := now, ramp := ramp }) (s.wr (currentFld r.key) (rampGain r.g0 t 1 ramp))

/-- A waiting node begins where the period in progress lets it: at a crossing, at the timeout, or with TIMEOUT = 0 at once
(R317). `cross` and `late` say which of the first two are looked at. -/
def nodeCheck (cross late : Bool) (r : NodeRun) (s : State) : State :=
  match s.nodeDomain r.key with
  | none => s
  | some d =>
    let now := s.audNow d
    let limit := s.nodeTimeout r.key
    let (x, before) := s.nodeIn r.key
    if r.phase != 1 || now ≤ r.n0 then s
    else if limit = 0 then nodeBegin r now s
    else if crossing x before then (if cross then nodeBegin r now s else s)
    else if late && r.n0 + limit ≤ now then nodeBegin r now (audOnce 1 343 (s.inc F.audZcTimeouts_COUNT))
    else s

/-- A node at the edge of sample index `now` of its domain: a written one arms, or rests where target and gain agree; a ramping
one takes its next step (R317). -/
def nodeEdge (now : Nat) (r : NodeRun) (s : State) : State :=
  let t := s.rd (targetFld r.key)
  match r.phase with
  | 0 => if s.rd (currentFld r.key) = t then setNode r.key none s
         else setNode r.key (some { r with phase := 1, n0 := now, g0 := s.rd (currentFld r.key) }) s
  | 2 =>
    let k := now - r.n1 + 1
    let s := s.wr (currentFld r.key) (rampGain r.g0 t (min k r.ramp) r.ramp)
    if r.ramp ≤ k then setNode r.key none s else s
  | _ => s

/-- The nodes whose samples domain `d` counts. -/
def State.nodesOf (s : State) (d : Nat) : List NodeRun := s.aud.nodes.filter fun r => s.nodeDomain r.key == some d

/-- XP_GAIN_WRITE (R317, R327). -/
def xpGainWrite (t : Tag) (i o v : Nat) (s : State) : State :=
  if mayWrite false none true t then gainWrite (o * 128 + i) v s else droppedBy t (0xA10000 + (o * 128 + i) * 4) v s

def execXpGainWrite (who : Initiator) (i o : Fin 128) (target : BitVec 16) (s : State) : Out :=
  .next (writeIrs who (0xA10000 + (o.val * 128 + i.val) * 4) target.toNat (xpGainWrite (initiatorTag who) i.val o.val target.toNat) s)

/-- ST_GAIN_WRITE (R321, R327). -/
def stGainWrite (tg : Tag) (t v : Nat) (s : State) : State :=
  if mayWrite false none true tg then gainWrite (16384 + t) v s else droppedBy tg (0xA003C4 + t * 8) v s

def execStGainWrite (who : Initiator) (t : Fin 2) (target : BitVec 16) (s : State) : Out :=
  .next (writeIrs who (0xA003C4 + t.val * 8) target.toNat (stGainWrite (initiatorTag who) t.val target.toNat) s)

/-- The key of a node named by input and output, or of a side-tone path. -/
def nodeKey (i o : Nat) (st : Option Nat) : Nat := match st with | some t => 16384 + t | none => o * 128 + i

/-- GAIN_CHANGE_START: the node's input crosses zero in the period in progress (R317). -/
def execGainChangeStart (i o : Fin 128) (st : Option (Fin 2)) (s : State) : Out :=
  .next (match s.node (nodeKey i.val o.val (st.map (·.val))) with
    | some r => nodeCheck true false r s
    | none => s)

/-- AUD_ZC_TIMEOUT: no crossing came within TIMEOUT (R317). -/
def execAudZcTimeout (i o : Fin 128) (st : Option (Fin 2)) (s : State) : Out :=
  .next (match s.node (nodeKey i.val o.val (st.map (·.val))) with
    | some r => nodeCheck false true r s
    | none => s)

/-! ### Clip players (R329 to R334) -/

def onPlayer (k : Nat) (f : PlayRun → PlayRun) (s : State) : State := onAud (fun a => { a with players := modAt a.players k f }) s

/-- PLAY_k_STATUS, GO and STOP follow the player (R12, R338). -/
def showPlayer (k : Nat) (s : State) : State :=
  let r := s.player k
  let st := if r.playing.isSome && !r.finished then 2 else if r.armed.isSome then 1 else 0
  (((s.wr (F.playStatus_STATE k) st).wr (F.playCtl_GO k) (bit (st != 0))).wr (F.playCtl_STOP k) (bit r.stopping)).wr
    (F.playStatus_POS k) (if st = 2 then r.pos else 0)

/-- The first sample index of domain `d` whose edge lies at or after a beam stamp (R330). -/
def State.toSample (s : State) (d stamp : Nat) : Nat :=
  let fr := (stamp / 2 ^ 32 + 65536 - s.rd (F.audDomFrate_FRAME d)) % 65536
  let frame := s.ref.setting.lines * s.ref.setting.dots
  if 32768 ≤ fr || frame = 0 then s.audNow d + 1
  else
    let rate := s.rd (F.audDomFrate_RATE d)
    let dots := stamp / 2 ^ 16 % 2 ^ 16 * s.ref.setting.dots + stamp % 2 ^ 16
    -- t - PHASE / 256 over the denominator 256 × frame
    let num := fr * rate * frame + dots * rate
    s.rd (F.audDomFcount_COUNT d) + (num - s.rd (F.audDomFcount_PHASE d) * frame + 256 * frame - 1) / (256 * frame)

/-- An armed clip's start sample computed anew; it enters no earlier than `floor` (R333). -/
def playConvert (k floor : Nat) (c : PlayClip) (s : State) : State :=
  let n := s.toSample c.domain c.start
  let c := { c with index := n, enter := max floor (n - (if c.comp then 2 else 0)) }
  onPlayer k (fun r => { r with armed := some c }) (s.wr (F.playSample_INDEX k) n)

/-- GO: the player takes its registers and arms (R333). -/
def playGo (k : Nat) (s : State) : State :=
  let d := dom (s.rd (F.playCtl_DOMAIN k))
  let c : PlayClip := { addr := s.rd (F.playAddr_ADDR k) / 4 * 4, len := s.rd (F.playLen_LEN k), start := s.rd (F.playStart_STAMP k),
                        comp := s.flag (F.playCtl_COMP k), format := s.rd (F.playCtl_FORMAT k), domain := d,
                        plays := s.rd (F.playCtl_REPEAT k), index := 0, enter := 0 }
  showPlayer k (playConvert k (s.audNow d + 1) c s)

/-- STOP: at the next sample the player ends (R334). -/
def playStop (k : Nat) (s : State) : State :=
  if (s.player k).playing.isSome || (s.player k).armed.isSome then
    showPlayer k (onPlayer k (fun r => { r with stopping := true }) s) else s

/-- PLAY_k_CTL without its GO and STOP (R338). -/
def State.playSettings (s : State) (k : Nat) : Nat :=
  s.rd (F.playCtl_COMP k) * 2 ^ 2 + s.rd (F.playCtl_FORMAT k) * 2 ^ 3 + s.rd (F.playCtl_DOMAIN k) * 2 ^ 4 + s.rd (F.playCtl_REPEAT k) * 2 ^ 8

/-- A write of PLAY_k_CTL; GO and STOP together are STOP (DEDUCED, assumption 19; R333, R334). -/
def playCtlWrite (t : Tag) (k data : Nat) (s : State) : State :=
  if !mayWrite false none true t then droppedBy t (0xA0040C + k * 0x40) data s
  else
    let s := ((s.wr (F.playCtl_COMP k) (bitsAt data 2 1)).wr (F.playCtl_FORMAT k) (bitsAt data 3 1)).wr (F.playCtl_DOMAIN k) (bitsAt data 4 2)
    let s := s.wr (F.playCtl_REPEAT k) (bitsAt data 8 8)
    if bitAt data 1 then playStop k s else if bitAt data 0 then playGo k s else s

/-- PLAY_GO: a write of PLAY_k_CTL with GO = 1 and STOP = 0 (R333). -/
def execPlayGo (who : Initiator) (k : Fin 8) (ctl : BitVec 32) (s : State) : Out :=
  .next (writeIrs who (0xA0040C + k.val * 0x40) ctl.toNat (playCtlWrite (initiatorTag who) k.val ((ctl ||| 1#32) &&& ~~~2#32).toNat) s)

/-- PLAY_STOP: a write of PLAY_k_CTL with STOP = 1 (R334). -/
def execPlayStop (who : Initiator) (k : Fin 8) (ctl : BitVec 32) (s : State) : Out :=
  .next (writeIrs who (0xA0040C + k.val * 0x40) ctl.toNat (playCtlWrite (initiatorTag who) k.val (ctl ||| 2#32).toNat) s)

/-- AUD_PLAY_DONE_k on a player that plays a chime: its node's gain goes to 0, and the chime ends unless another waits to follow it
on this player (R491, R492). -/
def chimeDone (k : Nat) (s : State) : State :=
  match s.svc.chimes.find? fun c => c.player == k with
  | none => s
  | some c =>
    let s := gainWrite (c.out * 128 + 120 + k) 0 s
    if c.next.isSome then s else { s with svc := { s.svc with chimes := s.svc.chimes.filter fun c => c.player != k } }

/-- The player ends: idle and silent, AUD_PLAY_DONE_k raised (R333, R334). -/
def playEnd (k : Nat) (armed : Bool) (s : State) : State :=
  let s := onPlayer k (fun r => { r with playing := none, armed := if armed then none else r.armed, stopping := false,
                                         finished := false, cur := 0, buf := [] }) s
  chimeDone k (raise (332 + k) (showPlayer k s))

/-- The player fetches ahead until its buffer of 1 KB is full or the clip has no more; a failing fetch stops it (R332, R334). `fuel`
bounds the runs of consecutive samples. -/
def playFill (k : Nat) : Nat → State → State
  | 0, s => s
  | fuel + 1, s =>
    let r := s.player k
    match r.playing with
    | none => s
    | some c =>
      let w := if c.format = 0 then 2 else 4
      let n := min (1024 / w - r.buf.length) (c.len - r.fpos)
      if n = 0 ∨ (c.plays ≠ 255 ∧ c.plays < r.frep) then s
      else
        let (b, e, s) := memRead (.clip (Fin.ofNat 8 k)) (c.addr + r.fpos * w) (n * w) s
        if e then raise 341 ((playEnd k true s).set1 (F.playStatus_ERR k))
        else
          let v (i : Nat) : Int := if c.format = 0 then signedAt 16 (fieldAt b (i * 2) 2) * 256 else signedAt 24 (fieldAt b (i * 4) 4)
          let wrap := c.len ≤ r.fpos + n
          playFill k fuel (onPlayer k (fun r =>
            { r with buf := r.buf ++ (List.range n).map v, fpos := if wrap then 0 else r.fpos + n,
                     frep := if wrap then min 255 (r.frep + 1) else r.frep }) s)

/-- The next sample leaves the player's buffer, which is filled again (R332). -/
def playFetch (k : Nat) (s : State) : State :=
  let s := playFill k 512 s
  showPlayer k (onPlayer k (fun r => { r with cur := r.buf.headD 0, buf := r.buf.drop 1 }) s)

/-- The armed clip's first sample enters: it plays, in place of the clip that played before (R333). A clip of no samples ends
at once (R335). -/
def playBegin (k : Nat) (c : PlayClip) (s : State) : State :=
  let s := onPlayer k (fun r => { r with playing := some c, armed := none, pos := 0, rep := 0, cur := 0, finished := false,
                                         buf := [], fpos := 0, frep := 0 }) s
  let s := s.clr (F.playStatus_ERR k)
  if c.len = 0 then playEnd k false s else playFetch k (raise 340 (showPlayer k s))

/-- The armed clip is due in the period in progress. -/
def playDue (k : Nat) (s : State) : State :=
  match (s.player k).armed with
  | some c => if s.flag (F.audDomStatus_RUNNING c.domain) && c.enter ≤ s.audNow c.domain then playBegin k c s else s
  | none => s

/-- AUD_PLAY_START (R333). -/
def execAudPlayStart (k : Fin 8) (s : State) : Out := .next (playDue k.val s)

/-- The sample in progress is the last of the last repeat (R332). -/
def PlayRun.last (r : PlayRun) : Bool := r.playing.any fun c => r.pos + 1 ≥ c.len && c.plays != 255 && c.plays ≤ r.rep

/-- The last sample has entered the crosspoint: IDLE, and AUD_PLAY_DONE_k is raised (R333). -/
def playLast (k : Nat) (s : State) : State :=
  if (s.player k).last && !(s.player k).finished then
    chimeDone k (raise (332 + k) (showPlayer k (onPlayer k (fun r => { r with finished := true }) s))) else s

/-- AUD_PLAY_DONE (R333). -/
def execAudPlayDone (k : Fin 8) (s : State) : Out := .next (playLast k.val s)

/-- A sample period ends at player `k`: a stop acts, a finished clip leaves, and another moves on to its next sample. A
starved player sends 0 for the missing sample and sets ERR (R333, R334). -/
def playAdvance (k : Nat) (starved : Bool) (s : State) : State :=
  let s := playLast k s
  let r := s.player k
  if r.stopping then playEnd k true s
  else match r.playing with
    | none => s
    | some c =>
      if r.finished then onPlayer k (fun r => { r with playing := none, finished := false, cur := 0 }) s
      else
        let wrap := c.len ≤ r.pos + 1
        let s := onPlayer k (fun r => { r with pos := if wrap then 0 else r.pos + 1, rep := if wrap then min 255 (r.rep + 1) else r.rep }) s
        if starved then (showPlayer k (onPlayer k (fun r => { r with cur := 0, buf := r.buf.drop 1 }) s)).set1 (F.playStatus_ERR k) else playFetch k s

/-- AUD_FRAME_LATCH: a domain latches COUNT, PHASE and RATE at its first edge after a reference frame start, and the armed
players of the domain convert anew (R329, R333). RATE is the time between the frame starts that this latch and the last one place
(DEDUCED, assumption 139). -/
def execAudFrameLatch (d : Fin 3) (phase : BitVec 8) (dot : Nat) (s : State) : Out :=
  let d := d.val
  .next (if !s.runs 15 then s
  else
    let s := s.atDot dot
    let at_ : Int := 256 * (s.audNow d : Int) - phase.toNat
    let last := s.aud.frameAt.getD d 0
    let rate := (if at_ < last then at_ else at_ - last).toNat
    let s := onAud (fun a => { a with frameAt := a.frameAt.set d at_ }) s
    let s := ((s.wr (F.audDomFcount_COUNT d) (s.audNow d)).wr (F.audDomFcount_PHASE d) phase.toNat).wr (F.audDomFrate_RATE d) rate
    let s := s.wr (F.audDomFrate_FRAME d) (s.rd F.beamNow_FRAME)
    s.forN 8 fun k s => match (s.player k).armed with
    | some c => if c.domain = d then showPlayer k (playConvert k (s.audNow d) c s) else s
    | none => s)

/-! ### Blocks (R326, R328) -/

/-- A block boundary of core `c`: HALF switches, the output half written in time plays, and the watchdog counts (R326, R328). -/
def audBoundary (c : Nat) (s : State) : State :=
  let r := s.audCore c
  if !r.on || r.pos < s.blockLen c then s
  else
    let late := r.live && 1 ≤ r.blocks && !r.done
    let s := onAudCore c (fun r => { r with pos := 0, blocks := r.blocks + 1, play := r.live && r.done, done := false, on := r.live,
                                            wdt := r.wdt + 1 }) (audBlockEvent c s)
    if late then audOnce (4 + c) (320 + c) (s.inc (F.audCoreErr_LATE c)) else s

/-- AUD_BLOCK_BOUNDARY (R326). -/
def execAudBlockBoundary (c : Fin 4) (s : State) : Out := .next (audBoundary c.val s)

/-! ### The sample edge (R308, R316, R320, R321, R326) -/

/-- The output of crosspoint output `o` before clipping (R316); a node between domains counts as 0 (R315). -/
def State.mix (s : State) (o : Nat) : Int :=
  match s.outDomain o with
  | none => 0
  | some d =>
    let sum := (List.range 128).foldl (fun (a : Int) i =>
      let g := s.rd (F.xpGain_CURRENT o i)
      if g != 0 && s.inDomain i == some d then a + g * s.xIn i else a) 0
    roundInt sum 16384

/-- The outputs of domain `d` are computed: each clamped sample is counted (R316). -/
def mixOutputs (d : Nat) (s : State) : List (Nat × Int) × State :=
  let outs := (List.range 128).filter fun o => s.outDomain o == some d
  let ys := outs.map fun o => (o, s.mix o)
  let clipped := ys.filter fun y => sat24 y.2 != y.2
  let s := s.forL clipped fun y s => s.inc (F.xpClip_COUNT y.1)
  (ys.map fun y => (y.1, sat24 y.2), if clipped.isEmpty then s else audOnce 0 342 s)

/-- The side-tone term of a sent slot (R321). -/
def State.sideTone (s : State) (code : Nat) : Option Int :=
  let on := (List.range 2).filter fun t => s.flag (F.stCtl_EN t) && s.rd (F.stCtl_DST t) == code
  if on.isEmpty then none
  else some (on.foldl (fun (a : Int) t => a + roundInt (s.rd (F.stGain_CURRENT t) * s.stIn t) 16384) 0)

/-- The link channels and TDM slots of domain `d` that a crosspoint output names, with the output's value of two periods before (R314,
R320). -/
def State.named (s : State) (d : Nat) : List (Nat × Int) :=
  (List.range 128).filterMap fun o =>
    let code := s.rd (F.xpOut_DST o)
    if s.outDomain o == some d && (code / 256 == 1 || code / 256 == 5) then some (code, s.aud.y2.getD o 0) else none

/-- What a sent TDM slot carries: the output that names it, with the side-tone; without either 0, or nothing where TX_IDLE leaves it
undriven (R319 to R321). -/
def State.slotValue (s : State) (d code : Nat) (named : List (Nat × Int)) : Option Int :=
  let y := (named.find? fun n => n.1 == code).map (·.2)
  let g := if d = 0 then s.sideTone code else none
  match y, g with
  | some y, some g => some (sat24 (y + g))
  | some y, none => some y
  | none, some g => some (sat24 g)
  | none, none => if s.flag (F.tdmCtl_TX_IDLE ((code - 0x100) / 16)) then none else some 0

/-- The frame that a port of domain `d` sends, by destination code. -/
def State.portFrame (s : State) (d p : Nat) (named : List (Nat × Int)) : List (Nat × Int) :=
  if !(s.tdmRuns p && dom (s.rd (F.tdmCtl_DOMAIN p)) == d) then []
  else (List.range (s.tdmSlots p)).filterMap fun j =>
    (s.slotValue d (0x100 + p * 16 + j) named).map fun v => (0x100 + p * 16 + j, if s.flag (F.tdmCtl_BITS p) then v else cut16 v)

/-- What the slots and link channels of domain `d` send in the period in progress (R309, R319 to R321). -/
def State.sends (s : State) (d : Nat) : List (Nat × Int) :=
  let named := s.named d
  named.filter (fun n => n.1 / 256 == 5) ++ (List.range 8).flatMap fun p => s.portFrame d p named

/-- A destination or source code is a slot of port `p`. -/
def ofPort (p code : Nat) : Bool := code / 16 == 0x10 + p

/-- A slave port that runs in domain `d` (R311). -/
def State.slaveIn (s : State) (d p : Nat) : Bool :=
  s.tdmRuns p && s.flag (F.tdmCtl_ROLE p) && dom (s.rd (F.tdmCtl_DOMAIN p)) == d

/-- A slip of port `p` is counted (R311). -/
def portSlip (p : Nat) (s : State) : State := audOnce 2 344 (s.inc (F.tdmStatus_SLIPS p))

/-- A frame dropped from a FIFO of 4, or the frame `cur` repeated by it. -/
def slipFifo (drop : Bool) (cur : List (Nat × Int)) (q : List (List (Nat × Int))) : List (List (Nat × Int)) :=
  if drop then q.drop 1 else (cur :: q).take 4

/-- The samples of a period parted into the frames they arrived in: a code that comes again belongs to the next frame. -/
def intoFrames (l : List (Nat × Int)) : List (List (Nat × Int)) :=
  let rec place (e : Nat × Int) : List (List (Nat × Int)) → List (List (Nat × Int))
    | [] => [[e]]
    | f :: t => if f.any (·.1 == e.1) then f :: place e t else (f ++ [e]) :: t
  l.foldl (fun fs e => place e fs) []

/-- The frames received by slave port `p` pass its FIFO: one leaves at a sample edge of its domain. A full FIFO drops a frame, and an
empty one repeats the last (R311; assumption 138). -/
def slaveEdge (arrived : List (Nat × Int)) (p : Nat) (s : State) : State :=
  let q := s.aud.rxFifo.getD p [] ++ intoFrames (arrived.filter fun r => ofPort p r.1)
  let s := s.forL (q.drop 4) fun _ => portSlip p
  match q.take 4 with
  | [] => if s.aud.rx.any (fun r => ofPort p r.1) then portSlip p s else s
  | f :: rest => onAud (fun a => { a with
      rx := f ++ a.rx.filter (fun r => !ofPort p r.1)
      rxFifo := a.rxFifo.set p rest }) s

/-- The send FIFO of slave port `p` once the fabric's new frame has entered it (R311). -/
def State.sendFifo (s : State) (p : Nat) (tx : List (Nat × Int)) : List (List (Nat × Int)) :=
  s.aud.txFifo.getD p [] ++ if bitAt s.aud.txDrop p then [] else [tx.filter fun t => ofPort p t.1]

/-- What slave port `p` sends in a period: the oldest frame of its FIFO. Where a drop has left none, the frame before goes on (R311). -/
def State.slaveSend (s : State) (p : Nat) (tx : List (Nat × Int)) : List (Nat × Int) :=
  (s.sendFifo p tx).headD (s.aud.tx.filter fun t => ofPort p t.1) ++ tx.filter fun t => !ofPort p t.1

/-- The input sample of channel `j` of core `c`: 0 where no output names it (R319, R320). -/
def State.coreIn (s : State) (c j : Nat) : Int :=
  match (List.range 128).find? fun o => s.rd (F.xpOut_DST o) == 0x300 + c * 16 + j with
  | some o => s.aud.y2.getD o 0
  | none => 0

/-- The fabric writes a core's input samples of the period in progress (R326). -/
def coreSamples (c : Nat) (s : State) : State :=
  let r := s.audCore c
  if !r.on then s
  else
    let s := s.forN 16 fun j s =>
      s.setBytes (s.audSlot c (s.rd (F.audCoreIn_BASE c)) (r.blocks % 2) r.pos j) (natLE 4 (unsignedAt 24 (s.coreIn c j)))
    onAudCore c (fun r => { r with pos := r.pos + 1 }) s

/-- The period in progress of domain `d` ends. -/
def periodEnd (d : Nat) (starved : BitVec 8) (s : State) : State :=
  let cores := (List.range 4).filter fun c => dom (s.rd (F.audCoreCtl_DOMAIN c)) == d
  let s := s.forL cores audBoundary
  let s := s.forL ((List.range 8).filter fun k => (s.player k).armed.any fun c => c.domain == d) playDue
  let s := s.forL (s.nodesOf d) (nodeCheck true true)
  let (ys, s) := mixOutputs d s
  let sent := s.sends d
  let slaves := (List.range 8).filter (s.slaveIn d)
  let tx := slaves.foldl (fun tx p => s.slaveSend p tx) sent ++ s.aud.tx.filter fun t => s.codeDomain false t.1 != some d
  let xs := (List.range 128).map fun i => if s.inDomain i == some d then s.xIn i else s.aud.prev.getD i 0
  let st := (List.range 2).map fun t => if d = 0 then s.stIn t else s.aud.stPrev.getD t 0
  let s := s.forL cores coreSamples
  let s := onAud (fun a => { a with
    tx := tx, prev := xs, stPrev := st
    txFifo := slaves.foldl (fun l p => l.set p ((s.sendFifo p sent).drop 1)) a.txFifo
    txDrop := slaves.foldl (fun m p => setBitsAt m p 1 0) a.txDrop
    y2 := ys.foldl (fun l y => l.set y.1 (a.y1.getD y.1 0)) a.y2
    y1 := ys.foldl (fun l y => l.set y.1 y.2) a.y1 }) s
  s.forL ((List.range 8).filter fun k => s.playDomain k == d) fun k s => playAdvance k (starved.getLsbD k) s

/-- The received channels of link `l` move on by a sample period; an empty FIFO repeats a sample (R527). -/
def linkEdge (l : Nat) (s : State) : State :=
  let r := s.aud.links.getD l ⟨[], false, []⟩
  let put := fun (r : LinkAudio) (s : State) => onAud (fun a => { a with links := modAt a.links l fun _ => r }) s
  if !r.started then s
  else match r.fifo with
    | x :: rest => put { r with fifo := rest, cur := x } s
    | [] => audOnce 3 471 (s.inc (F.cascLAud_SLIPS l))

/-- The 16 channels of link `l` of the period that ends join the AUDIO flit in progress, which goes out with its second period
(R527). -/
def linkSend (l : Nat) (s : State) : State :=
  if !s.flag (F.cascLAud_EN l) || s.rd (F.cascLStatus_STATE l) != 2 then s
  else
    let v (j : Nat) : Int := ((s.aud.tx.find? fun t => t.1 == 0x500 + l * 16 + j).map (·.2)).getD 0
    let out := (s.link l).audioOut ++ (List.range 16).map fun j => BitVec.ofInt 24 (v j)
    if out.length < 32 then onLink l (fun k => { k with audioOut := out }) s
    else
      let count := s.audNow (dom (s.rd (F.cascLAud_DOMAIN l))) - 1
      pushFlit l (s.flitTo (s.rd (F.cascLStatus_PARTNER_POS l)) (.audio (BitVec.ofNat 32 count) out))
        (onLink l (fun k => { k with audioOut := [] }) s)

/-- A sample edge of bridge `b`'s destination domain: its outputs fade in while it is locked and out while it is not, over 64 samples, and
RATIO shows what it measures (R322). -/
def asrcEdge (now b : Nat) (s : State) : State :=
  let k := s.aud.fade.getD b 0
  let s := onAud (fun a => { a with fade := a.fade.set b (if s.flag (F.asrcStatus_LOCKED b) then min 64 (k + 1) else k - 1) }) s
  if s.flag (F.asrcCtl_EN b) then s.wr (F.asrcStatus_RATIO b) (Config.asrcRatio b now).toNat else s

/-- AUD_SAMPLE_EDGE: a sample edge of domain `d` ends one period and begins the next, which carries the samples received by
source code, and the side-tone's PDM samples (R308, R316, R317, R332, R384). `starved` marks players whose buffer is empty. -/
def audEdge (d : Nat) (rx : List (BitVec 12 × BitVec 24)) (low : List (Fin 8 × BitVec 24)) (starved : BitVec 8) (s : State) : State :=
  let runs := s.flag (F.audDomStatus_RUNNING d)
  let s := if runs then periodEnd d starved s else s
  let s := s.forL ((List.range 2).filter fun l => runs && dom (s.rd (F.cascLAud_DOMAIN l)) == d) linkSend
  let now := if runs then (s.audNow d + 1) % 2 ^ 48 else 0
  let s := (s.set1 (F.audDomStatus_RUNNING d)).wr (F.audDomNow_COUNT d) now
  let slaves := (List.range 8).filter (s.slaveIn d)
  let slave (code : Nat) : Bool := slaves.any fun p => ofPort p code
  let arrived := rx.map fun r => (r.1.toNat, r.2.toInt)
  let fresh := arrived.filter fun r => !slave r.1
  let s := onAud (fun a => { a with
    rx := fresh ++ a.rx.filter fun r => slave r.1 || s.codeDomain true r.1 != some d
    low := (low.map fun r => (r.1.val, r.2.toInt)) ++ a.low.filter fun r => s.codeDomain true (0x200 + r.1) != some d }) s
  let s := s.forL slaves (slaveEdge arrived)
  let s := s.forL (s.nodesOf d) (nodeEdge now)
  let s := s.forL ((List.range 2).filter fun l => dom (s.rd (F.cascLAud_DOMAIN l)) == d) linkEdge
  let s := s.forL ((List.range 6).filter fun b => dom (s.rd (F.asrcCtl_DST_DOM b)) == d) (asrcEdge now)
  timerSource (5 + d) s

/-- AUD_SAMPLE_EDGE (R304 to R330). -/
def execAudSampleEdge (d : Fin 3) (rx : List (BitVec 12 × BitVec 24)) (low : List (Fin 8 × BitVec 24)) (starved : BitVec 8)
    (s : State) : Out :=
  .next (if s.runs 15 then audEdge d.val rx low starved s else s)

/-! ### Clocks, ports and bridges (R307, R311, R312, R322) -/

/-- ASRC_LOCK (R322). -/
def execAsrcLock (b : Fin 6) (ratio : BitVec 24) (s : State) : Out :=
  .next (if s.flag (F.asrcCtl_EN b.val) then (s.set1 (F.asrcStatus_LOCKED b.val)).wr (F.asrcStatus_RATIO b.val) ratio.toNat else s)

/-- A locked bridge unlocks: it fades out over 64 samples, counts and raises AUD_ASRC_UNLOCK (R322). -/
def asrcUnlock (b : Nat) (s : State) : State :=
  if s.flag (F.asrcStatus_LOCKED b) then raise 346 ((s.clr (F.asrcStatus_LOCKED b)).inc (F.asrcUnlocks_COUNT b)) else s

def execAsrcUnlock (b : Fin 6) (s : State) : Out := .next (asrcUnlock b.val s)

/-- The master clock of a domain is switched: the bridges on it unlock; domain C runs on the clock of A (R304, R322). -/
def clockSwitched (d : Nat) (s : State) : State :=
  let moved := fun (v : Nat) => dom v == d || (d == 0 && dom v == 2)
  s.forL ((List.range 6).filter fun b => moved (s.rd (F.asrcCtl_SRC_DOM b)) || moved (s.rd (F.asrcCtl_DST_DOM b))) asrcUnlock

/-- AUD_MCLK_LOST: the external clock of a domain set to it is declared lost, and a domain that ran on it falls back to its
synthesiser (R307). -/
def execAudMclkLost (d : Fin 2) (s : State) : Out :=
  let d := d.val
  let ran := s.flag (F.audDomStatus_EXT_ACTIVE d)
  .next (if ran || (s.flag (F.audDomCtl_EXT d) && !s.flag (F.audDomStatus_EXT_LOST d)) then
    let s := logEvent 0x0602 1 d 0 (raise 347 ((s.clr (F.audDomStatus_EXT_ACTIVE d)).set1 (F.audDomStatus_EXT_LOST d)))
    if ran then clockSwitched d s else s
  else s)

/-- AUD_MCLK_RESTORED: the external clock met its limit for 10 ms and is taken again; or it is taken for the first time
(R307). -/
def execAudMclkRestored (d : Fin 2) (s : State) : Out :=
  let d := d.val
  .next (if s.flag (F.audDomCtl_EXT d) && !s.flag (F.audDomStatus_EXT_ACTIVE d) then
    clockSwitched d ((s.set1 (F.audDomStatus_EXT_ACTIVE d)).clr (F.audDomStatus_EXT_LOST d)) else s)

/-- AUD_PORT_SLIP: a slave port drops or repeats a frame, of those it sends or of those it receives (R311). A drop where no sent frame waits
takes the next one (DEDUCED, assumption 138). -/
def execAudPortSlip (slip : PortSlip) (s : State) : Out :=
  let p := slip.port.val
  let cur (l : List (Nat × Int)) : List (Nat × Int) := l.filter fun r => ofPort p r.1
  .next (if s.flag (F.tdmCtl_EN p) && s.flag (F.tdmCtl_ROLE p) then
    portSlip p (onAud (fun a =>
      if slip.tx && slip.drop && (a.txFifo.getD p []).isEmpty then { a with txDrop := setBitsAt a.txDrop p 1 1 }
      else if slip.tx then { a with txFifo := modAt a.txFifo p (slipFifo slip.drop (cur a.tx)) }
      else { a with rxFifo := modAt a.rxFifo p (slipFifo slip.drop (cur a.rx)) }) s)
  else s)

/-- A port's FIFOs are empty while it is out of step. -/
def flushPort (p : Nat) (s : State) : State :=
  onAud (fun a => { a with rx := a.rx.filter (fun r => !ofPort p r.1), rxFifo := a.rxFifo.set p [], txFifo := a.txFifo.set p [],
                           txDrop := setBitsAt a.txDrop p 1 0 }) s

/-- A RETIRED TDM port is out of service (R312). -/
def tdmRetired (p : Nat) (s : State) : State := if s.unitState (unitId 6 p) = 2 then s.wr (F.tdmStatus_STATE p) 3 else s

/-- A resynchronisation of a TDM port begins where its fault unit makes a retry (R312). -/
def tdmResync (p : Nat) (s : State) : State :=
  if (s.fltUnit (unitId 6 p)).retrying then flushPort p ((s.wr (F.tdmStatus_STATE p) 1).inc (F.tdmErr_RESYNC p)) else tdmRetired p s

/-- TDM_FS_ERROR: a slave port misses its frame sync for two frames (R312). -/
def execTdmFsError (p : Fin 8) (s : State) : Out :=
  let p := p.val
  .next (if s.flag (F.tdmCtl_EN p) && s.flag (F.tdmCtl_ROLE p) && s.rd (F.tdmStatus_STATE p) == 2 then
    tdmResync p (upset (unitId 6 p) 7 (raise 345 (s.inc (F.tdmErr_FS_ERR p)))) else s)

/-- TDM_RESYNC_DONE: the resynchronisation ends, restored or not (R312, R559). -/
def execTdmResyncDone (p : Fin 8) (ok : Bool) (s : State) : Out :=
  let p := p.val
  .next (if !(s.fltUnit (unitId 6 p)).retrying then s
  else
    let s := endAttempt (unitId 6 p) ok s
    if ok then s.wr (F.tdmStatus_STATE p) 2 else tdmResync p s)

/-- TDM_PORT_SYNC_ACQUIRED: an enabled slave port first locks to its frame sync (R309). -/
def execTdmPortSyncAcquired (p : Fin 8) (s : State) : Out :=
  let p := p.val
  .next (if s.flag (F.tdmCtl_EN p) && s.rd (F.tdmStatus_STATE p) == 1 && !(s.fltUnit (unitId 6 p)).retrying then
    s.wr (F.tdmStatus_STATE p) 2 else s)

/-- TDM_p_CTL is written: an enabled master port runs at once, a slave port seeks its frame sync (R309, R312). -/
def tdmCtlWritten (p : Nat) (was : Bool) (s : State) : State :=
  if !s.flag (F.tdmCtl_EN p) then flushPort p (s.clr (F.tdmStatus_STATE p))
  else if was then s
  else tdmRetired p (s.wr (F.tdmStatus_STATE p) (if s.flag (F.tdmCtl_ROLE p) then 1 else 2))

/-! ### The waveform of a TDM port (R309) -/

/-- Bits of a slot (R337). -/
def State.tdmWidth (s : State) (p : Nat) : Nat := [16, 24, 32].getD (s.rd (F.tdmCtl_WIDTH p)) 32

/-- Bit `b` of a frame, the most significant of slot 0 first: none where the slot is undriven. A sample stands in the upper bits of its
slot (R309). -/
def State.frameBit (s : State) (p b : Nat) (frame : List (Nat × Int)) : Option Bool :=
  let w := s.tdmWidth p
  let n := if s.flag (F.tdmCtl_BITS p) then 24 else 16
  match frame.find? fun t => t.1 == 0x100 + p * 16 + b / w with
  | none => none
  | some (_, v) => some (b % w < n && (unsignedAt 24 v).testBit (23 - b % w))

/-- TXD in BCLK period `c` of the frame in progress: the first data bit comes with FORMAT's delay after the frame sync's edge, so that the
last bit of the frame before may still stand (R309). -/
def State.tdmTxd (s : State) (p c : Nat) : Option Bool :=
  let d := dom (s.rd (F.tdmCtl_DOMAIN p))
  let len := s.tdmSlots p * s.tdmWidth p
  let delayed := s.rd (F.tdmCtl_FORMAT p) % 2 == 0
  let now := s.slaveSend p (s.portFrame d p (s.named d))
  if delayed && c = 0 then s.frameBit p (len - 1) s.aud.tx else s.frameBit p (if delayed then c - 1 else c) now

/-- The frame sync in BCLK period `c`: low, or high, for slot 0, or a pulse of one BCLK, and inverted by FS_INV (R309). -/
def State.tdmFs (s : State) (p c : Nat) : Bool :=
  (match s.rd (F.tdmCtl_FORMAT p) with
  | 0 => s.tdmWidth p ≤ c
  | 1 => c < s.tdmWidth p
  | _ => c == 0) != s.flag (F.tdmCtl_FS_INV p)

/-- Output enable and level of a pin of TDM port `p`, 0 BCLK, 1 FS, 2 TXD, at the moment that `n` stands for. A port that is disabled,
trimmed, out of step or RETIRED drives low (R309, R312, R593). -/
def State.tdmPin (s : State) (p pin n : Nat) (wave trimmed : Bool) : Bool × Bool :=
  let on := !trimmed && s.tdmRuns p
  let c := Config.tdmPhase n % (s.tdmSlots p * s.tdmWidth p)
  match pin with
  | 0 => (!s.flag (F.tdmCtl_ROLE p), on && (wave != s.flag (F.tdmCtl_BCLK_INV p)))
  | 1 => (!s.flag (F.tdmCtl_ROLE p), on && s.tdmFs p c)
  | 2 => if on then (match s.tdmTxd p c with | some b => (true, b) | none => (false, false)) else (true, false)
  | _ => (false, false)

end Sys2Proof.Machine
end

