-- ==== Sys2Proof/Machine/CameraOps.lean ====
section
/-! DEFINITION. What the picture blocks share of camera ingest: a stream's landing format and buffers, the holding of a
ring buffer, and the events of a stream (R208 to R214, R224). -/

namespace Sys2Proof.Machine

/-- Stream `n` beside its registers. -/
def State.stream (s : State) (n : Nat) : StreamRun := s.cam.streams.getD n stream0

def onStream (n : Nat) (f : StreamRun → StreamRun) (s : State) : State :=
  { s with cam := { s.cam with streams := modAt s.cam.streams n f } }

/-- The feed that a stream in feed mode takes (R520). -/
def State.feedOf (s : State) (n : Nat) : Option Nat :=
  (List.range 8).find? fun k => s.flag (F.cascFeedCtl_EN k) && s.rd (F.cascFeedCtl_STREAM k) == n

/-- A stream receives: enabled as a camera stream, or bound by a feed (R208, R520). -/
def State.streamOn (s : State) (n : Nat) : Bool := s.flag (F.streamCtl_EN n) || (s.feedOf n).isSome

/-- The landing format code of a stream; none for RAW 16 (R208, R520). -/
def State.streamFmt (s : State) (n : Nat) : Option Nat :=
  match s.feedOf n with
  | some k => some ([4, 5, 7, 0x11].getD (s.rd (F.cascFeedCtl_FORMAT k)) 4)
  | none =>
    let dt := s.rd (F.streamCtl_DT n)
    if dt = 0x1E then some 0x10 else if dt = 0x1F then some 0x11 else if dt = 0x24 then some 4
    else if 0x30 ≤ dt ∧ dt ≤ 0x37 then some 0x12 else none

/-- Bytes per pixel of a landing format (R208, R520). -/
def landBytes (fmt : Option Nat) : Nat :=
  match fmt with
  | none => 2
  | some c => if isDirect c then directBytes c else if c = 0x10 then 2 else 4

/-- The buffers of a stream's ring (R210, R226). -/
def State.ringCount (s : State) (n : Nat) : Nat := max 1 (s.rd (F.streamCtl_RING_M1 n)) + 1

/-- The address of buffer `b` of a stream's ring (R210). -/
def State.ringBuf (s : State) (n b : Nat) : Nat := s.rd (F.streamRingBase_ADDR n) + b * s.rd (F.streamSpacing_BYTES n)

/-- The landing slots of a raced stream (R217, R226). -/
def State.landLines (s : State) (n : Nat) : Nat := max 1 (s.rd (F.streamLand_LINES n))

/-- The address of a landing slot (R217). -/
def State.landSlot (s : State) (n slot : Nat) : Nat := s.rd (F.streamLandBase_ADDR n) + slot * s.rd (F.streamStride_BYTES n)

/-- The engines that hold a buffer, shown in BUF_b.HOLDERS (R211). -/
def showHolders (n b : Nat) (s : State) : State :=
  if 16 ≤ n ∨ 8 ≤ b then s else s.wr (F.streamBuf_HOLDERS n b) (s.planes.filter fun r => r.ring.any fun t => t.stream == n && t.buf == b).length

/-- Events of a stream in the order of CAM_EVT: 0 FRAME_ERR, 1 TIMEOUT, 2 DROP, 3 LATE, 4 OVERRUN; each is raised at most once
per stream in a reference frame (R224). -/
def streamEvent (n e : Nat) (s : State) : State :=
  let s := { s with cam := { s.cam with evtCur := s.cam.evtCur.set e (s.cam.evtCur.getD e 0 ||| 2 ^ n) } }
  let seen := s.cam.evtSeen.getD e 0
  if bitAt seen n then s
  else raise (180 + e) { s with cam := { s.cam with evtSeen := s.cam.evtSeen.set e (seen ||| 2 ^ n) } }

/-- A counter of a CSI-2 port moved: CSI_ERR is raised, at most once per port in a reference frame (R224). -/
def csiError (k : Nat) (s : State) : State :=
  if bitAt s.cam.portSeen k then s
  else raise (176 + k) { s with cam := { s.cam with portSeen := s.cam.portSeen ||| 2 ^ k } }

/-- A frame start of pipe `p` arms the frame-sync pulses that lead the next one (R216). -/
def syncArmPipe (p : Nat) (s : State) : State :=
  s.forL ((List.range 16).filter fun n =>
      s.flag (F.streamCtl_EN n) && s.rd (F.streamFsync_MODE n) == 2 && s.rd (F.streamFsync_PIPE n) == p)
    fun n s => onStream n (fun r => { r with syncArmed := r.syncArmed ++ [s.rd (F.lockFstamp_STAMP p)] }) s

end Sys2Proof.Machine
end

