-- ==== Sys2Proof/Machine/Planes.lean ====
section
/-! DEFINITION. The plane engines (R104 to R145): status, sources, scaling, affine and horizon sampling, per-line latching,
and the completion of a line. -/

namespace Sys2Proof.Machine

def P.planeBase (n : Nat) : Prm := ⟨0x401C + n * 0x40, 0, .warm⟩
def P.planeBase2 (n : Nat) : Prm := ⟨0x401D + n * 0x40, 0, .warm⟩

/-- Engine `n` beside its registers. -/
def State.plane (s : State) (n : Nat) : PlaneRun := s.planes.getD n plane0

def onPlane (n : Nat) (f : PlaneRun → PlaneRun) (s : State) : State := { s with planes := modAt s.planes n f }

/-- The engines that belong to pipe `p`. -/
def State.planesOf (s : State) (p : Nat) : List Nat := (List.range 32).filter fun n => (s.plane n).pipe == some p

/-- The pipe that engine `n` works for: its own, or the one it waits to join. -/
def State.planePipe (s : State) (n : Nat) : Nat := (s.plane n).pipe.getD (s.rd (F.planeCfg_PIPE n))

/-- The work for line `l` of pipe `p` belongs to a frame that has yet to start: it is that for line 0, before the frame start. -/
def State.ahead (s : State) (p l : Nat) : Bool := l == 0 && s.rd (F.pipeStatus_STATE p) != 2

/-! ### Settings in force -/

/-- KIND, with MODE, EDGE, FILTER, VTAPS and SRC_SEL as their reserved codes are taken (R141). -/
def State.planeKind (s : State) (n : Nat) : Nat := s.lat (F.planeCfg_KIND n)
def State.planeMode (s : State) (n : Nat) : Nat := if s.lat (F.planeCfg_MODE n) = 3 then 0 else s.lat (F.planeCfg_MODE n)
def State.planeFilter (s : State) (n : Nat) : Nat := if s.lat (F.planeCfg_FILTER n) = 3 then 0 else s.lat (F.planeCfg_FILTER n)
def State.planeSel (s : State) (n : Nat) : Nat :=
  if s.planeKind n != 2 || s.lat (F.planeCfg_SRC_SEL n) = 3 then 0 else s.lat (F.planeCfg_SRC_SEL n)
def State.tileSize (s : State) (n : Nat) : Nat := [8, 16, 32, 32].getD (s.lat (F.planeFmt_TILE n)) 32
def State.planeStream (s : State) (n : Nat) : Nat := s.lat (F.planeCfg_STREAM n)

/-- The engine draws a class-0 layer (R105). -/
def State.planeClass0 (s : State) (n : Nat) : Bool := s.latFlag (F.planeCfg_CLASS0 n)

/-- HSTEP and VSTEP after the clamps of R111. -/
def hstepOf (v : Nat) : Nat := max 0x10000 (min 0x800000 v)
def vstepOf (wide : Bool) (v : Nat) : Nat := max 0x10000 (min (if wide then 0x100000 else 0x400000) v)

/-- Vertical taps (R110, R112). -/
def tapsOf (filter vtaps : Nat) (wide : Bool) (vstep : Nat) : Nat :=
  if filter = 2 then 1
  else match vtaps with
    | 1 => 2
    | 2 => 1
    | _ => if vstep = 0x100000 then 1 else if wide ∨ 0x200000 < vstep then 2 else 4

def State.planeVstep (s : State) (n : Nat) : Nat := vstepOf (s.latFlag (F.planeCfg_WIDE n)) (s.lat (F.planeVstep_STEP n))
def State.planeTaps (s : State) (n : Nat) : Nat :=
  tapsOf (s.planeFilter n) (s.lat (F.planeCfg_VTAPS n)) (s.latFlag (F.planeCfg_WIDE n)) (s.planeVstep n)

/-! ### Status (R111, R119, R137 to R139, R143) -/

/-- Status flag `b` of engine `n`, b = 1 to 6 as its bit. -/
def planeFlagFld (n b : Nat) : Fld :=
  match b with
  | 1 => F.planeStatus_UNDERRUN n
  | 2 => F.planeStatus_CLAMP_H n
  | 3 => F.planeStatus_CLAMP_V n
  | 4 => F.planeStatus_BAD_TILE n
  | 5 => F.planeStatus_ZERO_SRC n
  | _ => F.planeStatus_NO_FRAME n

/-- The flag stands, for the frame in progress or, for line-0 work, for the coming one. -/
def State.planeFlagged (s : State) (n b : Nat) (zero : Bool) : Bool :=
  if zero then bitAt (s.plane n).nxt b else s.flag (planeFlagFld n b)

/-- A flag is set in the frame in progress, or with `zero` in the coming one, where it shows from the frame start; its source is raised once
per frame (R139; DEDUCED, assumption 9). -/
def planeFlag (n b : Nat) (zero : Bool) (s : State) : State :=
  if s.planeFlagged n b zero then s
  else
    let clamped := s.planeFlagged n 2 zero || s.planeFlagged n 3 zero
    let s := if zero then onPlane n (fun r => { r with nxt := r.nxt ||| 2 ^ b }) s else s.set1 (planeFlagFld n b)
    match b with
    | 1 => s.inc (F.planeUnderruns_COUNT n)
    | 2 => if clamped then s else raise 128 s
    | 3 => if clamped then s else raise 128 s
    | 4 => raise 129 s
    | 6 => raise 130 s
    | _ => s

/-- The engine underruns in the frame of line `l`: it fetches nothing more in that frame (R137). -/
def planeUnderrun (n l : Nat) (s : State) : State :=
  onPlane n (fun r => { r with stopped := true, fetch := none }) (planeFlag n 1 (s.ahead (s.planePipe n) l) s)

/-- At a frame start of its pipe, the flags are copied into LAST and those of the coming frame take their place (R143). MAXC takes the
longest fetch that ran in the ending frame, that for line 0 of the next among them (DESIGN CHOICE, assumption 152). -/
def planeFrameStart (n : Nat) (s : State) : State :=
  let cur := (List.range 6).foldl (fun a b => a + bit (s.flag (planeFlagFld n (b + 1))) * 2 ^ b) 0
  let r := s.plane n
  let s := (s.wr (F.planeStatus_LAST n) cur).wr (F.planeCost_MAXC n) r.cost
  let s := s.forN 6 fun b s => s.wr (planeFlagFld n (b + 1)) (bit (bitAt r.nxt (b + 1)))
  onPlane n (fun r => { r with nxt := 0, cost := 0 }) s

/-! ### Sources (R113, R116 to R125) -/

/-- Width and height of the engine's source in pixels. -/
def State.srcSize (s : State) (n : Nat) : Nat × Nat :=
  if s.planeKind n = 0 then
    ((s.lat (F.planeMap_MAP_W_M1 n) + 1) * s.tileSize n, (s.lat (F.planeMap_MAP_H_M1 n) + 1) * s.tileSize n)
  else match s.planeSel n with
    | 1 => (s.plane n).ring.elim (0, 0) fun t => (t.w, t.h)
    | 2 => (s.rd (F.streamSize_W (s.planeStream n)), s.rd (F.streamSize_H (s.planeStream n)))
    | _ => (s.lat (F.planeSrc_SRC_W n), s.lat (F.planeSrc_SRC_H n))

/-- A coordinate under EDGE: inside, repeated, wrapped, or none where the sample is transparent (R113). -/
def edgeAt (edge size : Nat) (v : Int) : Option Nat :=
  if 0 ≤ v ∧ v < size then some v.toNat
  else match edge with
    | 0 => none
    | 1 => some (clampInt 0 ((size : Int) - 1) v).toNat
    | _ => some (v % (size : Int)).toNat

/-- The palette entry of an engine in force (R118, R133, R144). -/
def State.planePal (s : State) (n e : Nat) : Px :=
  ⟨s.snp (F.planePal_R n e), s.snp (F.planePal_G n e), s.snp (F.planePal_B n e), s.snp (F.planePal_A n e)⟩

/-- A pixel of a tile map (R116 to R119). -/
def tilePx (n x y : Nat) (zero : Bool) (s : State) : Px × Bool × State :=
  let t := s.tileSize n
  let mw := s.lat (F.planeMap_MAP_W_M1 n) + 1
  let (eb, bad, s) := memRead (.plane (Fin.ofNat 32 n)) (s.rd (F.planeBase_ADDR n) + (y / t * mw + x / t) * 4) 4 s
  if bad then (Px.clear, true, s)
  else
    let entry := leNat eb
    let tile := bitsAt entry 0 16
    if s.lat (F.planePatcount_COUNT n) ≤ tile then (Px.clear, false, planeFlag n 4 zero s)
    else
      let px := if bitAt entry 24 then t - 1 - x % t else x % t
      let py := if bitAt entry 25 then t - 1 - y % t else y % t
      let b := match s.lat (F.planeFmt_FORMAT n) with | 0x20 => 2 | 0x21 => 4 | _ => 8
      let q := py * t + px
      let (pb, bad, s) := memRead (.plane (Fin.ofNat 32 n)) (s.rd (F.planeBase2_ADDR n) + tile * (t * t * b / 8) + q * b / 8) 1 s
      let v := bitsAt (leNat pb) (q * b % 8) b
      if bad then (Px.clear, true, s)
      else if v = 0 ∧ bitAt entry 26 = false then (Px.clear, false, s)
      else (s.planePal n ((v + bitsAt entry 16 8) % 256), false, s)

/-- A read of one number of `b` bytes by an engine. -/
def planeWord (n a b : Nat) (s : State) : Nat × Bool × State :=
  let (d, e, s) := memRead (.plane (Fin.ofNat 32 n)) a b s
  (leNat d, e, s)

/-- The chroma samples that pixel column `x` takes along a row, with their weights in halves (R124 step 2): the even columns
hold the samples; an odd column is the mean of its neighbours, the last one repeating the sample before it. -/
def chromaCols (x w : Nat) : List (Nat × Nat) :=
  if x % 2 = 0 then [(x / 2, 2)] else if x + 1 < w then [(x / 2, 1), (x / 2 + 1, 1)] else [(x / 2, 2)]

/-- The chroma rows that luma line `y` takes, with their weights in quarters (R124 step 2): chroma row r lies midway between
luma lines 2r and 2r + 1. -/
def chromaRows (y h : Nat) : List (Nat × Nat) :=
  let r := y / 2
  let last := (h + 1) / 2 - 1
  if y % 2 = 0 then (if r = 0 then [(0, 4)] else [(r - 1, 1), (r, 3)])
  else if r < last then [(r, 3), (r + 1, 1)] else [(r, 4)]

/-- A weighted sum of chroma pairs. -/
def sumChroma (l : List ((Nat × Nat) × Nat)) : Nat × Nat :=
  l.foldl (fun a c => (a.1 + c.1.1 * c.2, a.2 + c.1.2 * c.2)) (0, 0)

/-- A pixel of a YCbCr format at (x, y) of a picture of `w` × `h` whose luma rows begin at `row` and, for the two-plane formats,
whose chroma rows begin at `base2` (R122, R124). -/
def yccAt (n code w h x y row base2 stride2 : Nat) (s : State) : Px × Bool × State :=
  let cscCode := s.lat (F.planeFmt_CSC n)
  let full := s.latFlag (F.planeFmt_FULL_RANGE n)
  match code with
  | 0x12 =>
    let (v, e, s) := planeWord n (row + x * 4) 4 s
    (yccPx cscCode full (bitsAt v 20 10) (bitsAt v 10 10 * 8) (bitsAt v 0 10 * 8), e, s)
  | 0x10 =>
    let (v, e, s) := planeWord n (row + x / 2 * 4) 4 s
    let luma := bitsAt v (x % 2 * 16) 8 * 4
    let one := fun (c : Nat × Nat) (s : State) =>
      let (v, e, s) := planeWord n (row + c.1 * 4) 4 s
      (((bitsAt v 8 8 * 4, bitsAt v 24 8 * 4), c.2 * 4), e, s)
    let (cs, e', s) := readAll one (chromaCols x w) s
    let (cb, cr) := sumChroma cs
    (yccPx cscCode full luma cb cr, e || e', s)
  | 0x11 =>
    let (v, e, s) := planeWord n (row + x / 2 * 8) 8 s
    let luma := bitsAt v (x % 2 * 32 + 6) 10
    let one := fun (c : Nat × Nat) (s : State) =>
      let (v, e, s) := planeWord n (row + c.1 * 8) 8 s
      (((bitsAt v 22 10, bitsAt v 54 10), c.2 * 4), e, s)
    let (cs, e', s) := readAll one (chromaCols x w) s
    let (cb, cr) := sumChroma cs
    (yccPx cscCode full luma cb cr, e || e', s)
  | _ =>
    let ten := code == 0x14
    let (v, e, s) := planeWord n (row + x * (if ten then 2 else 1)) (if ten then 2 else 1) s
    let luma := if ten then bitsAt v 6 10 else v * 4
    let places := (chromaRows y h).flatMap fun r => (chromaCols x w).map fun c => (r.1, c.1, r.2 * c.2)
    let one := fun (c : Nat × Nat × Nat) (s : State) =>
      let (v, e, s) := planeWord n (base2 + c.1 * stride2 + c.2.1 * (if ten then 4 else 2)) (if ten then 4 else 2) s
      ((if ten then (bitsAt v 6 10, bitsAt v 22 10) else (bitsAt v 0 8 * 4, bitsAt v 8 8 * 4), c.2.2), e, s)
    let (cs, e', s) := readAll one places s
    let (cb, cr) := sumChroma cs
    (yccPx cscCode full luma cb cr, e || e', s)

/-- A pixel of a bitmap or a picture in a known format, whose row begins at `row`. -/
def formatPx (n code w h x y row base2 stride2 : Nat) (s : State) : Px × Bool × State :=
  if isDirect code then
    let (v, e, s) := planeWord n (row + x * directBytes code) (directBytes code) s
    (directPx code v (s.snp (F.planeConst_RGB n)), e, s)
  else yccAt n code w h x y row base2 stride2 s

/-- The camera line that serves line `c` of a raced engine's output line, after substitution (R219); none where no line
does. -/
def PlaneRun.lineFor (r : PlaneRun) (c : Nat) : Option Nat :=
  match r.subs.find? fun t => t.1 == c with
  | some (_, sub) => sub
  | none => some c

/-- The source pixel at (x, y), which EDGE may take from elsewhere (R109, R113, R117, R120, R122, R123, R125, R217). -/
def srcPx (n : Nat) (zero : Bool) (x y : Int) (s : State) : Px × Bool × State :=
  let (w, h) := s.srcSize n
  let edge := s.lat (F.planeCfg_EDGE n)
  match edgeAt edge w x, edgeAt edge h y with
  | some x, some y =>
    if s.planeKind n = 0 then tilePx n x y zero s
    else match s.planeSel n with
      | 1 =>
        match (s.plane n).ring with
        | some t => formatPx n t.fmt w h x y (t.base + y * t.stride) 0 0 s
        | none => (Px.clear, false, s)
      | 2 =>
        let st := s.planeStream n
        match (s.plane n).lineFor y, s.streamFmt st with
        | some c, some code => formatPx n code w h x y (s.landSlot st (c % s.landLines st)) 0 0 s
        | _, _ => (Px.clear, false, s)
      | _ =>
        formatPx n (s.lat (F.planeFmt_FORMAT n)) w h x y (s.rd (F.planeBase_ADDR n) + y * s.lat (F.planeStride_BYTES n))
          (s.rd (F.planeBase2_ADDR n)) (s.lat (F.planeStride2_BYTES n)) s
  | _, _ => (Px.clear, false, s)

/-! ### SEPARABLE scaling (R109 to R112) -/

/-- A source coordinate in units of 2^-21 (R109): scroll s15.8, index, step u4.20. -/
def coord21 (scroll : Int) (i step : Nat) : Int := scroll * 2 ^ 13 + (2 * (i : Int) + 1) * step - 2 ^ 20

/-- The nearest source pixel of a coordinate; a midway one as the free value says (R112). -/
def nearest21 (c : Int) : Int :=
  let k := c / 2 ^ 21
  let f := c % 2 ^ 21
  if f < 2 ^ 20 then k else if 2 ^ 20 < f then k + 1 else if Config.nearestTieUp then k + 1 else k

/-- One component at a time of a list of pixels through a filter. -/
def perComponent (f : List Nat → Nat) (l : List Px) : Px :=
  ⟨f (l.map (·.r)) % 4096, f (l.map (·.g)) % 4096, f (l.map (·.b)) % 4096, f (l.map (·.a)) % 4096⟩

/-- The phase of 64 of a coordinate: its top 6 fraction bits (R110, R112; DEDUCED, assumption 135). -/
def phase21 (c : Int) : Nat := (c % 2 ^ 21).toNat / 2 ^ 15

/-- The source pixels of the 8 taps around a coordinate counted in groups of `g`: three groups before the one it lies in, and four after
(R112; DEDUCED, assumption 135). -/
def tapGroups (k : Int) (g : Nat) : List Int := (List.range (8 * g)).map fun (i : Nat) => (k - 3) * (g : Int) + (i : Int)

/-- The sums of the groups of `g` values. -/
def groupSums (g : Nat) (l : List Nat) : List Nat := (List.range 8).map fun i => ((l.drop (g * i)).take g).sum

/-- The horizontally scaled pixel of source line `y` (R112). -/
def horizontalPx (n : Nat) (zero : Bool) (c : Int) (step : Nat) (exact : Bool) (y : Int) (s : State) : Px × Bool × State :=
  if exact then srcPx n zero (c / 2 ^ 21) y s
  else if s.planeFilter n = 2 then srcPx n zero (nearest21 c) y s
  else
    let g : Nat := if step ≤ 0x200000 then 1 else if step ≤ 0x400000 then 2 else 4
    -- group m is centred on pixel g m + (g - 1) / 2
    let c : Int := (c - ((g : Int) - 1) * 2 ^ 20) / (g : Int)
    let (l, e, s) := readAll (fun x s => srcPx n zero x y s) (tapGroups (c / 2 ^ 21) g) s
    (perComponent (fun v => Config.filterH (s.planeFilter n == 1) g (step / g) (phase21 c) (groupSums g v)) l, e, s)

/-- The source lines that the vertical taps take (R110, R218). -/
def tapLines (taps : Nat) (c : Int) : List Int :=
  let k := c / 2 ^ 21
  match taps with
  | 1 => [nearest21 c]
  | 2 => [k, k + 1]
  | _ => [k - 1, k, k + 1, k + 2]

/-- The index that mirroring leaves of `i` among `w` (R109). -/
def mirrored (m : Bool) (w i : Nat) : Nat := if m then w - 1 - i else i

/-- A step of 1.0 with an integral scroll copies unfiltered (R112). -/
def exactStep (step : Nat) (scroll : Int) : Bool := step == 0x100000 && scroll % 256 == 0

/-- The vertical coordinate of window line `j` in units of 2^-21. -/
def State.planeY21 (s : State) (n j : Nat) : Int :=
  coord21 (signedAt 24 (s.snp (F.planeScrollY_POS n))) (mirrored (s.latFlag (F.planeCfg_MIRROR_V n)) (s.lat (F.planeDst_DST_H n)) j)
    (s.planeVstep n)

/-- The source lines of window line `j` in SEPARABLE mode. -/
def State.planeTapLines (s : State) (n j : Nat) : List Int :=
  if exactStep (s.planeVstep n) (signedAt 24 (s.snp (F.planeScrollY_POS n))) then [s.planeY21 n j / 2 ^ 21]
  else tapLines (s.planeTaps n) (s.planeY21 n j)

/-- One component of the vertical filter: a forced TWO is linear, over 64 phases (R110, R112). -/
def State.vertical (s : State) (n : Nat) (c : Int) (v : List Nat) : Nat :=
  if s.lat (F.planeCfg_VTAPS n) = 1 then freeRound ((64 - phase21 c) * v.getD 0 0 + phase21 c * v.getD 1 0) 64
  else Config.filterV (s.planeFilter n == 1) (s.planeVstep n) (phase21 c) v

/-- Pixel `i` of window line `j`, of a window `w` wide, in SEPARABLE mode. MIRROR_H counts from the width clipped to WMAX, not to the active
area (DESIGN CHOICE, assumption 154). -/
def separablePx (n : Nat) (zero : Bool) (w j i : Nat) (s : State) : Px × Bool × State :=
  let hstep := hstepOf (s.lat (F.planeHstep_STEP n))
  let sx := signedAt 24 (s.snp (F.planeScrollX_POS n))
  let c := coord21 sx (mirrored (s.latFlag (F.planeCfg_MIRROR_H n)) w i) hstep
  let lines := s.planeTapLines n j
  let (l, e, s) := readAll (fun y s => horizontalPx n zero c hstep (exactStep hstep sx) y s) lines s
  match l with
  | [p] => (p, e, s)
  | _ => (perComponent (s.vertical n (s.planeY21 n j)) l, e, s)

/-! ### AFFINE and HORIZON (R127 to R129) -/

/-- A sample at (x, y), 16 fraction bits, weighted by the top 6 (R128; DEDUCED, assumption 135). -/
def affinePx (n : Nat) (zero : Bool) (x y : Int) (s : State) : Px × Bool × State :=
  if s.latFlag (F.planeCfg_BILINEAR n) = false then srcPx n zero ((x + 2 ^ 15) / 2 ^ 16) ((y + 2 ^ 15) / 2 ^ 16) s
  else
    let fx := (x % 2 ^ 16).toNat
    let fy := (y % 2 ^ 16).toNat
    let kx := x / 2 ^ 16
    let ky := y / 2 ^ 16
    if fx = 0 ∧ fy = 0 then srcPx n zero kx ky s
    else
      let one := fun (q : Int × Int) (s : State) => srcPx n zero q.1 q.2 s
      let (l, e, s) := readAll one [(kx, ky), (kx + 1, ky), (kx, ky + 1), (kx + 1, ky + 1)] s
      (perComponent (fun v => freeRound (bilinearSum (fx / 1024) (fy / 1024) v) 4096) l, e, s)

/-- A derived value in its register's format; one outside it is a free value (R129). -/
def fit24 (v : Int) : Int := if -(2 ^ 23) ≤ v ∧ v < 2 ^ 23 then v else Config.horizonOverflow v

/-- X0, Y0, DX and DY of pipe line `y` in HORIZON mode, or none where the line is transparent (R129). -/
def State.horizon (s : State) (n y : Nat) : Option (Int × Int × Int × Int) :=
  let d : Int := (y : Int) - signedAt 16 (s.snp (F.planeHzLine_LINE n))
  let ks : Int := (s.snp (F.planeHzKs_K n) : Nat)
  let kz : Int := (s.snp (F.planeHzKz_K n) : Nat)
  let xc : Int := (s.snp (F.planeHzXc_COL n) : Nat)
  let vx := signedAt 24 (s.snp (F.planeHzVx_DIR n))
  let vy := signedAt 24 (s.snp (F.planeHzVy_DIR n))
  let cx := signedAt 24 (s.snp (F.planeHzCx_POS n))
  let cy := signedAt 24 (s.snp (F.planeHzCy_POS n))
  if d ≤ 0 ∨ (s.snp (F.planeHzSmax_S n) : Int) * d < ks then none
  else
    let dn := d.toNat
    let dx := fit24 (roundInt (-(ks * vy)) (2 ^ 16 * dn))
    let dy := fit24 (roundInt (ks * vx) (2 ^ 16 * dn))
    let x0 := fit24 (roundInt (cx * 2 ^ 24 * d + kz * 2 ^ 8 * vx + xc * ks * vy) (2 ^ 24 * dn))
    let y0 := fit24 (roundInt (cy * 2 ^ 24 * d + kz * 2 ^ 8 * vy - xc * ks * vx) (2 ^ 24 * dn))
    some (x0, y0, dx, dy)

/-! ### Output lines (R131 to R134, R138) -/

/-- The window width in force on a line: WIN.DST_W clipped to WMAX (R136). -/
def State.planeW (s : State) (n : Nat) : Nat := min (s.snp (F.planeWin_DST_W n)) (s.lat (F.planeWmax_WIDTH n))

/-- How many pixels of the window lie in the active area (R138). -/
def State.planeVisible (s : State) (p n : Nat) : Nat := min (s.planeW n) (s.hactive p - s.snp (F.planeWin_DST_X n))

/-- Pipe line `l` lies in the engine's window (R109, R138). -/
def State.inWindow (s : State) (p n l : Nat) : Bool :=
  s.lat (F.planeDst_DST_Y n) ≤ l && l < s.lat (F.planeDst_DST_Y n) + s.lat (F.planeDst_DST_H n) && l < s.vactive p

/-- The source is empty: SRC_W or SRC_H is 0 in BITMAP or VIDEO MEMORY (R138). -/
def State.zeroSrc (s : State) (n : Nat) : Bool :=
  s.planeKind n != 0 && s.planeSel n == 0 && (s.lat (F.planeSrc_SRC_W n) == 0 || s.lat (F.planeSrc_SRC_H n) == 0)

/-- The engine fetches something for pipe line `l` (R138). -/
def State.planeWants (s : State) (p n l : Nat) : Bool :=
  let r := s.plane n
  s.inWindow p n l && s.snp (F.planeLine_EN n) == 1 && s.planeVisible p n != 0 && !r.bad && !r.noFrame && !s.zeroSrc n

/-- The pixels of pipe line `l`, with the error flag (R109, R127, R129, R121). ALPHA of the line multiplies the filtered pixel (DESIGN
CHOICE, assumption 153). -/
def planeLine (p n l : Nat) (s : State) : List Px × Bool × State :=
  let zero := s.ahead p l
  let j := l - s.lat (F.planeDst_DST_Y n)
  let w := s.planeW n
  let alpha := s.snp (F.planeAlpha_ALPHA n)
  let cols := List.range (s.planeVisible p n)
  let r := s.plane n
  let raced := s.planeSel n == 2
  let (l', e, s) :=
    if raced && (r.bound.isNone || r.subs.any fun t => t.2.isNone) then (cols.map fun _ => Px.clear, false, s)
    else match s.planeMode n with
      | 1 =>
        let dx := signedAt 24 (s.snp (F.planeAffDx_STEP n))
        let dy := signedAt 24 (s.snp (F.planeAffDy_STEP n))
        readAll (fun (i : Nat) s => affinePx n zero (r.affX + i * dx) (r.affY + i * dy) s) cols s
      | 2 =>
        match s.horizon n l with
        | none => (cols.map fun _ => Px.clear, false, s)
        | some (x0, y0, dx, dy) =>
          readAll (fun (i : Nat) s => affinePx n zero (x0 * 2 ^ 8 + i * dx) (y0 * 2 ^ 8 + i * dy) s) cols s
      | _ => readAll (separablePx n zero w j) cols s
  (l'.map (·.fade alpha), e, s)

/-- The offset of engine `n`'s registers (R141). -/
def planeOff (n : Nat) : Nat := 0x401000 + n * 0x100

/-- The engine's frame-latched registers latch (R131, R134). -/
def planeLatch (n : Nat) (s : State) : State := latchRange (planeOff n) (planeOff n + 0x40) s

/-- The affine position of the line whose snapshot is taken, reached by the steps `dmx` and `dmy` in force before it (R127, R295). -/
def affineAdvance (p n l : Nat) (dmx dmy : Int) (s : State) : State :=
  let r := s.plane n
  let first := l == s.lat (F.planeDst_DST_Y n)
  let x0 := signedAt 24 (s.snp (F.planeAffX0_POS n)) * 2 ^ 8
  let y0 := signedAt 24 (s.snp (F.planeAffY0_POS n)) * 2 ^ 8
  let x := if first || r.dirtyX then x0 else r.affX + dmx
  let y := if first || r.dirtyY then y0 else r.affY + dmy
  onPlane n (fun r => if s.inWindow p n l then { r with affX := x, affY := y, dirtyX := false, dirtyY := false }
                      else { r with dirtyX := false, dirtyY := false }) s

/-- The clamps and the empty source of a frame are flagged when a line of the window is prepared (R111, R138); a frame in which the window
has no line flags none (DESIGN CHOICE, assumption 155). -/
def planeChecks (n : Nat) (zero : Bool) (s : State) : State :=
  let sep := s.planeMode n == 0
  let h := s.lat (F.planeHstep_STEP n)
  let v := s.lat (F.planeVstep_STEP n)
  let s := if sep && hstepOf h != h then planeFlag n 2 zero s else s
  let s := if sep && s.planeVstep n != v then planeFlag n 3 zero s else s
  if s.zeroSrc n then planeFlag n 5 zero s else s

/-- The snapshot for output line `l`, and the start of its fetch (R132, R133). -/
def planeSnapshot (p n l : Nat) (s : State) : State :=
  let dmx := signedAt 24 (s.snp (F.planeAffDmx_STEP n))
  let dmy := signedAt 24 (s.snp (F.planeAffDmy_STEP n))
  let s := snapRange (planeOff n + 0x40) (planeOff n + 0x98) s
  let s := snapRange (0x480000 + n * 0x800) (0x480800 + n * 0x800) s
  let s := affineAdvance p n l dmx dmy s
  let s := if l = 0 then onPlane n (fun r => { r with stopped := false, slack0 := none, latency0 := none, replaced0 := 0, late0 := false }) s else s
  if (s.plane n).stopped then s
  else
    let s := if s.inWindow p n l then planeChecks n (s.ahead p l) s else s
    if s.planeWants p n l then
      onPlane n (fun r => { r with fetch := some l, ready := none, subs := [], cutoff := none }) (s.wr (F.planeStatus_FETCH_LINE n) l)
    else onPlane n (fun r => { r with fetch := none, ready := some ⟨l, 0, []⟩ }) s

/-- The lines of its source that a raced engine needs for pipe line `l`, inside the camera frame (R218). -/
def State.racedLines (s : State) (n l : Nat) : List Nat :=
  let h := s.rd (F.streamSize_H (s.planeStream n))
  (s.planeTapLines n (l - s.lat (F.planeDst_DST_Y n))).filterMap fun (y : Int) => if 0 ≤ y ∧ y < h then some y.toNat else none

/-- The slot of line `c` holds a valid tag of the bound frame (R217, R218). -/
def State.landed (s : State) (st frame c : Nat) : Bool := (s.stream st).tags.any fun t => t.frame == frame && t.line == c

/-- A raced engine's fetch of line `l` may begin: every tap line has landed, or the cut-off passed (R218). -/
def State.racedReady (s : State) (n l : Nat) : Bool :=
  let r := s.plane n
  r.cutoff == some l || (l != 0 && match r.bound with
    | none => false
    | some f => (s.racedLines n l).all fun c => s.landed (s.planeStream n) f c)

/-- PLANE_LINE_FETCHED: the fetch in progress completes, or stops the engine for the frame (R132, R137). `cclk` is the time
since the snapshot (R143). -/
def execPlaneLineFetched (n : Fin 32) (cclk : Nat) (s : State) : Out :=
  let r := s.plane n.val
  .next (match r.fetch with
    | some l =>
      let p := s.planePipe n.val
      if s.planeSel n.val == 2 && !s.racedReady n.val l then s
      else
        let (px, e, s) := planeLine p n.val l s
        if e then planeUnderrun n.val l s
        else onPlane n.val (fun r => { r with fetch := none, ready := some ⟨l, s.snp (F.planeWin_DST_X n.val), px⟩,
                                              cost := max r.cost (min cclk 65535) }) s
    | none => s)

/-! ### Ring frames and assignment (R106, R107, R125, R211) -/

/-- The engine lets go of the ring buffer it holds (R211). -/
def ringRelease (n : Nat) (s : State) : State :=
  match (s.plane n).ring with
  | none => s
  | some t => showHolders t.stream t.buf (onPlane n (fun r => { r with ring := none }) s)

/-- At a latch line a RING engine takes the newest complete frame of its stream, or none (R125). -/
def ringTake (n : Nat) (s : State) : State :=
  let s := onPlane n (fun r => { r with noFrame := false }) (ringRelease n s)
  if s.planeSel n != 1 then s
  else
    let st := s.planeStream n
    let b := s.rd (F.streamStatus_NEWEST st)
    match s.flag (F.streamStatus_NEWEST_VALID st), s.streamFmt st with
    | true, some fmt =>
      let t : RingTake := { stream := st, buf := b, base := s.ringBuf st b, stride := s.rd (F.streamStride_BYTES st),
                            w := s.rd (F.streamSize_W st), h := s.rd (F.streamSize_H st), fmt := fmt }
      showHolders st b (onPlane n (fun r => { r with ring := some t }) s)
    | _, _ => planeFlag n 6 true (onPlane n (fun r => { r with noFrame := true }) s)

/-- The engine is enabled for pipe `p` by its registers (R104, R141). -/
def State.planeAsks (s : State) (p n : Nat) : Bool :=
  s.flag (F.planeCfg_EN n) && s.rd (F.planeCfg_KIND n) != 3 && s.rd (F.planeCfg_PIPE n) == p

/-- The engines that join pipe `p` at its next frame start: enabled for it and belonging to none (R106). -/
def State.joiners (s : State) (p : Nat) : List Nat :=
  (List.range 32).filter fun n => (s.plane n).pipe.isNone && s.planeAsks p n

/-- The engine leaves its pipe (R106, R211). -/
def planeLeave (n : Nat) (s : State) : State :=
  let s := onPlane n (fun r => { r with pipe := none, fetch := none, ready := none, bound := none }) (ringRelease n s)
  (s.clr (F.planeStatus_ACTIVE n)).setBit F.planeAssigned_ENGINE n false

/-- The engine joins pipe `p` (R106). -/
def planeJoin (p n : Nat) (s : State) : State :=
  let s := onPlane n (fun r => { r with pipe := some p, slot := s.rd (F.planeCfg_SLOT n) }) s
  raise 131 ((s.set1 (F.planeStatus_ACTIVE n)).setBit F.planeAssigned_ENGINE n true)

/-- The engines that leave pipe `p` at its next frame start (R106). -/
def State.leavers (s : State) (p : Nat) : List Nat :=
  (s.planesOf p).filter fun n => !s.planeAsks p n || s.rd (F.planeCfg_SLOT n) != (s.plane n).slot

/-- Engines leave and join at a frame start of pipe `p` (R106). -/
def planesAtFrameStart (p : Nat) (s : State) : State :=
  let join := s.joiners p
  s.forL (s.leavers p) planeLeave |>.forL join (planeJoin p)

/-! ### Cost and admission (R135, R136) -/

/-- The cost C of an output line at a window of `w` pixels (R135), from the settings as last written. -/
def State.planeCost (s : State) (n w : Nat) : Nat :=
  let kind := s.rd (F.planeCfg_KIND n)
  let mode := if s.rd (F.planeCfg_MODE n) = 3 then 0 else s.rd (F.planeCfg_MODE n)
  let wide := s.flag (F.planeCfg_WIDE n)
  let h := hstepOf (s.rd (F.planeHstep_STEP n))
  let v := vstepOf wide (s.rd (F.planeVstep_STEP n))
  let filter := if s.rd (F.planeCfg_FILTER n) = 3 then 0 else s.rd (F.planeCfg_FILTER n)
  let taps := tapsOf filter (s.rd (F.planeCfg_VTAPS n)) wide v
  let ws := (w * h + 0xFFFFF) / 0x100000 + 8
  let rows := max ((max v 0x100000 + 0xFFFFF) / 0x100000) taps
  let t := [8, 16, 32, 32].getD (s.rd (F.planeFmt_TILE n)) 32
  let sel := if kind = 2 then s.rd (F.planeCfg_SRC_SEL n) % 3 else 0
  let two := kind == 2 && sel == 0 && 0x13 ≤ s.rd (F.planeFmt_FORMAT n)
  match mode with
  | 1 => w + 64
  | 2 => w + 88
  | _ =>
    let base := rows * ((ws + 1) / 2 + 16)
    if kind = 0 then base + rows * 2 * ((ws + t - 1) / t + 1)
    else if two then base + rows * ((ws + 3) / 4 + 16) else base

end Sys2Proof.Machine
end

