-- ==== Sys2Proof/Machine/Harp.lean ====
section
/-! DEFINITION. The Harp object engine (R146 to R168): the write gates and publication, the scan, selection, capture and draw
of an object layer line, and the staging copy. -/

namespace Sys2Proof.Machine

/-- The Harp's work for pipe `p`. -/
def State.harpRun (s : State) (p : Nat) : HarpRun := s.harp.pipes.getD p harp0

def onHarp (p : Nat) (f : HarpRun → HarpRun) (s : State) : State :=
  { s with harp := { s.harp with pipes := modAt s.harp.pipes p f } }

/-! ### Whole words of a register -/

/-- The value that a register's fields spell. -/
def State.rdAll (s : State) (fs : List Fld) : Nat := fs.foldl (fun a f => a + s.rd f * 2 ^ f.lsb) 0

/-- A register's fields written from a word. -/
def wrAll (fs : List Fld) (v : Nat) (s : State) : State := s.forL fs fun f s => s.wr f (bitsAt v f.lsb f.width)

/-- The fields of word `w` of context `i` (R147). -/
def ctxFlds (i w : Nat) : List Fld :=
  match w with
  | 0 => [F.harpObjCtl_EN i, F.harpObjCtl_AFFINE i, F.harpObjCtl_HFLIP i, F.harpObjCtl_VFLIP i, F.harpObjCtl_BILINEAR i,
          F.harpObjCtl_CLIP_EN i, F.harpObjCtl_PREMUL i, F.harpObjCtl_FORMAT i, F.harpObjCtl_PAL i, F.harpObjCtl_PRIORITY i,
          F.harpObjCtl_PIPE_MASK i]
  | 1 => [F.harpObjPos_X i, F.harpObjPos_Y i]
  | 2 => [F.harpObjSize_W_M1 i, F.harpObjSize_H_M1 i, F.harpObjSize_BOX_W_M1 i, F.harpObjSize_BOX_H_M1 i]
  | 3 => [F.harpObjLook_ALPHA i, F.harpObjLook_PAL_OFS i, F.harpObjLook_STRIDE i]
  | 4 => [F.harpObjPat_ADDR i]
  | 5 => [F.harpObjClipx_X0 i, F.harpObjClipx_X1 i]
  | 6 => [F.harpObjClipy_Y0 i, F.harpObjClipy_Y1 i]
  | _ => [F.harpObjPub_AFF_SET i, F.harpObjPub_TAG i]

/-- The fields of word `w` of affine set `a`; word 3 holds none (R150). -/
def affFlds (a w : Nat) : List Fld :=
  match w with
  | 0 => [F.harpAffMx_MXX a, F.harpAffMx_MXY a]
  | 1 => [F.harpAffMy_MYX a, F.harpAffMy_MYY a]
  | 2 => [F.harpAffPiv_PIVX a, F.harpAffPiv_PIVY a]
  | _ => []

/-- The published words of a context, and of an affine set. -/
def State.ctxWords (s : State) (i : Nat) : List Nat := (List.range 8).map fun w => s.rdAll (ctxFlds i w)
def State.affWords (s : State) (a : Nat) : List Nat := (List.range 3).map fun w => s.rdAll (affFlds a w)

/-! ### The write gates (R148 to R150) -/

/-- The tag may write the group: the Cellar, or the owner's sequencer (R148). -/
def State.harpOwns (s : State) (t : Tag) (g : Nat) : Bool :=
  match t with
  | .cellar => true
  | .seq p => s.rd (F.harpGrp_OWNER g) == p
  | _ => false

/-- The group of a context or an affine set (R148). -/
def harpGroup (aff : Bool) (i : Nat) : Nat := if aff then i / 16 else i / 64

/-- The IRS offset of word `w` of a context or an affine set (R146). -/
def harpOff (aff : Bool) (i w : Nat) : Nat := if aff then 0x520000 + i * 16 + w * 4 else 0x500000 + i * 32 + w * 4

def State.gateOf (s : State) (t : Tag) : Option HarpGate := s.harp.gates.find? fun g => g.tag == t

def setGate (t : Tag) (g : Option HarpGate) (s : State) : State :=
  { s with harp := { s.harp with gates := g.toList ++ s.harp.gates.filter fun h => h.tag != t } }

/-- A word enters the initiator's gate; words of another context or set are discarded first (R149). -/
def gateWord (t : Tag) (aff : Bool) (i w v : Nat) (s : State) : State :=
  if !s.harpOwns t (harpGroup aff i) then droppedBy t (harpOff aff i w) v s
  else match s.gateOf t with
    | some g =>
      if g.aff == aff && g.index == i then
        setGate t (some { g with words := (w, v) :: g.words.filter fun x => x.1 != w }) s
      else setGate t (some ⟨t, aff, i, [(w, v)]⟩) (s.inc F.harpStatus_DISCARDS)
    | none => setGate t (some ⟨t, aff, i, [(w, v)]⟩) s

/-- The last word publishes it and every gated word of the same context or set together; the gate is then empty. Words gated
for another are discarded first and counted as R149 counts them for the other words (DESIGN CHOICE, assumption 157; R149, R150). -/
def publish (t : Tag) (aff : Bool) (i v : Nat) (s : State) : State :=
  let last := if aff then 3 else 7
  let mine := fun (g : HarpGate) => g.aff == aff && g.index == i
  let s := s.iff ((s.gateOf t).any fun g => !mine g) fun s => s.inc F.harpStatus_DISCARDS
  let words := ((s.gateOf t).filter mine).elim [] (·.words)
  let s := setGate t none s
  if !s.harpOwns t (harpGroup aff i) then droppedBy t (harpOff aff i last) v s
  else s.forL ((last, v) :: words) fun x s => wrAll (if aff then affFlds i x.1 else ctxFlds i x.1) x.2 s

/-- A word of a context or set written: gated, or publishing where it is the last one. -/
def harpWordWrite (t : Tag) (aff : Bool) (i w v : Nat) (s : State) : State :=
  if w = (if aff then 3 else 7) then publish t aff i v s else gateWord t aff i w v s

/-- Word `w` of a context or set as the tag's next whole write would leave it: its gated word where it holds one, else the
published one (R149). -/
def State.harpHeldWord (s : State) (t : Tag) (off : Nat) : Nat :=
  let aff : Bool := 0x20000 ≤ off
  let i := if aff then (off - 0x20000) / 16 else off / 32
  let w := if aff then off / 4 % 4 else off / 4 % 8
  match (s.gateOf t).bind fun g => if g.aff == aff && g.index == i then g.words.find? fun x => x.1 == w else none with
  | some x => x.2
  | none => s.rdAll (if aff then affFlds i w else ctxFlds i w)

/-- A write of fewer than 32 bits to object memory: the word it makes, its other bytes as the tag's gate or the published word
holds them (DESIGN CHOICE, assumption 158). -/
def State.harpMerged (s : State) (t : Tag) (off lo n data : Nat) : Nat :=
  if n < 32 then setBitsAt (s.harpHeldWord t off) lo n data else bitsAt data 0 n

/-- A write of 32 or 64 bits to object memory at `off` in the Harp's block (R146, R149). -/
def harpWrite (t : Tag) (off : Nat) (wide : Bool) (data : Nat) (s : State) : State :=
  let one := fun (o v : Nat) (s : State) =>
    if o < 0x20000 then harpWordWrite t false (o / 32) (o / 4 % 8) v s
    else if o < 0x24000 then harpWordWrite t true ((o - 0x20000) / 16) (o / 4 % 4) v s else s
  if wide then one (off / 8 * 8 + 4) (data / 2 ^ 32 % 2 ^ 32) (one (off / 8 * 8) (data % 2 ^ 32) s)
  else one (off / 4 * 4) (data % 2 ^ 32) s

/-- HARP_GATE_WRITE (R149, R150). -/
def execHarpGateWrite (who : Initiator) (off : BitVec 18) (wide : Bool) (data : BitVec 64) (s : State) : Out :=
  .next (writeIrs who (0x500000 + off.toNat) data.toNat (harpWrite (initiatorTag who) off.toNat wide data.toNat) s)

/-- HARP_OBJ_PUBLISH: a 32-bit write of word 7 of a context (R149). -/
def execHarpObjPublish (who : Initiator) (i : Fin 4096) (data : BitVec 32) (s : State) : Out :=
  .next (writeIrs who (harpOff false i.val 7) data.toNat (publish (initiatorTag who) false i.val data.toNat) s)

/-- HARP_AFF_PUBLISH: a 32-bit write of word 3 of an affine set (R150). -/
def execHarpAffPublish (who : Initiator) (set : Fin 1024) (s : State) : Out :=
  .next (writeIrs who (harpOff true set.val 3) 0 (publish (initiatorTag who) true set.val 0) s)

/-! ### Status (R157, R159, R161, R162, R165, R167) -/

/-- Status flag `b` of pipe `p`, b = 0 to 4 as its bit. -/
def harpFlagFld (p b : Nat) : Fld :=
  match b with
  | 0 => F.harpPipeStatus_OVF_COUNT p
  | 1 => F.harpPipeStatus_OVF_TIME p
  | 2 => F.harpPipeStatus_UNDERRUN p
  | 3 => F.harpPipeStatus_BAD_OBJ p
  | _ => F.harpPipeStatus_STAGE_ERR p

/-- A flag set, and its source raised once per pipe per frame; the flags of line-0 work show from the frame start
(DEDUCED, assumption 9). -/
def harpFlag (p b : Nat) (zero : Bool) (s : State) : State :=
  if (if zero then bitAt (s.harpRun p).nxt b else s.flag (harpFlagFld p b)) then s
  else
    let s := if zero then onHarp p (fun r => { r with nxt := r.nxt ||| 2 ^ b }) s else s.set1 (harpFlagFld p b)
    let s := if b = 2 then s.inc (F.harpPipeUnderruns_COUNT p) else s
    if b < 4 then raise (144 + b) s else s

/-- Flags, maxima and the enable at a frame start of pipe `p` (R167, R168). -/
def harpFrameStart (p : Nat) (s : State) : State :=
  let cur := (List.range 5).foldl (fun a b => a + bit (s.flag (harpFlagFld p b)) * 2 ^ b) 0
  let r := s.harpRun p
  let s := ((s.wr (F.harpPipeStatus_LAST p) cur).wr (F.harpPipeStatus_MAXUNITS p) r.units).wr (F.harpPipeMaxcyc_CCLK p) (min 65535 r.cyc)
  let s := s.forN 5 fun b s => s.wr (harpFlagFld p b) (bit (bitAt r.nxt b))
  let s := onHarp p (fun r =>
    { r with nxt := 0, units := r.nxtUnits, cyc := r.nxtCyc, nxtUnits := 0, nxtCyc := 0, staged := false }) s
  latchRange (0x531000 + p * 0x40) (0x531000 + p * 0x40 + 4) s

/-! ### Placement (R153, R154) -/

/-- What a context says, from its eight words (R147). -/
structure Obj where
  index : Nat
  words : List Nat
deriving DecidableEq, Repr

def Obj.fld (o : Obj) (w lo n : Nat) : Nat := bitsAt (o.words.getD w 0) lo n
def Obj.affine (o : Obj) : Bool := o.fld 0 1 1 == 1
def Obj.prio (o : Obj) : Nat := o.fld 0 16 8
def Obj.fmt (o : Obj) : Nat := o.fld 0 8 4
def Obj.x (o : Obj) : Int := signedAt 14 (o.fld 1 0 14)
def Obj.y (o : Obj) : Int := signedAt 14 (o.fld 1 16 14)
def Obj.w (o : Obj) : Nat := o.fld 2 0 8 + 1
def Obj.h (o : Obj) : Nat := o.fld 2 8 8 + 1
def Obj.boxW (o : Obj) : Nat := o.fld 2 16 8 + 1
def Obj.boxH (o : Obj) : Nat := o.fld 2 24 8 + 1
def Obj.alpha (o : Obj) : Nat := o.fld 3 0 12
def Obj.palOfs (o : Obj) : Nat := o.fld 3 12 8
def Obj.stride (o : Obj) : Nat := o.fld 3 20 8 * 64
def Obj.addr (o : Obj) : Nat := o.fld 4 0 32 * 256
def Obj.coverW (o : Obj) : Nat := if o.affine then o.boxW else o.w
def Obj.coverH (o : Obj) : Nat := if o.affine then o.boxH else o.h

/-- The first and last dot of the object's extent on line `l` of a pipe (R153). -/
def Obj.extent (o : Obj) (hactive vactive l : Nat) : Option (Nat × Nat) :=
  let clip := o.fld 0 5 1 == 1
  let x0 : Int := max (max o.x 0) (if clip then (o.fld 5 0 13 : Nat) else 0)
  let x1 : Int := min (min (o.x + o.coverW - 1) ((hactive : Int) - 1)) (if clip then (o.fld 5 16 13 : Nat) else (hactive : Nat))
  let inY := decide (o.y ≤ l ∧ (l : Int) < o.y + o.coverH ∧ l < vactive)
    && (!clip || (o.fld 6 0 13 ≤ l && l ≤ o.fld 6 16 13))
  if inY ∧ x0 ≤ x1 then some (x0.toNat, x1.toNat) else none

/-- The object is not drawn on pipe `p` and flagged BAD_OBJ (R160, R162). -/
def Obj.bad (o : Obj) (p : Nat) (s : State) : Bool :=
  8 ≤ o.fmt || (!isVat o.addr && !isLp5x o.addr) || (isLp5x o.addr && s.rd (F.pipeStatus_LP5X_REASON p) == 0)

/-! ### Pattern colour (R151, R152) -/

/-- Bits per pattern pixel (R152). -/
def patBits (fmt : Nat) : Nat := [2, 4, 8, 8, 16, 16, 16, 32].getD fmt 8

/-- Entry `e` of Harp palette `q` as it stands (R151). -/
def State.harpPal (s : State) (q e : Nat) : Px := ⟨s.rd (F.harpPal_R q e), s.rd (F.harpPal_G q e), s.rd (F.harpPal_B q e), s.rd (F.harpPal_A q e)⟩

/-- The raw pattern pixel (x, y): its colour before ALPHA (R151, R152). -/
def patternPx (p : Nat) (o : Obj) (x y : Nat) (s : State) : Px × Bool × State :=
  let b := patBits o.fmt
  let (d, e, s) := memRead (.harp (Fin.ofNat 8 p)) (o.addr + y * o.stride + x * b / 8) ((b + 7) / 8) s
  let v := bitsAt (leNat d) (x * b % 8) b
  let pal := o.fld 0 12 3
  let px := match o.fmt with
    | 3 => { s.harpPal pal o.palOfs with a := widen12 8 v }
    | 4 => directPx 2 v 0
    | 5 => directPx 1 v 0
    | 6 => directPx 0 v 0
    | 7 => directPx 4 v 0
    | _ => if v = 0 then Px.clear else s.harpPal pal ((v + o.palOfs) % 256)
  (px, e, s)

/-- ALPHA applied, and colour premultiplied unless PREMUL is 1 (R151); an ALPHA of 0 leaves nothing (R162). -/
def Obj.look (o : Obj) (px : Px) : Px :=
  let q := px.fade o.alpha
  if o.alpha = 0 then Px.clear
  else if o.fld 0 6 1 == 1 then q else ⟨divRound (q.r * q.a) 4095, divRound (q.g * q.a) 4095, divRound (q.b * q.a) 4095, q.a⟩

/-- A pattern pixel, transparent outside the pattern. -/
def patternAt (p : Nat) (o : Obj) (x y : Int) (s : State) : Px × Bool × State :=
  if 0 ≤ x ∧ x < o.w ∧ 0 ≤ y ∧ y < o.h then patternPx p o x.toNat y.toNat s else (Px.clear, false, s)

/-- The pixel of the object at pipe dot `x` of line `l`, premultiplied (R151, R153, R154; the top 6 fraction bits: DEDUCED, assumption 135).
`aff` holds the words of its set. -/
def objPx (p : Nat) (o : Obj) (aff : List Nat) (l x : Nat) (s : State) : Px × Bool × State :=
  let bx := ((x : Int) - o.x).toNat
  let by' := ((l : Int) - o.y).toNat
  if !o.affine then
    let px := if o.fld 0 2 1 == 1 then o.w - 1 - bx else bx
    let py := if o.fld 0 3 1 == 1 then o.h - 1 - by' else by'
    let (v, e, s) := patternPx p o px py s
    (o.look v, e, s)
  else
    let m (w lo : Nat) : Int := signedAt 16 (bitsAt (aff.getD w 0) lo 16)
    let piv (lo : Nat) : Int := (bitsAt (aff.getD 2 0) lo 16 : Nat)
    let ox : Int := 2 * (bx : Int) + 1 - o.boxW
    let oy : Int := 2 * (by' : Int) + 1 - o.boxH
    -- positions in units of 2^-13
    let sx := m 0 0 * ox + m 0 16 * oy + piv 0 * 2 ^ 9
    let sy := m 1 0 * ox + m 1 16 * oy + piv 16 * 2 ^ 9
    if sx < 0 ∨ sy < 0 ∨ (o.w : Int) * 2 ^ 13 ≤ sx ∨ (o.h : Int) * 2 ^ 13 ≤ sy then (Px.clear, false, s)
    else if o.fld 0 4 1 == 0 then
      let (v, e, s) := patternAt p o (sx / 2 ^ 13) (sy / 2 ^ 13) s
      (o.look v, e, s)
    else
      let tx := sx - 2 ^ 12
      let ty := sy - 2 ^ 12
      let kx := tx / 2 ^ 13
      let ky := ty / 2 ^ 13
      let fx := (tx % 2 ^ 13).toNat
      let fy := (ty % 2 ^ 13).toNat
      if fx = 0 ∧ fy = 0 then
        let (v, e, s) := patternAt p o kx ky s
        (o.look v, e, s)
      else
        let one := fun (q : Int × Int) (s : State) => patternAt p o q.1 q.2 s
        let (ps, e, s) := readAll one [(kx, ky), (kx + 1, ky), (kx, ky + 1), (kx + 1, ky + 1)] s
        (perComponent (fun v => divRound (bilinearSum (fx / 128) (fy / 128) v) 4096) (ps.map o.look), e, s)

/-! ### The object layer (R155 to R162) -/

/-- A component under what is already drawn (R155). -/
def under (c below a : Nat) : Nat :=
  let v := c + divRound (below * (4095 - a)) 4095
  if v ≤ 4095 then v else Config.harpOverflow v % 4096

/-- A pixel placed under what is already drawn (R155). -/
def underPx (top px : Px) : Px :=
  ⟨under top.r px.r top.a, under top.g px.g top.a, under top.b px.b top.a, under top.a px.a top.a⟩

/-- Drawing order: descending PRIORITY, then ascending index (R155). -/
def drawSort (l : List (Obj × Nat × Nat)) : List (Obj × Nat × Nat) :=
  l.mergeSort fun a b => b.1.prio < a.1.prio || (a.1.prio == b.1.prio && a.1.index ≤ b.1.index)

/-- Selection within 256 units: the objects selected, those dropped, and the units taken (R157). -/
def selectUnits : Nat → List (Obj × Nat × Nat) → List (Obj × Nat × Nat) × List (Obj × Nat × Nat) × Nat
  | units, [] => ([], [], units)
  | units, o :: t =>
    let u := if o.1.affine then 4 else 1
    if 256 < units + u then ([], o :: t, units)
    else
      let (sel, drop, n) := selectUnits (units + u) t
      (o :: sel, drop, n)

/-- The object evaluated at index `i`: the captured copy where one is held, else the context (R158). -/
def State.objAt (s : State) (p i : Nat) : Obj :=
  match (s.harpRun p).caps.find? fun c => c.index == i with
  | some c => ⟨i, c.ctx⟩
  | none => ⟨i, s.ctxWords i⟩

/-- An object first selected is captured, with its affine set (R158). -/
def capture (p : Nat) (o : Obj) (s : State) : State :=
  if (s.harpRun p).caps.any fun c => c.index == o.index then s
  else onHarp p (fun r => { r with caps := ⟨o.index, o.words, s.affWords (o.fld 7 0 10)⟩ :: r.caps }) s

/-- Dropped objects are counted and lose their captures (R157 to R159). -/
def dropObjs (p b : Nat) (zero : Bool) (l : List (Obj × Nat × Nat)) (s : State) : State :=
  if l.isEmpty then s
  else
    let s := harpFlag p b zero (s.incBy (F.harpPipeDrops_COUNT p) l.length)
    onHarp p (fun r => { r with caps := r.caps.filter fun c => !(l.any fun o => o.1.index == c.index) }) s

/-- Objects drawn in order into the line (R155, R159): `t` is the time spent, `avail` the time the draw unit has. Answers the
line, the objects dropped for time, the error flag and the time. -/
def drawObjs (p l : Nat) (avail : Option Nat) :
    Nat → List (Obj × Nat × Nat) → List Px → State → List Px × List (Obj × Nat × Nat) × Bool × Nat × State
  | t, [], row, s => (row, [], false, t, s)
  | t, (o, x0, x1) :: rest, row, s =>
    let w := x1 - x0 + 1
    let (setup, rate) := if o.affine then (16, 1) else (8, 4)
    let big := o.affine && 16384 < o.h * o.stride
    let (k, s) := s.fresh
    let full := setup + (w + rate - 1) / rate + if big then Config.harpWait k else 0
    let late := avail.any fun a => a < t + full
    let drawn := (avail.getD 0 - t - setup) * rate
    let shown := if late then min w (if big then min drawn (Config.harpShown k) else drawn) else w
    let aff := (((s.harpRun p).caps.find? fun c => c.index == o.index).elim [] (·.aff))
    let (ps, e, s) := readAll (fun i s => objPx p o aff l (x0 + i) s) (List.range shown) s
    let row := row.zipIdx.map fun q => if x0 ≤ q.2 ∧ q.2 < x0 + shown then underPx q.1 (ps.getD (q.2 - x0) Px.clear) else q.1
    if e then (row, [], true, t + full, s)
    else if late then (row, (o, x0, x1) :: rest, false, avail.getD 0, s)
    else drawObjs p l avail (t + full) rest row s

/-- The Harp's enable for line `l` of pipe `p`: line-0 work already follows a new value (R168). A value set
after the line-0 point and before the frame start finds no line-0 work done, and line 0 of that frame shows no objects (DESIGN
CHOICE, assumption 162). -/
def State.harpEn (s : State) (p l : Nat) : Bool :=
  if l = 0 then s.flag (F.harpPipeCtl_EN p) else s.latFlag (F.harpPipeCtl_EN p)

/-- The object layer of pipe `p` underruns (R161). -/
def harpUnderrun (p : Nat) (zero : Bool) (s : State) : State :=
  onHarp p (fun r => { r with stopped := true, work := none, ready := none }) (harpFlag p 2 zero s)

/-- Scan, selection and draw of line `l` of pipe `p` (R156 to R162). -/
def harpWork (p l scanWait : Nat) (avail : Option Nat) (s : State) : State :=
  let zero := s.ahead p l
  let all := ((List.range 4096).filter fun i => s.flag (F.harpObjCtl_EN i) || (s.harpRun p).caps.any fun c => c.index == i)
  let objs := (all.map (s.objAt p)).filter fun o => o.fld 0 0 1 == 1 && bitAt (o.fld 0 24 8) p
  let hits := objs.filterMap fun o => (o.extent (s.hactive p) (s.vactive p) l).map fun e => (o, e.1, e.2)
  let s := if hits.any fun h => h.1.bad p s then harpFlag p 3 zero s else s
  let (sel, drop, units) := selectUnits 0 (drawSort (hits.filter fun h => !h.1.bad p s))
  let s := dropObjs p 0 zero drop s
  let s := s.forL sel fun o s => capture p o.1 s
  let s := onHarp p (fun r => if zero then { r with nxtUnits := max r.nxtUnits units } else { r with units := max r.units units }) s
  let (row, late, e, t, s) := drawObjs p l avail 0 sel (List.replicate (s.hactive p) Px.clear) s
  if e then harpUnderrun p zero s
  else
    let s := dropObjs p 1 zero late s
    let c := scanWait + 128 + t
    onHarp p (fun r =>
      let r := if zero then { r with nxtCyc := max r.nxtCyc c } else { r with cyc := max r.cyc c }
      { r with work := none, ready := some ⟨l, 0, row⟩ }) s

/-- HARP_SCAN: the work in progress for pipe `p` is done (R156). `scanWait` is the wait for the evaluator, `avail` the time the
draw unit has until the deadline, none when it is enough. Line-0 work waits for a staging copy. -/
def execHarpScan (p : Fin 8) (scanWait : Nat) (avail : Option Nat) (s : State) : Out :=
  .next (match (s.harpRun p.val).work with
    | some l => if l = 0 && (s.harpRun p.val).stage.isSome then s else harpWork p.val l scanWait avail s
    | none => s)

/-- The deadline of line `l`: work not done by then is dropped (R156, R159). Work whose scan has not run by then selects from
the contexts as they stand, and all it selects is dropped for time, its work time 128 cclk (DESIGN CHOICE, assumption 159). -/
def harpDeadline (p l : Nat) (s : State) : State :=
  if (s.harpRun p).work == some l then harpWork p l 0 (some 0) s else s

/-- The Harp's work for line `l` starts; the captures are released with the line-0 work (R156, R158, R161). What line-0 work
discarded by a late latch has booked stays booked (DESIGN CHOICE, assumption 161). -/
def harpStart (p l : Nat) (s : State) : State :=
  let s := if l = 0 then onHarp p (fun r => { r with caps := [], stopped := false }) s else s
  if l < s.vactive p && s.harpEn p l && !(s.harpRun p).stopped then onHarp p (fun r => { r with work := some l, ready := none }) s
  else onHarp p (fun r => { r with work := none, ready := none }) s

/-! ### The staging copy (R164) -/

/-- At a latch the staging copy starts, with the registers as they stand (R164). It replaces a copy of the pipe that still
runs, which then raises no HARP_STAGED (DESIGN CHOICE, assumption 160). -/
def stageStart (p : Nat) (s : State) : State :=
  let count := s.rd (F.harpPipeStage_COUNT p)
  let acount := s.rd (F.harpPipeStageAff_AFF_COUNT p)
  if count = 0 ∧ acount = 0 then s
  else onHarp p (fun r => { r with stage := some (s.rd (F.harpPipeStageAddr_ADDR p), s.rd (F.harpPipeStage_FIRST p), count,
                                                  s.rd (F.harpPipeStageAff_AFF_FIRST p), acount) }) s

/-- A context written whole, outside the gates. -/
def putCtx (i : Nat) (d : List Byte) (s : State) : State := s.forN 8 fun w s => wrAll (ctxFlds i w) (fieldAt d (4 * w) 4) s

/-- An affine set written whole. -/
def putAff (a : Nat) (d : List Byte) (s : State) : State := s.forN 3 fun w s => wrAll (affFlds a w) (fieldAt d (4 * w) 4) s

/-- Items of a staging table copied in order until a read fails. -/
def stageItems (p size : Nat) (put : Nat → List Byte → State → State) : Nat → Nat → Nat → State → Bool × State
  | 0, _, _, s => (false, s)
  | n + 1, addr, i, s =>
    let (d, e, s) := memRead (.harp (Fin.ofNat 8 p)) addr size s
    if e then (true, s) else stageItems p size put n (addr + size) (i + 1) (put i d s)

/-- HARP_STAGE_DONE: the copy ends, complete or at its first failed read (R164). -/
def execHarpStageDone (p : Fin 8) (s : State) : Out :=
  .next (match (s.harpRun p.val).stage with
    | none => s
    | some (addr, first, count, afirst, acount) =>
      let (e, s) := stageItems p.val 32 putCtx count addr first s
      let (e, s) := if e then (true, s) else stageItems p.val 16 putAff acount (addr + 32 * count) afirst s
      let s := s.wr (F.harpPipeLaststage_STAMP p.val) s.now
      let s := if e then harpFlag p.val 4 false s else s
      let was := (s.harpRun p.val).staged
      let s := onHarp p.val (fun r => { r with stage := none, staged := true }) s
      if was then s else raise 148 s)

end Sys2Proof.Machine
end

