-- ==== Sys2Proof/Machine/Compose.lean ====
section
/-! DEFINITION. Composition and output (R173 to R178, R188, R192, R193): transfer tables, blending, the safety planes, the
formatter, and writeback of a composed line. -/

namespace Sys2Proof.Machine

/-! ### Transfer curves (R176) -/

/-- The largest `n` below `2 ^ bits` that satisfies a predicate true up to some point. -/
def searchMax (p : Nat → Bool) : Nat → Nat → Nat
  | 0, base => base
  | b + 1, base => if p (base + 2 ^ b) then searchMax p b (base + 2 ^ b) else searchMax p b base

/-- Entry `i` of TL for a curve: the encoded value 4i as linear light, round(65,536 × F(i / 1,024)). For the sRGB curve of
IEC 61966-2-1 and the powers 11/5 and 12/5, the rounding is exact: `n` is the largest number whose lower half-step lies at or
below the curve (PRESUMED for the sRGB constants, assumption 6). -/
def curveTL (tf i : Nat) : Nat :=
  match tf with
  | 1 => searchMax (fun n => n = 0 || (2 * n - 1) ^ 5 * 1024 ^ 11 ≤ i ^ 11 * 131072 ^ 5) 17 0
  | 2 => searchMax (fun n => n = 0 || (2 * n - 1) ^ 5 * 1024 ^ 12 ≤ i ^ 12 * 131072 ^ 5) 17 0
  | _ =>
    -- linear below 0.04045, where i / 1,024 / 12.92 is the light
    if i * 100000 ≤ 4045 * 1024 then divRound (65536 * i * 100) (1024 * 1292)
    else searchMax (fun n => n = 0 || (2 * n - 1) ^ 5 * 1080320 ^ 12 ≤ (1000 * i + 56320) ^ 12 * 131072 ^ 5) 17 0

/-- Entry `i` of TE: linear value 64i encoded, round(4,096 × G(i / 1,024)). -/
def curveTE (tf i : Nat) : Nat :=
  match tf with
  | 1 => searchMax (fun n => n = 0 || (2 * n - 1) ^ 11 * 1024 ^ 5 ≤ i ^ 5 * 8192 ^ 11) 13 0
  | 2 => searchMax (fun n => n = 0 || (2 * n - 1) ^ 12 * 1024 ^ 5 ≤ i ^ 5 * 8192 ^ 12) 13 0
  | _ =>
    if i * 10000000 ≤ 31308 * 1024 then divRound (4096 * i * 1292) (1024 * 100)
    else searchMax (fun n => n = 0 || ((2 * n - 1) * 1000 + 55 * 8192) ^ 12 * 1024 ^ 5 ≤ i ^ 5 * (1055 * 8192) ^ 12) 13 0

/-- The transfer tables of pipe `p` (R204). -/
def F.pipeTl (p i : Nat) : Fld := ⟨0x320000 + p * 0x8000 + i * 4, 0, 17, curveTL 0 i, .warm, .rw, false⟩
def F.pipeTe (p i : Nat) : Fld := ⟨0x321400 + p * 0x8000 + i * 4, 0, 13, curveTE 0 i, .warm, .rw, false⟩
def F.pipeTo (p c i : Nat) : Fld := ⟨0x322800 + p * 0x8000 + c * 0x1400 + i * 4, 0, 13, 4 * i, .warm, .rw, false⟩

/-- Entries of TL and TE in force: the curve that TF selects, or the custom tables (R176). -/
def State.tl (s : State) (p i : Nat) : Nat :=
  if s.lat (F.pipeDomain_TF p) = 3 then s.lat (F.pipeTl p i) else curveTL (s.lat (F.pipeDomain_TF p)) i
def State.te (s : State) (p i : Nat) : Nat :=
  if s.lat (F.pipeDomain_TF p) = 3 then s.lat (F.pipeTe p i) else curveTE (s.lat (F.pipeDomain_TF p)) i

/-- A table value between entries `a` and `b`, `f` parts of `n` on, rounded halves upward. -/
def between (a b f n : Nat) : Nat := (roundInt ((a : Int) * n + ((b : Int) - a) * f) n).toNat

def State.linOf (s : State) (p v : Nat) : Nat := min (between (s.tl p (v / 4)) (s.tl p (v / 4 + 1)) (v % 4) 4) 65535
def State.encOf (s : State) (p u : Nat) : Nat := min (between (s.te p (u / 64)) (s.te p (u / 64 + 1)) (u % 64) 64) 4095

/-! ### Blending (R175, R176) -/

/-- One component of a layer over the result below it. -/
def State.blend1 (s : State) (p : Nat) (premul linear : Bool) (c a d : Nat) : Nat :=
  let straight := if premul then min (divRound (c * 4095) a) 4095 else c
  if linear then s.encOf p (divRound (s.linOf p straight * a + s.linOf p d * (4095 - a)) 4095)
  else divRound (straight * a + d * (4095 - a)) 4095

/-- A layer pixel over the result below it. -/
def State.blendPx (s : State) (p : Nat) (premul linear : Bool) (l d : Px) : Px :=
  if l.a = 0 then d
  else ⟨s.blend1 p premul linear l.r l.a d.r, s.blend1 p premul linear l.g l.a d.g, s.blend1 p premul linear l.b l.a d.b, 4095⟩

/-- A layer's line over a row. -/
def State.blendRow (s : State) (p : Nat) (premul linear : Bool) (b : LineBuf) (row : List Px) : List Px :=
  row.zipIdx.map fun q => if b.x ≤ q.2 then (match b.px[q.2 - b.x]? with
    | some l => s.blendPx p premul linear l q.1
    | none => q.1) else q.1

/-! ### Layers switched off (R188, R189) -/

/-- The layers of pipe `p` off in the current frame, in the layout of PIPE_p_UNDERRUN [14:0]. -/
def State.offMask (s : State) (p : Nat) : Nat :=
  s.rd (F.pipeUnderrun_SLOT p) + s.rd (F.pipeUnderrun_OBJ p) * 2 ^ 12 + s.rd (F.pipeUnderrun_SAFE p) * 2 ^ 13

/-- The layers left transparent for the frame by the check of R189. -/
def State.badMask (s : State) (p : Nat) : Nat := s.rd (F.pipeBadaddr_SLOT p) + s.rd (F.pipeBadaddr_SAFE p) * 2 ^ 13

/-- The engine in slot `sl` of pipe `p`. -/
def State.engineAt (s : State) (p sl : Nat) : Option Nat := (s.planesOf p).find? fun n => (s.plane n).slot == sl

/-- A layer of pipe `p` is class 0: a class-0 engine's slot, or a safety plane (R243). -/
def State.layerClass0 (s : State) (p layer : Nat) : Bool :=
  13 ≤ layer || (s.engineAt p layer).any s.planeClass0

/-- The Rind instance of pipe `p` beside its registers. -/
def State.rindRun (s : State) (p : Nat) : RindRun := s.rind.pipes.getD p rind0

def onRind (p : Nat) (f : RindRun → RindRun) (s : State) : State :=
  { s with rind := { s.rind with pipes := modAt s.rind.pipes p f } }

/-- A layer underruns at line `l`: off to the end of the frame, recorded and raised (R188). Layers: 0 to 11 slots, 12 objects,
13 and 14 the safety planes. -/
def layerOff (p layer l : Nat) (s : State) : State :=
  if bitAt (s.offMask p) layer then s
  else
    let first := s.offMask p == 0
    let c0 := s.layerClass0 p layer
    let s := if layer < 12 then s.setBit (F.pipeUnderrun_SLOT p) layer true
             else if layer = 12 then s.set1 (F.pipeUnderrun_OBJ p) else s.setBit (F.pipeUnderrun_SAFE p) (layer - 13) true
    let s := s.iff first fun s => ((s.wr (F.pipeFirstUr_LINE p) l).wr (F.pipeFirstUr_LAYER p) layer).inc (F.pipeUrFrames_COUNT p)
    let s := s.iff c0 fun s => onRind p (fun r => { r with off := true, under := true }) s
    pipeRaise p (if 13 ≤ layer then 5 else 4) s

/-! ### Safety planes (R174) -/

/-- Safety plane `j` of pipe `p` is enabled and draws something (R174, R201). -/
def State.safeOn (s : State) (p j : Nat) : Bool :=
  s.latFlag (F.safeCtl_EN p j) && s.lat (F.safeCtl_FORMAT p j) != 3 && s.lat (F.safeSize_W p j) != 0
    && s.lat (F.safeSize_H p j) != 0

/-- Line `l` of pipe `p` crosses the safety plane's window within the active area. -/
def State.safeWants (s : State) (p j l : Nat) : Bool :=
  s.safeOn p j && s.lat (F.safePos_Y p j) ≤ l && l < s.lat (F.safePos_Y p j) + s.lat (F.safeSize_H p j) && l < s.vactive p
    && s.lat (F.safePos_X p j) < s.hactive p && !bitAt (if s.ahead p l then (s.pipe p).nxtOff else s.badMask p) (13 + j)

/-- The fetch of line `l` of a safety plane (R174); none where a read failed. -/
def safeFetch (p j l : Nat) (s : State) : Option LineBuf × State :=
  let x0 := s.lat (F.safePos_X p j)
  let w := min (s.lat (F.safeSize_W p j)) (s.hactive p - x0)
  let code := [4, 2, 8, 8].getD (s.lat (F.safeCtl_FORMAT p j)) 4
  let row := s.lat (F.safeBase_ADDR p j) + (l - s.lat (F.safePos_Y p j)) * s.lat (F.safeStride_BYTES p j)
  let who := Initiator.safe (Fin.ofNat 8 p) (Fin.ofNat 2 j)
  let one := fun (i : Nat) (s : State) =>
    let (d, e, s) := memRead who (row + i * directBytes code) (directBytes code) s
    (directPx code (leNat d) (s.lat (F.safeConst_RGB p j)), e, s)
  let (px, e, s) := readAll one (List.range w) s
  (if e then none else some ⟨l, x0, px⟩, s)

/-- The safety planes fetch line `l`, each unless switched off in the frame that the line belongs to. -/
def safeFetches (p l : Nat) (s : State) : State :=
  let off := if s.ahead p l then 0 else s.offMask p
  let get := fun (j : Nat) (s : State) => if s.safeWants p j l && !bitAt off (13 + j) then safeFetch p j l s else (none, s)
  let (a, s) := get 0 s
  let (b, s) := get 1 s
  onPipe p (fun r => { r with safe0 := a, safe1 := b }) s

/-- The fetched line of safety plane `j`. -/
def PipeRun.safeBuf (r : PipeRun) (j : Nat) : Option LineBuf := if j = 0 then r.safe0 else r.safe1

/-! ### Underruns of a line (R137, R156, R188) -/

/-- At the start of line `l`, the layers whose line is not complete are switched off. `late` marks safety planes whose fetch is
not complete. -/
def lineUnderruns (p l : Nat) (late : BitVec 2) (s : State) : State :=
  let s := s.forL (s.planesOf p) fun n s =>
    if (s.plane n).stopped then layerOff p (s.plane n).slot l s
    else if s.planeWants p n l && !((s.plane n).ready.any fun b => b.line == l) then
      layerOff p (s.plane n).slot l (planeUnderrun n l s)
    else s
  let s := harpDeadline p l s
  let s := if (s.harpRun p).stopped then layerOff p 12 l s else s
  s.forN 2 fun j s =>
    if s.safeWants p j l && !bitAt (s.offMask p) (13 + j)
        && (late.getLsbD j || !(((s.pipe p).safeBuf j).any fun b => b.line == l)) then layerOff p (13 + j) l s else s

/-! ### The composed line (R173, R175, R177, R178) -/

/-- The layers of line `l`, bottom to top: premultiplied, linear, and the line. -/
def State.layers (s : State) (p l : Nat) : List (Bool × Bool × LineBuf) :=
  let off := s.offMask p ||| s.badMask p
  let slot (sl : Nat) : List (Bool × Bool × LineBuf) :=
    match s.engineAt p sl with
    | none => []
    | some n => if bitAt off sl then [] else match (s.plane n).ready with
      | some b => if b.line == l then [(s.latFlag (F.planeCfg_PREMUL n), bitAt (s.lat (F.pipeDomain_SLOT p)) sl, b)] else []
      | none => []
  let obj : List (Bool × Bool × LineBuf) :=
    if bitAt off 12 || !s.latFlag (F.harpPipeCtl_EN p) then []
    else match (s.harpRun p).ready with
      | some b => if b.line == l then [(true, s.latFlag (F.pipeDomain_OBJ p), b)] else []
      | none => []
  let above := if 11 < s.lat (F.pipeCtl_OBJ_ABOVE p) then 11 else s.lat (F.pipeCtl_OBJ_ABOVE p)
  let safe (j : Nat) : List (Bool × Bool × LineBuf) :=
    if bitAt off (13 + j) then []
    else match (s.pipe p).safeBuf j with
      | some b => if b.line == l then [(s.latFlag (F.safeCtl_PREMUL p j), bitAt (s.lat (F.pipeDomain_SAFE p)) j, b)] else []
      | none => []
  ((List.range 12).flatMap fun sl => slot sl ++ if sl = above then obj else []) ++ safe 0 ++ safe 1

/-- Tap A of line `l`: every layer over the background colour (R173, R177). -/
def State.tapA (s : State) (p l : Nat) : List Px :=
  let bg := s.snp (F.pipeBg_RGB p)
  let d : Px := ⟨bitsAt bg 24 12, bitsAt bg 12 12, bitsAt bg 0 12, 4095⟩
  (s.layers p l).foldl (fun row y => s.blendRow p y.1 y.2.1 y.2.2 row) (List.replicate (s.hactive p) d)

/-- The output depth d (R200). -/
def State.depth (s : State) (p : Nat) : Nat := [6, 8, 10, 12].getD (s.lat (F.pipeCtl_DEPTH p)) 12

/-- The dither matrix M (R178). -/
def ditherM (y x : Nat) : Nat :=
  (([[0, 8, 2, 10], [12, 4, 14, 6], [3, 11, 1, 9], [15, 7, 13, 5]] : List (List Nat)).getD (y % 4) []).getD (x % 4) 0

/-- A component reduced to `d` bits under DITHER (R178). -/
def reduce (d dither frame x y v : Nat) : Nat :=
  let k := 12 - d
  if k = 0 then v
  else
    let t := match dither with
      | 0 => 2 ^ (k - 1)
      | 2 => ditherM (y + frame) (x + 2 * frame) * 2 ^ k / 16
      | _ => ditherM y x * 2 ^ k / 16
    min ((v + t) / 2 ^ k) (2 ^ d - 1)

/-- A component through the output table (R177). -/
def State.outTable (s : State) (p c v : Nat) : Nat :=
  if s.latFlag (F.pipeCtl_OUT_LUT_EN p) then
    min (between (s.lat (F.pipeTo p c (v / 4))) (s.lat (F.pipeTo p c (v / 4 + 1))) (v % 4) 4) 4095 else v

/-- Tap B of line `l` from its tap A (R177, R178). -/
def State.tapB (s : State) (p l : Nat) (row : List Px) : List Px :=
  let f := s.rd (F.pipeFrames_COUNT p) % 4
  let red (c x v : Nat) := reduce (s.depth p) (s.lat (F.pipeCtl_DITHER p)) f x l (s.outTable p c v)
  row.zipIdx.map fun q => ⟨red 0 q.2 q.1.r, red 1 q.2 q.1.g, red 2 q.2 q.1.b, 4095⟩

/-! ### Rind's checksums over a line (R229, R236) -/

/-- One byte into the CRC-32 register, bit-reflected (R229). -/
def crcByte (c : Nat) (b : Byte) : Nat :=
  (List.range 8).foldl (fun c _ => if c % 2 = 1 then (c / 2) ^^^ 0xEDB88320 else c / 2) (c ^^^ b.toNat)

def crcBytes (c : Nat) (l : List Byte) : Nat := l.foldl crcByte c

/-- The CRC-32 of a byte string (R229). -/
def crc32 (b : List Byte) : Nat := crcBytes 0xFFFFFFFF b ^^^ 0xFFFFFFFF

/-- The six bytes of a pixel (R229). -/
def crcPx (q : Px) : List Byte := natLE 2 q.r ++ natLE 2 q.g ++ natLE 2 q.b

/-- A rectangle clipped to the active area: first dot, first line, width and height (R228, R230). -/
def State.rectArea (s : State) (p r : Nat) : Nat × Nat × Nat × Nat :=
  let x := s.lat (F.rectPos_X p r)
  let y := s.lat (F.rectPos_Y p r)
  (x, y, min (s.lat (F.rectSize_W p r)) (s.hactive p - x), min (s.lat (F.rectSize_H p r)) (s.vactive p - y))

/-- The rectangle computes a CRC (R230). -/
def State.rectLive (s : State) (p r : Nat) : Bool :=
  let (_, _, w, h) := s.rectArea p r
  s.latFlag (F.rectCtl_EN p r) && w != 0 && h != 0

/-- Rind takes line `l` of pipe `p` at both taps, with the mask of layers off (R228, R229, R236). -/
def rindLine (p l : Nat) (a b : List Px) (s : State) : State :=
  if !s.latFlag (F.rindCtl_EN p) then s
  else
    let mask := s.offMask p ||| s.badMask p
    let start := ((List.range 64).filter fun r => s.rectLive p r).map fun r => ({ rect := r, crc := 0xFFFFFFFF, done := false, off := false } : RectRun)
    let upd (q : RectRun) : RectRun :=
      let (x, y, w, h) := s.rectArea p q.rect
      if l < y ∨ y + h ≤ l then q
      else
        let row := if s.lat (F.rectCtl_TAP p q.rect) = 0 then a else b
        { q with crc := crcBytes q.crc (((row.drop x).take w).flatMap crcPx), done := l + 1 == y + h,
                 off := q.off || (s.lat (F.rectLayers_MASK p q.rect) &&& mask) != 0 }
    onRind p (fun r => { r with rects := (if l = 0 then start else r.rects).map upd }) s

/-! ### Writeback (R192, R193) -/

/-- A component of `d` bits brought to `t` bits: narrowed as DITHER = OFF narrows it, or widened by bit repetition (R192). -/
def toBits (d t v : Nat) : Nat :=
  if t < d then min ((v + 2 ^ (d - t - 1)) / 2 ^ (d - t)) (2 ^ t - 1)
  else
    let reps := t / d + 1
    (List.range reps).foldl (fun a _ => a * 2 ^ d + v) 0 / 2 ^ (d * reps - t)

/-- Y, Cb and Cr numerators of a pixel in BT.709, over 10,000 × (2^d − 1), the last two before their division (R192). -/
def yccOf (q : Px) : Int × Int × Int :=
  let y : Int := 2126 * q.r + 7152 * q.g + 722 * q.b
  (y, 10000 * (q.b : Int) - y, 10000 * (q.r : Int) - y)

/-- The bytes of a pixel pair in YCbCr 4:2:2 10-bit, code 0x11, limited range; each chroma sample is the mean of the pair
(R192; the one rounding and the last dot of an odd line: PRESUMED, assumption 6). -/
def pairBytes (d : Nat) (q1 q2 : Px) : List Byte :=
  let full := 2 ^ d - 1
  let (y1, b1, r1) := yccOf q1
  let (y2, b2, r2) := yccOf q2
  let luma (y : Int) : Nat := (roundInt (876 * y + 64 * (10000 * full : Nat)) (10000 * full)).toNat
  let chroma (n : Int) (k : Nat) : Nat := (roundInt (896 * n * 10000 + 512 * (2 * 10000 * full * 2 * (10000 - k) : Nat)) (2 * 10000 * full * 2 * (10000 - k))).toNat
  let cb := chroma (b1 + b2) 722
  let cr := chroma (r1 + r2) 2126
  natLE 8 (luma y1 * 2 ^ 6 + cb * 2 ^ 22 + luma y2 * 2 ^ 38 + cr * 2 ^ 54)

/-- A row in 4:2:2 pairs. -/
def pairRow (d : Nat) : List Px → List Byte
  | [] => []
  | [q] => pairBytes d q q
  | q1 :: q2 :: t => pairBytes d q1 q2 ++ pairRow d t

/-- The bytes of a composed line in a writeback format (R192). -/
def wbBytes (fmt d : Nat) (row : List Px) : List Byte :=
  match fmt with
  | 1 => row.flatMap fun q => natLE 4 (toBits d 10 q.r * 2 ^ 22 + toBits d 10 q.g * 2 ^ 12 + toBits d 10 q.b * 2 ^ 2 + 3)
  | 2 => row.flatMap fun q => natLE 8 (toBits d 16 q.r * 2 ^ 48 + toBits d 16 q.g * 2 ^ 32 + toBits d 16 q.b * 2 ^ 16 + 65535)
  | 3 => pairRow d row
  | _ => row.flatMap fun q => natLE 4 (toBits d 8 q.r * 2 ^ 24 + toBits d 8 q.g * 2 ^ 16 + toBits d 8 q.b * 2 ^ 8 + 255)

def onWb (p : Nat) (f : WbRun → WbRun) (s : State) : State := onPipe p (fun r => { r with wb := f r.wb }) s

/-- The link, channel and class of a pipe whose writeback goes to a link (R519). -/
def State.wbLink (s : State) (p : Nat) : Option (Nat × Nat × Bool) :=
  if s.latFlag (F.pipeWbCtl_DEST p) then some (s.lat (F.pipeWbCtl_LINK p), s.rd (F.cascTx_CHANNEL p), s.latFlag (F.pipeCtl_CLASS0 p)) else none

/-- A writeback frame is left incomplete (R193). -/
def wbIncomplete (p : Nat) (s : State) : State :=
  let w := (s.pipe p).wb
  let s := (s.set1 (F.pipeWbStatus_INCOMPLETE p)).inc (F.pipeWbStatus_OVERFLOWS p)
  pipeRaise p 11 (s.wr (F.pipeWbStatus_BUSY p) (bit (w.active || !w.ending.isEmpty)))

/-- The rest of the frame in writing is not written or sent, its lines up to `l` on the link included (R193, R519). -/
def wbOverflow (p l : Nat) (s : State) : State :=
  let s := match s.wbLink p with
    | some (k, ch, c0) => unsend k ch c0 l s
    | none => s
  wbIncomplete p (onWb p (fun w => { w with active := false, held := w.held.filter (·.old) }) s)

/-- The bit depth of writeback's tap (R192). -/
def State.wbDepth (s : State) (p : Nat) : Nat := if s.lat (F.pipeWbCtl_TAP p) = 0 then 12 else s.depth p

/-- One held line written to its buffer, or handed to the link (R192, R519). The flag is a bus error, or a link that is not UP. -/
def wbWriteLine (p : Nat) (h : WbLine) (s : State) : Bool × State :=
  match h.link with
  | some (l, ch, class0) => sendLine l ch h.line class0 (h.line == 0) h.last h.format h.data s
  | none => memWrite (.writeback (Fin.ofNat 8 p)) h.addr h.data s

/-- Lines written in order until one fails (R193). -/
def wbWrite (p : Nat) (l : List WbLine) (s : State) : Bool × State :=
  l.foldl (fun (a : Bool × State) h => if a.1 then a else wbWriteLine p h a.2) (false, s)

/-- The lines held of frames that have ended are written, oldest first; one that fails leaves those frames incomplete (R192, R193). -/
def wbFlushOld (p : Nat) (s : State) : State :=
  let old := (s.pipe p).wb.held.filter (·.old)
  let s := onWb p (fun w => { w with held := w.held.filter fun h => !h.old }) s
  let (e, s) := wbWrite p old s
  if e then wbIncomplete p (onWb p (fun w => { w with ending := [] }) s) else s

/-- The held lines are written, oldest first, until one fails (R192, R193). -/
def wbFlush (p : Nat) (s : State) : State :=
  let s := wbFlushOld p s
  let held := (s.pipe p).wb.held
  let s := onWb p (fun w => { w with held := [] }) s
  let (e, s) := wbWrite p held s
  if e then wbOverflow p 16384 s else s

/-- The composed line joins the lines held; a third one that finds two unwritten, or not launched, overflows (R193, R519). -/
def wbHold (p l : Nat) (row : List Px) (s : State) : State :=
  let w := (s.pipe p).wb
  let link := s.wbLink p
  let unsent := link.elim 0 fun q => s.unsent q.1 q.2.1 q.2.2
  if !w.active then s
  else if 2 ≤ w.held.length + unsent then wbOverflow p l s
  else
    let fmt := if 3 < s.lat (F.pipeWbCtl_FORMAT p) then 0 else s.lat (F.pipeWbCtl_FORMAT p)
    let addr := s.lat (F.pipeWbBase_ADDR p) + w.buf * s.lat (F.pipeWbSpacing_BYTES p) + l * s.lat (F.pipeWbStride_BYTES p)
    onWb p (fun w => { w with held := w.held ++ [⟨l, addr, wbBytes fmt (s.wbDepth p) row, link, fmt, l + 1 == s.vactive p, false⟩] }) s

/-- A frame start decides whether the frame is written, and where (R192). A frame whose last lines are still held keeps them, with
where they go (R193; DEDUCED, assumption 164). -/
def wbFrameStart (p : Nat) (s : State) : State :=
  let s := onWb p (fun w => { w with active := false, held := w.held.map fun h => { h with old := true },
                                     ending := if w.active then w.ending ++ [(w.buf, w.stamp)] else w.ending }) s
  if !s.latFlag (F.pipeWbCtl_EN p) then onWb p (fun w => { w with since := 0, next := 0 }) s
  else
    let w := (s.pipe p).wb
    if w.since != 0 then onWb p (fun w => { w with since := w.since - 1 }) s
    else
      let count := s.lat (F.pipeWbCtl_COUNT_M1 p) + 1
      onWb p (fun w => { w with active := true, buf := w.next % count, stamp := s.now, since := s.lat (F.pipeWbCtl_EVERY_M1 p),
                                next := (w.next + 1) % count }) (s.set1 (F.pipeWbStatus_BUSY p))

/-- A writeback frame is complete: its buffer and stamp are recorded (R192). -/
def wbDone (p : Nat) (f : Nat × Nat) (s : State) : State :=
  let w := (s.pipe p).wb
  let s := ((s.wr (F.pipeWbStatus_INDEX p) f.1).wr (F.pipeWbStamp_STAMP p) f.2).clr (F.pipeWbStatus_INCOMPLETE p)
  pipeRaise p 11 (s.wr (F.pipeWbStatus_BUSY p) (bit (w.active || !w.ending.isEmpty)))

/-- WB_FRAME_DONE: the last line of a writeback frame is written (R192). -/
def execWbFrameDone (p : Fin 8) (s : State) : Out :=
  let p := p.val
  .next (if !(s.pipe p).wb.ending.isEmpty then
    let s := wbFlushOld p s
    let done := (s.pipe p).wb.ending
    (onWb p (fun w => { w with ending := [] }) s).forL done (wbDone p)
  else if !(s.pipe p).wb.active || s.rd (F.pipeStatus_STATE p) == 2 then s
  else
    let s := wbFlush p s
    let w := (s.pipe p).wb
    if !w.active then s else wbDone p (w.buf, w.stamp) (onWb p (fun w => { w with active := false }) s))

/-- Line `l` is composed: its taps go to Rind, to writeback and to the ports (R173, R177, R192). -/
def composeLine (p l : Nat) (s : State) : State :=
  let a := s.tapA p l
  let b := s.tapB p l a
  let s := rindLine p l a b s
  let s := wbHold p l (if s.lat (F.pipeWbCtl_TAP p) = 0 then a else b) s
  onPipe p (fun r => { r with sent := b }) s

end Sys2Proof.Machine
end

