-- ==== Sys2Proof/Machine/Rind.lean ====
section
/-! DEFINITION. Rind: expected entries, verdicts and their reporting (R231 to R242), the class-0 conditions, report and
breaches (R243 to R248), and the accesses to the Vat that the class-0 measures watch (R71, R94). -/

namespace Sys2Proof.Machine

/-! ### Latching (R233, R239, R242) -/

/-- A range of device memory lies wholly inside one enabled write-locked window (R96). -/
def State.insideLock (s : State) (a n : Nat) : Bool :=
  isVat a && (List.range 4).any fun k =>
    let b := s.rd (F.vatLock_BASE k) * 65536
    b ≤ a - vatBase && a - vatBase + n ≤ b + s.rd (F.vatLock_SIZE k) * 65536

/-- Bytes of a safety plane's source: H rows of STRIDE (R244). -/
def safeExtent (w h stride : Nat) : Nat := if w = 0 then 0 else h * stride

/-- A rectangle whose RUN and kept CRCs are reset by what is about to latch (R239). -/
def State.rectResets (s : State) (p r : Nat) : Bool :=
  let chg (f : Fld) : Bool := s.rd f != s.lat f
  chg (F.rectPos_X p r) || chg (F.rectPos_Y p r) || chg (F.rectSize_W p r) || chg (F.rectSize_H p r) || chg (F.rectCtl_TAP p r)
    || chg (F.rectLayers_MASK p r) || (s.flag (F.rectCtl_EN p r) && !s.latFlag (F.rectCtl_EN p r))
    || (s.flag (F.rindCtl_EN p) && !s.latFlag (F.rindCtl_EN p))

/-- RUN and the kept CRCs of a rectangle reset (R235, R239). -/
def rectClear (p r : Nat) (s : State) : State :=
  onRind p (fun q => { q with kept := q.kept.filter fun k => k.1 != r }) (s.clr (F.rectVerdict_RUN p r))

/-- The IRS offset of Rind's registers for pipe `p` (R250). -/
def rindOff (p : Nat) : Nat := 0x700000 + p * 0x1000

/-- Bit `p` of RIND_ALERT_STATE (R240). -/
def alertClear (p : Nat) (s : State) : State := s.setBit F.rindAlertState_PIPE p false

/-- Rind's settings of pipe `p` latch (R239, R240). `all` resets every rectangle, as the pipe's enable does. -/
def rindLatch (p : Nat) (all : Bool) (s : State) : State :=
  let resets := (List.range 64).filter fun r => all || s.rectResets p r
  let fresh := (List.range 64).filter fun r => s.flag (F.rectCtl_EN p r) && !s.latFlag (F.rectCtl_EN p r)
  let s := s.forL resets (rectClear p)
  let s := s.forL fresh fun r s => s.clr (F.rectVerdict_VERDICT p r)
  let s := latchRange (rindOff p) (rindOff p + 0x10) s
  let s := latchRange (rindOff p + 0x400) (rindOff p + 0xC00) s
  if s.latFlag (F.rindCtl_EN p) then s else alertClear p s

/-- Rind reads the expected entries of every matching rectangle for the frame that the latch prepares (R233). -/
def rindEntries (p : Nat) (s : State) : State :=
  if !s.latFlag (F.rindCtl_EN p) then s
  else
    let rs := (List.range 64).filter fun r =>
      s.latFlag (F.rectCtl_EN p r) && s.latFlag (F.rectCtl_MATCH_EN p r) && s.lat (F.rectCtl_EXP_COUNT p r) != 0
    let s := onRind p (fun q => { q with entries := [] }) s
    s.forL rs fun r s =>
      let a := s.lat (F.rindExpBase_ADDR p) + s.lat (F.rindCtl_EXP_HALF p) * 4096 + r * 64
      let (d, e, s) := memRead (.rind (Fin.ofNat 8 p)) a 64 s
      if e then
        let was := (s.rindRun p).expRaised
        let s := onRind p (fun q => { q with entries := (r, none) :: q.entries, expRaised := true }) s
        if was then s else raise 211 s
      else onRind p (fun q => { q with entries := (r, some ((List.range 16).map fun e => fieldAt d (4 * e) 4)) :: q.entries }) s

/-- The lock state of each enabled safety plane (R242). -/
def rindSafe (p : Nat) (s : State) : State :=
  s.forN 2 fun j s =>
    let n := safeExtent (s.lat (F.safeSize_W p j)) (s.lat (F.safeSize_H p j)) (s.lat (F.safeStride_BYTES p j))
    let bad := s.safeOn p j && !s.insideLock (s.lat (F.safeBase_ADDR p j)) n
    let s := s.setBit (F.rindSafe_UNLOCKED p) j bad
    if bad then logEvent 0x0503 2 p j (raise 210 s) else s

/-! ### Verdicts (R231 to R238, R240) -/

/-- A failing verdict of rectangle `r` (R240). -/
def rectFails (p r verdict crc : Nat) (s : State) : State :=
  let s := (s.setBit (F.rindFailCur_RECT p) r true).inc (F.rectFails_COUNT p r)
  let was := (s.rindRun p).failRaised
  let s := if s.latFlag (F.rectCtl_REPORT p r) && !was then
      raise (192 + p) (onRind p (fun q => { q with failRaised := true }) s) else s
  let s := if s.latFlag (F.rectCtl_ALERT p r) then
      (onRind p (fun q => { q with alert := true }) s).setBit F.rindAlertState_PIPE p true else s
  if s.rind.logged.contains (p, r) then s
  else logEvent 0x0500 1 (p + r * 2 ^ 8 + verdict * 2 ^ 16) crc { s with rind := { s.rind with logged := (p, r) :: s.rind.logged } }

/-- RECT_VERDICT written with the pipe's frame count (R231). -/
def writeVerdict (p r v : Nat) (s : State) : State :=
  (s.wr (F.rectVerdict_VERDICT p r) v).wr (F.rectVerdict_FRAME p r) (s.rd (F.pipeFrames_COUNT p))

/-- The verdict of a complete rectangle (R234 to R237). -/
def judge (p r : Nat) (q : RectRun) (s : State) : State :=
  let crc := q.crc ^^^ 0xFFFFFFFF
  let count := min 16 (s.lat (F.rectCtl_EXP_COUNT p r))
  let matching := s.latFlag (F.rectCtl_MATCH_EN p r) && count != 0
  let held := (s.rindRun p).entries.find? fun e => e.1 == r
  let entries := held.bind (·.2)
  let idx := (entries.getD []).take count |>.findIdx? (· == crc)
  let kept := ((s.rindRun p).kept.find? fun k => k.1 == r).elim [] (·.2)
  let back := if s.lat (F.rectCtl_TAP p r) = 1 ∧ s.lat (F.pipeCtl_DITHER p) = 2 then 3 else 0
  let frz := s.latFlag (F.rectCtl_FREEZE_EN p r)
  let run := match frz, kept[back]? with
    | true, some c => if c = crc then min 255 (s.rd (F.rectVerdict_RUN p r) + 1) else 0
    | _, _ => s.rd (F.rectVerdict_RUN p r)
  let frozen := frz && max 1 (s.lat (F.rectCtl_FREEZE_LIMIT p r)) ≤ run
  let v := if q.off then 2
    else if matching ∧ entries.isNone then 3
    else if matching ∧ idx.isNone then 4
    else if frozen then 5
    else if matching ∨ frz then 1 else 6
  let s := onRind p (fun t => { t with
    kept := (r, (crc :: kept).take 4) :: t.kept.filter fun k => k.1 != r,
    rects := t.rects.filter fun x => x.rect != r }) s
  let s := ((writeVerdict p r v s).wr (F.rectCrc_CRC p r) crc).wr (F.rectVerdict_RUN p r) run
  let s := match matching, idx with
    | true, some i => s.wr (F.rectVerdict_MATCH_IDX p r) i
    | _, _ => s
  if 2 ≤ v ∧ v ≤ 5 then rectFails p r v crc s else s

/-- RIND_VERDICT: the verdict of rectangle `r` is formed once its CRC is complete; one that computes no CRC is SKIPPED
(R230, R231). -/
def execRindVerdict (p : Fin 8) (r : Fin 64) (s : State) : Out :=
  .next (if !s.latFlag (F.rindCtl_EN p.val) || !s.pipeOn p.val then s
  else if !s.rectLive p.val r.val then writeVerdict p.val r.val 7 s
  else match (s.rindRun p.val).rects.find? fun q => q.rect == r.val && q.done with
    | none => s
    | some q => judge p.val r.val q s)

/-- Every complete rectangle has its verdict before the settings and entries that serve it give way (R231, R233). -/
def rindDue (p : Nat) (s : State) : State :=
  if !s.latFlag (F.rindCtl_EN p) || !s.pipeOn p then s
  else s.forL ((s.rindRun p).rects.filter (·.done)) fun q s => judge p q.rect q s

/-- The rectangles of pipe `p` that compute no CRC have verdict SKIPPED in the frame that starts (R230). -/
def rindSkips (p : Nat) (s : State) : State :=
  if s.latFlag (F.rindCtl_EN p) then s.forN 64 fun r s => if s.rectLive p r then s else writeVerdict p r 7 s else s

/-! ### The class-0 conditions (R244, R246) -/

/-- Bytes of a row of `w` pixels in a format code (R120, R122). -/
def rowBytes (code w : Nat) : Nat :=
  if isDirect code then w * directBytes code
  else match code with
    | 0x10 => (w + 1) / 2 * 4
    | 0x11 => (w + 1) / 2 * 8
    | 0x12 => w * 4
    | 0x13 => w
    | _ => w * 2

/-- The extent of rows: all but the last one of a whole stride. -/
def rowsExtent (base rows stride last : Nat) : List (Nat × Nat) := if rows = 0 then [] else [(base, (rows - 1) * stride + last)]

/-- The extents of a class-0 engine's source at the bases it has (R244). -/
def State.planeExtents (s : State) (n base base2 : Nat) : List (Nat × Nat) :=
  let st := s.planeStream n
  if s.planeKind n = 0 then
    let t := s.tileSize n
    let b := match s.lat (F.planeFmt_FORMAT n) with | 0x20 => 2 | 0x21 => 4 | _ => 8
    [(base, (s.lat (F.planeMap_MAP_W_M1 n) + 1) * (s.lat (F.planeMap_MAP_H_M1 n) + 1) * 4), (base2, s.lat (F.planePatcount_COUNT n) * (t * t * b / 8))]
  else match s.planeSel n with
    | 1 => [(s.ringBuf st 0, s.ringCount st * s.rd (F.streamSpacing_BYTES st))]
    | 2 => [(s.landSlot st 0, s.landLines st * s.rd (F.streamStride_BYTES st))]
    | _ =>
      let code := s.lat (F.planeFmt_FORMAT n)
      let w := s.lat (F.planeSrc_SRC_W n)
      let h := s.lat (F.planeSrc_SRC_H n)
      let chroma := if code = 0x13 ∨ code = 0x14 then
          rowsExtent base2 ((h + 1) / 2) (s.lat (F.planeStride2_BYTES n)) (s.lat (F.planeStride2_BYTES n)) else []
      rowsExtent base h (s.lat (F.planeStride_BYTES n)) (rowBytes code w) ++ chroma

/-- The frames of pipe `p` use its expected table: an enabled rectangle compares with it (R233, R244; assumption 116). -/
def State.tableLatched (s : State) (p : Nat) : Bool :=
  s.latFlag (F.rindCtl_EN p) && (List.range 64).any fun r =>
    s.latFlag (F.rectCtl_EN p r) && s.latFlag (F.rectCtl_MATCH_EN p r) && s.lat (F.rectCtl_EXP_COUNT p r) != 0

/-- Every class-0 source and its extent (R244). -/
def State.c0Extents (s : State) : List (Nat × Nat) :=
  let eng := ((List.range 32).filter fun n => (s.plane n).pipe.isSome && s.planeClass0 n).flatMap fun n =>
    s.planeExtents n (s.rd (F.planeBase_ADDR n)) (s.rd (F.planeBase2_ADDR n))
  let safe := (List.range 8).flatMap fun p => ((List.range 2).filter (s.safeOn p)).map fun j =>
    (s.lat (F.safeBase_ADDR p j),
     safeExtent (s.lat (F.safeSize_W p j)) (s.lat (F.safeSize_H p j)) (s.lat (F.safeStride_BYTES p j)))
  let tables := ((List.range 8).filter fun p => s.pipeOn p && s.tableLatched p).map fun p => (s.lat (F.rindExpBase_ADDR p), 8192)
  let raced := ((List.range 16).filter fun n => s.flag (F.streamCtl_EN n) && s.flag (F.streamCtl_RACED n)).map fun n =>
    (s.landSlot n 0, s.landLines n * s.rd (F.streamStride_BYTES n))
  (eng ++ safe ++ tables ++ raced).filter fun e => e.2 != 0

/-- The interleave groups that hold a byte of an extent's Vat part (R244). -/
def State.groupsOf (s : State) (e : Nat × Nat) : List Nat :=
  let lo := max e.1 vatBase - vatBase
  let hi := min (e.1 + e.2) (vatBase + 0x10000000) - vatBase
  let span := s.groupSize * 0x400000
  if hi ≤ lo then [] else (List.range ((hi - 1) / span - lo / span + 1)).map (· + lo / span)

/-- A class-0 condition is broken: 0 RESIDENCY, 1 BANK, 2 TJ, which fewer than 6 valid sensors break too (R244, R464). -/
def State.condBroken (s : State) (c : Nat) : Bool :=
  match c with
  | 0 => s.c0Extents.any fun e => e.1 < vatBase || vatBase + 0x10000000 < e.1 + e.2
  | 1 =>
    let w := s.groupSize
    s.c0Extents.any fun e => (s.groupsOf e).any fun g => (List.range w).any fun i =>
      s.rd (F.vatBankStatus_PWR (g * w + i)) != 0 || s.rd (F.vatBankStatus_HEALTH (g * w + i)) != 0
  | _ => ((List.range 12).filter fun i => s.flag (F.cellarTemp_VALID i)).length < 6
    || (List.range 12).any fun i => s.flag (F.cellarTemp_VALID i)
      && (signedAt 16 (s.rd (F.cellarTemp_TEMP i)) < (-640 : Int) || (2400 : Int) < signedAt 16 (s.rd (F.cellarTemp_TEMP i)))

/-- The bit of RIND_C0_COND that shows a condition broken. -/
def condFld (c : Nat) : Fld :=
  match c with
  | 0 => F.rindC0Cond_RESIDENCY
  | 1 => F.rindC0Cond_BANK
  | _ => F.rindC0Cond_TJ

/-- RIND_C0_COND as a word. -/
def State.condBits (s : State) : Nat :=
  s.rd F.rindC0Cond_RESIDENCY + s.rd F.rindC0Cond_BANK * 2 + s.rd F.rindC0Cond_TJ * 4

/-- RIND_C0_COND_SET: a condition that is broken sets its bit (R246). -/
def execRindC0CondSet (c : Fin 3) (s : State) : Out :=
  .next (if s.condBroken c.val && !s.flag (condFld c.val) then
    let s := s.set1 (condFld c.val)
    let s := s.forN 8 fun p s => onRind p (fun q => { q with cond := true }) s
    logEvent 0x0501 2 s.condBits 0 (raise 208 s)
  else s)

/-- RIND_C0_COND_CLEAR: a condition that holds again clears its bit (R246). -/
def execRindC0CondClear (c : Fin 3) (s : State) : Out := .next (if s.condBroken c.val then s else s.clr (condFld c.val))

/-! ### The class-0 report (R247, R248) -/

/-- Pipe `p` has a class-0 layer (R247). -/
def State.pipeClass0 (s : State) (p : Nat) : Bool :=
  (s.planesOf p).any s.planeClass0 || (List.range 2).any (s.safeOn p)

/-- The raced engines of pipe `p`, with their streams. -/
def State.racedOf (s : State) (p : Nat) : List (Nat × Nat) :=
  ((s.planesOf p).filter fun n => s.planeSel n == 2).map fun n => (n, s.planeStream n)

/-- The latency of part 3 of R243 was exceeded: MAXLAT above 2T + 12 µs. -/
def State.lateBeyond (s : State) (p n : Nat) : Bool :=
  2 * s.htotal p * 1000000000 + 12000 * s.pipeHz p < (s.plane n).latency.getD 0 * 10 * s.pipeHz p

/-- A breach of part `part` of R243 on pipe `p`, counted by the fault manager and notified with kind 0xFF (R248, R567). -/
def breach (p part : Nat) (s : State) : State :=
  notify 0x8002 0xFF00 0 <| logEvent 0x0502 3 p part
    (raise 209 { s.inc F.rindC0Breaches_COUNT with fault := { s.fault with breaches := s.fault.breaches + 1 } })

/-- A raced engine's frame had a MINSLACK above 1,600 cclk (R247). -/
def State.slackBeyond (s : State) (n : Nat) : Bool := decide (1600 < (s.plane n).slack.getD 0)

/-- The lines of pipe `p`'s ending frame that were replaced (R219, R247). -/
def State.replacedIn (s : State) (p : Nat) : Nat := ((s.rindRun p).raced.map fun e => (s.plane e.1).replaced).sum

/-- The class-0 report of the frame that ends at a frame start of pipe `p` (R247). -/
def rindReport (p : Nat) (s : State) : State :=
  let r := s.rindRun p
  if !r.hasC0 then s
  else
    let slack := r.raced.any fun e => s.slackBeyond e.1
    let ok := !r.off && s.replacedIn p == 0 && !slack && !r.cond
    let s := ((((s.wr (F.rindC0_C0_OK p) (bit ok)).wr (F.rindC0_UR p) (bit r.off)).wr (F.rindC0_SLACK p) (bit slack)).wr
      (F.rindC0_COND p) (bit r.cond)).wr (F.rindC0_REPLACED p) (min (s.replacedIn p) 65535)
    if ok then s else raise (200 + p) (s.inc (F.rindC0Bad_COUNT p))

/-- The breaches observed in the ending frame of pipe `p`, in which no condition was broken (R248). -/
def rindBreaches (p : Nat) (s : State) : State :=
  let r := s.rindRun p
  if r.cond then s
  else
    let met := s.replacedIn p == 0 && !(r.raced.any fun e => s.slackBeyond e.1)
    let late := r.raced.any fun e => s.lateBeyond p e.1
    let s := if r.under then breach p 1 s else s
    let s := if r.slow then breach p 2 s else s
    if met && late then breach p 3 s else s

/-- The least slack of a raced engine's frame; where it took no line, a free value stands for it (R220, assumption 94). -/
def raceClose (n : Nat) (s : State) : State :=
  let (k, s) := s.fresh
  onPlane n (fun r => { r with slack := some (r.slack.getD (Config.minslackNone k).toNat) }) s

/-- The measures of the frame that starts begin with those of its line-0 work. -/
def raceOpen (n : Nat) (s : State) : State :=
  onPlane n (fun r =>
    let r := { r with slack := r.slack0, latency := r.latency0, replaced := r.replaced0, late := r.late0 }
    { r with slack0 := none, latency0 := none, replaced0 := 0, late0 := false }) s

/-- The measures of raced engine `n` of stream `st` are shown, and firmware paces its camera (R220, R223). -/
def raceFrame (p n st : Nat) (s : State) : State :=
  let r := s.plane n
  let met := r.replaced == 0 && r.slack.getD 0 ≤ 1600
  let (k, s) := s.fresh
  let s := ((s.wr (F.streamMinslack_CCLK st) (min 65535 (r.slack.getD 0))).wr (F.streamMaxlat_NS10 st) (min 65535 (r.latency.getD (Config.maxlatNone k).toNat))).wr
    (F.streamStatus_PACED st) (bit met)
  let auto := s.prm ⟨0x6113 + st * 0x20, 0, .warm⟩ == 1 && s.rd (F.streamFsync_MODE st) == 2
  if !auto then s
  else
    let (fn, fd) := s.ref.setting.freq
    let usDots : Int := (fn / (fd * 1000000) : Nat)
    let target : Int := (s.prm ⟨0x6114 + st * 0x20, 1500, .warm⟩ : Nat)
    -- cclk are 1.25 ns
    let ns : Int := clampInt (-1000) 1000 ((r.slack.getD 0 * 5 / 4 : Nat) - target)
    let lead : Int := (s.rd (F.streamFsyncLead_DOTS st) : Nat)
    let longer : Int := if r.late then max 1 (min usDots (Config.paceLengthen (s.rd (F.pipeFrames_COUNT p)) : Nat)) else 0
    let lead := lead + ns * usDots / 1000 + longer
    s.wr (F.streamFsyncLead_DOTS st) (clampInt 0 0xFFFFFF lead).toNat

/-- The frame of pipe `p` that ends is reported, and its raced cameras are paced (R220, R223, R247, R248). -/
def rindFrameEnd (p : Nat) (s : State) : State :=
  let raced := (s.rindRun p).raced
  let s := s.forL raced fun e s => raceClose e.1 s
  let s := rindBreaches p (rindReport p s)
  s.forL raced fun e s => raceFrame p e.1 e.2 s

/-- Rind at a frame start of pipe `p`; `ended` where a frame of the pipe ends there (R240, R247). -/
def rindFrameStart (p : Nat) (ended : Bool) (s : State) : State :=
  let s := rindDue p s
  let s := if ended then rindFrameEnd p s else s
  let s := (s.wr (F.rindFailLast_RECT p) (s.rd (F.rindFailCur_RECT p))).clr (F.rindFailCur_RECT p)
  let s := if (s.rindRun p).alert then s else alertClear p s
  let cond := s.condBits != 0
  onRind p (fun q => { q with alert := false, failRaised := false, expRaised := false, cond := cond, off := false,
                              under := false, slow := false }) s

/-- What the class-0 report of the frame that begins goes by (R247). -/
def rindFrameOpen (p : Nat) (s : State) : State :=
  onRind p (fun q => { q with hasC0 := s.pipeClass0 p, raced := s.racedOf p }) s

/-! ### Watched accesses to the Vat (R71, R94, R248) -/

/-- The engine that races a stream (R217). -/
def State.racerOf (s : State) (n : Nat) : Option Nat :=
  (List.range 32).find? fun e => s.planeSel e == 2 && s.planeStream e == n && (s.plane e).pipe.isSome

/-- A requester whose requests are class 0 (R35, R36, R217, R512, R521): safety planes, engines marked class 0, Rind, the landing writes
of a camera's stream, and those of a feed whose sender is class 0. Whole-frame ring writes are not. -/
def State.isC0 (s : State) (who : Initiator) : Bool :=
  match who with
  | .safe _ _ => true
  | .rind _ => true
  | .plane n => s.planeClass0 n.val
  | .camera _ landing => landing
  | .feed k landing => landing && (s.casc.feeds.getD k.val feed0).class0
  | _ => false

/-- The pipe for which a class-0 request is made, if one is known. -/
def State.c0Pipe (s : State) (who : Initiator) : Option Nat :=
  match who with
  | .safe p _ => some p.val
  | .rind p => some p.val
  | .plane n => if s.planeClass0 n.val then (s.plane n.val).pipe else none
  | .camera n true => (s.racerOf n.val).bind fun e => (s.plane e).pipe
  | .feed k true => (s.racerOf (s.rd (F.cascFeedCtl_STREAM k.val))).bind fun e => (s.plane e).pipe
  | _ => none

/-- A class-0 response after `wait` cclk at its bank: 12 + wait + 8 + 12 in all (R81, R248). -/
def c0Response (who : Initiator) (wait : Nat) (s : State) : State :=
  if !s.isC0 who then s
  else
    let n := 32 + wait
    let s := { s.maxTo F.rindC0Worst_CCLK n with rind := { s.rind with maxlat := max s.rind.maxlat n } }
    match s.c0Pipe who with
    | some p => if 64 < n then onRind p (fun q => { q with slow := true }) s else s
    | none => s

/-- One request granted at a line's bank: its wait and the cclks in which others waited are counted there (R71, R79, R81, R248). An access
whose address parity fails answers its requester with an error, which the requester meets at its own access of the line (R89;
DESIGN CHOICE, assumption 127). -/
def vatGrant (who : Initiator) (off : Nat) (op : LineOp) (err : VatErr) (c0Wait conflict : Nat) (s : State) : State :=
  let s := match s.vatLoc off with
    | some (k, _) =>
      (if s.isC0 who then s.maxTo (F.vatBankC0max_WAIT k) c0Wait else s).wr (F.vatBankConflict_COUNT k)
        (min (s.rd (F.vatBankConflict_COUNT k) + conflict) (2 ^ 48 - 1))
    | none => s
  let s := c0Response who c0Wait s
  let s := if err = .parity ∧ (s.vatLoc off).any fun l => s.bankServes l.1 then { s with vat := { s.vat with failed := (who, off / 64) :: s.vat.failed.filter (· != (who, off / 64)) } } else s
  match op with
  | .read => let (d, e, s) := lineRead who vatBase off 64 err s; keepResp d e s
  | .write bytes => let (e, s) := lineWrite who off bytes .plain err s; keepResp [] e s

/-- VAT_ACCESS: a bank grants one request for a line (R71, R79, R81, R248); to one that does not reach the Vat the access is a decode
error (R26, R29). -/
def execVatAccess (who : Initiator) (line : Fin 0x400000) (op : LineOp) (err : VatErr) (c0Wait conflict : Nat) (s : State) :
    Out :=
  .next (if reaches who .vat then vatGrant who (line.val * 64) op err c0Wait conflict s
    else keepResp (match op with | .read => onesBytes 64 | .write _ => []) true (decodeError who (vatBase + line.val * 64) s))

end Sys2Proof.Machine
end

