-- ==== Sys2Proof/Machine/Ports.lean ====
section
/-! DEFINITION. The display ports (R194 to R197): hot-plug, training, link loss and routing. -/

namespace Sys2Proof.Machine

def State.port (s : State) (k : Nat) : PortRun := s.ports.getD k port0

/-- A hot-plug, training or link event is reported to the host (R195). -/
def portNotify (k ev : Nat) (s : State) : State := notify 0x8001 (Config.dpLinkTag k ev) 0 s

/-- The physical lane of logical lane `i` of port `k` on `n` lanes, by PORT_k_LANEMAP, and whether its polarity is inverted (R194, R203).
The map counts within the port's set; a single lane whose physical lane is out of service takes the other of the pair (DEDUCED,
assumption 137). -/
def State.laneOf (s : State) (k n i : Nat) : Nat × Bool :=
  let size := if n = 4 then 4 else 2
  let c := 2 * k + bitsAt (s.rd (F.portLanemap_LANE k)) (2 * i) 2 % size
  let lane := if n = 1 && s.unitState (unitId 1 c) == 2 then c / 2 * 2 + (1 - c % 2) else c
  (lane, bitAt (s.rd (F.portLanemap_INVERT k)) i)

/-- Training of port `k` starts (R195); an eDP sink takes the alternate scrambler seed where ASSR asks for it. -/
def portTrain (k : Nat) (s : State) : State :=
  let alt := s.flag (F.portCtl_EDP k) && s.flag (F.portCtl_ASSR k)
  onPort k (fun r => { r with altSeed := alt }) (portDown k 1 s)

/-- Port `k` is enabled or its lane count or rate changed: it trains where its HPD is high, reads NO_SINK where it is low, and
stays out of service where it is RETIRED or has no lane left (R195, R197, R563). -/
def portStart (k : Nat) (s : State) : State :=
  if s.unitState (unitId 0 k) = 2 ∨ s.portLanes k = 0 then portDown k 4 s
  else if s.flag (F.portStatus_HPD k) then portTrain k (onPort k (fun r => { r with hpdStamp := s.now }) s)
  else portDown k 5 s

/-- Port `k` is disabled. -/
def portStop (k : Nat) (s : State) : State :=
  onPort k (fun r => { r with route := 0 }) ((portDown k 0 s).clr (F.portStatus_ROUTE_PEND k))

/-- The main stream attributes of the frame of pipe `p` (R195, R200). -/
def State.msa (s : State) (p : Nat) : Msa :=
  { hactive := s.hactive p, htotal := s.htotal p, vactive := s.vactive p
    hsync := (s.lat (F.pipeHsync_START p), s.lat (F.pipeHsync_WIDTH p), s.latFlag (F.pipeHsync_POL p))
    vsync := (s.lat (F.pipeVmax_VSYNC_START p), s.lat (F.pipeVmax_VSYNC_W p), s.latFlag (F.pipeVmax_VPOL p))
    depth := s.lat (F.pipeCtl_DEPTH p) }

/-- The packets of a frame that port `k` sends: MSA and VSC, and Adaptive-Sync where it is set (R195, R203). -/
def State.sdps (s : State) (k : Nat) : List Sdp :=
  let p := s.rd (F.portStatus_PIPE k)
  [.msa (s.msa p), .vsc (s.lat (F.pipeCtl_DEPTH p)) (Config.colorimetry p)] ++ if s.flag (F.portCtl_ADAPTIVE k) then [.adaptiveSync] else []

/-- What a trained port sends: its pipe's lines with their packets, or the idle pattern (R172, R195, R197). -/
def portSends (k : Nat) (s : State) : State :=
  let st := s.rd (F.portStatus_STATE k)
  if st = 2 ∨ st = 3 then
    let pipe := s.rd (F.pipeStatus_STATE (s.rd (F.portStatus_PIPE k)))
    let on := (s.port k).route != 2 && (pipe == 2 || pipe == 3)
    onPort k (fun r => { r with packets := if on then s.sdps k else [] }) (s.wr (F.portStatus_STATE k) (if on then 2 else 3))
  else s

/-- A new route of port `k`: it waits for its old pipe's frame start, or, where that pipe is disabled, only for its new pipe's
(R197). -/
def portRoute (k : Nat) (s : State) : State :=
  if s.rd (F.portStatus_PIPE k) = s.rd (F.portCtl_PIPE k) ∧ (s.port k).route = 0 then s
  else
    let next := if s.pipeOn (s.rd (F.portStatus_PIPE k)) && (s.port k).route != 2 then 1 else 2
    portSends k (onPort k (fun r => { r with route := next }) (s.set1 (F.portStatus_ROUTE_PEND k)))

/-- Routes move at a frame start of pipe `p` (R197). -/
def portsAtFrameStart (p : Nat) (s : State) : State :=
  s.forN 8 fun k s =>
    let r := s.port k
    if r.route = 2 ∧ s.rd (F.portCtl_PIPE k) = p then
      portSends k (onPort k (fun r => { r with route := 0 }) ((s.clr (F.portStatus_ROUTE_PEND k)).wr (F.portStatus_PIPE k) p))
    else if r.route = 1 ∧ s.rd (F.portStatus_PIPE k) = p then portSends k (onPort k (fun r => { r with route := 2 }) s)
    else portSends k s

/-- PORT_HPD_RISE: training starts on an enabled port; the event is reported of every port (R195). -/
def execPortHpdRise (k : Fin 8) (dot : Nat) (s : State) : Out :=
  let s := (s.atDot dot).set1 (F.portStatus_HPD k.val)
  .next (portNotify k.val 0 (if s.flag (F.portCtl_EN k.val) then portStart k.val s else s))

/-- PORT_HPD_FALL: an enabled port reads NO_SINK; an unplugged display is no fault (R195). -/
def execPortHpdFall (k : Fin 8) (s : State) : Out :=
  let s := s.clr (F.portStatus_HPD k.val)
  .next (portNotify k.val 1 (if s.flag (F.portCtl_EN k.val) then portDown k.val 5 s else s))

/-- The lanes of port `k` that are in service. -/
def State.laneUnits (s : State) (k : Nat) : List Nat :=
  ((List.range (max 2 (s.portLanes k))).map fun l => unitId 1 (2 * k + l)).filter fun u => s.unitState u != 2

/-- Port `k` is in training: its first one, or the retry that follows a failed one (R195, R559). -/
def State.portTrains (s : State) (k : Nat) : Bool :=
  s.rd (F.portStatus_STATE k) == 1
    || (s.rd (F.portStatus_STATE k) == 4 && s.flag (F.portCtl_EN k) && s.flag (F.portStatus_HPD k) && (s.fltUnit (unitId 0 k)).retrying)

/-- PORT_TRAINING_DONE: the port is trained; the retry attempts that the training was end well (R195, R559). -/
def execPortTrainingDone (k : Fin 8) (s : State) : Out :=
  let k := k.val
  .next (if !s.portTrains k then s
  else
    let s := ((s.wr (F.portStatus_LANES_ACTIVE k) (s.portLanes k)).wr (F.portStatus_RATE k) (s.rd (F.portCtl_RATE k))).wr
      (F.portStatus_STATE k) 3
    let s := onPort k (fun r => { r with lanes := (List.range (s.portLanes k)).map (s.laneOf k (s.portLanes k)) }) s
    let s := endAttempt (unitId 0 k) true s
    let s := s.forL (s.laneUnits k) fun u s => endAttempt u true s
    portNotify k 2 (portSends k s))

/-- PORT_TRAINING_TIMEOUT: a training not complete 100 ms after the rise of HPD reads LOST and is an upset of the port, or a
failed attempt of the retry it was; the port goes on reading LOST while a retry trains it (R195, R559). -/
def execPortTrainingTimeout (k : Fin 8) (s : State) : Out :=
  let k := k.val
  .next (if !s.portTrains k then s
  else
    let s := portDown k 4 s
    let u := unitId 0 k
    portNotify k 3 (if (s.fltUnit u).retrying then endAttempt u false s else upset u 1 s))

/-- PORT_LINK_LOSS: a trained port loses its link with HPD high. A loss attributed to lanes (bit per lane of its set) counts
against those lanes only, another against the port; the port retrains (R557, R559). -/
def execPortLinkLoss (k : Fin 8) (lanes : BitVec 4) (s : State) : Out :=
  let k := k.val
  .next (if !s.flag (F.portStatus_HPD k) || (s.rd (F.portStatus_STATE k) != 2 && s.rd (F.portStatus_STATE k) != 3) then s
  else
    let s := portTrain k s
    let named := (List.range 4).filter fun l => lanes.getLsbD l
    let s := if named.isEmpty then upset (unitId 0 k) 1 s
             else s.forL named fun l s => upset (unitId 1 ((2 * k + l) % 16)) 1 s
    portNotify k 4 s)

end Sys2Proof.Machine
end

