-- ==== Sys2Proof/Machine/Pipes.lean ====
section
/-! DEFINITION. The pipes (R169 to R189): enabling, lines, frame starts, commits and latches, and release fences. -/

namespace Sys2Proof.Machine

/-! ### Release fences (R186) -/

/-- An address is released into PIPE_p_SLOT_s_REL (R186). -/
def release (p : Nat) (skipped : Bool) (a : Nat × Nat) (s : State) : State :=
  if 12 ≤ a.1 then s
  else
    let s := ((s.wr (F.pipeSlotRel_ADDR p a.1) a.2).wr (F.pipeSlotRel_SKIPPED p a.1) (bit skipped)).incWrap (F.pipeSlotRel_COUNT p a.1)
    s.wr (F.pipeSlotRelfrm_RETIRED p a.1) (s.rd (F.pipeRetired_COUNT p))

/-- Addresses released together: RELEASE is raised once per cclk (R186, R198). -/
def releaseAll (p : Nat) (skipped : Bool) (l : List (Nat × Nat)) (s : State) : State :=
  if l.isEmpty then s else pipeRaise p 3 (s.forL l (release p skipped))

/-! ### The latch (R180, R181, R184, R189) -/

/-- The IRS offset of pipe `p`'s registers (R199). -/
def pipeOff (p : Nat) : Nat := 0x300000 + p * 0x2000

/-- PIPE_LP5X_REASON as last set (R190). -/
def P.pipeLp5x (p : Nat) : Prm := ⟨0x300D + p * 0x40, 0, .plain⟩

/-- The frame-latched registers of pipe `p`, its tables and its Rind latch (R184 step 1, R185, R200, R201, R204, R239). -/
def pipeLatchRegs (p : Nat) (enable : Bool) (s : State) : State :=
  let s := (rindDue p s).wr (F.pipeStatus_LP5X_REASON p) (s.prm (P.pipeLp5x p))
  let s := latchRange (pipeOff p + 0x400) (pipeOff p + 0x424) s
  let s := latchRange (pipeOff p + 0x480) (pipeOff p + 0x4C0) s
  let s := latchRange (pipeOff p + 0x500) (pipeOff p + 0x518) s
  let s := latchRange (0x320000 + p * 0x8000) (0x320000 + p * 0x8000 + 0x6400) s
  rindLatch p enable s

/-- The engine in slot `sl` takes the committed addresses as its bases (R179). -/
def takeBases (p : Nat) (a : Nat × Nat × Nat) (s : State) : State :=
  match s.engineAt p a.1 with
  | none => s
  | some n => onPlane n (fun r => { r with paramBase := false })
      ((s.wr (F.planeBase_ADDR n) a.2.1).wr (F.planeBase2_ADDR n) a.2.2)

/-- An engine with no commit since it joined uses its parameter bases (R179). -/
def paramBases (n : Nat) (s : State) : State :=
  if (s.plane n).paramBase then (s.wr (F.planeBase_ADDR n) (s.prm (P.planeBase n))).wr (F.planeBase2_ADDR n) (s.prm (P.planeBase2 n))
  else s

/-- The latched addresses of engine `n` lie where it may scan (R189). -/
def State.planeAddrOk (s : State) (p n : Nat) : Bool :=
  if s.planeSel n != 0 then true
  else
    let code := s.lat (F.planeFmt_FORMAT n)
    let two := s.planeKind n == 0 || (s.planeKind n == 2 && (code == 0x13 || code == 0x14))
    let lp := !s.planeClass0 n && s.rd (F.pipeStatus_LP5X_REASON p) != 0
    let ok (a : Nat) : Bool := isVat a || (lp && isLp5x a && a < s.lp5xTop)
    ok (s.rd (F.planeBase_ADDR n)) && (!two || ok (s.rd (F.planeBase2_ADDR n)))

/-- Step 2 of R184: layers whose address fails the check are transparent in the coming frame (R189). -/
def checkAddrs (p : Nat) (s : State) : State :=
  let eng := s.planesOf p
  let s := s.forL eng fun n s => onPlane n (fun r => { r with bad := !s.planeAddrOk p n }) s
  let slots := eng.foldl (fun m n => if (s.plane n).bad then m ||| 2 ^ (s.plane n).slot else m) 0
  let safe := (List.range 2).foldl (fun m j => if s.safeOn p j && !isVat (s.lat (F.safeBase_ADDR p j)) then m ||| 2 ^ (13 + j) else m) 0
  let s := onPipe p (fun r => { r with nxtOff := slots ||| safe }) s
  if slots ||| safe = 0 then s else pipeRaise p 7 s

/-- An engine of pipe `p`, or one that waits to join it, reads LP5X. -/
def State.readsLp5x (s : State) (p : Nat) : Bool :=
  ((s.planesOf p).any fun n => s.planeSel n == 0 && isLp5x (s.rd (F.planeBase_ADDR n)))
    || (s.joiners p).any fun n => isLp5x (s.prm (P.planeBase n))

/-- The CLUSTER service sets NONE on a pipe that it had scan LP5X for the start, once the commit has latched that leaves its engines in the
Vat (R483; DEDUCED, assumption 181). -/
def clusterSettles (p : Nat) (s : State) : State :=
  if s.svc.held.contains (0, 0x30, p) && s.prm (P.pipeLp5x p) == 1 && !(s.planesOf p).isEmpty && !s.readsLp5x p then
    s.setPrm (P.pipeLp5x p) 0
  else s

/-- An engine that waits to join prepares its settings: they are in force at once (R134), with its parameter bases (R179), whose check shows
in its pipe's BADADDR (R189). -/
def joinPrepare (p n : Nat) (s : State) : State :=
  let s := (planeLatch n s).wr (F.planeBase_ADDR n) (s.prm (P.planeBase n))
  let s := s.wr (F.planeBase2_ADDR n) (s.prm (P.planeBase2 n))
  let bad := !s.planeAddrOk p n
  let s := ringTake n (onPlane n (fun r => { r with paramBase := true, bad := bad }) s)
  if bad then pipeRaise p 7 (onPipe p (fun r => { r with nxtOff := r.nxtOff ||| 2 ^ s.rd (F.planeCfg_SLOT n) }) s) else s

/-- An engine that comes to wait for a pipe whose line-0 work has begun takes its own snapshot in that cclk, in place of one that it had
taken (R132, R134). -/
def joinLate (n : Nat) (s : State) : State :=
  let p := s.rd (F.planeCfg_PIPE n)
  if (s.pipe p).line0 && (s.joiners p).contains n then planeSnapshot p n 0 (joinPrepare p n s)
  else if (s.plane n).pipe.isNone then onPlane n (fun r => { r with fetch := none, ready := none }) s else s

/-- The per-line work for line 0: engines that belong to the pipe or are about to join it, the background, the Harp and the
safety planes (R132, R156, R174). -/
def line0Start (p : Nat) (s : State) : State :=
  let join := s.joiners p
  let s := s.forL join (joinPrepare p)
  let s := s.forL (s.planesOf p ++ join) fun n s => planeSnapshot p n 0 s
  let s := snapRange (pipeOff p + 0x430) (pipeOff p + 0x438) s
  let s := safeFetches p 0 (harpStart p 0 s)
  onPipe p (fun r => { r with line0 := true }) s

/-- The steps of R184 at blanking line `k`. `result` is what COMMIT_STATUS reports for a set that is not empty; a late latch
leaves out step 4. -/
def latchSteps (p result k : Nat) (late : Bool) (s : State) : State :=
  let r := s.pipe p
  let replaced := r.addrs.filterMap fun a => (r.slots.find? fun b => b.1 == a.1).map fun b => (b.1, b.2.1)
  let slots := r.addrs ++ r.slots.filter fun b => !(r.addrs.any fun a => a.1 == b.1)
  -- step 1
  let s := pipeLatchRegs p false s
  let s := s.forL (s.planesOf p) fun n s => planeLatch n s
  let s := s.forL r.addrs (takeBases p)
  let s := clusterSettles p (s.forL (s.planesOf p) paramBases)
  let s := if r.pend then
      let s := ((s.wr (F.pipeCommitStatus_RESULT p) result).wr (F.pipeCommitStatus_FW p) (bit r.fw)).wr (F.pipeCommitStatus_LINE p) k
      match r.seq with
      | some q => s.wr (F.pipeCommitSeq_LATCHED p) q
      | none => s
    else s
  let s := (s.clr (F.pipeCommitStatus_PENDING p)).clr (F.pipeCommitSeq_PENDING p)
  -- step 2
  let s := checkAddrs p s
  -- step 3
  let drains := late && r.line0
  let s := if drains then onPipe p (fun q => { q with drain := q.drain ++ replaced }) s else s.forL replaced (release p false)
  -- step 4
  let s := if late then s else s.incWrap (F.pipeRetired_COUNT p)
  let s := onPipe p (fun q => { q with pend := false, addrs := [], seq := none, fw := false, deferred := false, aged := false,
                                       slots := slots, latchLine := some k, latchDone := true }) s
  let s := s.clr (F.pipeStatus_WAITING p)
  -- step 5
  let s := stageStart p s
  -- step 6
  let s := s.forL (s.planesOf p) ringTake
  let s := if r.line0 then line0Start p s else s
  -- step 7
  let s := pipeRaise p 1 (s.wr (F.pipeLatchStamp_STAMP p) s.now)
  let s := if drains || replaced.isEmpty then s else pipeRaise p 3 s
  rindSafe p (rindEntries p s)

/-- While a pipe is disabled its settings take effect at once, without a commit (R185). -/
def latchOff (p : Nat) (s : State) : State :=
  let s := pipeLatchRegs p false s
  let s := s.forL (s.planesOf p) fun n s => planeLatch n s
  s.forL (s.planesOf p) paramBases

/-- While a pipe is disabled every commit latches at once and is reported NEXT; no latch line passes (R184, R185). -/
def commitOff (p : Nat) (s : State) : State :=
  onPipe p (fun r => { r with latchLine := none, latchDone := false }) (latchSteps p 1 0 true s)

/-! ### Commits (R179 to R182, R185) -/

/-- Ready gating in force (R182). -/
def State.readyGate (s : State) (p : Nat) : Bool := s.latFlag (F.pipeCtl_READY_GATE p)

/-- The pipe is in vertical blanking. -/
def State.inBlanking (s : State) (p : Nat) : Bool := s.rd (F.pipeStatus_STATE p) == 1 || s.rd (F.pipeStatus_STATE p) == 3

/-- A commit completed now misses the latch of the next frame (R181, R182). -/
def State.commitLate (s : State) (p : Nat) : Bool :=
  let r := s.pipe p
  s.inBlanking p && r.latchDone && !(s.readyGate p && r.latchLine.isNone && r.blank + 1 ≤ s.vmax p - 2)

/-- Addresses, and the SEQ of a host or sequencer commit, join the pending set; an address that a pending commit placed and this
one replaces is superseded and released at once (R180, R186). -/
def commit (p : Nat) (addrs : List (Nat × Nat × Nat)) (seq : Option Nat) (s : State) : State :=
  let r := s.pipe p
  let gone := r.addrs.filter fun a => addrs.any fun b => b.1 == a.1
  let s := onPipe p (fun q => { q with pend := true, addrs := addrs ++ q.addrs.filter (fun a => !(addrs.any fun b => b.1 == a.1)),
                                       seq := seq.or q.seq, fw := q.fw || seq.isNone }) s
  let s := s.incBy (F.pipeCommitStatus_SUPERSEDED p) gone.length
  let s := releaseAll p true (gone.map fun a => (a.1, a.2.1)) s
  let s := s.wr (F.pipeCommitSeq_PENDING p) ((seq.or r.seq).getD (s.rd (F.pipeCommitSeq_LATCHED p)))
  if !s.pipeOn p then commitOff p s
  else if s.commitLate p then
    pipeRaise p 2 (onPipe p (fun q => { q with deferred := true }) (s.wr (F.pipeCommitStatus_PENDING p) 2))
  else s.wr (F.pipeCommitStatus_PENDING p) 1

/-- A firmware commit (R185). -/
def fwCommit (p : Nat) (s : State) : State := commit p [] none s

/-- A write of PIPE_p_COMMIT; the host's is dropped while a service holds the pipe (R179, R477). -/
def pipeCommit (t : Tag) (p mask seq : Nat) (s : State) : State :=
  if !mayWrite true (some p) false t || (t == .host && s.heldRes 0x30 p) then droppedBy t (pipeOff p) (mask + seq * 65536) s
  else commit p ((bitsSet 12 mask).map fun sl => (sl, s.rd (F.pipeSlotAddr_ADDR p sl) / 64 * 64, s.rd (F.pipeSlotAddr2_ADDR p sl) / 64 * 64)) (some seq) s

/-- PIPE_COMMIT (R179). -/
def execPipeCommit (who : Initiator) (p : Fin 8) (slotMask : BitVec 12) (seq : BitVec 16) (s : State) : Out :=
  .next (writeIrs who (pipeOff p.val) (slotMask.toNat + seq.toNat * 65536) (pipeCommit (initiatorTag who) p.val slotMask.toNat seq.toNat) s)

/-! ### Enable and disable (R172) -/

/-- PIPE_EN becomes 1: the pipe is in blanking, whose line 0 is the next line to start, and a ready-gated pipe latches for its first
frame at once (R172). -/
def pipeEnable (p : Nat) (s : State) : State :=
  let s := pipeLatchRegs p true s
  let s := s.forL (s.planesOf p) planeLatch
  let locked := s.flag (F.lockCtl_EN p)
  let s := ((s.wr (F.pipeStatus_STATE p) 1).wr (F.pipeStatus_LINE p) (s.vactive p)).clr (F.pipeStatus_WAITING p)
  let s := onPipe p (fun r => { pipe0 with slots := r.slots, addrs := r.addrs, pend := r.pend, seq := r.seq, fw := r.fw,
                                           firstWait := locked, atBlank0 := true, linesSent := r.linesSent, lineStamp := r.lineStamp }) s
  let s := if locked then lockRestart p s else lockOff p s
  let s := onRind p (fun r => { r with expRaised := false }) s
  if s.readyGate p then latchSteps p 1 0 false (onPipe p (fun r => { r with pend := true, fw := true }) s) else s

/-- A disable takes effect at the latch line: no further lines, idle ports, and every address in use released (R172, R186). -/
def pipeDisable (p : Nat) (s : State) : State :=
  let s := (((s.clr (F.pipeStatus_STATE p)).clr (F.pipeStatus_LINE p)).clr (F.pipeStatus_WAITING p))
  let s := lockOff p s
  let s := releaseAll p false (((s.pipe p).slots.map fun a => (a.1, a.2.1)) ++ (s.pipe p).drain) s
  let s := onPipe p (fun r => { r with slots := [], drain := [], line0 := false, sent := [], safe0 := none, safe1 := none }) s
  let s := s.forL (s.planesOf p) fun n s => ringRelease n (onPlane n (fun r => { r with fetch := none, ready := none, bound := none }) s)
  let s := onHarp p (fun r => { r with work := none, ready := none }) s
  let s := s.forN 64 fun r s => s.clr (F.rectVerdict_VERDICT p r)
  let s := onRind p (fun r => { r with rects := [], alert := false, expRaised := false }) (alertClear p s)
  s.forN 8 portSends

/-- PIPE_LATCH: the latch line of pipe `p` (R172, R181, R184). -/
def execPipeLatch (p : Fin 8) (s : State) : Out :=
  let p := p.val
  let r := s.pipe p
  .next (if !s.inBlanking p || r.latchDone || r.atBlank0 || r.blank != 0 then s
  else
    let s := if s.readyGate p && !r.pend then
        onPipe p (fun r => { r with latchDone := true }) ((s.set1 (F.pipeStatus_WAITING p)).incWrap (F.pipeRetired_COUNT p))
      else latchSteps p (if r.deferred then 3 else 1) 0 false s
    if s.flag (F.pipeCtl_EN p) then s else pipeDisable p s)

/-- PIPE_LATE_LATCH: a set pending since before this blanking line latches LATE (R182). -/
def execPipeLateLatch (p : Fin 8) (s : State) : Out :=
  let p := p.val
  let r := s.pipe p
  .next (if s.inBlanking p && r.latchDone && s.readyGate p && r.latchLine.isNone && r.pend && r.aged && 1 ≤ r.blank && r.blank ≤ s.vmax p - 2 then
    latchSteps p 2 r.blank true s
  else s)

/-- FETCH_DRAIN_RELEASE: every read of the discarded fetch has returned (R186). -/
def execFetchDrainRelease (p : Fin 8) (s : State) : Out :=
  .next (releaseAll p.val false (s.pipe p.val).drain (onPipe p.val (fun r => { r with drain := [] }) s))

/-! ### Lines (R169) -/

/-- At the line boundary about to come, the next frame starts (R58, R62, R172, R182, R183). -/
def State.frameDue (s : State) (p : Nat) : Bool :=
  let r := s.pipe p
  let sent := r.blank + 1
  let anchor := !s.lockOn p || (if r.firstWait then s.anchorReached p
    else !s.nextIsAnchor p || s.flag (F.lockCtl_FIXED p) || s.anchorReached p)
  let ready := !s.readyGate p || r.latchLine.any fun k => k + 2 ≤ sent
  s.inBlanking p && !r.atBlank0 && ((s.vmin p ≤ sent && anchor && ready) || (s.vmax p ≤ sent && !r.firstWait))

/-- A line starts: its stamp, its number among the lines sent, and the waits that seek it (R289, R290, R395). -/
def lineBegins (p : Nat) (s : State) : State :=
  seqLine p (onPipe p (fun r => { r with lineStamp := s.now, linesSent := r.linesSent + 1 }) s)

/-- An active line starts: underruns, writeback of the lines held, composition, and the work for the next line (R132, R137, R156,
R174, R188, R192). -/
def activeLine (p l : Nat) (safeLate : BitVec 2) (wbStall : Bool) (s : State) : State :=
  let s := lineBegins p ((s.wr (F.pipeStatus_LINE p) l).wr (F.pipeStatus_STATE p) 2)
  let s := lineUnderruns p l safeLate s
  let s := s.iff (!wbStall) (wbFlush p)
  let s := composeLine p l s
  if l + 1 < s.vactive p then
    let s := s.forL (s.planesOf p) fun n s => planeSnapshot p n (l + 1) s
    let s := snapRange (pipeOff p + 0x430) (pipeOff p + 0x438) s
    safeFetches p (l + 1) (harpStart p (l + 1) s)
  else s

/-- Blanking line `k` starts (R132, R169, R181). -/
def blankLine (p k : Nat) (wbStall : Bool) (s : State) : State :=
  let s := lineBegins p (s.wr (F.pipeStatus_LINE p) (min 65535 (s.vactive p + k)))
  let s := if s.rd (F.pipeStatus_STATE p) = 2 then s.wr (F.pipeStatus_STATE p) 3 else s
  let s := onPipe p (fun r =>
    let keep := r.atBlank0 || k != 0
    { r with blank := k, atBlank0 := false, aged := r.pend, sent := [], latchDone := r.latchDone && keep,
             latchLine := if keep then r.latchLine else none, line0 := r.line0 && keep }) s
  let s := s.iff (!wbStall && k = 0) (wbFlush p)
  if k + 2 = s.vmin p then line0Start p s else s

/-- PIPE_LINE_START: the next line of pipe `p` starts, unless a frame is due there (R169). -/
def execPipeLineStart (p : Fin 8) (dot : Nat) (safeLate : BitVec 2) (wbStall : Bool) (s : State) : Out :=
  let p := p.val
  let s := s.atDot dot
  let r := s.pipe p
  .next (if !s.pipeOn p then s
  else if r.atLine0 then activeLine p 0 safeLate wbStall (onPipe p (fun r => { r with atLine0 := false }) s)
  else if s.rd (F.pipeStatus_STATE p) = 2 then
    let l := s.rd (F.pipeStatus_LINE p) + 1
    if l < s.vactive p then activeLine p l safeLate wbStall s else blankLine p 0 wbStall s
  else if r.atBlank0 then blankLine p 0 wbStall s
  else if s.frameDue p then s
  else blankLine p (r.blank + 1) wbStall s)

/-- The status of the ending frame is copied and that of the new one begun (R183, R189, R202). -/
def frameStatus (p : Nat) (s : State) : State :=
  let r := s.pipe p
  let s := s.wr (F.pipeUnderrun_LAST p) (s.offMask p)
  let s := ((s.clr (F.pipeUnderrun_SLOT p)).clr (F.pipeUnderrun_OBJ p)).clr (F.pipeUnderrun_SAFE p)
  let s := (s.wr (F.pipeBadaddr_SLOT p) (bitsAt r.nxtOff 0 12)).wr (F.pipeBadaddr_SAFE p) (bitsAt r.nxtOff 13 2)
  let s := onPipe p (fun r => { r with slotLat := 0 }) (s.wr (F.seqSlot_MAXLAT p) (min 255 r.slotLat))
  let repeats := s.readyGate p && r.latchLine.isNone
  let s := onPipe p (fun r => { r with raised := 0, repeating := repeats }) s
  let s := s.wr (F.pipeCommitStatus_REPEAT p) (bit repeats)
  if repeats then pipeRaise p 6 (s.inc (F.pipeRepeats_COUNT p)) else s

/-- A class-0 layer that the latch left transparent counts in the frame's report (R247). -/
def badClass0 (p : Nat) (s : State) : State :=
  if (List.range 15).any fun i => bitAt (s.badMask p) i && s.layerClass0 p i then onRind p (fun q => { q with off := true }) s else s

/-- A frame of pipe `p` starts (R58, R63, R106, R143, R167, R183, R197, R202, R240, R247). -/
def frameStart (p : Nat) (s : State) : State :=
  let s := rindFrameStart p (s.rd (F.pipeStatus_STATE p) == 3) s
  let s := frameStatus p s
  let s := s.forL (s.planesOf p) planeFrameStart
  let join := s.joiners p
  let left := (s.leavers p).filter fun n => s.rd (F.planeCfg_PIPE n) != p
  let s := (planesAtFrameStart p s).forL left joinLate
  let s := s.forL (s.planesOf p) raceOpen
  let s := s.forL join planeFrameStart
  let s := badClass0 p (rindFrameOpen p (harpFrameStart p s))
  let s := rindSkips p (pipeRaise p 0 (s.incWrap (F.pipeFrames_COUNT p)))
  let s := syncArmPipe p (lockFrameStart p s)
  let s := ((s.wr (F.pipeStatus_STATE p) 2).wr (F.pipeStatus_LINE p) 0).clr (F.pipeStatus_WAITING p)
  let s := wbFrameStart p (portsAtFrameStart p s)
  onPipe p (fun r => { r with atLine0 := true, firstWait := false, latchDone := false, latchLine := none, line0 := false }) s

/-- PIPE_FRAME_START: the pipe starts a frame where R58 lets it. -/
def execPipeFrameStart (p : Fin 8) (dot : Nat) (s : State) : Out :=
  let s := s.atDot dot
  .next (if s.pipeOn p.val && s.frameDue p.val then frameStart p.val s else s)

end Sys2Proof.Machine
end

