-- ==== Sys2Proof/Machine/Camera.lean ====
section
/-! DEFINITION. Camera ingest (R206 to R227): packets of the CSI-2 ports, the ring of whole frames, line racing, lost
cameras, port resynchronisation and frame sync. -/

namespace Sys2Proof.Machine

/-! ### From wire to landing format (R208; the byte order on the wire is MIPI CSI-2's, PRESUMED, assumption 14) -/

/-- Bits per pixel on the wire (R208). -/
def wireBits (dt : Nat) : Nat :=
  if dt = 0x1E then 16 else if dt = 0x1F then 20 else if dt = 0x24 then 24
  else if 0x2A ≤ dt ∧ dt ≤ 0x2E then 8 + 2 * (dt - 0x2A) else 30

/-- A byte of a packet's payload; 0 past its end. -/
def wireByte (d : List Byte) (i : Nat) : Nat := (d.getD i 0#8).toNat

/-- Sample `i` of a payload of 10-bit samples, four to five bytes with the low bits last. -/
def wire10 (d : List Byte) (i : Nat) : Nat :=
  wireByte d (i / 4 * 5 + i % 4) * 4 + bitsAt (wireByte d (i / 4 * 5 + 4)) (2 * (i % 4)) 2

/-- Sample `i` of a RAW payload of `w` bits. -/
def wireRaw (w : Nat) (d : List Byte) (i : Nat) : Nat :=
  match w with
  | 8 => wireByte d i
  | 10 => wire10 d i
  | 12 => wireByte d (i / 2 * 3 + i % 2) * 16 + bitsAt (wireByte d (i / 2 * 3 + 2)) (4 * (i % 2)) 4
  | 14 =>
    let low := leNat ((d.drop (i / 4 * 7 + 4)).take 3)
    wireByte d (i / 4 * 7 + i % 4) * 64 + bitsAt low (6 * (i % 4)) 6
  | _ => wireByte d (2 * i) * 256 + wireByte d (2 * i + 1)

/-- The landing bytes of pixel `x` of a line of data type `dt` (R208). -/
def landPixel (dt : Nat) (d : List Byte) (x : Nat) : List Byte :=
  if dt = 0x1E then
    -- the wire carries Cb, Y0, Cr, Y1
    natLE 2 (wireByte d (2 * x + 1) + wireByte d (2 * x) * 256)
  else if dt = 0x1F then natLE 4 (wire10 d (2 * x + 1) * 2 ^ 6 + wire10 d (2 * x) * 2 ^ 22)
  else if dt = 0x24 then natLE 4 (255 + leNat ((d.drop (3 * x)).take 3) * 256)
  else if 0x2A ≤ dt ∧ dt ≤ 0x2E then natLE 2 (wireRaw (wireBits dt) d x * 2 ^ (16 - wireBits dt))
  else
    let w := bitsAt (leNat ((d.drop (30 * x / 8)).take 5)) (30 * x % 8) 30
    natLE 4 (bitsAt w 0 10 * 2 ^ 20 + bitsAt w 10 10 * 2 ^ 10 + bitsAt w 20 10)

/-- The landing bytes of a line of `w` pixels: pixels beyond are dropped and missing ones written 0 (R208, R213). -/
def landLine (dt w : Nat) (d : List Byte) : List Byte :=
  let have_ := d.length * 8 / wireBits dt
  (List.range w).flatMap fun x =>
    if x < have_ then landPixel dt d x else natLE (if dt = 0x1E ∨ (0x2A ≤ dt ∧ dt ≤ 0x2E) then 2 else 4) 0

/-! ### Frames (R211 to R214) -/

/-- The buffer an FS takes: the unheld one whose last completed frame is oldest, the newest complete one only where no other
is unheld (R211). -/
def State.ringChoose (s : State) (n : Nat) : Option Nat :=
  let free := (List.range (s.ringCount n)).filter fun b =>
    !(s.planes.any fun r => r.ring.any fun t => t.stream == n && t.buf == b)
  let newest := s.rd (F.streamStatus_NEWEST n)
  let others := free.filter fun b => !(s.flag (F.streamStatus_NEWEST_VALID n) && b == newest)
  let age (b : Nat) : Nat := (s.stream n).age.getD b 0
  (if others.isEmpty then free else others).foldl (fun best b => match best with
    | none => some b
    | some c => if age b < age c then some b else some c) none

/-- A complete frame's last write is acknowledged: it becomes NEWEST (R212). -/
def frameComplete (n : Nat) (s : State) : State :=
  let r := s.stream n
  match r.done with
  | none => s
  | some (b, err, long) =>
    let s := ((s.set1 (F.streamBuf_COMPLETE n b)).wr (F.streamBuf_ERR n b) (bit err)).wr (F.streamBuf_LONG n b) (bit long)
    let s := ((s.clr (F.streamBuf_WRITING n b)).wr (F.streamStatus_NEWEST n) b).set1 (F.streamStatus_NEWEST_VALID n)
    let s := (s.wr (F.streamBufSeq_SEQ n b) (r.count + 1)).wr (F.streamBufSeq_FRAME_NUM n b) r.frameNum
    let s := s.wr (F.streamFeStamp_STAMP n) s.now
    let age := (List.range 8).map fun c => if c = b then r.count + 1 else r.age.getD c 0
    raise (160 + n) (onStream n (fun r => { r with done := none, count := r.count + 1, age := age }) s)

/-- The frame in progress ends, at an FE or short without one (R212, R213). ACCEPT_ERR forgives corrupt lines and no missing
ones (DEDUCED, assumption 15). -/
def frameEnd (n : Nat) (fe : Bool) (s : State) : State :=
  let r := s.stream n
  if !r.inFrame then s
  else
    let h := s.rd (F.streamSize_H n)
    let short := !fe || r.lines < h
    let long := h < r.lines
    let s := if short then streamEvent n 0 (s.inc (F.streamErrs_SHORT n)) else s
    let s := if long then streamEvent n 0 (s.inc (F.streamErrs_LONG n)) else s
    let s := if r.corrupt then s.inc (F.streamErrs_CORRUPT n) else s
    let good := !short && (!r.corrupt || s.flag (F.streamCtl_ACCEPT_ERR n))
    let s := match r.buf with
      | some b => if good then onStream n (fun q => { q with done := some (b, r.corrupt, long) }) s
                  else s.clr (F.streamBuf_WRITING n b)
      | none => s
    onStream n (fun q => { q with inFrame := false, buf := none }) s

/-- A frame starts on stream `n` (R211, R213, R214). -/
def frameBegin (n frameNum : Nat) (s : State) : State :=
  let s := frameComplete n (frameEnd n false s)
  let buf := s.ringChoose n
  let s := onStream n (fun r => { r with frames := r.frames + 1, inFrame := true, buf := buf, frameNum := frameNum, lines := 0,
                                         corrupt := false, since := s.now }) s
  let s := (s.wr (F.streamStatus_STATE n) 2).clr (F.streamStatus_LINE n)
  match buf with
  | none => streamEvent n 2 (s.inc (F.streamErrs_DROPS n))
  | some b =>
    let s := if s.flag (F.streamStatus_NEWEST_VALID n) && s.rd (F.streamStatus_NEWEST n) == b then
        s.clr (F.streamStatus_NEWEST_VALID n) else s
    let s := ((s.clr (F.streamBuf_COMPLETE n b)).clr (F.streamBuf_ERR n b)).clr (F.streamBuf_LONG n b)
    ((s.wr (F.streamBuf_FS_STAMP n b) s.now).set1 (F.streamBuf_WRITING n b)).wr (F.streamStatus_WRITING n) b

/-- The frame's lines end with an FE, which restarts the timeout; an FE outside a frame is ignored (R212 to R214). -/
def frameFe (n : Nat) (s : State) : State :=
  if (s.stream n).inFrame then onStream n (fun r => { r with since := s.now }) (frameEnd n true s)
  else s.inc (F.streamOrphan_FE n)

/-- Landing bytes of line `c` written into the frame's buffer (R210, R213). -/
def ringLine (n c : Nat) (who : Initiator) (bytes : List Byte) (s : State) : State :=
  match (s.stream n).buf with
  | none => s
  | some b =>
    let (e, s) := memWrite who (s.ringBuf n b + c * s.rd (F.streamStride_BYTES n)) bytes s
    if e then streamEvent n 0 (onStream n (fun r => { r with corrupt := true }) s) else s

/-- Landing bytes of line `c` written into its landing slot: its tag is valid later, where the line is (R213, R217). -/
def slotLine (n c : Nat) (who : Initiator) (good : Bool) (bytes : List Byte) (s : State) : State :=
  if !s.flag (F.streamCtl_RACED n) then s
  else
    let slot := c % s.landLines n
    let (e, s) := memWrite who (s.landSlot n slot) bytes s
    let tag : LandTag := { slot := slot, frame := (s.stream n).frames, line := c }
    onStream n (fun r => { r with tags := r.tags.filter fun t => t.slot != slot
                                  slots := if e then r.slots else tag :: r.slots.filter fun t => t.slot != slot
                                  landing := (r.landing.filter fun t => t.slot != slot) ++ (if good && !e then [tag] else []) }) s

/-- A line of a stream arrives in its landing format (R210, R213, R217). Lines past H are dropped. -/
def streamLine (n : Nat) (who : Bool → Initiator) (good : Bool) (bytes : List Byte) (s : State) : State :=
  let r := s.stream n
  if !r.inFrame then s.inc (F.streamOrphan_LINES n)
  else
    let c := r.lines
    let s := onStream n (fun r => { r with lines := r.lines + 1 }) s
    let s := if good then s else streamEvent n 0 s
    if s.rd (F.streamSize_H n) ≤ c then s
    else
      let s := s.wr (F.streamStatus_LINE n) c
      let s := if good then s else onStream n (fun r => { r with corrupt := true }) s
      slotLine n c (who true) good bytes (ringLine n c (who false) bytes s)

/-- The engines that race stream `n` (R217). -/
def State.racers (s : State) (n : Nat) : List Nat :=
  (List.range 32).filter fun e => s.planeSel e == 2 && s.planeStream e == n

/-- Stream `n` is lost (R214). The frame in progress ends short (DEDUCED, assumption 15). -/
def streamLost (n : Nat) (s : State) : State :=
  let s := frameEnd n false s
  let s := onStream n (fun r => { r with done := none }) s
  let s := (s.wr (F.streamStatus_STATE n) 3).clr (F.streamStatus_NEWEST_VALID n)
  let s := s.forN 8 fun b s => (s.clr (F.streamBuf_COMPLETE n b)).clr (F.streamBuf_WRITING n b)
  let s := s.forL (s.racers n) fun e s => onPlane e (fun r => { r with bound := none }) s
  logEvent 0x0400 2 n (s.rd (F.streamCtl_PORT n)) (streamEvent n 1 s)

/-- Stream `n` is enabled: it waits for its first FS (R206, R214). -/
def streamEnable (n : Nat) (s : State) : State :=
  let s := onStream n (fun _ => { stream0 with since := s.now }) s
  let s := ((s.wr (F.streamStatus_STATE n) 1).clr (F.streamStatus_NEWEST_VALID n)).clr (F.streamStatus_LINE n)
  s.forN 8 fun b s => (s.clr (F.streamBuf_COMPLETE n b)).clr (F.streamBuf_WRITING n b)

/-- Stream `n` is disabled. -/
def streamDisable (n : Nat) (s : State) : State :=
  let s := onStream n (fun r => { r with inFrame := false, buf := none, done := none, tags := [], landing := [], slots := [], pulse := none }) s
  let s := s.clr (F.streamStatus_STATE n)
  s.forN 8 fun b s => s.clr (F.streamBuf_WRITING n b)

/-! ### Ports (R206, R213, R215) -/

/-- The fault unit of a CSI-2 port (R557). -/
def csiUnit (k : Nat) : Nat := unitId 2 k

/-- The enabled camera streams of a port. -/
def State.portStreams (s : State) (k : Nat) : List Nat :=
  (List.range 16).filter fun n => s.flag (F.streamCtl_EN n) && (s.feedOf n).isNone && s.rd (F.streamCtl_PORT n) == k

/-- A RETIRED port is lost, and its streams with it (R215). -/
def csiRetired (k : Nat) (s : State) : State :=
  if s.unitState (csiUnit k) != 2 || s.rd (F.csiStatus_STATE k) == 3 then s
  else
    let s := s.wr (F.csiStatus_STATE k) 3
    let s := { s with cam := { s.cam with resync := s.cam.resync.filter (· != k) } }
    s.forL ((s.portStreams k).filter fun n => s.rd (F.streamStatus_STATE n) != 3) streamLost

/-- A resynchronisation of port `k` begins where its fault unit makes a retry (R215). -/
def csiResync (k : Nat) (s : State) : State :=
  if !(s.fltUnit (csiUnit k)).retrying then csiRetired k s
  else
    let s := csiError k ((s.wr (F.csiStatus_STATE k) 1).inc (F.csiErr1_RESYNC k))
    { s with cam := { s.cam with resync := k :: s.cam.resync.filter (· != k) } }

/-- An upset of port `k`: the frames in progress end short, and the port resynchronises (R215). -/
def csiUpset (k : Nat) (s : State) : State :=
  if s.rd (F.csiStatus_STATE k) != 2 then s
  else csiResync k (upset (csiUnit k) 7 (s.forL (s.portStreams k) fun n s => frameEnd n false s))

/-- A CRC or an uncorrectable header error of a port; more than 16 within 1 ms are an upset (R215). -/
def csiBurst (k : Nat) (s : State) : State :=
  let recent := (k, s.now) :: s.cam.errors.filter fun e => e.1 != k || s.within 1000 e.2
  if 16 < (recent.filter fun e => e.1 == k).length then
    csiUpset k { s with cam := { s.cam with errors := recent.filter fun e => e.1 != k } }
  else { s with cam := { s.cam with errors := recent } }

/-- What the header ECC found: whether the packet is used, and the counters (R213). -/
def csiHeader (k : Nat) (h : HdrErr) (s : State) : Bool × State :=
  match h with
  | .none => (true, s)
  | .corrected => (true, csiError k (s.inc (F.csiErr0_ECC_CE k)))
  | .uncorrectable => (false, csiBurst k (csiError k (s.inc (F.csiErr0_ECC_UE k))))

/-- Port `k` receives packets: enabled and synchronised (R206). -/
def State.csiReceives (s : State) (k : Nat) : Bool := s.flag (F.csiCtl_EN k) && s.rd (F.csiStatus_STATE k) == 2

/-- A packet of port `k` with its header's outcome; `f` takes a packet that is used. -/
def csiPacket (k : Nat) (h : HdrErr) (f : State → State) (s : State) : State :=
  if !s.csiReceives k then s
  else
    let (ok, s) := csiHeader k h s
    if ok then f s else s

/-- The streams of a port and virtual channel. -/
def State.vcStreams (s : State) (k vc : Nat) : List Nat := (s.portStreams k).filter fun n => s.rd (F.streamCtl_VC n) == vc

/-- CSI_FS: a frame starts on each stream of the port and channel (R211, R213). -/
def execCsiFs (port : Fin 4) (vc : Fin 16) (frameNum : BitVec 16) (hdr : HdrErr) (dot : Nat) (s : State) : Out :=
  .next (csiPacket port.val hdr
    (fun s => s.forL (s.vcStreams port.val vc.val) fun n s => frameBegin n frameNum.toNat s) (s.atDot dot))

/-- CSI_FE: the frame of each stream of the port and channel ends (R212, R213). -/
def execCsiFe (port : Fin 4) (vc : Fin 16) (_frameNum : BitVec 16) (hdr : HdrErr) (dot : Nat) (s : State) : Out :=
  .next (csiPacket port.val hdr (fun s => s.forL (s.vcStreams port.val vc.val) frameFe) (s.atDot dot))

/-- A long packet that is used: embedded data is discarded, a packet no stream takes is counted, and another is a line, written as
received before a CRC error counts towards a burst (R206, R208, R210, R213, R215). -/
def longPacket (k vc dt : Nat) (data : List Byte) (crcErr : Bool) (s : State) : State :=
  if dt = 0x12 then s
  else
    let s := s.iff crcErr fun s => csiError k (s.inc (F.csiErr1_CRC k))
    let s := match (s.vcStreams k vc).find? fun n => s.rd (F.streamCtl_DT n) == dt with
      | none => csiError k (s.inc (F.csiErr1_DT_UNSUPP k))
      | some n =>
        let w := s.rd (F.streamSize_W n)
        let good := !crcErr && data.length * 8 / wireBits dt == w
        streamLine n (Initiator.camera (Fin.ofNat 16 n)) good (landLine dt w data) s
    s.iff crcErr (csiBurst k)

/-- CSI_LONG_PACKET (R210, R213, R217). -/
def execCsiLongPacket (port : Fin 4) (vc : Fin 16) (dt : BitVec 6) (data : List Byte) (hdr : HdrErr) (crcErr : Bool)
    (s : State) : Out :=
  .next (csiPacket port.val hdr (longPacket port.val vc.val dt.toNat data crcErr) s)

/-- CSI_SHORT_IGNORED: LS, LE and generic short packets, and embedded data, have no effect beyond their header's outcome
(R206). -/
def execCsiShortIgnored (port : Fin 4) (_vc : Fin 16) (_dt : BitVec 6) (hdr : HdrErr) (s : State) : Out :=
  .next (csiPacket port.val hdr id s)

/-- STREAM_FRAME_COMPLETE: the last line's write of a complete frame is acknowledged (R212). -/
def execStreamFrameComplete (n : Fin 16) (dot : Nat) (s : State) : Out := .next (frameComplete n.val (s.atDot dot))

/-- LANDING_TAG_VALID: the oldest landing write in progress completes; its tag is valid unless the write failed (R217). -/
def execLandingTagValid (n : Fin 16) (err : Bool) (s : State) : Out :=
  .next (match (s.stream n.val).landing with
    | [] => s
    | t :: rest => onStream n.val (fun r => { r with landing := rest, tags := if err then r.tags else t :: r.tags }) s)

/-- The line that replaces line `c` of a bound frame: the most recently landed valid line with a lower index (R219). -/
def StreamRun.replacement (r : StreamRun) (frame c : Nat) : Option Nat :=
  (r.tags.find? fun t => t.frame == frame && t.line < c).map (·.line)

/-- The least of the measures so far and a new one; the largest. -/
def leastOf (a b : Option Nat) : Option Nat := match a, b with | some x, some y => some (min x y) | _, _ => a.or b
def mostOf (a b : Option Nat) : Option Nat := match a, b with | some x, some y => some (max x y) | _, _ => a.or b

/-- Tap line `c` of output line `l` of engine `n` is not valid at the cut-off: it is replaced, and counted as OVERRUN where its slot holds a
later line, valid or not, and as LATE otherwise (R219). The line-0 work counts for the coming frame. -/
def replaceLine (n l frame c : Nat) (s : State) : State :=
  let st := s.planeStream n
  let r := s.stream st
  let slot := c % s.landLines st
  let later := r.slots.any fun t => t.slot == slot && (frame < t.frame || (t.frame == frame && c < t.line))
  let s := onPlane n (fun q =>
    let q := { q with subs := q.subs ++ [(c, r.replacement frame c)] }
    if s.ahead (s.planePipe n) l then { q with replaced0 := q.replaced0 + 1, late0 := q.late0 || !later }
    else { q with replaced := q.replaced + 1, late := q.late || !later }) s
  if later then streamEvent st 4 (s.inc (F.streamRace_OVERRUN st)) else streamEvent st 3 (s.inc (F.streamRace_LATE st))

/-- The frame an engine binds to at the cut-off of output line 0 (R217). -/
def State.raceBinding (s : State) (st : Nat) : Option Nat :=
  if s.rd (F.streamStatus_STATE st) = 2 && (s.stream st).frames != 0 then some (s.stream st).frames else none

/-- RACE_CUTOFF: the engine binds at output line 0, lines that are not valid are substituted, and the fetch may begin (R217 to
R220). `slackCclk` and `latency10ns` are the measures of the lines first taken by this output line, where there are any. -/
def execRaceCutoff (n : Fin 32) (slackCclk latency10ns : Option Nat) (s : State) : Out :=
  let n := n.val
  let r := s.plane n
  .next (if s.planeSel n != 2 then s
  else match r.fetch.or (r.ready.map (·.line)) with
    | none => s
    | some l =>
      let s := if l = 0 then onPlane n (fun q => { q with bound := s.raceBinding (s.planeStream n) }) s else s
      let bound := (s.plane n).bound
      let missing := match r.fetch, bound with
        | some l, some f => (s.racedLines n l).eraseDups.filter fun c => !s.landed (s.planeStream n) f c
        | _, _ => []
      let s := match bound with
        | some f => s.forL missing (replaceLine n l f)
        | none => s
      onPlane n (fun q =>
        let q := { q with cutoff := some l }
        if s.ahead (s.planePipe n) l then { q with slack0 := leastOf q.slack0 slackCclk, latency0 := mostOf q.latency0 latency10ns }
        else { q with slack := leastOf q.slack slackCclk, latency := mostOf q.latency latency10ns }) s)

/-- STREAM_TIMEOUT: TIMEOUT_US passed since the last FS, the last FE that ended a frame, or the enabling (R214). While the
reference does not count, the sender's word stands for the time. -/
def execStreamTimeout (n : Fin 16) (dot : Nat) (s : State) : Out :=
  let n := n.val
  let s := s.atDot dot
  let us := max 1 (s.rd (F.streamTimeout_US n))
  let passed := s.rd F.refStatus_STATE < 2 || reached (s.advance (s.stream n).since (s.usDots us)) s.now
  let st := s.rd (F.streamStatus_STATE n)
  .next (if passed && (st == 1 || st == 2) then streamLost n s else s)

/-- CSI_SYNC_LOSS: a synchronised port loses its PHY synchronisation: an upset (R215). -/
def execCsiSyncLoss (port : Fin 4) (s : State) : Out := .next (csiUpset port.val s)

/-- CSI_RESYNC_DONE: the resynchronisation in progress ends, restored or not (R215, R559). -/
def execCsiResyncDone (port : Fin 4) (synced : Bool) (s : State) : Out :=
  let k := port.val
  .next (if !s.cam.resync.contains k then s
  else
    let s := { s with cam := { s.cam with resync := s.cam.resync.filter (· != k) } }
    let s := endAttempt (csiUnit k) synced s
    if synced then s.wr (F.csiStatus_STATE k) 2 else csiResync k s)

/-- CSI_PHY_SYNC_ACQUIRED: an enabled port goes from SYNCING to ACTIVE (R206, R225). -/
def execCsiPhySyncAcquired (port : Fin 4) (s : State) : Out :=
  let k := port.val
  .next (if s.flag (F.csiCtl_EN k) && s.rd (F.csiStatus_STATE k) == 1 && !s.cam.resync.contains k then
    s.wr (F.csiStatus_STATE k) 2 else s)

/-- Port `k` is enabled: it seeks synchronisation, unless it is RETIRED (R206, R215). -/
def csiEnable (k : Nat) (s : State) : State := s.wr (F.csiStatus_STATE k) (if s.unitState (csiUnit k) = 2 then 3 else 1)

/-- Port `k` is disabled: it receives nothing more, so a frame in progress ends short, and its streams receive again from the next FS
after an enable (R206, R213). -/
def csiDisable (k : Nat) (s : State) : State :=
  let s := s.forL (s.portStreams k) fun n s => frameEnd n false s
  { s.clr (F.csiStatus_STATE k) with cam := { s.cam with resync := s.cam.resync.filter (· != k) } }

/-! ### Frame sync (R216) -/

/-- The stamp at which the PIPE-mode pulse of stream `n` fires after the last frame start of its pipe (R216). -/
def State.fsyncStamp (s : State) (n start : Nat) : Nat :=
  let p := s.rd (F.streamFsync_PIPE n)
  let period := s.lockRatioDen p * s.ref.setting.lines * s.ref.setting.dots / s.lockRatioNum p
  s.advance start (period - s.rd (F.streamFsyncLead_DOTS n))

/-- The oldest target of the frame sync of stream `n` that has not fired is reached (R52, R216). -/
def State.fsyncDue (s : State) (n : Nat) : Bool :=
  match s.rd (F.streamFsync_MODE n), (s.stream n).syncArmed with
  | 1, frame :: _ => reached (stampOf frame (s.rd (F.streamFsyncPhase_LINE n)) (s.rd (F.streamFsyncPhase_DOT n))) s.now
  | 2, start :: _ => reached (s.fsyncStamp n start) s.now
  | _, _ => false

/-- CAM_FSYNC_PULSE: the frame-sync pulse of a stream fires at its time (R216). -/
def execCamFsyncPulse (n : Fin 16) (dot : Nat) (s : State) : Out :=
  let s := s.atDot dot
  .next (if s.flag (F.streamCtl_EN n.val) && s.fsyncDue n.val then onStream n.val (fun r => { r with pulse := some s.now, syncArmed := r.syncArmed.tail }) s else s)

/-- CAM_FSYNC_END: the pulse ends, PULSE microseconds after it began (R216). While the reference does not count, the sender's word stands
for the time. -/
def execCamFsyncEnd (pulse : FsyncEnd) (s : State) : Out :=
  let n := pulse.stream.val
  let s := s.atDot pulse.dot
  let us := max 1 (s.rd (F.streamFsync_PULSE n))
  .next (match (s.stream n).pulse with
  | some t =>
    if s.rd F.refStatus_STATE < 2 ∨ reached (s.advance t (s.usDots us)) s.now then onStream n (fun r => { r with pulse := none }) s else s
  | none => s)

end Sys2Proof.Machine
end

