-- ==== Sys2Proof/Machine/Pins.lean ====
section
/-! DEFINITION. The general-purpose pins (R592 to R602): what a pin drives, changing a function, filters, flags and their
sources. -/

namespace Sys2Proof.Machine

/-! ### Bits of the registers that hold a bit per pin (R601) -/

/-- A bit per pin: the field that holds pin `i` in a pair of LO and HI registers. -/
def pinBit (lo hi : Fld) (i : Nat) (s : State) : Bool := if i < 64 then s.bitOf lo i else s.bitOf hi (i - 64)

def setPinBit (lo hi : Fld) (i : Nat) (b : Bool) (s : State) : State :=
  if i < 64 then s.setBit lo i b else s.setBit hi (i - 64) b

/-! ### What a pin drives (R593) -/

/-- The output level of a timer after POL (R389). -/
def State.timerPad (s : State) (n : Nat) : Bool := s.flag (F.timerStatus_OUT n) != s.flag (F.timerCtl_POL n)

/-- Output enable and value of ALT function `alt` on pin `i` (R592, R593). `n` names the moment: the level of a serial waveform and the
place in a TDM frame, which no rule fixes (assumption 25). -/
def State.altDrive (s : State) (i alt n : Nat) : Bool × Bool :=
  let wave := Config.padWave n
  match alt with
  | 0 => (pinBit F.pinOeLo_PIN F.pinOeHi_PIN i s, pinBit F.pinDoutLo_PIN F.pinDoutHi_PIN i s)
  | 1 => (true, s.timerPad (i % 64))
  | 3 => (true, (s.stream (i % 16)).pulse.isSome)
  | 4 => (true, wave)
  | 5 => s.tdmPin (i % 32 / 4) (i % 4) n wave (!s.untrimmed 15)
  | 6 => if i % 8 < 2 then (true, s.untrimmed 15 && s.flag (F.pdmCtl_EN (i % 8)) && wave) else (false, false)
  | 7 => if i % 2 = 0 then (true, wave) else (false, false)
  | 8 => (true, s.rd F.rindAlertState_PIPE != 0)
  | 9 => (true, s.timerPad ((i + 32) % 64))
  | _ => (false, false)

/-- Pin `i` is an open-drain output: OD is set, or it carries an I2C function (R593). -/
def State.openDrain (s : State) (i : Nat) : Bool :=
  s.flag (F.pinCfg_OD i) || s.rd (F.pinCfg_MUX i) == 4 || s.rd (F.pinCfg_OVL i) == 4

/-- Output enable and value of pin `i` at its pad, after INV_OUT and the open drain (R593, R596, R597): no enable while the function
changes, nor while the pins are unpowered in P3 and P4; an open-drain 1 releases the ball, and its pad is not enabled (DEDUCED, assumption 63). -/
def State.pad (s : State) (i n : Nat) : Bool × Bool :=
  let a := s.altDrive i (s.rd (F.pinCfg_MUX i)) n
  let b := s.altDrive i (s.rd (F.pinCfg_OVL i)) n
  let oe := a.1 || b.1
  let v := ((a.1 && a.2) || (b.1 && b.2)) != s.flag (F.pinCfg_INV_OUT i)
  (oe && decide (s.rd F.pwrStatus_STATE < 3) && !s.flag (F.pinState_SWITCHING i) && !(s.openDrain i && v), v)

/-! ### Flags and sources (R599) -/

/-- The filtered level's flag kind: 6 and 7 are taken as 0 (R601). -/
def State.pinIrq (s : State) (i : Nat) : Nat := if s.rd (F.pinCfg_IRQ i) < 6 then s.rd (F.pinCfg_IRQ i) else 0

def State.pinFlag (s : State) (i : Nat) : Bool := pinBit F.pinFlagLo_PIN F.pinFlagHi_PIN i s

/-- The level source of pin `i`'s group of four follows its flags (R599, R600). -/
def pinSource (i : Nat) (s : State) : State :=
  setLevel (416 + i / 4) ((List.range 4).any fun j => s.pinFlag (i / 4 * 4 + j)) s

/-- The flag of pin `i` written, and its source. -/
def setPinFlag (i : Nat) (b : Bool) (s : State) : State := pinSource i (setPinBit F.pinFlagLo_PIN F.pinFlagHi_PIN i b s)

/-- Flags that follow a level, and one that is never set (R599). -/
def pinFollow (i : Nat) (s : State) : State :=
  match s.pinIrq i with
  | 0 => setPinFlag i false s
  | 4 => setPinFlag i (s.flag (F.pinState_FILTERED i)) s
  | 5 => setPinFlag i (!s.flag (F.pinState_FILTERED i)) s
  | _ => s

/-- Flags after a reset has cleared them: those that follow a level go on showing it, and the sources follow the flags (R599, R618). -/
def pinsAfterReset (s : State) : State :=
  let s := s.forN 112 fun i s =>
    match s.pinIrq i with
    | 4 => setPinBit F.pinFlagLo_PIN F.pinFlagHi_PIN i (s.flag (F.pinState_FILTERED i)) s
    | 5 => setPinBit F.pinFlagLo_PIN F.pinFlagHi_PIN i (!s.flag (F.pinState_FILTERED i)) s
    | _ => s
  s.forN 28 fun g s => pinSource (4 * g) s

/-- The filtered level of pin `i` takes `v` (R598, R599). An edge found while detection is suppressed sets no flag (R597). -/
def pinFiltered (i : Nat) (v suppressed : Bool) (s : State) : State :=
  let was := s.flag (F.pinState_FILTERED i)
  let s := s.wr (F.pinState_FILTERED i) (bit v)
  let edge := was != v && !suppressed && !s.flag (F.pinState_SWITCHING i)
  match s.pinIrq i with
  | 1 => if edge && v then setPinFlag i true s else s
  | 2 => if edge && !v then setPinFlag i true s else s
  | 3 => if edge then setPinFlag i true s else s
  | _ => pinFollow i s

/-- FILT in force: 3 is taken as 0, and N = 0 as OFF (R598, R601). -/
def State.pinFilt (s : State) (i : Nat) : Nat :=
  if s.rd (F.pinFilt_N i) = 0 ∨ s.rd (F.pinCfg_FILT i) = 3 then 0 else s.rd (F.pinCfg_FILT i)

def onPins (f : PinsState → PinsState) (s : State) : State := { s with pins := f s.pins }

/-- A level accepted by the filter; a change under DEBOUNCE opens its window (R598). -/
def pinAccept (i : Nat) (suppressed : Bool) (s : State) : State :=
  let v := s.pinLevel i
  let s := if s.pinFilt i = 2 ∧ v ≠ s.flag (F.pinState_FILTERED i) then
      onPins (fun p => { p with window := i :: p.window.filter (· != i) }) s else s
  pinFiltered i v suppressed s

/-- The synchronised level of pin `i`, with the timers that see an edge of it (R385, R595). -/
def pinSync (i : Nat) (level : Bool) (s : State) : State := timerPins s (s.wr (F.pinState_SYNC i) (bit level))

/-- PIN_FILTER_CHANGE: the synchronised level of pin `i` is `level`. Where `accept` says that its filter takes it at this sample,
and no debounce window is open, the filtered level changes (R595, R598, R599). -/
def execPinFilterChange (i : Fin 112) (level accept suppressed : Bool) (s : State) : Out :=
  let s := pinSync i.val level s
  .next (if accept && !(s.pinFilt i.val == 2 && s.pins.window.contains i.val) then pinAccept i.val suppressed s else s)

/-- PIN_DEBOUNCE_END: the window ends and the filtered level takes the level of that sample; a difference is a new accepted
change (R598). -/
def execPinDebounceEnd (i : Fin 112) (level suppressed : Bool) (s : State) : Out :=
  .next (if !s.pins.window.contains i.val then s
  else
    let s := pinSync i.val level s
    pinAccept i.val suppressed (onPins (fun p => { p with window := p.window.filter (· != i.val) }) s))

/-! ### Configuration (R596, R597) -/

/-- A written PIN_i_CFG or PIN_i_FILT: a change of MUX or OVL breaks before it makes, and flags that follow a level follow the new
setting. -/
def pinCfgWritten (i : Nat) (before s : State) : State :=
  let moved := before.rd (F.pinCfg_MUX i) != s.rd (F.pinCfg_MUX i) || before.rd (F.pinCfg_OVL i) != s.rd (F.pinCfg_OVL i)
  let s := if moved then s.set1 (F.pinState_SWITCHING i) else s
  let s := if s.pinFilt i = 2 then s else onPins (fun p => { p with window := p.window.filter (· != i) }) s
  if before.pinIrq i = s.pinIrq i then s else pinFollow i s

/-- PIN_FUNCTION_SWITCH: the new functions take the pad (R597). -/
def execPinFunctionSwitch (i : Fin 112) (s : State) : Out := .next (s.clr (F.pinState_SWITCHING i.val))

/-! ### Bit-per-pin registers (R599, R601) -/

/-- Ones clear the flags of RISE, FALL and BOTH pins (R599). `hi` selects pins 64 to 111. -/
def pinFlagClear (hi : Bool) (bits : Nat) (s : State) : State :=
  let base := if hi then 64 else 0
  s.forL (bitsSet (if hi then 48 else 64) bits) fun j s =>
    if s.pinIrq (base + j) = 4 ∨ s.pinIrq (base + j) = 5 then s else setPinFlag (base + j) false s

/-- Ones set, or clear, GPIO output bits (R601). -/
def pinDout (hi set : Bool) (bits : Nat) (s : State) : State :=
  let f := if hi then F.pinDoutHi_PIN else F.pinDoutLo_PIN
  let bits := bits % 2 ^ f.width
  s.wr f (if set then s.rd f ||| bits else s.rd f - (s.rd f &&& bits))

/-- A direct write of a pin register: only the Cellar, or a DMA channel it started, may make it (R31, R32). -/
def pinWrite (who : Initiator) (off bits : Nat) (f : State → State) (s : State) : State :=
  writeIrs who off bits (fun s => if mayWrite false none false (initiatorTag who) then f s else droppedBy (initiatorTag who) off bits s) s

/-- PIN_FLAG_CLR (R599). -/
def execPinFlagClr (who : Initiator) (hi : Bool) (bits : BitVec 64) (s : State) : Out :=
  .next (pinWrite who (0xC00860 + 8 * bit hi) bits.toNat (pinFlagClear hi bits.toNat) s)

/-- PIN_DOUT_SET (R601). -/
def execPinDoutSet (who : Initiator) (hi : Bool) (bits : BitVec 64) (s : State) : Out :=
  .next (pinWrite who (0xC00820 + 8 * bit hi) bits.toNat (pinDout hi true bits.toNat) s)

/-- PIN_DOUT_CLR (R601). -/
def execPinDoutClr (who : Initiator) (hi : Bool) (bits : BitVec 64) (s : State) : Out :=
  .next (pinWrite who (0xC00830 + 8 * bit hi) bits.toNat (pinDout hi false bits.toNat) s)

end Sys2Proof.Machine
end

