-- ==== Sys2Proof/Machine/RegMap.lean ====
section
/-! DEFINITION. The register map: which register an IRS offset names (R15, R25, R30), and raw reads and writes of its fields
by their types (R12, R14). -/

namespace Sys2Proof.Machine

/-- The five transfer tables of R204. -/
def transferRows : List RegRow := [
  { name := "PIPE_p_TL_i", base := 0x320000, n1 := 8, s1 := 0x8000, n2 := 1025, s2 := 4, wide := false, owner := .firmware,
    flds := fun p i => [F.pipeTl p i] },
  { name := "PIPE_p_TE_i", base := 0x321400, n1 := 8, s1 := 0x8000, n2 := 1025, s2 := 4, wide := false, owner := .firmware,
    flds := fun p i => [F.pipeTe p i] },
  { name := "PIPE_p_TO_R_i", base := 0x322800, n1 := 8, s1 := 0x8000, n2 := 1025, s2 := 4, wide := false, owner := .firmware,
    flds := fun p i => [F.pipeTo p 0 i] },
  { name := "PIPE_p_TO_G_i", base := 0x323C00, n1 := 8, s1 := 0x8000, n2 := 1025, s2 := 4, wide := false, owner := .firmware,
    flds := fun p i => [F.pipeTo p 1 i] },
  { name := "PIPE_p_TO_B_i", base := 0x325000, n1 := 8, s1 := 0x8000, n2 := 1025, s2 := 4, wide := false, owner := .firmware,
    flds := fun p i => [F.pipeTo p 2 i] }]

/-- The register rows of the IRS block at bits [23:20] of an offset (R18, R25). -/
def blockRows (b : Nat) : List RegRow :=
  match b with
  | 0 => regsHifRows ++ regsCellarRows ++ regsServiceRows ++ regsPowerRows ++ regsFaultRows
  | 1 => regsIntcRows
  | 2 => regsTimeRows
  | 3 => regsPipeRows ++ transferRows
  | 4 => regsPlaneRows
  | 5 => regsHarpRows
  | 6 => regsCameraRows
  | 7 => regsRindRows
  | 8 => regsPressRows
  | 9 => regsDmaRows
  | 10 => regsAudioRows
  | 11 => regsTimerRows
  | 12 => regsPinRows
  | 13 => regsVatRows
  | 14 => regsCascadeRows
  | 15 => regsSeqRows
  | _ => []

/-- A register found at an offset: its row, its instance, and whether the offset is its high word. -/
structure RegHit where
  row : RegRow
  i : Nat
  j : Nat
  high : Bool

/-- The instance of a row that an offset names. -/
def RegRow.hit (r : RegRow) (off : Nat) : Option RegHit :=
  if off < r.base then none
  else
    let d := off - r.base
    let i := if r.s1 = 0 then 0 else d / r.s1
    let d := d - i * r.s1
    let j := if r.s2 = 0 then 0 else d / r.s2
    let d := d - j * r.s2
    if r.n1 ≤ i ∨ r.n2 ≤ j then none
    else if d = 0 then some ⟨r, i, j, false⟩
    else if d = 4 ∧ r.wide then some ⟨r, i, j, true⟩ else none

/-- The register at an IRS offset, if it is not reserved. -/
def findReg (off : Nat) : Option RegHit := (blockRows (off / 0x100000)).findSome? fun r => r.hit off

/-- The fields of the register found. -/
def RegHit.flds (h : RegHit) : List Fld := h.row.flds h.i h.j

/-- The bus offset of the register's low word. -/
def RegHit.off (h : RegHit) : Nat := h.row.base + h.i * h.row.s1 + h.j * h.row.s2

/-- The value of a register as its fields read: write-only fields read 0, reserved bits read 0 (R12, R14). -/
def State.regValue (s : State) (h : RegHit) : Nat :=
  h.flds.foldl (fun a f => if f.typ = .wo then a else a + s.rd f * 2 ^ f.lsb) 0

/-- The value of the register at an IRS offset, 0 where there is none. -/
def State.rdReg (s : State) (off : Nat) : Nat := match findReg off with | some h => s.regValue h | none => 0

/-- The part of field `f` that a write of bits `[lo, lo + n)` covers: where it begins in the field, how wide it is, and the
value written there. -/
def Fld.part (f : Fld) (lo n data : Nat) : Nat × Nat × Nat :=
  let a := max f.lsb lo
  let b := min (f.lsb + f.width) (lo + n)
  (a - f.lsb, b - a, bitsAt data (a - lo) (b - a))

/-- An address or a stride holds multiples of this: its low bits read as 0 (R141, R167, R199, R201, R226, R250, R338). -/
def grain (off : Nat) : Nat :=
  match off / 0x100000 with
  | 3 =>
    let o := off % 0x2000
    if off < 0x310000 ∧ (0x100 ≤ o ∧ o < 0x1C0 ∨ [0x48C, 0x490, 0x4AC, 0x4B0, 0x508, 0x510, 0x514].contains o) then 64 else 1
  | 4 => if 0x401000 ≤ off ∧ off < 0x403000 ∧ (off % 0x100 = 0x20 ∨ off % 0x100 = 0x24) then 64 else 1
  | 5 => if 0x531000 ≤ off ∧ off % 0x40 = 8 then 64 else 1
  | 6 => if 0x601000 ≤ off ∧ [8, 0x10, 0x14, 0x18].contains (off % 0x100) then 64 else 1
  | 7 => if off < 0x708000 ∧ off % 0x1000 = 8 then 8192 else 1
  | 10 =>
    if 0xA00400 ≤ off ∧ off < 0xA00600 ∧ off % 0x40 = 0 then 4
    else if 0xA00600 ≤ off ∧ off < 0xA00680 ∧ (off % 0x20 = 8 ∨ off % 0x20 = 0xC) then 4 else 1
  | _ => 1

/-- The writable fields of a register take what a write of its bits `[lo, lo + n)` brings (R12, R14): RW takes the value, SET and
CLR act bit by bit; the other types have no plain effect. -/
def writeFlds (fs : List Fld) (lo n data : Nat) (s : State) : State :=
  s.forL fs fun f s =>
    let (at_, w, v) := f.part lo n data
    if w = 0 then s
    else match f.typ with
      | .rw => s.wr f (setBitsAt (s.rd f) at_ w v / grain f.off * grain f.off)
      | .set => s.wr f (s.rd f ||| v * 2 ^ at_)
      | .clr => s.wr f (s.rd f - (s.rd f &&& v * 2 ^ at_))
      | _ => s

end Sys2Proof.Machine
end

