-- ==== Sys2Proof/Machine/Reference.lean ====
section
/-! DEFINITION. The reference raster (R44 to R55, R64 to R67): its frames and lines, a new setting, the start of the beam, and
loss of its input. -/

namespace Sys2Proof.Machine

/-- The post-divider of a REF_SYN_INT.P code (R68). -/
def synP (code : Nat) : Nat := [4, 6, 8, 12].getD code 6

/-- The setting that the REF_GEOM and REF_SYN registers hold (R45, R46, R68). -/
def State.refRegs (s : State) : RefSetting :=
  { lines := s.rd F.refGeom_LINES, dots := s.rd F.refGeom_DOTS, synN := s.rd F.refSynInt_N, synNum := s.rd F.refSynNum_NUM,
    synDen := max 1 (s.rd F.refSynDen_DEN), synP := synP (s.rd F.refSynInt_P) }

/-- The REF_GEOM and REF_SYN registers set to a setting. -/
def setRefRegs (r : RefSetting) (s : State) : State :=
  let p := ([4, 6, 8, 12].findIdx? (· == r.synP)).getD 1
  (((((s.wr F.refGeom_LINES r.lines).wr F.refGeom_DOTS r.dots).wr F.refSynInt_N r.synN).wr F.refSynInt_P p).wr
    F.refSynNum_NUM r.synNum).wr F.refSynDen_DEN r.synDen

/-- A new setting waits for the next frame start (R47). -/
def refApply (s : State) : State := (s.set1 F.refCtl_APPLY).set1 F.refStatus_RECONFIG_PEND

/-- REF_CTL_APPLY: the Cellar writes REF_CTL.APPLY (R47). -/
def execRefCtlApply (s : State) : Out := .next (refApply s)

/-- A setting comes into force at a frame start: every enabled lock restarts and REF_RECONFIG is raised (R47). -/
def newSetting (r : RefSetting) (s : State) : State :=
  let s := { s with ref := { s.ref with setting := r } }
  let s := (s.clr F.refStatus_RECONFIG_PEND).clr F.refCtl_APPLY
  let s := s.forL ((List.range 8).filter s.lockOn) lockRestart
  raise 482 s

/-- The setting that waits for the present frame start: this device's own, or one that the master applies at a stamp now reached
(R47, R516). -/
def State.settingDue (s : State) : Option RefSetting :=
  match s.casc.geom with
  | some (r, stamp) => if reached stamp s.now then some r else none
  | none => if s.flag F.refStatus_RECONFIG_PEND then some s.refRegs else none

/-- A waiting setting applied. -/
def applySetting (s : State) : State :=
  match s.settingDue with
  | none => s
  | some r => newSetting r (onCasc (fun c => { c with geom := none }) (setRefRegs r s))

/-- What is counted or raised at most once per reference frame begins anew, and the maxima of the frame are shown (R31, R83, R90,
R224, R225, R240, R248, R512, R529). -/
def frameFlags (s : State) : State :=
  let s := { s with hif := { s.hif with dropLogged := false }
                    vat := { s.vat with parkedSeen := false, poisonSeen := false }
                    cam := { s.cam with portSeen := 0, evtLast := s.cam.evtCur, evtCur := List.replicate 5 0, evtSeen := List.replicate 5 0 } }
  let s := { s.wr F.rindC0Maxlat_CCLK (min 65535 s.rind.maxlat) with
             rind := { s.rind with logged := [], maxlat := 0 }
             aud := { s.aud with seen := 0 } }
  let s := s.forN 2 fun l s => onLink l (fun k => { k with c0max := 0 }) (s.wr (F.cascLC0max_SLOTS l) (min 255 (s.link l).c0max))
  onCasc (fun c => { c with errMax := 0 }) (s.wr F.cascTimeMax_ERROR (min 65535 s.casc.errMax))

/-- The camera frame syncs in REF mode count reference frames from their enabling (R216; DEDUCED, assumption 151). -/
def countSyncs (s : State) : State :=
  s.forL ((List.range 16).filter fun n => s.flag (F.streamCtl_EN n) && s.rd (F.streamFsync_MODE n) == 1)
    fun n s => onStream n (fun r =>
      let k := r.syncFrames + 1
      let fires := k % ratio (s.rd (F.streamFsync_REF_PERIOD n)) = 0
      { r with syncFrames := k, syncArmed := if fires then r.syncArmed ++ [s.rd F.beamNow_FRAME] else r.syncArmed }) s

/-- A slave that has followed a master keeps and passes on its time while no master reaches it (R517; DEDUCED, assumption 166). -/
def State.keepsTime (s : State) : Bool :=
  s.rd F.cascStatus_ROLE == 2 && (s.rd F.cascTime_STATE == 1 || s.rd F.cascTime_STATE == 2 || s.rd F.cascTime_STATE == 3)

/-- What a reference line start does to the blocks that count lines: timers, sequencer watchdogs, and the cascade's timing
(R299, R384, R514, R517). -/
def lineTick (s : State) : State :=
  let s := timerSource 3 s
  let s := s.forL ((List.range 8).filter fun k => (s.core k).live) fun k s => onCore k (fun c => { c with wdt := c.wdt + 1 }) s
  s.forN 2 fun l s => onLink l (fun k => { k with timingDue := s.linkUp l && (s.flag F.cascStatus_POS_VALID || s.keepsTime), silent := k.silent + 1 }) s

/-- The beam runs (R44, R49). -/
def State.beamRuns (s : State) : Bool := 2 ≤ s.rd F.refStatus_STATE && s.rd F.pwrStatus_STATE < 3

/-- COUNT60 and ATTEMPTS of the fault units as time passes (R587). -/
def refreshCounts (s : State) : State := s.forL ((s.fault.units.map (·.id)).filter unitKnown) showCounts

/-- REF_FRAME_START: the beam wraps from its last line to line 0 of the next frame; a waiting setting comes into force, and the
power estimates `mw` of the frame are shown (R6, R47, R55, R467). -/
def execRefFrameStart (mw : List Nat) (s : State) : Out :=
  .next (if !s.beamRuns || s.rd F.beamNow_LINE + 1 < s.ref.setting.lines then s
  else
    let frame := (s.rd F.beamNow_FRAME + 1) % 65536
    let s := if frame = 0 then s.inc F.beamEpoch_EPOCH else s
    let s := ((s.wr F.beamNow_FRAME frame).clr F.beamNow_LINE).clr F.beamNow_DOT
    let s := frameFlags (applySetting s)
    let s := s.forN 14 fun j s => s.wr (F.cellarPwr_MW j) (min (2 ^ 20 - 1) (mw.getD j 0))
    lineTick (timerSource 4 (refreshCounts (countSyncs s))))

/-- REF_LINE_START: the beam enters the next line of its frame (R46). -/
def execRefLineStart (s : State) : Out :=
  .next (if s.beamRuns && s.rd F.beamNow_LINE + 1 < s.ref.setting.lines then
    lineTick ((s.wr F.beamNow_LINE (s.rd F.beamNow_LINE + 1)).clr F.beamNow_DOT)
  else s)

/-- The beam counter starts at 0.0000.0000 with the setting in the registers (R49, R55). -/
def beamBegin (s : State) : State :=
  let s := (((s.clr F.beamNow_FRAME).clr F.beamNow_LINE).clr F.beamNow_DOT).clr F.beamEpoch_EPOCH
  let s := { s with ref := { s.ref with setting := s.refRegs } }
  onCasc (fun c => { c with fresh := true }) s

/-- REF_SYN_LOCK: the synthesiser has locked and the beam counter starts (R49, R55). A setting applied while STATE is LOCKING is in the
registers, so the beam starts with it; RECONFIG_PEND stays until the next frame start, which R47 names (DESIGN CHOICE,
assumption 128). -/
def execRefSynLock (s : State) : Out :=
  .next (if s.rd F.refStatus_STATE = 1 ∧ !s.fault.tripHold then beamBegin ((s.wr F.refStatus_STATE 2).set1 F.refStatus_REF_IN_OK) else s)

/-- REF_LOST: the clock monitor declares the 25 MHz input lost (R64, R66, R470). Where that happens in LOCKING, the synthesiser holds its
control word and the beam starts in holdover (DESIGN CHOICE, assumption 133). -/
def execRefLost (s : State) : Out :=
  .next (if (s.rd F.refStatus_STATE = 1 ∨ s.rd F.refStatus_STATE = 2) ∧ !s.fault.tripHold then
    let s := s.iff (s.rd F.refStatus_STATE == 1) beamBegin
    let s := raise 480 ((s.wr F.refStatus_STATE 3).clr F.refStatus_REF_IN_OK)
    upset (unitId 7 0) 12 (logEvent 0x0200 2 (s.rdReg 0x200000) 0 s)
  else s)

/-- REF_RESTORED: the input is declared restored (R66). -/
def execRefRestored (s : State) : Out :=
  .next (if s.rd F.refStatus_STATE = 3 then
    let s := raise 481 ((s.wr F.refStatus_STATE 2).set1 F.refStatus_REF_IN_OK)
    endAttempt (unitId 7 0) true (logEvent 0x0201 0 (s.rdReg 0x200000) 0 s)
  else s)

end Sys2Proof.Machine
end

