-- ==== Sys2Proof/Machine/Cascade.lean ====
section
/-! DEFINITION. The cascade (R501 to R530): links and the chain, the launch and the reception of flits, shared beam time, pipe
feeds, the peers' interrupts and audio. Tunnelled accesses are served where the bus is. -/

namespace Sys2Proof.Machine

/-- A log entry that a rule asks for and no rule codes (assumption 27). -/
def logOpen (kind : Nat) (s : State) : State :=
  let (i, s) := s.fresh
  let e := Config.logEntry kind i
  logEvent e.1.toNat e.2.1.val e.2.2.1.toNat e.2.2.2.toNat s

/-- The device is strapped STANDALONE (R501). -/
def State.standalone (s : State) : Bool := s.rd F.cascStatus_ROLE == 0

/-- The device is strapped SLAVE (R501). -/
def State.isSlave (s : State) : Bool := s.rd F.cascStatus_ROLE == 2

/-- CASC_TIME.STATE moved: CASC_TIME_STATE is raised at a change, and the Cellar logs an entry to or exit from HOLDOVER (R517). -/
def timeState (st : Nat) (s : State) : State :=
  let old := s.rd F.cascTime_STATE
  if old = st then s
  else
    let s := raise 467 (s.wr F.cascTime_STATE st)
    if st = 3 then logOpen 0 s else if old = 3 then logOpen 1 s else s

/-- CASC_L_STATUS.STATE moved: CASC_LINK_l is raised at a change (R508). -/
def linkState (l st : Nat) (s : State) : State :=
  if s.rd (F.cascLStatus_STATE l) = st then s else raise (464 + l) (s.wr (F.cascLStatus_STATE l) st)

/-! ### What a link's loss does (R522, R524, R526, R517) -/

/-- The feeds of link `l` (R520). -/
def feedsOf (l : Nat) : List Nat := (List.range 4).map (4 * l + ·)

def State.feed (s : State) (k : Nat) : FeedRun := s.casc.feeds.getD k feed0

def onFeed (k : Nat) (f : FeedRun → FeedRun) (s : State) : State := onCasc (fun c => { c with feeds := modAt c.feeds k f }) s

/-- The frame in progress of feed `k` ends short (R522). -/
def feedLost (k : Nat) (s : State) : State :=
  if s.rd (F.cascFeedStatus_STATE k) != 2 then s
  else
    let s := frameEnd (s.rd (F.cascFeedCtl_STREAM k)) false s
    onFeed k (fun _ => feed0) (s.wr (F.cascFeedStatus_STATE k) 1)

/-- A tunnelled access without an answer draws a bus error (R524). -/
def tunnelFails (l : Nat) (t : Tunnel) (s : State) : State :=
  let s := onCasc (fun c => { c with tunnels := c.tunnels.map fun u => if u.id = t.id then { u with answer := some (true, []) } else u }) s
  raise 472 (s.inc (F.cascLErr_TUNNEL l))

/-- The position that sources with DEST = PEER go to (R526, R530); its two defaults are kept under two keys. -/
def P.cascIrqPosSlave : Prm := ⟨0xE301, 0, .warm⟩
def P.cascIrqPosMaster : Prm := ⟨0xE302, 1, .warm⟩
def State.irqPosPrm (s : State) : Prm := if s.isSlave then P.cascIrqPosSlave else P.cascIrqPosMaster
def State.irqPos (s : State) : Nat := s.prm s.irqPosPrm

/-- Every interrupt message without an acknowledgement completes, and its source is set pending again (R526). -/
def intrLost (s : State) : State :=
  let l := s.intc.peerWait
  let s := onCasc (fun c => { c with intrOut := [] }) { s with intc := { s.intc with peerWait := [] } }
  if l.isEmpty then s else deliver (s.forL l fun n s => (completeSource n s).setPending n true)

/-- Link `l` leaves UP: the frames of its feeds end short, accesses and messages on its path end, and the slave behind it holds
over (R517, R522, R524, R526). `path` tells which positions it led to. -/
def linkLost (l : Nat) (path : Nat → Bool) (s : State) : State :=
  let s := s.forL (feedsOf l) feedLost
  let s := s.forL (s.casc.tunnels.filter fun t => path t.pos && t.answer.isNone) (tunnelFails l)
  let s := if path s.irqPos then intrLost s else s
  let s := onLink l (fun _ => link0) s
  let s := onAud (fun a => { a with links := modAt a.links l fun _ => ⟨[], false, []⟩ }) s
  if s.isSlave && s.rd F.cascStatus_UPSTREAM == l && (s.rd F.cascTime_STATE == 1 || s.rd F.cascTime_STATE == 2) then timeState 3 s else s

/-- Link `l` goes to a state in which it carries nothing. -/
def linkStop (l st : Nat) (s : State) : State :=
  let path (pos : Nat) : Bool := s.routeTo pos == some l
  linkLost l path ((linkState l st s).clr (F.cascLStatus_LANES_ACTIVE l))

/-! ### Links (R508, R509, R513) -/

/-- The lanes of link `l` in service. -/
def State.linkLanes (s : State) (l : Nat) : List Nat := (List.range 4).filter fun j => s.unitState (unitId 5 (4 * l + j)) != 2

/-- The widest set of 4, 2 or 1 lanes out of `n`, within LANES_MAX (R508, R529). -/
def State.linkWidth (s : State) (l n : Nat) : Nat :=
  let most := match s.rd (F.cascLCtl_LANES_MAX l) with | 0 => 1 | 1 => 2 | _ => 4
  let m := min n most
  if 4 ≤ m then 4 else if 2 ≤ m then 2 else m

/-- Bits per pixel of a writeback format (R192, R520). -/
def wbBits (format : Nat) : Nat := if format = 2 then 64 else 32

/-- The pipes that send on link `l` (R513, R519). -/
def State.senders (s : State) (l : Nat) : List Nat :=
  (List.range 8).filter fun p => s.flag (F.pipeWbCtl_EN p) && s.flag (F.pipeWbCtl_DEST p) && s.rd (F.pipeWbCtl_LINK p) == l

/-- The share of both bounds of R513 that pipe `p` takes, as a fraction in bit/s: none while its frequency is 0 (R620). SLEW counts
while the pipe's lock is on (R196). -/
def State.sendRate (s : State) (p : Nat) : Nat :=
  let slew := if s.flag (F.lockCtl_EN p) then s.rd (F.lockCtl_SLEW p) else 0
  let bits := size14 (s.rd (F.pipeH_HACTIVE p)) * wbBits (s.rd (F.pipeWbCtl_FORMAT p))
  let htotal := (s.rd (F.pipeH_HTOTAL_M1 p) + 1) * 4000
  (bits * s.rd (F.pipeFreq_HZ p) * (4000 + slew) + htotal - 1) / htotal

/-- Both bounds of R513 hold on link `l` with `lanes` active for a list of sending pipes. -/
def State.feedsAdmitted (s : State) (l lanes : Nat) (pipes : List Nat) : Bool :=
  let sum (q : List Nat) : Nat := (q.map s.sendRate).sum
  let _ := l
  sum pipes ≤ 12000000000 * lanes && sum (pipes.filter fun p => s.flag (F.pipeCtl_CLASS0 p)) ≤ 6000000000 * lanes

/-- The sending of a pipe is disabled by firmware, logged and raised (R513). -/
def stopSending (p : Nat) (s : State) : State :=
  let s := s.clr (F.pipeWbCtl_EN p)
  raise 470 (logOpen 2 (if s.pipeOn p then fwCommit p s else latchOff p s))

/-- Pipes stop sending on link `l` until both bounds hold: best-effort ones first, then class-0 ones, in descending index (R513). -/
def readmit (l lanes : Nat) (s : State) : State :=
  let q := (s.senders l).reverse
  (q.filter (fun p => !s.flag (F.pipeCtl_CLASS0 p)) ++ q.filter fun p => s.flag (F.pipeCtl_CLASS0 p)).foldl
    (fun s p => if s.feedsAdmitted l lanes (s.senders l) then s else stopSending p s) s

/-- The links may run: not STANDALONE, not trimmed, and powered (R501, R533, R550). -/
def State.linkPowered (s : State) (l : Nat) : Bool :=
  !s.standalone && s.runs (13 + l) && s.flag (F.cascLCtl_EN l)

/-- Link `l` begins to train (R508). -/
def linkTrain (l : Nat) (s : State) : State := if s.linkPowered l then linkState l 1 s else s

/-- A size of the CLASS0 pool as it is taken, and the four pools of a receiver with it (R510, R529). -/
def c0Size (v : Nat) : Nat := max 32 (min 256 v)
def creditPools (c0 : Nat) : List Nat := [c0, 512 - c0 - 64 - 16, 64, 16]

/-- The credits that are left of four pools once they have new sizes: those out stay out (R510). -/
def resized (new old now : List Nat) : List Nat := new.zipIdx.map fun q => q.1 + now.getD q.2 0 - old.getD q.2 0

/-- LINK_UP: training completes on the widest set of the lanes that passed, and the link is UP. `c0` is the size of the other end's
CLASS0 pool (R508, R510, R559). A link that is DOWN trains again; a lane that fails the check of a retrain is RETIRED (R509). -/
def execLinkUp (l : Fin 2) (pass : BitVec 4) (c0 : Nat) (s : State) : Out :=
  let l := l.val
  let good := (s.linkLanes l).filter fun j => pass.getLsbD j
  let width := s.linkWidth l good.length
  let st := s.rd (F.cascLStatus_STATE l)
  .next (if !s.linkPowered l || (st != 1 && st != 3) || width = 0 then s
  else
    let failed := if (s.link l).retraining then (s.linkLanes l).filter fun j => !pass.getLsbD j else []
    let mine := c0Size (s.rd (F.cascLCtl_C0_CREDITS l))
    let s := onLink l (fun k =>
      { k with credits := if k.retraining then resized (creditPools (c0Size c0)) (creditPools k.farC0) k.credits else creditPools (c0Size c0),
               farC0 := c0Size c0, pools := creditPools mine, width := width, silent := 0, naks := [], retraining := false }) s
    let s := s.forL good fun j s => endAttempt (unitId 5 (4 * l + j)) true s
    let s := s.forL failed fun j s => retire (unitId 5 (4 * l + j)) 5 s
    let s := linkState l 2 (s.wr (F.cascLStatus_LANES_ACTIVE l) width)
    readmit l width (s.clr F.cascStatus_CHAIN_READY))

/-- LINK_DOWN: no flit passed its CRC for 1 ms, or a training found no lane: the link is DOWN (R508). -/
def execLinkDown (l : Fin 2) (s : State) : Out :=
  let st := s.rd (F.cascLStatus_STATE l.val)
  .next (if st = 1 ∨ st = 2 then linkStop l.val 3 (s.clr F.cascStatus_CHAIN_READY) else s)

/-- A retrain of link `l` stops its traffic and is an upset of each of its lanes (R508, R509). -/
def linkRetrain (l : Nat) (s : State) : State :=
  if !s.linkUp l then s
  else
    let s := linkState l 1 (s.inc (F.cascLRetrain_COUNT l))
    let s := onLink l (fun k => { k with naks := [], retraining := true }) s
    s.forL (s.linkLanes l) fun j s => upset (unitId 5 (4 * l + j)) 5 s

/-- LINK_RETRAIN: either end has started a retrain, as after more than 16 NAKs within 1 ms, or one is in progress; the lanes that fail
its check are RETIRED, the feeds are admitted anew on the lanes left, and a link without one is DOWN (R507 to R509, R513; the other end's
retrain: DEDUCED, assumption 167). -/
def execLinkRetrain (l : Fin 2) (failed : BitVec 4) (s : State) : Out :=
  let l := l.val
  .next (if s.linkUp l || (s.link l).retraining then
    let s := linkRetrain l s
    let s := s.forL ((List.range 4).filter fun j => failed.getLsbD j) fun j s => retire (unitId 5 (4 * l + j)) 5 s
    let width := s.linkWidth l (s.linkLanes l).length
    if width = 0 then linkStop l 3 (s.clr F.cascStatus_CHAIN_READY)
    else if failed = 0 then s else readmit l width s
  else s)

/-- CASC_L_CTL is written: EN trains or stops the link, and another change retrains it (R508, R530). -/
def linkCtlWritten (l : Nat) (was : Bool) (s : State) : State :=
  if !s.flag (F.cascLCtl_EN l) then (if was then linkStop l 0 s else s)
  else if !was then linkTrain l s
  else linkRetrain l s

/-! ### The chain (R502, R503) -/

/-- The positions of a device's neighbours: by link 0 and link 1. -/
def chainNeighbours (c : Chain) : Nat × Nat :=
  let me := c.pos.val
  let n1 := c.n1.val
  if me = 0 then (if n1 + 1 < c.devices.val then n1 + 1 else 0, if 1 ≤ n1 then 1 else 0)
  else
    let up := if me = n1 + 1 then 0 else me - 1
    let down := if (me < n1 ∧ me ≤ n1) ∨ (n1 < me ∧ me + 1 < c.devices.val) then me + 1 else 0
    if c.upstream.val = 0 then (up, down) else (down, up)

/-- What discovery finds can stand for a device of this role: a master is position 0 and always reached, and positions lie in the
chain (R501, R502). -/
def chainFits (slave : Bool) : Option Chain → Bool
  | none => slave
  | some c => c.pos.val < c.devices.val && c.n1.val < c.devices.val && (c.pos.val == 0) == !slave

/-- CHAIN_DISCOVERY: discovery completes. A device that the master reaches holds its position; links in `conflict` carry nothing
(R502, R503). What cannot stand for the device's role changes nothing else (DESIGN CHOICE, assumption 168). -/
def execChainDiscovery (chain : Option Chain) (conflict : BitVec 2) (s : State) : Out :=
  .next (if s.standalone then s
  else
    let s := s.forN 2 fun l s =>
      if conflict.getLsbD l then (if s.linkUp l then linkStop l 4 s else s) else s
    if !chainFits s.isSlave chain then s
    else match chain with
    | none =>
      let s := ((((s.clr F.cascStatus_POSITION).clr F.cascStatus_POS_VALID).clr F.cascStatus_DEVICES).clr F.cascStatus_CHAIN_READY).clr
        F.cascTime_HOPS
      let s := onCasc (fun c => { c with n1 := 0 }) s
      if s.keepsTime then s else timeState 5 s
    | some c =>
      let s := ((s.wr F.cascStatus_POSITION c.pos.val).set1 F.cascStatus_POS_VALID).wr F.cascStatus_DEVICES c.devices.val
      let s := (s.set1 F.cascStatus_CHAIN_READY).wr F.cascStatus_UPSTREAM c.upstream.val
      let s := s.wr F.cascTime_HOPS (if c.pos.val ≤ c.n1.val then c.pos.val else c.pos.val - c.n1.val)
      let (a, b) := chainNeighbours c
      let s := (s.wr (F.cascLStatus_PARTNER_POS 0) a).wr (F.cascLStatus_PARTNER_POS 1) b
      raise 466 (onCasc (fun k => { k with n1 := c.n1.val }) s))

/-! ### Launching flits (R507, R510 to R512, R514) -/

/-- The credit pool of a sequenced flit (R510). -/
def Flit.pool (f : Flit) : Nat :=
  match f.body with
  | .line .. => if f.class0 then 0 else 1
  | .audio .. => 3
  | _ => 2

/-- The values that a TIMING flit holds, in the order of R514. -/
def timingContent (t : Timing) : List Nat :=
  let set (r : TimingSetting) : List Nat := [r.lines, r.dots, r.synN, r.synNum, r.synDen, r.synP]
  [t.launch, t.epoch.toNat] ++ set t.setting ++ t.pending.elim [0] (fun q => 1 :: q.2 :: set q.1) ++ t.last.elim [0] fun q => [1, q.1, q.2]

/-- The values that a MSG flit holds (R524). -/
def msgContent : Msg → List Nat
  | .readReq id off len => [0, id, off.toNat, len.val]
  | .writeReq id off data => [1, id, off.toNat] ++ data.map fun b => b.elim 256 (·.toNat)
  | .response id err data => [2, id, bit err] ++ data.map (·.toNat)
  | .ack id err => [3, id, bit err]

/-- The TYPE code, INFO and the payload bytes of a flit (R505, R506): numbers of several bytes are little-endian, and what the spec does
not lay out is free (DESIGN CHOICE, assumption 165). -/
def flitLayout : FlitBody → Nat × Nat × List Byte
  | .idle => (0, 0, [])
  | .timing t => (1, (Config.timingBytes (timingContent t)).1.toNat, (Config.timingBytes (timingContent t)).2.take 112)
  | .line n part fs fe format d =>
    (2, n.toNat + bit fs * 2 ^ 14 + bit fe * 2 ^ 15 + part.toNat * 2 ^ 16 + format.val * 2 ^ 26, d.take 112)
  | .msg m => (3, (Config.msgBytes (msgContent m)).1.toNat, (Config.msgBytes (msgContent m)).2.take 112)
  | .audio count samples => (4, count.toNat, (samples.take 32).flatMap fun v => natLE 3 v.toNat)
  | .intr src ack => (5, src.val + bit ack * 2 ^ 9, [])

/-- The 128 bytes of a flit with its control word: acknowledged sequence, NAK, pool and credits returned (R505). Payload bytes beyond
LEN are 0. -/
def flitBytes (f : Flit) (ack : Nat) (nak : Bool) (pool credits : Nat) : List Byte :=
  let (code, info, d) := flitLayout f.body
  let head := code + bit f.class0 * 2 ^ 4 + f.seq % 4096 * 2 ^ 5 + f.dst % 4 * 2 ^ 17 + f.src % 4 * 2 ^ 19 + d.length * 2 ^ 21
    + f.channel % 4 * 2 ^ 28 + info * 2 ^ 32
  let body := natLE 8 head ++ d ++ List.replicate (112 - d.length) 0#8
    ++ natLE 4 (ack % 4096 + bit nak * 2 ^ 12 + pool % 4 * 2 ^ 13 + credits % 256 * 2 ^ 15)
  body ++ natLE 4 (crc32 body)

/-- The bytes of a flit that travel on each of `n` active lanes (R504). -/
def laneBytes (n : Nat) (d : List Byte) : List (List Byte) :=
  (List.range n).map fun j => (d.zipIdx.filter fun q => q.2 % n == j).map (·.1)

/-- A flit type is sequenced (R506). -/
def sequenced (b : FlitBody) : Bool := match b with | .idle => false | .timing _ => false | _ => true

/-- The messages of PEER sources whose route is this link join its message queue (R410, R526). -/
def intrReady (l : Nat) (s : State) : State :=
  if s.routeTo s.irqPos != some l then s
  else
    let srcs := s.casc.intrOut
    let s := onCasc (fun c => { c with intrOut := [] }) s
    s.forL srcs fun n s => pushFlit l (s.flitTo s.irqPos (.intr (Fin.ofNat 512 n) false)) s

/-- A setting as a TIMING flit carries it (R514). -/
def RefSetting.timing (r : RefSetting) : TimingSetting :=
  { lines := r.lines, dots := r.dots, synN := r.synN, synNum := r.synNum, synDen := r.synDen, synP := r.synP }

def timingReference (t : TimingSetting) : RefSetting :=
  { lines := t.lines, dots := t.dots, synN := t.synN, synNum := t.synNum, synDen := t.synDen, synP := t.synP }

/-- The setting that waits and the stamp at which it is applied: the next frame start, or what the master named (R47, R514,
R516). -/
def State.pendingSetting (s : State) : Option (TimingSetting × Nat) :=
  match s.casc.geom with
  | some (r, stamp) => some (r.timing, stamp)
  | none => if s.flag F.refStatus_RECONFIG_PEND then some (s.refRegs.timing, stampOf ((s.rd F.beamNow_FRAME + 1) % 65536) 0 0) else none

/-- The TIMING flit of link `l` (R514). -/
def State.timingFlit (s : State) (l launch : Nat) : Flit :=
  { s.flitTo (s.rd (F.cascLStatus_PARTNER_POS l))
      (.timing { launch := launch, epoch := BitVec.ofNat 32 (s.rd F.beamEpoch_EPOCH), setting := s.ref.setting.timing,
                 pending := s.pendingSetting, last := (s.link l).lastTiming }) with class0 := true }

/-- A flit takes a credit of its pool (R510). -/
def CascLink.hasCredit (k : CascLink) (f : Flit) : Bool := k.credits.getD f.pool 0 != 0

/-- The best-effort queue whose turn it is: the next in round-robin order whose first flit holds a credit (R511). -/
def CascLink.bestQueue (k : CascLink) : Option (Nat × Flit) :=
  ((List.range 5).map fun i => (k.turn + i) % 5).findSome? fun q =>
    match k.best.getD q [] with
    | f :: _ => if k.hasCredit f then some (q, f) else none
    | [] => none

/-- A new sequenced flit leaves with the next sequence number and a credit, and is kept for replay (R507, R510). -/
def CascLink.newFlit (k : CascLink) (f : Flit) : Flit × CascLink :=
  let f := { f with seq := k.txSeq }
  (f, { k with txSeq := (k.txSeq + 1) % 4096, replay := k.replay ++ [f], credits := modAt k.credits f.pool (· - 1) })

/-- The flit of a slot in the order of R511, other than a TIMING flit; none for IDLE. -/
def CascLink.choose (k : CascLink) : Option Flit × CascLink :=
  match k.resend with
  | f :: rest => (some f, { k with resend := rest })
  | [] =>
    if 256 ≤ k.replay.length then (none, k)
    else match k.c0.filter fun f => k.hasCredit f, k.audio.filter fun f => k.hasCredit f, k.bestQueue with
    | f :: _, _, _ =>
      let (f, k) := { k with c0 := k.c0.drop 1, c0max := max k.c0max (f.wait + 1) }.newFlit f
      (some f, k)
    | [], f :: _, _ => let (f, k) := { k with audio := k.audio.drop 1 }.newFlit f; (some f, k)
    | [], [], some (q, f) =>
      let (f, k) := { k with best := modAt k.best q (·.drop 1), turn := (q + 1) % 5 }.newFlit f
      (some f, k)
    | [], [], none => (none, k)

/-- A flit goes out on the active lanes with its control word: the acknowledgement, a NAK that is owed, and credits of one pool (R504,
R505, R510). -/
def CascLink.launched (k : CascLink) (f : Flit) : CascLink :=
  let pool := (k.owed.findIdx? (· != 0)).getD 0
  let n := min 255 (k.owed.getD pool 0)
  { k with owed := modAt k.owed pool (· - n), nakOwed := false, sent := some (f, k.rxSeq, k.nakOwed, pool, n),
           lanes := laneBytes k.width (flitBytes f k.rxSeq k.nakOwed pool n) }

/-- A flit slot has passed for the class-0 flits that still wait (R512). -/
def CascLink.slotPassed (k : CascLink) : CascLink := { k with c0 := k.c0.map fun g => { g with wait := g.wait + 1 } }

/-- FLIT_LAUNCH: a flit slot of link `l`; `dot` and `frac` give T_launch (R511, R514). -/
def execFlitLaunch (l : Fin 2) (dot : Nat) (frac : BitVec 8) (s : State) : Out :=
  let l := l.val
  .next (if !s.linkUp l then s
  else
    let s := intrReady l (s.atDot dot)
    let k := s.link l
    let idle := s.flitTo (s.rd (F.cascLStatus_PARTNER_POS l)) .idle
    if k.timingDue then
      onLink l (fun _ => ({ k with timingDue := false }.launched (s.timingFlit l (s.now * 256 + frac.toNat))).slotPassed) s
    else
      let (f, k) := k.choose
      onLink l (fun _ => (k.launched (f.getD idle)).slotPassed) s)

/-! ### Receiving flits (R507, R510) -/

/-- A NAK on link `l`, sent or received (R507). -/
def noteNak (l : Nat) (s : State) : State :=
  onLink l (fun k => { k with naks := s.now :: k.naks.filter (s.within 1000) }) s

/-- The control word of a received flit: flits acknowledged leave the replay buffer, credits return, and a NAK asks for replay
(R505, R507, R510). -/
def controlWord (l : Nat) (h : FlitHead) (s : State) : State :=
  let s := onLink l (fun k =>
    let kept := fun (f : Flit) => (h.ackSeq.val + 4096 - f.seq) % 4096 ≥ 2048
    let k := { k with replay := k.replay.filter kept, resend := k.resend.filter kept,
                      credits := modAt k.credits h.pool.val (· + h.credits.toNat) }
    if h.nak then { k with resend := k.replay } else k) s
  if h.nak then noteNak l s else s

/-- A sequenced flit is discarded and a NAK sent (R507). -/
def discard (l : Nat) (s : State) : State := noteNak l (onLink l (fun k => { k with discarding := true, nakOwed := true }) s)

/-- A flit is received on link `l`: its CRC, control word and sequence number are dealt with, and `f` takes one that is good and in
order. Types 6 to 15 are CRC errors (R506); one that its full pool cannot hold is discarded like a gap (R510; DEDUCED, assumption 163). -/
def flitRx (l : Nat) (h : FlitHead) (seqd : Bool) (pool : Nat) (f : State → State) (s : State) : State :=
  if !s.linkUp l then s
  else if !h.crcOk || 6 ≤ h.typ.val then
    let s := s.inc (F.cascLErr_CRC l)
    if seqd || 6 ≤ h.typ.val then discard l s else s
  else
    let s := controlWord l h s
    if !seqd then f s
    else
      let k := s.link l
      if h.seq.val = (k.rxSeq + 1) % 4096 ∧ k.owed.getD pool 0 < k.pools.getD pool 0 then
        f (onLink l (fun k => { k with rxSeq := h.seq.val, discarding := false, owed := modAt k.owed pool (· + 1) }) s)
      else if k.discarding || (k.rxSeq + 4096 - h.seq.val) % 4096 < 2048 then s
      else discard l s

/-- A flit for another device is forwarded by DST, and is lost where the next link is not UP; `f` takes one for this device (R524). -/
def forMe (h : FlitHead) (body : FlitBody) (f : State → State) (s : State) : State :=
  if h.dst.val = s.myPos then f s
  else match s.routeTo h.dst.val with
    | some l => if !s.linkUp l then s else pushFlit l { dst := h.dst.val, src := h.src.val, class0 := h.class0, channel := h.channel.val, seq := 0, body := body } s
    | none => s

/-- IDLE_FLIT_RX: the control word alone (R510). -/
def execIdleFlitRx (l : Fin 2) (h : FlitHead) (s : State) : Out := .next (flitRx l.val h false 0 id s)

/-! ### Shared beam time (R514 to R517) -/

/-- The dots from one stamp to another, both in 1/256 dot. -/
def State.finer (s : State) (a b : Nat) : Int :=
  s.dotsBetween (a / 256) (b / 256) * 256 + ((b % 256 : Nat) - (a % 256 : Nat) : Int)

/-- A slave's exchange with its upstream neighbour gives its phase error and the delay, moves the time state, and where the slave
is far off asks for a step (R515, R516). -/
def exchange (l : Nat) (t : Timing) (arrive t3 t4 : Nat) (s : State) : State :=
  let x := s.finer t.launch arrive
  let y := s.finer t3 t4
  let e := (x - y) / 2
  let d := ((x + y) / 2).toNat
  -- abs(e) in 1/512 dot, exact
  let size := (x - y).natAbs
  let st := s.rd F.cascTime_STATE
  let far := (st == 5 || st == 3 || s.casc.fresh) && decide (4400 * 512 < size)
  let s := s.wr (F.cascLDelay_D l) (min (2 ^ 20 - 1) (d / 16))
  let s := s.wr F.cascTime_ERROR (unsignedAt 24 (clampInt (-(2 ^ 23)) (2 ^ 23 - 1) (e / 16)))
  let step : TimeStep := { own := arrive / 256, epoch := t.epoch.toNat, setting := timingReference t.setting,
                           master := t.launch / 256, delay := (t.launch % 256 + d) / 256 }
  let errs := (size :: s.casc.errs).take 16
  let s := onCasc (fun c => { c with fresh := false, errs := errs, errMax := max c.errMax (size / 32), step := if far then some step else c.step }) s
  if far then timeState 1 (onCasc (fun c => { c with errs := [] }) s)
  else if st = 2 then (if 4 * 512 < size then timeState 1 s else s)
  else if errs.length = 16 ∧ errs.all (· ≤ 2 * 512) then timeState 2 s
  else timeState 1 s

/-- TIMING_FLIT_RX (R48, R514 to R517). A slave's registers mirror the setting in force at the master; a geometry that the master is
about to apply is taken with its stamp. -/
def execTimingFlitRx (l : Fin 2) (h : FlitHead) (t : Timing) (dot : Nat) (frac : BitVec 8) (s : State) : Out :=
  let l := l.val
  .next (flitRx l h false 0 (fun s =>
    let arrive := s.now * 256 + frac.toNat
    let s := onLink l (fun k => { k with lastTiming := some (arrive, t.launch), silent := 0 }) s
    if s.isSlave && (s.flag F.cascStatus_POS_VALID || s.keepsTime) && s.rd F.cascStatus_UPSTREAM == l then
      let s := match t.pending with
        | some (r, stamp) => onCasc (fun c => { c with geom := some (timingReference r, stamp) }) s
        | none => s
      let s := setRefRegs (timingReference t.setting) s
      match t.last with
      | some (t4, t3) => exchange l t arrive t3 t4 s
      | none => s
    else s) (s.atDot dot))

/-- The beam at a stepped position, with the master's timing and the beam locks begun again (R516, R517). -/
def stepTo (setting : RefSetting) (frame line dot epoch : Nat) (s : State) : State :=
  let s := ((s.wr F.beamNow_FRAME frame).wr F.beamNow_LINE line).wr F.beamNow_DOT dot
  let s := s.wr F.beamEpoch_EPOCH epoch
  let s := setRefRegs setting { s with ref := { s.ref with setting := setting } }
  let s := onCasc (fun c => { c with step := none }) s
  let s := raise 468 (s.inc F.cascJumps_COUNT)
  s.forL ((List.range 8).filter s.lockOn) lockRestart

/-- CASC_TIME_STEP: at its first reference line start after the exchange, a slave far off takes the master's time, geometry and
synthesiser settings; its pipe locks restart (R516). -/
def execCascTimeStep (s : State) : Out :=
  .next (match s.casc.step with
  | none => s
  | some t =>
    if s.rd F.beamNow_DOT != 0 || !s.beamRuns then s
    else
      let stamp := advanceStamp (max 1 t.setting.lines) (max 1 t.setting.dots) t.master
        (t.delay + (s.dotsBetween t.own s.now).toNat)
      stepTo t.setting (stamp / 2 ^ 32) (stamp / 2 ^ 16 % 2 ^ 16) (stamp % 2 ^ 16) (t.epoch + bit (stamp / 2 ^ 32 < t.master / 2 ^ 32)) s)

/-- CASC_HOLDOVER: no valid TIMING flit for 8 reference lines (R517). -/
def execCascHoldover (s : State) : Out :=
  let st := s.rd F.cascTime_STATE
  .next (if s.isSlave && (st == 1 || st == 2) && 8 ≤ (s.link (s.rd F.cascStatus_UPSTREAM)).silent then timeState 3 s else s)

/-! ### Pipe feeds (R519, R520) -/

/-- Feed `k` bound or unbound: its stream runs in feed mode, and its EN reads 1 (R520). -/
def feedWritten (k : Nat) (was : Bool) (old : Nat) (s : State) : State :=
  let n := s.rd (F.cascFeedCtl_STREAM k)
  let s := if was then (streamDisable old (s.clr (F.streamCtl_EN old))).clr (F.cascFeedStatus_STATE k) else s
  let s := onFeed k (fun _ => feed0) s
  if s.flag (F.cascFeedCtl_EN k) then (streamEnable n (s.set1 (F.streamCtl_EN n))).wr (F.cascFeedStatus_STATE k) 1 else s

/-- The bytes of a line that the stream of feed `k` takes. -/
def State.feedBytes (s : State) (k : Nat) : Nat :=
  let n := s.rd (F.cascFeedCtl_STREAM k)
  s.rd (F.streamSize_W n) * landBytes (s.streamFmt n)

/-- The line in reception of feed `k` ends: it lands, or is corrupt and counted (R213, R520). -/
def feedLine (k : Nat) (s : State) : State :=
  let r := s.feed k
  let n := s.rd (F.cascFeedCtl_STREAM k)
  let len := s.feedBytes k
  let missing := r.missing || r.data.length < len
  let s := if missing then s.inc (F.cascFeedErrs_PARTS k) else s
  let s := if r.badFormat then s.inc (F.cascFeedErrs_FORMAT k) else s
  let s := if missing || r.badFormat then raise 470 s else s
  let bytes := (r.data ++ List.replicate (len - r.data.length) 0#8).take len
  streamLine n (Initiator.feed (Fin.ofNat 8 k)) (!missing && !r.badFormat && r.data.length == len) bytes
    (onFeed k (fun r => { feed0 with line := r.line + 1, class0 := r.class0 }) s)

/-- Lines of which no part came are corrupt too; `fuel` bounds them (R520). -/
def feedSkip (k upTo : Nat) : Nat → State → State
  | 0, s => s
  | fuel + 1, s =>
    if (s.feed k).line < upTo then feedSkip k upTo fuel (feedLine k s) else s

/-- A part of a line that has landed already: the line is longer than W, so it is corrupt after all, and its landing line is not valid
(R213). -/
def feedLong (k n : Nat) (s : State) : State :=
  let st := s.rd (F.cascFeedCtl_STREAM k)
  streamEvent st 0 (onStream st (fun r => { r with corrupt := true, tags := r.tags.filter fun t => t.line != n,
                                                   landing := r.landing.filter fun t => t.line != n }) s)

/-- A part of a line outside a frame: the line is counted once (R213, R520). -/
def feedOrphan (k n part : Nat) (s : State) : State :=
  let s := s.iff (part == 0 || (s.feed k).orphan != some n) fun s => s.inc (F.streamOrphan_LINES (s.rd (F.cascFeedCtl_STREAM k)))
  onFeed k (fun r => { r with orphan := some n }) s
/-- LINE_FLIT_RX (R520). -/
def lineRx (l : Nat) (h : FlitHead) (n part : Nat) (fs fe : Bool) (format : Nat) (data : List Byte) (s : State) : State :=
  let k := l * 4 + h.channel.val
  let st := s.rd (F.cascFeedCtl_STREAM k)
  if !s.flag (F.cascFeedCtl_EN k) then s
  else
    let s := if fs then
        let (i, s) := s.fresh
        (onFeed k (fun _ => feed0) (frameBegin st (Config.feedFrameNum i).toNat s)).wr (F.cascFeedStatus_STATE k) 2
      else s
    if s.rd (F.cascFeedStatus_STATE k) != 2 then feedOrphan k n part s
    else
      let s := onFeed k (fun r => { r with class0 := h.class0 }) s
      let s := if (s.feed k).line < n then feedSkip k n (n - (s.feed k).line) s else s
      let s := s.wr (F.cascFeedStatus_LINE k) n
      let s :=
        if n < (s.feed k).line then feedLong k n s
        else
          let s := onFeed k (fun r => { r with parts := part + 1, data := r.data ++ data, missing := r.missing || part != r.parts,
                                               badFormat := r.badFormat || format != s.rd (F.cascFeedCtl_FORMAT k) }) s
          if fe || data.length < 112 || s.feedBytes k == (s.feed k).data.length then feedLine k s else s
      if fe then (frameFe st s).wr (F.cascFeedStatus_STATE k) 1 else s

def execLineFlitRx (l : Fin 2) (h : FlitHead) (n : BitVec 14) (part : BitVec 10) (fs fe : Bool) (format : Fin 4) (data : List Byte)
    (dot : Nat) (s : State) : Out :=
  .next (flitRx l.val h true (if h.class0 then 0 else 1) (lineRx l.val h n.toNat part.toNat fs fe format.val (data.take 112))
    (s.atDot dot))

/-! ### Interrupts and audio (R526, R527) -/

/-- CASC_PEER_IRQ_FIFO shows the oldest entry (R529). -/
def showPeerFifo (s : State) : State :=
  let (src, pos) := s.casc.fifo.headD (0, 0)
  ((s.wr F.cascPeerIrqFifo_SRC src).wr F.cascPeerIrqFifo_POS pos).wr F.cascPeerIrqFifo_VALID (bit (!s.casc.fifo.isEmpty))

/-- A read of the peer interrupt FIFO removes the entry it returns (R529). -/
def popPeerFifo (s : State) : State := showPeerFifo (onCasc (fun c => { c with fifo := c.fifo.drop 1 }) s)

/-- A flit is sent towards a position; where no device stands there, nothing goes out. -/
def sendTo (pos : Nat) (body : FlitBody) (s : State) : State :=
  match s.routeTo pos with
  | some l => pushFlit l (s.flitTo pos body) s
  | none => s

/-- A peer's interrupt message is pushed, or lost and counted, and acknowledged; an acknowledgement completes the source that was
sent (R404, R410, R526). -/
def intrRx (src from_ : Nat) (ack : Bool) (s : State) : State :=
  if ack then
    if s.intc.peerWait.contains src then
      deliver (completeSource src { s with intc := { s.intc with peerWait := s.intc.peerWait.filter (· != src) } })
    else s
  else
    let s := if s.casc.fifo.length < 32 then
        raise 469 (showPeerFifo (onCasc (fun c => { c with fifo := c.fifo ++ [(src, from_)] }) s))
      else s.inc F.cascPeerIrqLost_COUNT
    sendTo from_ (.intr (Fin.ofNat 512 src) true) s

def execIntrFlitRx (l : Fin 2) (h : FlitHead) (src : Fin 512) (ack : Bool) (s : State) : Out :=
  .next (flitRx l.val h true 2 (forMe h (.intr src ack) (intrRx src.val h.src.val ack)) s)

/-- A sample period joins the received FIFO of link `l`; a full one drops it (R527). -/
def audioPush (l : Nat) (p : List Int) (s : State) : State :=
  let r := s.aud.links.getD l ⟨[], false, []⟩
  if 8 ≤ r.fifo.length then audOnce 3 471 (s.inc (F.cascLAud_SLIPS l))
  else
    let fifo := r.fifo ++ [p]
    onAud (fun a => { a with links := modAt a.links l fun _ => { r with fifo := fifo, started := r.started || 4 ≤ fifo.length } }) s

/-- AUDIO_FLIT_RX: two sample periods of 16 channels. `same` tells that both ends name the same domain at the same rate; otherwise
each end receives 0 (R527). -/
def execAudioFlitRx (l : Fin 2) (h : FlitHead) (count : BitVec 32) (samples : List (BitVec 24)) (same : Bool) (s : State) : Out :=
  .next (flitRx l.val h true 3 (forMe h (.audio count samples) (fun s =>
    if !s.flag (F.cascLAud_EN l.val) then s
    else
      let v (i : Nat) : Int := if same then (samples.getD i 0#24).toInt else 0
      let period (k : Nat) : List Int := (List.range 16).map fun j => v (16 * k + j)
      audioPush l.val (period 1) (audioPush l.val (period 0) s))) s)

/-- TUNNEL_TIMEOUT: a tunnelled access has had no response by 3,000 cclk (R524). -/
def execTunnelTimeout (id : Nat) (s : State) : Out :=
  .next (match s.casc.tunnels.find? fun t => t.id == id && t.answer.isNone with
  | some t => tunnelFails ((s.routeTo t.pos).getD 0) t s
  | none => s)

end Sys2Proof.Machine
end

