-- ==== Sys2Proof/Machine/Press.lean ====
section
/-! DEFINITION. The Press blitter (R341 to R360): starting a list, checking an entry, the seven operations with their chunks, and the
end of an entry and of a list. -/

namespace Sys2Proof.Machine

/-! ### Engines and entries (R343 to R345) -/

def State.pressOf (s : State) (e : Nat) : PressRun := s.press.getD e press0

def onPress (e : Nat) (f : PressRun → PressRun) (s : State) : State := { s with press := modAt s.press e f }

def State.pressRuns (s : State) : Bool := s.runs 16

/-- The engine halts (R354 to R356). -/
def pressHalt (e reason : Nat) (s : State) : State :=
  let s := ((s.clr (F.pressStatus_STATE e)).wr (F.pressStatus_HALT e) reason).wr (F.pressDoneStamp_STAMP e) s.now
  let s := onPress e (fun r => { r with phase := .idle, aborting := false }) (s.clr (F.pressCtl_ABORT e))
  raise (224 + e) (if reason = 1 then s else raise (230 + e) s)

/-- A START_HI write: the list at the staged address starts, or is rejected while the engine is not IDLE or cannot be used
(R343, R573). -/
def pressStart (e hi : Nat) (s : State) : State :=
  if s.rd (F.pressStatus_STATE e) != 0 || !s.usable 22 e then raise (232 + e) (s.inc (F.pressStatus_START_REJ e))
  else
    let s := ((s.wr (F.pressStatus_STATE e) 1).clr (F.pressStatus_HALT e)).clr (F.pressEntries_COUNT e)
    let s := ((s.clr (F.pressStatus_WB_ERR e)).clr (F.pressStatus_ERR_ENTRIES e)).incWrap (F.pressActs_COUNT e)
    let s := s.wr (F.pressCur_ADDR e) (s.rd (F.pressStartLo_ADDR e) / 64 * 64 + hi * 2 ^ 32)
    let budget := s.rd (F.pressBudget_ENTRIES e)
    onPress e (fun _ => { press0 with phase := .fetch, budget := if budget = 0 then 65535 else budget }) s

/-- A write of START_LO stages address bits [31:0]; bits [5:0] read as 0 (R343, R359). -/
def pressStage (e lo : Nat) (s : State) : State := s.wr (F.pressStartLo_ADDR e) (lo / 64 * 64)

/-- PRESS_START (R343, R477). -/
def execPressStart (who : Initiator) (e : Fin 2) (hi : BitVec 8) (lo : Option (BitVec 32)) (s : State) : Out :=
  let e := e.val
  .next (writeIrs who (0x800004 + e * 0x100) hi.toNat (fun s => if !s.pressRuns then s
  else if !mayWrite true none false (initiatorTag who) || (initiatorTag who == .host && s.heldRes 0x80 e) then droppedBy (initiatorTag who) (0x800004 + e * 0x100) hi.toNat s
  else pressStart e hi.toNat (match lo with | some v => pressStage e v.toNat s | none => s)) s)

/-- The fields of an entry (R344). -/
def pOp (b : List Byte) : Nat := fieldAt b 0 4 % 16
def pBit (b : List Byte) (i : Nat) : Bool := bitAt (fieldAt b 0 4) i
def pSrcFmt (b : List Byte) : Nat := bitsAt (fieldAt b 0 4) 8 6
def pDstFmt (b : List Byte) : Nat := if pOp b = 2 ∨ pOp b = 6 then pSrcFmt b else bitsAt (fieldAt b 0 4) 16 6
def pW (b : List Byte) : Nat := fieldAt b 4 2
def pH (b : List Byte) : Nat := fieldAt b 6 2
def pSrc (b : List Byte) : Nat := fieldAt b 8 5
def pDst (b : List Byte) : Nat := fieldAt b 16 5
def pSrcStride (b : List Byte) : Nat := fieldAt b 0x18 3
def pDstStride (b : List Byte) : Nat := fieldAt b 0x1C 3
def pParam (b : List Byte) (lo w : Nat) : Nat := bitsAt (fieldAt b 0x38 4) lo w
def pFg (b : List Byte) : Nat := fieldAt b 0x20 6
/-- FG as an A 8 pixel takes its colour, in the layout that `directPx` takes (R120, R344, R348). -/
def pColour (b : List Byte) : Nat := pFg b / 2 ^ 12
def pBg (b : List Byte) : Nat := fieldAt b 0x28 6
def pNext (b : List Byte) : Nat := fieldAt b 0x30 5 / 64 * 64

/-! ### Formats and checks (R346, R347, R350, R351) -/

/-- Bytes per pixel of a Press format (R346). -/
def pBytes (fmt : Nat) : Nat := if fmt = 0x10 then 2 else if fmt = 0x11 then 4 else if fmt = 0x22 then 1 else directBytes fmt

/-- The alignment of a Press format (R346). -/
def pAlign (fmt : Nat) : Nat :=
  if fmt = 0x10 then 4 else if fmt = 0x11 then 8 else if fmt = 0x22 then 1 else [2, 2, 2, 1, 4, 4, 2, 8, 1].getD fmt 1

def isYcc (fmt : Nat) : Bool := fmt == 0x10 || fmt == 0x11

/-- The operation reads a source rectangle (R349). -/
def pHasSrc (b : List Byte) : Bool := 2 ≤ pOp b

/-- The formats of an entry are permitted for its operation (R346). -/
def pFmtOk (b : List Byte) : Bool :=
  let src := pSrcFmt b
  let dst := pDstFmt b
  let even := pW b % 2 == 0
  match pOp b with
  | 1 => isDirect dst
  | 2 => isDirect src || src == 0x22 || (isYcc src && even)
  | 3 => isDirect src && isDirect dst
  | 4 => (isDirect src || isYcc src) && (isDirect dst || isYcc dst) && (even || !(isYcc src || isYcc dst))
  | 5 => isDirect dst
  | 6 => isDirect src || src == 0x22
  | _ => true

/-- Bytes of a source row, and of a destination row (R350). -/
def pSrcRow (b : List Byte) : Nat := if pOp b = 5 then (pParam b 16 3 + pW b + 7) / 8 else pW b * pBytes (pSrcFmt b)
def pDstW (b : List Byte) : Nat := if pOp b = 6 then pH b else pW b
def pDstH (b : List Byte) : Nat := if pOp b = 6 then pW b else pH b
def pDstRow (b : List Byte) : Nat := pDstW b * pBytes (pDstFmt b)

/-- The source and destination spans share a byte (R350). -/
def pOverlaps (b : List Byte) : Bool :=
  let se := pSrc b + (pH b - 1) * pSrcStride b + pSrcRow b
  let de := pDst b + (pDstH b - 1) * pDstStride b + pDstRow b
  pHasSrc b && pSrc b < de && pDst b < se

/-- An overlap that R351 permits. -/
def pOverlapOk (b : List Byte) : Bool :=
  2 ≤ pOp b && pOp b ≤ 4 && pSrcStride b == pDstStride b && pBytes (pSrcFmt b) == pBytes (pDstFmt b)

/-- The check of an entry: 0 where it passes (R347). -/
def pCheck (b : List Byte) : Nat :=
  let op := pOp b
  let aligned (a f : Nat) : Bool := a % pAlign f == 0
  if 7 ≤ op then 0x10
  else if op = 0 then 0
  else if pW b = 0 ∨ pH b = 0 then 0x02
  else if !pFmtOk b then 0x11
  else if 16384 < pW b ∨ 16384 < pH b ∨ (pHasSrc b ∧ pSrcStride b < pSrcRow b) ∨ pDstStride b < pDstRow b then 0x13
  else if !(aligned (pDst b) (pDstFmt b) && aligned (pDstStride b) (pDstFmt b)) ||
      (pHasSrc b && op != 5 && !(aligned (pSrc b) (pSrcFmt b) && aligned (pSrcStride b) (pSrcFmt b))) then 0x12
  else if pOverlaps b && !pOverlapOk b then 0x14 else 0

/-! ### Pixels (R348, R349) -/

/-- A pixel's bits in a direct-colour format (R120, R348). -/
def packPx (fmt : Nat) (q : Px) : Nat :=
  let t := toBits 12
  match fmt with
  | 0 => t 5 q.r * 2 ^ 11 + t 6 q.g * 2 ^ 5 + t 5 q.b
  | 1 => t 5 q.r * 2 ^ 11 + t 5 q.g * 2 ^ 6 + t 5 q.b * 2 + t 1 q.a
  | 2 => t 4 q.r * 2 ^ 12 + t 4 q.g * 2 ^ 8 + t 4 q.b * 2 ^ 4 + t 4 q.a
  | 3 => t 8 q.r * 2 ^ 16 + t 8 q.g * 2 ^ 8 + t 8 q.b
  | 4 => t 8 q.r * 2 ^ 24 + t 8 q.g * 2 ^ 16 + t 8 q.b * 2 ^ 8 + t 8 q.a
  | 5 => t 10 q.r * 2 ^ 22 + t 10 q.g * 2 ^ 12 + t 10 q.b * 2 ^ 2 + t 2 q.a
  | 6 => q.r * 2 ^ 36 + q.g * 2 ^ 24 + q.b * 2 ^ 12 + q.a
  | 7 => t 16 q.r * 2 ^ 48 + t 16 q.g * 2 ^ 32 + t 16 q.b * 2 ^ 16 + t 16 q.a
  | _ => t 8 q.a

/-- The luma of a pixel over 10,000 × 4,095, for the matrix of a CSC code (R124). -/
def lumaOf (code : Nat) (q : Px) : Int :=
  let (kr, kb) := csc code
  (kr * q.r + (10000 - kr - kb) * q.g + kb * q.b : Nat)

/-- A pixel pair in YCbCr at 10 bits: two lumas, Cb and Cr, each chroma sample the mean of the pair, rounded once (R348; PRESUMED,
assumption 6). -/
def yccPair (code : Nat) (full : Bool) (q1 q2 : Px) : Nat × Nat × Nat × Nat :=
  let (kr, kb) := csc code
  let y1 := lumaOf code q1
  let y2 := lumaOf code q2
  let luma (y : Int) : Nat := (clampInt 0 1023 (if full then roundInt (1023 * y) 40950000
    else roundInt (876 * y + 64 * 40950000) 40950000)).toNat
  let chroma (a k : Nat) : Nat :=
    let n : Int := 10000 * (a : Int) - y1 - y2
    let den := 2 * 4095 * 2 * (10000 - k)
    (clampInt 0 1023 (roundInt ((if full then 1023 else 896) * n + 512 * (den : Int)) den)).toNat
  (luma y1, luma y2, chroma (q1.b + q2.b) kb, chroma (q1.r + q2.r) kr)

/-- The bytes of a pixel pair in a YCbCr destination; 8-bit components are narrowed as DITHER = OFF narrows them (R122, R348). -/
def yccBytes (fmt code : Nat) (full : Bool) (q1 q2 : Px) : List Byte :=
  let (y1, y2, cb, cr) := yccPair code full q1 q2
  let t := toBits 10 8
  if fmt = 0x10 then natLE 4 (t y1 + t cb * 2 ^ 8 + t y2 * 2 ^ 16 + t cr * 2 ^ 24)
  else natLE 8 (y1 * 2 ^ 6 + cb * 2 ^ 22 + y2 * 2 ^ 38 + cr * 2 ^ 54)

/-- Luma of pixel `x`, and Cb and Cr of pair `x / 2`, of a YCbCr row at 10 bits (R122, R124). -/
def rowLuma (fmt : Nat) (row : List Byte) (x : Nat) : Nat :=
  if fmt = 0x10 then fieldAt row (2 * x) 1 * 4 else bitsAt (fieldAt row (4 * x) 4) 6 10

def rowChroma (fmt : Nat) (row : List Byte) (pair : Nat) : Nat × Nat :=
  if fmt = 0x10 then (fieldAt row (4 * pair + 1) 1 * 4, fieldAt row (4 * pair + 3) 1 * 4)
  else (bitsAt (fieldAt row (8 * pair) 4) 22 10, bitsAt (fieldAt row (8 * pair + 4) 4) 22 10)

/-- Source pixel `x` of a row of `w` pixels, at RGBA 12:12:12:12 (R121, R124, R348). -/
def rowPx (b : List Byte) (row : List Byte) (w x : Nat) : Px :=
  let fmt := pSrcFmt b
  if isYcc fmt then
    let c := rowChroma fmt row (x / 2)
    let d := if x % 2 = 1 ∧ x + 1 < w then rowChroma fmt row (x / 2 + 1) else c
    let c8 (p q : Nat) : Nat := if x % 2 = 1 then 4 * (p + q) else 8 * p
    yccPx (pParam b 20 2) (pParam b 22 1 == 1) (rowLuma fmt row x) (c8 c.1 d.1) (c8 c.2 d.2)
  else directPx fmt (fieldAt row (x * pBytes fmt) (pBytes fmt)) (pColour b)

/-- BLEND of a source pixel over a destination pixel (R175, R349). The alpha of the layer in R175 is a' (DEDUCED, assumption 29). -/
def pBlend (b : List Byte) (q d : Px) : Px :=
  let a := divRound (q.a * pParam b 0 12) 4095
  let straight (c : Nat) : Nat := if pParam b 12 1 = 1 then min (divRound (c * 4095) (max 1 a)) 4095 else c
  let mix (c e : Nat) : Nat := divRound (straight c * a + e * (4095 - a)) 4095
  if a = 0 then d else ⟨mix q.r d.r, mix q.g d.g, mix q.b d.b, divRound (d.a * 4095 + a * (4095 - d.a)) 4095⟩

/-- Pixels in a destination format, from pixel `x` on; a YCbCr row goes by pairs. -/
def packRow (b : List Byte) : List Px → List Byte
  | [] => []
  | [q] => if isYcc (pDstFmt b) then [] else natLE (pBytes (pDstFmt b)) (packPx (pDstFmt b) q)
  | q1 :: q2 :: t =>
    if isYcc (pDstFmt b) then yccBytes (pDstFmt b) (pParam b 20 2) (pParam b 22 1 == 1) q1 q2 ++ packRow b t
    else natLE (pBytes (pDstFmt b)) (packPx (pDstFmt b) q1) ++ packRow b (q2 :: t)

/-! ### Chunks (R351, R353) -/

/-- A piece of work: destination row, first pixel and number of pixels. -/
structure PressChunk where
  row : Nat
  x : Nat
  n : Nat
deriving DecidableEq, Repr

/-- Pixels per chunk: at most 1 KB on either side, a whole number of pairs (R351; DEDUCED, assumption 29). -/
def pChunkPx (b : List Byte) : Nat := max 2 (1024 / max (pBytes (pSrcFmt b)) (pBytes (pDstFmt b)) / 2 * 2)

/-- The chunks of an entry in the order of R351. -/
def pChunks (b : List Byte) : List PressChunk :=
  let delta : Int := (pDst b : Int) - pSrc b
  let over_ := pOverlaps b
  let dy := delta.tdiv (pSrcStride b)
  let dx := delta - dy * pSrcStride b
  let rowsDown := over_ && (decide (0 < dy) || (dy == 0 && decide (0 < dx)))
  let chunksDown := over_ && (decide (0 < dx) || (dx == 0 && decide (0 < dy)))
  let w := pDstW b
  let c := pChunkPx b
  let rows := List.range (pDstH b)
  let parts := (List.range ((w + c - 1) / c)).map fun i => (i * c, min c (w - i * c))
  (if rowsDown then rows.reverse else rows).flatMap fun r =>
    (if chunksDown then parts.reverse else parts).map fun p => ⟨r, p.1, p.2⟩

/-- Requests of at most 64 bytes that cover `n` bytes at `a` (R342); `fuel` bounds them. -/
def requests : Nat → Nat → Nat → List (Nat × Nat)
  | 0, _, _ => []
  | fuel + 1, a, n => if n = 0 then [] else
      let m := min n (64 - a % 64)
      (a, m) :: requests fuel (a + m) (n - m)

def requestsOf (a n : Nat) : List (Nat × Nat) := requests (n + 1) a n

/-- Reads by requests: the first failing address, if any. -/
def pReads (e : Nat) : List (Nat × Nat) → State → Option Nat × State
  | [], s => (none, s)
  | (a, n) :: t, s =>
    let (_, err, s) := memRead (.press (Fin.ofNat 2 e)) a n s
    if err then (some a, s) else pReads e t s

/-- Writes by requests until one fails: its address, if any. -/
def pWrites (e : Nat) : List (Nat × Nat) → List Byte → State → Option Nat × State
  | [], _, s => (none, s)
  | (a, n) :: t, bs, s =>
    let (err, s) := memWrite (.press (Fin.ofNat 2 e)) a (bs.take n) s
    if err then (some a, s) else pWrites e t (bs.drop n) s

/-- Bytes that an engine's read returns, without its effects. -/
def pData (e a n : Nat) (s : State) : List Byte := (memRead (.press (Fin.ofNat 2 e)) a n s).1

/-- `n` bytes of a source row from offset `o`, after what the chunk does not read of the row (R351, R353). -/
def pSlice (e row o n : Nat) (s : State) : List Byte := List.replicate o 0#8 ++ pData e (row + o) n s

/-- Pixels that a chunk of a conversion reads beyond its own: the odd column at its end takes the chroma of the next pair. -/
def pMore (b : List Byte) (c : PressChunk) : Nat := if isYcc (pSrcFmt b) && c.x + c.n < pW b then 2 else 0

/-- The first and last byte of its row that a chunk of an expansion reads (R348). -/
def pBits (b : List Byte) (c : PressChunk) : Nat × Nat := ((pParam b 16 3 + c.x) / 8, (pParam b 16 3 + c.x + c.n - 1) / 8)

/-- The source bytes of a chunk: address and count of each piece. -/
def pChunkReads (b : List Byte) (c : PressChunk) : List (Nat × Nat) :=
  let sb := pBytes (pSrcFmt b)
  let dst := requestsOf (pDst b + c.row * pDstStride b + c.x * pBytes (pDstFmt b)) (c.n * pBytes (pDstFmt b))
  let row := pSrc b + c.row * pSrcStride b
  match pOp b with
  | 1 => []
  | 3 => requestsOf (row + c.x * sb) (c.n * sb) ++ dst
  | 4 =>
    requestsOf (row + c.x * sb) ((c.n + pMore b c) * sb)
  | 5 =>
    let (first, last) := pBits b c
    requestsOf (row + first) (last + 1 - first)
  | 6 => (List.range c.n).map fun i =>
      let (x, y) := if pParam b 13 1 = 0 then (c.row, pH b - 1 - (c.x + i)) else (pW b - 1 - c.row, c.x + i)
      (pSrc b + y * pSrcStride b + x * sb, sb)
  | _ => requestsOf (row + c.x * sb) (c.n * sb)

/-- The destination bytes of a chunk, each with its address: from the source as it stood when the entry began (`s0`, R351) and the
destination as it stands. -/
def pChunkOut (e : Nat) (b : List Byte) (c : PressChunk) (s0 s : State) : List (Nat × Byte) :=
  let db := pBytes (pDstFmt b)
  let sb := pBytes (pSrcFmt b)
  let dst := pDst b + c.row * pDstStride b + c.x * db
  let at_ (bs : List Byte) : List (Nat × Byte) := bs.zipIdx.map fun q => (dst + q.2, q.1)
  let row := pSrc b + c.row * pSrcStride b
  let fg := wordPx (pFg b)
  match pOp b with
  | 1 => at_ (packRow b (List.replicate c.n fg))
  | 2 => at_ (pData e (row + c.x * sb) (c.n * sb) s0)
  | 3 =>
    let src := pSlice e row (c.x * sb) (c.n * sb) s0
    let old := pData e dst (c.n * db) s
    at_ (packRow b ((List.range c.n).map fun i =>
      pBlend b (rowPx b src (pW b) (c.x + i)) (directPx (pDstFmt b) (fieldAt old (i * db) db) (pColour b))))
  | 4 =>
    let src := pSlice e row (c.x * sb) ((c.n + pMore b c) * sb) s0
    at_ (packRow b ((List.range c.n).map fun i => rowPx b src (pW b) (c.x + i)))
  | 5 =>
    let (first, last) := pBits b c
    let src := pSlice e row first (last + 1 - first) s0
    let ones (i : Nat) : Bool := bitAt (fieldAt src ((pParam b 16 3 + i) / 8) 1) ((pParam b 16 3 + i) % 8)
    let keep := pParam b 14 1 == 1
    (List.range c.n).flatMap fun i =>
      if !ones (c.x + i) && keep then []
      else (packRow b [if ones (c.x + i) then fg else wordPx (pBg b)]).zipIdx.map fun q => (dst + i * db + q.2, q.1)
  | _ => at_ ((pChunkReads b c).flatMap fun q => pData e q.1 q.2 s0)

/-- Bytes at rising addresses as contiguous runs. -/
def byteRuns : List (Nat × Byte) → List (Nat × List Byte)
  | [] => []
  | (a, v) :: t =>
    match byteRuns t with
    | (a', bs) :: rest => if a' = a + 1 then (a, v :: bs) :: rest else (a, [v]) :: (a', bs) :: rest
    | [] => [(a, [v])]

/-- The write requests of a chunk's bytes. -/
def pWriteReqs (out : List (Nat × Byte)) : List (Nat × Nat) := (byteRuns out).flatMap fun r => requestsOf r.1 r.2.length

/-- One chunk: every read before any write (R351). A failing read or write gives the entry's status and its address (R353). -/
def pChunk (e : Nat) (b : List Byte) (s0 : State) (c : PressChunk) (s : State) : Option (Nat × Nat) × State :=
  let out := pChunkOut e b c s0 s
  match pReads e (pChunkReads b c) s with
  | (some a, s) => (some (0x20, a), s)
  | (none, s) =>
    match pWrites e (pWriteReqs out) (out.map (·.2)) s with
    | (some a, s) => (some (0x21, a), s)
    | (none, s) => (none, s)

/-- Chunks in order until one fails: its failure, and the number completed. -/
def pRun (e : Nat) (b : List Byte) (s0 : State) : List PressChunk → Nat → State → Option (Nat × Nat) × Nat × State
  | [], k, s => (none, k, s)
  | c :: t, k, s =>
    match pChunk e b s0 c s with
    | (some f, s) => (some f, k, s)
    | (none, s) => pRun e b s0 t (k + 1) s

/-- Rows complete once `k` chunks are. -/
def pRowsDone (b : List Byte) (k : Nat) : Nat := k / max 1 ((pDstW b + pChunkPx b - 1) / pChunkPx b)

/-- The entry in progress has a status, and waits for its writes (R345 step 4). -/
def pEnd (e status rows : Nat) (s : State) : State :=
  onPress e (fun r => { r with phase := .finish, status := status, rows := rows }) s

/-- A request of the entry failed: PRESS_e_ERR records it and PRESS_ERR_e is raised (R353). -/
def pFailed (e status a rows : Nat) (s : State) : State :=
  let s := ((s.wr (F.pressErr_ADDR e) a).wr (F.pressErr_STATUS e) status).set1 (F.pressErr_VALID e)
  raise (228 + e) (pEnd e status rows s)

/-- The operation `op` of the entry in progress. While an abort waits, it ends at the chunk boundary after `chunks` chunks, ABORTED (R349,
R355). -/
def pressOp (op e chunks : Nat) (s : State) : State :=
  let r := s.pressOf e
  let b := r.entry
  if !s.pressRuns || r.phase != .run || pOp b != op then s
  else
    let all := pChunks b
    match pRun e b s (if r.aborting then all.take chunks else all) 0 s with
    | (some (st, a), k, s) => pFailed e st a (pRowsDone b k) s
    | (none, k, s) => pEnd e (if r.aborting then 0x30 else 0x01) (pRowsDone b k) s

/-- PRESS_NOP: no access (R349). -/
def execPressNop (e : Fin 2) (s : State) : Out :=
  let r := s.pressOf e.val
  .next (if s.pressRuns && r.phase == .run && pOp r.entry == 0 then pEnd e.val (if r.aborting then 0x30 else 0x01) 0 s else s)

def execPressFill (e : Fin 2) (chunks : Nat) (s : State) : Out := .next (pressOp 1 e.val chunks s)
def execPressCopy (e : Fin 2) (chunks : Nat) (s : State) : Out := .next (pressOp 2 e.val chunks s)
def execPressBlend (e : Fin 2) (chunks : Nat) (s : State) : Out := .next (pressOp 3 e.val chunks s)
def execPressConvert (e : Fin 2) (chunks : Nat) (s : State) : Out := .next (pressOp 4 e.val chunks s)
def execPressExpand (e : Fin 2) (chunks : Nat) (s : State) : Out := .next (pressOp 5 e.val chunks s)
def execPressRotate (e : Fin 2) (chunks : Nat) (s : State) : Out := .next (pressOp 6 e.val chunks s)

/-! ### Fetching, finishing, timing out, aborting (R345, R353 to R355) -/

/-- PRESS_ENTRY_FETCHED: the entry at CUR arrives, is counted and checked; a failing fetch ends the list (R345, R347, R354). -/
def execPressEntryFetched (e : Fin 2) (s : State) : Out :=
  let e := e.val
  .next (if !s.pressRuns || (s.pressOf e).phase != .fetch then s
  else
    let (b, err, s) := memRead (.press (Fin.ofNat 2 e)) (s.rd (F.pressCur_ADDR e)) 64 s
    if err then pressHalt e 3 s
    else
      let s := onPress e (fun r => { r with entry := b, fetched := r.fetched + 1, status := 0, rows := 0, phase := .run }) s
      let st := pCheck b
      if st = 0 then s else pEnd e st 0 s)

/-- Steps 5 to 7 of R345. `lost` tells that the RESULT write had no response (R353). -/
def pressFinish (e : Nat) (lost : Bool) (s : State) : State :=
  let r := s.pressOf e
  let b := r.entry
  let cur := s.rd (F.pressCur_ADDR e)
  let (err, s) := if pBit b 7 then memWrite (.press (Fin.ofNat 2 e)) (cur + 0x3C) (natLE 4 (r.status + r.rows * 256)) s else (false, s)
  let s := if err || (pBit b 7 && lost) then s.inc (F.pressStatus_WB_ERR e) else s
  let s := if 0x10 ≤ r.status then s.inc (F.pressStatus_ERR_ENTRIES e) else s
  if r.aborting then pressHalt e 4 s
  else
    let s := s.incWrap (F.pressEntries_COUNT e)
    let s := if pBit b 4 then raise (226 + e) s else s
    if pBit b 5 then pressHalt e 1 s
    else if r.budget ≤ r.fetched then pressHalt e 2 s
    else onPress e (fun r => { r with phase := .fetch }) (s.wr (F.pressCur_ADDR e) (if pBit b 6 then pNext b else cur + 64))

/-- PRESS_ENTRY_DONE: every write of the entry is acknowledged (R345). -/
def execPressEntryDone (e : Fin 2) (s : State) : Out :=
  .next (if s.pressRuns && (s.pressOf e.val).phase == .finish then pressFinish e.val false s else s)

/-- PRESS_TIMEOUT: a request has no response for 4,096 cclk: a fetch, a pixel access after `chunks` chunks and `requests` requests
of the next chunk, or the RESULT write. A write that times out has reached memory (DEDUCED, assumption 29). -/
def execPressTimeout (e : Fin 2) (write : Bool) (chunks requests : Nat) (s : State) : Out :=
  let e := e.val
  let r := s.pressOf e
  let b := r.entry
  .next (if !s.pressRuns then s
  else match r.phase with
    | .idle => s
    | .fetch => pressHalt e 3 s
    | .finish => pressFinish e true s
    | .run =>
      match pRun e b s ((pChunks b).take chunks) 0 s with
      | (some (st, a), k, t) => pFailed e st a (pRowsDone b k) t
      | (none, k, t) =>
        match (pChunks b)[chunks]? with
        | none => s
        | some c =>
          let out := pChunkOut e b c s t
          let reads := pChunkReads b c
          let reqs := if write then pWriteReqs out else reads
          match reqs[requests]? with
          | none => s
          | some q =>
            if write then
              match pReads e reads t with
              | (some a, t) => pFailed e 0x20 a (pRowsDone b k) t
              | (none, t) =>
                match pWrites e (reqs.take (requests + 1)) (out.map (·.2)) t with
                | (some a, t) => pFailed e 0x21 a (pRowsDone b k) t
                | (none, t) => pFailed e 0x23 q.1 (pRowsDone b k) t
            else
              match pReads e (reqs.take requests) t with
              | (some a, t) => pFailed e 0x20 a (pRowsDone b k) t
              | (none, t) => pFailed e 0x22 q.1 (pRowsDone b k) t)

/-- PRESS_ABORT is applied: a running engine ends its entry at its next chunk boundary, or halts at once while it fetches, with the
entry counted as ABORTED; an entry that waits for its last writes ends ABORTED too, unless it has failed (R347, R355). -/
def pressAbort (e : Nat) (s : State) : State :=
  let r := s.pressOf e
  if s.rd (F.pressStatus_STATE e) != 1 then s
  else
    let s := s.wr (F.pressStatus_STATE e) 2
    if r.phase == .fetch then pressHalt e 4 (s.inc (F.pressStatus_ERR_ENTRIES e)) 
    else onPress e (fun r => { r with aborting := true, status := if r.phase == .finish && r.status == 0x01 then 0x30 else r.status }) (s.set1 (F.pressCtl_ABORT e))

def execPressAbort (e : Fin 2) (s : State) : Out := .next (if s.pressRuns then pressAbort e.val s else s)

end Sys2Proof.Machine
end

