-- ==== Sys2Proof/Machine/DmaOps.lean ====
section
/-! DEFINITION. What other blocks do to a DMA channel: starting and stopping it, and its halts (R366, R374 to R377). -/

namespace Sys2Proof.Machine

def State.dmaOf (s : State) (n : Nat) : DmaRun := s.dma.getD n dma0

def onDma (n : Nat) (f : DmaRun → DmaRun) (s : State) : State := { s with dma := modAt s.dma n f }

def State.dmaRuns (s : State) : Bool := s.runs 17

/-- Channel `n` raises its source (R379). -/
def dmaRaise (n : Nat) (s : State) : State := raise (256 + n) s

/-- STATE of channel `n` moved (R380). -/
def dmaState (n st : Nat) (s : State) : State := s.wr (F.chStatus_STATE n) st

/-- The channel halts (R376). -/
def dmaHalt (n reason : Nat) (s : State) : State :=
  let s := (dmaState n 0 ((s.wr (F.chStatus_HALT n) reason).clr (F.chCtl_STOP n))).wr (F.chLastStamp_STAMP n) s.now
  dmaRaise n (onDma n (fun r => { r with phase := .idle, deadline := none }) s)

/-- The code of a starter's tag; a channel started by another channel takes that channel's tag (R366, R380). -/
def tagCode (t : Tag) : Nat := match t with | .cellar => 1 | .peer => 2 | _ => 0

/-- The tag a running channel writes with (R362). -/
def State.dmaTag (s : State) (n : Nat) : DmaTag := match s.rd (F.chStatus_TAG n) with | 1 => .cellar | 2 => .peer | _ => .host

/-- A START_HI write: the chain at the staged address starts, or is rejected while the channel is not IDLE or the engine cannot be
used (R366, R377, R573). -/
def dmaStart (t : Tag) (n hi : Nat) (s : State) : State :=
  if s.rd (F.chStatus_STATE n) != 0 || !s.usable 23 0 then dmaRaise n (s.inc (F.chStatus_START_REJ n))
  else
    let s := ((dmaState n 1 s).clr (F.chStatus_HALT n)).wr (F.chStatus_TAG n) (tagCode t)
    let s := (s.clr (F.chFetched_COUNT n)).wr (F.chCur_ADDR n) (s.rd (F.chStartLo_ADDR n) / 32 * 32 + hi * 2 ^ 32)
    let lines := s.rd (F.chDeadline_LINES n)
    let due := if lines = 0 then none else some (s.advance s.now (lines * s.ref.setting.dots))
    onDma n (fun _ => { dma0 with phase := .fetch, budget := s.rd (F.chBudget_ENTRIES n), deadline := due }) s

/-- A write of START_LO stages address bits [31:0]; bits [4:0] read as 0 (R366, R380). -/
def dmaStage (n lo : Nat) (s : State) : State := s.wr (F.chStartLo_ADDR n) (lo / 32 * 32)

/-- DMA_START (R366, R477). -/
def execDmaStart (who : Initiator) (n : Fin 64) (hi : BitVec 8) (lo : Option (BitVec 32)) (s : State) : Out :=
  let n := n.val
  let t := initiatorTag who
  .next (writeIrs who (0x900004 + n * 0x40) hi.toNat (fun s => if !s.dmaRuns then s
  else if !mayWrite true none false t || (t == .host && s.heldRes 0x90 n) then droppedBy t (0x900004 + n * 0x40) hi.toNat s
  else dmaStart t n hi.toNat (match lo with | some v => dmaStage n v.toNat s | none => s)) s)

/-- DMA_STOP is applied (R375). -/
def dmaStop (n : Nat) (s : State) : State :=
  match (s.dmaOf n).phase with
  | .idle => s
  | .fetch => dmaHalt n 2 s
  | .gate => dmaHalt n 2 s
  | _ => dmaState n 3 (s.set1 (F.chCtl_STOP n))

def execDmaStop (n : Fin 64) (s : State) : Out := .next (if s.dmaRuns then dmaStop n.val s else s)

/-- DMA_DEADLINE: the deadline is reached while the channel is not IDLE (R377). -/
def execDmaDeadline (n : Fin 64) (s : State) : Out :=
  let n := n.val
  .next (match (s.dmaOf n).deadline with
  | some t => if reached t s.now && s.rd (F.chStatus_STATE n) != 0 then
      dmaRaise n (onDma n (fun r => { r with deadline := none }) (s.inc (F.chFetched_MISSES n))) else s
  | none => s)

end Sys2Proof.Machine
end

