-- ==== Sys2Proof/Machine/HifOps.lean ====
section
/-! DEFINITION. What a write of a mailbox's own registers does (R421, R424, R431), wherever it comes from. -/

namespace Sys2Proof.Machine

/-- The opcodes that the firmware serves (R424). -/
def opcodeServed (op : Nat) : Bool :=
  [0x00, 0x01, 0x10, 0x11, 0x20, 0x21, 0x30, 0x31, 0x32, 0x40, 0x50, 0x51, 0x52, 0x53, 0x60, 0x61, 0x62, 0x70, 0x71, 0x80].contains op

/-- OPCODE of a request taken from a mailbox. -/
def State.rungOpcode (s : State) (r : Rung) : Nat :=
  match r.copy with
  | some b => fieldAt b 0 2
  | none => s.reqOpcode r.mbx

/-! ### What the firmware serves -/

/-- The Cellar's processor runs code that serves requests: the firmware, or the ROM in recovery or in END (R453, R463). -/
def State.serves (s : State) : Bool :=
  s.cellar.booted || s.flag F.cellarStatus_ROM_RECOVERY || s.rd F.cellarStatus_LIFECYCLE == 5

/-- The status with which the present state refuses an opcode, if it does, and its DETAIL (R430, R453, R461, R463, R536, R574, R581). -/
def State.refuses (s : State) (op : Nat) : Option (Nat × Nat) :=
  let busy (ok : List Nat) : Option (Nat × Nat) := if ok.contains op then none else some (St.busy, 0)
  if s.rd F.cellarStatus_LIFECYCLE = 5 then (if op < 2 then none else some (St.lifecycleDenied, 0))
  else if s.rd F.stStatus_STATE ≠ 0 then
    (if [0x00, 0x01, 0x30].contains op then none else some (St.busySelftest, 0))
  else if s.flag F.cellarStatus_ROM_RECOVERY then busy [0x00, 0x01, 0x50, 0x51, 0x52, 0x53]
  else if s.fault.testSession then busy [0x00, 0x01, 0x30, 0x40, 0x62]
  else if s.flag F.fltSummary_ESSENTIAL then busy [0x00, 0x01, 0x30, 0x31, 0x32, 0x40, 0x50, 0x51, 0x52, 0x53]
  else if s.asleep then busy [0x00, 0x01, 0x20, 0x30, 0x40]
  else none

/-- DETAIL of BUSY_SELFTEST: the maximum times of the items left, less the time spent on the present one, of which the spec says only
that it falls from 420 ms (free, assumption 37); ST_STATUS shows it (R575, R586). -/
def testRemain (s : State) : Nat × State :=
  let (i, s) := s.fresh
  let spent := Config.selftestSpent i % 421
  let item := ([90, 95, 155, 305, 320, 350, 360].filter (· ≤ spent)).length + 1
  (420 - spent, (s.wr F.stStatus_REMAIN_MS (420 - spent)).wr F.stStatus_ITEM item)

/-- A request completed with the status with which the present state refuses it. -/
def refuse (r : Rung) (op st d : Nat) (s : State) : State :=
  let (d, s) := if st = St.busySelftest then testRemain s else (d, s)
  complete r op st d [] s

/-- Requests at the head of the queue whose opcode is not served complete with BAD_OPCODE, or as the present state refuses them (R424,
R429, R430); `fuel` bounds them. -/
def serveUnknown : Nat → State → State
  | 0, s => s
  | fuel + 1, s =>
    match s.hif.rung with
    | r :: rest =>
      let op := s.rungOpcode r
      if opcodeServed op || !s.serves then s
      else
        let s := { s with hif := { s.hif with rung := rest } }
        serveUnknown fuel (match s.refuses op with
          | some (st, d) => refuse r op st d s
          | none => complete r op St.badOpcode 0 [] s)
    | [] => s

/-- A doorbell served: the mailbox becomes BUSY and its request waits for the firmware, or it is ignored while BUSY; a host request makes
the host present (R421, R429, R494). -/
def ringNow (via : Via) (m : Nat) (s : State) : State :=
  if s.rd (F.mbxStatus_STATE m) = 1 then raise 19 (s.inc (F.mbxCounts_DB_REJ m))
  else
    let s := s.wr (F.mbxStatus_STATE m) 1
    let s := match via with
      | .pcie => s.set1 F.svcStatus_HOST_PRESENT
      | .xspi => s.set1 F.svcStatus_HOST_PRESENT
      | _ => s
    serveUnknown 17 { s with hif := { s.hif with rung := s.hif.rung ++ [⟨m, via, false, none⟩] } }

/-- The host interface through which a doorbell comes, xSPI as `true`. -/
def viaPort (via : Via) : Option Bool :=
  match via with
  | .pcie => some false
  | .xspi => some true
  | _ => none

/-- A doorbell write: passed on once every earlier data-port write of its interface has been acknowledged (R441). -/
def ringDoorbell (via : Via) (m : Nat) (s : State) : State :=
  match viaPort via with
  | some x => if s.hif.dpWait.contains x then { s with hif := { s.hif with bells := s.hif.bells ++ [(x, m)] } } else ringNow via m s
  | none => ringNow via m s

/-- The data-port writes of an interface have been acknowledged: its doorbells are passed on (R441). -/
def passBells (x : Bool) (s : State) : State :=
  { s with hif := { s.hif with dpWait := s.hif.dpWait.filter (· != x), bells := s.hif.bells.filter fun b => b.1 != x } }.forL
    (s.hif.bells.filter fun b : Bool × Nat => b.1 == x) fun b s => ringNow (if x then .xspi else .pcie) b.2 s

/-- A data-port write of an interface waits for a peer (R441). -/
def dpWaits (x : Bool) (s : State) : State :=
  if s.hif.dpWait.contains x then s else { s with hif := { s.hif with dpWait := s.hif.dpWait ++ [x] } }

/-- The mailboxes that a peer may ring (R525). -/
def P.cascPeerMbx : Prm := ⟨0xE300, 0, .warm⟩

/-- A HEAD write frees slots for held entries; one that would leave more than 256 unconsumed entries is ignored (R431, R433). -/
def headWrite (m head : Nat) (err : Option Bool) (s : State) : State :=
  if 256 < (s.rd (F.mbxStatus_TAIL m) + 512 - head % 512) % 512 then s.inc (F.mbxCounts_BAD_HEAD m)
  else flushHeld err m 32 (s.wr (F.mbxHeadDb_HEAD m) head)

/-- A write of DP_PREFETCH: `n` bytes, from 4 to 512 and a multiple of the unit, are to be fetched; another length asks for nothing
(R439; DESIGN CHOICE, assumption 30). -/
def dpPrefetch (n : Nat) (s : State) : State :=
  let unit := [4, 4, 8, 64].getD (s.rd F.dpCtl_INC) 64
  let s := { s.clr F.dpStatus_READY with hif := { s.hif with prefetch := [], prefetchLen := 0 } }
  if 4 ≤ n ∧ n ≤ 512 ∧ n % unit = 0 then { s with hif := { s.hif with prefetchLen := n } } else s

end Sys2Proof.Machine
end

