-- ==== Sys2Proof/Machine/Interrupts.lean ====
section
/-! DEFINITION. The interrupt controller's own commands: enable and pending writes (R405), MSI-X coming into use and
leaving it, and unmasking (R408, R621). -/

namespace Sys2Proof.Machine

/-- Which of the four addresses of R405 a write goes to. -/
inductive IntcReg where
  | enSet | enClr | pendSet | pendClr
deriving DecidableEq, Repr

/-- The IRS offset of an enable or pending address of group `g` (R413). -/
def IntcReg.off (r : IntcReg) (g : Nat) : Nat :=
  0x100000 + g * 0x10 + (match r with | .enSet => 0 | .enClr => 4 | .pendSet => 8 | .pendClr => 12)

/-- The effect of a 1 in the bit of source `n` (R405). -/
def IntcReg.apply (r : IntcReg) (n : Nat) (s : State) : State :=
  match r with
  | .enSet => s.setBit (F.intcEnSet_SRC (n / 32)) (n % 32) true
  | .enClr => s.setBit (F.intcEnSet_SRC (n / 32)) (n % 32) false
  | .pendSet => s.setPending n true
  | .pendClr =>
    let s := s.setPending n false
    if s.rd (F.intcTgt_DEST n) = 1 then completeSource n s else s

/-- A write of an enable or pending address by tag `t` (R405): a host write acts on host-targeted sources alone and counts as a
dropped write where it held a 1 for another; a write from any other initiator but the Cellar is dropped. -/
def intcWrite (t : Tag) (r : IntcReg) (g bits : Nat) (s : State) : State :=
  let ones := (wordBits (bits % 2 ^ 32)).map fun i => 32 * g + i
  let mine := ones.filter fun n => t == .cellar || s.rd (F.intcTgt_DEST n) == 1
  if t = .cellar ∨ t = .host then
    let act := mine.filter srcAssigned
    let again := if r = .pendClr then (act.filter fun n => s.rd (F.intcTgt_DEST n) == 1).map fun n => s.rd (F.intcTgt_HVEC n) else []
    let serve (s : State) : State := deliverAgain again (s.forL act r.apply)
    let s := if r = .enClr then masking serve s else serve s
    if mine.length = ones.length then s else droppedBy t (r.off g) bits s
  else droppedBy t (r.off g) bits s

/-- INTC_EN_SET (R405). -/
def execIntcEnSet (who : Initiator) (g : Fin 16) (bits : BitVec 32) (s : State) : Out :=
  .next (writeIrs who (IntcReg.off .enSet g.val) bits.toNat (intcWrite (initiatorTag who) .enSet g.val bits.toNat) s)

/-- INTC_EN_CLR (R405). -/
def execIntcEnClr (who : Initiator) (g : Fin 16) (bits : BitVec 32) (s : State) : Out :=
  .next (writeIrs who (IntcReg.off .enClr g.val) bits.toNat (intcWrite (initiatorTag who) .enClr g.val bits.toNat) s)

/-- INTC_PEND_SET (R405). -/
def execIntcPendSet (who : Initiator) (g : Fin 16) (bits : BitVec 32) (s : State) : Out :=
  .next (writeIrs who (IntcReg.off .pendSet g.val) bits.toNat (intcWrite (initiatorTag who) .pendSet g.val bits.toNat) s)

/-- INTC_PEND_CLR (R404, R405). -/
def execIntcPendClr (who : Initiator) (g : Fin 16) (bits : BitVec 32) (s : State) : Out :=
  .next (writeIrs who (IntcReg.off .pendClr g.val) bits.toNat (intcWrite (initiatorTag who) .pendClr g.val bits.toNat) s)

/-- A vector no longer masked: its kept request is sent while it is still asserted (R408). -/
def pbaSend (v : Nat) (s : State) : State :=
  if s.intc.pba.getLsbD v && !s.intc.functionMask && !s.intc.msixMasked.getLsbD v then
    let s := { s with intc := { s.intc with pba := s.intc.pba &&& ~~~ BitVec.ofNat 64 (2 ^ v) } }
    if s.flag F.intcHostMode_MSIX && bitAt (s.rd F.intcHvecAssert_VEC) v then msixRequest v s else s
  else s

/-- MSIX_ENABLE: MSI-X comes into use with the host's masks and its table of messages; every vector then asserted requests one message and the INT_N
pins are released (R621). While it is in use, the host's masks and table take effect, and a request kept for a vector now unmasked is sent
(R408). -/
def execMsixEnable (table : MsixTable) (functionMask : Bool) (s : State) : Out :=
  let used := s.flag F.intcHostMode_MSIX
  let s := { s with intc := { s.intc with msixMasked := table.masked, functionMask := functionMask, msixTable := table.entries } }
  .next (if used then s.forN 64 pbaSend
  else
    let s := (s.set1 F.intcHostMode_MSIX).clr F.intcHostMode_INT_N
    s.forL (bitsSet 64 (s.rd F.intcHvecAssert_VEC)) msixRequest)

/-- MSIX_UNMASK: the host unmasks vector `v`, or, with none named, clears the function mask (R408). -/
def execMsixUnmask (v : Option (Fin 64)) (s : State) : Out :=
  .next (match v with
  | some v => pbaSend v.val { s with intc := { s.intc with msixMasked := s.intc.msixMasked &&& ~~~ BitVec.ofNat 64 (2 ^ v.val) } }
  | none => ({ s with intc := { s.intc with functionMask := false } }).forN 64 pbaSend)

/-- MSIX_DISABLE: MSI-X leaves use and the INT_N pins follow the asserted vectors (R621). -/
def execMsixDisable (s : State) : Out := .next (deliver (s.clr F.intcHostMode_MSIX))

end Sys2Proof.Machine
end

