-- ==== Sys2Proof/Machine/SylWord.lean ====
section
/-! DEFINITION. The encoding of a syllable (R261, R262, R269 to R272): which operation a fetched 32-bit word names, and which words
are illegal in themselves. -/

namespace Sys2Proof.Machine

/-- The operations of format R on two general registers, and those of format I on one and an immediate, by OP (R269). -/
def aluOfOp (op : Nat) : Option AluOp :=
  [AluOp.add, .sub, .and, .or, .xor, .shl, .shr, .sar, .min, .max, .minu, .maxu, .cmpeq, .cmplt, .cmpltu, .adds, .subs][op]?
def aluiOfOp (op : Nat) : Option AluOp :=
  if op < 0x20 then none else [AluOp.add, .and, .or, .xor, .shl, .shr, .sar, .cmpeq, .cmplt][op - 0x20]?

/-- The multiplications of the M unit by OP (R270). -/
def mulOfOp (op : Nat) : Option MulOp := [MulOp.mul, .mulu, .mac, .msu, .macz, .macu][op]?

/-- The loads and the stores of the L unit by OP (R271). -/
def ldOfOp (op : Nat) : Option LdOp := [LdOp.b, .bs, .h, .hs, .t, .w, .d][op]?
def stOfOp (op : Nat) : Option StOp := if op < 8 then none else [StOp.b, .h, .t, .w, .d][op - 8]?

/-- An I or J syllable (R262, R269). -/
def decodeAlu (j : Bool) (w : Nat) : Option Syl :=
  let op := bitsAt w 22 6
  let d := bitsAt w 17 5
  let a := bitsAt w 12 5
  let b := bitsAt w 7 5
  let imm := BitVec.ofNat 12 w
  let low := bitsAt w 0 7 == 0
  let g (n : Nat) : Fin 32 := Fin.ofNat 32 n
  match aluOfOp op, aluiOfOp op with
  | some o, _ => if low then some (.alu j o (g d) (g a) (g b)) else none
  | _, some o => some (.alui j o (g d) (g a) imm)
  | none, none =>
    match op with
    | 0x11 => if low && b == 0 then some (.alu j .abs (g d) (g a) 0) else none
    | 0x12 => if low && b == 0 then some (.alu j .clz (g d) (g a) 0) else none
    | 0x2C => some (.li j (g d) (BitVec.ofNat 17 w))
    | 0x2D => if a == 0 then some (.lih j (g d) imm) else none
    | 0x30 => if low && b == 0 && d < 8 then some (.movx j (Fin.ofNat 8 d) (g a)) else none
    | 0x31 => if low && b == 0 && a < 8 then some (.movg j (g d) (Fin.ofNat 8 a)) else none
    | 0x32 => if d < 8 && a < 8 then some (.addx j (Fin.ofNat 8 d) (Fin.ofNat 8 a) imm) else none
    | 0x34 => if a < 4 then some (.rdp j (g d) (Fin.ofNat 4 a) imm) else none
    | 0x35 => if a < 4 then some (.rda j (g d) (Fin.ofNat 4 a) imm) else none
    | 0x36 => if a < 4 then some (.rdar j (g d) (Fin.ofNat 4 a) imm) else none
    | _ => none

/-- An M syllable (R262, R270). -/
def decodeM (w : Nat) : Option Syl :=
  let op := bitsAt w 22 6
  let d := bitsAt w 17 5
  let a := bitsAt w 12 5
  let g (n : Nat) : Fin 32 := Fin.ofNat 32 n
  let imm := BitVec.ofNat 6 w
  if bitAt w 6 || 4 ≤ d then none
  else match mulOfOp op with
    | some o => some (.mul o (Fin.ofNat 4 d) (g a) (g (bitsAt w 7 5)))
    | none =>
      match op with
      | 8 => some (.mova (Fin.ofNat 4 d) (g a) imm)
      | 9 => if a < 4 then some (.ashr (Fin.ofNat 4 d) (Fin.ofNat 4 a) imm) else none
      | 10 => some (.ains (Fin.ofNat 4 d) (g a) imm)
      | _ => none

/-- An L syllable (R262, R271). -/
def decodeL (w : Nat) : Option Syl :=
  let op := bitsAt w 22 6
  let g := bitsAt w 17 5
  let la : LAddr := { x := Fin.ofNat 8 (bitsAt w 14 3), sp := Fin.ofNat 8 (bitsAt w 11 3), am := Fin.ofNat 4 (bitsAt w 9 2), off := BitVec.ofNat 9 w }
  match ldOfOp op, stOfOp op with
  | some o, _ => some (.ld o (Fin.ofNat 32 g) la .none .none)
  | _, some o => some (.st o (Fin.ofNat 32 g) la)
  | none, none =>
    match op with
    | 0x10 => if g < 8 then some (.ldx (Fin.ofNat 8 g) la .none) else none
    | 0x11 => if g < 8 then some (.stx (Fin.ofNat 8 g) la) else none
    | 0x18 => if bitsAt w 0 14 == 0 && !bitAt w 16 then some (.setw (Fin.ofNat 4 (bitsAt w 14 2)) (Fin.ofNat 32 g)) else none
    | _ => none

/-- A C syllable (R262, R272). -/
def decodeC (w : Nat) : Option Syl :=
  let op := bitsAt w 22 6
  let g : Fin 32 := Fin.ofNat 32 (bitsAt w 17 5)
  let t := BitVec.ofNat 16 w
  let csr := BitVec.ofNat 12 w
  let csrOk := bitsAt w 12 5 == 0
  match op with
  | 0 => if bitsAt w 0 22 == 0 then some .nopc else none
  | 1 => some (.br t)
  | 2 => if bitAt w 16 then some (.bnz g t) else some (.bz g t)
  | 3 => some (.call t)
  | 4 => some .ret
  | 5 => some (.loop g t)
  | 6 => some .wait
  | 7 => some .fence
  | 8 => some .reti
  | 9 => some (.trap t)
  | 10 => some (.brg g)
  | 11 => some (.callg g)
  | 0x10 => if csrOk then some (.csrr g csr) else none
  | 0x11 => if csrOk then some (.csrw g csr) else none
  | 0x12 => if csrOk then some (.csrs g csr) else none
  | 0x13 => if csrOk then some (.csrc g csr) else none
  | _ => none

/-- The operation a syllable's word names, by its unit code (R261); none for a reserved bit at 1, a reserved unit code or an
unassigned OP, which are ILLEGAL (R262). -/
def decodeSyl (w : BitVec 32) : Option Syl :=
  match bitsAt w.toNat 28 3 with
  | 0 => decodeAlu false w.toNat
  | 1 => decodeAlu true w.toNat
  | 2 => decodeM w.toNat
  | 3 => decodeL w.toNat
  | 4 => decodeC w.toNat
  | _ => none

/-- The stop bit of a syllable's word (R261). -/
def stopBit (w : BitVec 32) : Bool := w.getLsbD 31

end Sys2Proof.Machine
end

