-- ==== Sys2Proof/Machine/Syoft.lean ====
section
/-! DEFINITION. The Syoft instruction set (R253 to R284): what a bundle of syllables does, traps and interrupts, and the start and
stop of the sequencers and audio cores (R286, R287, R299, R300, R324, R328). Each command brings one syllable of one core; the
syllable with the stop bit completes the bundle, which then executes as one. -/

namespace Sys2Proof.Machine

/-! ### Registers (R254) -/

def CoreRegs.rg (r : CoreRegs) (n : Nat) : BitVec 24 := r.g.getD n 0
def CoreRegs.rx (r : CoreRegs) (n : Nat) : BitVec 24 := r.x.getD n 0
def CoreRegs.rw (r : CoreRegs) (n : Nat) : BitVec 16 := r.w.getD n 0
def CoreRegs.rp (r : CoreRegs) (n : Nat) : Prod := r.p.getD n 0
def CoreRegs.ra (r : CoreRegs) (n : Nat) : Acc := r.a.getD n 0

/-- A register as a bundle may write it (R264). -/
inductive Dst where
  | g (n : Nat)
  | x (n : Nat)
  | w (n : Nat)
  | csr (n : Nat)
deriving DecidableEq, Repr

/-- One register written; g0 discards what is written to it (R254). -/
def CoreRegs.put (r : CoreRegs) (d : Dst) (v : BitVec 24) : CoreRegs :=
  match d with
  | .g n => if n = 0 then r else { r with g := r.g.set n v }
  | .x n => { r with x := r.x.set n v }
  | .w n => { r with w := r.w.set n (v.setWidth 16) }
  | .csr _ => r

/-! ### The I and J units (R269) -/

/-- An integer saturated to a word. -/
def satWord (v : Int) : BitVec 24 := BitVec.ofInt 24 (clampInt (-8388608) 8388607 v)

/-- Leading zeros of a word. -/
def clz24 (v : Nat) : Nat := if v = 0 then 24 else 23 - Nat.log2 v

/-- The result of an operation on two words (R269). -/
def aluValue (op : AluOp) (a b : BitVec 24) : BitVec 24 :=
  let one (c : Bool) : BitVec 24 := if c then 1 else 0
  match op with
  | .add => a + b
  | .sub => a - b
  | .and => a &&& b
  | .or => a ||| b
  | .xor => a ^^^ b
  | .shl => a <<< (b.toNat % 32)
  | .shr => a >>> (b.toNat % 32)
  | .sar => a.sshiftRight (b.toNat % 32)
  | .min => if a.slt b then a else b
  | .max => if a.slt b then b else a
  | .minu => if a.ult b then a else b
  | .maxu => if a.ult b then b else a
  | .cmpeq => one (a == b)
  | .cmplt => one (a.slt b)
  | .cmpltu => one (a.ult b)
  | .adds => satWord (a.toInt + b.toInt)
  | .subs => satWord (a.toInt - b.toInt)
  | .abs => satWord a.toInt.natAbs
  | .clz => BitVec.ofNat 24 (clz24 a.toNat)

/-- An accumulator shifted right with rounding, and saturated (RDA, R269). -/
def rdaValue (a : Acc) (imm : Nat) : BitVec 24 :=
  let sh := min (imm % 64) 59
  satWord (if sh = 0 then a.toInt else (a.toInt + 2 ^ (sh - 1)) / 2 ^ sh)

/-- A raw slice of an accumulator (RDAR, R269). -/
def rdarValue (a : Acc) (k : Nat) : BitVec 24 :=
  match k % 4 with
  | 0 => a.setWidth 24
  | 1 => (a >>> 24).setWidth 24
  | _ => ((a >>> 48).setWidth 12 : BitVec 12).signExtend 24

/-! ### The M unit (R267, R270) -/

/-- An accumulator changed by a product: it wraps, and a result outside 60 bits sets AOV. -/
def CoreRegs.accumulate (r : CoreRegs) (d : Nat) (v : Int) : CoreRegs :=
  let exact := (r.ra d).toInt + v
  { r with a := r.a.set d (BitVec.ofInt 60 exact), aov := r.aov || exact < -(2 ^ 59) || (2 ^ 59 : Int) ≤ exact }

/-- The final stage of an M operation (R267, R270). -/
def CoreRegs.finishM (r : CoreRegs) (m : MInFlight) : CoreRegs :=
  let s := m.ga.toInt * m.gb.toInt
  let u : Int := ((m.ga.toNat * m.gb.toNat : Nat) : Int)
  match m.op with
  | .mul .mul d _ _ => { r with p := r.p.set d.val (BitVec.ofInt 48 s) }
  | .mul .mulu d _ _ => { r with p := r.p.set d.val (BitVec.ofInt 48 u) }
  | .mul .mac d _ _ => r.accumulate d.val s
  | .mul .msu d _ _ => r.accumulate d.val (-s)
  | .mul .macz d _ _ => { r with a := r.a.set d.val (BitVec.ofInt 60 s) }
  | .mul .macu d _ _ => r.accumulate d.val u
  | .mova d _ n => { r with a := r.a.set d.val ((m.ga.signExtend 60) <<< min n.toNat 32) }
  | .ashr d a n => { r with a := r.a.set d.val ((r.ra a.val).sshiftRight (min n.toNat 59)) }
  | .ains d _ k =>
    let v := (r.ra d.val).toNat
    let g := m.ga.toNat
    { r with a := r.a.set d.val (BitVec.ofNat 60 (match k.toNat % 4 with
      | 0 => setBitsAt v 0 24 g
      | 1 => setBitsAt v 24 24 g
      | _ => setBitsAt v 48 12 g)) }
  | _ => r

/-- Every M operation in flight completes (R268, R279, R282). -/
def drainM (c : CoreRun) : CoreRun := { c with regs := c.mpipe.foldl CoreRegs.finishM c.regs, mpipe := [] }

/-- A bundle has issued: the M pipeline advances, and what issued two bundles before becomes readable (R267, R268). -/
def ageM (c : CoreRun) : CoreRun :=
  let aged := c.mpipe.map fun m => { m with age := m.age + 1 }
  { c with regs := (aged.filter fun m => 3 ≤ m.age).foldl CoreRegs.finishM c.regs, mpipe := aged.filter fun m => m.age < 3 }

/-! ### The L unit (R255 to R257, R271) -/

/-- A CSR of the table. -/
def csrKnown (c : Nat) : Bool :=
  c ≤ 6 || c == 8 || (0x10 ≤ c && c ≤ 0x1A) || (0x20 ≤ c && c ≤ 0x23) || (0x28 ≤ c && c ≤ 0x35) || c == 0x3F

/-- The register a CSR write goes to: a far window is one register under two names. -/
def csrDst (c : Nat) : Dst := if 0x20 ≤ c ∧ c ≤ 0x23 then .w (c - 0x20) else .csr c

end Sys2Proof.Machine

namespace Sys2Proof

open Machine

/-- The bits in which a word as read differs from what was written. -/
def Ecc.flips : Ecc → Nat
  | .uncorrectable f => f.toNat
  | _ => 0

def LdOp.size (o : LdOp) : Nat := match o with | .b => 1 | .bs => 1 | .h => 2 | .hs => 2 | .t => 4 | .w => 4 | .d => 8
def StOp.size (o : StOp) : Nat := match o with | .b => 1 | .h => 2 | .t => 4 | .w => 4 | .d => 8
def LdOp.regs (o : LdOp) : Nat := match o with | .w => 2 | .d => 3 | _ => 1
def StOp.regs (o : StOp) : Nat := match o with | .w => 2 | .d => 3 | _ => 1

/-- The access of an L syllable: address operand, container size, whether it is a store. -/
def Syl.access : Syl → Option (LAddr × Nat × Bool)
  | .ld o _ a _ _ => some (a, o.size, false)
  | .st o _ a => some (a, o.size, true)
  | .ldx _ a _ => some (a, 4, false)
  | .stx _ a => some (a, 4, true)
  | _ => none

/-- The signed offset scaled by the container size. -/
def LAddr.step (a : LAddr) (size : Nat) : BitVec 24 := a.off.signExtend 24 * BitVec.ofNat 24 size

/-- The effective address. -/
def LAddr.ea (a : LAddr) (size : Nat) (r : CoreRegs) : BitVec 24 :=
  if a.am = 0 then r.rx a.x.val + a.step size else r.rx a.x.val

/-- The address register after the access, where the mode updates it. -/
def LAddr.update (a : LAddr) (size : Nat) (r : CoreRegs) : Option (BitVec 24) :=
  let x := r.rx a.x.val
  let n := min (r.xmod.getD a.x.val 0).toNat 23
  if a.am = 1 ∨ (a.am = 2 ∧ n = 0) then some (x + a.step size)
  else if a.am = 2 then
    let m : BitVec 24 := BitVec.ofNat 24 (2 ^ n - 1)
    some ((x &&& ~~~m) ||| ((x + a.step size) &&& m))
  else none

/-- Device address of a far access (R256). -/
def LAddr.far (a : LAddr) (size : Nat) (r : CoreRegs) : Nat := (r.rw (a.sp.val - 1)).toNat * 2 ^ 24 + (a.ea size r).toNat

/-- The unit of a syllable, in the order of a bundle: I, J, M, L, C. -/
def Syl.unit : Syl → Nat
  | .alu j .. => bit j
  | .alui j .. => bit j
  | .li j .. => bit j
  | .lih j .. => bit j
  | .movx j .. => bit j
  | .movg j .. => bit j
  | .addx j .. => bit j
  | .rdp j .. => bit j
  | .rda j .. => bit j
  | .rdar j .. => bit j
  | .mul .. => 2
  | .mova .. => 2
  | .ashr .. => 2
  | .ains .. => 2
  | .ld .. => 3
  | .st .. => 3
  | .ldx .. => 3
  | .stx .. => 3
  | .setw .. => 3
  | _ => 4

/-- The address register an access updates. -/
def LAddr.dst (a : LAddr) : List Dst := if a.am = 0 then [] else [.x a.x.val]

/-- The registers a syllable writes, g0 left out (R264). -/
def Syl.dsts (y : Syl) : List Dst :=
  let l : List Dst := match y with
    | .alu _ _ d _ _ => [.g d.val]
    | .alui _ _ d _ _ => [.g d.val]
    | .li _ d _ => [.g d.val]
    | .lih _ d _ => [.g d.val]
    | .movx _ d _ => [.x d.val]
    | .movg _ d _ => [.g d.val]
    | .addx _ d _ _ => [.x d.val]
    | .rdp _ d _ _ => [.g d.val]
    | .rda _ d _ _ => [.g d.val]
    | .rdar _ d _ _ => [.g d.val]
    | .ld o g a _ _ => ((List.range o.regs).map fun i => Dst.g (g.val + i)) ++ a.dst
    | .st _ _ a => a.dst
    | .ldx d a _ => if a.am ≠ 0 ∧ a.x = d then [.x d.val] else .x d.val :: a.dst
    | .stx _ a => a.dst
    | .setw w _ => [.w w.val]
    | .csrr g _ => [.g g.val]
    | .csrw _ c => [csrDst c.toNat]
    | .csrs _ c => [csrDst c.toNat]
    | .csrc _ c => [csrDst c.toNat]
    | _ => []
  l.filter fun d => d != .g 0

/-- A syllable that is illegal by itself; `next` is the bundle after it. -/
def Syl.illegal (y : Syl) (next : Nat) : Bool :=
  (y.access.any fun a => a.1.am == 3 || 5 ≤ a.1.sp.val) ||
  match y with
  | .rdar _ _ _ imm => imm.toNat % 4 == 3
  | .ains _ _ k => k.toNat % 4 == 3
  | .ld o g _ _ _ => 32 < g.val + o.regs
  | .st o g _ => 32 < g.val + o.regs
  | .loop _ t => t.toNat < next
  | .csrr _ c => !csrKnown c.toNat
  | .csrw _ c => !csrKnown c.toNat
  | .csrs _ c => !csrKnown c.toNat
  | .csrc _ c => !csrKnown c.toNat
  | _ => false

end Sys2Proof

namespace Sys2Proof.Machine

/-- Where a local address lies (R255, R289): data memory, the local I/O page for a 4-byte container, or nowhere. -/
def inData (k ea size : Nat) : Bool := ea + size ≤ dataSize k
def inPage (ea size : Nat) : Bool := 0xFF0000 ≤ ea && size == 4

/-- The precise trap of an access: MISALIGN, or a local bus error (R257, R278). -/
def accessTrap (k : Nat) (r : CoreRegs) (y : Syl) : Option (Nat × Nat × Nat) :=
  match y.access with
  | none => none
  | some (a, size, store) =>
    let ea := (a.ea size r).toNat
    if ea % size != 0 then some (3, a.sp.val, ea)
    else if a.sp.val = 0 ∧ !inData k ea size ∧ !inPage ea size then some (if store then 5 else 4, 0, ea)
    else none

/-- The words a load delivers from the bytes of its container (R257). -/
def loadWords (o : LdOp) (bytes : List Byte) : List (BitVec 24) :=
  let v := leNat bytes
  match o with
  | .b => [BitVec.ofNat 24 (v % 256)]
  | .bs => [(BitVec.ofNat 8 v).signExtend 24]
  | .h => [BitVec.ofNat 24 (v % 65536)]
  | .hs => [(BitVec.ofNat 16 v).signExtend 24]
  | .t => [BitVec.ofNat 24 v]
  | .w => [BitVec.ofNat 24 v, BitVec.ofNat 24 (bitsAt v 24 8)]
  | .d => [BitVec.ofNat 24 v, BitVec.ofNat 24 (bitsAt v 24 24), BitVec.ofNat 24 (bitsAt v 48 16)]

/-- The bytes a store writes (R257). -/
def storeBytes (o : StOp) (g : Nat) (r : CoreRegs) : List Byte :=
  let v (i : Nat) : Nat := (r.rg (g + i)).toNat
  match o with
  | .b => natLE 1 (v 0)
  | .h => natLE 2 (v 0)
  | .t => natLE 4 (v 0)
  | .w => natLE 4 (v 0 + v 1 % 256 * 2 ^ 24)
  | .d => natLE 8 (v 0 + v 1 * 2 ^ 24 + v 2 % 65536 * 2 ^ 48)

/-! ### Control registers (R277) -/

def CoreRegs.status (r : CoreRegs) : Nat := bit r.ie + 2 * bit r.exl + 4 * bit r.lact + 8 * bit r.aov

/-- STATUS restored from four bits. -/
def CoreRegs.setStatus (r : CoreRegs) (v : Nat) : CoreRegs :=
  { r with ie := bitAt v 0, exl := bitAt v 1, lact := bitAt v 2, aov := bitAt v 3 }

/-- A CSR whose read has no side effect. -/
def csrPlain (k c : Nat) (r : CoreRegs) : Nat :=
  if 0x10 ≤ c ∧ c ≤ 0x17 then (r.rs.getD (c - 0x10) 0).toNat
  else if 0x20 ≤ c ∧ c ≤ 0x23 then (r.rw (c - 0x20)).toNat
  else if 0x28 ≤ c ∧ c ≤ 0x2F then (r.xmod.getD (c - 0x28) 0).toNat
  else match c with
    | 0 => r.status
    | 1 => r.estatus.toNat
    | 2 => r.epc.toNat
    | 3 => r.code.toNat + 256 * bit r.imprecise + 512 * r.space.toNat
    | 4 => r.eaddr.toNat
    | 5 => r.vbase.toNat
    | 8 => r.ptr.toNat + 16 * r.count.toNat
    | 0x18 => r.lc.toNat
    | 0x19 => r.ls.toNat
    | 0x1A => r.le.toNat
    | 0x32 => r.waitTarget.toNat % 2 ^ 24
    | 0x33 => r.waitTarget.toNat / 2 ^ 24
    | 0x3F => bit r.rsTrap + 16 * bit (k == 12) + 256 * (if isSeq k then 0 else if isAud k then 1 else 2) + 4096 * k
    | _ => 0

/-- A CSR written; read-only fields keep what they hold. -/
def csrWrite (c v : Nat) (r : CoreRegs) : CoreRegs :=
  if 0x10 ≤ c ∧ c ≤ 0x17 then { r with rs := r.rs.set (c - 0x10) (BitVec.ofNat 16 v) }
  else if 0x20 ≤ c ∧ c ≤ 0x23 then { r with w := r.w.set (c - 0x20) (BitVec.ofNat 16 v) }
  else if 0x28 ≤ c ∧ c ≤ 0x2F then { r with xmod := r.xmod.set (c - 0x28) (BitVec.ofNat 5 v) }
  else match c with
    | 0 => r.setStatus v
    | 1 => { r with estatus := BitVec.ofNat 4 v }
    | 2 => { r with epc := BitVec.ofNat 16 v }
    | 3 => { r with code := BitVec.ofNat 5 v, imprecise := bitAt v 8, space := BitVec.ofNat 3 (v / 512) }
    | 4 => { r with eaddr := BitVec.ofNat 24 v }
    | 5 => { r with vbase := BitVec.ofNat 16 (v / 16 * 16) }
    | 8 => { r with ptr := BitVec.ofNat 3 v, count := BitVec.ofNat 4 (min 8 (v / 16 % 16)) }
    | 0x18 => { r with lc := BitVec.ofNat 24 v }
    | 0x19 => { r with ls := BitVec.ofNat 16 v }
    | 0x1A => { r with le := BitVec.ofNat 16 v }
    | 0x32 => { r with waitTarget := BitVec.ofNat 48 (setBitsAt r.waitTarget.toNat 0 24 v) }
    | 0x33 => { r with waitTarget := BitVec.ofNat 48 (setBitsAt r.waitTarget.toNat 24 24 v) }
    | 0x3F => { r with rsTrap := bitAt v 0 }
    | _ => r

/-- A CSR read, with what its read does: IVEC claims, and the low halves shadow their high halves (R277, R406). -/
def csrRead (k c : Nat) (s : State) : BitVec 24 × State :=
  let r := s.core k
  let high (v : Nat) : BitVec 24 := BitVec.ofNat 24 (v / 2 ^ 24)
  match c with
  | 6 => let (v, s) := claim k s; (BitVec.ofNat 24 v, s)
  | 0x30 => (BitVec.ofNat 24 s.now, onCore k (fun r => { r with beamShadow := some (high s.now) }) s)
  | 0x31 => (r.beamShadow.getD (high s.now), onCore k (fun r => { r with beamShadow := none }) s)
  | 0x34 => (r.regs.cycle.setWidth 24, onCore k (fun r => { r with cycleShadow := some (high r.regs.cycle.toNat) }) s)
  | 0x35 => (r.cycleShadow.getD (high r.regs.cycle.toNat), onCore k (fun r => { r with cycleShadow := none }) s)
  | _ => (BitVec.ofNat 24 (csrPlain k c r.regs), s)

/-! ### Legality (R262 to R264, R272, R274) -/

/-- Units in strictly ascending order. -/
def ascending : List Nat → Bool
  | a :: b :: t => a < b && ascending (b :: t)
  | _ => true

/-- No register occurs twice. -/
def distinct : List Dst → Bool
  | [] => true
  | d :: t => !t.contains d && distinct t

/-- A bundle that traps ILLEGAL (R262 to R264, R274). -/
def illegalBundle (b : List Syl) (next : Nat) : Bool :=
  b.any (·.illegal next) || !ascending (b.map (·.unit)) || !distinct (b.flatMap (·.dsts))

/-! ### Traps (R278 to R280) -/

/-- A trap on an access at `(sp, ea)`, or one with no failing access, whose EADDR and SPACE nothing states. -/
def trapAccess (acc : Option (Nat × Nat)) (s : State) : (BitVec 3 × BitVec 24) × State :=
  match acc with
  | some (sp, ea) => ((BitVec.ofNat 3 sp, BitVec.ofNat 24 ea), s)
  | none =>
    let (n, s) := s.fresh
    let v := (Config.trapFields n).toNat
    ((BitVec.ofNat 3 (v / 2 ^ 24), BitVec.ofNat 24 v), s)

/-- A core stops on a double trap, with its state kept (R280, R300, R328, R448). -/
def doubleTrap (k code : Nat) (epc : BitVec 16) (s : State) : State :=
  let s := onCore k (fun r => { r with live := false, bundle := [], hold := .none, waited := false, stopDue := .none, again := false }) s
  if isSeq k then
    let s := setCoreState k 5 (s.clr (F.seqCtl_RUN k))
    let s := (s.wr (F.seqStopinfo_CAUSE k) code).wr (F.seqStopinfo_EPC k) epc.toNat
    logEvent 0x0600 2 k code (raise (504 + k) (s.inc (F.seqStops_COUNT k)))
  else if isAud k then
    let s := onAudCore (k - 8) (fun r => { r with live := false }) (setCoreState k 5 s)
    logEvent 0x0601 2 (k - 8) code (raise (320 + k) (s.inc (F.audCoreErr_STOPS (k - 8))))
  else { s with cellar := { s.cellar with wdtDue := s.cellar.wdtDue.or (some 3) } }

/-! ### Starting and stopping (R286, R287, R299, R324, R328) -/

/-- A start is applied: the core waits to leave reset; a FRAME start reads ARMED (R286). -/
def armCore (k : Nat) (frame : Bool) (s : State) : State :=
  let s := onCore k (fun r => { r with armed := some (s.rd (F.pipeFrames_COUNT (k % 8))), armFrame := frame, again := false }) s
  if frame then setCoreState k 1 s else s

/-- SEQ_START_AT as a start takes it; audio cores have none. -/
def State.startAtFrame (s : State) (k : Nat) : Bool := isSeq k && s.flag (F.seqCtl_START_AT k)

/-- A core stops at a bundle boundary, with its state kept (R287, R299, R328). Where RUN = 0 was applied to a core that its watchdog
was to start again, it halts (R287). -/
def stopCore (k : Nat) (s : State) : State :=
  let c := s.core k
  let wdt := c.stopDue == .wdt
  let s := onCore k (fun r => { r with live := false, bundle := [], hold := .none, stopDue := .none }) s
  let s := if isAud k then onAudCore (k - 8) (fun r => { r with live := false }) s else s
  if wdt then
    if isSeq k then
      let s := logEvent 0x0600 2 k Config.stopCause (raise (504 + k) (s.inc (F.seqStops_COUNT k)))
      if s.rd (F.seqCtl_WDT_ACTION k) = 1 ∧ s.flag (F.seqCtl_RUN k) then armCore k true s
      else if c.again then armCore k (s.startAtFrame k) s
      else if s.rd (F.seqCtl_WDT_ACTION k) = 1 then setCoreState k 0 s
      else setCoreState k 4 (s.clr (F.seqCtl_RUN k))
    else
      let s := logEvent 0x0601 2 (k - 8) Config.stopCause (raise (320 + k) (s.inc (F.audCoreErr_STOPS (k - 8))))
      if s.rd (F.audCoreCtl_WDT_ACTION (k - 8)) = 1 ∧ s.flag (F.audCoreCtl_RUN (k - 8)) ∨ c.again then armCore k false s
      else setCoreState k (if s.rd (F.audCoreCtl_WDT_ACTION (k - 8)) = 1 then 0 else 4) s
  else
    let s := setCoreState k 0 s
    if c.again then armCore k (s.startAtFrame k) s else s

/-- A bundle boundary: nothing of a bundle has issued, or it is held in WAIT (R287). -/
def CoreRun.atBoundary (r : CoreRun) : Bool := match r.hold with | .wait _ => true | .none => r.bundle.isEmpty | _ => false

/-- A stop that is due is carried out at the boundary just reached, but for a sequencer's commanded stop, which SEQ_HALT
carries out. -/
def stopAtBoundary (k : Nat) (s : State) : State :=
  let c := s.core k
  if c.live && c.atBoundary && (c.stopDue == .wdt || (c.stopDue == .halt && !isSeq k)) then stopCore k s else s

/-- RUN applied to a sequencer or audio core (R286, R287, R324). A watchdog's stop that is already due stays the watchdog's. -/
def runWritten (k : Nat) (run : Bool) (s : State) : State :=
  if (s.core k).live then stopAtBoundary k (onCore k (fun r => { r with stopDue := if r.stopDue == .wdt then .wdt else .halt, again := run }) s)
  else if run then armCore k (s.startAtFrame k) s
  else setCoreState k 0 (onCore k (fun r => { r with armed := none }) s)

/-! ### Entry (R279, R280) -/

/-- Taking a trap or an interrupt (R279): M operations complete, EPC, CAUSE, EADDR and ESTATUS are saved, IE, EXL and LACT become
0, 1 and 0, the in-service stack takes an empty entry, and the core continues at VBASE or VBASE + 16, where a stop that is due is
carried out (R287, R299). -/
def enter (k code : Nat) (imprecise : Bool) (epc : BitVec 16) (acc : Option (Nat × Nat)) (s : State) : State :=
  let ((sp, ea), s) := trapAccess acc s
  let s := onCore k (fun c =>
    let c := drainM c
    let r := c.regs
    let r := { r with epc := epc, code := BitVec.ofNat 5 code, imprecise := imprecise, space := sp, eaddr := ea }
    let r := { r with estatus := BitVec.ofNat 4 r.status, ie := false, exl := true, lact := false }
    let r := { r with pc := r.vbase + (if code = 16 then 16 else 0), cycle := r.cycle + 6 }
    { c with regs := r, bundle := [], hold := .none, waited := false }) s
  stopAtBoundary k (showPc k (pushService k (setCoreState k 2 s)))

/-- A precise trap: a double trap while EXL is 1 (R280). -/
def preciseTrap (k code : Nat) (epc : BitVec 16) (acc : Option (Nat × Nat)) (s : State) : State :=
  if (s.core k).regs.exl then doubleTrap k code epc s else enter k code false epc acc s

/-! ### Leaving reset (R286, R324) -/

/-- A core leaves reset at its entry, in the state of R254; far stores issued before stay outstanding (R286, R324). -/
def leaveReset (k entry : Nat) (s : State) : State :=
  let s := clearService k s
  let s := onCore k (fun r => { core0 k with posted := r.posted, live := true, regs := { coreRegs0 k with pc := BitVec.ofNat 16 entry } }) s
  showPc k (setCoreState k 2 s)

/-! ### The local I/O pages (R289, R325) -/

/-- What a page load returns, with its shadows. -/
def pageRead (k off : Nat) (s : State) : BitVec 24 × State :=
  let c := s.core k
  let pair (v : Nat) : BitVec 24 × State := (BitVec.ofNat 24 v, onCore k (fun r => { r with pageShadow := some (BitVec.ofNat 24 (v / 2 ^ 24)) }) s)
  let high (v : Nat) : BitVec 24 × State :=
    (c.pageShadow.getD (BitVec.ofNat 24 (v / 2 ^ 24)), onCore k (fun r => { r with pageShadow := none }) s)
  let plain (v : Nat) : BitVec 24 × State := (BitVec.ofNat 24 v, s)
  if isSeq k then
    match off with
    | 0 => plain (s.rd (F.pipeStatus_LINE k) % 2 ^ 14 + s.rd (F.pipeStatus_STATE k) * 2 ^ 16 + s.rd (F.pipeStatus_WAITING k) * 2 ^ 18
        + s.rd (F.pipeCommitStatus_REPEAT k) * 2 ^ 19)
    | 4 => plain (s.rd (F.pipeFrames_COUNT k))
    | 8 => plain c.waitCfg.toNat
    | 0x14 => plain (c.posted.filter fun f => !f.served && irsBase ≤ f.addr && f.addr < irsBase + 0x1000000).length
    | 0x18 => pair (s.pipe k).lineStamp
    | 0x1C => high (s.pipe k).lineStamp
    | _ => plain 0
  else if isAud k then
    let a := s.audCore (k - 8)
    let now := s.audNow (dom (s.rd (F.audCoreCtl_DOMAIN (k - 8))))
    match off with
    | 0 => plain (s.rd (F.audCoreCtl_BLOCK_LEN (k - 8)) + (if a.blocks = 0 then 0 else (a.blocks - 1) % 2) * 2 ^ 16)
    | 4 => plain a.blocks
    | 8 => plain c.waitCfg.toNat
    | 0x18 => pair now
    | 0x1C => high now
    | _ => plain 0
  else
    let (n, s) := s.fresh
    (Config.cellarPage n, s)

/-- SEQL_KICK (R299). -/
def seqKick (p : Nat) (s : State) : State := onCore p (fun r => { r with wdt := 0 }) s

/-- SEQL_DOORBELL (R301). -/
def seqDoorbell (p : Nat) (s : State) : State := raise (496 + p) s

/-- AUDL_DONE: the output half is complete; further writes within one block, and writes before the first boundary, are ignored
(R326). -/
def audlDone (c : Nat) (s : State) : State := if (s.audCore c).blocks = 0 then s else onAudCore c (fun r => { r with done := true }) s

/-- AUDL_KICK (R328). -/
def audlKick (c : Nat) (s : State) : State := onAudCore c (fun r => { r with wdt := 0 }) s

/-- AUDL_DOORBELL (R336). -/
def audlDoorbell (c : Nat) (s : State) : State := raise (324 + c) s

/-- A page store. -/
def pageWrite (k off v : Nat) (s : State) : State :=
  if isSeq k then
    match off with
    | 8 => onCore k (fun r => { r with waitCfg := BitVec.ofNat 24 (v &&& 0x13FFF3) }) s
    | 0xC => seqKick k s
    | 0x10 => if bitAt v 0 then seqDoorbell k s else s
    | _ => s
  else if isAud k then
    match off with
    | 8 => onCore k (fun r => { r with waitCfg := BitVec.ofNat 24 (v &&& 3) }) s
    | 0xC => audlDone (k - 8) s
    | 0x10 => audlKick (k - 8) s
    | 0x14 => if bitAt v 0 then audlDoorbell (k - 8) s else s
    | _ => s
  else s

/-! ### What the syllables of a bundle do (R264) -/

/-- A memory word corrected, or found uncorrectable, is counted as the core's kind states (R260, R300, R328). -/
def countEcc (k : Nat) (e : Ecc) (s : State) : State :=
  match e with
  | .none => s
  | .corrected => if isSeq k then s.inc (F.seqEcc_CE k) else if isAud k then s.inc (F.audCoreEcc_CE (k - 8)) else s
  | .uncorrectable _ => if isSeq k then s.inc (F.seqEcc_UE k) else if isAud k then s.inc (F.audCoreEcc_UE (k - 8)) else s

/-- The bytes a load gets: from data memory, with what its error correction finds in its one or two words, from the page, or from
the far response. -/
def loadBytes (k : Nat) (a : LAddr) (size : Nat) (e high : Ecc) (far : List Byte) (r : CoreRegs) (s : State) : List Byte × State :=
  let ea := (a.ea size r).toNat
  if a.sp.val != 0 then (far, s)
  else if inData k ea size then
    let high := if size = 8 then high else .none
    let s := countEcc k high (countEcc k e s)
    let flips := (e.flips + 2 ^ 32 * high.flips) / 2 ^ (8 * (ea % 4)) % 2 ^ (8 * size)
    let d := natLE size (leNat (s.bytesAt (dataBase k + ea) size) ^^^ flips)
    let bad : Bool := match e, high with
      | .uncorrectable _, _ => true
      | _, .uncorrectable _ => true
      | _, _ => false
    (d, if bad then onCore k (fun c => { c with imprecise := c.imprecise ++ [⟨4, 0, ea⟩] }) s else s)
  else
    let (v, s) := pageRead k (ea - 0xFF0000) s
    (natLE 4 v.toNat, s)

/-- The address register of a mode that updates it. -/
def updates (a : LAddr) (size : Nat) (r : CoreRegs) : List (Dst × BitVec 24) :=
  match a.update size r with
  | some v => [(.x a.x.val, v)]
  | none => []

/-- The registers one syllable writes, from the registers as they stood before the bundle, with what its reads do. -/
def sylWrites (k : Nat) (far : List Byte) (r : CoreRegs) (y : Syl) (s : State) : List (Dst × BitVec 24) × State :=
  match y with
  | .alu _ op d a b => ([(.g d.val, aluValue op (r.rg a.val) (r.rg b.val))], s)
  | .alui _ op d a imm => ([(.g d.val, aluValue op (r.rg a.val) (imm.signExtend 24))], s)
  | .li _ d imm => ([(.g d.val, imm.signExtend 24)], s)
  | .lih _ d imm => ([(.g d.val, BitVec.ofNat 24 (setBitsAt (r.rg d.val).toNat 12 12 imm.toNat))], s)
  | .movx _ d a => ([(.x d.val, r.rg a.val)], s)
  | .movg _ d a => ([(.g d.val, r.rx a.val)], s)
  | .addx _ d a imm => ([(.x d.val, r.rx a.val + imm.signExtend 24)], s)
  | .rdp _ d a imm => ([(.g d.val, BitVec.ofNat 24 (bitsAt (r.rp a.val).toNat (24 * (imm.toNat % 2)) 24))], s)
  | .rda _ d a imm => ([(.g d.val, rdaValue (r.ra a.val) imm.toNat)], s)
  | .rdar _ d a imm => ([(.g d.val, rdarValue (r.ra a.val) imm.toNat)], s)
  | .ld o g a e high =>
    let (b, s) := loadBytes k a o.size e high far r s
    (((loadWords o b).zipIdx.map fun v => (Dst.g (g.val + v.2), v.1)) ++ updates a o.size r, s)
  | .ldx d a e =>
    let (b, s) := loadBytes k a 4 e .none far r s
    if a.am ≠ 0 ∧ a.x = d then
      let (n, s) := s.fresh
      ([(.x d.val, Config.ldxClash n)], s)
    else ((Dst.x d.val, BitVec.ofNat 24 (leNat b)) :: updates a 4 r, s)
  | .st o _ a => (updates a o.size r, s)
  | .stx _ a => (updates a 4 r, s)
  | .setw w g => ([(.w w.val, r.rg g.val)], s)
  | .csrr g c =>
    let (v, s) := csrRead k c.toNat s
    ([(.g g.val, v)], s)
  | _ => ([], s)

/-- The bytes a syllable stores, with its access. -/
def sylStore (r : CoreRegs) : Syl → Option (LAddr × Nat × List Byte)
  | .st o g a => some (a, o.size, storeBytes o g.val r)
  | .stx d a => some (a, 4, natLE 4 (r.rx d.val).toNat)
  | _ => none

/-- An address of the IRS (R25). -/
def isIrs (a : Nat) : Bool := irsBase ≤ a && a < irsBase + 0x1000000

/-- The far stores that one store makes: an 8-byte store to two 32-bit registers is two, lower address first (R257). -/
def farStores (a : LAddr) (size : Nat) (d : List Byte) (r : CoreRegs) : List FarStore :=
  let addr := a.far size r
  let one (i : Nat) (b : List Byte) : FarStore := { addr := addr + i, data := b, sp := a.sp.val, ea := (a.ea size r).toNat + i, served := false, err := false }
  if size = 8 ∧ isIrs addr ∧ !((findReg (addr - irsBase)).any fun h => h.row.wide) then [one 0 (d.take 4), one 4 (d.drop 4)]
  else [one 0 d]

/-- The far stores of a bundle. -/
def bundleFar (r : CoreRegs) (b : List Syl) : List FarStore :=
  b.flatMap fun y => match sylStore r y with
    | some (a, size, d) => if a.sp.val = 0 then [] else farStores a size d r
    | none => []

/-- The store of a bundle takes effect: in data memory, in the page, or posted (R258, R265). -/
def bundleStore (k : Nat) (r : CoreRegs) (b : List Syl) (s : State) : State :=
  s.forL (b.filterMap (sylStore r)) fun st s =>
    let (a, size, d) := st
    let ea := (a.ea size r).toNat
    if a.sp.val != 0 then onCore k (fun c => { c with posted := c.posted ++ farStores a size d r }) s
    else if inData k ea size then s.setBytes (dataBase k + ea) d
    else pageWrite k (ea - 0xFF0000) (leNat d % 2 ^ 24) s

/-- The M operation of a syllable, with its sources. -/
def sylM (r : CoreRegs) (y : Syl) : Option MInFlight :=
  match y with
  | .mul _ _ a b => some ⟨y, r.rg a.val, r.rg b.val, 0⟩
  | .mova _ a _ => some ⟨y, r.rg a.val, 0, 0⟩
  | .ashr .. => some ⟨y, 0, 0, 0⟩
  | .ains _ a _ => some ⟨y, r.rg a.val, 0, 0⟩
  | _ => none

/-! ### Control flow (R272 to R276) -/

/-- The syllable index after the bundle that starts at `i`, found in program memory by its stop bit (R263, R274). -/
def bundleEnd (k : Nat) (s : State) : Nat → Nat → Nat
  | 0, i => i
  | fuel + 1, i =>
    if progSize k ≤ i then i
    else if (s.byteAt (progBase k + 4 * i + 3)).getLsbD 7 then i + 1 else bundleEnd k s fuel (i + 1)

/-- A push on the return stack (R275). -/
def CoreRegs.push (r : CoreRegs) (a : BitVec 16) : CoreRegs :=
  { r with rs := r.rs.set r.ptr.toNat a, ptr := r.ptr + 1, count := BitVec.ofNat 4 (min 8 (r.count.toNat + 1)) }

/-- A taken branch to `t` leaves the loop where `t` lies outside it (R274). -/
def CoreRegs.branch (r : CoreRegs) (t : BitVec 16) : CoreRegs :=
  { r with lact := r.lact && r.ls.toNat ≤ t.toNat && t.toNat ≤ r.le.toNat }

/-- A C syllable: the registers after it, and the target it takes, if any. `old` are the registers before the bundle. -/
def control (old : CoreRegs) (next : BitVec 16) (skip : BitVec 16 → BitVec 16) (y : Syl) (r : CoreRegs) : CoreRegs × Option (BitVec 16) :=
  let g (n : Fin 32) : BitVec 24 := old.rg n.val
  let to_ (n : Fin 32) : BitVec 16 := (g n).setWidth 16
  match y with
  | .br t => (r.branch t, some t)
  | .bz n t => if g n = 0 then (r.branch t, some t) else (r, none)
  | .bnz n t => if g n = 0 then (r, none) else (r.branch t, some t)
  | .brg n => (r.branch (to_ n), some (to_ n))
  | .call t => (r.push next, some t)
  | .callg n => (r.push next, some (to_ n))
  | .ret => ({ r with ptr := r.ptr - 1, count := BitVec.ofNat 4 (r.count.toNat - 1) }, some (r.rs.getD (r.ptr - 1).toNat 0))
  | .loop n t =>
    if g n = 0 then (r, some (skip t)) else ({ r with lc := g n, ls := next, le := t, lact := true }, none)
  | .csrw n c => (csrWrite c.toNat (g n).toNat r, none)
  | .csrs n c => (csrWrite c.toNat (csrPlain 0 c.toNat old ||| (g n).toNat) r, none)
  | .csrc n c => (csrWrite c.toNat (csrPlain 0 c.toNat old &&& (2 ^ 24 - 1 - (g n).toNat)) r, none)
  | _ => (r, none)

/-- The end of the hardware loop: a bundle at LE that took no transfer counts one iteration (R274). -/
def loopEnd (old : CoreRegs) (next : BitVec 16) (r : CoreRegs) : CoreRegs × BitVec 16 :=
  if old.lact ∧ old.pc = old.le then
    let lc := r.lc - 1
    if lc = 0 then ({ r with lc := lc, lact := false }, next) else ({ r with lc := lc }, old.ls)
  else (r, next)

/-- The precise trap of a bundle's C syllable (R274, R275). -/
def controlTrap (r : CoreRegs) (y : Syl) : Option Nat :=
  let over_ := r.rsTrap && 8 ≤ r.count.toNat
  match y with
  | .call _ => if over_ then some 6 else none
  | .callg _ => if over_ then some 6 else none
  | .ret => if r.rsTrap && r.count.toNat == 0 then some 7 else none
  | .loop .. => if r.lact then some 8 else none
  | _ => none

/-- A held or new WAIT has ended (R276, R290, R325). -/
def State.waitEnded (s : State) (k : Nat) : Bool :=
  let c := s.core k
  let stamp := reached c.regs.waitTarget.toNat s.now
  let hit := c.hold == .wait true
  match c.waitMode with
  | 0 => stamp
  | 1 => hit
  | _ => stamp || hit

/-! ### A bundle executes (R264, R265) -/

/-- The register writes of a bundle's syllables, joined. -/
def bundleWrites (k : Nat) (far : List Byte) (r : CoreRegs) : List Syl → State → List (Dst × BitVec 24) × State
  | [], s => ([], s)
  | y :: t, s =>
    let (w, s) := sylWrites k far r y s
    let (w', s) := bundleWrites k far r t s
    (w ++ w', s)

/-- Every syllable takes effect together; the M pipeline advances and the next bundle's address is found. -/
def commitBundle (k : Nat) (far : List Byte) (s : State) : State :=
  let old := (s.core k).regs
  let b := (s.core k).bundle
  let next := old.pc + BitVec.ofNat 16 b.length
  let (w, s) := bundleWrites k far old b s
  let s := bundleStore k old b s
  let cy := b.getLast?.getD .nopc
  let skip (t : BitVec 16) : BitVec 16 := BitVec.ofNat 16 (bundleEnd k s 65536 t.toNat)
  let isReti := cy == .reti
  let s := if isReti then onCore k drainM s else s
  let s := onCore k (fun c =>
    let (r, taken) := control old next skip cy (w.foldl (fun r d => r.put d.1 d.2) c.regs)
    let (r, pc) := match taken with
      | some t => (r, t)
      | none => if isReti then (r.setStatus old.estatus.toNat, old.epc) else loopEnd old next r
    let cost := if isReti || (taken.isSome && (match cy with | .loop .. => false | _ => true)) then 3 else 1
    ageM { c with regs := { r with pc := pc, cycle := r.cycle + cost }, mpipe := c.mpipe ++ b.filterMap (sylM old),
                  bundle := [], hold := .none, waited := false }) s
  let s := if isReti then popService k s else s
  let s := setCoreState k 2 s
  match cy with
  | .trap imm => enter k 9 false (s.core k).regs.pc (some (0, imm.toNat)) s
  | _ => stopAtBoundary k (showPc k s)

/-- A held bundle keeps the core where it is; a stop that is due finds its boundary in a WAIT (R284, R287, R299). -/
def holdBundle (k : Nat) (h : Hold) (s : State) : State :=
  let s := onCore k (fun c => { c with hold := h }) s
  match h with
  | .wait _ => stopAtBoundary k (showPc k (setCoreState k 3 s))
  | _ => s

/-- A complete bundle is checked, held or executed (R258, R264, R276, R278). `far` is the response of its far load: an error, and
the bytes. -/
def runBundle (k : Nat) (far : Option (Bool × List Byte)) (s : State) : State :=
  let c := s.core k
  let r := c.regs
  let b := c.bundle
  let next := r.pc.toNat + b.length
  if illegalBundle b next then preciseTrap k 1 r.pc none s
  else if b.contains .wait && !c.waited && !s.waitEnded k then
    holdBundle k (match c.hold with | .wait h => .wait h | _ => .wait false) s
  else if b.contains .fence && !c.posted.isEmpty then holdBundle k .fence s
  else match b.findSome? (accessTrap k r) with
    | some (code, sp, ea) => preciseTrap k code r.pc (some (sp, ea)) s
    | none =>
      match b.findSome? (controlTrap r) with
      | some code => preciseTrap k code r.pc none s
      | none =>
        let stores := (bundleFar r b).length
        let farLoad := b.findSome? fun y => match y.access with
          | some (a, size, false) => if a.sp.val = 0 then none else some (a.sp.val, (a.ea size r).toNat)
          | _ => none
        let s := onCore k (fun c => { c with waited := true }) s
        if stores != 0 && 8 < c.posted.length + stores then holdBundle k .stores s
        else match farLoad, far with
          | some _, none => holdBundle k .far s
          | some acc, some (true, _) => preciseTrap k 4 r.pc (some acc) s
          | _, some (_, d) => commitBundle k d s
          | none, none => commitBundle k [] s

/-- One syllable of core `k` issues; with its stop bit the bundle is complete (R263). A core that is not running, that holds a
bundle, or that is to stop at the boundary it stands at takes none. -/
def syllable (k : Nat) (y : Syl) (stop : Bool) (s : State) : State :=
  let c := s.core k
  if !c.live || (k != 12 && s.stopped) || c.hold != .none || (c.bundle.isEmpty && c.stopDue != .none) then s
  else if progSize k ≤ c.regs.pc.toNat + c.bundle.length then preciseTrap k 2 c.regs.pc none s
  else
    let s := onCore k (fun c => { c with bundle := c.bundle ++ [y], waited := false }) s
    if stop then runBundle k none s else s

/-- A held bundle is looked at again; one held in WAIT by a core that is to stop is not executed (R287). -/
def retryHeld (k : Nat) (s : State) : State :=
  let c := s.core k
  if c.hold = .none ∨ (k ≠ 12 ∧ s.stopped) ∨ (c.atBoundary ∧ c.stopDue ≠ .none) then s else runBundle k none s

/-! ### The operations, one syllable each -/

/-- ADD (R269). -/
def execAdd (k : Fin 13) (stop : Bool) (j : Bool) (d a b : Fin 32) (s : State) : Out := .next (syllable k.val (.alu j .add d a b) stop s)

/-- SUB (R269). -/
def execSub (k : Fin 13) (stop : Bool) (j : Bool) (d a b : Fin 32) (s : State) : Out := .next (syllable k.val (.alu j .sub d a b) stop s)

/-- AND (R269). -/
def execAnd (k : Fin 13) (stop : Bool) (j : Bool) (d a b : Fin 32) (s : State) : Out := .next (syllable k.val (.alu j .and d a b) stop s)

/-- OR (R269). -/
def execOr (k : Fin 13) (stop : Bool) (j : Bool) (d a b : Fin 32) (s : State) : Out := .next (syllable k.val (.alu j .or d a b) stop s)

/-- XOR (R269). -/
def execXor (k : Fin 13) (stop : Bool) (j : Bool) (d a b : Fin 32) (s : State) : Out := .next (syllable k.val (.alu j .xor d a b) stop s)

/-- SHL (R269). -/
def execShl (k : Fin 13) (stop : Bool) (j : Bool) (d a b : Fin 32) (s : State) : Out := .next (syllable k.val (.alu j .shl d a b) stop s)

/-- SHR (R269). -/
def execShr (k : Fin 13) (stop : Bool) (j : Bool) (d a b : Fin 32) (s : State) : Out := .next (syllable k.val (.alu j .shr d a b) stop s)

/-- SAR (R269). -/
def execSar (k : Fin 13) (stop : Bool) (j : Bool) (d a b : Fin 32) (s : State) : Out := .next (syllable k.val (.alu j .sar d a b) stop s)

/-- MIN (R269). -/
def execMin (k : Fin 13) (stop : Bool) (j : Bool) (d a b : Fin 32) (s : State) : Out := .next (syllable k.val (.alu j .min d a b) stop s)

/-- MAX (R269). -/
def execMax (k : Fin 13) (stop : Bool) (j : Bool) (d a b : Fin 32) (s : State) : Out := .next (syllable k.val (.alu j .max d a b) stop s)

/-- MINU (R269). -/
def execMinu (k : Fin 13) (stop : Bool) (j : Bool) (d a b : Fin 32) (s : State) : Out := .next (syllable k.val (.alu j .minu d a b) stop s)

/-- MAXU (R269). -/
def execMaxu (k : Fin 13) (stop : Bool) (j : Bool) (d a b : Fin 32) (s : State) : Out := .next (syllable k.val (.alu j .maxu d a b) stop s)

/-- CMPEQ (R269). -/
def execCmpeq (k : Fin 13) (stop : Bool) (j : Bool) (d a b : Fin 32) (s : State) : Out := .next (syllable k.val (.alu j .cmpeq d a b) stop s)

/-- CMPLT (R269). -/
def execCmplt (k : Fin 13) (stop : Bool) (j : Bool) (d a b : Fin 32) (s : State) : Out := .next (syllable k.val (.alu j .cmplt d a b) stop s)

/-- CMPLTU (R269). -/
def execCmpltu (k : Fin 13) (stop : Bool) (j : Bool) (d a b : Fin 32) (s : State) : Out := .next (syllable k.val (.alu j .cmpltu d a b) stop s)

/-- ADDS (R269). -/
def execAdds (k : Fin 13) (stop : Bool) (j : Bool) (d a b : Fin 32) (s : State) : Out := .next (syllable k.val (.alu j .adds d a b) stop s)

/-- SUBS (R269). -/
def execSubs (k : Fin 13) (stop : Bool) (j : Bool) (d a b : Fin 32) (s : State) : Out := .next (syllable k.val (.alu j .subs d a b) stop s)

/-- ABS (R269). -/
def execAbs (k : Fin 13) (stop : Bool) (j : Bool) (d a : Fin 32) (s : State) : Out := .next (syllable k.val (.alu j .abs d a 0) stop s)

/-- CLZ (R269). -/
def execClz (k : Fin 13) (stop : Bool) (j : Bool) (d a : Fin 32) (s : State) : Out := .next (syllable k.val (.alu j .clz d a 0) stop s)

/-- ADDI (R269). -/
def execAddi (k : Fin 13) (stop : Bool) (j : Bool) (d a : Fin 32) (imm : BitVec 12) (s : State) : Out := .next (syllable k.val (.alui j .add d a imm) stop s)

/-- ANDI (R269). -/
def execAndi (k : Fin 13) (stop : Bool) (j : Bool) (d a : Fin 32) (imm : BitVec 12) (s : State) : Out := .next (syllable k.val (.alui j .and d a imm) stop s)

/-- ORI (R269). -/
def execOri (k : Fin 13) (stop : Bool) (j : Bool) (d a : Fin 32) (imm : BitVec 12) (s : State) : Out := .next (syllable k.val (.alui j .or d a imm) stop s)

/-- XORI (R269). -/
def execXori (k : Fin 13) (stop : Bool) (j : Bool) (d a : Fin 32) (imm : BitVec 12) (s : State) : Out := .next (syllable k.val (.alui j .xor d a imm) stop s)

/-- SHLI (R269). -/
def execShli (k : Fin 13) (stop : Bool) (j : Bool) (d a : Fin 32) (imm : BitVec 12) (s : State) : Out := .next (syllable k.val (.alui j .shl d a imm) stop s)

/-- SHRI (R269). -/
def execShri (k : Fin 13) (stop : Bool) (j : Bool) (d a : Fin 32) (imm : BitVec 12) (s : State) : Out := .next (syllable k.val (.alui j .shr d a imm) stop s)

/-- SARI (R269). -/
def execSari (k : Fin 13) (stop : Bool) (j : Bool) (d a : Fin 32) (imm : BitVec 12) (s : State) : Out := .next (syllable k.val (.alui j .sar d a imm) stop s)

/-- CMPEQI (R269). -/
def execCmpeqi (k : Fin 13) (stop : Bool) (j : Bool) (d a : Fin 32) (imm : BitVec 12) (s : State) : Out := .next (syllable k.val (.alui j .cmpeq d a imm) stop s)

/-- CMPLTI (R269). -/
def execCmplti (k : Fin 13) (stop : Bool) (j : Bool) (d a : Fin 32) (imm : BitVec 12) (s : State) : Out := .next (syllable k.val (.alui j .cmplt d a imm) stop s)

/-- LI (R269). -/
def execLi (k : Fin 13) (stop : Bool) (j : Bool) (d : Fin 32) (imm : BitVec 17) (s : State) : Out := .next (syllable k.val (.li j d imm) stop s)

/-- LIH (R269). -/
def execLih (k : Fin 13) (stop : Bool) (j : Bool) (d : Fin 32) (imm : BitVec 12) (s : State) : Out := .next (syllable k.val (.lih j d imm) stop s)

/-- MOVX (R269). -/
def execMovx (k : Fin 13) (stop : Bool) (j : Bool) (d : Fin 8) (a : Fin 32) (s : State) : Out := .next (syllable k.val (.movx j d a) stop s)

/-- MOVG (R269). -/
def execMovg (k : Fin 13) (stop : Bool) (j : Bool) (d : Fin 32) (a : Fin 8) (s : State) : Out := .next (syllable k.val (.movg j d a) stop s)

/-- ADDX (R269). -/
def execAddx (k : Fin 13) (stop : Bool) (j : Bool) (d a : Fin 8) (imm : BitVec 12) (s : State) : Out := .next (syllable k.val (.addx j d a imm) stop s)

/-- RDP (R269). -/
def execRdp (k : Fin 13) (stop : Bool) (j : Bool) (d : Fin 32) (a : Fin 4) (imm : BitVec 12) (s : State) : Out := .next (syllable k.val (.rdp j d a imm) stop s)

/-- RDA (R269). -/
def execRda (k : Fin 13) (stop : Bool) (j : Bool) (d : Fin 32) (a : Fin 4) (imm : BitVec 12) (s : State) : Out := .next (syllable k.val (.rda j d a imm) stop s)

/-- RDAR (R269). -/
def execRdar (k : Fin 13) (stop : Bool) (j : Bool) (d : Fin 32) (a : Fin 4) (imm : BitVec 12) (s : State) : Out := .next (syllable k.val (.rdar j d a imm) stop s)

/-- MUL (R267, R270). -/
def execMul (k : Fin 13) (stop : Bool) (d : Fin 4) (a b : Fin 32) (s : State) : Out := .next (syllable k.val (.mul .mul d a b) stop s)

/-- MULU (R267, R270). -/
def execMulu (k : Fin 13) (stop : Bool) (d : Fin 4) (a b : Fin 32) (s : State) : Out := .next (syllable k.val (.mul .mulu d a b) stop s)

/-- MAC (R267, R270). -/
def execMac (k : Fin 13) (stop : Bool) (d : Fin 4) (a b : Fin 32) (s : State) : Out := .next (syllable k.val (.mul .mac d a b) stop s)

/-- MSU (R267, R270). -/
def execMsu (k : Fin 13) (stop : Bool) (d : Fin 4) (a b : Fin 32) (s : State) : Out := .next (syllable k.val (.mul .msu d a b) stop s)

/-- MACZ (R267, R270). -/
def execMacz (k : Fin 13) (stop : Bool) (d : Fin 4) (a b : Fin 32) (s : State) : Out := .next (syllable k.val (.mul .macz d a b) stop s)

/-- MACU (R267, R270). -/
def execMacu (k : Fin 13) (stop : Bool) (d : Fin 4) (a b : Fin 32) (s : State) : Out := .next (syllable k.val (.mul .macu d a b) stop s)

/-- MOVA (R267, R270). -/
def execMova (k : Fin 13) (stop : Bool) (d : Fin 4) (a : Fin 32) (n : BitVec 6) (s : State) : Out := .next (syllable k.val (.mova d a n) stop s)

/-- ASHR (R267, R270). -/
def execAshr (k : Fin 13) (stop : Bool) (d a : Fin 4) (n : BitVec 6) (s : State) : Out := .next (syllable k.val (.ashr d a n) stop s)

/-- AINS (R267, R270). -/
def execAins (k : Fin 13) (stop : Bool) (d : Fin 4) (a : Fin 32) (n : BitVec 6) (s : State) : Out := .next (syllable k.val (.ains d a n) stop s)

/-- LD.B (R257, R271). -/
def execLdB (k : Fin 13) (stop : Bool) (g : Fin 32) (at_ : LAddr) (ecc : Ecc) (s : State) : Out := .next (syllable k.val (.ld .b g at_ ecc .none) stop s)

/-- LD.BS (R257, R271). -/
def execLdBs (k : Fin 13) (stop : Bool) (g : Fin 32) (at_ : LAddr) (ecc : Ecc) (s : State) : Out := .next (syllable k.val (.ld .bs g at_ ecc .none) stop s)

/-- LD.H (R257, R271). -/
def execLdH (k : Fin 13) (stop : Bool) (g : Fin 32) (at_ : LAddr) (ecc : Ecc) (s : State) : Out := .next (syllable k.val (.ld .h g at_ ecc .none) stop s)

/-- LD.HS (R257, R271). -/
def execLdHs (k : Fin 13) (stop : Bool) (g : Fin 32) (at_ : LAddr) (ecc : Ecc) (s : State) : Out := .next (syllable k.val (.ld .hs g at_ ecc .none) stop s)

/-- LD.T (R257, R271). -/
def execLdT (k : Fin 13) (stop : Bool) (g : Fin 32) (at_ : LAddr) (ecc : Ecc) (s : State) : Out := .next (syllable k.val (.ld .t g at_ ecc .none) stop s)

/-- LD.W (R257, R271). -/
def execLdW (k : Fin 13) (stop : Bool) (g : Fin 32) (at_ : LAddr) (ecc : Ecc) (s : State) : Out := .next (syllable k.val (.ld .w g at_ ecc .none) stop s)

/-- LD.D (R257, R271). -/
def execLdD (k : Fin 13) (stop : Bool) (g : Fin 32) (at_ : LAddr) (ecc : EccPair) (s : State) : Out := .next (syllable k.val (.ld .d g at_ ecc.low ecc.high) stop s)

/-- ST.B (R257, R271). -/
def execStB (k : Fin 13) (stop : Bool) (g : Fin 32) (at_ : LAddr) (s : State) : Out := .next (syllable k.val (.st .b g at_) stop s)

/-- ST.H (R257, R271). -/
def execStH (k : Fin 13) (stop : Bool) (g : Fin 32) (at_ : LAddr) (s : State) : Out := .next (syllable k.val (.st .h g at_) stop s)

/-- ST.T (R257, R271). -/
def execStT (k : Fin 13) (stop : Bool) (g : Fin 32) (at_ : LAddr) (s : State) : Out := .next (syllable k.val (.st .t g at_) stop s)

/-- ST.W (R257, R271). -/
def execStW (k : Fin 13) (stop : Bool) (g : Fin 32) (at_ : LAddr) (s : State) : Out := .next (syllable k.val (.st .w g at_) stop s)

/-- ST.D (R257, R271). -/
def execStD (k : Fin 13) (stop : Bool) (g : Fin 32) (at_ : LAddr) (s : State) : Out := .next (syllable k.val (.st .d g at_) stop s)

/-- LDX (R271). -/
def execLdx (k : Fin 13) (stop : Bool) (d : Fin 8) (at_ : LAddr) (ecc : Ecc) (s : State) : Out := .next (syllable k.val (.ldx d at_ ecc) stop s)

/-- STX (R271). -/
def execStx (k : Fin 13) (stop : Bool) (d : Fin 8) (at_ : LAddr) (s : State) : Out := .next (syllable k.val (.stx d at_) stop s)

/-- SETW (R271). -/
def execSetw (k : Fin 13) (stop : Bool) (w : Fin 4) (g : Fin 32) (s : State) : Out := .next (syllable k.val (.setw w g) stop s)

/-- NOPC (R272). -/
def execNopc (k : Fin 13) (stop : Bool) (s : State) : Out := .next (syllable k.val (.nopc) stop s)

/-- BR (R272, R273). -/
def execBr (k : Fin 13) (stop : Bool) (tgt : BitVec 16) (s : State) : Out := .next (syllable k.val (.br tgt) stop s)

/-- BZ (R272, R273). -/
def execBz (k : Fin 13) (stop : Bool) (g : Fin 32) (tgt : BitVec 16) (s : State) : Out := .next (syllable k.val (.bz g tgt) stop s)

/-- BNZ (R272, R273). -/
def execBnz (k : Fin 13) (stop : Bool) (g : Fin 32) (tgt : BitVec 16) (s : State) : Out := .next (syllable k.val (.bnz g tgt) stop s)

/-- CALL (R272, R275). -/
def execCall (k : Fin 13) (stop : Bool) (tgt : BitVec 16) (s : State) : Out := .next (syllable k.val (.call tgt) stop s)

/-- RET (R272, R275). -/
def execRet (k : Fin 13) (stop : Bool) (s : State) : Out := .next (syllable k.val (.ret) stop s)

/-- LOOP (R274). -/
def execLoop (k : Fin 13) (stop : Bool) (g : Fin 32) (tgt : BitVec 16) (s : State) : Out := .next (syllable k.val (.loop g tgt) stop s)

/-- WAIT: its bundle is held until the wait ends (R276, R290, R325). -/
def execWait (k : Fin 13) (stop : Bool) (s : State) : Out := .next (syllable k.val (.wait) stop s)

/-- FENCE: its bundle is held until every earlier far store is acknowledged (R258). -/
def execFence (k : Fin 13) (stop : Bool) (s : State) : Out := .next (syllable k.val (.fence) stop s)

/-- RETI (R282, R407). -/
def execReti (k : Fin 13) (stop : Bool) (s : State) : Out := .next (syllable k.val (.reti) stop s)

/-- TRAP: its bundle executes and the entry follows (R272, R279). -/
def execTrap (k : Fin 13) (stop : Bool) (imm : BitVec 16) (s : State) : Out := .next (syllable k.val (.trap imm) stop s)

/-- BRG (R272, R273). -/
def execBrg (k : Fin 13) (stop : Bool) (g : Fin 32) (s : State) : Out := .next (syllable k.val (.brg g) stop s)

/-- CALLG (R272, R275). -/
def execCallg (k : Fin 13) (stop : Bool) (g : Fin 32) (s : State) : Out := .next (syllable k.val (.callg g) stop s)

/-- CSRR (R272, R277). -/
def execCsrr (k : Fin 13) (stop : Bool) (g : Fin 32) (csr : BitVec 12) (s : State) : Out := .next (syllable k.val (.csrr g csr) stop s)

/-- CSRW (R272, R277). -/
def execCsrw (k : Fin 13) (stop : Bool) (g : Fin 32) (csr : BitVec 12) (s : State) : Out := .next (syllable k.val (.csrw g csr) stop s)

/-- CSRS (R272, R277). -/
def execCsrs (k : Fin 13) (stop : Bool) (g : Fin 32) (csr : BitVec 12) (s : State) : Out := .next (syllable k.val (.csrs g csr) stop s)

/-- CSRC (R272, R277). -/
def execCsrc (k : Fin 13) (stop : Bool) (g : Fin 32) (csr : BitVec 12) (s : State) : Out := .next (syllable k.val (.csrc g csr) stop s)

/-! ### Events of a core -/

/-- WAIT_END: a held WAIT executes where its stamp, line or block event has come (R276, R290, R325). -/
def execWaitEnd (k : Fin 13) (dot : Nat) (s : State) : Out :=
  let s := s.atDot dot
  .next (match (s.core k.val).hold with
  | .wait _ => retryHeld k.val s
  | _ => s)

/-- BEAM_LO_READ: CSRR of BEAM_LO, with the dot at which it reads (R277). -/
def execBeamLoRead (k : Fin 13) (stop : Bool) (g : Fin 32) (dot : Nat) (s : State) : Out :=
  .next (syllable k.val (.csrr g 0x30) stop (s.atDot dot))

/-- CYCLE_LO_READ: CSRR of CYCLE_LO, with the scclk that stalls have taken since it was last read (R277). -/
def execCycleLoRead (k : Fin 13) (stop : Bool) (g : Fin 32) (stall : BitVec 48) (s : State) : Out :=
  .next (syllable k.val (.csrr g 0x34) stop
    (onCore k.val (fun c => { c with regs := { c.regs with cycle := c.regs.cycle + stall } }) s))

/-- IVEC_CLAIM: CSRR of IVEC (R277, R406). -/
def execIvecClaim (k : Fin 13) (stop : Bool) (g : Fin 32) (s : State) : Out := .next (syllable k.val (.csrr g 0x006) stop s)

/-- TRAP_ENTRY: a trap that no syllable of the table raises is taken (R260, R262, R263, R278). A word that names an operation is
not illegal; a corrected error of a fetched syllable is counted alone. A core that is to stop at the boundary it stands at fetches
and takes nothing more (R287). -/
def execTrapEntry (k : Fin 13) (cause : TrapCause) (s : State) : Out :=
  let k := k.val
  let c := s.core k
  .next (if !c.live || (k != 12 && s.stopped) || c.hold != .none || (c.bundle.isEmpty && c.stopDue != .none) then s
  else match cause with
    | .illegal w => if (decodeSyl w).isSome then s else preciseTrap k 1 c.regs.pc none s
    | .fetchErr ecc => preciseTrap k 2 c.regs.pc none (if ecc then countEcc k (.uncorrectable 0) s else s)
    | .corrected => countEcc k .corrected s
    | .pending =>
      match c.imprecise with
      | e :: t =>
        if c.regs.exl || !c.bundle.isEmpty then s
        else enter k e.code true c.regs.pc (some (e.sp, e.ea)) (onCore k (fun c => { c with imprecise := t }) s)
      | [] => s)

/-- INTERRUPT_ENTRY: a presented interrupt is taken at a boundary or during WAIT (R281), one that was masked since too (R411). An imprecise trap that waits at the
boundary goes first (R278), and a stop that is due there takes the boundary (R287). -/
def execInterruptEntry (k : Fin 13) (s : State) : Out :=
  let k := k.val
  let c := s.core k
  let held := match c.hold with | .wait _ => true | _ => false
  .next (if c.live && (k == 12 || !s.stopped) && c.atBoundary && c.stopDue == .none && c.regs.ie && !c.regs.exl && s.presented k
      && (held || c.imprecise.isEmpty) then
    enter k 16 false c.regs.pc none (lateTaken k s)
  else s)

/-- LOCKSTEP_MISMATCH: both cores of the Cellar pair stop at the next bundle boundary, and a WDT reset is due (R284, R448). A pair
that runs nothing compares nothing. -/
def execLockstepMismatch (s : State) : Out :=
  .next (if (s.core 12).live then
    let s := stopAtBoundary 12 (onCore 12 (fun c => { c with stopDue := .halt }) s)
    { s with cellar := { s.cellar with wdtDue := s.cellar.wdtDue.or (some 2) } }
  else s)

/-- SEQ_LEAVE_RESET: a started sequencer leaves reset, at once or at a frame start of its pipe (R286). -/
def execSeqLeaveReset (p : Fin 8) (s : State) : Out :=
  let p := p.val
  let c := s.core p
  .next (match c.armed with
  | none => s
  | some f =>
    if c.armFrame && s.rd (F.pipeFrames_COUNT p) == f then s
    else leaveReset p (s.rd (F.seqCtl_ENTRY p)) s)

/-- SEQ_HALT: a commanded stop reaches a bundle boundary (R287). -/
def execSeqHalt (p : Fin 8) (s : State) : Out :=
  let c := s.core p.val
  .next (if c.live && c.stopDue == .halt && c.atBoundary then stopCore p.val s else s)

/-- SEQL_KICK (R299). -/
def execSeqlKick (p : Fin 8) (s : State) : Out := .next (seqKick p.val s)

/-- SEQL_DOORBELL (R301). -/
def execSeqlDoorbell (p : Fin 8) (s : State) : Out := .next (seqDoorbell p.val s)

/-- SEQ_WDT_EXPIRE: the watchdog's count has reached SEQ_WDT_LINES (R299). A core that is already to stop is left to that stop. -/
def execSeqWdtExpire (p : Fin 8) (s : State) : Out :=
  let p := p.val
  let n := s.rd (F.seqWdt_LINES p)
  .next (if (s.core p).live && (s.core p).stopDue == .none && n != 0 && n ≤ (s.core p).wdt then stopAtBoundary p (onCore p (fun r => { r with stopDue := .wdt, wdt := 0 }) s)
  else s)

/-- AUD_CORE_LEAVE_RESET: a started audio core leaves reset and its exchange begins (R324, R326). -/
def execAudCoreLeaveReset (c : Fin 4) (s : State) : Out :=
  let c := c.val
  .next (if (s.core (8 + c)).armed.isSome then
    onAudCore c (fun _ => { on := true, live := true, pos := 0, blocks := 0, done := false, play := false, wdt := 0 })
      (leaveReset (8 + c) (s.rd (F.audCoreEntry_ENTRY c)) s)
  else s)

/-- AUDL_DONE (R326). -/
def execAudlDone (c : Fin 4) (s : State) : Out := .next (audlDone c.val s)

/-- AUDL_KICK (R328). -/
def execAudlKick (c : Fin 4) (s : State) : Out := .next (audlKick c.val s)

/-- AUDL_DOORBELL (R336). -/
def execAudlDoorbell (c : Fin 4) (s : State) : Out := .next (audlDoorbell c.val s)

/-- AUD_CORE_WDT_EXPIRE: the watchdog's count has reached AUD_CORE_WDT_BLOCKS (R328). A core that is already to stop is left to that
stop. -/
def execAudCoreWdtExpire (c : Fin 4) (s : State) : Out :=
  let c := c.val
  let n := s.rd (F.audCoreWdt_BLOCKS c)
  .next (if (s.core (8 + c)).live && (s.core (8 + c)).stopDue == .none && n != 0 && n ≤ (s.audCore c).wdt then
    stopAtBoundary (8 + c) (onCore (8 + c) (fun r => { r with stopDue := .wdt }) (onAudCore c (fun r => { r with wdt := 0 }) s))
  else s)

end Sys2Proof.Machine
end

