-- ==== Sys2Proof/Machine/Applied.lean ====
section
/-! DEFINITION. What follows a write of a register that firmware owns: enables that start and stop units, routes, power states, and
the self-clearing bits. The Cellar's register writes and its parameters pass through here alike (R18, R31). -/

namespace Sys2Proof.Machine

/-- A field went from 0 to another value, or the other way, or changed at all. -/
def rose (old s : State) (f : Fld) : Bool := old.rd f == 0 && s.rd f != 0
def fell (old s : State) (f : Fld) : Bool := old.rd f != 0 && s.rd f == 0
def moved (old s : State) (f : Fld) : Bool := old.rd f != s.rd f

/-- The frame-latched registers of a disabled pipe take effect at once (R185). -/
def settle (p : Nat) (s : State) : State := if s.pipeOn p then s else latchOff p s

/-- A pipe's register was written: PIPE_EN enables it; a disable acts at its latch line (R172, R185). -/
def pipeApplied (p : Nat) (s : State) : State :=
  if s.pipeOn p then s
  else if s.flag (F.pipeCtl_EN p) && s.usable 18 p then pipeEnable p s else latchOff p s

/-- A lock's control register was written (R56, R60). -/
def lockApplied (n : Nat) (old s : State) : State :=
  if rose old s (F.lockCtl_EN n) then (if s.pipeOn n then lockRestart n s else s)
  else if fell old s (F.lockCtl_EN n) then lockOff n s else s

/-- A port's control register was written (R194, R195, R197). -/
def portApplied (k : Nat) (old s : State) : State :=
  let pipe := s.rd (F.portCtl_PIPE k)
  if rose old s (F.portCtl_EN k) then portSends k (portStart k (s.wr (F.portStatus_PIPE k) pipe))
  else if fell old s (F.portCtl_EN k) then portStop k s
  else if !s.flag (F.portCtl_EN k) then s
  else
    let s := if moved old s (F.portCtl_LANES k) || moved old s (F.portCtl_RATE k) || moved old s (F.portCtl_EDP k) then portStart k s else s
    if moved old s (F.portCtl_PIPE k) then portRoute k s else s

/-- A plane engine's register was written, `latched` where it is frame-latched: an engine in no pipe takes it at once, its parameter bases too (R134); the pipes it is in
or goes to take it at once while they are off (R107, R185), and one that waits to join fetches line 0 anew (R134). -/
def planeApplied (n : Nat) (latched : Bool) (s : State) : State :=
  let s := match (s.plane n).pipe with
    | some p => settle p s
    | none => (paramBases n (onPlane n (fun r => { r with paramBase := true }) (planeLatch n s))).iff latched (joinLate n)
  if s.flag (F.planeCfg_EN n) then settle (s.rd (F.planeCfg_PIPE n)) s else s

/-- A CSI-2 port's control register was written (R206). -/
def csiApplied (k : Nat) (old s : State) : State :=
  if rose old s (F.csiCtl_EN k) then csiEnable k s else if fell old s (F.csiCtl_EN k) then csiDisable k s else s

/-- A stream's control register was written (R206, R214). EN of a stream that a feed binds reads 1 whatever is written (R520). -/
def streamApplied (n : Nat) (old s : State) : State :=
  if (s.feedOf n).isSome then s.set1 (F.streamCtl_EN n)
  else if rose old s (F.streamCtl_EN n) then streamEnable n s else if fell old s (F.streamCtl_EN n) then streamDisable n s else s

/-- A stream's frame-sync register was written: a change of mode enables the frame sync anew, and its count of reference frames with it; a
change of pipe drops what the old one armed (R216). -/
def fsyncApplied (n : Nat) (old s : State) : State :=
  if moved old s (F.streamFsync_MODE n) then onStream n (fun r => { r with syncFrames := 0, syncArmed := [] }) s
  else if moved old s (F.streamFsync_PIPE n) then onStream n (fun r => { r with syncArmed := [] }) s else s

/-- An ASRC bridge's control register was written (R322). -/
def asrcApplied (b : Nat) (old s : State) : State :=
  if fell old s (F.asrcCtl_EN b) then
    onAud (fun a => { a with fade := a.fade.set b 0 }) ((s.clr (F.asrcStatus_LOCKED b)).wr (F.asrcStatus_RATIO b) 0) else s

/-- A domain's control register was written: with EXT = 0 the internal synthesiser clocks it (R304, R307). -/
def domApplied (d : Nat) (old s : State) : State :=
  if fell old s (F.audDomCtl_EXT d) then (s.clr (F.audDomStatus_EXT_ACTIVE d)).clr (F.audDomStatus_EXT_LOST d) else s

/-- A link's audio register was written: its channels start anew, and the link retrains (R527, R530; DEDUCED, assumption 65). -/
def linkAudioApplied (l : Nat) (old s : State) : State :=
  if moved old s (F.cascLAud_EN l) || moved old s (F.cascLAud_DOMAIN l) then
    linkRetrain l (onAud (fun a => { a with links := modAt a.links l fun _ => ⟨[], false, []⟩ }) (onLink l (fun k => { k with audioOut := [] }) s))
  else s

/-- A feed's control register was written (R520). -/
def feedApplied (k : Nat) (old s : State) : State :=
  if moved old s (F.cascFeedCtl_EN k) || moved old s (F.cascFeedCtl_STREAM k) then
    feedWritten k (old.flag (F.cascFeedCtl_EN k)) (old.rd (F.cascFeedCtl_STREAM k)) s
  else s

/-- A Cascade register was written. -/
def cascApplied (off : Nat) (old s : State) : State :=
  let o := off - 0xE00000
  if 0x100 ≤ o ∧ o < 0x200 then
    let l := (o - 0x100) / 0x80
    if o % 0x80 = 0 then
      (if moved old s (F.cascLCtl_EN l) || moved old s (F.cascLCtl_LANES_MAX l) || moved old s (F.cascLCtl_C0_CREDITS l) then
        linkCtlWritten l (old.flag (F.cascLCtl_EN l)) s else s)
    else if o % 0x80 = 0x18 then linkAudioApplied l old s else s
  else if 0x400 ≤ o ∧ o < 0x480 ∧ o % 0x10 = 0 then feedApplied ((o - 0x400) / 0x10) old s
  else s

/-- An audio register was written. -/
def audioApplied (off : Nat) (old s : State) : State :=
  let o := off - 0xA00000
  if o < 0xC0 then (if o % 0x40 = 0 then domApplied (o / 0x40) old s else s)
  else if 0x100 ≤ o ∧ o < 0x300 ∧ o % 0x40 = 0 then tdmCtlWritten ((o - 0x100) / 0x40) (old.flag (F.tdmCtl_EN ((o - 0x100) / 0x40))) s
  else if 0x300 ≤ o ∧ o < 0x360 ∧ o % 0x10 = 0 then asrcApplied ((o - 0x300) / 0x10) old s
  else if 0x600 ≤ o ∧ o < 0x680 ∧ o % 0x20 = 0 then
    let c := (o - 0x600) / 0x20
    if moved old s (F.audCoreCtl_RUN c) then runWritten (8 + c) (s.flag (F.audCoreCtl_RUN c)) s else s
  else s

/-- A timer's register was written (R389, R395). COUNT and CMP have operations of their own. -/
def timerApplied (n o : Nat) (old s : State) : State :=
  match o with
  | 0 => timerCtlWritten n s
  | 8 => timerLockWritten n (old.flag (F.timerLock_EN n) && old.rd (F.timerLock_PIPE n) == s.rd (F.timerLock_PIPE n)) s
  | _ => s

/-- What follows a write of the register at IRS offset `off`, from the state before it and the state with its fields written. -/
def regApplied (off : Nat) (old s : State) : State :=
  match off / 0x100000 with
  | 1 => if 0x101000 ≤ off then deliver s else s
  | 2 => if 0x200100 ≤ off ∧ off < 0x200200 ∧ off % 0x20 = 0 then lockApplied ((off - 0x200100) / 0x20) old s else s
  | 3 =>
    if off < 0x310000 then
      let p := (off - 0x300000) / 0x2000
      if off % 0x2000 = 0x400 then pipeApplied p s else if 0x400 < off % 0x2000 then settle p s else s
    else if off < 0x310800 then (if off % 0x100 = 0 then portApplied ((off - 0x310000) / 0x100) old s else s)
    else if 0x320000 ≤ off then settle ((off - 0x320000) / 0x8000 % 8) s else s
  | 4 => if 0x401000 ≤ off ∧ off < 0x403000 then planeApplied ((off - 0x401000) / 0x100) (off % 0x100 < 0x40) s else s
  | 5 =>
    if 0x531000 ≤ off ∧ off % 0x40 = 0 then
      let p := (off - 0x531000) / 0x40
      if s.pipeOn p then s else latchRange off (off + 4) s
    else if 0x531000 ≤ off ∧ off % 0x40 = 8 then
      -- bits [5:0] read as 0; with both counts 0 no check asks for an aligned address (R164, R167)
      let f := F.harpPipeStageAddr_ADDR ((off - 0x531000) / 0x40)
      s.wr f (s.rd f / 64 * 64)
    else s
  | 6 =>
    if off < 0x600400 ∧ off % 0x100 = 0 then csiApplied ((off - 0x600000) / 0x100) old s
    else if 0x601000 ≤ off ∧ off % 0x100 = 0 then streamApplied ((off - 0x601000) / 0x100) old s
    else if 0x601000 ≤ off ∧ off % 0x100 = 0x28 then fsyncApplied ((off - 0x601000) / 0x100) old s else s
  | 7 => if off < 0x708000 then settle ((off - 0x700000) / 0x1000) s else s
  | 10 => audioApplied off old s
  | 11 => if off < 0xB01000 then timerApplied ((off - 0xB00000) / 0x40) (off % 0x40) old s else s
  | 12 => if off < 0xC00700 ∧ (off % 0x10 = 0 ∨ off % 0x10 = 4) then pinCfgWritten ((off - 0xC00000) / 0x10) old s else s
  | 14 => cascApplied off old s
  | 15 =>
    if off < 0xF00200 ∧ off % 0x40 = 0 then
      let p := (off - 0xF00000) / 0x40
      if moved old s (F.seqCtl_RUN p) then runWritten p (s.flag (F.seqCtl_RUN p)) s else s
    else s
  | _ => s

end Sys2Proof.Machine
end

