-- ==== Sys2Proof/Machine/Bus.lean ====
section
/-! DEFINITION. The register bus and the device address space: who reaches which region (R25 to R34), reads and writes of registers
with their own operations, the mailbox areas, and the host and peer windows. -/

namespace Sys2Proof.Machine

/-! ### Registers: trimming, visibility, ownership (R30 to R34, R534) -/

/-- A register that the sequencer of pipe `p` may write (R293). -/
def State.seqSees (s : State) (p off : Nat) : Bool :=
  match off / 0x100000 with
  | 3 =>
    let o := off - pipeOff p
    pipeOff p ≤ off && (o == 0 || (0x100 ≤ o && o < 0x1C0) || o == 0x430 || o == 0x434)
  | 4 =>
    if 0x401000 ≤ off ∧ off < 0x403000 then
      0x40 ≤ off % 0x100 && off % 0x100 < 0xC0 && (s.plane ((off - 0x401000) / 0x100)).pipe == some p
    else 0x480000 ≤ off && off < 0x490000 && (s.plane ((off - 0x480000) / 0x800)).pipe == some p
  | 5 =>
    if off < 0x520000 then s.rd (F.harpGrp_OWNER ((off - 0x500000) / 32 / 64)) == p
    else off < 0x524000 && s.rd (F.harpGrp_OWNER ((off - 0x520000) / 16 / 16)) == p
  | _ => false

/-- A register that an audio core may write (R327). -/
def audSees (off : Nat) : Bool :=
  (0xA10000 ≤ off && off < 0xA20000) || off == 0xA003C4 || off == 0xA003CC ||
    (0xA00400 ≤ off && off < 0xA00600 && off % 0x40 < 0x18)

/-- The register found is a commit or list-start register of a pipe or engine that a service holds (R477). -/
def State.heldStart (s : State) (h : RegHit) : Bool :=
  match h.row.base with
  | 0x300000 => s.heldRes 0x30 h.i
  | 0x300100 => s.heldRes 0x30 h.i
  | 0x300108 => s.heldRes 0x30 h.i
  | 0x800000 => s.heldRes 0x80 h.i
  | 0x800004 => s.heldRes 0x80 h.i
  | 0x900000 => s.heldRes 0x90 h.i
  | 0x900004 => s.heldRes 0x90 h.i
  | _ => false

/-- A direct write of the register found may take effect (R30 to R32, R293, R327, R477, R525). Enable and pending addresses and
object memory decide for themselves. -/
def State.writable (s : State) (who : Initiator) (h : RegHit) : Bool :=
  let t := initiatorTag who
  if t == .host && s.heldStart h then false
  else match who with
    | .peer _ => if h.row.base = 0x2000 then bitAt (s.prm P.cascPeerMbx) h.i else h.row.owner == .host
    | .dma _ .peer => if h.row.base = 0x2000 then bitAt (s.prm P.cascPeerMbx) h.i else mayWrite (h.row.owner == .host) none false t
    | .seq p => s.seqSees p.val h.off
    | .audio _ => audSees h.off
    | _ => mayWrite (h.row.owner == .host) none false t

/-! ### Register writes -/

/-- The value of a field after a write of bits `[lo, lo + n)` of its register. -/
def State.merged (s : State) (f : Fld) (lo n data : Nat) : Nat :=
  let (at_, w, v) := f.part lo n data
  if w = 0 then s.rd f else setBitsAt (s.rd f) at_ w v

/-- A one-bit self-clearing or write-only field is written 1. -/
def strobes (f : Fld) (lo n data : Nat) : Bool := let (_, w, v) := f.part lo n data; w != 0 && v != 0

/-- A write of bits `[lo, lo + n)` of a register covers a part of a field. -/
def covers (f : Fld) (lo n : Nat) : Bool := (f.part lo n 0).2.1 != 0

/-- How a mailbox is rung through the register bus. -/
def viaOf (who : Initiator) : Via :=
  match who with
  | .bar x => if x then .xspi else .pcie
  | .dataPort x => if x then .xspi else .pcie
  | .peer n => .peer n
  | .dma _ .peer => .peer 0
  | .dma _ .host => .pcie
  | _ => .cellar

/-- A permitted write of bits `[lo, lo + n)` of the register found: its own operation, or its fields and what follows. -/
def writeReg (who : Initiator) (h : RegHit) (lo n data : Nat) (s : State) : State :=
  let t := initiatorTag who
  let i := h.i
  let fields (s : State) : State := writeFlds h.flds lo n data s
  let word := bitsAt data 0 n * 2 ^ lo
  match h.row.base with
  | 0x200004 => if strobes F.refCtl_APPLY lo n data then refApply s else s
  | 0xD00004 => let s := fields s; if strobes F.vatCtl_INIT lo n data then vatInitStart s else s
  | 0xD01000 => (fields s).iff (covers (F.vatBankCtl_PWR i) lo n) fun s => bankCommand i (s.rd (F.vatBankCtl_PWR i)) s
  | 0x300000 => pipeCommit t i (bitsAt word 0 12) (bitsAt word 16 16) s
  | 0x800000 => pressStage i (s.merged (F.pressStartLo_ADDR i) lo n data) s
  | 0x800004 => pressStart i (bitsAt word 0 8) s
  | 0x800008 => if strobes (F.pressCtl_ABORT i) lo n data then pressAbort i s else s
  | 0x900000 => dmaStage i (s.merged (F.chStartLo_ADDR i) lo n data) s
  | 0x900004 => dmaStart t i (bitsAt word 0 8) s
  | 0x900008 => let s := fields s; if strobes (F.chCtl_STOP i) lo n data then dmaStop i s else s
  | 0xA003C4 => gainWrite (16384 + i) (s.merged (F.stGain_TARGET i) lo n data) s
  | 0xA10000 => gainWrite (i * 128 + h.j) (s.merged (F.xpGain_TARGET i h.j) lo n data) s
  | 0xA0040C => playCtlWrite t i (setBitsAt (s.playSettings i) lo n data) s
  | 0xB00010 => timerWriteCmp i (s.merged (F.timerCmp_VALUE i) lo n data) s
  | 0xB00018 => timerWriteCount i (s.merged (F.timerCount_COUNT i) lo n data) s
  | 0x2000 => if strobes (F.mbxDoorbell_RING i) lo n data then ringDoorbell (viaOf who) i s else s
  | 0x2004 => headWrite i (s.merged (F.mbxHeadDb_HEAD i) lo n data) none s
  | 0x100C => dpPrefetch (bitsAt word 0 10) s
  | 0xC00820 => pinDout false true word s
  | 0xC00828 => pinDout true true word s
  | 0xC00830 => pinDout false false word s
  | 0xC00838 => pinDout true false word s
  | 0xC00860 => pinFlagClear false word s
  | 0xC00868 => pinFlagClear true word s
  | 0x401054 => onPlane i (fun r => { r with dirtyX := true }) (regApplied h.off s (fields s))
  | 0x401058 => onPlane i (fun r => { r with dirtyY := true }) (regApplied h.off s (fields s))
  | _ => regApplied h.off s (fields s)

/-- What became of a register write. -/
inductive WriteEnd where
  | done | dropped | reserved
deriving DecidableEq, Repr

/-- A write is dropped (R31); a sequencer's is counted in its slot register too (R293). -/
def dropWrite (who : Initiator) (off data : Nat) (s : State) : WriteEnd × State :=
  (.dropped, droppedBy (initiatorTag who) off data s)

/-- A write of bits `[lo, lo + n)` of the register at offset `off`, of 4 or 8 bytes where the whole is written. -/
def writeAt (who : Initiator) (off lo n data : Nat) (s : State) : WriteEnd × State :=
  let t := initiatorTag who
  match findReg off with
  | none => (.reserved, decodeError who (irsBase + off) s)
  | some h =>
    let lo := if h.high then lo + 32 else lo
    if s.shutOut who off then dropWrite who off data s
    else if 0x100000 ≤ h.row.base ∧ h.row.base < 0x100010 then
      let r : IntcReg := match h.row.base % 0x10 with | 0 => .enSet | 4 => .enClr | 8 => .pendSet | _ => .pendClr
      match who with
      | .seq _ => dropWrite who off data s
      | _ => (.done, intcWrite t r h.i (bitsAt data 0 n * 2 ^ lo) s)
    else if 0x500000 ≤ off ∧ off < 0x524000 then
      (.done, harpWrite t (off - 0x500000) (n == 64) (s.harpMerged t (off - 0x500000) (lo % 32) n data) s)
    else if s.writable who h then (.done, writeReg who h lo n data s)
    else dropWrite who off data s

/-! ### Register reads (R33, R54, R55) -/

/-- Bits of a flag of each of `n` instances. -/
def maskOf (n : Nat) (f : Nat → Bool) : Nat := (List.range n).foldl (fun m i => if f i then m + 2 ^ i else m) 0

/-- The domain that a crosspoint register shows: 3 where there is none (R314, R337). -/
def domCode (d : Option Nat) : Nat := d.getD 3

/-- Event `b` of an engine's STATUS, of this frame or the last (R139, R144). -/
def State.planeEvt (s : State) (n : Nat) (now : List (Nat → Fld)) (bits : List Nat) : Bool :=
  now.any (fun f => s.flag (f n)) || bits.any fun b => bitAt (s.rd (F.planeStatus_LAST n)) (b - 1)

/-- The present value of the register found, high word and all. Tables read what is in force (R204). -/
def regNow (h : RegHit) (s : State) : Nat × State :=
  let plain := s.regValue h
  match h.row.base with
  | 0x901000 => (maskOf 64 fun n => s.rd (F.chStatus_STATE n) != 0, s)
  | 0xB01000 => (maskOf 64 fun n => s.flag (F.timerCtl_EN n), s)
  | 0x400010 => (maskOf 32 fun n => s.planeEvt n [F.planeStatus_CLAMP_H, F.planeStatus_CLAMP_V] [2, 3], s)
  | 0x400014 => (maskOf 32 fun n => s.planeEvt n [F.planeStatus_BAD_TILE] [4], s)
  | 0x400018 => (maskOf 32 fun n => s.planeEvt n [F.planeStatus_NO_FRAME] [6], s)
  | 0x40001C => (maskOf 32 fun n => s.planeEvt n [F.planeStatus_UNDERRUN] [1], s)
  | 0x530010 => (maskOf 8 fun p => s.flag (F.harpPipeStatus_OVF_COUNT p) || bitAt (s.rd (F.harpPipeStatus_LAST p)) 0, s)
  | 0x530014 => (maskOf 8 fun p => s.flag (F.harpPipeStatus_OVF_TIME p) || bitAt (s.rd (F.harpPipeStatus_LAST p)) 1, s)
  | 0x530018 => (maskOf 8 fun p => s.flag (F.harpPipeStatus_UNDERRUN p) || bitAt (s.rd (F.harpPipeStatus_LAST p)) 2, s)
  | 0x53001C => (maskOf 8 fun p => s.flag (F.harpPipeStatus_BAD_OBJ p) || bitAt (s.rd (F.harpPipeStatus_LAST p)) 3, s)
  | 0x600800 => (s.cam.evtCur.getD 0 0 ||| s.cam.evtLast.getD 0 0, s)
  | 0x600804 => (s.cam.evtCur.getD 1 0 ||| s.cam.evtLast.getD 1 0, s)
  | 0x600808 => (s.cam.evtCur.getD 2 0 ||| s.cam.evtLast.getD 2 0, s)
  | 0x60080C => (s.cam.evtCur.getD 3 0 ||| s.cam.evtLast.getD 3 0, s)
  | 0x600810 => (s.cam.evtCur.getD 4 0 ||| s.cam.evtLast.getD 4 0, s)
  | 0xA01000 => (s.rd (F.xpIn_SRC h.i) + domCode (s.inDomain h.i) * 2 ^ 16, s)
  | 0xA01400 => (s.rd (F.xpOut_DST h.i) + domCode (s.outDomain h.i) * 2 ^ 16, s)
  | 0xC00800 => (maskOf 64 fun i => s.flag (F.pinState_SYNC i), s)
  | 0xC00808 => (maskOf 48 fun i => s.flag (F.pinState_SYNC (64 + i)), s)
  | 0xC00008 =>
    let (k, s) := s.fresh
    let (oe, out) := s.pad h.i k
    (setBitsAt (setBitsAt plain 2 1 (bit oe)) 3 1 (bit out), s)
  | 0xD00010 => let s := bgtProgress s; (s.regValue h, s)
  | 0xE00014 => (plain, popPeerFifo s)
  | b =>
    if 0x320000 ≤ b ∧ b < 0x360000 then
      -- reads return the active tables: TL and TE as TF selects them (R176, R204)
      let p := h.i
      let o := h.off % 0x8000
      if o < 0x1400 then (s.tl p (o / 4), s)
      else if o < 0x2800 then (s.te p ((o - 0x1400) / 4), s)
      else (h.flds.foldl (fun a f => a + s.lat f * 2 ^ f.lsb) 0, s)
    else (plain, s)

/-- The shadow that tag `t` holds of the register at `off`, and the state without it. -/
def takeShadow (t : Tag) (off : Nat) (s : State) : Option Nat × State :=
  (((s.ref.shadows.find? fun x => x.tag == t && x.off == off).map (·.value)),
    { s with ref := { s.ref with shadows := s.ref.shadows.filter fun x => !(x.tag == t && x.off == off) } })

def putShadow (t : Tag) (off v : Nat) (s : State) : State :=
  let s := (takeShadow t off s).2
  { s with ref := { s.ref with shadows := ⟨t, off, v⟩ :: s.ref.shadows } }

/-- BEAM_NOW's offset, and BEAM_EPOCH's. -/
def beamNowOff : Nat := 0x200008
def beamEpochOff : Nat := 0x200010

/-- A read of a part of a 64-bit register by one tag, with its shadow (R54). BEAM_NOW shadows the epoch too. -/
def readWide (t : Tag) (h : RegHit) (part : ReadPart) (s : State) : Nat × State :=
  let off := h.off
  let epoch (s : State) : State := if off = beamNowOff then putShadow t beamEpochOff (s.rd F.beamEpoch_EPOCH) s else s
  match part with
  | .whole =>
    let s := (takeShadow t off s).2
    let (v, s) := regNow h s
    (v, epoch s)
  | .low =>
    let (v, s) := regNow h s
    (v % 2 ^ 32, putShadow t off (v / 2 ^ 32) (epoch s))
  | .high =>
    match takeShadow t off s with
    | (some v, s) => (v, s)
    | (none, s) =>
      let (v, s) := regNow h s
      (v / 2 ^ 32, s)

/-- A read of BEAM_EPOCH: the shadow of the tag's last BEAM_NOW read, or the live value (R55). -/
def readEpoch (t : Tag) (s : State) : Nat × State :=
  match takeShadow t beamEpochOff s with
  | (some v, s) => (v, s)
  | (none, s) => (s.rd F.beamEpoch_EPOCH, s)

/-- A read of the register at offset `off`: 8 bytes of a 64-bit register, or a word. `none` where it is reserved. -/
def readAt (who : Initiator) (off : Nat) (whole : Bool) (s : State) : Option (Nat × State) :=
  let t := initiatorTag who
  match findReg off with
  | none => none
  | some h =>
    if s.irsTrimmed off then some (0, s)
    else
      let part : ReadPart := if whole then .whole else if h.high then .high else .low
      if h.off = beamEpochOff then some (readEpoch t s)
      else if h.row.base = 0xB00018 then some (timerReadCount t h.i s)
      else if h.row.base = 0xB00020 then some (timerReadCapture h.i part s)
      else if h.row.wide then some (readWide t h part s)
      else some (regNow h s)

/-! ### The IRS by bytes -/

/-- The mailbox areas and rings, which are memory (R420, R431). -/
def isArea (off : Nat) : Bool := 0x20000 ≤ off && off < 0x50000

/-- Bytes cut at multiples of `unit`: offset and bytes of each piece; `fuel` bounds them. -/
def cutAt (unit : Nat) : Nat → Nat → List Byte → List (Nat × List Byte)
  | 0, _, _ => []
  | fuel + 1, off, bs => if bs.isEmpty then [] else
      let m := unit - off % unit
      (off, bs.take m) :: cutAt unit fuel (off + m) (bs.drop m)

/-- Bytes cut at word boundaries. -/
def wordPieces (fuel off : Nat) (bs : List Byte) : List (Nat × List Byte) := cutAt 4 fuel off bs

/-- A write into one mailbox area (R421): request areas take it while the mailbox is not BUSY; response areas and rings only from the
Cellar. -/
def areaPiece (who : Initiator) (off : Nat) (bs : List Byte) (s : State) : State :=
  let t := initiatorTag who
  let m := (off - 0x20000) / 0x2000
  let request := off < 0x40000 && off % 0x2000 < 0x1000
  let free := request && s.rd (F.mbxStatus_STATE m) != 1
  let ok := match t with
    | .cellar => free || !request
    | .host => free
    | .peer => free
    | _ => false
  if ok then s.setBytes (irsBase + off) bs else (dropWrite who off (leNat (bs.take 4)) s).2

/-- A write into the mailbox areas, each of 4 KB (R420, R421). -/
def areaWrite (who : Initiator) (off : Nat) (bs : List Byte) (s : State) : State :=
  s.forL (cutAt 0x1000 (bs.length / 0x1000 + 2) off bs) fun p s => areaPiece who p.1 p.2 s

/-- A write of the IRS: 8 aligned bytes of a 64-bit register as one, anything else word by word, lower address first (R34, R257,
R436). The flag is a bus error. -/
def irsWrite (who : Initiator) (off : Nat) (bs : List Byte) (s : State) : Bool × State :=
  if isArea off then (false, areaWrite who off bs s)
  else if off < 0x1000 then (true, decodeError who (irsBase + off) s)
  else if bs.length = 8 ∧ off % 8 = 0 ∧ ((findReg off).any fun h => h.row.wide || h.row.base < 0x528000 && 0x500000 ≤ h.row.base) then
    let (e, s) := writeAt who off 0 64 (leNat bs) s
    (e == .reserved, s)
  else
    (wordPieces (bs.length + 1) off bs).foldl (fun (a : Bool × State) p =>
      let (e, s) := writeAt who (p.1 / 4 * 4) (p.1 % 4 * 8) (p.2.length * 8) (leNat p.2) a.2
      (a.1 || e == .reserved, s)) (false, s)

/-- A read of the IRS in the same way. -/
def irsRead (who : Initiator) (off n : Nat) (s : State) : List Byte × Bool × State :=
  if isArea off then (s.bytesAt (irsBase + off) n, false, s)
  else if off < 0x1000 then (onesBytes n, true, decodeError who (irsBase + off) s)
  else if n = 8 ∧ off % 8 = 0 ∧ (findReg off).any fun h => h.row.wide then
    match readAt who off true s with
    | some (v, s) => (natLE 8 v, false, s)
    | none => (onesBytes n, true, decodeError who (irsBase + off) s)
  else
    (wordPieces (n + 1) off (List.replicate n 0#8)).foldl (fun (a : List Byte × Bool × State) p =>
      match readAt who (p.1 / 4 * 4) false a.2.2 with
      | some (v, s) => (a.1 ++ ((natLE 4 v).drop (p.1 % 4)).take p.2.length, a.2.1, s)
      | none => (a.1 ++ onesBytes p.2.length, true, decodeError who (irsBase + p.1) a.2.2)) ([], false, s)

/-! ### The device address space (R25 to R29) -/

/-- An address range of a core's memories (R28). -/
def localOk (k a n : Nat) : Bool :=
  (progBase k ≤ a && a + n ≤ progBase k + 4 * progSize k) || (dataBase k ≤ a && a + n ≤ dataBase k + dataSize k)

/-- The host memory window is open (R29): no host is attached over xSPI, the PCIe link is up and bus mastering enabled. A host counts as
attached over xSPI while the xSPI target is enabled (R591; DEDUCED, assumption 118). -/
def State.hostOpen (s : State) : Bool := !s.flag F.pinStraps_XSPI_TGT_EN && s.hif.pcieUp && s.hif.busMaster

/-- The host bus address of an address of the host memory window (R29). -/
def State.hostBus (s : State) (a : Nat) : Nat := s.prm P.hostwinBase + (a - 0x8000000000)

/-- A read by an initiator. The flag is a bus-error response. -/
def busRead (who : Initiator) (a n : Nat) (s : State) : List Byte × Bool × State :=
  let r := regionOf a
  let bad : List Byte × Bool × State := (onesBytes n, true, decodeError who a s)
  if !reaches who r then bad
  else match r with
  | .lp5x => memRead who a n s
  | .vat => vatRead who vatBase (n / 64 + 2) (a - vatBase) n s
  | .setAlias => vatRead who setAliasBase (n / 64 + 2) (a - setAliasBase) n s
  | .clearAlias => vatRead who clearAliasBase (n / 64 + 2) (a - clearAliasBase) n s
  | .peer p =>
    let off := (a - 0x4400000000) % 0x100000000
    if (s.routeTo p).isSome && windowMaps off n then peerRead p (n / 64 + 2) off n s else bad
  | .irs => irsRead who (a - irsBase) n s
  | .local k => if localOk k a n then (s.bytesAt a n, false, s) else bad
  | .host =>
    if !s.hostOpen then bad
    else
      let s := { s with hif := { s.hif with out := .memRead (s.hostBus a) n :: s.hif.out } }
      if s.hif.hostIn.length < n then (onesBytes n, true, { s with hif := { s.hif with hostIn := [] } })
      else (s.hif.hostIn.take n, false, { s with hif := { s.hif with hostIn := s.hif.hostIn.drop n } })
  | .none => bad

/-- A write by an initiator. The flag is a bus-error response. -/
def busWrite (who : Initiator) (a : Nat) (bs : List Byte) (s : State) : Bool × State :=
  let r := regionOf a
  let bad : Bool × State := (true, decodeError who a s)
  if !reaches who r then bad
  else match r with
  | .lp5x => memWrite who a bs s
  | .vat => vatWrite who .plain (bs.length / 64 + 2) (a - vatBase) bs s
  | .setAlias => vatWrite who .setBits (bs.length / 64 + 2) (a - setAliasBase) bs s
  | .clearAlias => vatWrite who .clearBits (bs.length / 64 + 2) (a - clearAliasBase) bs s
  | .peer p =>
    let off := (a - 0x4400000000) % 0x100000000
    if (s.routeTo p).isSome && windowMaps off bs.length then peerWrite p (bs.length / 64 + 2) off (bs.map some) s else bad
  | .irs => irsWrite who (a - irsBase) bs s
  | .local k => if localOk k a bs.length then (false, s.setBytes a bs) else bad
  | .host =>
    if !s.hostOpen then bad
    else (false, { s with hif := { s.hif with out := .memWrite (s.hostBus a) bs :: s.hif.out } })
  | .none => bad

/-! ### Commands of the register bus -/

/-- A host access that BAR0 and BAR2 take: aligned 4 or 8 bytes of a register, anything in a mailbox area (R416). -/
def barAccessOk (off n : Nat) : Bool := isArea off || ((n == 4 || n == 8) && off % n == 0)

/-- BEAM_NOW_READ (R54). -/
def execBeamNowRead (who : Initiator) (part : ReadPart) (dot : Nat) (s : State) : Out :=
  .next (match findReg beamNowOff with
    | some h => readIrs who beamNowOff (readWide (initiatorTag who) h part) (s.atDot dot)
    | none => s)

/-- BEAM_EPOCH_READ (R55). -/
def execBeamEpochRead (who : Initiator) (s : State) : Out :=
  .next (readIrs who beamEpochOff (readEpoch (initiatorTag who)) s)

/-- CASC_PEER_IRQ_FIFO_READ: the oldest entry is returned and removed (R526, R529). -/
def execCascPeerIrqFifoRead (who : Initiator) (s : State) : Out :=
  .next (readIrs who 0xE00014 (fun s => (s.rdReg 0xE00014, popPeerFifo s)) s)

end Sys2Proof.Machine
end

