-- ==== Sys2Proof/Machine/SyoftFar.lean ====
section
/-! DEFINITION. The far accesses of the Syoft cores at their targets (R258, R278, R291 to R293): load responses, store
acknowledgements and slot writes. -/

namespace Sys2Proof.Machine

/-- Core `k` as an initiator (R28, R29). -/
def coreInitiator (k : Nat) : Initiator :=
  if isSeq k then .seq (Fin.ofNat 8 k) else if isAud k then .audio (Fin.ofNat 4 k) else .cellar

/-- The far load of a core's held bundle: its device address and its length. -/
def CoreRun.farLoad (c : CoreRun) : Option (Nat × Nat) :=
  c.bundle.findSome? fun y => match y.access with
    | some (a, size, false) => if a.sp.val = 0 then none else some (a.far size c.regs, size)
    | _ => none

/-- The target of an access: the Vat is one target under its three windows (R94). -/
def targetOf (a : Nat) : Region :=
  match regionOf a with
  | .setAlias => .vat
  | .clearAlias => .vat
  | r => r

/-- A posted store not yet served that stands before an access to the same target (R258). -/
def CoreRun.blocksLoad (c : CoreRun) (a : Nat) : Bool := c.posted.any fun f => !f.served && targetOf f.addr == targetOf a

/-- The response of a core's far load returns: the bundle that held for it executes, or traps LOAD_ERR (R258, R278). -/
def farLoadResponse (k : Nat) (s : State) : State :=
  let c := s.core k
  match c.hold, c.farLoad with
  | .far, some (a, n) =>
    if c.blocksLoad a then s
    else
      let (d, e, s) := busRead (coreInitiator k) a n s
      runBundle k (some (e, d)) s
  | _, _ => s

/-- FAR_LOAD_RESPONSE: `host` is what the host's memory answers, where the load goes there. -/
def execFarLoadResponse (k : Fin 13) (host : List Byte) (s : State) : Out :=
  .next (withPeer (farLoadResponse k.val) { s with hif := { s.hif with hostIn := host } })

/-- The first posted store of a core for which `f` holds, with the stores before it and after it. -/
def splitStore (f : FarStore → Bool) : List FarStore → Option (List FarStore × FarStore × List FarStore)
  | [] => none
  | x :: t => if f x then some ([], x, t) else (splitStore f t).map fun r => (x :: r.1, r.2.1, r.2.2)

/-- An acknowledged store leaves the core's outstanding stores. An error waits as an imprecise STORE_ERR while the core runs
(R278), and a bundle that held for the acknowledgement is looked at again. -/
def storeAcked (k : Nat) (f : FarStore) (rest : List FarStore) (err : Bool) (s : State) : State :=
  retryHeld k (onCore k (fun c => { c with
    posted := rest
    imprecise := if err && c.live then c.imprecise ++ [⟨5, f.sp, f.ea⟩] else c.imprecise }) s)

/-- FAR_STORE_ACK: the oldest posted store whose write has been or can now be served is acknowledged. A sequencer's stores to the IRS
are served by its slots first (R291). -/
def farStoreAck (k : Nat) (s : State) : State :=
  match splitStore (fun f => f.served || !(isSeq k && isIrs f.addr)) (s.core k).posted with
  | none => s
  | some (before, f, after) =>
    if f.served then storeAcked k f (before ++ after) f.err s
    else
      let (e, s) := busWrite (coreInitiator k) f.addr f.data s
      storeAcked k f (before ++ after) e s

def execFarStoreAck (k : Fin 13) (s : State) : Out := .next (withPeer (farStoreAck k.val) s)

/-- SLOT_WRITE_SERVED: the oldest IRS store of sequencer `p` is served, `latency` cclk after it issued; a write it may not make is
counted in DROPS (R291, R293, R302). -/
def execSlotWriteServed (p : Fin 8) (latency : BitVec 8) (s : State) : Out :=
  let k := p.val
  .next (match splitStore (fun f => !f.served && isIrs f.addr) (s.core k).posted with
  | none => s
  | some (before, f, after) =>
    let (e, s) := busWrite (.seq p) f.addr f.data s
    let s := onCore k (fun c => { c with posted := before ++ { f with served := true, err := e } :: after }) s
    onPipe k (fun r => { r with slotLat := max r.slotLat latency.toNat }) s)

end Sys2Proof.Machine
end

