-- ==== Sys2Proof/Machine/CascadeMsg.lean ====
section
/-! DEFINITION. Tunnelled accesses as the peer serves them, and their answers (R523, R524). -/

namespace Sys2Proof.Machine

/-- The device address that an offset of a peer window maps (R523). -/
def windowAddr (off : Nat) : Option Nat :=
  if off < 0x10000000 then some (vatBase + off)
  else if off < 0x20000000 then some (0x4100000000 + (off - 0x10000000))
  else if off < 0x30000000 then some (0x4200000000 + (off - 0x20000000))
  else if off < 0x31000000 then some (irsBase + (off - 0x30000000)) else none

/-- The enabled bytes of a write as runs: the place of each run's first byte, and its bytes. -/
def enabledRuns (i : Nat) : List (Option Byte) → List (Nat × List Byte)
  | [] => []
  | none :: t => enabledRuns (i + 1) t
  | some b :: t =>
    match enabledRuns (i + 1) t with
    | (j, bs) :: rest => if j = i + 1 then (i, b :: bs) :: rest else (i, [b]) :: (j, bs) :: rest
    | [] => [(i, [b])]

/-- A tunnelled read served for the device at position `src` (R523, R524); the shutdown self-test answers with a bus error
(R575). -/
def servePeerRead (src : Nat) (off len : Nat) (s : State) : List Byte × Bool × State :=
  match windowAddr off with
  | some a => if s.selfTesting then (onesBytes len, true, s) else busRead (.peer (Fin.ofNat 4 src)) a len s
  | none => (onesBytes len, true, s)

/-- A tunnelled write served, the enabled bytes only. -/
def servePeerWrite (src : Nat) (off : Nat) (data : List (Option Byte)) (s : State) : Bool × State :=
  match windowAddr off with
  | some a =>
    if s.selfTesting then (true, s)
    else (enabledRuns 0 data).foldl (fun acc r =>
      let (e, s) := busWrite (.peer (Fin.ofNat 4 src)) (a + r.1) r.2 acc.2
      (acc.1 || e, s)) (false, s)
  | none => (true, s)

/-- An answer reaches the access that waits for it; one that came after the bus error is lost (R524). -/
def tunnelAnswer (src id : Nat) (e : Bool) (d : List Byte) (s : State) : State :=
  onCasc (fun c => { c with tunnels := c.tunnels.map fun t => if t.id == id && t.pos == src && t.answer.isNone then { t with answer := some (e, d) } else t }) s

/-- A message for this device (R524). -/
def msgRx (src : Nat) (m : Msg) (s : State) : State :=
  match m with
  | .readReq id off len =>
    let (d, e, s) := servePeerRead src off.toNat len.val s
    sendTo src (.msg (.response id e d)) s
  | .writeReq id off data =>
    let (e, s) := servePeerWrite src off.toNat data s
    sendTo src (.msg (.ack id e)) s
  | .response id e d => tunnelAnswer src id e d s
  | .ack id e => tunnelAnswer src id e [] s

/-- MSG_FLIT_RX (R507, R510, R524): a flit for another device goes on by its DST. -/
def execMsgFlitRx (l : Fin 2) (h : FlitHead) (m : Msg) (host : List Byte) (s : State) : Out :=
  .next (flitRx l.val h true 2 (forMe h (.msg m) (msgRx h.src.val m)) { s with hif := { s.hif with hostIn := host } })

end Sys2Proof.Machine
end

