-- ==== Sys2Proof/Machine/Dma.lean ====
section
/-! DEFINITION. The DMA engine's descriptors: fetch and checks, gates, the moving of data, and completion (R366 to R376). -/

namespace Sys2Proof.Machine

/-! ### Descriptor fields (R367) -/

/-- An address with its wrap and fix fields. -/
structure DmaAddr where
  a : Nat
  wrap : Nat
  fix : Bool
deriving DecidableEq, Repr

def dmaAddrAt (d : List Byte) (o : Nat) : DmaAddr :=
  let v := fieldAt d o 8
  { a := bitsAt v 0 40, wrap := bitsAt v 40 5, fix := bitAt v 45 }

def dmaSrc (d : List Byte) : DmaAddr := dmaAddrAt d 0
def dmaDst (d : List Byte) : DmaAddr := dmaAddrAt d 8
def dmaLen (d : List Byte) : Nat := fieldAt d 0x10 4
def dmaFlag (d : List Byte) (i : Nat) : Bool := bitAt (fieldAt d 0x14 1) i
def dmaNext (d : List Byte) : Nat := fieldAt d 0x18 5 / 32 * 32
def dmaGateLine (d : List Byte) : Nat := fieldAt d 0x1D 2

/-- The address of beat `k` (R369). -/
def DmaAddr.beat (x : DmaAddr) (k : Nat) : Nat :=
  if x.fix then x.a
  else if x.wrap = 0 then (x.a + 16 * k) % 2 ^ 40
  else x.a / 2 ^ x.wrap * 2 ^ x.wrap + (x.a + 16 * k) % 2 ^ x.wrap

/-- The bytes that an address touches over `len` bytes, as ranges of first byte and length (R369, R371). -/
def DmaAddr.touched (x : DmaAddr) (len : Nat) : List (Nat × Nat) :=
  if x.fix then [(x.a, 16)]
  else
    let (base, size) := if x.wrap = 0 then (0, 2 ^ 40) else (x.a / 2 ^ x.wrap * 2 ^ x.wrap, 2 ^ x.wrap)
    let o := x.a - base
    if size ≤ len then [(base, size)]
    else if o + len ≤ size then [(x.a, len)] else [(x.a, size - o), (base, o + len - size)]

/-- Two ranges share a byte. -/
def rangesMeet (p q : Nat × Nat) : Bool := p.1 < q.1 + q.2 && q.1 < p.1 + p.2

/-- The first check of R368 that a descriptor fails, if any. -/
def dmaCheck (refLines : Nat) (d : List Byte) : Option Nat :=
  let src := dmaSrc d
  let dst := dmaDst d
  let len := dmaLen d
  let badWrap (x : DmaAddr) : Bool := !x.fix && 1 ≤ x.wrap && x.wrap ≤ 3
  if dmaFlag d 3 && refLines ≤ dmaGateLine d then some 0x13
  else if len = 0 then some 0x02
  else if src.a % 16 != 0 || dst.a % 16 != 0 || len % 16 != 0 then some 0x10
  else if badWrap src || badWrap dst then some 0x11
  else if dmaFlag d 2 && (src.touched len).any fun p => (dst.touched len).any (rangesMeet p) then some 0x12
  else none

/-! ### Fetch, gate -/

/-- Channel `n` as an initiator, with its tag (R362). -/
def State.dmaWho (s : State) (n : Nat) : Initiator := .dma (Fin.ofNat 64 n) (s.dmaTag n)

/-- A bad descriptor's status and address recorded; it goes on to the writing of its STATUS (R368, R373). -/
def dmaBad (n status addr : Nat) (s : State) : State :=
  onDma n (fun r => { r with phase := .finish, status := status })
    (((s.wr (F.chErr_ADDR n) addr).wr (F.chErr_STATUS n) status).set1 (F.chErr_VALID n))

/-- A descriptor whose checks and gate are passed moves its data, or has none to move. -/
def dmaGo (n : Nat) (s : State) : State :=
  onDma n (fun r => if dmaLen r.desc = 0 then { r with phase := .finish, status := 0x02 } else { r with phase := .move, status := 0x01 })
    (dmaState n 1 s)

/-- The first start of a reference line after now (R370). -/
def State.nextLineStart (s : State) (line : Nat) : Nat :=
  stampOf (if s.rd F.beamNow_LINE < line then s.rd F.beamNow_FRAME else (s.rd F.beamNow_FRAME + 1) % 65536) line 0

/-- A fetched descriptor is checked (R368, R370). -/
def dmaChecked (n : Nat) (d : List Byte) (s : State) : State :=
  let s := onDma n (fun r => { r with desc := d }) (s.inc (F.chFetched_COUNT n))
  let gated := dmaFlag d 3
  match dmaCheck s.ref.setting.lines d with
  | some 0x02 =>
    if gated then dmaState n 2 (onDma n (fun r => { r with phase := .gate, gate := s.nextLineStart (dmaGateLine d) }) s) else dmaGo n s
  | some st => dmaBad n st (s.rd (F.chCur_ADDR n)) s
  | none =>
    if gated then dmaState n 2 (onDma n (fun r => { r with phase := .gate, gate := s.nextLineStart (dmaGateLine d) }) s) else dmaGo n s

/-- The chain is lost at an address (R374). -/
def dmaLost (n addr : Nat) (s : State) : State := dmaHalt n 4 (s.wr (F.chCur_ADDR n) addr)

/-- A beat read: to the IRS as four 32-bit accesses (R362). The answer is the bytes, or the first address that failed. -/
def dmaReadBeat (who : Initiator) (a : Nat) (s : State) : List Byte × Option Nat × State :=
  if isIrs a then
    (List.range 4).foldl (fun (acc : List Byte × Option Nat × State) i =>
      let (d, e, s) := busRead who (a + 4 * i) 4 acc.2.2
      (acc.1 ++ d, if acc.2.1.isNone && e then some (a + 4 * i) else acc.2.1, s)) ([], none, s)
  else
    let (d, e, s) := busRead who a 16 s
    (d, if e then some a else none, s)

/-- The two beats of a descriptor's fetch (R362, R372, R374). -/
def dmaFetch (n : Nat) (s : State) : State :=
  let a := s.rd (F.chCur_ADDR n)
  match dmaReadBeat (s.dmaWho n) a s with
  | (_, some x, s) => dmaLost n x s
  | (d0, none, s) =>
    match dmaReadBeat (s.dmaWho n) ((a + 16) % 2 ^ 40) s with
    | (_, some x, s) => dmaLost n x s
    | (d1, none, s) => dmaChecked n (d0 ++ d1) s

/-- DMA_DESC_FETCHED. -/
def execDmaDescFetched (n : Fin 64) (host : List Byte) (s : State) : Out :=
  let n := n.val
  .next (if s.dmaRuns && (s.dmaOf n).phase == .fetch then
    withPeer (dmaFetch n) { s with hif := { s.hif with hostIn := host } } else s)

/-- DMA_GATE_OPEN: the gate's line starts (R370). -/
def execDmaGateOpen (n : Fin 64) (s : State) : Out :=
  let n := n.val
  .next (if s.dmaRuns && (s.dmaOf n).phase == .gate && reached (s.dmaOf n).gate s.now then dmaGo n s else s)

/-! ### Moving (R365, R369, R371, R373) -/

/-- A beat written in the same way. -/
def dmaWriteBeat (who : Initiator) (a : Nat) (d : List Byte) (s : State) : Option Nat × State :=
  if isIrs a then
    (List.range 4).foldl (fun (acc : Option Nat × State) i =>
      let (e, s) := busWrite who (a + 4 * i) ((d.drop (4 * i)).take 4) acc.2
      (if acc.1.isNone && e then some (a + 4 * i) else acc.1, s)) (none, s)
  else
    let (e, s) := busWrite who a d s
    (if e then some a else none, s)

/-- `m` beats from beat `k` on, each read only after every earlier one was written (R371). A failure gives its status and
address. -/
def dmaBeats (who : Initiator) (src dst : DmaAddr) : Nat → Nat → State → Option (Nat × Nat) × State
  | 0, _, s => (none, s)
  | m + 1, k, s =>
    match dmaReadBeat who (src.beat k) s with
    | (_, some a, s) => (some (0x20, a), s)
    | (d, none, s) =>
      match dmaWriteBeat who (dst.beat k) d s with
      | (some a, s) => (some (0x21, a), s)
      | (none, s) => dmaBeats who src dst m (k + 1) s

/-- A descriptor's first `m` beats moved; a failure makes it bad (R373). -/
def dmaMove (n m : Nat) (s : State) : State :=
  let d := (s.dmaOf n).desc
  match dmaBeats (s.dmaWho n) (dmaSrc d) (dmaDst d) m 0 s with
  | (some (st, a), s) => dmaBad n st a s
  | (none, s) => s

/-! ### Completion (R372 to R376) -/

/-- Steps 7 and 8 of R372; a channel that is to stop halts after step 6 in their place (R375). The end comes before the budget (R374). -/
def dmaComplete (n : Nat) (s : State) : State :=
  let r := s.dmaOf n
  if s.rd (F.chStatus_STATE n) = 3 then dmaHalt n 2 s
  else
    let bad := 0x10 ≤ r.status
    let s := if bad then s.incWrap (F.chBad_COUNT n) else s.incWrap (F.chDone_COUNT n)
    let s := s.wr (F.chLastStamp_STAMP n) s.now
    let s := s.iff (bad || dmaFlag r.desc 1) (dmaRaise n)
    if dmaFlag r.desc 0 then dmaHalt n 1 s
    else if r.budget ≠ 0 ∧ r.budget ≤ s.rd (F.chFetched_COUNT n) then dmaHalt n 3 s
    else onDma n (fun r => { r with phase := .fetch }) (s.wr (F.chCur_ADDR n) (dmaNext r.desc))

/-- The STATUS byte written, then completion; `lost` is a write that no response answered (R372, R373). -/
def dmaFinish (n : Nat) (lost : Bool) (s : State) : State :=
  let r := s.dmaOf n
  let (e, s) := busWrite (s.dmaWho n) ((s.rd (F.chCur_ADDR n) + 0x15) % 2 ^ 40) [BitVec.ofNat 8 r.status] s
  dmaComplete n (s.iff (e || lost) (·.inc (F.chBad_WB_ERR n)))

/-- The rest of a descriptor: its data, its STATUS, and its completion. -/
def dmaRest (n : Nat) (s : State) : State :=
  match (s.dmaOf n).phase with
  | .move => dmaFinish n false (dmaMove n (dmaLen (s.dmaOf n).desc / 16) s)
  | .finish => dmaFinish n false s
  | _ => s

/-- DMA_DESC_DONE. -/
def execDmaDescDone (n : Fin 64) (host : List Byte) (s : State) : Out :=
  .next (if s.dmaRuns then withPeer (dmaRest n.val) { s with hif := { s.hif with hostIn := host } } else s)

/-- A request of the channel draws no response (R373, R374): in a fetch the beat numbered `beats`; while data moves the read or the write
of that beat, or of the STATUS byte after the last. -/
def dmaLate (n : Nat) (write : Bool) (beats : Nat) (s : State) : State :=
  let r := s.dmaOf n
  match r.phase with
  | .fetch => dmaLost n ((s.rd (F.chCur_ADDR n) + 16 * min beats 1) % 2 ^ 40) s
  | .move =>
    let m := dmaLen r.desc / 16
    let s := dmaMove n (min beats m) s
    if (s.dmaOf n).phase != .move then s
    else if m ≤ beats then dmaFinish n true s
    else if !write then dmaBad n 0x22 ((dmaSrc r.desc).beat beats) s
    else
      match dmaReadBeat (s.dmaWho n) ((dmaSrc r.desc).beat beats) s with
      | (_, some a, s) => dmaBad n 0x20 a s
      | (d, none, s) => dmaBad n 0x23 ((dmaDst r.desc).beat beats) (dmaWriteBeat (s.dmaWho n) ((dmaDst r.desc).beat beats) d s).2
  | .finish => dmaFinish n true s
  | _ => s

/-- DMA_TIMEOUT. -/
def execDmaTimeout (n : Fin 64) (write : Bool) (beats : Nat) (host : List Byte) (s : State) : Out :=
  .next (if s.dmaRuns then withPeer (dmaLate n.val write beats) { s with hif := { s.hif with hostIn := host } } else s)

end Sys2Proof.Machine
end

