-- ==== Sys2Proof/Machine/HifPort.lean ====
section
/-! DEFINITION. What the host sends over PCIe and xSPI beside register accesses: mailbox registers, the data port, xSPI transfers, and
the events of the PCIe link (R415 to R421, R431, R434, R436 to R439, R540). -/

namespace Sys2Proof.Machine

/-- MBX_DOORBELL: a write of 1 to a mailbox's doorbell (R421). A peer rings only the mailboxes of CASC_PEER_MBX; its other doorbell
writes are dropped (R525). -/
def execMbxDoorbell (via : Via) (m : Fin 16) (s : State) : Out :=
  let m := m.val
  .next (match via with
  | .peer _ => if bitAt (s.prm P.cascPeerMbx) m then ringDoorbell via m s else droppedWrite (0x2000 + m * 0x20) 1 s
  | _ => ringDoorbell via m s)

/-- MBX_HEAD_WRITE (R431, R433). `ringErr` is a PCIe error that the ring writes it frees draw. -/
def execMbxHeadWrite (m : Fin 16) (head : BitVec 9) (ringErr : Bool) (s : State) : Out :=
  .next (headWrite m.val head.toNat (some ringErr) s)

/-- MBX_MOD_TIMEOUT: the oldest unnotified entry is MBX_MOD_TIME_US old (R434). -/
def execMbxModTimeout (m : Fin 16) (s : State) : Out :=
  .next (if s.hif.ageOn.contains m.val && s.unnotified m.val != 0 && !s.asleep then mbxNotify m.val s else s)

/-! ### The data port (R436 to R439) -/

/-- Unit and step of DP_CTL.INC (R436). -/
def State.dpUnit (s : State) : Nat := [4, 4, 8, 64].getD (s.rd F.dpCtl_INC) 64
def State.dpStep (s : State) : Nat := [0, 4, 8, 64].getD (s.rd F.dpCtl_INC) 64

/-- A data-port error: its code and address, counted and raised (R438). -/
def dpError (code addr : Nat) (s : State) : State :=
  raise 18 ((((s.wr F.dpStatus_ERR code).inc F.dpStatus_ERR_COUNT).wr F.dpErrAddr_ADDR addr))

/-- An address in the data window or the data-port registers (R438). -/
def isDpSelf (a : Nat) : Bool := irsBase ≤ a && a < irsBase + 0x1020

/-- DP_ADDR advanced by a transaction of `n` bytes (R437). -/
def dpAdvance (n : Nat) (s : State) : State :=
  s.wr F.dpAddr_ADDR ((s.rd F.dpAddr_ADDR + n / s.dpUnit * s.dpStep) % 2 ^ 40)

/-- A transaction of `n` bytes is not made of aligned units (R438). -/
def State.dpUnaligned (s : State) (n : Nat) : Bool := n % s.dpUnit != 0 || s.rd F.dpAddr_ADDR % s.dpUnit != 0

/-- The accesses of a write transaction from access `k` on; the first that fails ends it (R438). `late` is the access that draws no
response. -/
def dpWriteUnits (who : Initiator) (late : Option Nat) : Nat → Nat → List Byte → State → State
  | 0, _, _, s => s
  | m + 1, k, bs, s =>
    let a := (s.rd F.dpAddr_ADDR + k * s.dpStep) % 2 ^ 40
    if isDpSelf a then dpError 4 a s
    else if late = some k then dpError 3 a s
    else
      let (e, s) := busWrite who a (bs.take s.dpUnit) s
      if e then dpError 2 a s else dpWriteUnits who late m (k + 1) (bs.drop s.dpUnit) s

/-- The accesses of a read transaction; the failing access and later ones return all ones. -/
def dpReadUnits (who : Initiator) (late : Option Nat) : Nat → Nat → State → List Byte × State
  | 0, _, s => ([], s)
  | m + 1, k, s =>
    let a := (s.rd F.dpAddr_ADDR + k * s.dpStep) % 2 ^ 40
    let rest := onesBytes ((m + 1) * s.dpUnit)
    if isDpSelf a then (rest, dpError 4 a s)
    else if late = some k then (rest, dpError 3 a s)
    else
      let (d, e, s) := busRead who a s.dpUnit s
      if e then (rest, dpError 2 a s)
      else
        let (d', s) := dpReadUnits who late m (k + 1) s
        (d ++ d', s)

/-- One write transaction of at most 512 bytes; one with no byte does nothing (R437, R438). -/
def dpWrite (who : Initiator) (late : Option Nat) (bs : List Byte) (s : State) : State :=
  let n := bs.length
  if n = 0 then s
  else if s.dpUnaligned n then dpAdvance n (dpError 1 (s.rd F.dpAddr_ADDR) s)
  else dpAdvance n (dpWriteUnits who late (n / s.dpUnit) 0 bs s)

/-- The bytes of a read transaction, with DP_ADDR as it was. -/
def dpReadData (who : Initiator) (late : Option Nat) (n : Nat) (s : State) : List Byte × State :=
  if n = 0 then ([], s)
  else if s.dpUnaligned n then (onesBytes n, dpError 1 (s.rd F.dpAddr_ADDR) s)
  else dpReadUnits who late (n / s.dpUnit) 0 s

/-- Write transactions of at most 512 bytes each, in order; `fuel` bounds them. -/
def dpWrites (who : Initiator) : Nat → Option Nat → List Byte → State → State
  | 0, _, _, s => s
  | fuel + 1, late, bs, s =>
    if bs.isEmpty then s
    else dpWrites who fuel none (bs.drop 512) (dpWrite who late (bs.take 512) s)

/-- Read transactions of at most 512 bytes each, in order (R437). -/
def dpReads (who : Initiator) : Nat → Option Nat → Nat → State → List Byte × State
  | 0, _, _, s => ([], s)
  | fuel + 1, late, n, s =>
    if n = 0 then ([], s)
    else
      let m := min n 512
      let (d, s) := dpReadData who late m s
      let (d', s) := dpReads who fuel none (n - m) (dpAdvance m s)
      (d ++ d', s)

/-- What a host read returned. -/
def keepRead (d : List Byte) (s : State) : State := { s with hif := { s.hif with readOut := d } }

/-- A write of the data window from PCIe or xSPI. -/
def windowWrite (xspi : Bool) (data : List Byte) (late : Option Nat) (s : State) : State :=
  dpWrites (.dataPort xspi) (data.length / 512 + 1) late data s

/-- A write of the data window as a command: the doorbells behind it wait while a peer has not acknowledged it (R441). -/
def portWrite (xspi : Bool) (data : List Byte) (late : Option Nat) (s : State) : State :=
  withPeerElse (dpWaits xspi) (fun s => passBells xspi (windowWrite xspi data late s)) s

/-- A read of the data window: over xSPI it returns the prefetched bytes, or fails (R439). One with no byte enabled returns zeros, in
the one doubleword that such a read has (R438; DESIGN CHOICE, assumption 171). -/
def windowRead (xspi : Bool) (len : Nat) (late : Option Nat) (s : State) : State :=
  if len = 0 then keepRead (List.replicate 4 0#8) s
  else if !xspi then
    let (d, s) := dpReads (.dataPort false) (len / 512 + 1) late len s
    keepRead d s
  else if s.flag F.dpStatus_READY then
    let d := s.hif.prefetch
    let s := dpAdvance d.length (s.clr F.dpStatus_READY)
    keepRead d { s with hif := { s.hif with prefetch := [] } }
  else keepRead (onesBytes len) (dpAdvance len (dpError 5 (s.rd F.dpAddr_ADDR) s))

/-- DP_WINDOW_WRITE: `timeoutAt` is the access that draws no response, if any. -/
def execDpWindowWrite (xspi : Bool) (data : List Byte) (timeoutAt : Option Nat) (s : State) : Out :=
  .next (if xspi && !s.flag F.pinStraps_XSPI_TGT_EN then s else portWrite xspi data timeoutAt s)

/-- DP_WINDOW_READ. -/
def execDpWindowRead (xspi : Bool) (len : Nat) (timeoutAt : Option Nat) (s : State) : Out :=
  .next (if xspi && !s.flag F.pinStraps_XSPI_TGT_EN then s else withPeer (windowRead xspi len timeoutAt) s)

/-- IRS_REG_WRITE (R26, R29, R31, R34, R416); through BAR0 or BAR2 the first 4 KB are the data window (R437). -/
def execIrsRegWrite (who : Initiator) (off : BitVec 24) (data : List Byte) (s : State) : Out :=
  let o := off.toNat
  .next (onIrs who o (fun s => match who with
    | .bar x =>
      if o < 0x1000 then portWrite x data none s
      else if barAccessOk o data.length then (irsWrite who o data s).2 else droppedWrite o (leNat data) s
    | _ => (irsWrite who o data s).2) s)

/-- DP_PREFETCH: the host writes DP_PREFETCH.LEN (R439); the shutdown self-test drops the write (R575). -/
def execDpPrefetch (len : BitVec 10) (s : State) : Out :=
  .next (if s.selfTesting then droppedWrite 0x100C len.toNat s else dpPrefetch len.toNat s)

/-- The bytes of a prefetch are read, and READY is set (R439). -/
def prefetchReady (late : Option Nat) (s : State) : State :=
  let (d, s) := dpReadData (.dataPort true) late s.hif.prefetchLen s
  { s.set1 F.dpStatus_READY with hif := { s.hif with prefetch := d, prefetchLen := 0 } }

/-- DP_PREFETCH_READY. -/
def execDpPrefetchReady (timeoutAt : Option Nat) (s : State) : Out :=
  .next (if s.hif.prefetchLen = 0 then s else withPeer (prefetchReady timeoutAt) s)

/-! ### xSPI transfers (R416, R418) -/

/-- What an xSPI address names: the data window, a mailbox area, or a register offset; `none` where R418 or R416 forbids it. -/
inductive XspiTarget where
  | window | area (off : Nat) | reg (off : Nat) | bad
deriving DecidableEq, Repr

def xspiTarget (addr len : Nat) : XspiTarget :=
  let bar2 := bitAt addr 24
  let off := if bar2 then addr % 2 ^ 16 else addr % 2 ^ 24
  if 2 ^ 25 ≤ addr ∨ (bar2 && addr / 2 ^ 16 % 2 ^ 8 != 0) ∨ len = 0 ∨ 512 < len then .bad
  else if off < 0x1000 then .window
  else if isArea off then .area off
  else if (len = 4 ∨ len = 8) ∧ off % len = 0 then .reg off else .bad

/-- A read through BAR0 or BAR2, over PCIe or xSPI; any that R416 does not allow returns all ones. -/
def barRead (xspi : Bool) (target : XspiTarget) (len : Nat) (s : State) : State :=
  match target with
  | .window => windowRead xspi len none s
  | .area off => keepRead (s.bytesAt (irsBase + off) len) s
  | .reg off =>
    let (d, _, s) := irsRead (.bar xspi) off len s
    keepRead d s
  | .bad => keepRead (onesBytes len) s

/-- A write through BAR0 or BAR2; any that R416 does not allow is dropped. -/
def barWrite (xspi : Bool) (addr : Nat) (target : XspiTarget) (data : List Byte) (s : State) : State :=
  match target with
  | .window => portWrite xspi data none s
  | .area off => areaWrite (.bar xspi) off data s
  | .reg off => (irsWrite (.bar xspi) off data s).2
  | .bad => droppedWrite (addr % 2 ^ 24) (leNat (data.take 4)) s

/-- An xSPI read. -/
def xspiRead (addr len : Nat) (s : State) : State := barRead true (xspiTarget addr len) len s

/-- An xSPI write. -/
def xspiWrite (addr : Nat) (data : List Byte) (s : State) : State := barWrite true addr (xspiTarget addr data.length) data s

/-- XSPI_READ. -/
def execXspiRead (addr : BitVec 32) (len : Nat) (s : State) : Out :=
  .next (if s.flag F.pinStraps_XSPI_TGT_EN then withPeer (xspiRead addr.toNat len) s else s)

/-- XSPI_WRITE. -/
def execXspiWrite (addr : BitVec 32) (data : List Byte) (s : State) : Out :=
  .next (if s.flag F.pinStraps_XSPI_TGT_EN then xspiWrite addr.toNat data s else s)

/-! ### The PCIe link -/

/-- The held entries of every mailbox written, as far as its ring takes them (R433). -/
def flushAll (err : Option Bool) (s : State) : State := s.forN 16 fun m s => flushHeld err m ((s.heldOf m).length + 1) s

/-- BUS_MASTER_ENABLE_WRITE (R29, R431): HOST rings take entries only while bus mastering is enabled. -/
def execBusMasterEnableWrite (en ringErr : Bool) (s : State) : Out :=
  .next (flushAll (some ringErr) { s with hif := { s.hif with busMaster := en } })

/-- PCIE_LINK_UP: the link reaches DL_Up; `pmeEn` is PME_En as the host has set it (R435, R543). -/
def execPcieLinkUp (pmeEn : Bool) (s : State) : Out :=
  .next (flushAll none { s with hif := { s.hif with pcieUp := true, pmeEn := pmeEn, turnOff := false } })

/-- PME_TURN_OFF (R540). -/
def execPmeTurnOff (s : State) : Out := .next { s with hif := { s.hif with turnOff := true } }

end Sys2Proof.Machine
end

