-- ==== Sys2Proof/Machine/ParamMap.lean ====
section
/-! DEFINITION. The parameters of every chapter (R18, R19): what holds each one's value, its range, and the resource it names. -/

namespace Sys2Proof.Machine

/-! ### Parameters that no register holds -/

def P.streamFpsMax (n : Nat) : Prm := ⟨0x610A + n * 0x20, 6000, .warm⟩
def P.streamFsync (n : Nat) : Prm := ⟨0x6110 + n * 0x20, 0, .warm⟩
def P.feedFormat (k : Nat) : Prm := ⟨0xE202 + k * 0x10, 1, .warm⟩
def P.streamLineNs (n : Nat) : Prm := ⟨0x610B + n * 0x20, 0, .warm⟩
def P.paceAuto (n : Nat) : Prm := ⟨0x6113 + n * 0x20, 0, .warm⟩
def P.paceTarget (n : Nat) : Prm := ⟨0x6114 + n * 0x20, 1500, .warm⟩
def P.tempWarn : Prm := ⟨0x0801, 2240, .sticky⟩
def P.tempCrit : Prm := ⟨0x0802, 2400, .sticky⟩
def P.tempHyst : Prm := ⟨0x0803, 48, .sticky⟩
def P.sensorNotify : Prm := ⟨0x0804, 1, .sticky⟩
def P.hostTimeoutMs : Prm := ⟨0x0900, 500, .sticky⟩
def P.svcResume : Prm := ⟨0x0901, 0x1F, .sticky⟩
def P.updateTarget : Prm := ⟨0x0902, 0, .plain⟩
def P.rearSignal : Prm := ⟨0x0903, 0xFF, .warm⟩
def P.canMode (n : Nat) : Prm := ⟨0x0910 + n * 8, 2, .warm⟩
def P.canNominal (n : Nat) : Prm := ⟨0x0911 + n * 8, 500, .warm⟩
def P.canData (n : Nat) : Prm := ⟨0x0912 + n * 8, 2000, .warm⟩
def P.canSample (n : Nat) : Prm := ⟨0x0913 + n * 8, 80, .warm⟩
/-- PIPE_LP5X_REASON as last set; PIPE_p_STATUS shows the one latched (R171, R190, R205). -/
def P.lp5xReason (p : Nat) : Prm := ⟨0x300D + p * 0x40, 0, .plain⟩
def P.lp5xP3 : Prm := ⟨0x0A00, 0, .sticky⟩
def P.bistOnOff : Prm := ⟨0x0A01, 1, .sticky⟩

/-! ### What holds a value -/

/-- What holds a parameter's value. -/
inductive PHold where
  /-- Register fields, each with its low bit in the value. -/
  | flds (l : List (Fld × Nat))
  /-- A field that holds the place of the value in a list. -/
  | code (f : Fld) (vals : List Nat)
  /-- The writable fields of `n` bits of the register at an offset, in the register's own layout. -/
  | reg (off n : Nat)
  | prm (p : Prm)
  /-- A value of its own, with a default of its own, whose set also writes register fields, each with its low bit in the value
  (R19: the default is not the fields' reset). -/
  | both (p : Prm) (l : List (Fld × Nat))
  /-- Nothing: the value acts as it is written, and reads 0. -/
  | strobe
  | blob (n : Nat)

/-- A parameter: what holds it, whether it is a u64, and the values it takes. -/
structure Param where
  hold : PHold
  wide : Bool
  lo : Nat
  hi : Nat
  step : Nat

def Param.fld (f : Fld) (hi : Nat) (lo : Nat := 0) (step : Nat := 1) : Param := ⟨.flds [(f, 0)], false, lo, hi, step⟩
def Param.wideFld (f : Fld) (hi : Nat) (step : Nat := 1) : Param := ⟨.flds [(f, 0)], true, 0, hi, step⟩
def Param.code (f : Fld) (vals : List Nat) : Param := ⟨.code f vals, false, 0, 2 ^ 32 - 1, 1⟩
def Param.reg (off : Nat) : Param := ⟨.reg off 32, false, 0, 2 ^ 32 - 1, 1⟩
def Param.half (off : Nat) : Param := ⟨.reg off 32, false, 0, 65535, 1⟩
def Param.wideReg (off n : Nat) : Param := ⟨.reg off n, true, 0, 2 ^ 64 - 1, 1⟩
def Param.val (p : Prm) (hi : Nat) (lo : Nat := 0) : Param := ⟨.prm p, false, lo, hi, 1⟩
def Param.wideVal (p : Prm) (hi step : Nat) : Param := ⟨.prm p, true, 0, hi, step⟩
def Param.strobe (wide : Bool) (hi : Nat) : Param := ⟨.strobe, wide, 0, hi, 1⟩
def Param.blob (n : Nat) : Param := ⟨.blob n, false, 0, 0, 1⟩

/-- The largest device address (R25), and the largest unsigned value of 64 bits. -/
def top40 : Nat := 2 ^ 40 - 1
def top64 : Nat := 2 ^ 64 - 1

/-! ### The parameters by block -/

/-- R446, R475, R500, R551, R588. -/
def params0 (pid : Nat) : Option Param :=
  if 0x0100 ≤ pid ∧ pid < 0x0200 then
    let m := (pid - 0x0100) / 0x10
    match pid % 0x10 with
    | 0 => some (.val (P.ringLoc m) 1)
    | 1 => some (.wideVal (P.ringBase m) top64 4096)
    | 2 => some (.val (P.modCount m) 255)
    | 3 => some (.val (P.modTime m) 65535)
    | 4 => some (.val (P.mbxWake m) 1)
    | _ => none
  else if 0x0910 ≤ pid ∧ pid < 0x0920 then
    let n := (pid - 0x0910) / 8
    match pid % 8 with
    | 0 => some (.val (P.canMode n) 2)
    | 1 => some (.val (P.canNominal n) 1000 125)
    | 2 => some (.val (P.canData n) 8000)
    | 3 => some (.val (P.canSample n) 90 50)
    | _ => none
  else if 0x0B00 ≤ pid ∧ pid < 0x0B08 then some (.val (P.portSpare (pid - 0x0B00)) 255)
  else match pid with
    | 0x0001 => some (.wideVal P.hostwinBase top64 4096)
    | 0x0002 => some (.val P.mbxNotify 15)
    | 0x0800 => some (.wideFld F.cellarSeconds_COUNT top64)
    | 0x0801 => some (.val P.tempWarn 65535)
    | 0x0802 => some (.val P.tempCrit 65535)
    | 0x0803 => some (.val P.tempHyst 320 16)
    | 0x0804 => some (.val P.sensorNotify 1)
    | 0x0805 => some (.val P.logNotify 4)
    | 0x0900 => some (.val P.hostTimeoutMs 65535)
    | 0x0901 => some (.val P.svcResume 0x1F)
    | 0x0902 => some (.val P.updateTarget 4)
    | 0x0903 => some (.val P.rearSignal 255)
    | 0x0A00 => some (.val P.lp5xP3 1)
    | 0x0A01 => some (.val P.bistOnOff 1)
    | 0x0B10 => some (.val P.faultnMask 65535)
    | 0x0B11 => some (.val P.repairEn 1)
    | 0x0B12 => some (.val P.notifyTransient 1)
    | _ => none

/-- R413. -/
def params1 (pid : Nat) : Option Param :=
  if pid < 0x1200 then some (.reg (0x101000 + (pid - 0x1000) * 4))
  else if pid < 0x1210 then some (.fld (F.intcEnSet_SRC (pid - 0x1200)) (2 ^ 32 - 1)) else none

/-- R70. -/
def params2 (pid : Nat) : Option Param :=
  if 0x2100 ≤ pid ∧ pid < 0x2180 then
    let n := (pid - 0x2100) / 0x10
    match pid % 0x10 with
    | 0 => some (.val (P.lockEn n) 1)
    | 1 => some (.val (P.lockNum n) 8 1)
    | 2 => some (.val (P.lockDen n) 8 1)
    | 3 => some (.val (P.lockPhase n) (2 ^ 32 - 1))
    | 4 => some (.val (P.lockSlewPpm n) 65535)
    | 5 => some (.val (P.lockFixed n) 1)
    | _ => none
  else match pid with
    | 0x2000 => some (.fld F.refGeom_LINES 8192 256)
    | 0x2001 => some (.fld F.refGeom_DOTS 16384 1024)
    | 0x2002 => some (.fld F.refSynInt_N 288 144)
    | 0x2003 => some (.fld F.refSynNum_NUM 0xFFFFFF)
    | 0x2004 => some (.fld F.refSynDen_DEN 0xFFFFFF 1)
    | 0x2005 => some (.code F.refSynInt_P [4, 6, 8, 12])
    | _ => none

/-- R205. -/
def params3 (pid : Nat) : Option Param :=
  if pid < 0x3200 then
    let p := (pid - 0x3000) / 0x40
    let base := 0x300000 + p * 0x2000
    match pid % 0x40 with
    | 0x00 => some (.fld (F.pipeCtl_EN p) 1)
    | 0x01 => some (.fld (F.pipeCtl_READY_GATE p) 1)
    | 0x02 => some (.fld (F.pipeFreq_HZ p) (2 ^ 32 - 1))
    | 0x03 => some (.reg (base + 0x410))
    | 0x04 => some (.reg (base + 0x414))
    | 0x05 => some (.reg (base + 0x418))
    | 0x06 => some (.reg (base + 0x41C))
    | 0x07 => some (.code (F.pipeCtl_DEPTH p) [6, 8, 10, 12])
    | 0x08 => some (.fld (F.pipeCtl_DITHER p) 3)
    | 0x09 => some (.fld (F.pipeCtl_OUT_LUT_EN p) 1)
    | 0x0A => some (.fld (F.pipeCtl_OBJ_ABOVE p) 15)
    | 0x0B => some (.reg (base + 0x404))
    | 0x0C => some (.fld (F.pipeCtl_CLASS0 p) 1)
    | 0x0D => some (.val (P.lp5xReason p) 3)
    | 0x0E => some (.wideReg (base + 0x430) 64)
    | 0x20 => some (.reg (base + 0x500))
    | 0x21 => some (.wideFld (F.pipeWbBase_ADDR p) top40 64)
    | 0x22 => some (.fld (F.pipeWbStride_BYTES p) 0xFFFFFF 0 64)
    | 0x23 => some (.fld (F.pipeWbSpacing_BYTES p) (2 ^ 32 - 1) 0 64)
    | o =>
      if 0x10 ≤ o ∧ o < 0x20 then
        let safe := base + 0x480 + (o - 0x10) / 8 * 0x20
        match o % 8 with
        | 0 => some (.wideReg safe 32)
        | 1 => some (.wideReg (safe + 4) 32)
        | 2 => some (.wideReg (safe + 8) 32)
        | 3 => some (.wideReg (safe + 0xC) 32)
        | 4 => some (.wideReg (safe + 0x10) 64)
        | 5 => some (.wideReg (safe + 0x18) 64)
        | _ => none
      else none
  else if 0x3400 ≤ pid ∧ pid < 0x3480 then
    let k := (pid - 0x3400) / 0x10
    match pid % 0x10 with
    | 0 => some (.fld (F.portCtl_EN k) 1)
    | 1 => some (.fld (F.portCtl_PIPE k) 7)
    | 2 => some (.code (F.portCtl_LANES k) [1, 2, 4])
    | 3 => some (.fld (F.portCtl_RATE k) 10)
    | 4 => some (.fld (F.portCtl_EDP k) 1)
    | 5 => some (.half (0x310004 + k * 0x100))
    | 6 => some (.fld (F.portCtl_ASSR k) 1)
    | _ => none
  else if 0x3800 ≤ pid ∧ pid < 0x3820 then
    match pid % 4 with
    | 0 => some (.blob 4100)
    | 1 => some (.blob 4100)
    | 2 => some (.blob 12300)
    | _ => none
  else none

/-- R145. -/
def params4 (pid : Nat) : Option Param :=
  if pid < 0x4800 then
    let n := (pid - 0x4000) / 0x40
    let base := 0x401000 + n * 0x100
    match pid % 0x40 with
    | 0x00 => some (.fld (F.planeCfg_EN n) 1)
    | 0x01 => some (.fld (F.planeCfg_PIPE n) 7)
    | 0x02 => some (.fld (F.planeCfg_SLOT n) 11)
    | 0x03 => some (.fld (F.planeCfg_KIND n) 3)
    | 0x04 => some (.fld (F.planeCfg_MODE n) 3)
    | 0x05 => some (.fld (F.planeCfg_CLASS0 n) 1)
    | 0x06 => some (.fld (F.planeCfg_WIDE n) 1)
    | 0x07 => some (.fld (F.planeFmt_FORMAT n) 0x3F)
    | 0x08 => some (.fld (F.planeFmt_CSC n) 3)
    | 0x09 => some (.fld (F.planeFmt_FULL_RANGE n) 1)
    | 0x0A => some (.code (F.planeFmt_TILE n) [8, 16, 32])
    | 0x0B => some (.fld (F.planeCfg_EDGE n) 3)
    | 0x0C => some ⟨.flds [(F.planeCfg_MIRROR_H n, 0), (F.planeCfg_MIRROR_V n, 1)], false, 0, 3, 1⟩
    | 0x0D => some (.fld (F.planeCfg_FILTER n) 3)
    | 0x0E => some (.fld (F.planeCfg_VTAPS n) 3)
    | 0x0F => some (.fld (F.planeCfg_BILINEAR n) 1)
    | 0x10 => some (.fld (F.planeCfg_PREMUL n) 1)
    | 0x11 => some (.fld (F.planeCfg_SRC_SEL n) 3)
    | 0x12 => some (.fld (F.planeCfg_STREAM n) 15)
    | 0x13 => some (.reg (base + 0x08))
    | 0x14 => some (.reg (base + 0x0C))
    | 0x15 => some (.fld (F.planePatcount_COUNT n) 65536)
    | 0x16 => some (.fld (F.planeStride_BYTES n) 0xFFFFFF 0 64)
    | 0x17 => some (.fld (F.planeStride2_BYTES n) 0xFFFFFF 0 64)
    | 0x18 => some (.reg (base + 0x2C))
    | 0x19 => some (.fld (F.planeWmax_WIDTH n) 8192)
    | 0x1A => some (.fld (F.planeHstep_STEP n) 0xFFFFFF)
    | 0x1B => some (.fld (F.planeVstep_STEP n) 0xFFFFFF)
    | 0x1C => some (.wideVal (P.planeBase n) top40 64)
    | 0x1D => some (.wideVal (P.planeBase2 n) top40 64)
    | o => if 0x20 ≤ o ∧ o < 0x36 then some (.reg (base + 0x40 + 4 * (o - 0x20))) else none
  else if pid < 0x4820 then some (.blob 2048) else none

/-- R168. -/
def params5 (pid : Nat) : Option Param :=
  let o := pid - 0x5000
  if o < 0x08 then some (.fld (F.harpPipeCtl_EN o) 1)
  else if 0x10 ≤ o ∧ o < 0x18 then some (.wideFld (F.harpPipeStageAddr_ADDR (o - 0x10)) top40)
  else if 0x18 ≤ o ∧ o < 0x20 then some (.reg (0x531010 + (o - 0x18) * 0x40))
  else if 0x20 ≤ o ∧ o < 0x28 then some (.reg (0x531014 + (o - 0x20) * 0x40))
  else if 0x40 ≤ o ∧ o < 0x80 then some (.fld (F.harpGrp_OWNER (o - 0x40)) 8)
  else if 0x100 ≤ o ∧ o < 0x108 then some (.blob 2048)
  else if 0x380 ≤ o ∧ o < 0x3C0 then some (.blob 256)
  else if 0x400 ≤ o ∧ o < 0x440 then some (.blob 2048) else none

/-- R227. -/
def params6 (s : State) (pid : Nat) : Option Param :=
  if pid < 0x6040 then
    let k := (pid - 0x6000) / 0x10
    match pid % 0x10 with
    | 0 => some (.fld (F.csiCtl_EN k) 1)
    | 1 => some (.fld (F.csiCtl_CPHY k) 1)
    | 2 => some ⟨.code (F.csiCtl_LANES k) (if s.flag (F.csiCtl_CPHY k) then [1, 2, 3] else [1, 2, 4]), false, 1, 4, 1⟩
    | 3 => some (.fld (F.csiCtl_RATE k) 6000 80)
    | 4 => some (.half (0x600004 + k * 0x100))
    | _ => none
  else if 0x6100 ≤ pid ∧ pid < 0x6300 then
    let n := (pid - 0x6100) / 0x20
    let base := 0x601000 + n * 0x100
    match pid % 0x20 with
    | 0x00 => some (.fld (F.streamCtl_EN n) 1)
    | 0x01 => some (.fld (F.streamCtl_PORT n) 3)
    | 0x02 => some (.fld (F.streamCtl_VC n) 15)
    | 0x03 => some (.fld (F.streamCtl_DT n) 0x3F)
    | 0x04 => some (.reg (base + 0x04))
    | 0x05 => some (.wideFld (F.streamRingBase_ADDR n) top40 64)
    | 0x06 => some ⟨.code (F.streamCtl_RING_M1 n) [1, 2, 3, 4, 5, 6, 7, 8], false, 2, 8, 1⟩
    | 0x07 => some (.fld (F.streamStride_BYTES n) 0xFFFFFF 0 64)
    | 0x08 => some (.fld (F.streamSpacing_BYTES n) (2 ^ 32 - 1) 0 64)
    | 0x09 => some (.fld (F.streamCtl_ACCEPT_ERR n) 1)
    | 0x0A => some (.val (P.streamFpsMax n) 65535)
    | 0x0B => some (.val (P.streamLineNs n) (2 ^ 32 - 1))
    | 0x0C => some (.fld (F.streamTimeout_US n) 0xFFFFFF)
    | 0x0D => some (.fld (F.streamCtl_RACED n) 1)
    | 0x0E => some (.wideFld (F.streamLandBase_ADDR n) top40 64)
    | 0x0F => some (.fld (F.streamLand_LINES n) 256 8)
    | 0x10 => some ⟨.both (P.streamFsync n) [(F.streamFsync_MODE n, 0), (F.streamFsync_PIPE n, 4), (F.streamFsync_PULSE n, 8),
        (F.streamFsync_REF_PERIOD n, 16)], false, 0, 2 ^ 32 - 1, 1⟩
    | 0x11 => some (.fld (F.streamFsyncLead_DOTS n) 0xFFFFFF)
    | 0x12 => some (.reg (base + 0x30))
    | 0x13 => some (.val (P.paceAuto n) 1)
    | 0x14 => some (.val (P.paceTarget n) 2000 500)
    | _ => none
  else none

/-- R252. -/
def params7 (pid : Nat) : Option Param :=
  if pid < 0x7800 then
    let p := (pid - 0x7000) / 0x100
    let off := 0x700400 + p * 0x1000 + pid % 0x100 / 4 * 0x20 + pid % 4 * 4
    some (if pid % 4 = 3 then .half off else .reg off)
  else if pid < 0x7840 then
    let p := (pid - 0x7800) / 8
    match pid % 8 with
    | 0 => some (.fld (F.rindCtl_EN p) 1)
    | 1 => some (.wideFld (F.rindExpBase_ADDR p) top40 8192)
    | 2 => some (.fld (F.rindCtl_EXP_HALF p) 1)
    | _ => none
  else if 0x7900 ≤ pid ∧ pid < 0x7908 then some (.blob 4096) else none

/-- R361. -/
def params8 (pid : Nat) : Option Param :=
  let e := (pid - 0x8000) / 0x10
  if 2 ≤ e then none
  else match pid % 0x10 with
    | 0 => some (.fld (F.pressBudget_ENTRIES e) 65535 1)
    | 1 => some (.strobe false 1)
    | _ => none

/-- R381. -/
def params9 (pid : Nat) : Option Param :=
  let n := (pid - 0x9000) / 0x10
  if 64 ≤ n then none
  else match pid % 0x10 with
    | 0 => some (.fld (F.chCtl_PRIO n) 7)
    | 1 => some (.fld (F.chBudget_ENTRIES n) 65535)
    | 2 => some (.fld (F.chDeadline_LINES n) 0xFFFFFF)
    | 3 => some (.strobe false 1)
    | _ => none

/-- R341. -/
def paramsA (pid : Nat) : Option Param :=
  let o := pid - 0xA000
  if o < 0x30 then
    match o % 0x10 with
    | 0 => some (.fld (F.audDomCtl_RATE (o / 0x10)) 2)
    | 1 => some (.fld (F.audDomCtl_EXT (o / 0x10)) (if o / 0x10 = 2 then 0 else 1))
    | _ => none
  else if 0x100 ≤ o ∧ o < 0x108 then some (.reg (0xA00100 + (o - 0x100) * 0x40))
  else if 0x180 ≤ o ∧ o < 0x182 then some ⟨.reg (0xA00380 + (o - 0x180) * 4) 32, false, 0, 255, 1⟩
  else if 0x200 ≤ o ∧ o < 0x280 then some (.fld (F.xpIn_SRC (o - 0x200)) 0xFFF)
  else if 0x280 ≤ o ∧ o < 0x300 then some (.fld (F.xpOut_DST (o - 0x280)) 0xFFF)
  else if 0x300 ≤ o ∧ o < 0x380 then some (.reg (0xA01404 + (o - 0x300) * 8))
  else if 0x400 ≤ o ∧ o < 0x480 then some (.blob 256)
  else if o = 0x480 then some (.strobe false (2 ^ 32 - 1))
  else if 0x500 ≤ o ∧ o < 0x502 then some (.wideReg (0xA003C0 + (o - 0x500) * 8) 32)
  else if 0x510 ≤ o ∧ o < 0x516 then some ⟨.reg (0xA00300 + (o - 0x510) * 0x10) 32, false, 0, 255, 1⟩
  else if 0x540 ≤ o ∧ o < 0x548 then some (.blob 24)
  else if 0x600 ≤ o ∧ o < 0x640 then
    let c := (o - 0x600) / 0x10
    match o % 0x10 with
    | 0 => some (.fld (F.audCoreCtl_RUN c) 1)
    | 1 => some (.fld (F.audCoreEntry_ENTRY c) 49151)
    | 2 => some (.fld (F.audCoreCtl_DOMAIN c) 3)
    | 3 => some (.fld (F.audCoreCtl_BLOCK_LEN c) 256 1)
    | 4 => some ⟨.reg (0xA00608 + c * 0x20) 32, false, 0, 0x7FFFF, 1⟩
    | 5 => some ⟨.reg (0xA0060C + c * 0x20) 32, false, 0, 0x7FFFF, 1⟩
    | 6 => some (.fld (F.audCoreWdt_BLOCKS c) 65535)
    | 7 => some (.fld (F.audCoreCtl_WDT_ACTION c) 1)
    | _ => none
  else none

/-- R400. -/
def paramsB (pid : Nat) : Option Param :=
  if pid < 0xB400 then
    let n := (pid - 0xB000) / 0x10
    match pid % 0x10 with
    | 0 => some (.reg (0xB00000 + n * 0x40))
    | 1 => some (.reg (0xB00004 + n * 0x40))
    | 2 => some (.reg (0xB00008 + n * 0x40))
    | 3 => some (.fld (F.timerReload_VALUE n) (2 ^ 32 - 1))
    | 4 => some (.fld (F.timerCmp_VALUE n) (2 ^ 32 - 1))
    | 5 => some (.fld (F.timerCount_COUNT n) (2 ^ 32 - 1))
    | _ => none
  else if pid = 0xB800 ∨ pid = 0xB801 then some (.strobe true top64) else none

/-- R602. -/
def paramsC (pid : Nat) : Option Param :=
  let o := pid - 0xC000
  if o < 112 then some (.reg (0xC00000 + o * 0x10))
  else if 0x80 ≤ o ∧ o < 0x80 + 112 then some (.fld (F.pinFilt_N (o - 0x80)) 65535)
  else match o with
    | 0x104 => some (.wideFld F.pinOeLo_PIN top64)
    | 0x105 => some (.wideFld F.pinOeHi_PIN (2 ^ 48 - 1))
    | _ => if 0x100 ≤ o ∧ o < 0x108 then some (.strobe true (if o % 2 = 0 then top64 else 2 ^ 48 - 1)) else none

/-- R103. -/
def paramsD (pid : Nat) : Option Param :=
  let o := pid - 0xD000
  if 0x10 ≤ o ∧ o < 0x14 then some (.reg (0xD00040 + (o - 0x10) * 4))
  else if 0x100 ≤ o ∧ o < 0x140 then some (.fld (F.vatBankCtl_PWR (o - 0x100)) 2)
  else if 0x140 ≤ o ∧ o < 0x180 then some (.fld (F.vatBankCtl_P3_PWR (o - 0x140)) 2 1)
  else match o with
    | 0 => some (.code F.vatCtl_GROUP_LOG2 [1, 2, 4, 8, 16, 32, 64])
    | 1 => some (.fld F.vatCtl_C0_RES 4)
    | 2 => some (.fld F.vatCtl_SCRUB_EN 1)
    | 3 => some (.fld F.vatScrub_PERIOD 3600 1)
    | 4 => some (.fld F.vatCtl_BGT_EN 1)
    | 5 => some (.fld F.vatBgtCtl_INTERVAL 65535 100)
    | 6 => some (.strobe false 1)
    | _ => none

/-- R530. -/
def paramsE (s : State) (pid : Nat) : Option Param :=
  let o := pid - 0xE000
  if o < 0x20 then
    let l := o / 0x10
    match o % 0x10 with
    | 0 => some (.fld (F.cascLCtl_EN l) 1)
    | 1 => some (.code (F.cascLCtl_LANES_MAX l) [1, 2, 4])
    | 2 => some (.fld (F.cascLCtl_C0_CREDITS l) 256 32)
    | 3 => some (.fld (F.cascLAud_EN l) 1)
    | 4 => some (.fld (F.cascLAud_DOMAIN l) 2)
    | _ => none
  else if 0x100 ≤ o ∧ o < 0x108 then some (.fld (F.cascTx_CHANNEL (o - 0x100)) 3)
  else if 0x200 ≤ o ∧ o < 0x280 then
    let k := (o - 0x200) / 0x10
    match o % 0x10 with
    | 0 => some (.fld (F.cascFeedCtl_EN k) 1)
    | 1 => some (.fld (F.cascFeedCtl_STREAM k) 15)
    | 2 => some ⟨.both (P.feedFormat k) [(F.cascFeedCtl_FORMAT k, 0)], false, 0, 3, 1⟩
    | _ => none
  else if o = 0x300 then some (.val P.cascPeerMbx 65535)
  else if o = 0x301 then some (.val s.irqPosPrm 3) else none

/-- R303. -/
def paramsF (pid : Nat) : Option Param :=
  let p := (pid - 0xF000) / 0x10
  if 8 ≤ p then none
  else match pid % 0x10 with
    | 0 => some (.fld (F.seqCtl_RUN p) 1)
    | 1 => some (.fld (F.seqCtl_ENTRY p) 65535)
    | 2 => some (.fld (F.seqCtl_START_AT p) 1)
    | 3 => some (.fld (F.seqWdt_LINES p) 65535)
    | 4 => some (.fld (F.seqCtl_WDT_ACTION p) 1)
    | _ => none

/-- The parameter of a PID (R18). -/
def State.paramOf (s : State) (pid : Nat) : Option Param :=
  match pid / 0x1000 with
  | 0 => params0 pid
  | 1 => params1 pid
  | 2 => params2 pid
  | 3 => params3 pid
  | 4 => params4 pid
  | 5 => params5 pid
  | 6 => params6 s pid
  | 7 => params7 pid
  | 8 => params8 pid
  | 9 => params9 pid
  | 10 => paramsA pid
  | 11 => paramsB pid
  | 12 => paramsC pid
  | 13 => paramsD pid
  | 14 => paramsE s pid
  | 15 => paramsF pid
  | _ => none

/-! ### Resources (R476) -/

/-- The resource that a PID names: its class, by the top digits of the PIDs that name it, and its instance. -/
def resourceOf (pid : Nat) : Nat × Nat :=
  let o := pid % 0x1000
  match pid / 0x1000 with
  | 1 => if o < 0x200 then (0x10, o) else (0x12, o % 16)
  | 2 => if o < 0x100 then (0x20, 0) else (0x21, (o - 0x100) / 0x10)
  | 3 =>
    if o < 0x200 then
      (if 0x10 ≤ o % 0x40 ∧ o % 0x40 < 0x20 then (0x32, o / 0x40 * 2 + (o % 0x40 - 0x10) / 8) else (0x30, o / 0x40))
    else if o < 0x800 then (0x34, (o - 0x400) / 0x10) else (0x30, (o - 0x800) / 4)
  | 4 => if o < 0x800 then (0x40, o / 0x40) else (0x40, o - 0x800)
  | 5 =>
    if o < 0x40 then (0x50, o % 8) else if o < 0x80 then (0x54, o - 0x40) else if o < 0x200 then (0x51, o - 0x100)
    else if o < 0x400 then (0x54, o - 0x380) else (0x54, o - 0x400)
  | 6 => if o < 0x100 then (0x60, o / 0x10) else (0x61, (o - 0x100) / 0x20)
  | 7 => if o < 0x800 then (0x71, o / 0x100 * 64 + o % 0x100 / 4) else if o < 0x900 then (0x70, (o - 0x800) / 8) else (0x70, o - 0x900)
  | 8 => (0x80, o / 0x10)
  | 9 => (0x90, o / 0x10)
  | 10 =>
    if o < 0x100 then (0xA00, o / 0x10) else if o < 0x180 then (0xA10, o - 0x100) else if o < 0x200 then (0xA18, o - 0x180)
    else if o < 0x280 then (0xA20, o - 0x200) else if o < 0x300 then (0xA28, o - 0x280) else if o < 0x400 then (0xA28, o - 0x300)
    else if o < 0x480 then (0xA28, o - 0x400) else if o < 0x500 then (0xA48, 0) else if o < 0x510 then (0xA50, o - 0x500)
    else if o < 0x540 then (0xA51, o - 0x510) else if o < 0x600 then (0xA54, o - 0x540) else (0xA60, (o - 0x600) / 0x10)
  | 11 => if o < 0x800 then (0xB0, o / 0x10) else (0xB8, 0)
  | 12 => if o < 0x80 then (0xC0, o) else if o < 0x100 then (0xC0, o - 0x80) else (0xC1, 0)
  | 13 => if o < 0x100 then (0xD0, 0) else (0xD1, o % 0x40)
  | 14 => if o < 0x100 then (0xE0, o / 0x10) else if o < 0x200 then (0xE1, o - 0x100)
    else if o < 0x300 then (0xE2, (o - 0x200) / 0x10) else (0xE3, 0)
  | 15 => (0xF0, o / 0x10)
  | _ => (0, pid)

end Sys2Proof.Machine
end

