-- ==== Sys2Proof/Machine/Admit.lean ====
section
/-! DEFINITION. What firmware admits: the rules of every chapter that a set of parameters must keep, each over the state that the
request would leave. A rule that depends on f_pipe is not applied while PIPE_FREQ_HZ is 0 (R620). -/

namespace Sys2Proof.Machine

/-- A state seen as if every register had latched, so that the rules read settings as last written. -/
def State.view (s : State) : State := { s with latched := s.cells, snap := s.cells }

/-- Fractions added. -/
def fracSum (l : List (Nat × Nat)) : Nat × Nat := l.foldl (fun a f => (a.1 * f.2 + f.1 * a.2, a.2 * f.2)) (0, 1)

/-! ### The reference raster and the locks (R45, R46, R56) -/

def State.refOk (v : State) : Bool :=
  let r := v.refRegs
  let (n, d) := r.freq
  let vco := 25000000 * (r.synN * r.synDen + r.synNum)
  r.synNum < r.synDen && 3600000000 * r.synDen ≤ vco && vco ≤ 7200000000 * r.synDen
    && 600000000 * d ≤ n && n ≤ 900000000 * d && 24 * r.lines * r.dots * d ≤ n && n ≤ 240 * r.lines * r.dots * d

/-- The pipe's frame at minimum vertical blanking lasts no longer than DEN / NUM reference frames (R56). -/
def State.lockOk (v : State) (p : Nat) : Bool :=
  let r := v.refRegs
  let (n, d) := r.freq
  let f := v.pipeHz p
  v.prm (P.lockEn p) == 0 || f == 0 ||
    v.htotal p * (v.vactive p + v.vmin p) * v.prm (P.lockNum p) * n ≤ v.prm (P.lockDen p) * r.lines * r.dots * d * f

/-! ### Pipes (R41, R163, R170) -/

def State.rasterOk (v : State) (p : Nat) : Bool :=
  let ha := v.hactive p
  let ht := v.htotal p
  !v.flag (F.pipeCtl_EN p) ||
    (64 ≤ ha && ha ≤ 8192 && ha + 64 ≤ ht && ht ≤ ha + 8192 && ht ≤ 16384 && 64 ≤ v.vactive p && v.vactive p ≤ 8192
      && 2 ≤ v.vmin p && v.vmin p ≤ 4095 && v.vmin p ≤ v.vmax p && v.vmax p ≤ 8191
      && 25000000 ≤ v.pipeHz p && v.pipeHz p ≤ 1600000000)

/-- Both bounds of R41, over every pipe: a frequency is applied only to a disabled pipe (R171, R620). -/
def State.dotRatesOk (v : State) : Bool :=
  ((List.range 8).all fun p => v.pipeHz p ≤ 1600000000) && ((List.range 8).map v.pipeHz).sum ≤ 6400000000

/-- The object layers fit the Harp (R163). -/
def State.harpOk (v : State) : Bool :=
  let ps := (List.range 8).filter fun p => v.flag (F.harpPipeCtl_EN p) && v.pipeHz p != 0
  let (n, d) := fracSum (ps.map fun p => (v.pipeHz p * 128, v.htotal p))
  (ps.all fun p => 2048 * v.pipeHz p ≤ v.htotal p * 800000000) && n ≤ 600000000 * d

/-- Staging settings (R164). -/
def State.stagingOk (v : State) (p : Nat) : Bool :=
  let a := v.rd (F.harpPipeStageAddr_ADDR p)
  let first := v.rd (F.harpPipeStage_FIRST p)
  let count := v.rd (F.harpPipeStage_COUNT p)
  let af := v.rd (F.harpPipeStageAff_AFF_FIRST p)
  let ac := v.rd (F.harpPipeStageAff_AFF_COUNT p)
  let owned (lo n size : Nat) : Bool := n == 0 || (List.range 64).all fun g =>
    !(lo < (g + 1) * size && g * size < lo + n) || v.rd (F.harpGrp_OWNER g) == p
  (count == 0 && ac == 0) ||
    (isVat a && a + count * 32 + ac * 16 ≤ vatBase + 0x10000000 && a % 64 == 0 && first + count ≤ 4096 && af + ac ≤ 1024
      && owned first count 64 && owned af ac 16)

/-! ### Write-locked windows, safety planes and Rind (R96, R103, R174, R232, R241, R245) -/

/-- The windows in use: base and length in the Vat. -/
def State.lockWindows (v : State) : List (Nat × Nat) :=
  ((List.range 4).map fun k => (v.rd (F.vatLock_BASE k) * 65536, v.rd (F.vatLock_SIZE k) * 65536)).filter fun w => w.2 != 0

/-- A range of device addresses lies wholly inside one window. -/
def State.inLock (v : State) (a n : Nat) : Bool :=
  vatBase ≤ a && v.lockWindows.any fun w => vatBase + w.1 ≤ a && a + n ≤ vatBase + w.1 + w.2

/-- No window extends past the Vat, or overlaps another (R103). -/
def State.locksOk (v : State) : Bool :=
  let ws := v.lockWindows
  (ws.all fun w => w.1 + w.2 ≤ 0x10000000)
    && (List.range ws.length).all fun i => (ws.drop (i + 1)).all fun w =>
        (ws.getD i (0, 0)).1 + (ws.getD i (0, 0)).2 ≤ w.1 || w.1 + w.2 ≤ (ws.getD i (0, 0)).1

/-- A safety plane is enabled (R201). -/
def State.safeSet (v : State) (p j : Nat) : Bool := v.flag (F.safeCtl_EN p j) && v.rd (F.safeCtl_FORMAT p j) != 3

/-- The source of a safety plane lies inside one window; a plane of no pixels has no source (R174). -/
def State.safeSourceOk (v : State) (p j : Nat) : Bool :=
  let n := safeExtent (v.rd (F.safeSize_W p j)) (v.rd (F.safeSize_H p j)) (v.rd (F.safeStride_BYTES p j))
  (n == 0 && !v.safeSet p j) || v.inLock (v.rd (F.safeBase_ADDR p j)) n

/-- Rectangle `r` of pipe `p` covers a window, clipped to the active area (R241). -/
def State.rectCovers (v : State) (p r x y w h : Nat) : Bool :=
  let rx := v.rd (F.rectPos_X p r)
  let ry := v.rd (F.rectPos_Y p r)
  let x1 := min (x + w) (v.hactive p)
  let y1 := min (y + h) (v.vactive p)
  x1 ≤ x || y1 ≤ y || (rx ≤ x && x1 ≤ rx + v.rd (F.rectSize_W p r) && ry ≤ y && y1 ≤ ry + v.rd (F.rectSize_H p r))

/-- An enabled rectangle checks the safety plane's whole window (R241). -/
def State.safeChecked (v : State) (p j : Nat) : Bool :=
  !v.safeSet p j || (List.range 64).any fun r =>
    v.flag (F.rectCtl_EN p r) && v.flag (F.rectCtl_MATCH_EN p r) && v.rd (F.rectCtl_EXP_COUNT p r) != 0
      && v.bitOf (F.rectLayers_MASK p r) (13 + j)
      && v.rectCovers p r (v.rd (F.safePos_X p j)) (v.rd (F.safePos_Y p j)) (v.rd (F.safeSize_W p j)) (v.rd (F.safeSize_H p j))

/-- The expected table of pipe `p` lies in one window (R232). -/
def State.expTableOk (v : State) (p : Nat) : Bool :=
  v.rd (F.rindExpBase_ADDR p) % 8192 == 0 && v.inLock (v.rd (F.rindExpBase_ADDR p)) 8192

/-- An enabled rectangle of pipe `p` compares with the expected table, so that the table is in use (R232, R233; DEDUCED,
assumption 116). -/
def State.tableUsed (v : State) (p : Nat) : Bool :=
  v.flag (F.rindCtl_EN p) && (List.range 64).any fun r =>
    v.flag (F.rectCtl_EN p r) && v.flag (F.rectCtl_MATCH_EN p r) && v.rd (F.rectCtl_EXP_COUNT p r) != 0

/-- An engine is enabled; KIND 3 is taken as EN = 0 (R141). -/
def State.engineSet (v : State) (n : Nat) : Bool := v.flag (F.planeCfg_EN n) && v.rd (F.planeCfg_KIND n) != 3

/-- A class-0 layer is enabled; class-0 demand D0, in bytes per cclk; and its bound (R245, R521). -/
def State.class0Set (v : State) : List Nat := (List.range 32).filter fun n => v.engineSet n && v.flag (F.planeCfg_CLASS0 n)
def State.safeCount (v : State) : Nat :=
  ((List.range 8).map fun p => ((List.range 2).filter (v.safeSet p)).length).sum
def State.demand (v : State) : Nat :=
  let raced := (List.range 16).filter fun n => v.flag (F.streamCtl_RACED n) && v.streamOn n
    && ((v.feedOf n).isNone || v.class0Set.any fun e => v.planeSel e == 2 && v.planeStream e == n)
  v.class0Set.length * 16 + v.safeCount * 8 + raced.length * 4 + ((List.range 8).filter fun p => v.flag (F.rindCtl_EN p)).length
def State.demandOk (v : State) : Bool :=
  (v.class0Set.isEmpty && v.safeCount == 0) || v.demand ≤ v.rd F.vatCtl_C0_RES * 128

/-! ### Plane engines (R105, R115, R120, R123, R126, R136, R221) -/

/-- The engine's FORMAT fits its KIND (R120, R123); KIND 3 is an engine that is not enabled (R141). -/
def State.formatFits (v : State) (n : Nat) : Bool :=
  let f := v.rd (F.planeFmt_FORMAT n)
  match v.rd (F.planeCfg_KIND n) with
  | 0 => 0x20 ≤ f && f ≤ 0x22
  | 1 => f ≤ 8
  | 2 => v.planeSel n != 0 || (0x10 ≤ f && f ≤ 0x14)
  | _ => true

/-- The enabled engines of pipe `p`. -/
def State.enginesOf (v : State) (p : Nat) : List Nat :=
  (List.range 32).filter fun n => v.engineSet n && v.rd (F.planeCfg_PIPE n) == p

/-- A VIDEO engine in RING or RACED mode that names stream `st`. -/
def State.readsStream (v : State) (n st : Nat) : Bool :=
  v.flag (F.planeCfg_EN n) && v.planeKind n == 2 && v.planeSel n != 0 && v.planeStream n == st

/-- A stream is enabled with a RAW data type (R126). -/
def State.rawStream (v : State) (st : Nat) : Bool :=
  v.flag (F.streamCtl_EN st) && (v.feedOf st).isNone && 0x2A ≤ v.rd (F.streamCtl_DT st) && v.rd (F.streamCtl_DT st) ≤ 0x2E

/-- The limits of R115 that one setting shows by itself; no step is refused (R111). -/
def State.planeLimits (v : State) (n : Nat) : Bool :=
  v.rd (F.planeSrc_SRC_W n) ≤ 16384 && v.rd (F.planeSrc_SRC_H n) ≤ 16384 && v.rd (F.planeDst_DST_H n) ≤ 8192

/-- The budget of R136. -/
def State.budgetOk (v : State) (n : Nat) : Bool :=
  let p := v.rd (F.planeCfg_PIPE n)
  v.pipeHz p == 0 || v.planeCost n (v.rd (F.planeWmax_WIDTH n)) ≤ 600000000 * v.htotal p / v.pipeHz p

/-- The conditions of R221 on an enabled engine that reads raced stream `st`, beside the port's: class, cost, drift and landing
ring. Times are in ns × f_pipe. -/
def State.racedOk (v : State) (n : Nat) : Bool :=
  let st := v.planeStream n
  let f := v.pipeHz (v.rd (F.planeCfg_PIPE n))
  let t := v.htotal (v.rd (F.planeCfg_PIPE n)) * 1000000000
  let ns := v.prm (P.streamLineNs st)
  let a : Int := (t * 2 ^ 20 : Nat)
  let b : Int := (v.rd (F.planeVstep_STEP n) * ns * f : Nat)
  let both := v.flag (F.planeCfg_EN n) && v.planeKind n == 2 && v.planeSel n == 2
  !both ||
    ((v.flag (F.planeCfg_CLASS0 n) || (v.feedOf st).isSome) && v.planeCost n (v.rd (F.planeWmax_WIDTH n)) ≤ 5100
      && ((List.range 32).filter fun m => v.readsStream m st && v.planeSel m == 2).length ≤ 1
      && (f == 0 || !v.streamOn st || ns != 0 &&
          ((v.rd (F.planeDst_DST_H n) : Int) * (if b ≤ a then a - b else b - a) ≤ ((t : Int) - 2000 * f) * 2 ^ 20
            && 4 + (2 * t + 12000 * f + ns * f - 1) / (ns * f) ≤ v.rd (F.streamLand_LINES st))))

/-- The source of class-0 engine `n` lies in the Vat: at the bases in use where it stays in its pipe and slot with committed ones, else
at the parameter bases that it joins with (R105, R179, R244). -/
def State.class0Held (v : State) (n : Nat) : Bool :=
  let committed := (v.plane n).pipe == some (v.rd (F.planeCfg_PIPE n)) && (v.plane n).slot == v.rd (F.planeCfg_SLOT n)
    && !(v.plane n).paramBase
  let (a, b) := if committed then (v.rd (F.planeBase_ADDR n), v.rd (F.planeBase2_ADDR n)) else (v.prm (P.planeBase n), v.prm (P.planeBase2 n))
  v.planeSel n != 0 || (isVat a && (v.planeExtents n a b).all fun e => isVat e.1 && e.1 + e.2 ≤ vatBase + 0x10000000)

/-- An enabled engine keeps R105, R114, R115, R120, R126, R136 and R221. An engine that is not enabled is judged when it is enabled
(DEDUCED, assumption 156). -/
def State.engineOk (v : State) (n : Nat) : Bool :=
  let p := v.rd (F.planeCfg_PIPE n)
  let mates := v.enginesOf p
  let slot (m : Nat) : Nat := v.rd (F.planeCfg_SLOT m)
  !v.engineSet n ||
    (mates.length ≤ 12 && !(mates.any fun m => m != n && slot m == slot n)
      && (mates.filter fun m => v.flag (F.planeCfg_CLASS0 m)).length ≤ 4
      && (!v.flag (F.planeCfg_CLASS0 n) || (v.planeMode n == 0 && v.class0Held n))
      && v.formatFits n && v.budgetOk n && 2 ≤ v.vmin p
      && v.rd (F.planeWmax_WIDTH n) ≤ (if v.flag (F.planeCfg_WIDE n) && v.planeMode n == 0 then 8192 else 4096)
      && !(v.planeKind n == 2 && v.planeSel n != 0 && v.rawStream (v.planeStream n)) && v.racedOk n)

/-! ### Display ports (R194, R196) -/

/-- The refresh rate of pipe `p` at `b` blanking lines, in Hz: a fraction in its lowest terms. -/
def State.refresh (v : State) (p b : Nat) : Nat × Nat :=
  let dots := v.htotal p * (v.vactive p + b)
  (v.pipeHz p / Nat.gcd (v.pipeHz p) dots, dots / Nat.gcd (v.pipeHz p) dots)

/-- The first bound of R196, and the sink's Adaptive-Sync where the pipe's blanking varies. -/
def State.routeOk (v : State) (k : Nat) : Bool :=
  let p := v.rd (F.portCtl_PIPE k)
  let slew := if v.prm (P.lockEn p) != 0 then deriveSlew (v.prm (P.lockSlewPpm p)) (v.pipeHz p) else 0
  !v.flag (F.portCtl_EN k) || v.pipeHz p == 0 ||
    (lanesCarry (v.pipeHz p) slew (v.rd (F.pipeCtl_DEPTH p)) (v.portWidth k) (v.rd (F.portCtl_RATE k))
      && (v.vmax p ≤ v.vmin p || Config.sinkCovers k (v.refresh p (v.vmax p)) (v.refresh p (v.vmin p))))

/-- Four lanes are for even ports, whose odd neighbour cannot then be enabled (R194). -/
def State.lanesOk (v : State) (k : Nat) : Bool :=
  let four (i : Nat) : Bool := v.rd (F.portCtl_LANES i) == 2
  !v.flag (F.portCtl_EN k) ||
    (if k % 2 = 1 then !four k && !(v.flag (F.portCtl_EN (k - 1)) && four (k - 1))
     else !(four k && v.flag (F.portCtl_EN (k + 1))))

/-! ### Camera ingest (R207, R209, R221, R520) -/

/-- Bits per pixel on the wire, 0 for a data type that R208 does not list. -/
def wireBpp (dt : Nat) : Nat :=
  match dt with
  | 0x1E => 16 | 0x1F => 20 | 0x24 => 24 | 0x2A => 8 | 0x2B => 10 | 0x2C => 12 | 0x2D => 14 | 0x2E => 16
  | d => if 0x30 ≤ d ∧ d ≤ 0x37 then 30 else 0

def State.streamW (v : State) (n : Nat) : Nat := v.rd (F.streamSize_W n)
def State.streamH (v : State) (n : Nat) : Nat := v.rd (F.streamSize_H n)

/-- The enabled camera streams of a port. -/
def State.camerasOf (v : State) (k : Nat) : List Nat :=
  (List.range 16).filter fun n => v.flag (F.streamCtl_EN n) && (v.feedOf n).isNone && v.rd (F.streamCtl_PORT n) == k

/-- The port's PHY settings and its streams' loads (R206, R207). -/
def State.csiOk (v : State) (k : Nat) : Bool :=
  let cphy := v.flag (F.csiCtl_CPHY k)
  let code := min 2 (v.rd (F.csiCtl_LANES k))
  let rate := v.rd (F.csiCtl_RATE k) * 1000000
  -- sevenths of a bit/s
  let phy := if cphy then (code + 1) * rate * 16 else [1, 2, 4].getD code 4 * rate * 7
  let cams := v.camerasOf k
  let (n, d) := fracSum (cams.map fun c => ((v.streamW c * wireBpp (v.rd (F.streamCtl_DT c)) + 48) * 1000000000, max 1 (v.prm (P.streamLineNs c))))
  80000000 ≤ rate && rate ≤ (if cphy then 3500000000 else 6000000000) && phy ≤ 7 * 24000000000 && n * 7 ≤ phy * d
    && (cams.map fun c => v.streamW c * v.streamH c * v.prm (P.streamFpsMax c)).sum ≤ 80000000000

/-- The Vat ranges a stream lands in: its ring, and its landing lines where it is raced (R210, R217). -/
def State.streamRanges (v : State) (n : Nat) : List (Nat × Nat) :=
  (v.rd (F.streamRingBase_ADDR n), (v.ringCount n - 1) * v.rd (F.streamSpacing_BYTES n) + v.streamH n * v.rd (F.streamStride_BYTES n))
    :: (if v.flag (F.streamCtl_RACED n) then [(v.rd (F.streamLandBase_ADDR n), v.landLines n * v.rd (F.streamStride_BYTES n))] else [])

def meets (a b : Nat × Nat) : Bool := a.1 < b.1 + b.2 && b.1 < a.1 + a.2

/-- The ring and landing lines of an enabled stream, and its port's raced streams (R209, R221, R521). -/
def State.ringOk (v : State) (n : Nat) : Bool :=
  let w := v.streamW n
  let h := v.streamH n
  let st := v.rd (F.streamStride_BYTES n)
  let fmt := v.streamFmt n
  let mine := v.streamRanges n
  let others := ((List.range 16).filter fun m => m != n && v.streamOn m).flatMap v.streamRanges
  let racedMates := (List.range 16).filter fun m => v.streamOn m && v.flag (F.streamCtl_RACED m) &&
    (match v.feedOf m, v.feedOf n with
     | none, none => v.rd (F.streamCtl_PORT m) == v.rd (F.streamCtl_PORT n)
     | some a, some b => a / 4 == b / 4
     | _, _ => false)
  2 ≤ w && w ≤ 8192 && 1 ≤ h && h ≤ 8192 && (!(fmt == some 0x10 || fmt == some 0x11) || w % 2 == 0)
    && w * landBytes fmt ≤ st && st * h ≤ v.rd (F.streamSpacing_BYTES n)
    && (mine.all fun r => r.1 % 64 == 0 && vatBase ≤ r.1 && r.1 + r.2 ≤ vatBase + 0x10000000 && !(others.any (meets r))
        && !(v.lockWindows.any fun w => meets r (vatBase + w.1, w.2)))
    && (!v.flag (F.streamCtl_RACED n) || racedMates.length ≤ 2)

/-- An enabled camera stream keeps R126, R209 and R221. -/
def State.streamOk (v : State) (n : Nat) : Bool :=
  let key (m : Nat) : Nat × Nat × Nat := (v.rd (F.streamCtl_PORT m), v.rd (F.streamCtl_VC m), v.rd (F.streamCtl_DT m))
  !v.flag (F.streamCtl_EN n) || (v.feedOf n).isSome ||
    (wireBpp (v.rd (F.streamCtl_DT n)) != 0 && v.prm (P.streamLineNs n) != 0 && v.ringOk n && v.csiOk (v.rd (F.streamCtl_PORT n))
      && !((v.camerasOf (v.rd (F.streamCtl_PORT n))).any fun m => m != n && key m == key n)
      && !((List.range 32).any fun e => v.readsStream e n && (v.rawStream n || !v.racedOk e)))

/-! ### Audio (R305, R310, R313 to R315, R319, R321, R322, R326) -/

/-- The rate of a domain at a rate code, in Hz (R304). -/
def domRate (d code : Nat) : Nat := [48000, 44100, 8000].getD d 8000 * 2 ^ code

def State.rateOf (v : State) (d : Nat) : Nat := domRate d (dom (v.rd (F.audDomCtl_RATE d)))

/-- Some member of a domain is enabled (R305). -/
def State.domainBusy (s : State) (d : Nat) : Bool :=
  ((List.range 8).any fun p => s.flag (F.tdmCtl_EN p) && dom (s.rd (F.tdmCtl_DOMAIN p)) == d)
    || ((List.range 2).any fun g => s.flag (F.pdmCtl_EN g) && dom (s.rd (F.pdmCtl_DOMAIN g)) == d)
    || ((List.range 4).any fun c => s.flag (F.audCoreCtl_RUN c) && dom (s.rd (F.audCoreCtl_DOMAIN c)) == d)
    || ((List.range 8).any fun k => s.rd (F.playStatus_STATE k) != 0 && s.playDomain k == d)
    || ((List.range 2).any fun l => s.flag (F.cascLAud_EN l) && dom (s.rd (F.cascLAud_DOMAIN l)) == d)
    || (List.range 6).any fun b => s.flag (F.asrcCtl_EN b) && (dom (s.rd (F.asrcCtl_SRC_DOM b)) == d || dom (s.rd (F.asrcCtl_DST_DOM b)) == d)

/-- The limits of R310. -/
def State.tdmOk (v : State) (p : Nat) : Bool :=
  let w := [16, 24, 32].getD (v.rd (F.tdmCtl_WIDTH p)) 32
  let slots := v.tdmSlots p
  let bits := if v.flag (F.tdmCtl_BITS p) then 24 else 16
  (2 ≤ v.rd (F.tdmCtl_FORMAT p) || slots == 2) && bits ≤ w && v.rateOf (dom (v.rd (F.tdmCtl_DOMAIN p))) * slots * w ≤ 24576000

/-- A PDM group in domain A at 48 kHz, or in domain C (R313). -/
def State.pdmOk (v : State) (g : Nat) : Bool :=
  match v.rd (F.pdmCtl_DOMAIN g) with
  | 1 => false
  | 2 => true
  | _ => v.rateOf 0 == 48000

/-- A crosspoint code the firmware takes (R314). -/
def State.codeOk (v : State) (src : Bool) (code : Nat) : Bool :=
  v.codeValid src code && !(v.standalone && 0x500 ≤ code && code < 0x520)

/-- Every node of an input, or of an output, has gain and target 0 (R319). -/
def State.nodesQuiet (s : State) (input : Bool) (n : Nat) : Bool :=
  (List.range 128).all fun m =>
    let (o, i) := if input then (m, n) else (n, m)
    s.rd (F.xpGain_TARGET o i) == 0 && s.rd (F.xpGain_CURRENT o i) == 0

/-- A change keeps R319: the inputs and outputs that it gives another selector or another domain are quiet. -/
def routesQuiet (old v : State) : Bool :=
  (List.range 128).all fun n =>
    ((old.rd (F.xpIn_SRC n) == v.rd (F.xpIn_SRC n) && old.inDomain n == v.inDomain n) || old.nodesQuiet true n)
      && ((old.rd (F.xpOut_DST n) == v.rd (F.xpOut_DST n) && old.outDomain n == v.outDomain n) || old.nodesQuiet false n)

/-- Both ends of a node lie in one domain (R315). -/
def State.nodeLive (v : State) (i o : Nat) : Bool := (v.inDomain i).isSome && v.inDomain i == v.outDomain o

/-- A side-tone path runs from a received slot or a PDM input to a sent slot, in domain A at 48 kHz (R321). -/
def State.sideOk (v : State) (t : Nat) : Bool :=
  let src := v.rd (F.stCtl_SRC t)
  let dst := v.rd (F.stCtl_DST t)
  !v.flag (F.stCtl_EN t) || ((0x100 ≤ src && src < 0x208 && 0x100 ≤ dst && dst < 0x180) && v.codeDomain true src == some 0
    && v.codeDomain false dst == some 0 && v.rateOf 0 == 48000)

/-- A core's buffers lie in its data memory and apart (R326). -/
def State.buffersOk (v : State) (c : Nat) : Bool :=
  let n := 128 * v.rd (F.audCoreCtl_BLOCK_LEN c)
  let i := v.rd (F.audCoreIn_BASE c)
  let o := v.rd (F.audCoreOut_BASE c)
  i + n ≤ 0x60000 && o + n ≤ 0x60000 && !(meets (i, n) (o, n))

/-! ### Timers, pins, interrupts, links (R384, R386, R390, R404, R410, R513, R520, R592) -/

def State.timerOk (v : State) (n : Nat) : Bool :=
  let src := v.rd (F.timerCtl_SRC n)
  src ≤ 9 && !(n == 0 && src == 9) && !(v.rd (F.timerCtl_SLAVE n) == 1 && v.rd (F.timerCtl_MEVT n) < 2)

def State.pinOk (v : State) (i : Nat) : Bool := v.rd (F.pinCfg_MUX i) ≤ 10 && v.rd (F.pinCfg_OVL i) ≤ 10

def State.targetOk (v : State) (n : Nat) : Bool :=
  destValid (v.rd (F.intcTgt_DEST n)) && !(v.standalone && v.rd (F.intcTgt_DEST n) == 3)

/-- Both bounds of R513 on each link, at the width it has, or is set to where it is not UP. -/
def State.linksOk (v : State) : Bool :=
  let v := v.forN 8 fun p v =>
    (v.wr (F.lockCtl_EN p) (v.prm (P.lockEn p))).wr (F.lockCtl_SLEW p) (deriveSlew (v.prm (P.lockSlewPpm p)) (v.rd (F.pipeFreq_HZ p)))
  (List.range 2).all fun l =>
    let lanes := if v.linkUp l then v.rd (F.cascLStatus_LANES_ACTIVE l) else [1, 2, 4].getD (v.rd (F.cascLCtl_LANES_MAX l)) 4
    v.feedsAdmitted l lanes (v.senders l)

/-- A feed binds a stream that is not enabled as a camera stream, and no other feed binds (R520). -/
def State.feedOk (v : State) (k : Nat) : Bool :=
  let n := v.rd (F.cascFeedCtl_STREAM k)
  !v.flag (F.cascFeedCtl_EN k) ||
    (!((List.range 8).any fun j => j != k && v.flag (F.cascFeedCtl_EN j) && v.rd (F.cascFeedCtl_STREAM j) == n) && v.ringOk n)

end Sys2Proof.Machine
end

