-- ==== Sys2Proof/Machine/Params.lean ====
section
/-! DEFINITION. Parameter records (R426, R427): their format, the checks on each, and the requests PARAM_SET and PARAM_GET over any
source of records: a mailbox, or the CONFIG records of a service. -/

namespace Sys2Proof.Machine

/-! ### Values -/

/-- The writable fields of `n` bits at an IRS offset, as a value and set to one. -/
def State.regPart (s : State) (off n : Nat) : Nat :=
  match findReg off with
  | none => 0
  | some h => bitsAt (h.flds.foldl (fun a f => if f.typ == .rw then a + s.rd f * 2 ^ f.lsb else a) 0) (if h.high then 32 else 0) n

def setRegPart (off n v : Nat) (s : State) : State :=
  match findReg off with
  | none => s
  | some h => writeFlds (h.flds.filter fun f => f.typ == .rw) (if h.high then 32 else 0) n v s

/-- The registers of a table parameter: base offset and count of 32-bit words (R145, R168, R205, R341). -/
def blobWords (pid : Nat) : List (Nat × Nat) :=
  let p := (pid - 0x3800) / 4
  if 0x3800 ≤ pid ∧ pid < 0x3820 then
    match pid % 4 with
    | 0 => [(0x320000 + p * 0x8000, 1025)]
    | 1 => [(0x321400 + p * 0x8000, 1025)]
    | _ => [(0x322800 + p * 0x8000, 1025), (0x323C00 + p * 0x8000, 1025), (0x325000 + p * 0x8000, 1025)]
  else if 0x4800 ≤ pid ∧ pid < 0x4820 then [(0x480000 + (pid - 0x4800) * 0x800, 512)]
  else if 0x5100 ≤ pid ∧ pid < 0x5108 then [(0x528000 + (pid - 0x5100) * 0x800, 512)]
  else if 0x5380 ≤ pid ∧ pid < 0x53C0 then [(0x520000 + (pid - 0x5380) * 0x100, 64)]
  else if 0x5400 ≤ pid ∧ pid < 0x5440 then [(0x500000 + (pid - 0x5400) * 0x800, 512)]
  else if 0xA540 ≤ pid ∧ pid < 0xA548 then [(0xA00400 + (pid - 0xA540) * 0x40, 6)]
  else []

/-- The device address of the half that RIND_EXP writes (R252). -/
def State.expHalfAt (s : State) (p : Nat) : Nat :=
  s.rd (F.rindExpBase_ADDR p) + (if s.flag (F.rindCtl_EXP_HALF p) then 0 else 4096)

/-- The value of a table parameter in effect. -/
def State.blobBytes (s : State) (pid : Nat) : List Byte :=
  if 0xA400 ≤ pid ∧ pid < 0xA480 then
    (List.range 128).flatMap fun i => natLE 2 (s.rd (F.xpGain_TARGET (pid - 0xA400) i))
  else if 0x7900 ≤ pid ∧ pid < 0x7908 then
    -- all zero before a base is set (R252)
    if isVat (s.rd (F.rindExpBase_ADDR (pid - 0x7900))) then (memRead .cellar (s.expHalfAt (pid - 0x7900)) 4096 s).1
    else List.replicate 4096 0#8
  else (blobWords pid).flatMap fun w => (List.range w.2).flatMap fun i => natLE 4 (s.regPart (w.1 + 4 * i) 32)

/-- A table's registers set from its bytes. The PLAY registers' CTL has an operation of its own. -/
def setBlob (pid : Nat) (b : List Byte) (s : State) : State :=
  let words := (blobWords pid).flatMap fun w => (List.range w.2).map fun i => w.1 + 4 * i
  (s.forL words.zipIdx fun w s =>
    if 0xA540 ≤ pid ∧ pid < 0xA548 ∧ w.2 = 3 then s else setRegPart w.1 32 (fieldAt b (4 * w.2) 4) s)

/-- A scalar parameter's value, as PARAM_GET returns it. LOCK_FIXED reads as the mode that holds, which firmware sets where the blanking
range is a single value (R70; DEDUCED, assumption 130). -/
def State.paramValue (s : State) (pid : Nat) : Nat :=
  match s.paramOf pid with
  | none => 0
  | some p =>
    let v := match p.hold with
      | .flds l => l.foldl (fun a f => a + s.rd f.1 * 2 ^ f.2) 0
      | .code f vals => vals.getD (s.rd f) 0
      | .reg off n => s.regPart off n
      | .prm q => s.prm q
      | .both q _ => s.prm q
      | .strobe => 0
      | .blob _ => 0
    if 0x2100 ≤ pid ∧ pid < 0x2180 ∧ pid % 0x10 = 5 then s.lockFixedNow ((pid - 0x2100) / 0x10)
    else if 0xA500 ≤ pid ∧ pid < 0xA502 then v + s.rd (F.stGain_TARGET (pid - 0xA500)) * 2 ^ 32 else v

/-- CSI_LANES, whose values 3 and 4 share a code of the register (R225, R227). -/
def isCsiLanes (pid : Nat) : Bool := 0x6000 ≤ pid && pid < 0x6040 && pid % 0x10 == 2

/-- A scalar parameter's value stored, with none of what follows from it. A gain, a compare and a count have operations of their
own, and a ring parameter waits (R317, R388, R446). -/
def setParam (pid v : Nat) (s : State) : State :=
  if (0x0100 ≤ pid ∧ pid < 0x0200) ∨ (0xB000 ≤ pid ∧ pid < 0xB400 ∧ (pid % 0x10 = 4 ∨ pid % 0x10 = 5)) then s
  else match s.paramOf pid with
  | none => s
  | some p =>
    match p.hold with
    | .flds l => s.forL l fun f s => s.wr f.1 (v / 2 ^ f.2)
    | .code f vals => s.wr f <| if isCsiLanes pid then min 2 (v - 1) else ((vals.findIdx? (· == v)).getD 0)
    | .reg off n => setRegPart off n v s
    | .prm q => s.setPrm q v
    | .both q l => (s.forL l fun f s => s.wr f.1 (v / 2 ^ f.2)).setPrm q (l.foldl (fun a f => a + bitsAt v f.2 f.1.width * 2 ^ f.2) 0)
    | .strobe => s
    | .blob _ => s

/-! ### Records -/

/-- A parameter record; `whole` is false for one that the payload cuts short (R426). -/
structure Rec where
  pid : Nat
  len : Nat
  off : Nat
  value : List Byte
  whole : Bool
  /-- Where a RIND_EXP record writes: the half not in EXP_HALF as the records before it set it (R252). -/
  dest : Nat

/-- The records of a payload, with or without values; `fuel` bounds them (R426). -/
def parseRecs (values : Bool) : Nat → List Byte → List Rec
  | 0, _ => []
  | fuel + 1, b =>
    if b.isEmpty then []
    else
      let r : Rec := ⟨fieldAt b 0 2, fieldAt b 2 2, fieldAt b 4 4, [], false, 0⟩
      let body := b.drop 8
      let n := (r.len + 3) / 4 * 4
      if b.length < 8 then [r]
      else if !values then { r with whole := true } :: parseRecs values fuel body
      else if body.length < n then [r]
      else { r with value := body.take r.len, whole := true } :: parseRecs values fuel (body.drop n)

def recsOf (values : Bool) (b : List Byte) : List Rec := parseRecs values (b.length / 8 + 1) b

/-- The 16-bit signed parameters take their value in the low bytes, zero- or sign-extended (DESIGN CHOICE, assumption 32). -/
def Rec.scalar (r : Rec) : Nat :=
  let v := leNat r.value
  if (r.pid = 0x0801 ∨ r.pid = 0x0802) ∧ 2 ^ 32 - 2 ^ 15 ≤ v then v % 65536 else v

/-- Where a request comes from: its mailbox, the interface that rang it, and whether it belongs to boot-to-view (R190). -/
structure Source where
  mbx : Nat
  via : Via
  boot : Bool

/-- The records of a service (R481) come from the Cellar itself, under a mailbox number of their own. -/
def serviceSource (boot : Bool) : Source := ⟨16, .cellar, boot⟩

/-- What the pieces staged by a mailbox for a blob become with a record more; none where the record does not fit (R427). -/
def stage (src : Source) (n : Nat) (r : Rec) (l : List Staging) : Option (List Byte × List Staging) :=
  let have_ := if r.off = 0 then [] else ((l.find? fun g => g.mbx == src.mbx && g.pid == r.pid).map (·.bytes)).getD []
  if r.off ≠ have_.length ∨ n < r.off + r.len ∨ r.len = 0 then none
  else
    let b := have_ ++ r.value
    let rest := l.filter fun g => !(g.mbx == src.mbx && g.pid == r.pid)
    if b.length = n then some (b, rest.filter fun g => g.pid != r.pid) else some (b, ⟨src.mbx, r.pid, b⟩ :: rest)

/-! ### Checks on one record -/

/-- The pins that a record on a bit per pin names: those with a one, and for PIN_OE those whose enable it changes (R602; DEDUCED,
assumption 184). -/
def State.pinsNamed (s : State) (pid v : Nat) : Nat :=
  match pid with
  | 0xC104 => v ^^^ s.rd F.pinOeLo_PIN
  | 0xC105 => v ^^^ s.rd F.pinOeHi_PIN
  | _ => v

/-- A service holds what the record names (R288, R477, R602): for XP_GAINS, whose whole value is `b`, the inputs too whose nodes it
changes. -/
def State.recHeld (s : State) (r : Rec) (b : List Byte) : Bool :=
  let (c, i) := resourceOf r.pid
  let v := leNat r.value
  s.heldRes c i
    || (0xA400 ≤ r.pid && r.pid < 0xA480 && b.length == 256 && (List.range 128).any fun n =>
          s.heldRes 0xA20 n && fieldAt b (2 * n) 2 != s.rd (F.xpGain_TARGET (r.pid - 0xA400) n))
    || (c == 0xF0 && s.heldRes 0x30 i)
    || (r.pid == 0xA480 && (s.heldRes 0xA20 (v % 128) || s.heldRes 0xA28 (v / 256 % 128)))
    || (c == 0xB8 && (bitsSet 64 v).any (s.heldRes 0xB0))
    || (c == 0xC1 && (bitsSet 64 (s.pinsNamed r.pid v)).any fun j => s.heldRes 0xC0 (j + (if r.pid % 2 = 1 then 64 else 0)))

/-- TELLTALE or REAR is RUNNING, so that the CAN parameters are not the host's (R500). -/
def State.canOwned (s : State) : Bool :=
  bitsAt (s.rd F.svcStatus_STATE) 3 3 == 2 || bitsAt (s.rd F.svcStatus_STATE) 12 3 == 2

/-- The record changes what its requester does not own (R48, R70, R288, R477, R500). -/
def State.recNotOwned (s : State) (src : Source) (r : Rec) (b : List Byte) : Bool :=
  (0x2000 ≤ r.pid && r.pid < 0x2100 && s.isSlave)
    || (src.via != .cellar && (s.recHeld r b || (0x0910 ≤ r.pid && r.pid < 0x0920 && s.canOwned)))

/-- The record enables a unit that is RETIRED, or needs a block that is unusable (R206, R312, R563, R565, R573). -/
def State.recRetired (s : State) (r : Rec) : Bool :=
  let on := leNat r.value % 2 == 1
  let o := r.pid % 0x1000
  match r.pid / 0x1000 with
  | 0 => 0x0910 ≤ r.pid && r.pid < 0x0920 && r.pid % 8 == 0 && leNat r.value != 0 && s.unitState (unitId 8 ((r.pid - 0x0910) / 8)) == 2
  | 3 =>
    if o < 0x200 then
      (o % 0x40 == 0 && on && !s.usable 18 (o / 0x40))
        || ((o % 0x40 == 0x10 || o % 0x40 == 0x18) && on && !s.usable 19 (o / 0x40))
    else 0x400 ≤ o && o < 0x480 && o % 0x10 == 0 && on && s.unitState (unitId 0 ((o - 0x400) / 0x10)) == 2
  | 4 => o < 0x800 && o % 0x40 == 0 && on && !s.usable 16 (o / 0x40)
  | 5 => o < 8 && on && !s.usable 17 0
  | 6 =>
    if o < 0x40 then o % 0x10 == 0 && on && s.unitState (unitId 2 (o / 0x10)) == 2
    else o % 0x20 == 0 && on && !s.usable 25 0
  | 7 => 0x800 ≤ o && o < 0x840 && o % 8 == 0 && on && !s.usable 19 ((o - 0x800) / 8)
  | 10 =>
    !s.usable 24 0 || (0x100 ≤ o && o < 0x108 && on && s.unitState (unitId 6 (o - 0x100)) == 2)
      || (0x600 ≤ o && o % 0x10 == 0 && on && !s.usable 21 ((o - 0x600) / 0x10))
  | 15 => o % 0x10 == 0 && on && !s.usable 20 (o / 0x10)
  | _ => false

/-- An enabled camera stream or feed whose settings a record names (R209). -/
def State.streamHeld (s : State) (r : Rec) : Bool :=
  let o := r.pid - 0x6100
  0x6100 ≤ r.pid && r.pid < 0x6300 && s.streamOn (o / 0x20) && !([0x00, 0x09, 0x0C, 0x10, 0x11, 0x12, 0x13, 0x14].contains (o % 0x20))

/-- The record changes a value that cannot change now (R76, R171, R209, R252, R305). -/
def State.recBusy (s : State) (r : Rec) : Bool :=
  let moved := s.paramValue r.pid != r.scalar
  let p := (r.pid - 0x3000) / 0x40
  (0x3000 ≤ r.pid && r.pid < 0x3200 && 2 ≤ r.pid % 0x40 && r.pid % 0x40 ≤ 5 && moved && (s.flag (F.pipeCtl_EN p) || s.pipeOn p))
    || (s.streamHeld r && moved)
    || (0xA000 ≤ r.pid && r.pid < 0xA030 && moved && s.domainBusy ((r.pid - 0xA000) / 0x10))
    -- the master-clock source of C is that of A (R304)
    || (r.pid == 0xA001 && moved && s.domainBusy 2)
    || (r.pid == 0xD006 && leNat r.value % 2 == 1 && s.scanning)
    -- the slot of the running package (R482)
    || (r.pid == 0x0902 && s.flag F.svcStatus_PKG_VALID && r.scalar == s.rd F.svcStatus_PKG_SLOT + 1)

/-- The reason of PIPE_LP5X_REASON is one that may be set now; the status that refuses it otherwise (R190). -/
def State.lp5xReason (s : State) (src : Source) (v : Nat) : Nat :=
  match v with
  | 1 => if src.boot then St.ok else St.badParam
  | 2 => if s.rd F.cellarStatus_LIFECYCLE = 1 ∨ s.rd F.cellarStatus_LIFECYCLE = 4 then St.ok else St.lifecycleDenied
  | 3 => if ((List.range 64).any fun k => s.unitState (unitId 4 k) == 2) || s.rd F.vatStatus_STATE != 2 then St.ok else St.badParam
  | _ => St.ok

/-- The value lies in the parameter's own range (R19, R404, R446, R475, R500, R588, R602). -/
def State.recInRange (s : State) (src : Source) (p : Param) (r : Rec) : Bool :=
  let v := r.scalar
  let coded := match p.hold with | .code _ vals => isCsiLanes r.pid || vals.contains v | _ => true
  let t := signedAt 16 v
  p.lo ≤ v && v ≤ p.hi && v % p.step == 0 && coded
    && (r.pid != 0x0801 || (-640 ≤ t && t ≤ 2800)) && (r.pid != 0x0802 || t ≤ 2800)
    && !(0x0100 ≤ r.pid && r.pid < 0x0200 && r.pid % 0x10 == 0 && v == 1 && (match src.via with | .xspi => true | .peer _ => true | _ => false))
    && !(0x0B00 ≤ r.pid && r.pid < 0x0B08 && v != 255 && (8 ≤ v || v == r.pid - 0x0B00))
    && !(r.pid == 0xE301 && !(s.flag F.cascStatus_POS_VALID && v < s.rd F.cascStatus_DEVICES))
    && !(0xF000 ≤ r.pid && r.pid % 0x10 == 1 && 24576 ≤ v)

/-- The value of a scalar record keeps the rules that it alone decides, whatever a later record sets (R384, R404, R426, R592). -/
def State.valueOk (v : State) (pid : Nat) : Bool :=
  let o := pid % 0x1000
  match pid / 0x1000 with
  | 1 => 0x200 ≤ o || v.targetOk o
  | 11 => !(o < 0x400 && o % 0x10 == 0) || v.timerOk (o / 0x10)
  | 12 => !(o < 112) || v.pinOk o
  | _ => true

/-- The status of a record by itself: against the state before the request, `v` holding what the records before it set. -/
def State.recStatus (s v : State) (src : Source) (r : Rec) (fits : Bool) (b : List Byte) : Nat :=
  match v.paramOf r.pid with
  | none => St.badParam
  | some p =>
    let scalar := match p.hold with | .blob _ => false | _ => true
    if !r.whole || !fits || (scalar && (r.off ≠ 0 || r.len ≠ (if p.wide then 8 else 4))) then St.badParam
    else if 0xE000 ≤ r.pid ∧ r.pid < 0xF000 ∧ s.standalone then St.badParam
    else if s.recNotOwned src r b then St.notOwner
    else if s.recRetired r then St.retiredUnit
    else if scalar && !s.recInRange src p r then St.badParam
    else if scalar && s.recBusy r then St.busy
    else if 0x3000 ≤ r.pid ∧ r.pid < 0x3200 ∧ r.pid % 0x40 = 0x0D then s.lp5xReason src r.scalar
    else if 0x7900 ≤ r.pid ∧ r.pid < 0x7908 ∧ s.latFlag (F.rindCtl_EN (r.pid - 0x7900))
        ∧ v.expHalfAt (r.pid - 0x7900) = s.lat (F.rindExpBase_ADDR (r.pid - 0x7900)) + s.lat (F.rindCtl_EXP_HALF (r.pid - 0x7900)) * 4096 then St.busy
    else St.ok

/-! ### Admission by record -/

def anyBad (l : List Bool) : Nat := if l.all id then St.ok else St.badParam

/-- Every rule on pipe `p` and on the settings that name it (R41, R56, R105, R136, R163, R170, R196, R221, R513, R620). -/
def State.pipeRules (v : State) (p : Nat) : Nat :=
  anyBad ([v.rasterOk p, v.dotRatesOk, v.lockOk p, v.harpOk, v.linksOk] ++ (v.enginesOf p).map v.engineOk
    ++ ((List.range 8).filter fun k => v.rd (F.portCtl_PIPE k) == p).map v.routeOk)

/-- The rules on safety plane `j` of pipe `p` that a setting of it keeps (R174, R241, R245). -/
def State.safeRules (v : State) (p j : Nat) : Nat :=
  if !(v.safeSourceOk p j && v.demandOk) then St.badParam else if v.safeChecked p j then St.ok else St.busy

/-- A change leaves no enabled safety plane of pipe `p` unchecked that was checked before (R241). -/
def keepsChecks (old v : State) (p : Nat) : Bool := (List.range 2).all fun j => v.safeChecked p j || !old.safeChecked p j

/-- The rules on Rind of pipe `p` (R232, R241, R245). -/
def rindRules (old v : State) (p : Nat) : Nat :=
  if !v.demandOk || (v.tableUsed p && !v.expTableOk p) then St.badParam else if keepsChecks old v p then St.ok else St.busy

/-- A window still holds every enabled safety plane's source and every expected table in use (R241). -/
def State.windowsHold (v : State) : Bool :=
  (List.range 8).all fun p => ((List.range 2).all fun j => !v.safeSet p j || v.safeSourceOk p j)
    && (!v.tableUsed p || v.expTableOk p)

/-- A clip player's routes are quiet, or its AUD_PLAY leaves its domain as it was (R319). -/
def State.playMayMove (s : State) (k : Nat) (b : List Byte) : Bool :=
  b.isEmpty || dom (bitsAt (fieldAt b 12 4) 4 2) == s.playDomain k
    || (List.range 128).all fun i => s.rd (F.xpIn_SRC i) != 0x600 + k || s.nodesQuiet true i

/-- CSI_LANES and the PHY fit each other, where the request names either: 3 is for a C-PHY alone, and 4 for a D-PHY alone (R227; a PHY
changed by itself under such a value is refused too, DEDUCED, assumption 134). -/
def lanesFit (old v : State) (k : Nat) (recs : List Rec) : Bool :=
  let cphy := v.flag (F.csiCtl_CPHY k)
  match recs.reverse.find? fun r => r.pid == 0x6002 + k * 0x10 with
  | some r => r.scalar ≤ 2 || (r.scalar == 3) == cphy
  | none => v.rd (F.csiCtl_LANES k) < 2 || old.flag (F.csiCtl_CPHY k) == cphy

/-- The request enables stream `n` as a camera stream of a RETIRED port (R209). -/
def onRetired (old v : State) (n : Nat) : Bool :=
  v.flag (F.streamCtl_EN n) && !old.flag (F.streamCtl_EN n) && (old.feedOf n).isNone
    && old.unitState (unitId 2 (v.rd (F.streamCtl_PORT n))) == 2

/-- The status that admission gives a record of a request: `old` before the request, `v` with the whole request set, both as
latched; `b` a table's bytes. -/
def admitRec (old v : State) (recs : List Rec) (r : Rec) (b : List Byte) : Nat :=
  let o := r.pid % 0x1000
  match r.pid / 0x1000 with
  | 0 =>
    if r.pid = 0x0801 ∨ r.pid = 0x0802 then anyBad [signedAt 16 (v.prm P.tempWarn) ≤ signedAt 16 (v.prm P.tempCrit)]
    else if 0x0910 ≤ r.pid ∧ r.pid < 0x0920 then
      anyBad [v.prm (P.canNominal ((r.pid - 0x0910) / 8)) ≤ v.prm (P.canData ((r.pid - 0x0910) / 8))]
    else St.ok
  | 1 => if o < 0x200 then anyBad [v.targetOk o] else St.ok
  | 2 => if o < 0x100 then anyBad (v.refOk :: (List.range 8).map v.lockOk) else v.pipeRules ((o - 0x100) / 0x10)
  | 3 =>
    if o < 0x200 then
      let p := o / 0x40
      if 0x10 ≤ o % 0x40 ∧ o % 0x40 < 0x20 then v.safeRules p ((o % 0x40 - 0x10) / 8)
      else
        let a := v.pipeRules p
        if a ≠ St.ok then a else if keepsChecks old v p then St.ok else St.busy
    else if o < 0x800 then
      let k := (o - 0x400) / 0x10
      anyBad [v.lanesOk k, v.routeOk k]
    else St.ok
  | 4 =>
    if o < 0x800 then
      let n := o / 0x40
      anyBad [v.planeLimits n || !([0x13, 0x18, 0x1A, 0x1B].contains (o % 0x40)), v.formatFits n || !([3, 7].contains (o % 0x40) || (o % 0x40 == 0x11 && v.planeKind n == 2)),
        v.engineOk n, v.demandOk]
    else St.ok
  | 5 =>
    if o < 8 then anyBad [v.harpOk]
    else if 0x10 ≤ o ∧ o < 0x28 then anyBad [v.stagingOk (o % 8)] else St.ok
  | 6 =>
    if o < 0x40 then anyBad [v.csiOk (o / 0x10), lanesFit old v (o / 0x10) recs]
    else
      let n := (o - 0x100) / 0x20
      let on := v.flag (F.streamCtl_EN n) && (old.feedOf n).isNone
      if onRetired old v n then St.retiredUnit
      else anyBad [v.streamOk n || !on, v.demandOk, (List.range 32).all fun e => !v.readsStream e n || v.racedOk e]
  | 7 =>
    let p := if o < 0x800 then o / 0x100 else if o < 0x900 then (o - 0x800) / 8 else o - 0x900
    let table := if 0x900 ≤ o ∧ !b.isEmpty then v.inLock (r.dest / 8192 * 8192) 8192 else v.expTableOk p
    if (0x900 ≤ o ∨ (0x800 ≤ o ∧ o % 8 = 1)) ∧ !table then St.badParam else rindRules old v p
  | 10 =>
    if o < 0x30 then anyBad [v.pdmOk 0 || !v.flag (F.pdmCtl_EN 0), v.pdmOk 1 || !v.flag (F.pdmCtl_EN 1)]
    else if o < 0x180 then (if !v.tdmOk (o - 0x100) then St.badParam else if routesQuiet old v then St.ok else St.busy)
    else if o < 0x200 then (if !v.pdmOk (o - 0x180) then St.badParam else if routesQuiet old v then St.ok else St.busy)
    else if o < 0x280 then
      (if !v.codeOk true (v.rd (F.xpIn_SRC (o - 0x200))) then St.badParam else if routesQuiet old v then St.ok else St.busy)
    else if o < 0x300 then
      let d := v.rd (F.xpOut_DST (o - 0x280))
      if !v.codeOk false d ∨ (d ≠ 0 ∧ (List.range 128).any fun m => m != o - 0x280 && v.rd (F.xpOut_DST m) == d) then St.badParam
      else if routesQuiet old v then St.ok else St.busy
    else if 0x400 ≤ o ∧ o < 0x480 then
      anyBad [(List.range 128).all fun i => fieldAt b (2 * i) 2 == 0 || b.isEmpty
        || fieldAt b (2 * i) 2 == old.rd (F.xpGain_TARGET (o - 0x400) i) || v.nodeLive i (o - 0x400)]
    else if o = 0x480 then
      anyBad [leNat r.value / 65536 == 0 || v.nodeLive (leNat r.value % 128) (leNat r.value / 256 % 128)]
    else if 0x500 ≤ o ∧ o < 0x502 then anyBad [v.sideOk (o - 0x500)]
    else if 0x510 ≤ o ∧ o < 0x516 then
      (if dom (v.rd (F.asrcCtl_SRC_DOM (o - 0x510))) = dom (v.rd (F.asrcCtl_DST_DOM (o - 0x510))) then St.badParam
       else if routesQuiet old v then St.ok else St.busy)
    else if 0x540 ≤ o ∧ o < 0x548 then (if old.playMayMove (o - 0x540) b then St.ok else St.busy)
    else if 0x600 ≤ o then
      (if !v.buffersOk ((o - 0x600) / 0x10) then St.badParam else if routesQuiet old v then St.ok else St.busy)
    else St.ok
  | 11 => if o < 0x400 ∧ o % 0x10 = 0 then anyBad [v.timerOk (o / 0x10)] else St.ok
  | 12 => if o < 112 then anyBad [v.pinOk o] else St.ok
  | 13 =>
    if 0x10 ≤ o ∧ o < 0x14 then (if !v.locksOk then St.badParam else if v.windowsHold then St.ok else St.busy)
    else if o = 1 then anyBad [v.demandOk] else St.ok
  | 14 =>
    if o < 0x20 then (if !v.linksOk then St.badParam else if o % 0x10 < 3 ∨ routesQuiet old v then St.ok else St.busy)
    else if 0x200 ≤ o ∧ o < 0x280 then
      anyBad [v.feedOk ((o - 0x200) / 0x10), !v.flag (F.cascFeedCtl_EN ((o - 0x200) / 0x10))
        || !(old.flag (F.streamCtl_EN (v.rd (F.cascFeedCtl_STREAM ((o - 0x200) / 0x10))))
              && (old.feedOf (v.rd (F.cascFeedCtl_STREAM ((o - 0x200) / 0x10)))).isNone), v.demandOk,
        (List.range 32).all v.racedOk]
    else St.ok
  | _ => St.ok

/-! ### What follows -/

/-- A CAN controller takes its mode: OFF, or ACTIVE with its error counts at 0; a RETIRED one stays OFF, and one that is bus-off and
is not turned off stays so until its recovery (R484, R500, R563). -/
def canStart (n : Nat) (s : State) : State :=
  let on := s.prm (P.canMode n) != 0 && s.unitState (unitId 8 n) != 2
  if on && s.rd (F.canStatus_STATE n) == 3 then s
  else ((s.wr (F.canStatus_STATE n) (bit on)).clr (F.canStatus_TEC n)).clr (F.canStatus_REC n)

/-- A lock parameter of pipe `n` is applied (R59, R70): an enable starts the lock, a disable stops it at once, anything else waits for
the next anchor where the lock runs. -/
def lockParam (n o : Nat) (s : State) : State :=
  if o = 0 then
    (if s.prm (P.lockEn n) = 0 then lockOff n (s.clr (F.lockCtl_EN n))
     else
      let was := s.lockOn n
      if was then s
      else
        let s := lockApply n (s.set1 (F.lockCtl_EN n))
        if s.pipeOn n then lockRestart n s else s)
  else if o = 4 then s.wr (F.lockCtl_SLEW n) (deriveSlew (s.prm (P.lockSlewPpm n)) (s.rd (F.pipeFreq_HZ n)))
  else if s.lockOn n then s else lockApply n s

/-- A pipe's frequency or blanking was applied: SLEW is derived again, and so is fixed-blanking mode (R59, R70). -/
def rasterParam (p o : Nat) (s : State) : State :=
  let s := if o = 2 then s.wr (F.lockCtl_SLEW p) (deriveSlew (s.prm (P.lockSlewPpm p)) (s.rd (F.pipeFreq_HZ p))) else s
  if o = 5 ∨ o = 6 then lockParam p 5 s else s

/-- The present target of each node of an output, from XP_GAINS (R317, R341). -/
def gainsSet (o : Nat) (b : List Byte) (s : State) : State :=
  s.forN 128 fun i s =>
    let t := fieldAt b (2 * i) 2
    if t = s.rd (F.xpGain_TARGET o i) then s else gainWrite (o * 128 + i) t s

/-- A control with a start: RUN is applied also where it does not change (R286, R324). -/
def runParam (k : Nat) (f : Fld) (old s : State) : State := if moved old s f then s else runWritten k (s.flag f) s

/-- What a record does beyond the registers it sets: `old` before the request, `b` the bytes of a blob that takes effect. -/
def recEffect (src : Source) (old : State) (r : Rec) (b : List Byte) (s : State) : State :=
  let v := r.scalar
  let o := r.pid % 0x1000
  match r.pid / 0x1000 with
  | 0 =>
    if 0x0100 ≤ r.pid ∧ r.pid < 0x0200 then
      (if src.mbx < 16 then { s with hif := { s.hif with ringPend := s.hif.ringPend ++ [(src.mbx, r.pid, v)] } } else ringSet r.pid v s)
    else if r.pid = 0x0800 then
      logEvent 0x0003 0 (old.rd F.cellarSeconds_COUNT % 2 ^ 32) (v % 2 ^ 32) (s.clr F.cellarStatus_TIME_EST)
    else if 0x0910 ≤ r.pid ∧ r.pid < 0x0920 then (if r.pid % 8 = 0 then canStart ((r.pid - 0x0910) / 8) s else s)
    else if r.pid = 0x0B10 then updateFaultN s else s
  | 1 =>
    -- the enables of reserved sources ignore writes (R401, R414)
    let f := F.intcEnSet_SRC (o - 0x200)
    if 0x200 ≤ o then masking deliver (s.wr f (s.rd f &&& groupMask (o - 0x200))) else deliver s
  | 2 => if o < 0x100 then refApply s else lockParam ((o - 0x100) / 0x10) (o % 0x10) s
  | 3 => if o < 0x200 then rasterParam (o / 0x40) (o % 0x40) s
         else if 0x400 ≤ o ∧ o < 0x480 then
           let p := s.rd (F.portCtl_PIPE ((o - 0x400) / 0x10))
           s.wr (F.portCtl_ADAPTIVE ((o - 0x400) / 0x10)) (bit (s.rd (F.pipeV_VBLANK_MIN p) < s.rd (F.pipeVmax_VBLANK_MAX p)))
         else s
  | 4 =>
    if o < 0x800 then
      match o % 0x40 with
      | 0x25 => onPlane (o / 0x40) (fun r => { r with dirtyX := true }) s
      | 0x26 => onPlane (o / 0x40) (fun r => { r with dirtyY := true }) s
      | 0x1C | 0x1D => planeApplied (o / 0x40) true s
      | _ => s
    else s
  | 7 => if 0x900 ≤ o ∧ !b.isEmpty then (memWrite .cellar r.dest b s).2 else s
  | 8 => if o % 0x10 = 1 ∧ v = 1 then pressAbort (o / 0x10) s else s
  | 9 => if o % 0x10 = 3 ∧ v = 1 then dmaStop (o / 0x10) s else s
  | 10 =>
    if 0x400 ≤ o ∧ o < 0x480 then (if b.isEmpty then s else gainsSet (o - 0x400) b s)
    else if o = 0x480 then gainWrite (v / 256 % 128 * 128 + v % 128) (v / 65536) s
    else if 0x500 ≤ o ∧ o < 0x502 then
      (if bitsAt v 32 16 = s.rd (F.stGain_TARGET (o - 0x500)) then s else gainWrite (16384 + (o - 0x500)) (bitsAt v 32 16) s)
    else if 0x540 ≤ o ∧ o < 0x548 then (if b.isEmpty then s else playCtlWrite .cellar (o - 0x540) (fieldAt b 12 4) (setBlob r.pid b s))
    else if 0x600 ≤ o ∧ o % 0x10 = 0 then runParam (8 + (o - 0x600) / 0x10) (F.audCoreCtl_RUN ((o - 0x600) / 0x10)) old s else s
  | 11 =>
    if r.pid = 0xB800 then timerStartMask v s
    else if r.pid = 0xB801 then timerStopMask v s
    else match o % 0x10 with
      | 4 => timerWriteCmp (o / 0x10) v s
      | 5 => timerWriteCount (o / 0x10) v s
      | _ => s
  | 12 =>
    match o with
    | 0x100 => pinDout false true v s
    | 0x101 => pinDout true true v s
    | 0x102 => pinDout false false v s
    | 0x103 => pinDout true false v s
    | 0x106 => pinFlagClear false v s
    | 0x107 => pinFlagClear true v s
    | _ => s
  | 13 => if r.pid = 0xD006 ∧ v = 1 then vatInitStart s else if 0x100 ≤ o ∧ o < 0x140 then bankCommand (o - 0x100) v s else s
  | 14 =>
    if r.pid = 0xE300 then deliver (s.forN 16 fun m s => s.wr (F.intcTgt_DEST m) (if bitAt v m then 3 else 1)) else s
  | 15 => if o % 0x10 = 0 then runParam (o / 0x10) (F.seqCtl_RUN (o / 0x10)) old s
    else if o % 0x10 = 3 ∨ o % 0x10 = 4 then onCore (o / 0x10) (fun r => { r with wdt := 0 }) s else s
  | _ => s

/-- The registers that a record's parameter lives in, by IRS offset. -/
def State.touched (s : State) (pid : Nat) : List Nat :=
  if pid = 0x0800 ∨ 0xB000 ≤ pid ∧ pid < 0xB400 ∧ (pid % 0x10 = 4 ∨ pid % 0x10 = 5) then []
  else if 0x4000 ≤ pid ∧ pid < 0x4800 ∧ (pid % 0x40 = 0x1C ∨ pid % 0x40 = 0x1D) then [0x401010 + (pid - 0x4000) / 0x40 * 0x100]
  else if 0x3000 ≤ pid ∧ pid < 0x3200 ∧ pid % 0x40 = 0x0D then [0x300404 + (pid - 0x3000) / 0x40 * 0x2000]
  else match s.paramOf pid with
    | none => []
    | some p =>
      match p.hold with
      | .flds l => (l.map fun f => f.1.off).eraseDups
      | .both _ l => (l.map fun f => f.1.off).eraseDups
      | .code f _ => [f.off]
      | .reg off _ => [((findReg off).map RegHit.off).getD off]
      | .blob _ => (blobWords pid).map fun w => w.1
      | _ => []

/-- The pipe to which a change of the parameter is a firmware commit (R185, R252). -/
def State.commitPipe (s : State) (pid : Nat) : Option Nat :=
  let o := pid % 0x1000
  match pid / 0x1000 with
  | 3 => if o < 0x200 then some (o / 0x40) else if 0x800 ≤ o then some ((o - 0x800) / 4) else none
  | 4 => if o < 0x800 ∧ o % 0x40 < 0x20 then (s.plane (o / 0x40)).pipe else none
  | 5 => if o < 8 then some o else none
  | 7 => if o < 0x800 then some (o / 0x100) else if o < 0x840 then some ((o - 0x800) / 8) else none
  | _ => none

/-! ### Requests -/

/-- A request's records checked one by one: the state with every value stored, the staging, each record with the bytes of the blob
it completes, and the first failure. -/
structure RecRun where
  v : State
  staging : List Staging
  done : List (Rec × List Byte)
  fail : Option (Nat × Nat)

def recStep (s : State) (src : Source) (a : RecRun) (r : Rec × Nat) : RecRun :=
  if a.fail.isSome then a
  else
    let blob := match a.v.paramOf r.1.pid with
      | some p => (match p.hold with | .blob n => some n | _ => none)
      | none => none
    let staged := match blob with
      | some n => stage src n r.1 a.staging
      | none => some ([], a.staging)
    let st := s.recStatus a.v src r.1 staged.isSome ((staged.map (·.1)).getD [])
    if st ≠ St.ok then { a with fail := some (st, r.2) }
    else match blob, staged with
      | some n, some (b, l) =>
        if b.length = n then { a with v := setBlob r.1.pid b a.v, staging := l, done := a.done ++ [({ r.1 with dest := a.v.expHalfAt (r.1.pid - 0x7900) }, b)] }
        else { a with staging := l, done := a.done ++ [(r.1, [])] }
      | _, _ =>
        let v := setParam r.1.pid r.1.scalar a.v
        if v.valueOk r.1.pid then { a with v := v, done := a.done ++ [(r.1, [])] } else { a with fail := some (St.badParam, r.2) }

/-- The first record that admission refuses: status and index. -/
def firstRefused (old v : State) (l : List (Rec × List Byte)) : Option (Nat × Nat) :=
  l.zipIdx.findSome? fun r => let st := admitRec old v (l.map (·.1)) r.1.1 r.1.2; if st = St.ok then none else some (st, r.2)

/-- A list of records as one request (R426): nothing changes and the status and index of a failing record come back, or every record
is applied, with the firmware commits it makes (R185). -/
def applyRecs (src : Source) (recs : List Rec) (s : State) : Nat × Nat × State :=
  let a := recs.zipIdx.foldl (recStep s src) ⟨s, s.hif.staging, [], none⟩
  match a.fail.or (firstRefused s.view a.v.view a.done) with
  | some (st, i) => (st, i, s)
  | none =>
    let set := { a.v with hif := { a.v.hif with staging := a.staging } }
    let offs := (a.done.flatMap fun r => set.touched r.1.pid).eraseDups
    -- a lock is set before the pipe that waits for its anchor is enabled (R172)
    let (locks, rest) := a.done.partition fun r => 0x2100 ≤ r.1.pid && r.1.pid < 0x2180
    let t := set.forL locks fun r t => recEffect src s r.1 r.2 t
    let t := t.forL offs fun off t => regApplied off s t
    let t := t.forL rest fun r t => recEffect src s r.1 r.2 t
    let changed := a.done.filter fun r => !r.2.isEmpty || s.paramValue r.1.pid != t.paramValue r.1.pid
    let pipes := (changed.filterMap fun r => t.commitPipe r.1.pid).eraseDups.filter fun p => s.pipeOn p && t.pipeOn p
    (St.ok, 0, t.forL pipes fwCommit)

/-- PARAM_GET: the records with their values, or the index of the record that fails (R426, R427). -/
def getRecs (recs : List Rec) (s : State) : Nat × Nat × List Byte :=
  let one (r : Rec) : Option (List Byte) :=
    if !r.whole then none
    else match s.paramOf r.pid with
      | none => none
      | some p =>
        let head := natLE 2 r.pid ++ natLE 2 r.len ++ natLE 4 r.off
        match p.hold with
        | .blob n =>
          if n < r.off + r.len then none
          else
            let b := ((s.blobBytes r.pid).drop r.off).take r.len
            some (head ++ b ++ List.replicate ((4 - r.len % 4) % 4) 0#8)
        | _ =>
          if r.off ≠ 0 ∨ r.len ≠ (if p.wide then 8 else 4) ∨ (0xE000 ≤ r.pid ∧ r.pid < 0xF000 ∧ s.standalone) then none
          else some (head ++ natLE r.len (s.paramValue r.pid))
  let all := recs.map one
  match all.findIdx? Option.isNone with
  | some i => (St.badParam, i, [])
  | none =>
    let b := all.flatMap fun x => x.getD []
    if 4080 < b.length then (St.badParam, 0, []) else (St.ok, 0, b)

end Sys2Proof.Machine
end

