-- ==== Sys2Proof/Machine/Package.lean ====
section
/-! DEFINITION. Scene packages in boot flash (R478 to R482): where they lie, what their sections hold, and the checks on them. -/

namespace Sys2Proof.Machine

/-! ### Boot flash (R450) -/

/-- Bytes of the boot flash; an unlisted byte is erased. -/
def State.flashBytes (s : State) (a n : Nat) : List Byte := cellsAt 0xFF#8 s.cellar.flash a n

/-- A little-endian number in the boot flash. -/
def State.flashNat (s : State) (a n : Nat) : Nat := leNat (s.flashBytes a n)

/-- Bytes written to the boot flash. -/
def flashWrite (a : Nat) (b : List Byte) (s : State) : State :=
  { s with cellar := { s.cellar with flash := putCells 0xFF#8 a b s.cellar.flash } }

/-- A range of the boot flash erased. -/
def flashErase (a n : Nat) (s : State) : State :=
  { s with cellar := { s.cellar with flash := s.cellar.flash.filter fun c => c.1 < a || a + n ≤ c.1 } }

/-- What the endpoint identifies itself with: Vendor ID, Device ID, class code, Subsystem Vendor ID and Subsystem ID, the first and the
last two from the identity record (R415, R450). -/
def State.pcieIdentity (s : State) : Nat × Nat × Nat × Nat × Nat :=
  (s.flashNat 0x2000 2, 0x8460, 0x038000, s.flashNat 0x2002 2, s.flashNat 0x2004 2)

/-! ### Packages -/

/-- Package slot `i` (R478). -/
def pkgBase (i : Nat) : Nat := 0x1000000 + i * 0x400000

/-- A section of a package: its type, DEST, and body range (R479). -/
structure Section where
  kind : Nat
  dest : Nat
  off : Nat
  len : Nat
deriving DecidableEq, Repr

def State.pkgSections (s : State) (i : Nat) : List Section :=
  (List.range (min 16 (s.flashNat (pkgBase i + 0x11) 1))).map fun j =>
    let a := pkgBase i + 0x20 + j * 16
    ⟨s.flashNat (a + 7) 1, s.flashNat a 5, s.flashNat (a + 8) 4, s.flashNat (a + 12) 4⟩

/-- The key of an image's or a package's public key: fused, and not revoked (R453, R481). -/
def State.keyGood (s : State) (idx : Nat) (pub : List Byte) : Bool :=
  idx < 4 && s.cellar.fuses.keyHash[idx]? == some (Config.sha384 pub) && s.cellar.fuses.revoked[idx]? == some false

/-- The region of R25 that an address lies in; the local memories of the cores are one. -/
def regionKey (a : Nat) : Region := match regionOf a with | .local _ => .local 0 | r => r

/-- A LOAD target lies inside one region of R25. -/
def loadInside (a n : Nat) : Bool := regionOf a != .none && (n == 0 || regionKey (a + n - 1) == regionKey a)

/-- MAGIC of a scene package (R479). -/
def pkgMagic : Nat := 0x43534E42

/-- A package's layout is right (R479, R481). -/
def State.pkgLayout (s : State) (i : Nat) : Bool :=
  let b := pkgBase i
  let len := s.flashNat (b + 8) 4
  s.flashNat b 4 == pkgMagic && len ≤ 4193792 && 1 ≤ s.flashNat (b + 0x11) 1 && s.flashNat (b + 0x11) 1 ≤ 16
    && (s.pkgSections i).all fun c => c.off + c.len ≤ len && (c.kind != 0 || loadInside c.dest c.len)

/-- The check a package fails, as log code 0x0901 names it; 0 where it is valid (R481, R498). -/
def State.pkgCheck (s : State) (i : Nat) : Nat :=
  if !s.pkgLayout i then 4
  else
    let b := pkgBase i
    let pub := s.flashBytes (b + 0x120) 97
    if !s.keyGood (s.flashNat (b + 0x10) 1) pub then 3
    else if Config.verify pub (s.flashBytes b 0x188 ++ s.flashBytes (b + 512) (s.flashNat (b + 8) 4)) (s.flashBytes (b + 0x188) 96) then 0
    else 1

/-- PKG_SEQ of package slot `i` (R479). -/
def State.pkgSeq (s : State) (i : Nat) : Nat := s.flashNat (pkgBase i + 12) 4

/-- The valid package with the highest PKG_SEQ, the lower slot among equals (R478). -/
def State.pkgChoice (s : State) : Option Nat :=
  ((List.range 4).filter fun i => s.pkgCheck i == 0).foldl
    (fun best i => match best with
      | none => some i
      | some b => if s.pkgSeq b < s.pkgSeq i then some i else best) none

/-! ### The package in use -/

def State.pkgSlot (s : State) : Nat := s.rd F.svcStatus_PKG_SLOT

/-- The bytes of the sections of a type, in section order. -/
def State.pkgBytes (s : State) (kind : Nat) (want : Section → Bool) : List Byte :=
  ((s.pkgSections s.pkgSlot).filter fun c => c.kind == kind && want c).flatMap fun c =>
    s.flashBytes (pkgBase s.pkgSlot + 512 + c.off) c.len

/-- The CONFIG records of a service, in order (R480, R481). -/
def State.svcConfig (s : State) (v : Nat) : List Rec := recsOf true (s.pkgBytes 1 fun c => bitAt c.dest v)

/-- A signal entry (R485). -/
structure Signal where
  can : Nat
  ide : Bool
  start : Nat
  id : Nat
  value : Nat
  len : Nat
  mode : Nat
deriving DecidableEq, Repr

def State.signals (s : State) : List Signal :=
  let b := s.pkgBytes 2 fun _ => true
  (List.range (min 128 (b.length / 16))).map fun e =>
    let f (o n : Nat) : Nat := fieldAt b (e * 16 + o) n
    ⟨f 0 1, f 1 1 == 1, f 2 2, f 4 4, f 8 4, f 12 1, f 13 1⟩

/-- A telltale entry (R487). -/
structure Telltale where
  pipe : Nat
  engine : Bool
  layer : Nat
  rect : Nat
  signal : Nat
  chime : Nat
  fail : Nat
  bulb : Nat
  blinkMs : Nat
  w : Nat
  h : Nat
  dest : Nat
  dark : Nat
  lit : Nat
deriving DecidableEq, Repr

def State.telltales (s : State) : List Telltale :=
  let b := s.pkgBytes 3 fun _ => true
  (List.range (min 64 (b.length / 40))).map fun t =>
    let f (o n : Nat) : Nat := fieldAt b (t * 40 + o) n
    ⟨f 0 1, f 1 1 == 1, f 2 1, f 3 1, f 4 1, f 5 1, f 6 1, f 7 1, f 8 2, f 10 2, f 12 2, f 16 8, f 24 8, f 32 8⟩

/-- A chime entry (R490). -/
structure Chime where
  addr : Nat
  repeats : Nat
  prio : Nat
  len : Nat
  out : Nat
  format : Nat
  gain : Nat
deriving DecidableEq, Repr

def State.chimeEntries (s : State) : List Chime :=
  let b := s.pkgBytes 4 fun _ => true
  (List.range (min 32 (b.length / 16))).map fun e =>
    let f (o n : Nat) : Nat := fieldAt b (e * 16 + o) n
    ⟨f 0 5, f 6 1, f 7 1, f 8 4, f 12 1, f 13 1, f 14 2⟩

/-! ### Telltale cells -/

/-- The source of a telltale's layer: base, stride, pixels across and down, bytes per pixel. -/
def State.ttSource (s : State) (t : Telltale) : Nat × Nat × Nat × Nat × Nat :=
  if t.engine then
    (s.prm (P.planeBase t.layer), s.rd (F.planeStride_BYTES t.layer), s.rd (F.planeSrc_SRC_W t.layer), s.rd (F.planeSrc_SRC_H t.layer),
      directBytes (s.rd (F.planeFmt_FORMAT t.layer)))
  else
    (s.rd (F.safeBase_ADDR t.pipe t.layer), s.rd (F.safeStride_BYTES t.pipe t.layer), s.rd (F.safeSize_W t.pipe t.layer),
      s.rd (F.safeSize_H t.pipe t.layer), directBytes ([4, 2, 8, 8].getD (s.rd (F.safeCtl_FORMAT t.pipe t.layer)) 4))

/-- The cell's column and row in its source. -/
def State.ttPlace (s : State) (t : Telltale) : Nat × Nat :=
  let (base, stride, _, _, bpp) := s.ttSource t
  ((t.dest - base) % max 1 stride / max 1 bpp, (t.dest - base) / max 1 stride)

/-- The cell's top-left pixel on its pipe; an engine's cell lies as its source is placed, one to one (DEDUCED, assumption 33). -/
def State.ttOnPipe (s : State) (t : Telltale) : Nat × Nat :=
  let (x, y) := s.ttPlace t
  if t.engine then (s.rd (F.planeWin_DST_X t.layer) + x, s.rd (F.planeDst_DST_Y t.layer) + y)
  else (s.rd (F.safePos_X t.pipe t.layer) + x, s.rd (F.safePos_Y t.pipe t.layer) + y)

/-- The firmware admits a telltale (R487), but for the number that share a safety plane. -/
def State.ttAdmitted (s : State) (t : Telltale) : Bool :=
  let (base, stride, w, h, bpp) := s.ttSource t
  let (x, y) := s.ttPlace t
  let (px, py) := s.ttOnPipe t
  let blank := (s.rd (F.pipeV_VBLANK_MIN t.pipe) - 2) * (s.rd (F.pipeH_HTOTAL_M1 t.pipe) + 1) * 1000000
  t.pipe < 8
    && (if t.engine then t.layer < 32 && s.flag (F.planeCfg_EN t.layer) && s.flag (F.planeCfg_CLASS0 t.layer) && s.rd (F.planeCfg_PIPE t.layer) == t.pipe
        else t.layer < 2 && s.flag (F.safeCtl_EN t.pipe t.layer))
    && base ≤ t.dest && stride != 0 && (t.dest - base) % stride % max 1 bpp == 0 && x + t.w ≤ w && y + t.h ≤ h
    && t.rect < 64 && s.flag (F.rectCtl_MATCH_EN t.pipe t.rect) && 2 ≤ s.rd (F.rectCtl_EXP_COUNT t.pipe t.rect)
    && s.view.rectCovers t.pipe t.rect px py t.w t.h
    && s.rd (F.pipeFreq_HZ t.pipe) != 0 && 50 * s.rd (F.pipeFreq_HZ t.pipe) ≤ blank

/-- Which telltales are admitted: those of a safety plane up to the fourth. -/
def admitTelltales (s : State) (seen : List (Nat × Nat)) : List Telltale → List Bool
  | [] => []
  | t :: rest =>
    let ok := s.ttAdmitted t && (t.engine || (seen.filter (· == (t.pipe, t.layer))).length < 4)
    ok :: admitTelltales s (if ok && !t.engine then (t.pipe, t.layer) :: seen else seen) rest

/-- The rows of a telltale's cell: address and byte count of each. -/
def State.ttRows (s : State) (t : Telltale) : List (Nat × Nat) :=
  let (_, stride, _, _, bpp) := s.ttSource t
  (List.range t.h).map fun r => (t.dest + r * stride, t.w * bpp)

end Sys2Proof.Machine
end

