-- ==== Sys2Proof/Machine/SvcOps.lean ====
section
/-! DEFINITION. What the standalone services share (R476 to R497): their states and resources, the signal map's decisions, chimes, the
rear engine, and hand-back. -/

namespace Sys2Proof.Machine

def onSvc (f : SvcState → SvcState) (s : State) : State := { s with svc := f s.svc }

/-! ### States and resources (R476, R477) -/

/-- The state of a service: 0 OFF, 1 STARTING, 2 RUNNING, 3 HOST, 4 FAILED. -/
def State.svcState (s : State) (v : Nat) : Nat := bitsAt (s.rd F.svcStatus_STATE) (3 * v) 3

/-- A service changes state: logged, notified, and what it held released unless it is STARTING or RUNNING (R477, R498). -/
def setSvc (v st : Nat) (s : State) : State :=
  if s.svcState v = st then s
  else
    let s := s.wr F.svcStatus_STATE (setBitsAt (s.rd F.svcStatus_STATE) (3 * v) 3 st)
    let s := if st = 1 ∨ st = 2 then s else onSvc (fun r => { r with held := r.held.filter fun h => h.1 != v }) s
    notify 0x8004 (v + st * 65536) 0 (logEvent 0x0902 (if st = 4 then 2 else 0) v st s)

/-- The services in a state, as a mask. -/
def State.svcMask (s : State) (st : Nat) : Nat := (List.range 5).foldl (fun m v => if s.svcState v = st then m + 2 ^ v else m) 0

/-- A class of resources that are block instances, or Harp groups or palettes (R476). -/
def isInstance (c : Nat) : Bool := !([0, 0x10, 0x12, 0x20, 0xA48, 0xB8, 0xC1, 0xD0, 0xE3].contains c)

/-- The resources of a service: what its CONFIG records name, and the service's own (R476). -/
def State.svcResources (s : State) (v : Nat) : List (Nat × Nat) :=
  let named := ((s.svcConfig v).map fun r => resourceOf r.pid).filter fun c => isInstance c.1
  let own := match v with
    | 1 => (s.telltales.zip s.svc.telltales).flatMap fun t =>
        if !t.2.active then [] else (0x71, 64 * t.1.pipe + t.1.rect) :: if t.1.engine then [] else [(0x32, 2 * t.1.pipe + t.1.layer)]
    | 2 => (List.range 4).flatMap fun k => [(0xA54, 4 + k), (0xA20, 124 + k)]
    | _ => []
  (named ++ own).eraseDups

/-- A service takes its resources. -/
def svcTake (v : Nat) (s : State) : State :=
  let l := s.svcResources v
  onSvc (fun r => { r with held := (r.held.filter fun h => h.1 != v) ++ l.map fun c => (v, c.1, c.2) }) s

/-- A service's CONFIG records applied as one request (R481), in boot-to-view or on hand-back; whether they passed. Without
SVC_REAR_SIGNAL among those of REAR the rear view is always shown (R493). -/
def svcApply (boot : Bool) (v : Nat) (s : State) : Bool × State :=
  let recs := s.svcConfig v
  let s := { s with hif := { s.hif with staging := s.hif.staging.filter fun g => g.mbx != (serviceSource boot).mbx } }
  let (st, _, s) := applyRecs (serviceSource boot) recs s
  let ok := st == St.ok
  (ok, s.iff (ok && v == 4 && !(recs.any fun r => r.pid == 0x0903)) (·.setPrm P.rearSignal 0xFF))

/-! ### Chimes (R490 to R492) -/

/-- A clip player is IDLE (R338). -/
def State.playerIdle (s : State) (k : Nat) : Bool := s.rd (F.playStatus_STATE k) == 0

/-- A chime starts on a player (R491). -/
def chimeStart (k e start : Nat) (s : State) : State :=
  match s.chimeEntries[e]? with
  | none => s
  | some c =>
    let s := ((s.wr (F.playAddr_ADDR k) c.addr).wr (F.playLen_LEN k) c.len).wr (F.playStart_STAMP k) start
    let s := playCtlWrite .cellar k (5 + c.format % 2 * 8 + c.repeats * 256) s
    let s := if c.out < 128 then gainWrite (c.out * 128 + 120 + k) c.gain s else s
    onSvc (fun r => { r with chimes := (r.chimes.filter fun h => h.player != k) ++ [⟨k, e, c.prio, c.out % 128, none⟩] }) s

/-- A playing chime gives way to another: its node's target is 0, and the other follows on its player (R492). -/
def chimeYield (h : ChimeRun) (e start : Nat) (s : State) : State :=
  let s := gainWrite (h.out * 128 + 120 + h.player) 0 s
  onSvc (fun r => { r with chimes := r.chimes.map fun g => if g.player = h.player then { g with next := some (e, start) } else g }) s

/-- The lowest playing chime below a priority, the oldest among equals; one that gives way already is passed over. -/
def lowestChime (prio : Nat) (l : List ChimeRun) : Option ChimeRun :=
  (l.filter fun h => h.prio < prio && h.next.isNone).foldl
    (fun best h => match best with
      | none => some h
      | some b => if h.prio < b.prio then some h else best) none

/-- A chime request (R492). -/
def chimeRequest (e start : Nat) (s : State) : State :=
  match s.chimeEntries[e]? with
  | none => s
  | some c =>
    if s.svcState 2 ≠ 2 then s
    else match s.svc.chimes.find? fun h => h.entry == e with
      | some h => chimeYield h e start s
      | none =>
        match ([4, 5, 6, 7].filter fun k => s.playerIdle k && !s.svc.chimes.any fun h => h.player == k).head? with
        | some k => chimeStart k e start s
        | none =>
          match lowestChime c.prio s.svc.chimes with
          | some h => chimeYield h e start s
          | none => logEvent 0x0905 1 e c.prio s

/-- Players 4 to 7 feed crosspoint inputs 124 to 127 (R491). -/
def chimeRoutes (s : State) : State := s.forL [4, 5, 6, 7] fun k s => s.wr (F.xpIn_SRC (120 + k)) (0x600 + k)

/-- The anchor target of the frame that pipe `p` shows next (R57, R491; DEDUCED between anchors, assumption 33); the present
stamp while the pipe has no lock. -/
def State.nextTarget (s : State) (p : Nat) : Nat :=
  let r := s.lock p
  if !s.lockOn p then s.now
  else
    let t := s.anchorTarget p r.anchorFrame r.shift
    match r.since with
    | none => t
    | some n => s.advance t ((n + 1) * s.lockRatioDen p * s.ref.setting.lines * s.ref.setting.dots / s.lockRatioNum p)

/-! ### Telltales (R488, R489) -/

def State.ttRun (s : State) (i : Nat) : TtRun := s.svc.telltales.getD i tt0

def onTt (i : Nat) (f : TtRun → TtRun) (s : State) : State := onSvc (fun r => { r with telltales := modAt r.telltales i f }) s

/-- The decoded state of a signal entry (R486). -/
def State.signalState (s : State) (e : Nat) : Nat := s.svc.signals.getD e 0

/-- A telltale blinks: on BLINK, or on TIMEOUT with FAIL blink. -/
def State.ttBlinks (s : State) (t : Telltale) : Bool := s.signalState t.signal == 2 || (s.signalState t.signal == 3 && t.fail == 2)

/-- The displayed state that a telltale is to have (R489). -/
def State.ttWanted (s : State) (i : Nat) (t : Telltale) : Bool :=
  let r := s.ttRun i
  r.bulb || (if s.ttBlinks t then r.half else s.signalState t.signal == 1 || (s.signalState t.signal == 3 && t.fail == 1))

/-- A fraction rounded to the nearest integer. -/
def roundDiv (a b : Nat) : Nat := (2 * a + b) / (2 * max 1 b)

/-- Frames of its pipe for which each half of a blinking telltale lasts (R489). The pipe's frame rate is the reference's times its lock's
ratio, or without a lock that of its shortest frame (DESIGN CHOICE, assumption 180). -/
def State.blinkFrames (s : State) (t : Telltale) : Nat :=
  let p := t.pipe
  let (n, d) := s.ref.setting.freq
  max 1 (if s.lockOn p then
    roundDiv (t.blinkMs * n * s.lockRatioNum p) (1000 * d * s.ref.setting.lines * s.ref.setting.dots * s.lockRatioDen p)
  else roundDiv (t.blinkMs * s.pipeHz p) (1000 * s.htotal p * (s.vactive p + s.vmin p)))

/-- The present half of a blinking telltale has been shown for its frames. -/
def State.halfOver (s : State) (i : Nat) (t : Telltale) : Bool :=
  s.blinkFrames t ≤ (s.rd (F.pipeFrames_COUNT t.pipe) + 2 ^ 32 - (s.ttRun i).since) % 2 ^ 32

/-- SVC_TT_VALID of the telltales of a signal entry (R499). -/
def showValid (e : Nat) (s : State) : State :=
  s.forL s.telltales.zipIdx fun t s =>
    if t.1.signal = e ∧ (s.ttRun t.2).active then s.setBit F.svcTtValid_TT t.2 (s.svc.heard.contains e && s.signalState e != 3) else s

/-- A row of a cell written from its pattern. -/
def cellRow (who : Initiator) (src dst n : Nat) (s : State) : State :=
  let (b, _, s) := memRead who src n s
  (memWrite who dst b s).2

/-- A telltale's displayed state written into its cell; a change to lit asks for its chime (R488, R491). -/
def ttWrite (i : Nat) (t : Telltale) (s : State) : State :=
  let lit := s.ttWanted i t
  let was := s.bitOf F.svcTtLit_TT i
  let stride := (s.ttSource t).2.1
  let rows := s.ttRows t
  let s := s.forL rows.zipIdx fun r s => cellRow .cellar ((if lit then t.lit else t.dark) + r.2 * stride) r.1.1 r.1.2 s
  let s := onTt i (fun r => { r with due := false, since := s.rd (F.pipeFrames_COUNT t.pipe) }) (s.setBit F.svcTtLit_TT i lit)
  if lit && !was && t.chime != 0xFF then
    chimeRequest t.chime (if s.lockOn t.pipe then s.advance (s.nextTarget t.pipe) (s.lineDots t.pipe (s.ttOnPipe t).2 0) else s.now) s
  else s

/-- The changed cells of a pipe's telltales written (R488). -/
def writeTelltales (p : Nat) (s : State) : State :=
  s.forL s.telltales.zipIdx fun t s => if t.1.pipe = p ∧ (s.ttRun t.2).active ∧ (s.ttRun t.2).due then ttWrite t.2 t.1 s else s

/-! ### Rear view (R493) -/

/-- The rear engines follow their signal, each change as a firmware commit. -/
def rearApply (s : State) : State :=
  if s.svcState 4 ≠ 2 then s
  else
    let e := s.prm P.rearSignal
    let on := e == 0xFF || s.signalState e == 1
    let engines := (s.svc.held.filter fun h => h.1 == 4 && h.2.1 == 0x40).map fun h => h.2.2
    s.forL engines fun n s =>
      if s.flag (F.planeCfg_EN n) = on then s
      else
        let p := s.rd (F.planeCfg_PIPE n)
        let s' := regApplied (0x401000 + n * 0x100) s (s.wr (F.planeCfg_EN n) (bit on))
        if s'.pipeOn p then fwCommit p s' else s'

/-- The records of a request applied; a new SVC_REAR_SIGNAL is acted on (R426, R493, R500). -/
def applyRequest (src : Source) (recs : List Rec) (s : State) : Nat × Nat × State :=
  let (st, d, s) := applyRecs src recs s
  (st, d, s.iff (st == St.ok && recs.any fun r => r.pid == 0x0903) rearApply)

/-! ### The signal map (R486) -/

/-- The state that a frame's value decodes to. -/
def Signal.decode (g : Signal) (data : List Byte) : Nat :=
  let v := bitsAt (leNat data) g.start g.len
  match g.mode with
  | 0 => if v = g.value then 1 else 0
  | 1 => if v ≠ 0 then 1 else 0
  | 2 => if v = g.value then 2 else 0
  | _ => 0

/-- SERVICE notifications of a signal's change, one per telltale of it, or one with index 255 (R495, R498; DEDUCED,
assumption 33). -/
def notifySignal (e st : Nat) (s : State) : State :=
  let l := (s.telltales.zipIdx.filter fun t => t.1.signal == e).map (·.2)
  s.forL (if l.isEmpty then [255] else l) fun i s => notify 0x8004 (1 + 256 + i * 65536) st s

/-- A signal entry takes a decoded state. -/
def signalSet (e st : Nat) (s : State) : State :=
  let old := s.signalState e
  let s := onSvc (fun r => { r with signals := r.signals.set e st }) s
  if old = st then showValid e s
  else
    let s := if s.svc.notify then notifySignal e st s else s
    let s := s.forL s.telltales.zipIdx fun t s =>
      if t.1.signal = e then onTt t.2 (fun r => { r with due := r.active, half := true }) s else s
    let s := showValid e s
    if s.prm P.rearSignal = e then rearApply s else s

/-! ### Hand-back (R496) -/

/-- Each service of a mask that is in HOST re-applies its CONFIG records, and waits for the latch lines; one whose records fail is
FAILED. -/
def handBack (mask : Nat) (s : State) : State :=
  s.forL ((List.range 5).filter fun v => bitAt mask v) fun v s =>
    if s.svcState v ≠ 3 then s
    else
      let (ok, s) := svcApply false v s
      if ok then onSvc (fun r => { r with back := r.back ||| 2 ^ v }) s else setSvc v 4 s

/-- The services that the host's absence hands back. -/
def State.resumeMask (s : State) : Nat := s.svcMask 3 &&& s.prm P.svcResume

/-- The host becomes absent (R494, R496). -/
def hostAbsent (cause : Nat) (s : State) : State :=
  if !s.flag F.svcStatus_HOST_PRESENT then s
  else
    let mask := s.resumeMask
    logEvent 0x0906 1 cause mask (handBack mask (s.clr F.svcStatus_HOST_PRESENT))

end Sys2Proof.Machine
end

