-- ==== Sys2Proof/Machine/Serve.lean ====
section
/-! DEFINITION. Serving mailbox requests (R420 to R430): the states in which the firmware refuses, the scaffold every request's command
goes through, and the requests of the host interface itself. -/

namespace Sys2Proof.Machine

/-- A request's sub-command: the byte at an offset of its payload. -/
def State.subAt (s : State) (m o : Nat) : Nat := if o < s.reqLen m then s.req m (16 + o) 1 else 256

/-- Entries that waited for a ring's move are written (R446). -/
def settleRings (s : State) : State := s.forN 16 fun m s => if (s.heldOf m).isEmpty then s else flushHeld none m ((s.heldOf m).length + 1) s

/-- A completion posted, then what it frees. -/
def finish (r : Rung) (op status detail : Nat) (payload : List Byte) (s : State) : State :=
  settleRings (complete r op status detail payload s)

/-- A request answered: refused in the present state, or by `f`. -/
def answer (op : Nat) (f : Rung → List Byte → State → Reply × State) (r : Rung) (s : State) : State :=
  match s.refuses op with
  | some (st, d) => settleRings (refuse r op st d s)
  | none =>
    if 4080 < s.reqLen r.mbx then finish r op St.badParam 0 [] s
    else match f r (s.payload r.mbx) s with
      | (.done st d p, s) => finish r op st d p s
      | (.posted, s) => s
      | (.wait arg, s) => { s with hif := { s.hif with waiting := s.hif.waiting ++ [(r, ⟨r.mbx, op, arg⟩)] } }

/-- A request that a HOST or FLR reset overtook is answered from what its area held (R417); `f` runs with the area so. -/
def withArea (r : Rung) (f : State → State) (s : State) : State :=
  match r.copy with
  | none => f s
  | some b => (f (s.setBytes (reqArea r.mbx) b)).setBytes (reqArea r.mbx) (s.bytesAt (reqArea r.mbx) 0x1000)

/-- The request at the head of the queue is served by the command of its opcode (R429): `sub` says which values of the byte at an
offset of its payload are the command's own, `pre` is what taking it does in any case, and `f` answers it. A command whose request is not at the head changes nothing. -/
def serveWith (pre : State → State) (m op o : Nat) (sub : Nat → Bool) (f : Rung → List Byte → State → Reply × State) (s : State) : State :=
  match s.hif.rung with
  | [] => s
  | r :: rest =>
    if !(s.serves && r.mbx == m && s.rungOpcode r == op) then s
    else serveUnknown 17 (withArea r (fun s1 =>
      if !sub (s1.subAt m o) then s1
      else answer op f r (pre { s1 with hif := { s1.hif with rung := rest } })) s)

/-- `serveWith` for a request that does nothing by being taken. -/
def serveSub (m op o : Nat) (sub : Nat → Bool) (f : Rung → List Byte → State → Reply × State) (s : State) : State :=
  serveWith id m op o sub f s

/-- `serveSub` for an opcode that one command serves alone. -/
def serve (m op : Nat) (f : Rung → List Byte → State → Reply × State) (s : State) : State := serveSub m op 0 (fun _ => true) f s

/-- A reply at once. -/
def reply (status : Nat) (s : State) : Reply × State := (.done status 0 [], s)

/-! ### Requests of the host interface -/

/-- NOP (R424). -/
def execNop (m : Fin 16) (s : State) : Out := .next (serve m.val 0x00 (fun _ _ s => reply St.ok s) s)

/-- The 16 bytes of GET_INFO (R424). -/
def State.info (s : State) : List Byte :=
  natLE 2 0x8460 ++ [0xB0#8] ++ natLE 1 (s.rd F.cellarStatus_LIFECYCLE) ++ natLE 1 (s.rd F.cascStatus_ROLE)
    ++ natLE 1 (s.rd F.cascStatus_POSITION) ++ natLE 1 (s.rd F.cellarStatus_SLOT) ++ [0#8] ++ natLE 4 (s.rd F.cellarFwver_VERSION)
    ++ natLE 4 (s.rd F.cellarSerial_SERIAL)

/-- GET_INFO (R424). -/
def execGetInfo (m : Fin 16) (s : State) : Out := .next (serve m.val 0x01 (fun _ _ s => (.done St.ok 0 s.info, s)) s)

/-- PARAM_SET (R426). -/
def execParamSet (m : Fin 16) (s : State) : Out :=
  .next (serve m.val 0x10 (fun r b s =>
    let (st, d, s) := applyRequest ⟨r.mbx, r.via, false⟩ (recsOf true b) s
    (.done st d [], s)) s)

/-- PARAM_GET (R426). -/
def execParamGet (m : Fin 16) (s : State) : Out :=
  .next (serve m.val 0x11 (fun _ b s =>
    let (st, d, p) := getRecs (recsOf false b) s
    (.done st d p, s)) s)

/-! ### SAFE_WRITE (R428) -/

/-- Two ranges share a byte. -/
def overlap (a n b k : Nat) : Bool := a < b + k && b < a + n

/-- The range holds part of the expected table in use of some pipe, all 8 KB of it, as its frames use it or as it is set
(R232, R428; assumption 116). -/
def State.holdsTable (s : State) (a n : Nat) : Bool :=
  (List.range 8).any fun p =>
    s.tableLatched p && overlap a n (s.lat (F.rindExpBase_ADDR p)) 8192
      || s.tableUsed p && overlap a n (s.rd (F.rindExpBase_ADDR p)) 8192

/-- The range touches a cell of a telltale that TELLTALE holds (R476, R477). -/
def State.cellHeld (s : State) (a n : Nat) : Bool :=
  (s.svcState 1 == 1 || s.svcState 1 == 2) && (s.telltales.zip s.svc.telltales).any fun t =>
    t.2.active && (s.ttRows t.1).any fun r => overlap a n r.1 r.2

/-- The bytes of a SAFE_WRITE reach the Vat in ascending order. -/
def safeWrite (a : Nat) (b : List Byte) (s : State) : State := (memWrite .cellar a b s).2

/-- SAFE_WRITE: checked, then written at once or armed for its stamp (R428). -/
def execSafeWrite (m : Fin 16) (s : State) : Out :=
  .next (serve m.val 0x80 (fun r b s =>
    let a := fieldAt b 0 8
    let at_ := fieldAt b 8 8 % 2 ^ 48
    let data := b.drop 16
    if data.isEmpty || !s.inLock a data.length || s.holdsTable a data.length then reply St.badParam s
    else if s.cellHeld a data.length then reply St.notOwner s
    else if at_ = 0 ∨ reached at_ s.now then reply St.ok (safeWrite a data s)
    else (.wait at_, { s with hif := { s.hif with safeArms := s.hif.safeArms ++ [⟨r.mbx, a, at_, data⟩] } })) s)

/-- SAFE_WRITE_AT_REACHED: the stamp of an armed SAFE_WRITE of a mailbox is reached, and the bytes are written; a request that a HOST or
FLR reset overtook keeps its own arm (R417, R428). -/
def execSafeWriteAtReached (m : Fin 16) (dot : Nat) (s : State) : Out :=
  let s := s.atDot dot
  .next (match s.hif.safeArms.find? fun a => a.mbx == m.val && reached a.stamp s.now with
    | none => s
    | some a =>
      match s.hif.waiting.find? fun w => w.1.mbx == m.val && w.2.opcode == 0x80 && w.2.arg == a.stamp with
      | none => s
      | some w =>
        let s := { s with hif := { s.hif with safeArms := s.hif.safeArms.erase a } }
        settleRings (completeWaiting w St.ok 0 [] (safeWrite a.addr a.data s)))

end Sys2Proof.Machine
end

