-- ==== Sys2Proof/Machine/Services.lean ====
section
/-! DEFINITION. The standalone services' commands: boot-to-view, CAN and the signal map, telltales and chimes, takeover and hand-back
(R476 to R497). -/

namespace Sys2Proof.Machine

/-! ### Boot-to-view (R483) -/

/-- The rejected packages are logged (R498). A slot without MAGIC holds no package to reject (DEDUCED, assumption 78). -/
def logRejects (s : State) : State :=
  s.forN 4 fun i s =>
    if s.flashNat (pkgBase i) 4 = pkgMagic ∧ s.pkgCheck i ≠ 0 then logEvent 0x0901 2 i (s.pkgCheck i) s else s

/-- A package is in use: its slot, version, AUTOSTART and digest (R478, R481, R499). -/
def usePackage (i : Nat) (s : State) : State :=
  let b := pkgBase i
  let s := ((s.wr F.svcStatus_PKG_SLOT i).set1 F.svcStatus_PKG_VALID).wr F.svcPkgVersion_VERSION (s.flashNat (b + 4) 4)
  let all := s.flashBytes b (512 + s.flashNat (b + 8) 4)
  let auto := s.flashNat (b + 0x12) 1
  onSvc (fun r => { r with autostart := auto, digest := Config.sha384 all }) s

/-- Bytes of a LOAD section that lie in one core's slot, or outside the cores; the Cellar's memories are the boot ROM's to load, and
beyond the reach of any other (R447). -/
def loadPiece (a : Nat) (b : List Byte) (s : State) : State :=
  match regionOf a with
  | .local 12 => decodeError .cellar a s
  | _ => (busWrite .cellar a b s).2

/-- Bytes of a LOAD section as they are copied: slot by slot in the cores' memories, else at once. -/
def loadPieces (a : Nat) (b : List Byte) : List (Nat × List Byte) :=
  match regionOf a with
  | .local _ => cutAt 0x100000 (b.length / 0x100000 + 2) a b
  | _ => [(a, b)]

/-- The LOAD sections are copied (R480). -/
def loadSections (s : State) : State :=
  let b := pkgBase s.pkgSlot + 512
  s.forL ((s.pkgSections s.pkgSlot).filter fun c => c.kind == 0) fun c s =>
    s.forL (loadPieces c.dest (s.flashBytes (b + c.off) c.len)) fun p s => loadPiece p.1 p.2 s

/-- A service starts: its CONFIG records are applied and it runs, or it is FAILED; the start takes one command (DESIGN CHOICE,
assumption 34). -/
def svcStart (v : Nat) (s : State) : State :=
  let (ok, s) := svcApply true v s
  if !ok then setSvc v 4 s
  else
    let s := if v = 1 then
        let adm := admitTelltales s [] s.telltales
        onSvc (fun r => { r with telltales := (s.telltales.zip adm).map fun t => ⟨t.2, t.2 && t.1.bulb != 0, true, t.2, 0⟩ }) s
      else if v = 2 then chimeRoutes s else s
    let s := svcTake v s
    let s := (setSvc v 2 s).wr F.svcBootStamp_STAMP s.now
    if v = 4 then rearApply s else s

/-- The services of a package in use start; any other is OFF, or FAILED where it ran from a package that is now rejected (R476, R477,
R483; DEDUCED, assumption 177). -/
def startServices (rejected : Bool) (s : State) : State :=
  let auto := (List.range 5).filter fun v => bitAt s.svc.autostart v
  let s := s.forN 5 fun v s =>
    if bitAt s.svc.autostart v then setSvc v 1 s
    else setSvc v (if rejected && (s.svcState v == 1 || s.svcState v == 2 || s.svcState v == 3) then 4 else 0) s
  ((s.clr F.svcTtLit_TT).clr F.svcTtValid_TT).forL auto svcStart

/-- What the services keep, as it is before any of them has started. -/
def svcFresh (r : SvcState) : SvcState :=
  { r with held := [], signals := List.replicate 128 0, heard := [], telltales := [], chimes := [], notify := false, back := 0,
           quiet := [], record := none }

/-- The service record matches the package in use, so that the services resume from it (R545). -/
def State.recordGood (s : State) (i : Nat) : Bool :=
  match s.svc.record with
  | none => false
  | some (st, _, _, seq) => bitsAt st 18 2 == i && bitAt st 20 && s.pkgSeq i == seq

/-- The package of the service record is no longer valid (R477, R481). -/
def State.recordRejected (s : State) : Bool :=
  match s.svc.record with
  | none => false
  | some (st, _, _, _) => bitAt st 20 && s.pkgCheck (bitsAt st 18 2) != 0

/-- No package is in use: every service is OFF, and there is no SCENE_DIGEST (R460, R478). -/
def noPackage (s : State) : State :=
  let s := s.forN 5 fun v s => setSvc v 0 s
  let s := ((s.clr F.svcStatus_PKG_SLOT).clr F.svcStatus_PKG_VALID).clr F.svcPkgVersion_VERSION
  onSvc (fun r => { svcFresh r with autostart := 0, digest := [] }) ((s.clr F.svcTtLit_TT).clr F.svcTtValid_TT)

/-- The services resume from their record, without their CONFIG (R544, R545). -/
def svcResume (s : State) : State :=
  match s.svc.record with
  | none => s
  | some (st, lit, valid, _) =>
    let s := (s.wr F.svcStatus_STATE (bitsAt st 0 15)).wr F.svcStatus_HOST_PRESENT (bitsAt st 16 1)
    let s := (s.wr F.svcTtLit_TT lit).wr F.svcTtValid_TT valid
    onSvc (fun r => { r with record := none, telltales := r.telltales.map fun t => { t with due := t.active } }) s

/-- Boot-to-view: the package is chosen and the services start, or resume after a WARM reset (R478, R483, R574). -/
def bootView (s : State) : State :=
  let s := onSvc (fun r => { r with bootDue := false }) s
  if s.flag F.fltSummary_ESSENTIAL then noPackage s
  else
    let s := logRejects s
    match s.pkgChoice with
    | none => noPackage (logEvent 0x0900 2 0xF 0 s)
    | some i =>
      let good := s.recordGood i
      let rejected := s.recordRejected
      let s := (usePackage i s).forN 2 canStart
      if good then svcResume s else startServices rejected (loadSections (onSvc svcFresh s))

/-- BOOT_TO_VIEW: once after each start of the firmware (R483). -/
def execBootToView (s : State) : Out :=
  .next (if s.cellar.booted && s.svc.bootDue && s.rd F.pwrStatus_STATE < 2 && s.rd F.stStatus_STATE == 0
      && s.rd F.cellarStatus_LIFECYCLE != 5 then bootView s else s)

/-! ### CAN FD and the signal map (R484 to R486) -/

/-- The signal map runs: a package is in use, and the device is in P0 or P1. -/
def State.mapRuns (s : State) : Bool := s.cellar.booted && s.flag F.svcStatus_PKG_VALID && s.rd F.pwrStatus_STATE < 2

/-- A pin carries CAN_n_RX (R484, R592). -/
def State.canWired (s : State) (n : Nat) : Bool := (List.range 112).any fun i => i % 4 == 2 * n + 1 && s.pinHas i 7

/-- The error counts of a controller as they stand: it is error-passive from 128 on (R484, R499). -/
def canCounts (n tec rec : Nat) (s : State) : State :=
  let s := (s.wr (F.canStatus_TEC n) tec).wr (F.canStatus_REC n) rec
  s.wr (F.canStatus_STATE n) (if 128 ≤ tec ∨ 128 ≤ rec then 2 else 1)

/-- CAN_FRAME_RX: a frame received without error, on a pin that carries CAN_n_RX, is counted and decoded for every signal entry it
matches (R486). With it come the error counts as the controller then has them, for the table has no row for an error (DESIGN CHOICE,
assumption 179). -/
def execCanFrameRx (n : Fin 2) (ide : Bool) (id : BitVec 29) (rx : CanRx) (s : State) : Out :=
  let n := n.val
  .next (if s.canWired n ∧ (s.rd (F.canStatus_STATE n) = 1 ∨ s.rd (F.canStatus_STATE n) = 2) then
    let s := canCounts n rx.txErrors.toNat rx.rxErrors.toNat (s.incWrap (F.canFrames_COUNT n))
    if !s.mapRuns then s
    else s.forL s.signals.zipIdx fun g s =>
      if g.1.can = n ∧ g.1.ide = ide ∧ g.1.id = id.toNat then
        signalSet g.2 (g.1.decode (rx.data.take 64)) (onSvc (fun r => { r with heard := (g.2 :: r.heard).eraseDups }) s)
      else s
  else s)

/-- SIGNAL_TIMEOUT: no matching frame for TIMEOUT_MS (R486). DATA1 of the entry is the first telltale of the signal; where it has none
the spec names no value (free, assumption 27). -/
def execSignalTimeout (e : Fin 128) (s : State) : Out :=
  .next (match s.signals[e.val]? with
  | none => s
  | some _ =>
    let limit := fieldAt (s.pkgBytes 2 fun _ => true) (e.val * 16 + 14) 2
    if !s.mapRuns || limit == 0 || s.signalState e.val == 3 then s
    else
      let (i, s) := s.fresh
      let tt := (s.telltales.findIdx? fun t => t.signal == e.val).getD (Config.logEntry 4 i).2.2.2.toNat
      signalSet e.val 3 (logEvent 0x0903 1 e.val tt s))

/-- CAN_BUSOFF: a bus-off is an upset of the controller, and logged with its error counters (R484, R557). -/
def execCanBusoff (n : Fin 2) (tec rec : BitVec 8) (s : State) : Out :=
  let n := n.val
  .next (if s.rd (F.canStatus_STATE n) = 1 ∨ s.rd (F.canStatus_STATE n) = 2 then
    let s := ((s.wr (F.canStatus_STATE n) 3).wr (F.canStatus_TEC n) tec.toNat).wr (F.canStatus_REC n) rec.toNat
    upset (unitId 8 n) 11 (logEvent 0x0904 2 n (tec.toNat * 256 + rec.toNat * 65536) s)
  else s)

/-- CAN_BUSOFF_RECOVERY: 128 × 11 recessive bits have passed; the controller is error-active again and its retry has succeeded
(R484, R559). -/
def execCanBusoffRecovery (n : Fin 2) (s : State) : Out :=
  let n := n.val
  .next (if s.rd (F.canStatus_STATE n) = 3 then
    endAttempt (unitId 8 n) true (((s.wr (F.canStatus_STATE n) 1).clr (F.canStatus_TEC n)).clr (F.canStatus_REC n))
  else s)

/-! ### Telltales and chimes (R488 to R492) -/

/-- The services of a mask in a state. -/
def State.svcIn (s : State) (mask st : Nat) : List Nat := (List.range 5).filter fun v => bitAt mask v && s.svcState v == st

/-- A takeover of TELLTALE has come to step 2 of R495. -/
def State.telltaleTaken (s : State) : Bool :=
  s.hif.waiting.any fun w => w.2.opcode == 0x70 && bitAt w.2.arg 1 && (s.svcIn (w.2.arg % 256) 1).isEmpty

/-- TELLTALE_WRITE: at the latch line of a pipe its telltales' changed cells are written; a takeover of TELLTALE lets it write that
pipe no more (R488, R495, R497). -/
def execTelltaleWrite (p : Fin 8) (s : State) : Out :=
  let p := p.val
  .next (if s.svcState 1 = 2 ∧ s.pipeOn p ∧ !s.svc.quiet.contains p then
    (writeTelltales p s).iff s.telltaleTaken (onSvc fun r => { r with quiet := p :: r.quiet })
  else s)

/-- TELLTALE_BLINK: a half-period of a blinking telltale ends, no sooner than its frames have been shown (R489). -/
def execTelltaleBlink (t : Fin 64) (s : State) : Out :=
  .next (match s.telltales[t.val]? with
  | none => s
  | some e =>
    if (s.svcState 1 = 2 ∨ s.svcState 1 = 3) ∧ (s.ttRun t.val).active ∧ s.ttBlinks e ∧ s.halfOver t.val e then
      onTt t.val (fun r => { r with half := !r.half, due := true }) s else s)

/-- BULB_CHECK_END: a telltale's BULB_S seconds are over (R489). -/
def execBulbCheckEnd (t : Fin 64) (s : State) : Out :=
  .next (if (s.ttRun t.val).bulb then onTt t.val (fun r => { r with bulb := false, due := r.active }) s else s)

/-- CHIME_PREEMPT: a chime that gives way has reached gain 0; its player is stopped and starts the chime that waited, no earlier than
the next sample (R492). -/
def execChimePreempt (k : Fin 4) (s : State) : Out :=
  let k := 4 + k.val
  .next (match s.svc.chimes.find? fun h => h.player == k with
  | some h =>
    match h.next with
    | some (e, start) =>
      if s.rd (F.xpGain_CURRENT h.out (120 + k)) ≠ 0 then s
      else
        let s := if s.playerIdle k then s else playEnd k true s
        chimeStart k e start s
    | none => s
  | none => s)

/-! ### The host, takeover and hand-back (R494 to R496) -/

/-- HOST_TIMEOUT: SVC_HOST_TIMEOUT_MS passes with no doorbell from the host (R494, R536). -/
def execHostTimeout (s : State) : Out :=
  .next (if s.cellar.booted && s.prm P.hostTimeoutMs != 0 && s.rd F.pwrStatus_STATE < 2 then hostAbsent 0 s else s)

/-- TAKEOVER: refused with BUSY for a FAILED service; otherwise it waits for the release (R495, R497). -/
def execTakeover (m : Fin 16) (s : State) : Out :=
  .next (serve m.val 0x70 (fun _ b s =>
    if b.length < 2 then reply St.badParam s
    else if (List.range 5).any (fun v => bitAt (fieldAt b 0 1) v && s.svcState v == 4) then reply St.busy s
    else (.wait (fieldAt b 0 2), s)) s)

/-- The pipes that TELLTALE drives. -/
def State.ttPipes (s : State) : List Nat :=
  (((s.telltales.zip s.svc.telltales).filter fun t => t.2.active && s.pipeOn t.1.pipe).map fun t => t.1.pipe).eraseDups

/-- A running service can be released: TELLTALE once it has stopped at a latch line of each of its pipes, CHIME once players 4 to 7 are
IDLE; any other writes nothing that it would have to stop (R495). -/
def State.svcFree (s : State) (v : Nat) : Bool :=
  match v with
  | 1 => s.ttPipes.all s.svc.quiet.contains
  | 2 => [4, 5, 6, 7].all s.playerIdle
  | _ => true

/-- A takeover can release all it names: none of its services is STARTING, and each that runs is free. -/
def State.takeoverReady (s : State) (mask : Nat) : Bool := (s.svcIn mask 1).isEmpty && (s.svcIn mask 2).all s.svcFree

/-- A service enters HOST. What it held stays NOT_OWNER until the response posts (R495). -/
def svcRelease (v : Nat) (s : State) : State :=
  let mine := s.svc.held.filter fun h => h.1 == v
  onSvc (fun r => { r with held := r.held ++ mine }) (setSvc v 3 s)

/-- The services of a takeover that are free enter HOST; with TELLTALE, what was decided before its release is written at the latch line
of that release (R495, R497). -/
def releaseFree (mask : Nat) (s : State) : State :=
  let l := (s.svcIn mask 2).filter s.svcFree
  let s := match s.svc.quiet.head? with
    | some p => s.iff (l.contains 1) (writeTelltales p)
    | none => s
  let s := s.forL l svcRelease
  s.iff (!l.isEmpty) (onSvc fun r => { r with released := s.now })

/-- A takeover ends: what the services it took had held is free (R495). -/
def takeoverEnd (mask : Nat) (s : State) : State :=
  onSvc (fun r => { r with held := r.held.filter fun h => !(bitAt mask h.1 && s.svcState h.1 == 3) }) s

/-- TAKEOVER_RELEASE: of the oldest takeover of a mailbox, the services that are free enter HOST, once none is STARTING; with the last
the response posts, and where the host has become absent meanwhile, they are handed back (R495, R497). -/
def execTakeoverRelease (m : Fin 16) (s : State) : Out :=
  .next (match s.hif.waiting.find? fun w => w.1.mbx == m.val && w.2.opcode == 0x70 with
  | none => s
  | some w =>
    let mask := w.2.arg % 256
    if !(s.svcIn mask 1).isEmpty then s
    else
      let s := releaseFree mask s
      if !(s.svcIn mask 2).isEmpty then s
      else
        let s := onSvc (fun r => { r with notify := r.notify || bitAt w.2.arg 8 }) (takeoverEnd mask s)
        let s := settleRings (completeWaiting w St.ok 0 (natLE 1 (s.svcMask 3) ++ natLE 8 s.svc.released) s)
        if s.flag F.svcStatus_HOST_PRESENT then s else handBack s.resumeMask s)

/-- TAKEOVER_TIMEOUT: a takeover waits too long for a STARTING service, and takes none; or for the clip players, where what it has
taken stays taken (R429, R495). -/
def execTakeoverTimeout (s : State) : Out :=
  .next (match s.hif.waiting.find? fun w => w.2.opcode == 0x70 && !s.takeoverReady (w.2.arg % 256) with
  | none => s
  | some w =>
    let s := settleRings (completeWaiting w St.timeout 0 [] (takeoverEnd (w.2.arg % 256) s))
    s.iff (s.svcState 1 == 2 && !s.telltaleTaken) (onSvc fun r => { r with quiet := [] }))

/-- HANDBACK: the named services in HOST re-apply their CONFIG records, and wait for the latch lines (R496, R497). -/
def execHandback (m : Fin 16) (s : State) : Out :=
  .next (serve m.val 0x71 (fun _ b s =>
    if b.isEmpty then reply St.badParam s
    else
      let s := handBack (fieldAt b 0 1) s
      if s.svc.back = 0 then (.done St.ok 0 (natLE 1 (s.svcMask 3)), s) else (.wait 0, s)) s)

/-- A service handed back takes its resources and runs. -/
def svcBack (v : Nat) (s : State) : State :=
  if s.svcState v ≠ 3 then s
  else
    let s := if v = 2 then chimeRoutes s else s
    let s := setSvc v 2 (svcTake v s)
    if v = 1 then onSvc (fun r => { r with quiet := [], telltales := r.telltales.map fun t => { t with due := t.active } }) s
    else if v = 4 then rearApply s else s

/-- HANDBACK_TAKE: at the pipes' next latch lines the services handed back run again, and the responses post (R496). -/
def execHandbackTake (s : State) : Out :=
  .next (if s.svc.back = 0 then s
  else
    let s := s.forL ((List.range 5).filter fun v => bitAt s.svc.back v) svcBack
    let s := onSvc (fun r => { r with back := 0, notify := r.notify && s.svcMask 3 != 0 }) s
    s.forL (s.hif.waiting.filter fun w => w.2.opcode == 0x71) fun w s =>
      settleRings (completeWaiting w St.ok 0 (natLE 1 (s.svcMask 3)) s))

end Sys2Proof.Machine
end

