-- ==== Sys2Proof/Machine/Cellar.lean ====
section
/-! DEFINITION. The Cellar's requests on the boot flash, the keys and the life cycle: signed update, certificates, attestation and
LIFECYCLE (R449 to R463, R482). -/

namespace Sys2Proof.Machine

/-- A byte string cut or filled with zeros to `n` bytes. -/
def bytesN (n : Nat) (l : List Byte) : List Byte := (List.range n).map fun i => l.getD i 0#8

def onCellar (f : CellarState → CellarState) (s : State) : State := { s with cellar := f s.cellar }

/-! ### The boot descriptor (R451) -/

/-- A boot descriptor. -/
structure BootDesc where
  seq : Nat
  active : Nat
  valid : Nat
  trial : Nat
  count : Nat
deriving DecidableEq, Repr

/-- A copy of the descriptor, where it is valid. -/
def State.descCopy (s : State) (i : Nat) : Option BootDesc :=
  let b := s.flashBytes (i * 0x1000) 16
  if fieldAt b 0 4 = 0x44424E42 ∧ fieldAt b 12 4 = crc32 (b.take 12) then
    some ⟨fieldAt b 4 4, fieldAt b 8 1, fieldAt b 9 1, fieldAt b 10 1, fieldAt b 11 1⟩
  else none

/-- The descriptor in force, and the copy that holds it. -/
def State.descAt (s : State) : Option Nat × BootDesc :=
  match s.descCopy 0, s.descCopy 1 with
  | some a, some b => if a.seq < b.seq then (some 1, b) else (some 0, a)
  | some a, none => (some 0, a)
  | none, some b => (some 1, b)
  | none, none => (none, ⟨0, 0, 3, 0, 0⟩)

def State.desc (s : State) : BootDesc := s.descAt.2

/-- The descriptor written to the copy that does not hold the higher SEQ, with SEQ one above it. -/
def putDesc (d : BootDesc) (s : State) : State :=
  let (i, seq) := match s.descAt with
    | (some i, c) => (1 - i, c.seq + 1)
    | (none, _) => (0, 1)
  let b := natLE 4 0x44424E42 ++ natLE 4 seq ++ natLE 1 d.active ++ natLE 1 d.valid ++ natLE 1 d.trial ++ natLE 1 d.count
  flashWrite (i * 0x1000) (b ++ natLE 4 (crc32 b)) (flashErase (i * 0x1000) 0x1000 s)

/-! ### Firmware slots (R452, R453) -/

/-- Flash offset of a firmware slot (R450). -/
def slotBase (i : Nat) : Nat := 0x100000 + i * 0x400000

/-- The sections of a slot's image. -/
def State.slotSections (s : State) (i : Nat) : List Section :=
  (List.range (min 16 (s.flashNat (slotBase i + 14) 1))).map fun j =>
    let a := slotBase i + 0x10 + j * 16
    ⟨0, s.flashNat a 5, s.flashNat (a + 8) 4, s.flashNat (a + 12) 4⟩

/-- The message that a slot's signature covers. -/
def State.slotMessage (s : State) (i : Nat) : List Byte :=
  s.flashBytes (slotBase i) 0x178 ++ s.flashBytes (slotBase i + 512) (s.flashNat (slotBase i + 8) 4)

/-- Security version and key index of a slot. -/
def State.slotSvn (s : State) (i : Nat) : Nat := s.flashNat (slotBase i + 12) 1
def State.slotKey (s : State) (i : Nat) : Nat := s.flashNat (slotBase i + 13) 1

/-- What a section of a slot may target (R452). -/
def bootTarget (a n : Nat) : Bool :=
  loadInside a n && (match regionOf a with | .lp5x => true | .vat => true | .local _ => true | _ => false)

/-- The first check of step 2 of R453 that a slot fails, as DETAIL codes it; 0 where it passes (R454). -/
def State.slotCheck (s : State) (i : Nat) : Nat :=
  let b := slotBase i
  let len := s.flashNat (b + 8) 4
  let n := s.flashNat (b + 14) 1
  let pub := s.flashBytes (b + 0x110) 97
  if !(s.flashNat b 4 == 0x4D494E42 && len ≤ 4193792 && 1 ≤ n && n ≤ 16 && s.slotSvn i ≤ 128) then 4
  else if !s.keyGood (s.slotKey i) pub then 3
  else if s.slotSvn i < s.cellar.fuses.arb then 2
  else if !(s.slotSections i).all (fun c => c.off + c.len ≤ len && c.len % 16 == 0 && bootTarget c.dest c.len) then 4
  else if Config.verify pub (s.slotMessage i) (s.flashBytes (b + 0x180) 96) then 0 else 1

/-! ### Update (R454, R455, R482) -/

/-- The target of an update: a firmware slot, or 2 more than a package slot. -/
def State.updateSlot (s : State) : Nat :=
  let t := s.prm P.updateTarget
  if t = 0 then 1 - s.rd F.cellarStatus_SLOT else t + 1

/-- Flash offset of an update target. -/
def targetBase (t : Nat) : Nat := if t < 2 then slotBase t else pkgBase (t - 2)

/-- The VALID bit of a firmware slot set or cleared in the descriptor. -/
def setSlotValid (t : Nat) (v : Bool) (s : State) : State :=
  if 2 ≤ t then s else putDesc { s.desc with valid := setBitsAt s.desc.valid t 1 (bit v) } s

/-- A stage of an update is logged and answered. -/
def updateStage (op status detail : Nat) (s : State) : Reply × State :=
  (.done status detail [], logEvent 0x0005 (if status = 0 then 0 else 2) op (status + detail * 256) s)

/-- UPDATE_BEGIN (R454). -/
def execUpdateBegin (m : Fin 16) (s : State) : Out :=
  .next (serve m.val 0x50 (fun _ b s =>
    let len := fieldAt b 0 4
    let t := s.updateSlot
    let running := 2 ≤ t && s.flag F.svcStatus_PKG_VALID && s.pkgSlot == t - 2
    if b.length < 4 then updateStage 0x50 St.badParam 0 s
    else if s.cellar.update.isSome || s.cellar.trialWaits || running then updateStage 0x50 St.busy 0 s
    else if len < 512 ∨ 0x400000 < len then updateStage 0x50 St.badParam 0 s
    else updateStage 0x50 St.ok 0 (onCellar (fun c => { c with update := some ⟨t, len, []⟩ }) (setSlotValid t false s))) s)

/-- The 64 KB sectors of a target that `n` bytes at an offset touch. -/
def sectorsOf (off n : Nat) : List Nat := (List.range 65).filter fun k => off / 0x10000 ≤ k && k ≤ (off + n - 1) / 0x10000

/-- UPDATE_DATA (R454). -/
def execUpdateData (m : Fin 16) (s : State) : Out :=
  .next (serve m.val 0x51 (fun _ b s =>
    let off := fieldAt b 0 4
    let data := b.drop 8
    match s.cellar.update with
    | none => updateStage 0x51 St.badParam 0 s
    | some u =>
      if data.isEmpty ∨ 4064 < data.length ∨ u.len < off + data.length then updateStage 0x51 St.badParam 0 s
      else
        let touched := (sectorsOf off data.length).filter fun k => !u.erased.contains k
        let s := s.forL touched fun k s => flashErase (targetBase u.target + k * 0x10000) 0x10000 s
        let s := flashWrite (targetBase u.target + off) data s
        updateStage 0x51 St.ok 0 (onCellar (fun c => { c with update := some { u with erased := u.erased ++ touched } }) s)) s)

/-- DETAIL of a package that fails a check: 1 or 3, and 1 where its layout fails (R482; DEDUCED, assumption 178). -/
def finishDetail (check : Nat) : Nat := if check = 0 then 0 else if check = 3 then 3 else 1

/-- UPDATE_FINISH (R454, R482). -/
def execUpdateFinish (m : Fin 16) (s : State) : Out :=
  .next (serve m.val 0x52 (fun _ _ s =>
    match s.cellar.update with
    | none => updateStage 0x52 St.badParam 0 s
    | some u =>
      let s := onCellar (fun c => { c with update := none }) s
      let fails := if u.target < 2 then s.slotCheck u.target else finishDetail (s.pkgCheck (u.target - 2))
      if fails = 0 then updateStage 0x52 St.ok 0 (setSlotValid u.target true s) else updateStage 0x52 St.authFail fails s) s)

/-- The payload of UPDATE_ACTIVATE is refused whatever its MODE (R454, R482). -/
def State.activateBad (s : State) (b : List Byte) : Bool := b.length < 2 || 1 < fieldAt b 0 1 || 1 < fieldAt b 1 1 || s.prm P.updateTarget != 0

/-- UPDATE_ACTIVATE with MODE TRIAL, and with a MODE that does not exist (R455). -/
def execUpdateActivateTrial (m : Fin 16) (s : State) : Out :=
  .next (serveSub m.val 0x53 0 (· != 1) (fun _ b s =>
    let t := s.updateSlot
    if s.activateBad b then updateStage 0x53 St.badParam 0 s
    else if !bitAt s.desc.valid t then updateStage 0x53 St.busy 0 s
    else updateStage 0x53 St.ok 0 (putDesc { s.desc with trial := t + 1, count := 0 } s)) s)

/-- The anti-rollback count raised (R457). -/
def raiseArb (n : Nat) (s : State) : State :=
  if n ≤ s.cellar.fuses.arb then s
  else onCellar (fun c => { c with fuses := { c.fuses with arb := min 128 n } }) (s.wr F.cellarStatus_ARB (min 128 n))

/-- UPDATE_ACTIVATE with MODE COMMIT: accepted while the running slot was booted as a trial (R455). -/
def execUpdateActivateCommit (m : Fin 16) (s : State) : Out :=
  .next (serveSub m.val 0x53 0 (· == 1) (fun _ b s =>
    if s.activateBad b then updateStage 0x53 St.badParam 0 s
    else if !s.flag F.cellarStatus_TRIAL then updateStage 0x53 St.busy 0 s
    else
      let s := onCellar (fun c => { c with trialWaits := false }) s
      let s := putDesc { s.desc with active := s.rd F.cellarStatus_SLOT, trial := 0 } s
      updateStage 0x53 St.ok 0 (if fieldAt b 1 1 = 1 then raiseArb s.cellar.runSvn s else s)) s)

/-! ### Certificates and attestation (R459, R460) -/

/-- The stored certificate of an index: the store holds two lengths, then the device certificate and the intermediate
(DESIGN CHOICE, assumption 35). -/
def State.storedCert (s : State) (i : Nat) : List Byte :=
  let dev := s.flashNat 0x4000 2
  let int := s.flashNat 0x4002 2
  if i = 0 then s.flashBytes 0x4004 dev else s.flashBytes (0x4004 + dev) int

/-- The stored device certificate agrees with the fused digest. -/
def State.certGood (s : State) : Bool :=
  match s.cellar.fuses.certDigest with
  | some d => Config.sha384 (s.storedCert 0) == d
  | none => false

/-- GET_CERT (R459). -/
def execGetCert (m : Fin 16) (s : State) : Out :=
  .next (serve m.val 0x60 (fun _ b s =>
    if b.isEmpty ∨ 1 < fieldAt b 0 1 then reply St.badParam s
    else if if fieldAt b 0 1 = 0 then !s.certGood else s.cellar.fuses.certDigest.isNone then reply St.authFail s
    else (.done St.ok 0 (s.storedCert (fieldAt b 0 1)), s)) s)

/-- The signed part of an attestation report (R460). -/
def State.report (s : State) (nonce : List Byte) : List Byte :=
  let slot := s.rd F.cellarStatus_SLOT
  natLE 2 1 ++ natLE 1 (s.rd F.cellarStatus_LIFECYCLE) ++ natLE 1 (slot + 128 * s.rd F.cellarStatus_TRIAL)
    ++ natLE 4 (s.rd F.cellarFwver_VERSION) ++ natLE 4 (s.rd F.cellarSerial_SERIAL)
    ++ natLE 1 s.cellar.runSvn ++ natLE 1 (s.rd F.cellarStatus_ARB) ++ natLE 2 (s.rd F.fltSummary_RETIRED)
    ++ natLE 8 (s.rd F.cellarSeconds_COUNT) ++ natLE 8 s.now ++ nonce
    ++ bytesN 48 (Config.sha384 (s.slotMessage slot)) ++ bytesN 48 s.svc.digest ++ bytesN 48 (s.cellar.fuses.certDigest.getD [])

/-- The life-cycle state permits ATTEST (R461). -/
def State.mayAttest (s : State) : Bool :=
  match s.cellar.fuses.lifecycle with
  | 1 => s.cellar.fuses.certDigest.isSome
  | 2 => true
  | 3 => true
  | _ => false

/-- ATTEST (R460). -/
def execAttest (m : Fin 16) (s : State) : Out :=
  .next (serve m.val 0x61 (fun _ b s =>
    if !s.mayAttest then reply St.lifecycleDenied s
    else if b.length ≠ 48 then reply St.badParam s
    else
      let r := s.report b
      let (i, s) := s.fresh
      (.done St.ok 0 (r ++ bytesN 96 (Config.sign (s.cellar.fuses.unitKey.getD []) r i)), s)) s)

/-! ### Life cycle (R458, R461 to R463) -/

/-- A request of LIFECYCLE: the nonce in force ends with it, one that is refused included (R462). -/
def lifecycleServe (m : Nat) (act : Nat → Bool) (f : Option (List Byte) → List Byte → State → Reply × State) (s : State) : State :=
  let t := serveWith (onCellar fun c => { c with nonce := none }) m 0x62 0 act (fun _ b t => f s.cellar.nonce b t) s
  if t.cellar.fuses = s.cellar.fuses then t
  else logEvent 0x0004 1 s.cellar.fuses.lifecycle t.cellar.fuses.lifecycle t

/-- The token of an action and its TARGET (R462). -/
def State.tokenGood (s : State) (nonce : Option (List Byte)) (b : List Byte) : Bool :=
  match nonce with
  | none => false
  | some n => 98 ≤ b.length
      && Config.verify s.cellar.fuses.lifecycleKey (natLE 4 s.cellar.fuses.serial ++ b.take 2 ++ n) ((b.drop 2).take 96)

/-- `n` draws of the random number generator, as bytes. -/
def drawBytes (n : Nat) (s : State) : List Byte × State :=
  ((List.range n).flatMap fun i => natLE 8 (Config.trng (s.freeCount + i)).toNat, { s with freeCount := s.freeCount + n })

/-- LIFECYCLE with action CHALLENGE, and with an action that does not exist (R462). -/
def execLifecycleChallenge (m : Fin 16) (s : State) : Out :=
  .next (lifecycleServe m.val (fun a => a == 0 || 4 < a) (fun _ b s =>
    if b.isEmpty ∨ fieldAt b 0 1 ≠ 0 then reply St.badParam s
    else
      let (n, s) := drawBytes 6 s
      (.done St.ok 0 n, onCellar (fun c => { c with nonce := some n }) s)) s)

/-- KEYGEN: in MANUFACTURE, once (R458, R461, R462). -/
def execKeygen (m : Fin 16) (s : State) : Out :=
  .next (lifecycleServe m.val (· == 1) (fun _ _ s =>
    if s.cellar.fuses.lifecycle ≠ 1 then reply St.lifecycleDenied s
    else if s.cellar.fuses.unitKey.isSome then reply St.busy s
    else
      let (i, s) := s.fresh
      let pub := 4#8 :: bytesN 96 (Config.keyPair i)
      (.done St.ok 0 (pub ++ Config.csr pub i), onCellar (fun c => { c with fuses := { c.fuses with unitKey := some pub } }) s)) s)

/-- CERT_INSTALL: in MANUFACTURE, once (R459, R461, R462). -/
def execCertInstall (m : Fin 16) (s : State) : Out :=
  .next (lifecycleServe m.val (· == 2) (fun _ b s =>
    let n := fieldAt b 2 2
    let dev := (b.drop 4).take n
    let int := b.drop (4 + n)
    if s.cellar.fuses.lifecycle ≠ 1 then reply St.lifecycleDenied s
    else if b.length < 4 + n then reply St.badParam s
    else if s.cellar.fuses.certDigest.isSome then reply St.busy s
    else if s.cellar.fuses.unitKey ≠ some (Config.certKey dev) ∨ !Config.certIssuedBy dev int then reply St.authFail s
    else
      let s := flashWrite 0x4000 (natLE 2 dev.length ++ natLE 2 int.length ++ dev ++ int) (flashErase 0x4000 0x4000 s)
      reply St.ok (onCellar (fun c => { c with fuses := { c.fuses with certDigest := some (Config.sha384 dev) } }) s)) s)

/-- A transition of the life cycle, and whether it needs a token (R461). -/
def transition (old new : Nat) : Option Bool :=
  match old, new with
  | 0, 1 => some false
  | 0, 5 => some false
  | 1, 2 => some false
  | 1, 5 => some false
  | 2, 3 => some false
  | 2, 5 => some true
  | 3, 4 => some true
  | 3, 5 => some true
  | 4, 5 => some false
  | _, _ => none

/-- The fuses of a new life-cycle state are blown, and the state takes effect (R463). -/
def enterLifecycle (st : Nat) (s : State) : State :=
  let s := onCellar (fun c => { c with fuses := { c.fuses with lifecycle := st, keyDisabled := c.fuses.keyDisabled || 4 ≤ st } })
    (s.wr F.cellarStatus_LIFECYCLE st)
  match st with
  | 4 => vatInitStart (onCellar (fun c => { c with testPortWaits := true }) s)
  | 5 => onCellar (fun c => { c with warmDue := true }) s
  | _ => s

/-- LIFECYCLE with action TRANSITION (R461 to R463). -/
def execLifecycleTransition (m : Fin 16) (s : State) : Out :=
  .next (lifecycleServe m.val (· == 3) (fun nonce b s =>
    let new := fieldAt b 1 1
    if b.length < 2 then reply St.badParam s
    else match transition s.cellar.fuses.lifecycle new with
      | none => reply St.lifecycleDenied s
      | some token =>
        if token && !s.tokenGood nonce b then reply St.authFail s
        else if new = 2 ∧ s.cellar.fuses.certDigest.isNone then reply St.busy s
        else reply St.ok (enterLifecycle new s)) s)

/-- LIFECYCLE with action REVOKE_KEY (R456, R462). -/
def execRevokeKey (m : Fin 16) (s : State) : Out :=
  .next (lifecycleServe m.val (· == 4) (fun nonce b s =>
    let k := fieldAt b 1 1
    if b.length < 2 ∨ 3 < k then reply St.badParam s
    else if !s.tokenGood nonce b then reply St.authFail s
    else if k = s.cellar.runKey ∧ s.cellar.booted then reply St.busy s
    else reply St.ok (onCellar (fun c => { c with fuses := { c.fuses with revoked := c.fuses.revoked.set k true } }) s)) s)

end Sys2Proof.Machine
end

