-- ==== Sys2Proof/Machine/Monitor.lean ====
section
/-! DEFINITION. The Cellar's sensors and its event log (R464 to R472). -/

namespace Sys2Proof.Machine

/-! ### Acting on a change of level (R465, R466) -/

/-- A changed level is raised, logged, and notified where CELLAR_SENSOR_NOTIFY is 1. Kinds are 0 thermal, 1 voltage, 2 clock. -/
def levelAct (kind i level : Nat) (reading : Int) (s : State) : State :=
  let severe := (kind == 0 && level == 2) || (kind == 1 && level != 0)
  let code := i + kind * 256 + level * 65536
  let s := logEvent 0x0700 (if severe then 2 else 1) (kind + i * 256 + level * 65536) (unsignedAt 32 reading) (raise (483 + kind) s)
  s.iff (s.prm P.sensorNotify != 0) (notify 0x8003 code (unsignedAt 16 reading))

/-- What the rate limit keeps of a sensor or monitor. -/
def State.rate (s : State) (kind i : Nat) : Option RateLimit := s.cellar.rates.find? fun r => r.kind == kind && r.index == i

def setRate (r : RateLimit) (s : State) : State :=
  onCellar (fun c => { c with rates := r :: c.rates.filter fun q => !(q.kind == r.kind && q.index == r.index) }) s

/-- A change of level, or one that waits, is acted on at most once per 10 ms, 100 readings of the sensors, and one more for a change
that may come between two readings; a later change is carried by the next act (DESIGN CHOICE, assumption 26). -/
def levelChange (kind i level : Nat) (reading : Int) (changed : Bool) (s : State) : State :=
  let last := s.rate kind i
  if !(changed || last.any (·.owed)) then s
  else if last.any fun r => s.cellar.reads < r.reads + 100 + bit (kind != 0) then
    setRate { kind := kind, index := i, reads := (last.elim 0 (·.reads)), owed := true } s
  else levelAct kind i level reading (setRate { kind := kind, index := i, reads := s.cellar.reads, owed := false } s)

/-! ### Thermal sensors (R464, R465, R541) -/

/-- LEVEL after a reading: it rises to any level, and falls by one step at a time (R465). -/
def tempLevel (warn crit hyst : Int) (old : Nat) (t : Int) : Nat :=
  if crit ≤ t then 2
  else match old with
    | 2 => if t < crit - hyst then 1 else 2
    | 1 => if t < warn - hyst then 0 else 1
    | _ => if warn ≤ t then 1 else 0

/-- Insertion into an ascending list. -/
def insertAsc (x : Int) : List Int → List Int
  | [] => [x]
  | y :: t => if x ≤ y then x :: y :: t else y :: insertAsc x t

/-- Twice the median of a list: the two middle values of an even number count as one (PRESUMED, assumption 39). -/
def medianTwice (l : List Int) : Int :=
  let v := l.foldr insertAsc []
  v.getD ((v.length - 1) / 2) 0 + v.getD (v.length / 2) 0

/-- The reading of sensor `i` that its register holds. -/
def State.temp (s : State) (i : Nat) : Int := signedAt 16 (s.rd (F.cellarTemp_TEMP i))

/-- A sensor in service: neither RETIRED nor under a retry. -/
def State.sensorUp (s : State) (i : Nat) : Bool := s.unitState (unitId 9 i) != 2 && !(s.fltUnit (unitId 9 i)).retrying

/-- The readings are taken, and the comparators count those at 165 °C or above (R464, R541). -/
def takeReadings (l : List Int) (s : State) : State :=
  let s := s.forL ((l.take 12).zipIdx) fun r s => s.wr (F.cellarTemp_TEMP r.2) (unsignedAt 16 r.1)
  let hot := (List.range 12).map fun i => if 2640 ≤ s.temp i then min 2 (s.cellar.hot.getD i 0 + 1) else 0
  onCellar (fun c => { c with hot := hot }) s

/-- A sensor 15 °C from the median for 1 s, 10,000 readings, is marked invalid: logged and counted (R464; the code of its entry is free,
assumption 27). Where an upset does not count, it stays out of service until upsets count again (DEDUCED, assumption 176). -/
def invalidate (i : Nat) (s : State) : State :=
  let s := onCellar (fun c => { c with astray := c.astray.set i 0 }) (s.clr (F.cellarTemp_VALID i))
  let s := s.iff (!s.upsetCounts (unitId 9 i)) (onCellar fun c => { c with heldOut := (i :: c.heldOut).eraseDups })
  upset (unitId 9 i) 10 (logOpen 3 s)

/-- The firmware's part of a reading: VALID, LEVEL and CELLAR_TEMP_MAX (R464, R465). -/
def judgeReadings (s : State) : State :=
  let s := s.iff (!s.stopped) (onCellar fun c => { c with heldOut := [] })
  let s := s.forN 12 fun i s => s.wr (F.cellarTemp_VALID i) (bit (s.sensorUp i && !s.cellar.heldOut.contains i))
  let valid := (List.range 12).filter fun i => s.flag (F.cellarTemp_VALID i)
  let mid := medianTwice (valid.map s.temp)
  let astray := (List.range 12).map fun i =>
    if valid.contains i && 480 < (2 * s.temp i - mid).natAbs then min 10000 (s.cellar.astray.getD i 0 + 1) else 0
  let s := onCellar (fun c => { c with astray := astray }) s
  let s := s.forL ((List.range 12).filter fun i => astray.getD i 0 == 10000) invalidate
  let good := (List.range 12).filter fun i => s.flag (F.cellarTemp_VALID i)
  let s := match good.map s.temp with
    | [] => s
    | t :: r => s.wr F.cellarTempMax_TEMP (unsignedAt 16 (r.foldl max t))
  let s := s.iff s.above125 fun s => s.forN 64 voidBank
  let level (i : Nat) : Nat := tempLevel (signedAt 16 (s.prm P.tempWarn)) (signedAt 16 (s.prm P.tempCrit)) (s.prm P.tempHyst : Nat)
    (s.rd (F.cellarTemp_LEVEL i)) (s.temp i)
  s.forN 12 fun i s =>
    levelChange 0 i (level i) (s.temp i) (s.rd (F.cellarTemp_LEVEL i) != level i) (s.wr (F.cellarTemp_LEVEL i) (level i))

/-- Changes of the clock monitors that waited for the rate limit are carried with the next reading after it. -/
def owedClocks (s : State) : State :=
  s.forN 8 fun i s =>
    let v := Config.clockLevel i (bitAt (s.rd F.cellarClkmon_OK) i)
    levelChange 2 i v.1.toNat v.2.toNat false s

/-- 100 µs have passed: 10,000 of them are a second (R464, R468; DESIGN CHOICE, assumption 26). -/
def tick100us (s : State) : State :=
  let n := s.cellar.reads + 1
  let s := onCellar (fun c => { c with reads := n }) s
  s.iff (n % 10000 == 0) (·.incWrap F.cellarSeconds_COUNT)

/-- SENSOR_READ: the 12 thermal sensors are read, in 1/16 °C, once each 100 µs (R464, R465, R468). -/
def execSensorRead (readings : List Int) (s : State) : Out :=
  let s := takeReadings readings (tick100us s)
  .next (if s.cellar.booted then owedClocks (judgeReadings s) else s)

/-! ### Voltage and clock monitors (R466, R603) -/

/-- The limits of a monitor's rail, in mV (R603, R604). -/
def State.voltLimits (s : State) (v : Nat) : Nat × Nat :=
  let gp (b : Nat) : Nat × Nat := if s.cellar.gpHigh.getD b false then (3135, 3465) else (1710, 1890)
  if v = 11 then (475, 525)
  else if v = 13 ∨ v = 15 then (1140, 1260)
  else if v = 20 then gp 0
  else if v = 21 then gp 1
  else if v < 18 then (720, 790) else (1710, 1890)

/-- VOLTAGE_SAMPLE: a monitor samples its rail, filtered over 4 samples (R466). -/
def execVoltageSample (v : Fin 24) (mv : BitVec 16) (s : State) : Out :=
  let v := v.val
  let kept := (mv.toNat :: s.cellar.volt.getD v []).take 4
  let s := onCellar (fun c => { c with volt := c.volt.set v kept }) s
  let x := Config.voltFilter kept % 65536
  let (lo, hi) := s.voltLimits v
  let level := if x < lo then 1 else if hi < x then 2 else 0
  let changed := s.rd (F.cellarVolt_LEVEL v) != level
  let s := (s.wr (F.cellarVolt_MV v) x).wr (F.cellarVolt_LEVEL v) level
  .next (if s.cellar.booted then levelChange 1 v level x changed s else s)

/-- CLOCK_MONITOR_CHANGE: a clock monitor's verdict changes. The level and the reading that its entry carries are not stated (free,
assumption 36) (R466). -/
def execClockMonitorChange (i : Fin 8) (ok : Bool) (s : State) : Out :=
  let i := i.val
  .next (if bitAt (s.rd F.cellarClkmon_OK) i = ok then s
  else
    let s := s.setBit F.cellarClkmon_OK i ok
    let v := Config.clockLevel i ok
    if s.cellar.booted then levelChange 2 i v.1.toNat v.2.toNat true s else s)

/-- CELLAR_WDT_EXPIRE: 100 ms pass without a restart of the Cellar watchdog, and a WDT reset is due (R448). -/
def execCellarWdtExpire (s : State) : Out := .next (onCellar (fun c => { c with wdtDue := c.wdtDue.or (some 1) }) s)

/-! ### The event log (R471, R472) -/

/-- The entries of the ring not yet flushed. -/
def State.unflushedLog (s : State) : List LogEntry := s.cellar.log.drop (s.cellar.log.length - s.cellar.unflushed)

/-- The 32 bytes of a log entry (R469). -/
def logBytes (e : LogEntry) : List Byte :=
  natLE 8 e.seconds ++ natLE 6 e.stamp ++ natLE 2 e.code ++ natLE 4 e.seq ++ natLE 1 e.severity ++ natLE 1 (bit e.estimated)
    ++ natLE 2 0 ++ natLE 4 e.data0 ++ natLE 4 e.data1

/-- The entry that 32 bytes hold (R469). -/
def logEntryOf (b : List Byte) : LogEntry :=
  { seconds := fieldAt b 0 8, stamp := fieldAt b 8 6, code := fieldAt b 14 2, seq := fieldAt b 16 4, severity := fieldAt b 20 1,
    estimated := bitAt (fieldAt b 21 1) 0, data0 := fieldAt b 24 4, data1 := fieldAt b 28 4 }

/-- Flash offset of a sector of the flash log (R450, R471). -/
def logBase (k : Nat) : Nat := 0x900000 + k * 0x1000

/-- The entries of the flash log, oldest first; a unit is padded with erased flash, whose SEQ is 0xFFFF_FFFF (R471). -/
def State.flashLog (s : State) : List LogEntry :=
  let used := (s.cellar.flash.filterMap fun c => if logBase 0 ≤ c.1 ∧ c.1 < logBase 256 then some ((c.1 - logBase 0) / 0x1000) else none).eraseDups
  let order := ((List.range 256).map fun i => (s.cellar.logSector + i) % 256).filter used.contains
  (order.flatMap fun k => (List.range 128).map fun e => logEntryOf (s.flashBytes (logBase k + e * 32) 32)).filter fun e => e.seq != 0xFFFFFFFF

/-- A unit of at most 128 entries written to the next sector of the flash log, the oldest (R471). -/
def flushUnit (l : List LogEntry) (s : State) : State :=
  let k := s.cellar.logSector
  onCellar (fun c => { c with logSector := (k + 1) % 256 }) (flashWrite (logBase k) (l.flatMap logBytes) (flashErase (logBase k) 0x1000 s))

/-- The entries cut into units of 128; `fuel` bounds them. -/
def logUnits : Nat → List LogEntry → List (List LogEntry)
  | 0, _ => []
  | fuel + 1, l => if l.isEmpty then [] else l.take 128 :: logUnits fuel (l.drop 128)

/-- The unflushed entries go to the flash log in units of 128 (R471). -/
def flushLog (s : State) : State :=
  let new := s.unflushedLog
  match new.getLast? with
  | none => s
  | some e => onCellar (fun c => { c with unflushed := 0 }) ((s.forL (logUnits 17 new) flushUnit).wr F.cellarLogFlushed_SEQ e.seq)

/-- LOG_FLUSH: 128 entries are unflushed, or one of severity ERROR or above (R471). -/
def execLogFlush (s : State) : Out :=
  .next (if 128 ≤ s.cellar.unflushed || s.unflushedLog.any (fun e => 2 ≤ e.severity) then flushLog s else s)

/-- Every entry still kept, oldest first: those of the flash log that left the ring, then the ring. -/
def State.logKept (s : State) : List LogEntry :=
  let old := s.flashLog
  match s.cellar.log.head? with
  | none => old
  | some h => old.takeWhile (fun e => e.seq != h.seq) ++ s.cellar.log

/-- LOG_READ (R472). -/
def execLogRead (m : Fin 16) (s : State) : Out :=
  .next (serve m.val 0x40 (fun _ b s =>
    let max := fieldAt b 4 2
    if b.length < 6 ∨ 127 < max then reply St.badParam s
    else
      let kept := s.logKept
      let next := s.rd F.cellarLogSeq_NEXT
      let oldest := (kept.head?.map (·.seq)).getD next
      let after := (fieldAt b 0 4 + 2 ^ 32 - oldest) % 2 ^ 32
      let skip := if after < 2 ^ 31 then after else 0
      let sel := (kept.filter fun e => skip ≤ (e.seq + 2 ^ 32 - oldest) % 2 ^ 32).take max
      (.done St.ok 0 (natLE 4 oldest ++ natLE 4 next ++ sel.flatMap logBytes), s)) s)

end Sys2Proof.Machine
end

