-- ==== Sys2Proof/Machine/Resets.lean ====
section
/-! DEFINITION. Resets (R16, R417, R543 to R549, R566): what each keeps, block by block and as a whole. -/

namespace Sys2Proof.Machine

/-! ### Clearing registers and parameters (R16) -/

/-- Every PLAIN register and parameter takes its reset value, CAM_EVT among them; units run on and go on showing their state (R16,
R618). -/
def plainReset (s : State) : State :=
  { s with cells := s.cells.filter (fun c => c.1 / 2 ^ 30 != 2), params := s.params.filter (fun c => c.1 / 2 ^ 16 != 2)
           cam := { s.cam with evtCur := List.replicate 5 0, evtLast := List.replicate 5 0 } }

/-- An IRS offset lies in block `b`, instance `i` of R546. -/
def State.inBlock (s : State) (b i off : Nat) : Bool :=
  let within (base n : Nat) : Bool := base ≤ off && off < base + n
  match b with
  | 0 => within (0x300000 + i * 0x2000) 0x2000 || within (0x320000 + i * 0x8000) 0x8000 || within (0x200100 + i * 0x20) 0x20
      || (within 0x310000 0x800 && s.rd (F.portCtl_PIPE ((off - 0x310000) / 0x100)) == i)
  | 1 => within (0x401000 + i * 0x100) 0x100 || within (0x480000 + i * 0x800) 0x800
  | 2 => within 0x500000 0x100000
  | 3 => within (0x600000 + i * 0x100) 0x100 || (within 0x601000 0x1000 && s.rd (F.streamCtl_PORT ((off - 0x601000) / 0x100)) == i)
  | 4 => within (0x700000 + i * 0x1000) 0x1000
  | 5 => within (0x800000 + i * 0x100) 0x100
  | 6 => within (0x900000 + i * 0x40) 0x40
  | 7 => within (0xF00000 + i * 0x40) 0x40
  | 8 => within (0xA00600 + i * 0x20) 0x20
  | 9 => within 0xA00000 0x100000 && !within 0xA00600 0x80
  | 10 => within 0xB00000 0x100000
  | 11 => within (0xE00100 + i * 0x80) 0x80
  | _ => false

/-- A resource of R476 belongs to block `b`, instance `i` of R546. -/
def State.resInBlock (s : State) (b i c j : Nat) : Bool :=
  match b with
  | 0 => (c == 0x30 && j == i) || (c == 0x32 && j / 2 == i) || (c == 0x21 && j == i) || (c == 0x34 && s.rd (F.portCtl_PIPE j) == i)
  | 1 => c == 0x40 && j == i
  | 2 => c == 0x50 || c == 0x51 || c == 0x54
  | 3 => (c == 0x60 && j == i) || (c == 0x61 && s.rd (F.streamCtl_PORT j) == i)
  | 4 => (c == 0x70 && j == i) || (c == 0x71 && j / 64 == i)
  | 5 => c == 0x80 && j == i
  | 6 => c == 0x90 && j == i
  | 7 => (c == 0xF0 || c == 0x30) && j == i
  | 8 => c == 0xA60 && j == i
  | 9 => 0xA00 ≤ c && c < 0xA60
  | 10 => c == 0xB0
  | 11 => c == 0xE0 && j == i
  | _ => false

/-- A service holds part of a block. -/
def State.blockHeld (s : State) (b i : Nat) : Bool := s.svc.held.any fun h => s.resInBlock b i h.2.1 h.2.2

/-- A parameter that no register holds belongs to block `b`, instance `i`. -/
def State.pidInBlock (s : State) (b i pid : Nat) : Bool :=
  let r := resourceOf pid
  b ≤ 11 && 0x2000 ≤ pid && !(b == 7 && r.1 == 0x30) && s.resInBlock b i r.1 r.2

/-- The WARM and PLAIN registers and parameters of a block take their reset values, and with them what is in force; `live` says that
its status fields do as well. -/
def blockRegs (b i : Nat) (live : Bool) (s : State) : State :=
  let gone (c : Nat × Nat) : Bool :=
    let g := c.1 / 2 ^ 30
    (g == 1 || g == 2 || (g == 3 && live)) && s.inBlock b i (c.1 % 2 ^ 30 / 64)
  let goneP (c : Nat × Nat) : Bool := c.1 / 2 ^ 16 != 0 && s.pidInBlock b i (c.1 % 2 ^ 16)
  { s with cells := s.cells.filter (fun c => !gone c), params := s.params.filter (fun c => !goneP c)
           latched := s.latched.filter (fun c => !gone c), snap := s.snap.filter (fun c => !gone c) }

/-! ### Cores -/

/-- A Syoft core is cleared: HALTED, in the state of R254; its memories are not touched (R543, R547). -/
def clearCore (k : Nat) (s : State) : State :=
  let s := onCore k (fun _ => core0 k) (clearService k s)
  let s := if isAud k then onAudCore (k - 8) (fun _ => audCore0) s else s
  showPc k (setCoreState k 0 s)

/-- RUN of core `k`. -/
def State.coreRun (s : State) (k : Nat) : Bool :=
  if isSeq k then s.flag (F.seqCtl_RUN k) else if isAud k then s.flag (F.audCoreCtl_RUN (k - 8)) else false

/-- Cores 0 to 11 are cleared; one whose RUN is 1 starts again as if START_AT were FRAME (R543). -/
def clearCores (s : State) : State :=
  s.forN 12 fun k s =>
    let s := clearCore k s
    if s.coreRun k then armCore k (isSeq k) s else s

/-! ### Blocks (R546) -/

/-- What a block is stopped with before its registers clear. -/
def blockStop (b i : Nat) (s : State) : State :=
  match b with
  | 0 => s.iff (s.pipeOn i) (pipeDisable i)
  | 1 => s.iff (s.plane i).pipe.isSome (planeLeave i)
  | 3 =>
    let s := s.forL ((List.range 16).filter fun n => s.rd (F.streamCtl_PORT n) == i) fun n s => streamDisable n (frameEnd n false s)
    csiDisable i s
  | 4 => s.forN 64 fun r s => s.clr (F.rectVerdict_VERDICT i r)
  | 5 => s.iff ((s.pressOf i).phase != .idle) (pressHalt i 4)
  | 6 => s.iff ((s.dmaOf i).phase != .idle) (dmaHalt i 2)
  | 11 => linkStop i 0 s
  | _ => s

/-- The fields that show what pipe `p` has pending, writes and has switched off: nothing, once its block is reset (R201, R202). -/
def pipeStateFlds (p : Nat) : List Fld :=
  [F.pipeCommitStatus_PENDING p, F.pipeCommitStatus_REPEAT p, F.pipeCommitSeq_PENDING p, F.pipeWbStatus_INDEX p, F.pipeWbStatus_BUSY p,
   F.pipeUnderrun_SLOT p, F.pipeUnderrun_OBJ p, F.pipeUnderrun_SAFE p, F.pipeBadaddr_SLOT p, F.pipeBadaddr_SAFE p]

/-- A block in its reset state. -/
def blockClear (b i : Nat) (s : State) : State :=
  match b with
  | 0 =>
    let ports := (List.range 8).filter fun k => s.rd (F.portCtl_PIPE k) == i
    let s := (onPipe i (fun r => { pipe0 with linesSent := r.linesSent }) (blockRegs b i false s)).forL (pipeStateFlds i) fun f s => s.clr f
    let s := { s with ref := { s.ref with locks := modAt s.ref.locks i fun _ => lock0 } }
    s.forL ports fun k s => if s.rd (F.portStatus_STATE k) = 2 then s.wr (F.portStatus_STATE k) 3 else s
  | 1 => onPlane i (fun _ => plane0) (blockRegs b i true s)
  | 2 => { blockRegs b i true s with harp := State.reset.harp }
  | 3 =>
    let streams := (List.range 16).filter fun n => s.rd (F.streamCtl_PORT n) == i
    s.forL streams (fun n s => onStream n (fun _ => stream0) s) |> blockRegs b i true
  | 4 => onRind i (fun _ => rind0) (alertClear i (blockRegs b i true s))
  | 5 => onPress i (fun _ => press0) (blockRegs b i true s)
  | 6 => onDma i (fun _ => dma0) (blockRegs b i true s)
  | 7 => clearCore i (blockRegs b i true s)
  | 8 => clearCore (8 + i) (blockRegs b i true s)
  | 9 => onAud (fun a => { State.reset.aud with cores := a.cores }) (blockRegs b i true s)
  | 10 => { blockRegs b i true s with timers := State.reset.timers }
  | 11 => blockRegs b i false s
  | _ => s

/-- What follows a block's reset. -/
def blockAfter (b i : Nat) (s : State) : State :=
  match b with
  | 3 => csiRetired i s
  | 11 => linkTrain i s
  | _ => s

/-- A Press engine or a DMA channel that a reset halts shows why: HALT reads ABORTED, or STOPPED (R546; DEDUCED, assumption 183). -/
def showHalt (b i : Nat) (s t : State) : State :=
  if b = 5 ∧ (s.pressOf i).phase ≠ .idle then t.wr (F.pressStatus_HALT i) 4
  else if b = 6 ∧ (s.dmaOf i).phase ≠ .idle then t.wr (F.chStatus_HALT i) 2 else t

/-- BLOCK `b`, instance `i`, is reset (R546). -/
def blockReset (b i : Nat) (s : State) : State := showHalt b i s (blockAfter b i (blockClear b i (blockStop b i s)))

/-! ### Trimmed units (R533, R534) -/

/-- The blocks of a trim bit. -/
def trimBlocks (j : Nat) : List (Nat × Nat) :=
  if j < 8 then [(0, j), (4, j)]
  else if j < 12 then [(3, j - 8)]
  else match j with
    | 12 => []
    | 13 => [(11, 0)]
    | 14 => [(11, 1)]
    | 15 => [(9, 0)]
    | 16 => [(5, 0), (5, 1)]
    | 17 => (List.range 64).map fun n => (6, n)
    | 30 => [(2, 0)]
    | _ => if j < 26 then [(7, j - 18)] else [(8, j - 26)]

/-- Trimmed units return, in their reset configuration (R16, R534). -/
def untrim (units : List Nat) (s : State) : State :=
  let s := s.forL units fun j s => s.forL (trimBlocks j) fun b s => blockClear b.1 b.2 s
  let s := s.wr F.pwrTrimmed_UNIT (units.foldl (fun m j => setBitsAt m j 1 0) (s.rd F.pwrTrimmed_UNIT))
  let s := s.iff (units.contains 12) (·.clr F.pwrStatus_LP5X_SR)
  let s := s.forL (units.filter fun j => j == 13 || j == 14) fun j s => linkTrain (j - 13) s
  s.forL (units.filter fun j => 8 ≤ j && j < 12) fun j s => csiRetired (j - 8) s

/-- Every trimmed unit returns: each reset and each return ends in P0 (R532, R543). -/
def untrimAll (s : State) : State := untrim (bitsSet 31 (s.rd F.pwrTrimmed_UNIT)) s

/-- How many instances a BLOCK code has. -/
def blockInstances (b : Nat) : Nat := [8, 32, 1, 4, 8, 2, 64, 8, 4, 1, 1, 2].getD b 0

/-- A reset is logged; an update session and a LIFECYCLE nonce end with it (R454, R462, R554). -/
def logReset (kind data1 : Nat) (s : State) : State :=
  logEvent 0x0A01 1 kind data1 (onCellar (fun c => { c with update := none, nonce := none }) s)

/-- RESET with KIND 1: the named block (R544, R546). -/
def execResetBlock (m : Fin 16) (s : State) : Out :=
  .next (serveSub m.val 0x21 0 (· == 1) (fun _ b s =>
    let blk := fieldAt b 1 1
    let i := fieldAt b 2 1
    if b.length < 3 ∨ blockInstances blk ≤ i then reply St.badParam s
    else if s.blockHeld blk i then reply St.notOwner s
    else
      let s := (blockReset blk i s).wr F.pwrReset_LAST 6
      reply St.ok (logReset 6 (blk + i * 256) s)) s)

/-- RESET with KIND 0, and with a KIND that does not exist (R544). -/
def execResetWarm (m : Fin 16) (s : State) : Out :=
  .next (serveSub m.val 0x21 0 (· != 1) (fun _ b s =>
    if b.isEmpty ∨ fieldAt b 0 1 ≠ 0 then reply St.badParam s
    else reply St.ok (onCellar (fun c => { c with warmDue := true }) s)) s)

/-- The chain starts: the time state of the role, and both links train (R501, R508, R516, R517). A link that is not OFF is left alone. -/
def startChain (s : State) : State :=
  if s.standalone then s
  else
    let s := if s.rd F.cascTime_STATE != 0 then s
      else onCasc (fun c => { c with fresh := s.isSlave }) (timeState (if s.isSlave then 5 else 4) s)
    let s := s.wr F.refStatus_SLAVE (bit s.isSlave)
    s.forL ((List.range 2).filter fun l => s.rd (F.cascLStatus_STATE l) == 0) linkTrain

/-- The firmware targets source MBX_m to HOST with HVEC = m at every start, and to PEER for a mailbox in CASC_PEER_MBX (R434, R525). -/
def targetMailboxes (s : State) : State :=
  deliver (s.forN 16 fun m s => (s.wr (F.intcTgt_DEST m) (if bitAt (s.prm P.cascPeerMbx) m then 3 else 1)).wr (F.intcTgt_HVEC m) m)

/-! ### The host's side (R417, R547) -/

/-- Requests in progress lose their responses (R417). -/
def discardRung (s : State) : State :=
  let old (r : Rung) : Rung := if r.discard then r else { r with discard := true, copy := some (s.bytesAt (reqArea r.mbx) 0x1000) }
  { s with hif := { s.hif with rung := s.hif.rung.map old, waiting := s.hif.waiting.map fun w => ({ w.1 with discard := true }, w.2) } }

/-- What the host interface holds of rings and transfers is lost. -/
def hifReset (s : State) : State :=
  { s with hif := { s.hif with held := [], ageOn := [], unnotified := List.replicate 16 0, ringPend := [], staging := [],
                               prefetch := [], prefetchLen := 0, dpWait := [], bells := [] } }

/-- Mailbox states and rings are lost with the firmware that served them (R547). -/
def mailboxesLost (s : State) : State :=
  let s := hifReset s
  { s with hif := { s.hif with rung := [], waiting := [], safeArms := [] } }

/-- The endpoint's configuration is reset: bus mastering off, and MSI-X disabled with every vector masked. -/
def endpointReset (s : State) : State :=
  { s.clr F.intcHostMode_MSIX with
    hif := { s.hif with busMaster := false }
    intc := { s.intc with msixMasked := BitVec.allOnes 64, functionMask := false, pba := 0 } }

/-- The part of a reset common to HOST, FLR and WARM: PLAIN registers and parameters, cores 0 to 11, and pending interrupts gone with
their registers; pipes keep scanning (R16, R543). -/
def softReset (s : State) : State := deliver (clearCores (pinsAfterReset (plainReset (untrimAll s))))

/-- A HOST or FLR reset, coded as in R554; `down` says that the link went down (R417, R494, R543). -/
def hostReset (kind : Nat) (down : Bool) (s : State) : State :=
  let s := softReset (endpointReset (hifReset (discardRung s)))
  let s := { s with hif := { s.hif with pcieUp := s.hif.pcieUp && !down, hostDue := false, turnOff := false } }
  let s := (if kind = 2 then s.inc F.pwrResets_HOST else s.inc F.pwrResets_FLR).wr F.pwrReset_LAST kind
  logReset kind 0 (if kind = 2 then hostAbsent (if down then 2 else 1) s else s)

/-- HOST_RESET: a PCIe hot reset, or a link-down. In P2 and P3 a link-down after a PME_Turn_Off handshake is no reset, and any other
waits for the return to P0 (R417, R540, R543). -/
def execHostReset (linkDown : Bool) (s : State) : Out :=
  .next (if 4 ≤ s.rd F.pwrStatus_STATE ∨ s.fault.tripHold then s
  else if s.asleep then
    let t := if linkDown && s.hif.turnOff then { s with hif := { s.hif with pcieUp := false } }
      else { s with hif := { s.hif with pcieUp := s.hif.pcieUp && !linkDown, hostDue := true } }
    if linkDown then hostAbsent 2 t else t
  else if linkDown && !s.hif.pcieUp then s
  else hostReset 2 linkDown s)

/-- FLR (R417, R543). -/
def execFlr (s : State) : Out := .next (if 2 ≤ s.rd F.pwrStatus_STATE ∨ s.fault.tripHold then s else hostReset 3 false s)

/-! ### HEALTH and the always-on record (R549, R566) -/

/-- Every fault unit. -/
def allUnits : List Nat := (List.range 10).flatMap fun k => (List.range (unitCount k)).map (unitId k)

/-- Every HEALTH field is written from the always-on record: recorded units are RETIRED, the others HEALTHY (R566). -/
def restoreHealth (s : State) : State :=
  let s := s.forL allUnits fun id s =>
    let st := if s.fault.record.contains id then 2 else 0
    if s.unitState id = st ∧ st = 0 then setHealth id 0 s
    else setHealth id st (s.wr (F.fltU_STATE (id / 256) (id % 256)) st)
  let s := (s.clr F.fltSummary_SUSPECT).wr F.fltSummary_RETIRED (s.fault.record.filter allUnits.contains).length
  updateFaultN { s with fault := { s.fault with units := [] } }

/-! ### Resets of the whole device -/

/-- The fields that show what stands outside the device: hot-plug levels and pins. -/
def outsideFlds : List Fld :=
  (List.range 8).map F.portStatus_HPD ++ [F.pinInLo_PIN, F.pinInHi_PIN] ++ (List.range 112).map F.pinState_SYNC

/-- What the thermal, voltage and clock monitors find, which they go on showing where they run on (R464 to R466, R618). -/
def monitorFlds : List Fld :=
  F.cellarClkmon_OK :: (List.range 12).map F.cellarTemp_VALID ++ (List.range 12).map F.cellarTemp_LEVEL ++ (List.range 24).map F.cellarVolt_LEVEL

/-- Fields of one state shown in another. -/
def keepFlds (l : List Fld) (s t : State) : State := t.forL (l.filter fun f => s.rd f != t.rd f) fun f t => t.wr f (s.rd f)

/-- The machine from its reset state, with what survives every reset: flash, fuses, the flash log, levels outside, and the commands that
wait. `sticky` keeps STICKY registers and parameters; the always-on log, record and counts stay (R16, R547). -/
def restart (sticky : Bool) (s : State) : State :=
  let r := State.reset
  let t := { r with
    cells := (if sticky then s.cells.filter (fun c : Nat × Nat => c.1 < 2 ^ 30) else []) ++ r.cells
    params := if sticky then s.params.filter (fun c : Nat × Nat => c.1 < 2 ^ 16) else []
    cellar := { r.cellar with fuses := s.cellar.fuses, flash := s.cellar.flash, log := s.cellar.log, logSector := s.cellar.logSector,
                              unflushed := s.cellar.unflushed, pwrGood := s.cellar.pwrGood, gpHigh := s.cellar.gpHigh,
                              testPortWaits := s.cellar.testPortWaits, hot := s.cellar.hot, reads := s.cellar.reads }
    fault := { r.fault with record := s.fault.record, last := s.fault.last, resultsDue := s.fault.resultsDue, tripHold := s.fault.tripHold,
                            tripLog := s.fault.tripLog }
    hif := { r.hif with out := s.hif.out, readOut := s.hif.readOut }
    lastRead := s.lastRead, freeCount := s.freeCount, pending := s.pending }
  keepFlds outsideFlds s t

/-- The fused registers show their fuses (R474). -/
def showFuses (s : State) : State :=
  ((s.wr F.cellarStatus_LIFECYCLE s.cellar.fuses.lifecycle).wr F.cellarStatus_ARB s.cellar.fuses.arb).wr F.cellarSerial_SERIAL
    s.cellar.fuses.serial

/-- The last flushed entry. -/
def State.lastFlushed (s : State) : Option LogEntry := s.flashLog.getLast?

/-- The seconds count and the log counters after a POR or a PIN reset (R468, R469). -/
def restoreLog (s : State) : State :=
  let s := s.set1 F.cellarStatus_TIME_EST
  let s := match s.lastFlushed with
    | some e => (s.wr F.cellarSeconds_COUNT (e.seconds + 1)).wr F.cellarLogFlushed_SEQ e.seq
    | none => s
  match s.cellar.log.getLast?.or s.lastFlushed with
  | some e => s.wr F.cellarLogSeq_NEXT (e.seq + 1)
  | none => s

/-- The strap pins as a POR or a PIN reset samples them: role, and the xSPI target (R501, R595). Role code 3 counts as STANDALONE and
sets ROLE_BAD. -/
def sampleStraps (role : Nat) (xspi : Bool) (s : State) : State :=
  let s := (s.wr F.pinStraps_ROLE role).wr F.pinStraps_XSPI_TGT_EN (bit xspi)
  (s.wr F.pinStraps_ROLE_BAD (bit (role == 3))).wr F.cascStatus_ROLE (if role = 3 then 0 else role)

/-- A POR or PIN reset from here on: fused registers, log, straps and the record (R543, R549). -/
def coldStart (kind role : Nat) (xspi : Bool) (s : State) : State :=
  let s := sampleStraps role xspi (restoreLog (showFuses s))
  let s := onCellar (fun c => { c with testPortWaits := false }) s
  logReset kind 0 (restoreHealth (s.wr F.pwrReset_LAST kind))

/-- POR: everything but flash and fuses is lost (R543, R547). -/
def execPor (role : Fin 4) (xspi : Bool) (pwrGood : Bool) (s : State) : Out :=
  let s := restart false s
  let s := { onCellar (fun c => { c with log := [], unflushed := 0, pwrGood := pwrGood, hot := List.replicate 12 0, reads := 0 }) s with
             fault := { s.fault with record := [], tripHold := false, tripLog := none } }
  .next (coldStart 0 role.val xspi s)

/-- A sensor keeps the trip hold in place (R542). -/
def State.tooHot (s : State) : Bool := (List.range 12).any fun i => (2320 : Int) ≤ s.temp i

/-- PIN_RESET: RESET_N has been low and is released, or a core rail was low. While the trip hold stands and a sensor reads 145 °C or
above, the hold stays (R542, R543, R549). -/
def execPinReset (role : Fin 4) (xspi : Bool) (s : State) : Out :=
  .next (if s.fault.tripHold && s.tooHot then s
  else
    let trip := s.fault.tripHold
    let counts (t : State) : State :=
      let t := (t.wr F.pwrResets_PIN (min 255 (s.rd F.pwrResets_PIN + 1))).wr F.pwrResets_HOST (s.rd F.pwrResets_HOST)
      let t := (t.wr F.pwrResets_FLR (s.rd F.pwrResets_FLR)).wr F.pwrResets_WARM (s.rd F.pwrResets_WARM)
      ((t.wr F.pwrResets_WDT (s.rd F.pwrResets_WDT)).wr F.pwrResets_TRIP (s.rd F.pwrResets_TRIP)).wr F.pwrReset_TRIP (bit trip)
    let t := restart false s
    coldStart 1 role.val xspi (counts { t with fault := { t.fault with tripHold := false } }))

/-- The Cellar's firmware stops and the ROM is to start it again (R543). -/
def cellarRestart (s : State) : State :=
  let s := onCore 12 (fun _ => core0 12) (clearService 12 s)
  onCellar (fun c => { c with romDue := true, booted := false, warmDue := false, wdtDue := none, update := none, nonce := none, rates := [] }) s

/-- The services of which the record holds something (R545). -/
def State.servicesLive (s : State) : Bool := (List.range 5).any fun v => s.svcState v == 1 || s.svcState v == 2 || s.svcState v == 3

/-- The service record, as the firmware has kept it (R545). -/
def saveRecord (s : State) : State :=
  let word := s.rd F.svcStatus_STATE + s.rd F.svcStatus_HOST_PRESENT * 2 ^ 16 + s.rd F.svcStatus_PKG_SLOT * 2 ^ 18
    + s.rd F.svcStatus_PKG_VALID * 2 ^ 20
  onSvc (fun r => { r with record := if s.servicesLive then some (word, s.rd F.svcTtLit_TT, s.rd F.svcTtValid_TT, s.pkgSeq s.pkgSlot) else none }) s

/-- WARM_RESET: a WARM reset that is due (R543 to R545). -/
def warmReset (s : State) : State :=
  let s := cellarRestart (saveRecord s)
  let s := softReset (mailboxesLost s)
  let s := { s with fault := { s.fault with testSession := false, testFromP4 := false } }
  let s := (s.clr F.stStatus_STATE).clr F.pwrStatus_TRANSIT
  logReset 4 0 ((s.inc F.pwrResets_WARM).wr F.pwrReset_LAST 4)

def execWarmReset (s : State) : Out := .next (if s.cellar.warmDue && !s.fault.tripHold && s.rd F.pwrStatus_STATE < 2 then warmReset s else s)

/-- The Cellar core's EPC is kept for the log. -/
def keepEpc (s t : State) : State := onCellar (fun c => { c with epc := (s.core 12).regs.epc.toNat }) t

/-- What the Vat's live fields show is kept with the Vat: an initialisation, zero-fills and a background-test region go on (R16, R76, R618). -/
def keepVat (s t : State) : State :=
  { keepFlds (F.vatCtl_INIT :: F.vatBgtPos_PHASE :: (List.range 64).map F.vatBankStatus_FILLING) s t with vat := s.vat }

/-- WDT_RESET: a WDT reset that is due. Vat, LP5X and core memories are kept; pipes are disabled and the beam counter restarts
(R448, R543, R547). -/
def wdtReset (cause : Nat) (s : State) : State :=
  let t := restart true s
  let t := { t with
    mem := s.mem, lp := s.lp
    hif := { t.hif with pcieUp := s.hif.pcieUp, busMaster := s.hif.busMaster, pmeEn := s.hif.pmeEn }
    intc := { t.intc with msixMasked := s.intc.msixMasked, functionMask := s.intc.functionMask, pba := s.intc.pba,
                          msixTable := s.intc.msixTable } }
  let t := keepFlds monitorFlds s (keepVat s t)
  let t := (t.wr F.intcHostMode_MSIX (s.rd F.intcHostMode_MSIX)).wr F.cellarStatus_WDT_CAUSE cause
  let t := if cause = 2 then t.set1 F.cellarStatus_LOCKSTEP_ERR else t
  let t := restoreHealth (keepEpc s ((t.inc F.pwrResets_WDT).wr F.pwrReset_LAST 5))
  logReset 5 0 (onCellar (fun c => { c with wdtLog := some cause }) t)

def execWdtReset (s : State) : Out :=
  .next (match s.cellar.wdtDue with
  | some c => if s.fault.tripHold ∨ 4 ≤ s.rd F.pwrStatus_STATE then s else wdtReset c s
  | none => s)

/-! ### The protective trip (R541, R542) -/

/-- THERMAL_TRIP: a sensor has read 165 °C at two readings running. FAULT_N goes low and every block is held in reset (R541). -/
def execThermalTrip (s : State) : Out :=
  .next (if s.fault.tripHold then s
  else match (List.range 12).find? fun i => 2 ≤ s.cellar.hot.getD i 0 with
    | none => s
    | some i =>
      let t := restart true s
      let t := { t with fault := { t.fault with tripHold := true, tripLog := some (i, unsignedAt 32 (s.temp i)) } }
      let t := t.forN 12 fun j t => t.wr (F.cellarTemp_TEMP j) (unsignedAt 16 (s.temp j))
      updateFaultN (t.inc F.pwrResets_TRIP))

end Sys2Proof.Machine
end

