-- ==== Sys2Proof/Machine/Power.lean ====
section
/-! DEFINITION. Power states (R531 to R540, R552, R604): POWER_STATE, trimming, entry into P2, P3 and P4, and the return. -/

namespace Sys2Proof.Machine

/-! ### Trimming (R533) -/

/-- An enabled user of LP5X addresses. -/
def State.lp5xUsed (s : State) : Bool :=
  ((List.range 8).any fun p => s.rd (F.pipeStatus_LP5X_REASON p) != 0
      || (s.flag (F.pipeWbCtl_EN p) && isLp5x (s.rd (F.pipeWbBase_ADDR p))))
    || ((List.range 16).any fun n => s.flag (F.streamCtl_EN n) && isLp5x (s.rd (F.streamRingBase_ADDR n)))
    || ((List.range 8).any fun k => !s.playerIdle k && isLp5x (s.rd (F.playAddr_ADDR k)))
    || ((List.range 64).any fun g => s.rd (F.harpGrp_OWNER g) < 8 && s.flag (F.harpPipeCtl_EN (s.rd (F.harpGrp_OWNER g)))
        && (List.range 64).any fun i => bitAt (s.rdAll (ctxFlds (64 * g + i) 0)) 0 && isLp5x (s.rdAll (ctxFlds (64 * g + i) 4) * 256))

/-- A trim bit's condition holds. -/
def State.trimAllowed (s : State) (j : Nat) : Bool :=
  if j < 8 then !s.flag (F.pipeCtl_EN j)
  else if j < 12 then !((List.range 16).any fun n => s.flag (F.streamCtl_EN n) && s.rd (F.streamCtl_PORT n) == j - 8)
  else match j with
    | 12 => !s.lp5xUsed
    | 13 => s.standalone || !(s.flag (F.cascLAud_EN 0) || (feedsOf 0).any fun k => s.flag (F.cascFeedCtl_EN k))
    | 14 => s.standalone || !(s.flag (F.cascLAud_EN 1) || (feedsOf 1).any fun k => s.flag (F.cascFeedCtl_EN k))
    | 15 => (List.range 4).all fun c => s.rd (F.audCoreStatus_STATE c) == 0
    | 16 => (List.range 2).all fun e => (s.pressOf e).phase == .idle
    | 17 => (List.range 64).all fun n => (s.dmaOf n).phase == .idle
    | 30 => (List.range 8).all fun p => !s.flag (F.harpPipeCtl_EN p)
    | _ => if j < 26 then s.rd (F.seqStatus_STATE (j - 18)) == 0 else s.rd (F.audCoreStatus_STATE (j - 26)) == 0

/-- The class-0 conditions need the unit: a pipe to which a class-0 layer is enabled (R244). -/
def State.trimClass0 (s : State) (j : Nat) : Bool :=
  j < 8 && (((List.range 32).any fun n => s.planeAsks j n && s.planeClass0 n) || (List.range 2).any (s.safeOn j))

/-- The unit of a trim bit is RETIRED: a CSI port, or a link with no lane left. -/
def State.trimRetired (s : State) (j : Nat) : Bool :=
  if 8 ≤ j ∧ j < 12 then s.unitState (unitId 2 (j - 8)) == 2
  else (j == 13 || j == 14) && (s.linkLanes (j - 13)).isEmpty

/-- The status that refuses a trim bit, if any (R533). -/
def State.trimStatus (s : State) (j : Nat) : Nat :=
  if s.trimRetired j then St.ok
  else if (trimBlocks j).any fun b => s.blockHeld b.1 b.2 then St.notOwner
  else if s.trimClass0 j || !s.trimAllowed j then St.busy else St.ok

/-- What a newly trimmed unit stops (R533). -/
def trimStop (j : Nat) (s : State) : State :=
  if j < 8 then s.forL ((List.range 8).filter fun k => s.flag (F.portCtl_EN k) && s.rd (F.portCtl_PIPE k) == j) portStop
  else if j < 12 then csiDisable (j - 8) s
  else match j with
    | 12 => s.set1 F.pwrStatus_LP5X_SR
    | 13 => if s.standalone then s else linkStop 0 0 s
    | 14 => if s.standalone then s else linkStop 1 0 s
    | _ => s

/-- Trims move to a new set: units no longer named return, newly named ones stop (R532, R533). -/
def setTrims (trim : Nat) (s : State) : State :=
  let now := s.rd F.pwrTrimmed_UNIT
  let s := untrim ((bitsSet 31 now).filter fun j => !bitAt trim j) s
  let s := s.forL ((bitsSet 31 trim).filter fun j => !bitAt now j) trimStop
  s.wr F.pwrTrimmed_UNIT trim

/-! ### Entry (R435, R535, R538) -/

/-- A pipe stops in the cclk of entry; its registers and its slots stay (R535). -/
def pipeHalt (p : Nat) (s : State) : State :=
  let s := ((s.clr (F.pipeStatus_STATE p)).clr (F.pipeStatus_LINE p)).clr (F.pipeStatus_WAITING p)
  let s := lockOff p s
  let s := onPipe p (fun r => { r with line0 := false, sent := [], safe0 := none, safe1 := none }) s
  let s := s.forL (s.planesOf p) fun n s => onPlane n (fun r => { r with fetch := none, ready := none, bound := none }) s
  let s := onHarp p (fun r => { r with work := none, ready := none }) s
  onRind p (fun r => { r with rects := [], alert := false }) (alertClear p s)

/-- The units stop: pipes, ports, camera frames and links (R535, R550). -/
def stopUnits (s : State) : State :=
  let s := s.forL ((List.range 8).filter s.pipeOn) pipeHalt
  let s := s.forL ((List.range 8).filter fun k => s.flag (F.portCtl_EN k)) portStop
  let s := s.forN 16 (frameEnd · false)
  let s := s.forN 4 csiDisable
  s.forL ((List.range 2).filter fun l => s.rd (F.cascLStatus_STATE l) != 0) fun l s => linkStop l 0 s

/-- The banks go to their P3 states (R84). -/
def banksP3 (s : State) : State := s.forN 64 bankP3

/-- The device enters P2, P3 or P4: units stop, the stamp is recorded, and wake requests follow what has not been notified
(R435, R535, R538, R554). -/
def enterState (t : Nat) (s : State) : State :=
  let old := s.rd F.pwrStatus_STATE
  let s := logEvent 0x0A00 0 (old + t * 256) 0 s
  let s := { stopUnits s with hif := { s.hif with ageOn := [] } }
  let s := ((s.clr F.pwrStatus_WAKE_REQ).wr F.pwrStamp_STAMP s.now).wr F.pwrStatus_STATE t
  let s := (s.clr F.pwrStatus_TRANSIT).iff (decide (3 ≤ t)) (·.clr F.refStatus_STATE)
  let s := if t = 4 then onCellar (fun c => { c with pwrGood := false }) s
    else
      let s := if t = 3 then banksP3 s else s
      let s := s.wr F.pwrStatus_LP5X_SR (bit (t == 2 || s.prm P.lp5xP3 == 0))
      s.forN 16 fun m s => s.iff (s.unnotified m != 0 && s.prm (P.mbxWake m) != 0) wakeRequest
  if t = 4 then { s.clr F.pwrStatus_LP5X_SR with hif := { s.hif with pcieUp := false, turnOff := false } } else s

/-- The shutdown self-test begins: units stop, the Vat shows SELFTEST, and item 1 runs (R101, R568, R575, R586). -/
def startTest (fromP4 : Bool) (s : State) : State :=
  let s := { stopUnits s with fault := { s.fault with testFromP4 := fromP4 } }
  let s := { s.wr F.vatStatus_STATE 3 with vat := { s.vat with bgt := none } }
  (((s.clr F.vatBgtPos_PHASE).wr F.stStatus_STATE 1).wr F.stStatus_ITEM 1).wr F.stStatus_REMAIN_MS 420

/-! ### The request (R532) -/

/-- Another mailbox's request is BUSY. -/
def State.otherBusy (s : State) (m : Nat) : Bool := (List.range 16).any fun i => i != m && s.rd (F.mbxStatus_STATE i) == 1

/-- The checks on an entry into P2, P3 or P4 (R532). -/
def State.mayStop (s : State) (m : Nat) : Bool :=
  ((List.range 64).all fun n => (s.dmaOf n).phase == .idle) && ((List.range 2).all fun e => (s.pressOf e).phase == .idle)
    && !s.otherBusy m

/-- The status of a POWER_STATE request, after the checks of `refuses` (R532, R533). -/
def State.powerStatus (s : State) (m : Nat) (b : List Byte) : Nat :=
  let t := fieldAt b 0 1
  let trim := fieldAt b 4 4
  let now := s.rd F.pwrStatus_STATE
  if b.isEmpty ∨ 4 < t ∨ (t = 1 ∧ (b.length < 8 ∨ 2 ^ 31 ≤ trim)) ∨ (t = now ∧ (t ≠ 1 ∨ trim = s.rd F.pwrTrimmed_UNIT)) then St.badParam
  else if 2 ≤ t ∧ !s.mayStop m then St.busy
  else
    let refused := if t = 1 then ((bitsSet 31 trim).map s.trimStatus).find? (· != St.ok) else none
    refused.getD (if 2 ≤ now ∧ t ≠ 0 then St.badParam else St.ok)

/-- An accepted request to P0 or P1 from either (R532). -/
def retrim (t trim : Nat) (s : State) : State :=
  let old := s.rd F.pwrStatus_STATE
  let s := setTrims (if t = 1 then trim else 0) s
  logEvent 0x0A00 0 (old + t * 256) (if t = 1 then trim else 0) (s.wr F.pwrStatus_STATE t)

/-- POWER_STATE (R532, R535, R538). A return from P2 or P3 begins; an entry is completed and notified first, and for P4 the self-test
runs before it where PWR_BIST_ON_OFF is 1. -/
def execPowerState (m : Fin 16) (s : State) : Out :=
  .next (serve m.val 0x20 (fun r b s =>
    let t := fieldAt b 0 1
    let st := s.powerStatus m.val b
    if st ≠ St.ok then reply st s
    else if 2 ≤ s.rd F.pwrStatus_STATE then reply St.ok (s.set1 F.pwrStatus_TRANSIT)
    else if t < 2 then reply St.ok (retrim t (fieldAt b 4 4) s)
    else
      let s := if 3 ≤ t then flushLog s else s
      let s := finish r 0x20 St.ok 0 [] s
      (.posted, if t = 4 ∧ s.prm P.bistOnOff ≠ 0 then startTest true (s.set1 F.pwrStatus_TRANSIT) else enterState t s)) s)

/-! ### The return (R537 to R540, R552) -/

/-- PWR_REQ_RISE: in P3 and P4 the return to P0 begins; a running self-test ends at its next item boundary; in any other state the
edge is ignored (R537, R576). -/
def execPwrReqRise (s : State) : Out :=
  .next (if s.fault.tripHold then s
  else if s.rd F.pwrStatus_STATE = 3 ∨ s.rd F.pwrStatus_STATE = 4 then s.set1 F.pwrStatus_TRANSIT
  else if s.rd F.stStatus_STATE = 1 then s.wr F.stStatus_STATE 2 else s)

/-- The level of PWR_EN_MAIN: low in P4, until the return begins (R537 to R539). -/
def State.pwrEnMain (s : State) : Bool := s.rd F.pwrStatus_STATE != 4 || s.flag F.pwrStatus_TRANSIT

/-- PWR_GOOD_RISE: the GP banks are sampled, and a bank above 2.5 V takes its 3.3 V range (R537, R604). -/
def execPwrGoodRise (bankA bankB : Nat) (s : State) : Out :=
  .next (onCellar (fun c => { c with pwrGood := true, gpHigh := [decide (2500 < bankA), decide (2500 < bankB)] }) s)

/-- Entries held while the device slept are written, and every mailbox with something unnotified notifies (R435). -/
def writeHeld (s : State) : State :=
  let s := flushAll none s
  let s := s.forL ((List.range 16).filter fun m => s.unnotified m != 0) mbxNotify
  { s.clr F.pwrStatus_WAKE_REQ with hif := { s.hif with wakeN := false } }

/-- The units run again after P2: enabled pipes wait for their locks' anchors, enabled ports retrain (R535). -/
def resumeUnits (s : State) : State :=
  let s := s.forL ((List.range 8).filter fun p => s.flag (F.pipeCtl_EN p)) pipeEnable
  let s := s.forL ((List.range 8).filter fun k => s.flag (F.portCtl_EN k)) portStart
  let s := s.forL ((List.range 4).filter fun k => s.flag (F.csiCtl_EN k)) csiEnable
  s.forN 2 linkTrain

/-- Memories of cores 0 to 11 zero-filled, and LP5X lost where it was off (R538, R547). -/
def memAfterP3 (lp5x : Bool) (l : List Host.Cell) : List Host.Cell :=
  l.filter fun c => !(progBase 0 ≤ c.1 && c.1 < progBase 12) && (lp5x || !isLp5x c.1)

/-- The return from P3: WARM and PLAIN registers reset, banks woken, the beam counter restarted; the Cellar has run on, and boot-to-view
runs again (R16, R84, R538, R545, R547). -/
def returnP3 (s : State) : State :=
  let t := restart true s
  let t := { t with
    mem := memAfterP3 (s.flag F.pwrStatus_LP5X_SR) s.mem, lp := s.lp, cellar := s.cellar
    hif := { t.hif with pcieUp := s.hif.pcieUp, busMaster := s.hif.busMaster, pmeEn := s.hif.pmeEn, held := s.hif.held, unnotified := s.hif.unnotified,
                        hostDue := s.hif.hostDue, turnOff := s.hif.turnOff }
    intc := { t.intc with msixMasked := s.intc.msixMasked, functionMask := s.intc.functionMask, pba := s.intc.pba,
                          msixTable := s.intc.msixTable }
    cores := t.cores.set 12 (s.core 12)
    fault := { s.fault with units := [] } }
  let t := keepFlds monitorFlds s (keepVat s t)
  let t := restoreHealth ((t.wr F.intcHostMode_MSIX (s.rd F.intcHostMode_MSIX)).wr F.svcStatus_HOST_PRESENT (s.rd F.svcStatus_HOST_PRESENT))
  t.forN 64 fun k t =>
    let now := t.rd (F.vatBankStatus_PWR k)
    if now = 0 ∨ t.unitState (unitId 4 k) = 2 then t else bankArrive k now 0 t

/-- The return from P4 runs as a power-up: only what the always-on logic keeps is left (R16, R547, R552). -/
def returnP4 (s : State) : State :=
  let t := restart true s
  let t := (t.clr F.vatStatus_STATE).forN 64 fun k t => (t.clr (F.vatBankStatus_PWR k)).clr (F.vatBankStatus_RET_VOID k)
  restoreHealth t

/-- POWER_RETURN_DONE: a return that began ends in P0; held ring entries are written, and a HOST reset that waited comes first
(R538, R540). -/
def execPowerReturnDone (s : State) : Out :=
  let old := s.rd F.pwrStatus_STATE
  .next (if !s.flag F.pwrStatus_TRANSIT ∨ old < 2 ∨ s.fault.tripHold ∨ (old = 4 ∧ !s.cellar.pwrGood) then s
  else
    let s := match old with
      | 2 => s
      | 3 => returnP3 s
      | _ => returnP4 s
    let s := (((s.clr F.pwrStatus_STATE).clr F.pwrStatus_TRANSIT).clr F.pwrStatus_LP5X_SR).wr F.pwrStamp_STAMP s.now
    let s := if old = 2 then resumeUnits (untrimAll s) else if old = 3 then startChain (targetMailboxes s) else s
    let s := if s.hif.hostDue then hostReset 2 (!s.hif.pcieUp) s else s
    logEvent 0x0A00 0 old 0 (writeHeld s))

end Sys2Proof.Machine
end

