-- ==== Sys2Proof/Machine/Boot.lean ====
section
/-! DEFINITION. The ROM (R453, R463, R566, R577, R578) and the start of the firmware. -/

namespace Sys2Proof.Machine

/-! ### The soft repair map (R577, R578) -/

/-- Flash offset of a copy of the map. -/
def mapBase (i : Nat) : Nat := 0x10000 + i * 0x8000

/-- A copy's MAGIC is right. -/
def State.mapFound (s : State) (i : Nat) : Bool := s.flashNat (mapBase i) 4 == 0x50524E42

/-- A copy of the map, where it is valid: its SEQ and entries. -/
def State.mapCopy (s : State) (i : Nat) : Option (Nat × List MapEntry) :=
  let n := s.flashNat (mapBase i + 8) 2
  let body := s.flashBytes (mapBase i + 16) (n * 8)
  if s.mapFound i && n ≤ 4094 && s.flashNat (mapBase i + 12) 4 == crc32 (s.flashBytes (mapBase i) 12 ++ body) then
    some (s.flashNat (mapBase i + 4) 4, (List.range n).map fun e =>
      ⟨fieldAt body (e * 8) 2, fieldAt body (e * 8 + 2) 1, fieldAt body (e * 8 + 3) 1, fieldAt body (e * 8 + 4) 4⟩)
  else none

/-- The copy in force: its place, SEQ and entries. -/
def State.mapAt (s : State) : Option (Nat × Nat × List MapEntry) :=
  match s.mapCopy 0, s.mapCopy 1 with
  | some a, some b => if a.1 < b.1 then some (1, b) else some (0, a)
  | some a, none => some (0, a)
  | none, some b => some (1, b)
  | none, none => none

/-- The bytes of an entry. -/
def entryOf (e : MapEntry) : List Byte := natLE 2 e.id ++ natLE 1 e.sub ++ natLE 1 e.spare ++ natLE 4 e.addr

/-- The map written to the copy that does not hold the higher SEQ (R577). -/
def writeMap (l : List MapEntry) (s : State) : State :=
  let l := l.take 4094
  let (i, seq) := match s.mapAt with
    | some (i, q, _) => (1 - i, q + 1)
    | none => (0, 1)
  let head := natLE 4 0x50524E42 ++ natLE 4 seq ++ natLE 2 l.length ++ natLE 2 0
  let body := l.flatMap entryOf
  let s := flashWrite (mapBase i) (head ++ natLE 4 (crc32 (head ++ body)) ++ body) (flashErase (mapBase i) 0x8000 s)
  { (s.clr F.fltMap_PENDING).wr F.fltMap_ENTRIES l.length with fault := { s.fault with map := l, mapNew := [], mapSeq := seq } }

/-- An unusable marker. -/
def MapEntry.marks (e : MapEntry) : Bool := e.spare == 0xFF

/-- Every block of kinds 16 to 25. -/
def allBlocks : List Nat := (List.range 10).flatMap fun k => (List.range (blockCount (k + 16))).map (unitId (k + 16))

/-- Markers are applied: blocks unusable, units RETIRED with cause BIST, and an essential block's restriction (R573, R574, R578). -/
def applyMarkers (l : List MapEntry) (s : State) : State :=
  let bad := (l.filter (·.marks)).map (·.id)
  let s := s.forL allBlocks fun id s => s.wr (F.fltB_USABLE (id / 256 - 16) (id % 256)) (bit (!bad.contains id))
  let s := s.wr F.fltSummary_UNUSABLE (allBlocks.filter bad.contains).length
  let s := s.wr F.fltSummary_ESSENTIAL (bit (bad.any fun id => 26 * 256 ≤ id && id < 32 * 256))
  updateFaultN (s.forL ((allUnits.filter bad.contains)) fun id s => tdmRetired (id % 256) (csiRetired (id % 256) (retire id 9 s)))

/-- The number of map entries of each block is shown (R587). -/
def showRepairs (l : List MapEntry) (s : State) : State :=
  s.forL allBlocks fun id s => s.wr (F.fltB_REPAIRS (id / 256 - 16) (id % 256)) (min 255 (l.filter fun e => e.id == id && !e.marks).length)

/-- The ROM applies the valid copy of the map (R578). -/
def applyMap (s : State) : State :=
  match s.mapAt with
  | none =>
    let s := { s with fault := { s.fault with map := [], mapNew := [], mapSeq := 0 } }
    let s := (s.clr F.fltMap_ENTRIES).clr F.fltMap_VALID
    logEvent 0x0807 1 (bit (s.mapFound 0) + 2 * bit (s.mapFound 1)) 0 (applyMarkers [] (showRepairs [] s))
  | some (_, q, l) =>
    let s := { s with fault := { s.fault with map := l, mapNew := [], mapSeq := q } }
    let on := s.prm P.repairEn != 0
    let s := (s.wr F.fltMap_ENTRIES l.length).wr F.fltMap_VALID (bit on)
    showRepairs l (applyMarkers (if on then l else []) s)

/-! ### Choosing a slot (R453) -/

/-- A slot may be booted. -/
def State.slotGood (s : State) (i : Nat) : Bool := bitAt s.desc.valid i && s.slotCheck i == 0

/-- Step 1: the slot chosen, whether as a trial, and the descriptor written. A revert is logged; the status REVERTED has no code in the
spec, and its DATA1 is free (assumption 27). -/
def chooseSlot (s : State) : Nat × Bool × State :=
  let d := s.desc
  if (d.trial = 1 ∨ d.trial = 2) ∧ bitAt d.valid (d.trial - 1) ∧ d.count = 0 then (d.trial - 1, true, putDesc { d with count := 1 } s)
  else if d.trial ≠ 0 then
    let (i, s) := s.fresh
    (d.active % 2, false, logEvent 0x0005 2 0xFFFF (Config.logEntry 6 i).2.2.2.toNat (putDesc { d with trial := 0 } s))
  else (d.active % 2, false, s)

/-- Steps 2 to 4: the slot booted and whether as a trial; none where both fail. -/
def State.bootSlot (s : State) (c : Nat) (trial : Bool) : Option (Nat × Bool) :=
  if s.slotGood c then some (c, trial) else if s.slotGood (1 - c) then some (1 - c, false) else none

/-- The sections of a slot are loaded in ascending index; the ROM waits for the Vat before it loads into it (R452, R453). -/
def loadSlot (i : Nat) (s : State) : State :=
  let l := s.slotSections i
  let s := if (l.any fun c => isVat c.dest) && s.rd F.vatStatus_STATE == 1 then vatInitEnd s else s
  s.forL l fun c s => (busWrite .cellar c.dest (s.flashBytes (slotBase i + 512 + c.off) c.len) s).2

/-- The results record of a self-test can be read from this start on (R585; DEDUCED, assumption 182). -/
def announceResults (s : State) : State :=
  if s.fault.resultsDue then
    let bad := s.fault.last.any fun r => r.items.any fun x => x.2.1 == 2
    raise 493 (s.iff bad (raise 494)) |> fun s => { s with fault := { s.fault with resultsDue := false } }
  else s

/-- The firmware starts: its slot and version, its first bundle, fixed-blanking mode, the log of the start, and the chain (R70, R434,
R448, R453, R470, R542). -/
def startFirmware (i : Nat) (trial : Bool) (s : State) : State :=
  let v := s.flashNat (slotBase i + 4) 4
  let s := ((s.wr F.cellarStatus_SLOT i).wr F.cellarStatus_TRIAL (bit trial)).wr F.cellarFwver_VERSION v
  let s := onCellar (fun c => { c with booted := true, runSvn := s.slotSvn i, runKey := s.slotKey i, trialWaits := trial }) s
  let s := targetMailboxes (leaveReset 12 0 (onSvc (fun r => { r with bootDue := true }) s))
  let s := s.forN 8 fun n s => s.wr (F.lockCtl_FIXED n) (s.lockFixedNow n)
  let s := logEvent 0x0001 0 v (i + 128 * bit trial + 256 * s.rd F.cellarStatus_ARB) s
  let s := match s.cellar.wdtLog with
    | some cause => logEvent 0x0002 3 cause s.cellar.epc (onCellar (fun c => { c with wdtLog := none }) s)
    | none => s
  let s := match s.fault.tripLog with
    | some (n, t) => logEvent 0x0A02 3 n t { s with fault := { s.fault with tripLog := none } }
    | none => s
  let s := announceResults (s.iff (s.flag F.pinStraps_ROLE_BAD) (logOpen 5))
  serveUnknown 17 (startChain s)

/-- LP5X and the Vat are initialised at the first start after POR, PIN or a return from P4 (R76, R563); the Vat also where a WDT reset
ended a self-test, which leaves it in SELFTEST (DEDUCED, assumption 126). -/
def firstStart (s : State) : State :=
  if s.rd F.vatStatus_STATE = 3 then vatInitStart s
  else if s.rd F.vatStatus_STATE ≠ 0 then s
  else
    let on := (List.range 16).foldl (fun m c => if s.unitState (unitId 3 c) = 2 then m else m + 2 ^ c) 0
    vatInitStart { s with lp := { channels := on, out := 0 } }

/-- In END there is no display, no audio and no service: the pipes with their ports, the audio block and its cores stand reset (R461; DEDUCED,
assumption 175). -/
def endServices (s : State) : State :=
  let s := onSvc svcFresh (s.clr F.svcStatus_STATE)
  let s := ((s.forN 8 fun p s => blockReset 0 p s).forN 4 fun c s => blockReset 8 c s)
  blockReset 9 0 s

/-- ROM_BOOT: the ROM starts the firmware, or enters recovery; in END it loads none (R453, R463, R578). -/
def execRomBoot (s : State) : Out :=
  .next (if !s.cellar.romDue || !s.cellar.pwrGood || s.fault.tripHold || 2 ≤ s.rd F.pwrStatus_STATE then s
  else
    let s := onCellar (fun c => { c with romDue := false, booted := false }) (s.clr F.cellarStatus_ROM_RECOVERY)
    let s := firstStart (applyMap s)
    if s.cellar.fuses.lifecycle = 5 then serveUnknown 17 (endServices s)
    else
      let (c, trial, s) := chooseSlot s
      match s.bootSlot c trial with
      | some (i, trial) => startFirmware i trial (loadSlot i s)
      | none => serveUnknown 17 ((s.set1 F.cellarStatus_ROM_RECOVERY).clr F.cellarFwver_VERSION))

end Sys2Proof.Machine
end

