-- ==== Sys2Proof/Machine/SelfTest.lean ====
section
/-! DEFINITION. Fault units at the host's and at time's hand, the shutdown self-test and the test port (R557 to R583). -/

namespace Sys2Proof.Machine

/-! ### Units (R558, R559, R565) -/

/-- A unit's counts are zeroed. -/
def zeroCounts (id : Nat) (s : State) : State :=
  let s := { s with fault := { s.fault with units := s.fault.units.filter fun u => u.id != id } }
  let k := id / 256
  let i := id % 256
  ((s.clr (F.fltU_COUNT60 k i)).clr (F.fltU_ATTEMPTS k i)).clr (F.fltU_TOTAL k i)

/-- A unit becomes HEALTHY; its cause stays that of the change before. -/
def makeHealthy (id : Nat) (s : State) : State :=
  let cause := s.rd (F.fltU_CAUSE (id / 256) (id % 256))
  notifyFault id 0 cause (setUnitState id 0 cause s)

/-- SUSPECT_EXPIRE: a SUSPECT unit with no upset for 60 s becomes HEALTHY (R558). -/
def execSuspectExpire (id : BitVec 16) (s : State) : Out :=
  let id := id.toNat
  let u := s.fltUnit id
  .next (if allUnits.contains id && s.unitState id == 1 && !u.retrying && !(u.upsets.any (s.within 60000000)) then
    makeHealthy id (showCounts id s) else s)

/-- What follows where a unit is found RETIRED (R215, R312). -/
def afterRetire (id : Nat) (s : State) : State :=
  match id / 256 with
  | 2 => csiRetired (id % 256) s
  | 6 => tdmRetired (id % 256) s
  | _ => s

/-- RETRY_DONE: a retry attempt of a unit ends (R559, R560). -/
def execRetryDone (id : BitVec 16) (ok : Bool) (s : State) : Out := .next (afterRetire id.toNat (endAttempt id.toNat ok s))

/-- LP5X_PERIODIC_RETRAINING: a channel is retrained; a failure is an upset of it (R557). -/
def execLp5xPeriodicRetraining (c : Fin 16) (ok : Bool) (s : State) : Out :=
  .next (if ok || s.stopped || s.flag F.pwrStatus_LP5X_SR || bitAt s.lp.out c.val then s else upset (unitId 3 c.val) 5 s)

/-- A reinstated unit returns to service as its kind allows (R565). -/
def returnUnit (id : Nat) (s : State) : State :=
  let i := id % 256
  match id / 256 with
  | 0 => s.iff (s.flag (F.portCtl_EN i)) (portStart i)
  | 1 =>
    let k := i / 2
    let base := if s.flag (F.portCtl_EN (k / 2 * 2)) && s.rd (F.portCtl_LANES (k / 2 * 2)) == 2 then k / 2 * 2 else k
    s.iff (s.flag (F.portCtl_EN base)) (portStart base)
  | 2 => s.iff (s.flag (F.csiCtl_EN i)) (csiEnable i)
  | 5 => linkRetrain (i / 4) s
  | 6 => s.iff (s.flag (F.tdmCtl_EN i)) fun s => s.wr (F.tdmStatus_STATE i) 1
  | 7 => s.iff (s.rd F.refStatus_STATE == 3 && s.flag F.refStatus_REF_IN_OK) fun s => s.wr F.refStatus_STATE 2
  | 8 => s.iff (s.prm (P.canMode i) != 0) fun s => s.wr (F.canStatus_STATE i) 1
  | _ => s

/-- The reinstatement is logged and raised (R565). -/
def reinstated (id old : Nat) (s : State) : State := logEvent 0x0802 0 id old (raise 492 s)

/-- REINSTATE (R565). -/
def execReinstate (m : Fin 16) (s : State) : Out :=
  .next (serve m.val 0x31 (fun _ b s =>
    let id := fieldAt b 0 2
    if b.length < 2 then reply St.badParam s
    else if allUnits.contains id then
      let old := s.unitState id
      if (s.fltUnit id).retrying then reply St.busy s
      else if old = 0 then reply St.ok s
      else
        let s := { s with fault := { s.fault with record := s.fault.record.filter (· != id) } }
        let s := makeHealthy id (zeroCounts id s)
        reply St.ok (reinstated id old (if old = 2 then returnUnit id s else s))
    else if allBlocks.contains id ∨ (26 * 256 ≤ id ∧ id < 32 * 256 ∧ s.fault.map.any fun e => e.id == id && e.marks) then
      let marked := s.fault.map.any fun e => e.id == id && e.marks
      if !marked then reply St.ok s
      else
        let s := { s.set1 F.fltMap_PENDING with
                   fault := { s.fault with map := s.fault.map.filter fun e => !(e.id == id && e.marks) } }
        reply St.ok (reinstated id 3 s)
    else reply St.badParam s) s)

/-! ### FAULT_STATUS (R582) -/

/-- The 8 bytes of a unit's or block's record. -/
def State.faultRecord (s : State) (id : Nat) : List Byte :=
  let k := id / 256
  let i := id % 256
  if k < 10 then
    natLE 2 id ++ natLE 1 (s.unitState id) ++ natLE 1 (s.rd (F.fltU_CAUSE k i)) ++ natLE 1 (s.rd (F.fltU_COUNT60 k i))
      ++ natLE 1 (s.rd (F.fltU_ATTEMPTS k i)) ++ natLE 2 0
  else natLE 2 id ++ natLE 1 (if s.usable k i then 0 else 3) ++ natLE 1 (if s.usable k i then 0 else 9) ++ natLE 4 0

/-- FAULT_STATUS (R582). -/
def execFaultStatus (m : Fin 16) (s : State) : Out :=
  .next (serve m.val 0x30 (fun _ b s =>
    let s := refreshCounts s
    let ids := ((allUnits ++ allBlocks).filter fun id => fieldAt b 0 2 ≤ id).take (fieldAt b 2 2)
    if b.length < 4 ∨ 4080 < 2 + 8 * ids.length then reply St.badParam s
    else (.done St.ok 0 (natLE 2 (allUnits ++ allBlocks).length ++ ids.flatMap s.faultRecord), s)) s)

/-! ### The repair map at runtime (R577, R579) -/

/-- REPAIR_MAP_WRITE: entries not yet in flash are written (R577). -/
def execRepairMapWrite (s : State) : Out :=
  .next (if s.flag F.fltMap_PENDING then writeMap (s.fault.map ++ s.fault.mapNew) s else s)

/-! ### Shutdown self-test (R568 to R576) -/

/-- SELFTEST with MODE RUN (R568). -/
def execSelftestRun (m : Fin 16) (s : State) : Out :=
  .next (serveSub m.val 0x32 0 (· == 1) (fun r _ s =>
    let st := s.powerStatus m.val [4#8]
    if st ≠ St.ok then reply st s
    else (.posted, startTest false (finish r 0x32 St.ok 0 [] s))) s)

/-- The results record (R573). Before any run there is none, and every item reads NOT_RUN. -/
def State.results (s : State) : List Byte :=
  let r := s.fault.last.getD { seconds := 0, elapsedMs := 0, items := (List.range 8).map fun i => (i + 1, 3, 0), blocks := [] }
  natLE 8 r.seconds ++ natLE 4 r.elapsedMs ++ (r.items.flatMap fun x => natLE 1 x.1 ++ natLE 1 x.2.1 ++ natLE 2 x.2.2)
    ++ r.blocks.flatMap fun x => natLE 2 x.1 ++ natLE 1 x.2.1 ++ natLE 1 x.2.2

/-- SELFTEST with MODE RESULTS, and with a MODE that does not exist (R568, R573). -/
def execSelftestResults (m : Fin 16) (s : State) : Out :=
  .next (serveSub m.val 0x32 0 (· != 1) (fun _ b s =>
    if b.isEmpty ∨ fieldAt b 0 1 ≠ 0 then reply St.badParam s else (.done St.ok 0 (s.results.take 4080), s)) s)

/-- Spares of a memory: 32 lines and 4 columns of a Vat bank, 2 rows of any other (R571). -/
def spares (id addr : Nat) : Nat := if id / 256 = 4 then (if bitAt addr 31 then 4 else 32) else if bitAt addr 31 then 0 else 2

/-- What an item found joins the map: a spare is allocated, or, where it fails or no spare is left, a marker (R571, R577). -/
def mapFind (l : List MapEntry) (f : TestFind) : List MapEntry :=
  let id := f.id.toNat
  let a := f.addr.toNat
  let used := (l.filter fun e => e.id == id && e.sub == f.sub.toNat && !e.marks && bitAt e.addr 31 == bitAt a 31).length
  if f.fails ∨ spares id a ≤ used then
    if l.any fun e => e.id == id && e.marks then l else l ++ [⟨id, f.sub.toNat, 0xFF, f.item.val + 1⟩]
  else l ++ [⟨id, f.sub.toNat, used, a⟩]

/-- The worst result of a list of entries that a run added: 0 PASS, 1 REPAIRED, 2 UNUSABLE. -/
def worstOf (l : List MapEntry) : Nat := if l.any (·.marks) then 2 else if l.isEmpty then 0 else 1

/-- The blocks and units that an item tests (R569). -/
def testedBy (item : Nat) : List Nat :=
  let units (l : List Nat) : List Nat := allUnits.filter fun id => l.contains (id / 256)
  match item with
  | 1 => allBlocks
  | 2 => units [4]
  | 4 => units [1, 2, 5]
  | 5 => units [3]
  | 7 => units [9]
  | _ => []

/-- What a self-test found is recorded: the map and the results, with their sources and log entries (R569, R573, R577, R584).
`ran` items have run; the markers of the others stay, and a run that ends before item 8 writes no entry (DEDUCED, assumption 88). -/
def recordTest (ms ran : Nat) (finds : List TestFind) (s : State) : State :=
  let finds := finds.filter fun f => f.item.val < ran
  let old := (s.fault.map ++ s.fault.mapNew).filter fun e => !(e.marks && 1 ≤ e.addr && e.addr ≤ ran)
  let new := finds.foldl mapFind old
  let added := new.drop old.length
  let of (i : Nat) : List MapEntry := (finds.filter fun f => f.item.val == i).foldl mapFind old |>.drop old.length
  let items := (List.range 8).map fun i => if ran ≤ i then (i + 1, 3, 0) else (i + 1, worstOf (of i), (finds.filter fun f => f.item.val == i).length)
  let itemOf (id : Nat) : Nat := ((finds.find? fun f => f.id.toNat == id).map fun f => f.item.val + 1).getD 0
  let ids := (added.map (·.id)).eraseDups
  let skipped := (List.range 8).flatMap fun i => if ran ≤ i then (testedBy (i + 1)).map fun id => (id, 3, i + 1) else []
  let blocks := ids.map (fun id => (id, worstOf (added.filter fun e => e.id == id), itemOf id)) ++ skipped
  let s := { s with fault := { s.fault with last := some { seconds := s.rd F.cellarSeconds_COUNT, elapsedMs := ms, items := items, blocks := blocks } } }
  let kept := if ran = 8 then added else []
  let repairs := (kept.filter fun e => !e.marks).length
  let word := items.foldl (fun w x => w + x.2.1 * 4 ^ (x.1 - 1)) 0
  let s := ((s.wr F.stLast_SECONDS (s.rd F.cellarSeconds_COUNT)).wr F.stResult_ITEMS word).wr F.stResult_REPAIRS (min 65535 repairs)
  let s := s.forL allBlocks fun id s => s.wr (F.fltB_RESULT (id / 256 - 16) (id % 256))
    (if ran = 0 then 3 else worstOf (added.filter fun e => e.id == id))
  let s := if ran = 8 then showRepairs new (writeMap new s) else s
  let s := logEvent 0x0804 (if items.any fun x => x.2.1 == 2 then 2 else 0) ms word s
  let s := s.forL (kept.filter fun e => e.marks && 16 * 256 ≤ e.id) fun e s =>
    logEvent 0x0805 (if 26 * 256 ≤ e.id then 3 else 2) e.id e.addr s
  let s := s.forL (kept.filter fun e => !e.marks) fun e s => logEvent 0x0806 0 (e.id + e.sub * 2 ^ 16) e.addr s
  { s with fault := { s.fault with resultsDue := true } }

/-- SELFTEST_COMPLETE: the self-test ends, after item `last` where PWR_REQ ended it. From a P4 entry the entry completes, and a PWR_REQ
that rose brings the return at once; otherwise the Vat is initialised, the units run again, and a WARM reset follows (R568, R576). -/
def execSelftestComplete (elapsedMs : BitVec 32) (last : Fin 9) (finds : List TestFind) (s : State) : Out :=
  .next (if s.rd F.stStatus_STATE = 0 ∨ s.fault.tripHold then s
  else
    let early := s.rd F.stStatus_STATE == 2
    let s := recordTest elapsedMs.toNat (if early then last.val else 8) finds s
    let s := ((s.clr F.stStatus_STATE).clr F.stStatus_ITEM).clr F.stStatus_REMAIN_MS
    if s.fault.testFromP4 then
      let s := enterState 4 { s with fault := { s.fault with testFromP4 := false } }
      s.iff early (·.set1 F.pwrStatus_TRANSIT)
    else onCellar (fun c => { c with warmDue := true }) (resumeUnits (vatInitStart s)))

/-! ### The test port (R580, R581) -/

/-- The life-cycle state permits the test port (R461, R463). -/
def State.mayTest (s : State) : Bool :=
  match s.cellar.fuses.lifecycle with
  | 0 => true
  | 1 => true
  | 4 => !s.cellar.testPortWaits
  | _ => false

/-- TEST_SESSION_OPEN: the TAP leaves Test-Logic-Reset in a permitted state, in P0 (R581). -/
def execTestSessionOpen (s : State) : Out :=
  .next (if s.mayTest && s.rd F.pwrStatus_STATE == 0 && !s.stopped && !s.fault.tripHold then
    { s with fault := { s.fault with testSession := true } } else s)

/-- TEST_SESSION_CLOSE: the session closes, and a WARM reset follows (R581). -/
def execTestSessionClose (s : State) : Out :=
  .next (if s.fault.testSession then
    onCellar (fun c => { c with warmDue := true }) { s with fault := { s.fault with testSession := false } } else s)

end Sys2Proof.Machine
end

