-- ==== Sys2Proof/Machine/Dispatch.lean ====
section
/-! DEFINITION. One arm per command: each calls its meaning. -/

namespace Sys2Proof.Machine

def exec (i : Instr) (s : State) : Host.Outcome State Fault Refusal :=
  match i with
  | .irsRegWrite who off data => Sys2Proof.Machine.execIrsRegWrite who off data s
  | .refCtlApply => Sys2Proof.Machine.execRefCtlApply s
  | .refFrameStart mw => Sys2Proof.Machine.execRefFrameStart mw s
  | .refLineStart => Sys2Proof.Machine.execRefLineStart s
  | .refSynLock => Sys2Proof.Machine.execRefSynLock s
  | .beamNowRead who part dot => Sys2Proof.Machine.execBeamNowRead who part dot s
  | .beamEpochRead who => Sys2Proof.Machine.execBeamEpochRead who s
  | .refLost => Sys2Proof.Machine.execRefLost s
  | .refRestored => Sys2Proof.Machine.execRefRestored s
  | .vatReinit => Sys2Proof.Machine.execVatReinit s
  | .vatInitDone => Sys2Proof.Machine.execVatInitDone s
  | .vatAccess who line op err c0Wait conflict => Sys2Proof.Machine.execVatAccess who line op err c0Wait conflict s
  | .vatSetAliasWrite who off data err => Sys2Proof.Machine.execVatSetAliasWrite who off data err s
  | .vatClearAliasWrite who off data err => Sys2Proof.Machine.execVatClearAliasWrite who off data err s
  | .vatCeWriteback k => Sys2Proof.Machine.execVatCeWriteback k s
  | .vatBankTransitionDone k => Sys2Proof.Machine.execVatBankTransitionDone k s
  | .vatC0ResApply k => Sys2Proof.Machine.execVatC0ResApply k s
  | .scrubLine k row err => Sys2Proof.Machine.execScrubLine k row err s
  | .vatBankScrubDone k => Sys2Proof.Machine.execVatBankScrubDone k s
  | .bgtRegionOpen => Sys2Proof.Machine.execBgtRegionOpen s
  | .bgtRegionClose fails => Sys2Proof.Machine.execBgtRegionClose fails s
  | .bgtRegionSkip => Sys2Proof.Machine.execBgtRegionSkip s
  | .planeLineFetched n cclk => Sys2Proof.Machine.execPlaneLineFetched n cclk s
  | .harpGateWrite who off wide data => Sys2Proof.Machine.execHarpGateWrite who off wide data s
  | .harpObjPublish who obj data => Sys2Proof.Machine.execHarpObjPublish who obj data s
  | .harpAffPublish who set => Sys2Proof.Machine.execHarpAffPublish who set s
  | .harpScan p scanWait avail => Sys2Proof.Machine.execHarpScan p scanWait avail s
  | .harpStageDone p => Sys2Proof.Machine.execHarpStageDone p s
  | .pipeLineStart p dot safeLate wbStall => Sys2Proof.Machine.execPipeLineStart p dot safeLate wbStall s
  | .pipeFrameStart p dot => Sys2Proof.Machine.execPipeFrameStart p dot s
  | .pipeLatch p => Sys2Proof.Machine.execPipeLatch p s
  | .pipeLateLatch p => Sys2Proof.Machine.execPipeLateLatch p s
  | .fetchDrainRelease p => Sys2Proof.Machine.execFetchDrainRelease p s
  | .pipeCommit who p slotMask seq => Sys2Proof.Machine.execPipeCommit who p slotMask seq s
  | .wbFrameDone p => Sys2Proof.Machine.execWbFrameDone p s
  | .portHpdRise k dot => Sys2Proof.Machine.execPortHpdRise k dot s
  | .portHpdFall k => Sys2Proof.Machine.execPortHpdFall k s
  | .portTrainingDone k => Sys2Proof.Machine.execPortTrainingDone k s
  | .portTrainingTimeout k => Sys2Proof.Machine.execPortTrainingTimeout k s
  | .portLinkLoss k lanes => Sys2Proof.Machine.execPortLinkLoss k lanes s
  | .csiFs port vc frameNum hdr dot => Sys2Proof.Machine.execCsiFs port vc frameNum hdr dot s
  | .csiLongPacket port vc dt data hdr crcErr => Sys2Proof.Machine.execCsiLongPacket port vc dt data hdr crcErr s
  | .csiShortIgnored port vc dt hdr => Sys2Proof.Machine.execCsiShortIgnored port vc dt hdr s
  | .csiFe port vc frameNum hdr dot => Sys2Proof.Machine.execCsiFe port vc frameNum hdr dot s
  | .streamFrameComplete n dot => Sys2Proof.Machine.execStreamFrameComplete n dot s
  | .landingTagValid n err => Sys2Proof.Machine.execLandingTagValid n err s
  | .raceCutoff n slackCclk latency10ns => Sys2Proof.Machine.execRaceCutoff n slackCclk latency10ns s
  | .streamTimeout n dot => Sys2Proof.Machine.execStreamTimeout n dot s
  | .csiSyncLoss port => Sys2Proof.Machine.execCsiSyncLoss port s
  | .csiResyncDone port synced => Sys2Proof.Machine.execCsiResyncDone port synced s
  | .camFsyncPulse n dot => Sys2Proof.Machine.execCamFsyncPulse n dot s
  | .camFsyncEnd pulse => Sys2Proof.Machine.execCamFsyncEnd pulse s
  | .rindVerdict p r => Sys2Proof.Machine.execRindVerdict p r s
  | .rindC0CondSet c => Sys2Proof.Machine.execRindC0CondSet c s
  | .rindC0CondClear c => Sys2Proof.Machine.execRindC0CondClear c s
  | .add k stop j d a b => Sys2Proof.Machine.execAdd k stop j d a b s
  | .sub k stop j d a b => Sys2Proof.Machine.execSub k stop j d a b s
  | .and k stop j d a b => Sys2Proof.Machine.execAnd k stop j d a b s
  | .or k stop j d a b => Sys2Proof.Machine.execOr k stop j d a b s
  | .xor k stop j d a b => Sys2Proof.Machine.execXor k stop j d a b s
  | .shl k stop j d a b => Sys2Proof.Machine.execShl k stop j d a b s
  | .shr k stop j d a b => Sys2Proof.Machine.execShr k stop j d a b s
  | .sar k stop j d a b => Sys2Proof.Machine.execSar k stop j d a b s
  | .min k stop j d a b => Sys2Proof.Machine.execMin k stop j d a b s
  | .max k stop j d a b => Sys2Proof.Machine.execMax k stop j d a b s
  | .minu k stop j d a b => Sys2Proof.Machine.execMinu k stop j d a b s
  | .maxu k stop j d a b => Sys2Proof.Machine.execMaxu k stop j d a b s
  | .cmpeq k stop j d a b => Sys2Proof.Machine.execCmpeq k stop j d a b s
  | .cmplt k stop j d a b => Sys2Proof.Machine.execCmplt k stop j d a b s
  | .cmpltu k stop j d a b => Sys2Proof.Machine.execCmpltu k stop j d a b s
  | .adds k stop j d a b => Sys2Proof.Machine.execAdds k stop j d a b s
  | .subs k stop j d a b => Sys2Proof.Machine.execSubs k stop j d a b s
  | .abs k stop j d a => Sys2Proof.Machine.execAbs k stop j d a s
  | .clz k stop j d a => Sys2Proof.Machine.execClz k stop j d a s
  | .addi k stop j d a imm => Sys2Proof.Machine.execAddi k stop j d a imm s
  | .andi k stop j d a imm => Sys2Proof.Machine.execAndi k stop j d a imm s
  | .ori k stop j d a imm => Sys2Proof.Machine.execOri k stop j d a imm s
  | .xori k stop j d a imm => Sys2Proof.Machine.execXori k stop j d a imm s
  | .shli k stop j d a imm => Sys2Proof.Machine.execShli k stop j d a imm s
  | .shri k stop j d a imm => Sys2Proof.Machine.execShri k stop j d a imm s
  | .sari k stop j d a imm => Sys2Proof.Machine.execSari k stop j d a imm s
  | .cmpeqi k stop j d a imm => Sys2Proof.Machine.execCmpeqi k stop j d a imm s
  | .cmplti k stop j d a imm => Sys2Proof.Machine.execCmplti k stop j d a imm s
  | .li k stop j d imm => Sys2Proof.Machine.execLi k stop j d imm s
  | .lih k stop j d imm => Sys2Proof.Machine.execLih k stop j d imm s
  | .movx k stop j d a => Sys2Proof.Machine.execMovx k stop j d a s
  | .movg k stop j d a => Sys2Proof.Machine.execMovg k stop j d a s
  | .addx k stop j d a imm => Sys2Proof.Machine.execAddx k stop j d a imm s
  | .rdp k stop j d a imm => Sys2Proof.Machine.execRdp k stop j d a imm s
  | .rda k stop j d a imm => Sys2Proof.Machine.execRda k stop j d a imm s
  | .rdar k stop j d a imm => Sys2Proof.Machine.execRdar k stop j d a imm s
  | .mul k stop d a b => Sys2Proof.Machine.execMul k stop d a b s
  | .mulu k stop d a b => Sys2Proof.Machine.execMulu k stop d a b s
  | .mac k stop d a b => Sys2Proof.Machine.execMac k stop d a b s
  | .msu k stop d a b => Sys2Proof.Machine.execMsu k stop d a b s
  | .macz k stop d a b => Sys2Proof.Machine.execMacz k stop d a b s
  | .macu k stop d a b => Sys2Proof.Machine.execMacu k stop d a b s
  | .mova k stop d a n => Sys2Proof.Machine.execMova k stop d a n s
  | .ashr k stop d a n => Sys2Proof.Machine.execAshr k stop d a n s
  | .ains k stop d a n => Sys2Proof.Machine.execAins k stop d a n s
  | .ldB k stop g at_ ecc => Sys2Proof.Machine.execLdB k stop g at_ ecc s
  | .ldBs k stop g at_ ecc => Sys2Proof.Machine.execLdBs k stop g at_ ecc s
  | .ldH k stop g at_ ecc => Sys2Proof.Machine.execLdH k stop g at_ ecc s
  | .ldHs k stop g at_ ecc => Sys2Proof.Machine.execLdHs k stop g at_ ecc s
  | .ldT k stop g at_ ecc => Sys2Proof.Machine.execLdT k stop g at_ ecc s
  | .ldW k stop g at_ ecc => Sys2Proof.Machine.execLdW k stop g at_ ecc s
  | .ldD k stop g at_ ecc => Sys2Proof.Machine.execLdD k stop g at_ ecc s
  | .stB k stop g at_ => Sys2Proof.Machine.execStB k stop g at_ s
  | .stH k stop g at_ => Sys2Proof.Machine.execStH k stop g at_ s
  | .stT k stop g at_ => Sys2Proof.Machine.execStT k stop g at_ s
  | .stW k stop g at_ => Sys2Proof.Machine.execStW k stop g at_ s
  | .stD k stop g at_ => Sys2Proof.Machine.execStD k stop g at_ s
  | .ldx k stop d at_ ecc => Sys2Proof.Machine.execLdx k stop d at_ ecc s
  | .stx k stop d at_ => Sys2Proof.Machine.execStx k stop d at_ s
  | .setw k stop w g => Sys2Proof.Machine.execSetw k stop w g s
  | .nopc k stop => Sys2Proof.Machine.execNopc k stop s
  | .br k stop tgt => Sys2Proof.Machine.execBr k stop tgt s
  | .bz k stop g tgt => Sys2Proof.Machine.execBz k stop g tgt s
  | .bnz k stop g tgt => Sys2Proof.Machine.execBnz k stop g tgt s
  | .call k stop tgt => Sys2Proof.Machine.execCall k stop tgt s
  | .ret k stop => Sys2Proof.Machine.execRet k stop s
  | .loop k stop g tgt => Sys2Proof.Machine.execLoop k stop g tgt s
  | .wait k stop => Sys2Proof.Machine.execWait k stop s
  | .waitEnd k dot => Sys2Proof.Machine.execWaitEnd k dot s
  | .fence k stop => Sys2Proof.Machine.execFence k stop s
  | .reti k stop => Sys2Proof.Machine.execReti k stop s
  | .trap k stop imm => Sys2Proof.Machine.execTrap k stop imm s
  | .brg k stop g => Sys2Proof.Machine.execBrg k stop g s
  | .callg k stop g => Sys2Proof.Machine.execCallg k stop g s
  | .csrr k stop g csr => Sys2Proof.Machine.execCsrr k stop g csr s
  | .csrw k stop g csr => Sys2Proof.Machine.execCsrw k stop g csr s
  | .csrs k stop g csr => Sys2Proof.Machine.execCsrs k stop g csr s
  | .csrc k stop g csr => Sys2Proof.Machine.execCsrc k stop g csr s
  | .beamLoRead k stop g dot => Sys2Proof.Machine.execBeamLoRead k stop g dot s
  | .cycleLoRead k stop g stall => Sys2Proof.Machine.execCycleLoRead k stop g stall s
  | .ivecClaim k stop g => Sys2Proof.Machine.execIvecClaim k stop g s
  | .farLoadResponse k host => Sys2Proof.Machine.execFarLoadResponse k host s
  | .farStoreAck k => Sys2Proof.Machine.execFarStoreAck k s
  | .trapEntry k cause => Sys2Proof.Machine.execTrapEntry k cause s
  | .interruptEntry k => Sys2Proof.Machine.execInterruptEntry k s
  | .lockstepMismatch => Sys2Proof.Machine.execLockstepMismatch s
  | .seqLeaveReset p => Sys2Proof.Machine.execSeqLeaveReset p s
  | .seqHalt p => Sys2Proof.Machine.execSeqHalt p s
  | .seqlKick p => Sys2Proof.Machine.execSeqlKick p s
  | .seqlDoorbell p => Sys2Proof.Machine.execSeqlDoorbell p s
  | .slotWriteServed p latency => Sys2Proof.Machine.execSlotWriteServed p latency s
  | .seqWdtExpire p => Sys2Proof.Machine.execSeqWdtExpire p s
  | .audMclkLost d => Sys2Proof.Machine.execAudMclkLost d s
  | .audMclkRestored d => Sys2Proof.Machine.execAudMclkRestored d s
  | .audPortSlip slip => Sys2Proof.Machine.execAudPortSlip slip s
  | .tdmFsError p => Sys2Proof.Machine.execTdmFsError p s
  | .tdmResyncDone p ok => Sys2Proof.Machine.execTdmResyncDone p ok s
  | .asrcLock b ratio => Sys2Proof.Machine.execAsrcLock b ratio s
  | .asrcUnlock b => Sys2Proof.Machine.execAsrcUnlock b s
  | .xpGainWrite who inp out target => Sys2Proof.Machine.execXpGainWrite who inp out target s
  | .stGainWrite who t target => Sys2Proof.Machine.execStGainWrite who t target s
  | .gainChangeStart inp out st => Sys2Proof.Machine.execGainChangeStart inp out st s
  | .audZcTimeout inp out st => Sys2Proof.Machine.execAudZcTimeout inp out st s
  | .audCoreLeaveReset c => Sys2Proof.Machine.execAudCoreLeaveReset c s
  | .audBlockBoundary c => Sys2Proof.Machine.execAudBlockBoundary c s
  | .audlDone c => Sys2Proof.Machine.execAudlDone c s
  | .audlKick c => Sys2Proof.Machine.execAudlKick c s
  | .audlDoorbell c => Sys2Proof.Machine.execAudlDoorbell c s
  | .audCoreWdtExpire c => Sys2Proof.Machine.execAudCoreWdtExpire c s
  | .audFrameLatch d phase dot => Sys2Proof.Machine.execAudFrameLatch d phase dot s
  | .playGo who k ctl => Sys2Proof.Machine.execPlayGo who k ctl s
  | .playStop who k ctl => Sys2Proof.Machine.execPlayStop who k ctl s
  | .audPlayStart k => Sys2Proof.Machine.execAudPlayStart k s
  | .audPlayDone k => Sys2Proof.Machine.execAudPlayDone k s
  | .pressStart who e hi lo => Sys2Proof.Machine.execPressStart who e hi lo s
  | .pressEntryFetched e => Sys2Proof.Machine.execPressEntryFetched e s
  | .pressNop e => Sys2Proof.Machine.execPressNop e s
  | .pressFill e chunks => Sys2Proof.Machine.execPressFill e chunks s
  | .pressCopy e chunks => Sys2Proof.Machine.execPressCopy e chunks s
  | .pressBlend e chunks => Sys2Proof.Machine.execPressBlend e chunks s
  | .pressConvert e chunks => Sys2Proof.Machine.execPressConvert e chunks s
  | .pressExpand e chunks => Sys2Proof.Machine.execPressExpand e chunks s
  | .pressRotate e chunks => Sys2Proof.Machine.execPressRotate e chunks s
  | .pressEntryDone e => Sys2Proof.Machine.execPressEntryDone e s
  | .pressTimeout e write chunks requests => Sys2Proof.Machine.execPressTimeout e write chunks requests s
  | .pressAbort e => Sys2Proof.Machine.execPressAbort e s
  | .dmaStart who n hi lo => Sys2Proof.Machine.execDmaStart who n hi lo s
  | .dmaDescFetched n host => Sys2Proof.Machine.execDmaDescFetched n host s
  | .dmaGateOpen n => Sys2Proof.Machine.execDmaGateOpen n s
  | .dmaDescDone n host => Sys2Proof.Machine.execDmaDescDone n host s
  | .dmaTimeout n write beats host => Sys2Proof.Machine.execDmaTimeout n write beats host s
  | .dmaStop n => Sys2Proof.Machine.execDmaStop n s
  | .dmaDeadline n => Sys2Proof.Machine.execDmaDeadline n s
  | .timerWrap n ticks => Sys2Proof.Machine.execTimerWrap n ticks s
  | .timerCompare n ticks => Sys2Proof.Machine.execTimerCompare n ticks s
  | .timerCapture n ticks => Sys2Proof.Machine.execTimerCapture n ticks s
  | .timerSlaveRestart n => Sys2Proof.Machine.execTimerSlaveRestart n s
  | .timerLineRestart n => Sys2Proof.Machine.execTimerLineRestart n s
  | .timerStart mask => Sys2Proof.Machine.execTimerStart mask s
  | .timerStop mask => Sys2Proof.Machine.execTimerStop mask s
  | .timerCountWrite n value => Sys2Proof.Machine.execTimerCountWrite n value s
  | .timerCmpWrite n value => Sys2Proof.Machine.execTimerCmpWrite n value s
  | .timerCountRead who n ticks => Sys2Proof.Machine.execTimerCountRead who n ticks s
  | .timerCaptureRead who n part => Sys2Proof.Machine.execTimerCaptureRead who n part s
  | .intcEnSet who g bits => Sys2Proof.Machine.execIntcEnSet who g bits s
  | .intcEnClr who g bits => Sys2Proof.Machine.execIntcEnClr who g bits s
  | .intcPendSet who g bits => Sys2Proof.Machine.execIntcPendSet who g bits s
  | .intcPendClr who g bits => Sys2Proof.Machine.execIntcPendClr who g bits s
  | .msixEnable table functionMask => Sys2Proof.Machine.execMsixEnable table functionMask s
  | .msixUnmask v => Sys2Proof.Machine.execMsixUnmask v s
  | .mbxDoorbell via m => Sys2Proof.Machine.execMbxDoorbell via m s
  | .nop m => Sys2Proof.Machine.execNop m s
  | .getInfo m => Sys2Proof.Machine.execGetInfo m s
  | .paramSet m => Sys2Proof.Machine.execParamSet m s
  | .paramGet m => Sys2Proof.Machine.execParamGet m s
  | .powerState m => Sys2Proof.Machine.execPowerState m s
  | .resetWarm m => Sys2Proof.Machine.execResetWarm m s
  | .resetBlock m => Sys2Proof.Machine.execResetBlock m s
  | .faultStatus m => Sys2Proof.Machine.execFaultStatus m s
  | .reinstate m => Sys2Proof.Machine.execReinstate m s
  | .selftestRun m => Sys2Proof.Machine.execSelftestRun m s
  | .selftestResults m => Sys2Proof.Machine.execSelftestResults m s
  | .logRead m => Sys2Proof.Machine.execLogRead m s
  | .updateBegin m => Sys2Proof.Machine.execUpdateBegin m s
  | .updateData m => Sys2Proof.Machine.execUpdateData m s
  | .updateFinish m => Sys2Proof.Machine.execUpdateFinish m s
  | .updateActivateTrial m => Sys2Proof.Machine.execUpdateActivateTrial m s
  | .updateActivateCommit m => Sys2Proof.Machine.execUpdateActivateCommit m s
  | .getCert m => Sys2Proof.Machine.execGetCert m s
  | .attest m => Sys2Proof.Machine.execAttest m s
  | .lifecycleChallenge m => Sys2Proof.Machine.execLifecycleChallenge m s
  | .keygen m => Sys2Proof.Machine.execKeygen m s
  | .certInstall m => Sys2Proof.Machine.execCertInstall m s
  | .lifecycleTransition m => Sys2Proof.Machine.execLifecycleTransition m s
  | .revokeKey m => Sys2Proof.Machine.execRevokeKey m s
  | .takeover m => Sys2Proof.Machine.execTakeover m s
  | .takeoverRelease m => Sys2Proof.Machine.execTakeoverRelease m s
  | .handback m => Sys2Proof.Machine.execHandback m s
  | .handbackTake => Sys2Proof.Machine.execHandbackTake s
  | .safeWrite m => Sys2Proof.Machine.execSafeWrite m s
  | .safeWriteAtReached m dot => Sys2Proof.Machine.execSafeWriteAtReached m dot s
  | .mbxHeadWrite m head ringErr => Sys2Proof.Machine.execMbxHeadWrite m head ringErr s
  | .mbxModTimeout m => Sys2Proof.Machine.execMbxModTimeout m s
  | .dpWindowWrite xspi data timeoutAt => Sys2Proof.Machine.execDpWindowWrite xspi data timeoutAt s
  | .dpWindowRead xspi len timeoutAt => Sys2Proof.Machine.execDpWindowRead xspi len timeoutAt s
  | .dpPrefetch len => Sys2Proof.Machine.execDpPrefetch len s
  | .dpPrefetchReady timeoutAt => Sys2Proof.Machine.execDpPrefetchReady timeoutAt s
  | .xspiRead addr len => Sys2Proof.Machine.execXspiRead addr len s
  | .xspiWrite addr data => Sys2Proof.Machine.execXspiWrite addr data s
  | .hostTimeout => Sys2Proof.Machine.execHostTimeout s
  | .cellarWdtExpire => Sys2Proof.Machine.execCellarWdtExpire s
  | .romBoot => Sys2Proof.Machine.execRomBoot s
  | .sensorRead readings => Sys2Proof.Machine.execSensorRead readings s
  | .voltageSample v mv => Sys2Proof.Machine.execVoltageSample v mv s
  | .clockMonitorChange mon ok => Sys2Proof.Machine.execClockMonitorChange mon ok s
  | .logFlush => Sys2Proof.Machine.execLogFlush s
  | .bootToView => Sys2Proof.Machine.execBootToView s
  | .canFrameRx n ide id rx => Sys2Proof.Machine.execCanFrameRx n ide id rx s
  | .signalTimeout e => Sys2Proof.Machine.execSignalTimeout e s
  | .canBusoff n tec rec => Sys2Proof.Machine.execCanBusoff n tec rec s
  | .canBusoffRecovery n => Sys2Proof.Machine.execCanBusoffRecovery n s
  | .telltaleWrite p => Sys2Proof.Machine.execTelltaleWrite p s
  | .chimePreempt k => Sys2Proof.Machine.execChimePreempt k s
  | .telltaleBlink t => Sys2Proof.Machine.execTelltaleBlink t s
  | .bulbCheckEnd t => Sys2Proof.Machine.execBulbCheckEnd t s
  | .linkUp l pass c0 => Sys2Proof.Machine.execLinkUp l pass c0 s
  | .linkDown l => Sys2Proof.Machine.execLinkDown l s
  | .linkRetrain l failed => Sys2Proof.Machine.execLinkRetrain l failed s
  | .chainDiscovery chain conflict => Sys2Proof.Machine.execChainDiscovery chain conflict s
  | .flitLaunch l dot frac => Sys2Proof.Machine.execFlitLaunch l dot frac s
  | .timingFlitRx l h t dot frac => Sys2Proof.Machine.execTimingFlitRx l h t dot frac s
  | .lineFlitRx l h n part fs fe format data dot => Sys2Proof.Machine.execLineFlitRx l h n part fs fe format data dot s
  | .msgFlitRx l h m host => Sys2Proof.Machine.execMsgFlitRx l h m host s
  | .audioFlitRx l h count samples same => Sys2Proof.Machine.execAudioFlitRx l h count samples same s
  | .intrFlitRx l h src ack => Sys2Proof.Machine.execIntrFlitRx l h src ack s
  | .idleFlitRx l h => Sys2Proof.Machine.execIdleFlitRx l h s
  | .cascTimeStep => Sys2Proof.Machine.execCascTimeStep s
  | .cascHoldover => Sys2Proof.Machine.execCascHoldover s
  | .tunnelTimeout id => Sys2Proof.Machine.execTunnelTimeout id s
  | .cascPeerIrqFifoRead who => Sys2Proof.Machine.execCascPeerIrqFifoRead who s
  | .pwrReqRise => Sys2Proof.Machine.execPwrReqRise s
  | .powerReturnDone => Sys2Proof.Machine.execPowerReturnDone s
  | .pwrGoodRise bankA bankB => Sys2Proof.Machine.execPwrGoodRise bankA bankB s
  | .thermalTrip => Sys2Proof.Machine.execThermalTrip s
  | .por role xspi pwrGood => Sys2Proof.Machine.execPor role xspi pwrGood s
  | .pinReset role xspi => Sys2Proof.Machine.execPinReset role xspi s
  | .hostReset linkDown => Sys2Proof.Machine.execHostReset linkDown s
  | .flr => Sys2Proof.Machine.execFlr s
  | .warmReset => Sys2Proof.Machine.execWarmReset s
  | .wdtReset => Sys2Proof.Machine.execWdtReset s
  | .retryDone id ok => Sys2Proof.Machine.execRetryDone id ok s
  | .suspectExpire id => Sys2Proof.Machine.execSuspectExpire id s
  | .selftestComplete elapsedMs last finds => Sys2Proof.Machine.execSelftestComplete elapsedMs last finds s
  | .repairMapWrite => Sys2Proof.Machine.execRepairMapWrite s
  | .testSessionOpen => Sys2Proof.Machine.execTestSessionOpen s
  | .testSessionClose => Sys2Proof.Machine.execTestSessionClose s
  | .pinFunctionSwitch pin => Sys2Proof.Machine.execPinFunctionSwitch pin s
  | .pinFilterChange pin level accept suppressed => Sys2Proof.Machine.execPinFilterChange pin level accept suppressed s
  | .pinDebounceEnd pin level suppressed => Sys2Proof.Machine.execPinDebounceEnd pin level suppressed s
  | .pinFlagClr who hi bits => Sys2Proof.Machine.execPinFlagClr who hi bits s
  | .pinDoutSet who hi bits => Sys2Proof.Machine.execPinDoutSet who hi bits s
  | .pinDoutClr who hi bits => Sys2Proof.Machine.execPinDoutClr who hi bits s
  | .audSampleEdge d rx low starved => Sys2Proof.Machine.execAudSampleEdge d rx low starved s
  | .csiPhySyncAcquired port => Sys2Proof.Machine.execCsiPhySyncAcquired port s
  | .tdmPortSyncAcquired p => Sys2Proof.Machine.execTdmPortSyncAcquired p s
  | .lp5xPeriodicRetraining c ok => Sys2Proof.Machine.execLp5xPeriodicRetraining c ok s
  | .msixDisable => Sys2Proof.Machine.execMsixDisable s
  | .busMasterEnableWrite en ringErr => Sys2Proof.Machine.execBusMasterEnableWrite en ringErr s
  | .pcieLinkUp pmeEn => Sys2Proof.Machine.execPcieLinkUp pmeEn s
  | .pmeTurnOff => Sys2Proof.Machine.execPmeTurnOff s
  | .takeoverTimeout => Sys2Proof.Machine.execTakeoverTimeout s

end Sys2Proof.Machine
end

