-- ==== Sys2Proof/Machine/Step.lean ====
section
/-! DEFINITION. One step: the command at the front of the queue is carried out; on an empty queue the block idles (assumption 42). -/

namespace Sys2Proof.Machine

/-- The front command runs on the state with the queue's rest. -/
def step (s : State) : Host.Outcome State Fault Refusal :=
  match s.pending with
  | [] => .next s
  | c :: rest => exec c { s with pending := rest }

/-- A command put at the front of the queue. -/
def State.push (s : State) (c : Instr) : State := { s with pending := c :: s.pending }

/-- The command that a table word spells put at the front of the queue; no row gives bits, so none is spelt. -/
def State.withFetchWord (s : State) (nbits w : Nat) : State :=
  match decodeTableWord nbits w with
  | some c => s.push c
  | none => s

end Sys2Proof.Machine
end

