-- ==== Sys2Proof/Safety.lean ====
section
/-! DEFINITION. What counts as a sound state: every sparse store in its canonical form, so that each piece of state has one home and
one way of being written down. And the words the statements use: a command that completes, and what it leaves alone. -/

namespace Sys2Proof.Machine

/-- A sparse store is canonical for the unlisted values that `d` gives: keys rise strictly. -/
structure State.Canonical (s : State) : Prop where
  cells : Sparse.Rising s.cells
  latched : Sparse.Rising s.latched
  snap : Sparse.Rising s.snap
  params : Sparse.Rising s.params
  mem : Memory.wf 0#8 s.mem
  vat : Memory.wf 0#8 s.vat.data
  flash : Memory.wf 0xFF#8 s.cellar.flash

/-- The command `c` completes at `s`: `exec` answers a next state, and `P` holds of it. -/
def Leads (c : Instr) (s : State) (P : State → Prop) : Prop := ∃ t, exec c s = .next t ∧ P t

/-- Of the register fields, at most those in `fs` differ from `s` in `t`. -/
def WroteOnly (fs : List Fld) (s t : State) : Prop := ∀ g : Fld, (∀ f ∈ fs, g.key ≠ f.key) → t.rd g = s.rd g

/-- The key of a field that a delivery decision writes: a pending word, the asserted vectors, the INT_N pins, or a core's line (R411). -/
def deliveryKey (k : Nat) : Bool :=
  let o := k % 2 ^ 30 / 64
  (0x100000 ≤ o && o < 0x100100 && o % 16 == 8) || (0x100200 ≤ o && o < 0x100340)

/-- The key of a field that reporting an event to the host writes: a delivery field, a mailbox register, a log counter, or the wake request
(R402, R431 to R435, R471). -/
def reportKey (k : Nat) : Bool :=
  let o := k % 2 ^ 30 / 64
  deliveryKey k || (0x2000 ≤ o && o < 0x2200) || (0x80018 ≤ o && o < 0x80024) || k == F.pwrStatus_WAKE_REQ.key

/-- Of the register fields outside the reporting of events, at most those in `fs` differ from `s` in `t`. -/
def ReportedOnly (fs : List Fld) (s t : State) : Prop :=
  ∀ g : Fld, reportKey g.key = false → (∀ f ∈ fs, g.key ≠ f.key) → t.rd g = s.rd g

/-- Of the register fields outside the delivery of interrupts, at most those in `fs` differ from `s` in `t`. -/
def RaisedOnly (fs : List Fld) (s t : State) : Prop :=
  ∀ g : Fld, deliveryKey g.key = false → (∀ f ∈ fs, g.key ≠ f.key) → t.rd g = s.rd g

/-- Beside the register fields, `t` differs from `s` in nothing. -/
def RegsOnly (s t : State) : Prop := t = { s with cells := t.cells }

/-- Beside the register fields, `t` differs from `s` in what an interrupt's delivery changes: the INTC's own state, the messages to the
host, and the interrupts waiting for the peer. -/
def DeliveryOnly (s t : State) : Prop :=
  t = { s with cells := t.cells, intc := t.intc, hif := { s.hif with out := t.hif.out },
               casc := { s.casc with intrOut := t.casc.intrOut } }

/-- At most the register fields in `fs` change, and nothing beside the registers. -/
def Only (fs : List Fld) (s t : State) : Prop := WroteOnly fs s t ∧ RegsOnly s t

/-- A counter field counts one event and saturates (R20). -/
def Counted (f : Fld) (s t : State) : Prop := t.rd f = min (s.rd f + 1) (2 ^ f.width - 1)

/-- Source `n` is pending after its event, where it is not one that goes to the peer (R402, R410). -/
def Pends (n : Nat) (s t : State) : Prop := t.isPending n = true ∨ s.rd (F.intcTgt_DEST n) = 3

/-- A fault unit in service of which the manager holds nothing (R557 to R559). -/
def Fresh (id : Nat) (s : State) : Prop :=
  s.unitState id = 0 ∧ s.trimmedUnit id = false ∧ s.stopped = false ∧ (s.fltUnit id).upsets = [] ∧ (s.fltUnit id).attempts = [] ∧
    (s.fltUnit id).retrying = false

/-- A fresh unit after its first upset: SUSPECT, counted, and in its first attempt (R558, R559). -/
def Suspected (id : Nat) (s t : State) : Prop :=
  t.unitState id = 1 ∧ Counted (F.fltU_TOTAL (id / 256) (id % 256)) s t ∧ t.rd (F.fltU_COUNT60 (id / 256) (id % 256)) = 1 ∧
    t.rd (F.fltU_ATTEMPTS (id / 256) (id % 256)) = 1 ∧ (t.fltUnit id).retrying = true ∧ Pends 490 s t

/-- Core `k` stands at a bundle boundary and can issue: it runs, holds nothing, is not to stop, has no M operation in flight and no
active loop, and its PC lies in program memory. -/
def Ready (k : Nat) (s : State) : Prop :=
  s.cores.length = 13 ∧ (s.core k).live = true ∧ (k = 12 ∨ s.stopped = false) ∧ (s.core k).bundle = [] ∧ (s.core k).hold = .none ∧
    (s.core k).stopDue = .none ∧ (s.core k).regs.lact = false ∧ (s.core k).regs.pc.toNat < progSize k ∧ (s.core k).mpipe = []

/-- A bundle of core `k` ran: its registers are `r` at `pc`, `cost` cycles later, and nothing else changed but its status register. -/
def Ran (k : Nat) (s t : State) (r : CoreRegs) (pc : BitVec 16) (cost : BitVec 48) : Prop :=
  t.core k = { s.core k with waited := false, regs := { r with pc := pc, cycle := r.cycle + cost } } ∧ (∀ j, j ≠ k → t.core j = s.core j) ∧
    t = { s with cells := t.cells, cores := t.cores } ∧
    WroteOnly [F.seqStatus_STATE k, F.seqStatus_PC k, F.audCoreStatus_STATE (k - 8), F.audCoreStatus_PC (k - 8)] s t

/-- A bundle of core `k` took the precise trap `code` at its own address, with nothing of it done (R264, R278, R279): EPC, CAUSE and
ESTATUS are saved, interrupts masked, and the handler entered. Nothing states EADDR and SPACE of a trap without a failing access. -/
def Trapped (k : Nat) (code : BitVec 5) (s t : State) : Prop :=
  t.core k = { s.core k with bundle := [], hold := .none, waited := false, regs := { (s.core k).regs with
    epc := (s.core k).regs.pc, code := code, imprecise := false, space := (t.core k).regs.space, eaddr := (t.core k).regs.eaddr,
    estatus := BitVec.ofNat 4 (s.core k).regs.status, ie := false, exl := true, lact := false, pc := (s.core k).regs.vbase,
    cycle := (s.core k).regs.cycle + 6 } } ∧ (∀ j, j ≠ k → t.core j = s.core j) ∧ t.mem = s.mem

/-- A completion of mailbox `m` can be written at once into its DEVICE ring, with room to spare (R431, R433). -/
def RingReady (m : Nat) (s : State) : Prop :=
  s.hif.held = [] ∧ s.hif.ringPend = [] ∧ s.asleep = false ∧ s.unconsumed m < 200 ∧ s.prm (P.ringLoc m) = 0

/-- The request `r` of mailbox `m`, of opcode `op`, is the only one that waits, and the firmware serves it in this state. -/
def Asked (m op : Nat) (r : Rung) (s : State) : Prop :=
  s.hif.rung = [r] ∧ r.mbx = m ∧ r.copy = none ∧ r.discard = false ∧ s.serves = true ∧ s.reqOpcode m = op ∧ s.refuses op = none ∧
    s.reqLen m ≤ 4080 ∧ RingReady m s

/-- Mailbox `m` is DONE, with a response in its response area (R421, R423). -/
def Answered (m op status detail : Nat) (payload : List Byte) (s t : State) : Prop :=
  t.rd (F.mbxStatus_STATE m) = 2 ∧ t.bytesAt (respArea m) (16 + payload.length) =
    natLE 4 (status + op * 65536) ++ natLE 4 (s.req m 4 4) ++ natLE 4 payload.length ++ natLE 4 detail ++ payload

end Sys2Proof.Machine
end

