-- ==== Sys2Proof/Certificates/Slice0/Obligations.lean ====
section
/-! DEFINITION. The statements about the block, from the numbered rules of spec/. `Leads c s P` says that `exec` answers a next state for
the command `c` at `s`, and that `P` holds of it; so each clause says where its command completes, what it leaves, and what it leaves
alone. -/

section

open Sys2Proof Sys2Proof.Machine

/-! ### The machine -/

/-- A step carries out the command at the front of the queue, on the state with the queue's rest; on an empty queue the block idles (the
model's choice, log entry 42), and every step answers a next state. No row of the opcode table has bits, so no word spells a command
(log entry 47). -/
def Obligations.StepRunsCommand : Prop :=
  (∀ (s : State) (c : Instr) (rest : List Instr), s.pending = c :: rest → step s = exec c { s with pending := rest }) ∧
  (∀ s : State, s.pending = [] → step s = .next s) ∧
  (∀ (s : State) (c : Instr) (rest : List Instr), s.pending = c :: rest → ∃ t, step s = .next t) ∧
  (∀ (s : State) (nbits w : Nat), decodeTableWord nbits w = none ∧ s.withFetchWord nbits w = s)

/-- Every command of the opcode table completes in every state: exec answers a next state, whatever the command's operands. What it
leaves is said by the statements on its family. A bus error, a dropped write and a request turned away are effects of their own (R26,
R31, R425). -/
def Obligations.EveryCommandCompletes : Prop :=
   ∀ (c : Instr) (s : State), ∃ t, exec c s = .next t

/-- After reset every register field reads its reset value (R16), but for REF_STATUS.STATE, which reads 1: the synthesiser locks (R47);
every parameter has its default (R18), every core is cleared (R254), no key is latched, and no command waits. What a byte of memory that
nothing has written reads as is the model's choice (log entry 44). -/
def Obligations.ResetState : Prop :=
  (∀ f : Fld, f.key ≠ F.refStatus_STATE.key → State.reset.rd f = f.reset % 2 ^ f.width) ∧ State.reset.rd F.refStatus_STATE = 1 ∧
  (∀ f : Fld, State.reset.lat f = f.reset % 2 ^ f.width ∧ State.reset.snp f = f.reset % 2 ^ f.width) ∧
  (∀ p : Prm, State.reset.prm p = p.default) ∧ (∀ k, k < 13 → State.reset.core k = core0 k) ∧ (∀ a, State.reset.byteAt a = 0) ∧
  State.reset.pending = []

/-- The state after reset has every sparse store in its canonical form: no key twice, none listed with the value that an unlisted key
reads as. The form is the model's own (log entry 44). -/
def Obligations.ResetCanonical : Prop :=
   State.reset.Canonical

/-- Every step keeps every sparse store in its canonical form, whatever the command at the front of the queue: registers, latched
values, parameters, memory, the Vat's contents and the flash. The form is the model's own (log entry 44). -/
def Obligations.StepKeepsCanonical : Prop :=
  ∀ s t : State, s.Canonical → step s = .next t → t.Canonical

/-- The one-time fuses (R456 to R462): only the five commands that blow fuses change them, and then only as a fuse can change. The
serial number, the keys and the life-cycle key stay; the anti-rollback count never falls; a revoked key stays revoked, a disabled unit
key stays disabled; a unit key and a certificate are installed once; the life cycle moves along R461's transitions alone. -/
def Obligations.FusesOnlyBlow : Prop :=
  ∀ (c : Instr) (s t : State), s.cellar.fuses.arb ≤ 128 → exec c s = .next t →
    let f := s.cellar.fuses
    let g := t.cellar.fuses
    ((∀ m, c ≠ .updateActivateCommit m ∧ c ≠ .keygen m ∧ c ≠ .certInstall m ∧ c ≠ .lifecycleTransition m ∧ c ≠ .revokeKey m) → g = f) ∧
    g.serial = f.serial ∧ g.keyHash = f.keyHash ∧ g.lifecycleKey = f.lifecycleKey ∧ f.arb ≤ g.arb ∧ g.arb ≤ 128 ∧
    (∀ k, f.revoked.getD k false = true → g.revoked.getD k false = true) ∧ (f.keyDisabled = true → g.keyDisabled = true) ∧
    (f.unitKey ≠ none → g.unitKey = f.unitKey) ∧ (f.certDigest ≠ none → g.certDigest = f.certDigest) ∧
    (g.lifecycle = f.lifecycle ∨ transition f.lifecycle g.lifecycle ≠ none)

/-! ### The reference raster (R44 to R66) -/

/-- REF_CTL.APPLY makes a new setting wait (R47), and the synthesiser's lock starts the beam at 0.0000.0000 with the setting in the
registers in force (R49, R55). Losing the 25 MHz input puts the reference into holdover, raises REF_LOST and leaves the beam running
where it is; its return ends the holdover and raises REF_OK (R64, R66). Locked or in holdover alike, line and frame starts advance
BEAM_NOW, which the Cellar reads with BEAM_EPOCH (R46, R54, R55). The commands that complete in it: refCtlApply, refSynLock,
refLineStart, refFrameStart, beamNowRead, beamEpochRead, refLost, refRestored. -/
def Obligations.ReferenceSettings : Prop :=
  (∀ s : State, s.Canonical →
    Leads .refCtlApply s (fun t => t.rd F.refCtl_APPLY = 1 ∧ t.rd F.refStatus_RECONFIG_PEND = 1 ∧
      Only [F.refCtl_APPLY, F.refStatus_RECONFIG_PEND] s t) ∧
    (s.rd F.refStatus_STATE = 1 → s.fault.tripHold = false → Leads .refSynLock s fun t =>
      t.rd F.refStatus_STATE = 2 ∧ t.rd F.refStatus_REF_IN_OK = 1 ∧ t.now = 0 ∧ t.rd F.beamEpoch_EPOCH = 0 ∧
      t.ref = { s.ref with setting := s.refRegs } ∧
      t = { s with cells := t.cells, ref := t.ref, casc := { s.casc with fresh := true } } ∧
      WroteOnly [F.refStatus_STATE, F.refStatus_REF_IN_OK, F.beamNow_FRAME, F.beamNow_LINE, F.beamNow_DOT, F.beamEpoch_EPOCH] s t)) ∧
  (∀ (s : State) (mw : List Nat) (dot : Nat), s.Canonical →
    let line := s.rd F.beamNow_LINE
    let runs := (s.rd F.refStatus_STATE = 2 ∨ s.rd F.refStatus_STATE = 3) ∧ s.rd F.pwrStatus_STATE < 3
    (runs → line + 1 < s.ref.setting.lines → Leads .refLineStart s fun t =>
      t.rd F.beamNow_LINE = (line + 1) % 65536 ∧ t.rd F.beamNow_FRAME = s.rd F.beamNow_FRAME) ∧
    (runs → s.ref.setting.lines ≤ line + 1 → Leads (.refFrameStart mw) s fun t =>
      t.rd F.beamNow_LINE = 0 ∧ t.rd F.beamNow_FRAME = (s.rd F.beamNow_FRAME + 1) % 65536) ∧
    (Leads (.beamNowRead .cellar .whole dot) s fun t => t.lastRead = (s.atDot dot).now ∧ t.mem = s.mem) ∧
    (s.ref.shadows = [] → Leads (.beamEpochRead .cellar) s fun t => t.lastRead = s.rd F.beamEpoch_EPOCH ∧ t.cells = s.cells) ∧
    (s.rd F.refStatus_STATE = 2 → s.fault.tripHold = false → Leads .refLost s fun t =>
      t.rd F.refStatus_STATE = 3 ∧ t.rd F.refStatus_REF_IN_OK = 0 ∧ Pends 480 s t ∧ t.now = s.now ∧ t.ref = s.ref) ∧
    (s.rd F.refStatus_STATE = 3 → Leads .refRestored s fun t =>
      t.rd F.refStatus_STATE = 2 ∧ t.rd F.refStatus_REF_IN_OK = 1 ∧ Pends 481 s t ∧ t.now = s.now ∧ t.ref = s.ref))

/-- A line start of the reference moves the beam to the next line of its frame, and a frame start to line 0 of the next frame, where a
setting that waits, its own or one that the master applies at a stamp now reached, comes into force and the wrap of FRAME counts in
BEAM_EPOCH (R6, R46, R47, R55, R516). Neither happens while the beam stands. By one that reaches the registers, a 64-bit read of
BEAM_NOW returns the stamp of the moment; a 32-bit read of the low word returns line and dot and keeps the frame and the epoch for the
same initiator, whose next reads of the high word and of BEAM_EPOCH return them (R54, R55). The read of another is a decode error that
returns all ones (R26, R29). The commands that complete in it: refLineStart, refFrameStart, beamNowRead, beamEpochRead. -/
def Obligations.BeamCounter : Prop :=
  (∀ (s : State) (mw : List Nat), s.Canonical →
    let line := s.rd F.beamNow_LINE
    let frame := s.rd F.beamNow_FRAME
    let own := if s.rd F.refStatus_RECONFIG_PEND = 0 then none else some s.refRegs
    let due := s.casc.geom.elim own fun g => if reached g.2 (stampOf ((frame + 1) % 65536) 0 0) = true then some g.1 else none
    (s.beamRuns = false → Leads .refLineStart s (· = s) ∧ Leads (.refFrameStart mw) s (· = s)) ∧
    (s.beamRuns = true → line + 1 < s.ref.setting.lines → Leads .refLineStart s fun t =>
      t.rd F.beamNow_LINE = (line + 1) % 65536 ∧ t.rd F.beamNow_DOT = 0 ∧ t.rd F.beamNow_FRAME = frame ∧
      t.rd F.beamEpoch_EPOCH = s.rd F.beamEpoch_EPOCH ∧ t.ref = s.ref ∧ t.mem = s.mem ∧ t.vat = s.vat ∧ t.params = s.params) ∧
    (s.beamRuns = true → s.ref.setting.lines ≤ line + 1 → Leads (.refFrameStart mw) s fun t =>
      t.rd F.beamNow_FRAME = (frame + 1) % 65536 ∧ t.rd F.beamNow_LINE = 0 ∧ t.rd F.beamNow_DOT = 0 ∧
      t.rd F.beamEpoch_EPOCH = (if (frame + 1) % 65536 = 0 then min (s.rd F.beamEpoch_EPOCH + 1) (2 ^ F.beamEpoch_EPOCH.width - 1)
        else s.rd F.beamEpoch_EPOCH) ∧
      t.ref.setting = due.getD s.ref.setting ∧
      (due ≠ none → t.rd F.refStatus_RECONFIG_PEND = 0 ∧ t.casc.geom = none ∧ Pends 482 s t) ∧
      t.mem = s.mem ∧ t.params = s.params ∧ t.vat.data = s.vat.data)) ∧
  (∀ (s : State) (who : Initiator) (dot : Nat), s.Canonical →
    let at_ := s.atDot dot
    let tag := initiatorTag who
    let kept (off : Nat) : Option Shadow := s.ref.shadows.find? fun x => x.tag == tag && x.off == off
    let reads (v : Nat) (t : State) : Prop := t.lastRead = v ∧ WroteOnly [F.beamNow_DOT] s t ∧
      t = { s with cells := t.cells, ref := { s.ref with shadows := t.ref.shadows }, lastRead := t.lastRead }
    let refused (t : State) : Prop := t.lastRead = 0xFFFFFFFF ∧ Counted F.hifDecodeErr_COUNT s t ∧ Pends 16 s t
    (reaches who .irs = true → Leads (.beamNowRead who .whole dot) s fun t => reads at_.now t ∧ ⟨tag, beamEpochOff, s.rd F.beamEpoch_EPOCH⟩ ∈ t.ref.shadows) ∧
    (reaches who .irs = true → Leads (.beamNowRead who .low dot) s fun t => reads (at_.now % 2 ^ 32) t ∧
      ⟨tag, beamNowOff, at_.now / 2 ^ 32⟩ ∈ t.ref.shadows ∧ ⟨tag, beamEpochOff, s.rd F.beamEpoch_EPOCH⟩ ∈ t.ref.shadows) ∧
    (reaches who .irs = true → Leads (.beamNowRead who .high dot) s (reads ((kept beamNowOff).elim (at_.now / 2 ^ 32) (·.value)))) ∧
    (reaches who .irs = true → Leads (.beamEpochRead who) s (reads ((kept beamEpochOff).elim (s.rd F.beamEpoch_EPOCH) (·.value)))) ∧
    (reaches who .irs = false → Leads (.beamNowRead who .whole dot) s refused ∧ Leads (.beamNowRead who .low dot) s refused ∧
      Leads (.beamNowRead who .high dot) s refused ∧ Leads (.beamEpochRead who) s refused))

/-! ### The Vat (R71 to R99) -/

/-- An initialisation takes a new odd multiplier and W from its parameter, leaves the RETIRED banks out of the hash, fills the banks in
ON with zeros and voids those in RETENTION; its end makes the Vat READY with the counters of each bank at zero (R73, R76). The commands
that complete in it: vatReinit, vatInitDone. -/
def Obligations.VatInitialises : Prop :=
  ∀ s : State, s.Canonical →
    (s.scanning = false → Leads .vatReinit s fun t =>
      t.rd F.vatStatus_STATE = 1 ∧ t.rd F.vatCtl_INIT = 1 ∧ t.rd F.vatStatus_KEY_ID = (s.rd F.vatStatus_KEY_ID + 1) % 2 ^ F.vatStatus_KEY_ID.width ∧
      t.vat.data = [] ∧ t.vat.poison = [] ∧ t.vat.ka % 2 = 1 ∧ t.vat.groupLog2 = min 6 (s.rd F.vatCtl_GROUP_LOG2) ∧
      (∀ k : Fin 64,
        t.rd (F.vatBankStatus_IN_HASH k.val) = (if s.rd (F.vatBankStatus_HEALTH k.val) = 2 then 0 else 1) ∧
        t.rd (F.vatBankStatus_PWR k.val) = s.rd (F.vatBankStatus_PWR k.val) ∧
        t.rd (F.vatBankStatus_HEALTH k.val) = s.rd (F.vatBankStatus_HEALTH k.val) ∧
        (s.rd (F.vatBankStatus_PWR k.val) = 0 → t.rd (F.vatBankStatus_FILLING k.val) = 1) ∧
        (s.rd (F.vatBankStatus_PWR k.val) = 1 → t.rd (F.vatBankStatus_RET_VOID k.val) = 1)) ∧
      t = { s with cells := t.cells, vat := t.vat, freeCount := s.freeCount + 1 }) ∧
    (s.rd F.vatStatus_STATE = 1 → Leads .vatInitDone s fun t =>
      t.rd F.vatStatus_STATE = 2 ∧ t.rd F.vatCtl_INIT = 0 ∧ t.vat.data = s.vat.data ∧ Pends 448 s t ∧ t.rd F.vatBgtPos_PASSES = 0 ∧
      t.rd F.vatErrLast_VALID = 0 ∧ t.rd F.rindC0Worst_CCLK = 0 ∧
      ∀ k : Fin 64, (s.rd (F.vatBankStatus_PWR k.val) = 0 → t.rd (F.vatBankStatus_FILLING k.val) = 0) ∧ t.rd (F.vatBankErr_CE k.val) = 0 ∧ t.rd (F.vatBankErr_UE k.val) = 0 ∧
        t.rd (F.vatBankErr_PAR k.val) = 0 ∧ t.rd (F.vatBankErr_PARKED k.val) = 0 ∧ t.rd (F.vatBankConflict_COUNT k.val) = 0 ∧
        t.rd (F.vatBankC0max_WAIT k.val) = 0)

/-- An access to a line whose bank serves, by one that reaches it, with no error and no poison: a read returns the bytes of its row, a
write with byte enables replaces the enabled bytes, the set alias ORs and the clear alias clears bits; no other byte of the Vat changes
(R71, R72, R87, R94, R95). One that does not reach the window meets a decode error (R26, R29). The commands that complete in it:
vatAccess, vatSetAliasWrite, vatClearAliasWrite. -/
def Obligations.VatServes : Prop :=
  ∀ (s : State) (who : Initiator) (line : Fin 0x400000) (i : Fin 64) (bytes : List (Option Byte)) (data : List Byte) (wait conflict : Nat)
    (k : Fin 64) (row : Nat), s.Canonical → s.vatLoc (line.val * 64) = some (k.val, row) → s.bankServes k.val = true →
    (∀ w, w < 4 → s.poisoned (eccWord (physAddr k.val row (16 * w))) = false) →
    let byte (u : State) (a : Nat) : Byte := Sparse.get a 0#8 u.vat.data
    let off : Fin 0x10000000 := ⟨line.val * 64 + i.val, by omega⟩
    let puts (new : Nat → Option Byte) (combine : Byte → Byte → Byte) (t : State) : Prop :=
      t.vat.respError = false ∧ t.mem = s.mem ∧ t.vat.poison = s.vat.poison ∧ ∀ a, byte t a =
        (if physAddr k.val row 0 ≤ a ∧ a < physAddr k.val row 64 then
          (new (a - physAddr k.val row 0)).elim (byte s a) (combine (byte s a)) else byte s a)
    let refused (t : State) : Prop := t.vat.respError = true ∧ t.vat.data = s.vat.data ∧ Counted F.hifDecodeErr_COUNT s t ∧ Pends 16 s t
    (reaches who .vat = false → Leads (.vatAccess who line .read .none wait conflict) s refused ∧
      Leads (.vatAccess who line (.write bytes) .none wait conflict) s refused) ∧
    (reaches who .setAlias = false → Leads (.vatSetAliasWrite who off data .none) s refused) ∧
    (reaches who .clearAlias = false → Leads (.vatClearAliasWrite who off data .none) s refused) ∧
    (reaches who .vat = true → Leads (.vatAccess who line .read .none wait conflict) s fun t =>
      t.vat.respError = false ∧ t.vat.respData = (List.range 64).map (fun j => byte s (physAddr k.val row j)) ∧ t.vat.data = s.vat.data) ∧
    (reaches who .vat = true → s.lockedAgainst who (line.val * 64) = false →
      Leads (.vatAccess who line (.write bytes) .none wait conflict) s (puts (fun j => bytes.getD j none) fun _ b => b)) ∧
    (reaches who .setAlias = true → reaches who .clearAlias = true → s.lockedAgainst who off.val = false →
      let new (j : Nat) : Option Byte := if i.val ≤ j then data[j - i.val]? else none
      Leads (.vatSetAliasWrite who off data .none) s (puts new (· ||| ·)) ∧
      Leads (.vatClearAliasWrite who off data .none) s (puts new fun a b => a &&& ~~~b))

/-- Errors of the Vat. The scrubber leaves a good line as it is; an uncorrectable word that it meets is poisoned, counted, recorded and
raised; a corrected word is counted and waits for its write-back, which takes the oldest of its bank (R86, R88, R91). The full scrub of
a bank's retry ends with the bank HEALTHY where no burst came in it (R92). A read of a bank that does not serve returns ones, and is
counted (R83); a write into a locked window by another initiator is dropped and raised (R96). The commands that complete in it:
scrubLine, vatCeWriteback, vatBankScrubDone, vatAccess. -/
def Obligations.VatErrors : Prop :=
  ∀ (s : State) (k : Fin 64) (row : Fin 65536) (w : Fin 4) (older newer : List (Nat × Nat)) (v : Nat) (line : Fin 0x400000) (n : Fin 4)
    (bytes : List (Option Byte)), s.Canonical →
    let word := eccWord (physAddr k.val row.val (16 * w.val))
    (s.rd F.vatCtl_SCRUB_EN = 1 ∨ s.vat.scrubbing.contains k.val = true → s.bankServes k.val = true → s.poisoned word = false →
      Leads (.scrubLine k row .none) s (fun t => t = s) ∧
      Leads (.scrubLine k row (.uncorrectable w)) s (fun t =>
        t.poisoned word = true ∧ (∀ v, v ≠ word → t.poisoned v = s.poisoned v) ∧ t.vat.data = s.vat.data ∧
        Counted (F.vatBankErr_UE k.val) s t ∧
        t.rd F.vatErrLast_BANK = k.val ∧ t.rd F.vatErrLast_ROW = row.val ∧ t.rd F.vatErrLast_WORD = w.val ∧
        t.rd F.vatErrLast_PARITY = 0 ∧ t.rd F.vatErrLast_VALID = 1 ∧ Pends 449 s t) ∧
      Leads (.scrubLine k row (.corrected w)) s (fun t =>
        Counted (F.vatBankErr_CE k.val) s t ∧ t.vat.data = s.vat.data ∧
        t.vat.poison = s.vat.poison ∧ t.vat.ceQueue = s.vat.ceQueue ++ [(k.val, word)])) ∧
    (s.vat.ceQueue = older ++ (k.val, v) :: newer → (∀ c ∈ older, c.1 ≠ k.val) →
      Leads (.vatCeWriteback k) s fun t => t = { s with vat := { s.vat with ceQueue := older ++ newer } }) ∧
    (s.vat.scrubbing.contains k.val = true → s.vat.scrubBurst.contains k.val = false → Leads (.vatBankScrubDone k) s fun t =>
      t.vat.scrubbing.contains k.val = false ∧ t.vat.data = s.vat.data ∧
      (s.unitState (unitId 4 k.val) = 1 → t.unitState (unitId 4 k.val) = 0 ∧ t.rd (F.vatBankStatus_HEALTH k.val) = 0)) ∧
    (s.vatLoc (line.val * 64) = some (k.val, row.val) → s.bankServes k.val = false →
      Leads (.vatAccess (.press 0) line .read .none 0 0) s fun t =>
        t.vat.respError = true ∧ t.vat.respData = List.replicate 64 0xFF#8 ∧ t.vat.data = s.vat.data ∧
        Counted (F.vatBankErr_PARKED k.val) s t ∧ (s.vat.parkedSeen = false → Pends 454 s t)) ∧
    (s.vatLoc (line.val * 64) = some (k.val, row.val) → s.rd (F.vatLock_BASE n.val) * 65536 ≤ line.val * 64 →
      line.val * 64 < (s.rd (F.vatLock_BASE n.val) + s.rd (F.vatLock_SIZE n.val)) * 65536 →
      Leads (.vatAccess (.press 0) line (.write bytes) .none 0 0) s fun t =>
        t.vat.respError = true ∧ t.vat.data = s.vat.data ∧ t.vat.poison = s.vat.poison ∧ Pends 457 s t)

/-- A bank's power transition ends in its target: ON from OFF reads zeros and is raised, ON from RETENTION keeps its contents, OFF loses
them (R82, R85); the reservation of class 0 takes effect at the bank's wheel (R80). The transparent background test opens the region
that VAT_BGT_POS shows, and its close or its skip moves the position one region on, by bank and then by region, counting a pass at the
wrap; a skip is counted, and a region with a failing bit is counted and raised, with the last such bit recorded (R97 to R99). The
commands that complete in it: vatBankTransitionDone, vatC0ResApply, bgtRegionOpen, bgtRegionClose, bgtRegionSkip. -/
def Obligations.VatBanks : Prop :=
  (∀ (s : State) (k : Fin 64) (old target : Fin 3), s.Canonical →
    (s.vat.moving.find? fun m => m.1 == k.val) = some (k.val, old.val, target.val) →
    let holds (t : State) (a : Nat) : Byte := Sparse.get a 0#8 t.vat.data
    (s.vat.queued = [] → Leads (.vatBankTransitionDone k) s fun t =>
      t.rd (F.vatBankStatus_PWR k.val) = target.val ∧ (∀ m ∈ t.vat.moving, m.1 ≠ k.val) ∧
      (∀ a, a / 0x400000 ≠ k.val → holds t a = holds s a) ∧
      (old.val = 2 ∨ target.val = 2 → ∀ a, a / 0x400000 = k.val → holds t a = 0#8) ∧
      (old.val ≠ 2 → target.val ≠ 2 → s.rd (F.vatBankStatus_RET_VOID k.val) = 0 → t.vat.data = s.vat.data) ∧
      (target.val = 0 → t.rd (F.vatBankStatus_RET_VOID k.val) = 0 ∧ Pends 455 s t)) ∧
    Leads (.vatC0ResApply k) s (fun t => t = { s with vat := { s.vat with c0Res := t.vat.c0Res } } ∧
      ∀ j, t.vat.c0Res[j]? = if j = k.val then s.vat.c0Res[j]?.map (fun _ => min 4 (s.rd F.vatCtl_C0_RES)) else s.vat.c0Res[j]?)) ∧
  (∀ (s : State) (b : BgtRun) (fs : List BgtBit) (f : BgtBit), s.Canonical →
    let bank := s.rd F.vatBgtPos_BANK
    let region := s.rd F.vatBgtPos_REGION
    let moved (t : State) : Prop := t.vat.bgt = none ∧ t.rd F.vatBgtPos_PHASE = 0 ∧ t.vat.data = s.vat.data ∧
      (bank < 63 → t.rd F.vatBgtPos_BANK = bank + 1 ∧ t.rd F.vatBgtPos_REGION = region) ∧
      (bank = 63 → region < 1023 → t.rd F.vatBgtPos_BANK = 0 ∧ t.rd F.vatBgtPos_REGION = region + 1) ∧
      (bank = 63 → region = 1023 → t.rd F.vatBgtPos_BANK = 0 ∧ t.rd F.vatBgtPos_REGION = 0 ∧ Pends 459 s t ∧
        Counted F.vatBgtPos_PASSES s t)
    (s.rd F.vatCtl_BGT_EN = 1 → s.vat.bgt = none → bank < 64 → s.bankServes bank = true → Leads .bgtRegionOpen s fun t =>
      t.rd F.vatBgtPos_PHASE = 1 ∧ t.vat = { s.vat with bgt := some { bank := bank, region := region } } ∧
      t = { s with cells := t.cells, vat := t.vat } ∧ WroteOnly [F.vatBgtPos_PHASE] s t) ∧
    (s.vat.bgt = some b →
      Leads (.bgtRegionClose []) s moved ∧
      Leads .bgtRegionSkip s (fun t => moved t ∧ Counted F.vatBgtSkipped_COUNT s t) ∧
      (b.bank < 64 → b.region < 1024 → Leads (.bgtRegionClose (fs ++ [f])) s fun t => moved t ∧ Pends 458 s t ∧
        t.rd F.vatBgtFail_BANK = b.bank ∧ t.rd F.vatBgtFail_ROW = b.region * 64 + f.row.val ∧ t.rd F.vatBgtFail_WORD = f.word.val ∧
        t.rd F.vatBgtFail_BIT = f.bitNo.val ∧ t.rd F.vatBgtFail_VALID = 1 ∧
        Counted F.vatBgtFail_COUNT s t)))

/-! ### Planes and the Harp (R104 to R168) -/

/-- A line that a plane engine has fetched whole waits for its output line, with its pixels as `planeLine` computes them; one whose
fetch failed stops the engine for the frame and shows UNDERRUN, line 0 of a frame yet to start in that frame's flags; a raced engine
whose line has not landed goes on waiting (R132, R137, R143, R220). No other engine changes. The command that completes in it:
planeLineFetched. -/
def Obligations.PlaneLines : Prop :=
  ∀ (s : State) (n : Fin 32) (cclk l : Nat), s.Canonical → (s.plane n.val).fetch = some l →
    let p := s.planePipe n.val
    let line := planeLine p n.val l s
    let u := line.2.2
    (s.planeSel n.val = 2 → s.racedReady n.val l = false → Leads (.planeLineFetched n cclk) s (· = s)) ∧
    (s.planeSel n.val ≠ 2 ∨ s.racedReady n.val l = true → Leads (.planeLineFetched n cclk) s fun t =>
      (line.2.1 = false → t = { u with planes := u.planes.modify n.val fun r =>
        { r with fetch := none, ready := some ⟨l, u.snp (F.planeWin_DST_X n.val), line.1⟩, cost := max r.cost (min cclk 65535) } }) ∧
      (line.2.1 = true → (t.plane n.val).stopped = true ∧ (t.plane n.val).fetch = none ∧
        (∀ m : Fin 32, m ≠ n → t.plane m.val = u.plane m.val) ∧
        (u.ahead (u.planePipe n.val) l = false → t.rd (F.planeStatus_UNDERRUN n.val) = 1) ∧
        (u.ahead (u.planePipe n.val) l = true → bitAt (t.plane n.val).nxt 1 = true)))

/-- The write gates of the Harp (R148 to R150): an owner's word waits in the initiator's gate, and the last word publishes it with the
words gated for the same context; only fields of that context change. Another initiator's write is dropped. The Harp's work for a line
ends with the line in its buffer, transparent where no object is enabled, and its time in the frame's maximum (R156, R165); a staging
copy of one context writes it whole, and its end is stamped and raised (R164). The commands that complete in it: harpGateWrite,
harpObjPublish, harpAffPublish, harpScan, harpStageDone. -/
def Obligations.Harp : Prop :=
  (∀ (s : State) (who : Initiator) (i : Fin 4096) (set : Fin 1024) (w : Fin 7) (v : BitVec 32) (gated : List (Nat × Nat)), s.Canonical →
    let tag := initiatorTag who
    let off : BitVec 18 := BitVec.ofNat 18 (i.val * 32 + w.val * 4)
    let putsWord (t : State) (fs : List Fld) (x : Nat) : Prop := ∀ f ∈ fs, t.rd f = bitsAt x f.lsb f.width
    (s.shutOut who (0x500000 + off.toNat) = false → s.harpOwns tag (i.val / 64) = true → s.gateOf tag = none →
      Leads (.harpGateWrite who off false (v.setWidth 64)) s fun t => t = { s with harp := t.harp } ∧
        t.harp.pipes = s.harp.pipes ∧ t.gateOf tag = some ⟨tag, false, i.val, [(w.val, v.toNat)]⟩ ∧
        ∀ other, other ≠ tag → t.gateOf other = s.gateOf other) ∧
    (s.harpOwns tag (i.val / 64) = false → Leads (.harpGateWrite who off false (v.setWidth 64)) s fun t =>
      t.harp = s.harp ∧ ∀ f ∈ ctxFlds i.val w.val, t.rd f = s.rd f) ∧
    (s.shutOut who (harpOff false i.val 7) = false → s.harpOwns tag (i.val / 64) = true → s.gateOf tag = some ⟨tag, false, i.val, gated⟩ →
      (∀ x ∈ gated, x.1 < 7) → gated.Pairwise (fun a b => a.1 ≠ b.1) →
      Leads (.harpObjPublish who i v) s fun t => t.gateOf tag = none ∧ putsWord t (ctxFlds i.val 7) v.toNat ∧
        (∀ x ∈ gated, putsWord t (ctxFlds i.val x.1) x.2) ∧
        WroteOnly ((List.range 8).flatMap (ctxFlds i.val)) s t ∧ t = { s with cells := t.cells, harp := t.harp }) ∧
    (s.shutOut who (harpOff true set.val 3) = false → s.harpOwns tag (set.val / 16) = true → s.gateOf tag = some ⟨tag, true, set.val, gated⟩ →
      (∀ x ∈ gated, x.1 < 3) → gated.Pairwise (fun a b => a.1 ≠ b.1) →
      Leads (.harpAffPublish who set) s fun t => t.gateOf tag = none ∧ (∀ x ∈ gated, putsWord t (affFlds set.val x.1) x.2) ∧
        WroteOnly ((List.range 3).flatMap (affFlds set.val)) s t ∧ t = { s with cells := t.cells, harp := t.harp })) ∧
  (∀ (s : State) (p : Fin 8) (l wait : Nat) (avail : Option Nat) (addr first : Nat) (d : List Byte) (u : State), s.Canonical →
    ((s.harpRun p.val).work = some l → (l = 0 → (s.harpRun p.val).stage = none) → (s.harpRun p.val).caps = [] →
      (∀ i : Fin 4096, s.rd (F.harpObjCtl_EN i.val) = 0) → Leads (.harpScan p wait avail) s fun t =>
        t = { s with harp := { s.harp with pipes := s.harp.pipes.modify p.val fun r =>
          { r with work := none, ready := some ⟨l, 0, List.replicate (s.hactive p.val) Px.clear⟩,
                   cyc := if l = 0 then r.cyc else max r.cyc (wait + 128),
                   nxtCyc := if l = 0 then max r.nxtCyc (wait + 128) else r.nxtCyc } } }) ∧
    ((s.harpRun p.val).stage = some (addr, first, 1, 0, 0) → first < 4096 → (s.harpRun p.val).staged = false →
      memRead (.harp p) addr 32 s = (d, false, u) → Leads (.harpStageDone p) s fun t =>
        (∀ w : Fin 8, ∀ f ∈ ctxFlds first w.val, t.rd f = bitsAt (fieldAt d (4 * w.val) 4) f.lsb f.width) ∧
        t.rd (F.harpPipeLaststage_STAMP p.val) = s.now ∧ (t.harpRun p.val).stage = none ∧ Pends 148 u t))

/-! ### Pipes and ports (R169 to R197) -/

/-- A line start of a pipe shows its line: the next active line, blanking line 0 after the last one, or the next blanking line where no
frame is due (R169, R202). The commands that complete in it: pipeLineStart, pipeFrameStart. -/
def Obligations.PipeLines : Prop :=
  ∀ (s : State) (p : Fin 8) (dot : Nat) (late : BitVec 2) (stall : Bool), s.Canonical →
    let u := s.atDot dot
    let r := s.pipe p.val
    let line := s.rd (F.pipeStatus_LINE p.val)
    let shows (state n : Nat) (t : State) : Prop :=
      t.rd (F.pipeStatus_STATE p.val) = state ∧ t.rd (F.pipeStatus_LINE p.val) = n ∧ t.now = u.now
    (s.rd (F.pipeStatus_STATE p.val) = 0 → Leads (.pipeLineStart p dot late stall) s (· = u)) ∧
    (s.pipeOn p.val = true → r.atLine0 = true → Leads (.pipeLineStart p dot late stall) s (shows 2 0)) ∧
    (s.rd (F.pipeStatus_STATE p.val) = 2 → r.atLine0 = false →
      (line + 1 < s.vactive p.val → Leads (.pipeLineStart p dot late stall) s (shows 2 (line + 1))) ∧
      (s.vactive p.val ≤ line + 1 → Leads (.pipeLineStart p dot late stall) s (shows 3 (s.vactive p.val)))) ∧
    (s.inBlanking p.val = true → r.atLine0 = false → r.atBlank0 = false → u.frameDue p.val = false →
      Leads (.pipeLineStart p dot late stall) s (shows (s.rd (F.pipeStatus_STATE p.val)) (min 65535 (s.vactive p.val + r.blank + 1)))) ∧
    (s.pipeOn p.val = true → u.frameDue p.val = true → Leads (.pipeFrameStart p dot) s fun t =>
      shows 2 0 t ∧ t.rd (F.pipeStatus_WAITING p.val) = 0 ∧ t.rd (F.lockFstamp_STAMP p.val) = u.now ∧
      t.rd (F.pipeFrames_COUNT p.val) = (s.rd (F.pipeFrames_COUNT p.val) + 1) % 2 ^ (F.pipeFrames_COUNT p.val).width ∧
      Pends (32 + 12 * p.val) s t)

/-- The latch line of a pipe: a gated pipe with nothing pending waits and repeats; else the registers of the pipe latch, the pending set
is reported, the frame counts as retired and LATCH is raised; a set that arrives later in a gated blanking latches LATE (R181 to R184).
The commands that complete in it: pipeLatch, pipeLateLatch. -/
def Obligations.PipeLatches : Prop :=
  ∀ (s : State) (p : Fin 8), s.Canonical → s.inBlanking p.val = true → s.rd (F.pipeCtl_EN p.val) = 1 →
    let r := s.pipe p.val
    let retired := (s.rd (F.pipeRetired_COUNT p.val) + 1) % 2 ^ (F.pipeRetired_COUNT p.val).width
    let latched (t : State) : Prop := t.rd (F.pipeStatus_WAITING p.val) = 0 ∧ t.rd (F.pipeCommitStatus_PENDING p.val) = 0 ∧
      t.rd (F.pipeLatchStamp_STAMP p.val) = s.now ∧ t.lat (F.pipeCtl_OBJ_ABOVE p.val) = s.rd (F.pipeCtl_OBJ_ABOVE p.val) ∧
      t.lat (F.pipeCtl_DITHER p.val) = s.rd (F.pipeCtl_DITHER p.val) ∧
      (bitAt r.raised 1 = false → Pends (32 + 12 * p.val + 1) s t)
    (r.latchDone = false → r.atBlank0 = false → r.blank = 0 →
      (s.readyGate p.val = true → r.pend = false → Leads (.pipeLatch p) s fun t =>
        t.rd (F.pipeStatus_WAITING p.val) = 1 ∧ t.rd (F.pipeRetired_COUNT p.val) = retired ∧
        t = { s with cells := t.cells, pipes := s.pipes.modify p.val fun q => { q with latchDone := true } } ∧
        WroteOnly [F.pipeStatus_WAITING p.val, F.pipeRetired_COUNT p.val] s t) ∧
      (s.readyGate p.val = false ∨ r.pend = true → Leads (.pipeLatch p) s fun t =>
        latched t ∧ t.rd (F.pipeRetired_COUNT p.val) = retired ∧
        (r.pend = true → t.rd (F.pipeCommitStatus_RESULT p.val) = if r.deferred then 3 else 1))) ∧
    (r.latchDone = true → s.readyGate p.val = true → r.latchLine = none → r.pend = true → r.aged = true → 1 ≤ r.blank →
      r.blank < 8192 → r.blank ≤ s.vmax p.val - 2 → Leads (.pipeLateLatch p) s fun t =>
        latched t ∧ t.rd (F.pipeRetired_COUNT p.val) = s.rd (F.pipeRetired_COUNT p.val) ∧
        t.rd (F.pipeCommitStatus_RESULT p.val) = 2 ∧ t.rd (F.pipeCommitStatus_LINE p.val) = r.blank)

/-- A commit joins the pending set, or waits for the frame after where it comes too late; the fence of a drained fetch releases its
address (R179, R180, R186). The commands that complete in it: pipeCommit, fetchDrainRelease, wbFrameDone. -/
def Obligations.PipeCommits : Prop :=
  ∀ (s : State) (who : Initiator) (p : Fin 8) (mask : BitVec 12) (seq : BitVec 16) (slot : Fin 12) (a : BitVec 40), s.Canonical →
    let r := s.pipe p.val
    let tag := initiatorTag who
    (s.shutOut who (pipeOff p.val) = false → mayWrite true (some p.val) false tag = true → s.heldRes 0x30 p.val = false → s.pipeOn p.val = true → r.addrs = [] →
      Leads (.pipeCommit who p mask seq) s fun t =>
        t.rd (F.pipeCommitSeq_PENDING p.val) = seq.toNat ∧
        t.rd (F.pipeCommitStatus_SUPERSEDED p.val) = s.rd (F.pipeCommitStatus_SUPERSEDED p.val) ∧
        t.pipes = (s.pipes.modify p.val fun q => { q with
          pend := true, seq := some seq.toNat, deferred := q.deferred || s.commitLate p.val,
          raised := if s.commitLate p.val then q.raised ||| 4 else q.raised,
          addrs := (bitsSet 12 mask.toNat).map fun sl =>
            (sl, s.rd (F.pipeSlotAddr_ADDR p.val sl) / 64 * 64, s.rd (F.pipeSlotAddr2_ADDR p.val sl) / 64 * 64) }) ∧
        t.rd (F.pipeCommitStatus_PENDING p.val) = (if s.commitLate p.val then 2 else 1)) ∧
    (mayWrite true (some p.val) false tag = false → Leads (.pipeCommit who p mask seq) s fun t => t.pipes = s.pipes) ∧
    (r.drain = [(slot.val, a.toNat)] → Leads (.fetchDrainRelease p) s fun t =>
      t.rd (F.pipeSlotRel_ADDR p.val slot.val) = a.toNat ∧ t.rd (F.pipeSlotRel_SKIPPED p.val slot.val) = 0 ∧
      t.rd (F.pipeSlotRel_COUNT p.val slot.val) =
        (s.rd (F.pipeSlotRel_COUNT p.val slot.val) + 1) % 2 ^ (F.pipeSlotRel_COUNT p.val slot.val).width ∧
      t.rd (F.pipeSlotRelfrm_RETIRED p.val slot.val) = s.rd (F.pipeRetired_COUNT p.val) ∧ Pends (32 + 12 * p.val + 3) s t) ∧
    (r.wb.active = true → s.rd (F.pipeStatus_STATE p.val) ≠ 2 → r.wb.held = [] → r.wb.ending = [] → Leads (.wbFrameDone p) s fun t =>
      t.rd (F.pipeWbStatus_INDEX p.val) = r.wb.buf % 16 ∧ t.rd (F.pipeWbStamp_STAMP p.val) = r.wb.stamp % 2 ^ 48 ∧
      t.rd (F.pipeWbStatus_BUSY p.val) = 0 ∧ t.rd (F.pipeWbStatus_INCOMPLETE p.val) = 0 ∧ t.mem = s.mem ∧
      (bitAt r.raised 11 = false → Pends (32 + 12 * p.val + 11) s t))

/-- Hot-plug, training and link loss of a display port (R195, R557, R559): an enabled port trains at a rise of HPD and reads NO_SINK at
a fall; a training ends on the lanes in service; one that times out leaves the port LOST and is an upset of its unit, as a lost link is,
after which the port trains again. The commands that complete in it: portHpdRise, portHpdFall, portTrainingDone, portTrainingTimeout,
portLinkLoss. -/
def Obligations.DisplayPorts : Prop :=
  ∀ (s : State) (k : Fin 8) (dot : Nat), s.Canonical →
    let trains (state : Nat) (t : State) : Prop := t.rd (F.portStatus_STATE k.val) = state ∧ t.rd (F.portStatus_LANES_ACTIVE k.val) = 0
    let on := s.rd (F.portCtl_EN k.val) = 1
    (on → s.unitState (unitId 0 k.val) ≠ 2 → s.portLanes k.val ≠ 0 → Leads (.portHpdRise k dot) s fun t =>
      trains 1 t ∧ t.rd (F.portStatus_HPD k.val) = 1) ∧
    (on → Leads (.portHpdFall k) s fun t => trains 5 t ∧ t.rd (F.portStatus_HPD k.val) = 0) ∧
    (¬on → Leads (.portHpdRise k dot) s (fun t => t.rd (F.portStatus_HPD k.val) = 1 ∧ ReportedOnly [F.portStatus_HPD k.val, F.beamNow_DOT] s t) ∧
      Leads (.portHpdFall k) s (fun t => t.rd (F.portStatus_HPD k.val) = 0 ∧ ReportedOnly [F.portStatus_HPD k.val] s t)) ∧
    (s.rd (F.portStatus_STATE k.val) = 1 →
      Leads (.portTrainingDone k) s (fun t =>
        t.rd (F.portStatus_LANES_ACTIVE k.val) = s.portLanes k.val ∧
        t.rd (F.portStatus_RATE k.val) = s.rd (F.portCtl_RATE k.val) ∧
        t.rd (F.portStatus_STATE k.val) = (if (s.port k.val).route ≠ 2 ∧
          2 ≤ s.rd (F.pipeStatus_STATE (s.rd (F.portStatus_PIPE k.val))) then 2 else 3)) ∧
      (Fresh (unitId 0 k.val) s → Leads (.portTrainingTimeout k) s fun t => trains 4 t ∧ Suspected (unitId 0 k.val) s t)) ∧
    (s.rd (F.portStatus_HPD k.val) = 1 → s.rd (F.portStatus_STATE k.val) = 2 ∨ s.rd (F.portStatus_STATE k.val) = 3 →
      Fresh (unitId 0 k.val) s → Leads (.portLinkLoss k 0) s fun t => trains 1 t ∧ Suspected (unitId 0 k.val) s t)

/-! ### Camera ingest (R206 to R227) -/

/-- Frames of a camera stream (R206, R211 to R213): an FS takes a buffer of the ring and starts the frame, an FE ends it, and the
acknowledgement of its last write makes it NEWEST. The commands that complete in it: csiFs, csiFe, streamFrameComplete. -/
def Obligations.CameraFrames : Prop :=
  ∀ (s : State) (port : Fin 4) (vc n : Fin 16) (frameNum : BitVec 16) (dot : Nat) (b : Fin 8) (err long : Bool), s.Canonical →
    let u := s.atDot dot
    let r := s.stream n.val
    let only := s.csiReceives port.val = true ∧ s.vcStreams port.val vc.val = [n.val]
    (only → n.val < s.cam.streams.length → r.inFrame = false → r.done = none → s.ringChoose n.val = some b.val →
      Leads (.csiFs port vc frameNum .none dot) s fun t =>
        t.rd (F.streamStatus_STATE n.val) = 2 ∧ t.rd (F.streamStatus_LINE n.val) = 0 ∧ t.rd (F.streamStatus_WRITING n.val) = b.val ∧
        t.rd (F.streamBuf_WRITING n.val b.val) = 1 ∧ t.rd (F.streamBuf_COMPLETE n.val b.val) = 0 ∧
        t.rd (F.streamBuf_FS_STAMP n.val b.val) = u.now ∧ t.stream n.val = { r with
          frames := r.frames + 1, inFrame := true, buf := some b.val, frameNum := frameNum.toNat, lines := 0, corrupt := false, since := u.now } ∧ t.mem = s.mem) ∧
    (only → r.inFrame = true → r.lines = s.rd (F.streamSize_H n.val) → r.corrupt = false → r.buf = some b.val →
      Leads (.csiFe port vc frameNum .none dot) s fun t =>
        t.stream n.val = { r with inFrame := false, buf := none, done := some (b.val, false, false), since := u.now } ∧
        t.rd (F.streamErrs_SHORT n.val) = s.rd (F.streamErrs_SHORT n.val) ∧ t.mem = s.mem) ∧
    (only → r.inFrame = true → r.lines < s.rd (F.streamSize_H n.val) → r.buf = some b.val →
      Leads (.csiFe port vc frameNum .none dot) s fun t =>
        Counted (F.streamErrs_SHORT n.val) s t ∧ (t.stream n.val).inFrame = false ∧
        (t.stream n.val).done = r.done ∧ t.rd (F.streamBuf_WRITING n.val b.val) = 0) ∧
    (only → r.inFrame = false → Leads (.csiFe port vc frameNum .none dot) s fun t =>
      Counted (F.streamOrphan_FE n.val) s t ∧ t.cam = s.cam) ∧
    (r.done = some (b.val, err, long) → Leads (.streamFrameComplete n dot) s fun t =>
      t.rd (F.streamStatus_NEWEST n.val) = b.val ∧ t.rd (F.streamStatus_NEWEST_VALID n.val) = 1 ∧
      t.rd (F.streamBuf_COMPLETE n.val b.val) = 1 ∧ t.rd (F.streamBuf_WRITING n.val b.val) = 0 ∧
      t.rd (F.streamBuf_ERR n.val b.val) = (if err then 1 else 0) ∧ t.rd (F.streamBuf_LONG n.val b.val) = (if long then 1 else 0) ∧
      t.rd (F.streamFeStamp_STAMP n.val) = u.now ∧ (t.stream n.val).done = none ∧ Pends (160 + n.val) s t ∧ t.mem = s.mem)

/-- A line of a camera frame lands in the frame's buffer, in landing format (R208, R210), and on a raced stream in its landing slot too,
whose tag is valid when that write has completed (R217); a packet that no stream takes is counted, one of embedded data or a short
packet is ignored but for its header's error, and a lost PHY is sought again (R206, R213, R215). The commands that complete in it:
csiLongPacket, csiShortIgnored, csiSyncLoss. -/
def Obligations.CameraPackets : Prop :=
  ∀ (s : State) (port : Fin 4) (vc n : Fin 16) (dt : BitVec 6) (data : List Byte) (b : Fin 8),
    s.Canonical → s.csiReceives port.val = true →
    let r := s.stream n.val
    let bytes := landLine dt.toNat (s.rd (F.streamSize_W n.val)) data
    let a := s.ringBuf n.val b.val + r.lines * s.rd (F.streamStride_BYTES n.val)
    let line : State := { s.wr (F.streamStatus_LINE n.val) r.lines with
      cam := { s.cam with streams := s.cam.streams.modify n.val fun r => { r with lines := r.lines + 1 } } }
    let landed := memWrite (.camera n false) a bytes line
    let slot := r.lines % s.landLines n.val
    let raced := memWrite (.camera n true) (s.landSlot n.val slot) bytes landed.2
    let tag : LandTag := ⟨slot, r.frames, r.lines⟩
    let taker := (s.vcStreams port.val vc.val).find? fun m => s.rd (F.streamCtl_DT m) == dt.toNat
    let good := dt ≠ 0x12 ∧ taker = some n.val ∧ data.length * 8 / wireBits dt.toNat = s.rd (F.streamSize_W n.val) ∧ r.inFrame = true ∧
      r.lines < s.rd (F.streamSize_H n.val) ∧ r.buf = some b.val ∧ landed.1 = false
    let counts (f : Fld) (t : State) : Prop := t.rd f = min (s.rd f + 1) (2 ^ f.width - 1) ∧ t.mem = s.mem
    (good → s.rd (F.streamCtl_RACED n.val) = 0 → Leads (.csiLongPacket port vc dt data .none false) s (· = landed.2)) ∧
    (good → s.rd (F.streamCtl_RACED n.val) = 1 → raced.1 = false → Leads (.csiLongPacket port vc dt data .none false) s fun t =>
      t = { raced.2 with cam := { raced.2.cam with streams := raced.2.cam.streams.modify n.val fun q => { q with
        tags := q.tags.filter (·.slot != slot), slots := tag :: q.slots.filter (·.slot != slot),
        landing := q.landing.filter (·.slot != slot) ++ [tag] } } }) ∧
    (dt ≠ 0x12 → taker = some n.val → r.inFrame = false → Leads (.csiLongPacket port vc dt data .none false) s
      (counts (F.streamOrphan_LINES n.val))) ∧
    (dt ≠ 0x12 → taker = none → Leads (.csiLongPacket port vc dt data .none false) s (counts (F.csiErr1_DT_UNSUPP port.val))) ∧
    Leads (.csiLongPacket port vc 0x12 data .none false) s (· = s) ∧
    Leads (.csiShortIgnored port vc dt .none) s (· = s) ∧
    Leads (.csiShortIgnored port vc dt .corrected) s (counts (F.csiErr0_ECC_CE port.val)) ∧
    ((∀ m ∈ s.portStreams port.val, (s.stream m).inFrame = false) → Fresh (csiUnit port.val) s →
      Leads (.csiSyncLoss port) s fun t => t.rd (F.csiStatus_STATE port.val) = 1 ∧
        Counted (F.csiErr1_RESYNC port.val) s t ∧
        t.cam.resync.contains port.val = true ∧ Suspected (csiUnit port.val) s t)

/-- A CSI-2 port that seeks synchronisation becomes ACTIVE with it, and the retry that a resynchronisation was ends with its success or
goes on to the next attempt (R206, R215, R559); a frame-sync pulse begins at its beam position and ends PULSE microseconds later, or
with the sender's word while the reference does not count (R216). The commands that complete in it: csiPhySyncAcquired, csiResyncDone,
camFsyncPulse, camFsyncEnd. -/
def Obligations.CameraPorts : Prop :=
  ∀ (s : State) (k : Fin 4) (n : Fin 16) (dot : Nat), s.Canonical →
    let u := s.atDot dot
    let unit := csiUnit k.val
    let over_ := match (u.stream n.val).pulse with
      | some at_ => u.rd F.refStatus_STATE < 2 || reached (u.advance at_ (u.usDots (max 1 (u.rd (F.streamFsync_PULSE n.val))))) u.now
      | none => false
    (s.rd (F.csiCtl_EN k.val) = 1 → s.rd (F.csiStatus_STATE k.val) = 1 → s.cam.resync.contains k.val = false →
      Leads (.csiPhySyncAcquired k) s fun t => t.rd (F.csiStatus_STATE k.val) = 2 ∧ Only [F.csiStatus_STATE k.val] s t) ∧
    (s.cam.resync.contains k.val = true → Leads (.csiResyncDone k true) s fun t =>
      t.rd (F.csiStatus_STATE k.val) = 2 ∧ t.cam.resync = s.cam.resync.filter (· != k.val) ∧ (t.fltUnit unit).retrying = false) ∧
    (s.cam.resync.contains k.val = true → (s.fltUnit unit).retrying = true → (s.fltUnit unit).attempts = [] →
      Leads (.csiResyncDone k false) s fun t => t.rd (F.csiStatus_STATE k.val) = 1 ∧ t.cam.resync.contains k.val = true ∧
        (t.fltUnit unit).retrying = true ∧ Counted (F.csiErr1_RESYNC k.val) s t) ∧
    (s.rd (F.streamCtl_EN n.val) = 1 → u.fsyncDue n.val = true → Leads (.camFsyncPulse n dot) s fun t =>
      t = { u with cam := { u.cam with streams := u.cam.streams.modify n.val fun r => { r with pulse := some u.now, syncArmed := r.syncArmed.tail } } }) ∧
    (s.rd (F.streamCtl_EN n.val) = 0 ∨ u.fsyncDue n.val = false → Leads (.camFsyncPulse n dot) s (· = u)) ∧
    (over_ = true → Leads (.camFsyncEnd ⟨n, dot⟩) s fun t =>
      t = { u with cam := { u.cam with streams := u.cam.streams.modify n.val fun r => { r with pulse := none } } }) ∧
    (over_ = false → Leads (.camFsyncEnd ⟨n, dot⟩) s (· = u))

/-- A lost camera and a raced one (R214, R217 to R219): a timeout loses the stream, and its newest frame with it; a landing write that
completes makes its tag valid; at the cut-off of output line 0 the engine binds to the frame in progress, and a line that is not valid
then is replaced by the latest earlier line, and counted as OVERRUN where its slot holds a later one, else as LATE. The commands that
complete in it: landingTagValid, streamTimeout, raceCutoff. -/
def Obligations.CameraRaces : Prop :=
  ∀ (s : State) (n : Fin 32) (st : Fin 16) (dot f c : Nat) (tag : LandTag) (rest : List LandTag) (err : Bool)
    (slack latency : Option Nat), s.Canonical →
    let u := s.atDot dot
    let cam := s.planeStream n.val
    let early := s.ahead (s.planePipe n.val) 0
    let bindings (q : PlaneRun) : PlaneRun :=
      if early then { q with bound := some f, cutoff := some 0, slack0 := leastOf q.slack0 slack, latency0 := mostOf q.latency0 latency }
      else { q with bound := some f, cutoff := some 0, slack := leastOf q.slack slack, latency := mostOf q.latency latency }
    let later := (s.stream cam).slots.any fun g => g.slot == c % s.landLines cam && (f < g.frame || (g.frame == f && c < g.line))
    let replaces (q : PlaneRun) : PlaneRun := bindings
      (if early then { q with subs := q.subs ++ [(c, (s.stream cam).replacement f c)], replaced0 := q.replaced0 + 1,
                              late0 := q.late0 || !later }
       else { q with subs := q.subs ++ [(c, (s.stream cam).replacement f c)], replaced := q.replaced + 1, late := q.late || !later })
    ((s.stream st.val).landing = tag :: rest → Leads (.landingTagValid st err) s fun t =>
      t = { s with cam := { s.cam with streams := s.cam.streams.modify st.val fun r =>
        { r with landing := rest, tags := if err then r.tags else tag :: r.tags } } }) ∧
    (s.rd (F.streamStatus_STATE st.val) = 1 ∨ s.rd (F.streamStatus_STATE st.val) = 2 →
      u.rd F.refStatus_STATE < 2 ∨
        reached (u.advance (s.stream st.val).since (u.usDots (max 1 (s.rd (F.streamTimeout_US st.val))))) u.now = true →
      Leads (.streamTimeout st dot) s fun t =>
        t.rd (F.streamStatus_STATE st.val) = 3 ∧ t.rd (F.streamStatus_NEWEST_VALID st.val) = 0 ∧
        (∀ b : Fin 8, t.rd (F.streamBuf_COMPLETE st.val b.val) = 0 ∧ t.rd (F.streamBuf_WRITING st.val b.val) = 0) ∧
        (t.stream st.val).inFrame = false ∧
        (bitAt (s.cam.evtSeen.getD 1 0) st.val = false → Pends 181 s t)) ∧
    (s.planeSel n.val = 2 → (s.plane n.val).fetch = some 0 → n.val < s.planes.length → s.raceBinding cam = some f →
      ((s.racedLines n.val 0).all (fun c => s.landed cam f c) = true → Leads (.raceCutoff n slack latency) s fun t =>
        t = { s with planes := s.planes.modify n.val bindings }) ∧
      ((s.racedLines n.val 0).eraseDups.filter (fun c => !s.landed cam f c) = [c] → Leads (.raceCutoff n slack latency) s fun t =>
        t.planes = s.planes.modify n.val replaces ∧
        Counted (if later then F.streamRace_OVERRUN cam else F.streamRace_LATE cam) s t))

/-! ### Rind (R228 to R248) -/

/-- Verdicts of a check rectangle (R230, R231, R234 to R237): SKIPPED where it computes no CRC; OFF where a layer it names was off; else
by the comparison with its expected entries where it matches, and by the run of equal CRCs where it watches for a freeze; each with the
frame it was formed in. A broken class-0 condition sets its bit, raises C0_COND and marks every pipe's frame; one that holds again
clears its bit (R244, R246). The commands that complete in it: rindVerdict, rindC0CondSet, rindC0CondClear. -/
def Obligations.RindChecks : Prop :=
  (∀ (s : State) (p : Fin 8) (r : Fin 64) (q : RectRun), s.Canonical → s.latFlag (F.rindCtl_EN p.val) = true →
    s.pipeOn p.val = true → p.val < s.rind.pipes.length →
    let crc := q.crc ^^^ 0xFFFFFFFF
    let matching := s.latFlag (F.rectCtl_MATCH_EN p.val r.val) = true ∧ s.lat (F.rectCtl_EXP_COUNT p.val r.val) ≠ 0
    let entries := ((s.rindRun p.val).entries.find? (fun e => e.1 == r.val)).bind (·.2)
    let at_ := ((entries.getD []).take (min 16 (s.lat (F.rectCtl_EXP_COUNT p.val r.val)))).findIdx? (· == crc)
    let kept := ((s.rindRun p.val).kept.find? (fun k => k.1 == r.val)).elim [] (·.2)
    let past := kept[if s.lat (F.rectCtl_TAP p.val r.val) = 1 ∧ s.lat (F.pipeCtl_DITHER p.val) = 2 then 3 else 0]?
    let freezes := s.latFlag (F.rectCtl_FREEZE_EN p.val r.val) = true
    let run := if freezes then past.elim (s.rd (F.rectVerdict_RUN p.val r.val))
        (fun k => if k = crc then min 255 (s.rd (F.rectVerdict_RUN p.val r.val) + 1) else 0)
      else s.rd (F.rectVerdict_RUN p.val r.val)
    let frozen := freezes ∧ max 1 (s.lat (F.rectCtl_FREEZE_LIMIT p.val r.val)) ≤ run
    let formed (v : Nat) (t : State) : Prop := t.rd (F.rectVerdict_VERDICT p.val r.val) = v ∧
      t.rd (F.rectVerdict_FRAME p.val r.val) = s.rd (F.pipeFrames_COUNT p.val) % 65536
    let fails (t : State) : Prop := Counted (F.rectFails_COUNT p.val r.val) s t ∧
      bitAt (t.rd (F.rindFailCur_RECT p.val)) r.val = true
    (s.rectLive p.val r.val = false → Leads (.rindVerdict p r) s fun t => formed 7 t ∧
      Only [F.rectVerdict_VERDICT p.val r.val, F.rectVerdict_FRAME p.val r.val] s t) ∧
    (s.rectLive p.val r.val = true → (s.rindRun p.val).rects.find? (fun x => x.rect == r.val && x.done) = some q →
      Leads (.rindVerdict p r) s fun t =>
        t.rd (F.rectCrc_CRC p.val r.val) = crc % 2 ^ 32 ∧ t.rd (F.rectVerdict_RUN p.val r.val) = run ∧
        (q.off = true → formed 2 t ∧ fails t) ∧
        (q.off = false → matching → entries = none → formed 3 t ∧ fails t) ∧
        (q.off = false → matching → entries ≠ none → at_ = none → formed 4 t ∧ fails t) ∧
        (∀ i, matching → at_ = some i → t.rd (F.rectVerdict_MATCH_IDX p.val r.val) = i % 16) ∧
        (q.off = false → ¬matching ∨ at_ ≠ none → frozen → formed 5 t ∧ fails t) ∧
        (q.off = false → ¬matching ∨ at_ ≠ none → ¬frozen → matching ∨ freezes → formed 1 t) ∧
        (q.off = false → ¬matching → ¬freezes → formed 6 t))) ∧
  (∀ (s : State) (c : Fin 3), s.Canonical →
    (s.condBroken c.val = true → s.rd (condFld c.val) = 0 → Leads (.rindC0CondSet c) s fun t =>
      t.rd (condFld c.val) = 1 ∧ Pends 208 s t ∧ ∀ p : Fin 8, p.val < s.rind.pipes.length → (t.rindRun p.val).cond = true) ∧
    (s.condBroken c.val = false → Leads (.rindC0CondClear c) s fun t => t.rd (condFld c.val) = 0 ∧ Only [condFld c.val] s t) ∧
    (s.condBroken c.val = true → Leads (.rindC0CondClear c) s (· = s)))

/-! ### The Syoft cores (R253 to R287) -/

/-- The I and J units' operations on two words, or one (R269): in a bundle of its own, at a boundary of a running core, each writes its
result to `gd`, and nothing else changes but the PC, the cycle count and the core's status register. The I and J units' operations with
an immediate, the moves, and the reads of products and accumulators (R269). The commands that complete in it: add, sub, and, or, xor,
shl, shr, sar, min, max, minu, maxu, cmpeq, cmplt, cmpltu, adds, subs, abs, clz, addi, andi, ori, xori, shli, shri, sari, cmpeqi,
cmplti, li, lih, movx, movg, addx, rdp, rda, rdar. -/
def Obligations.SyoftIntegers : Prop :=
  (∀ (s : State) (k : Fin 13) (j : Bool) (d a b : Fin 32), s.Canonical → Ready k.val s →
    let r := (s.core k.val).regs
    let A := r.rg a.val
    let B := r.rg b.val
    let writes (v : BitVec 24) (t : State) : Prop := Ran k.val s t (r.put (.g d.val) v) (r.pc + 1) 1
    Leads (.add k true j d a b) s (writes (A + B)) ∧
    Leads (.sub k true j d a b) s (writes (A - B)) ∧
    Leads (.and k true j d a b) s (writes (A &&& B)) ∧
    Leads (.or k true j d a b) s (writes (A ||| B)) ∧
    Leads (.xor k true j d a b) s (writes (A ^^^ B)) ∧
    Leads (.shl k true j d a b) s (writes (A <<< (B.toNat % 32))) ∧
    Leads (.shr k true j d a b) s (writes (A >>> (B.toNat % 32))) ∧
    Leads (.sar k true j d a b) s (writes (A.sshiftRight (B.toNat % 32))) ∧
    Leads (.min k true j d a b) s (writes (if A.toInt ≤ B.toInt then A else B)) ∧
    Leads (.max k true j d a b) s (writes (if A.toInt ≤ B.toInt then B else A)) ∧
    Leads (.minu k true j d a b) s (writes (if A.toNat ≤ B.toNat then A else B)) ∧
    Leads (.maxu k true j d a b) s (writes (if A.toNat ≤ B.toNat then B else A)) ∧
    Leads (.cmpeq k true j d a b) s (writes (if A = B then 1 else 0)) ∧
    Leads (.cmplt k true j d a b) s (writes (if A.toInt < B.toInt then 1 else 0)) ∧
    Leads (.cmpltu k true j d a b) s (writes (if A.toNat < B.toNat then 1 else 0)) ∧
    Leads (.adds k true j d a b) s (writes (BitVec.ofInt 24 (max (-8388608) (min 8388607 (A.toInt + B.toInt))))) ∧
    Leads (.subs k true j d a b) s (writes (BitVec.ofInt 24 (max (-8388608) (min 8388607 (A.toInt - B.toInt))))) ∧
    Leads (.abs k true j d a) s (writes (BitVec.ofInt 24 (min 8388607 (A.toInt.natAbs : Int)))) ∧
    Leads (.clz k true j d a) s (fun t => ∃ n : Fin 25, writes (BitVec.ofNat 24 n.val) t ∧ A.toNat < 2 ^ (24 - n.val) ∧
      (A ≠ 0 → 2 ^ (23 - n.val) ≤ A.toNat) ∧ (A = 0 → n.val = 24))) ∧
  (∀ (s : State) (k : Fin 13) (j : Bool) (d a : Fin 32) (imm : BitVec 12) (imm17 : BitVec 17) (xd xa : Fin 8) (pa : Fin 4),
    s.Canonical → Ready k.val s →
    let r := (s.core k.val).regs
    let A := r.rg a.val
    let I : BitVec 24 := imm.signExtend 24
    let h := imm.toNat
    let acc := r.ra pa.val
    let writes (dst : Dst) (v : BitVec 24) (t : State) : Prop := Ran k.val s t (r.put dst v) (r.pc + 1) 1
    Leads (.addi k true j d a imm) s (writes (.g d.val) (A + I)) ∧
    Leads (.andi k true j d a imm) s (writes (.g d.val) (A &&& I)) ∧
    Leads (.ori k true j d a imm) s (writes (.g d.val) (A ||| I)) ∧
    Leads (.xori k true j d a imm) s (writes (.g d.val) (A ^^^ I)) ∧
    Leads (.shli k true j d a imm) s (writes (.g d.val) (A <<< (h % 32))) ∧
    Leads (.shri k true j d a imm) s (writes (.g d.val) (A >>> (h % 32))) ∧
    Leads (.sari k true j d a imm) s (writes (.g d.val) (A.sshiftRight (h % 32))) ∧
    Leads (.cmpeqi k true j d a imm) s (writes (.g d.val) (if A = I then 1 else 0)) ∧
    Leads (.cmplti k true j d a imm) s (writes (.g d.val) (if A.toInt < imm.toInt then 1 else 0)) ∧
    Leads (.li k true j d imm17) s (writes (.g d.val) (imm17.signExtend 24)) ∧
    Leads (.lih k true j d imm) s (writes (.g d.val) (BitVec.ofNat 24 (h * 2 ^ 12 + (r.rg d.val).toNat % 2 ^ 12))) ∧
    Leads (.movx k true j xd a) s (writes (.x xd.val) A) ∧
    Leads (.movg k true j d xa) s (writes (.g d.val) (r.rx xa.val)) ∧
    Leads (.addx k true j xd xa imm) s (writes (.x xd.val) (r.rx xa.val + I)) ∧
    Leads (.rdp k true j d pa imm) s (writes (.g d.val) (BitVec.ofNat 24 ((r.rp pa.val).toNat / 2 ^ (24 * (h % 2))))) ∧
    Leads (.rda k true j d pa imm) s (writes (.g d.val) (BitVec.ofInt 24 (max (-8388608) (min 8388607
      (if h % 64 = 0 then acc.toInt else (acc.toInt + 2 ^ (min (h % 64) 59 - 1)) / 2 ^ min (h % 64) 59))))) ∧
    (h % 4 ≠ 3 → Leads (.rdar k true j d pa imm) s (writes (.g d.val)
      (if h % 4 = 0 then BitVec.ofNat 24 acc.toNat else if h % 4 = 1 then BitVec.ofNat 24 (acc.toNat / 2 ^ 24)
       else (BitVec.ofNat 12 (acc.toNat / 2 ^ 48)).signExtend 24))) ∧
    (h % 4 = 3 → r.exl = false → Leads (.rdar k true j d pa imm) s (Trapped k.val 1 s)))

/-- The M unit (R267, R270): the result of an operation stands in its register once two bundles have followed its own and not before,
and beside that register (and AOV, where a sum leaves 60 bits) only the PC and the cycle count change. The commands that complete in it:
nopc, mul, mulu, mac, msu, macz, macu, mova, ashr, ains. -/
def Obligations.SyoftMultiply : Prop :=
  ∀ (s : State) (k : Fin 13) (d e : Fin 4) (a b : Fin 32) (n : BitVec 6), s.Canonical → Ready k.val s →
    (s.core k.val).regs.pc.toNat + 2 < progSize k.val →
    let r := (s.core k.val).regs
    let A := r.rg a.val
    let B := r.rg b.val
    let acc := r.ra d.val
    let gives (c : Instr) (q : CoreRegs) : Prop :=
      Leads c s fun t => Leads (.nopc k true) t fun u => Leads (.nopc k true) u fun v =>
      (t.core k.val).regs = { r with pc := r.pc + 1, cycle := r.cycle + 1 } ∧
      (u.core k.val).regs = { r with pc := r.pc + 2, cycle := r.cycle + 2 } ∧
      v.core k.val = { s.core k.val with waited := false, regs := { q with pc := r.pc + 3, cycle := r.cycle + 3 } } ∧
      (∀ j, j ≠ k.val → v.core j = s.core j) ∧ v = { s with cells := v.cells, cores := v.cores }
    let sum (x : Int) : CoreRegs :=
      { r with a := r.a.set d.val (BitVec.ofInt 60 (acc.toInt + x)),
               aov := r.aov || decide (acc.toInt + x < -(2 ^ 59) ∨ 2 ^ 59 ≤ acc.toInt + x) }
    gives (.mul k true d a b) { r with p := r.p.set d.val (BitVec.ofInt 48 (A.toInt * B.toInt)) } ∧
    gives (.mulu k true d a b) { r with p := r.p.set d.val (BitVec.ofNat 48 (A.toNat * B.toNat)) } ∧
    gives (.mac k true d a b) (sum (A.toInt * B.toInt)) ∧
    gives (.msu k true d a b) (sum (-(A.toInt * B.toInt))) ∧
    gives (.macz k true d a b) { r with a := r.a.set d.val (BitVec.ofInt 60 (A.toInt * B.toInt)) } ∧
    gives (.macu k true d a b) (sum (A.toNat * B.toNat : Nat)) ∧
    gives (.mova k true d a n) { r with a := r.a.set d.val (A.signExtend 60 <<< min n.toNat 32) } ∧
    gives (.ashr k true d e n) { r with a := r.a.set d.val ((r.ra e.val).sshiftRight (min n.toNat 59)) } ∧
    (n.toNat % 4 ≠ 3 → gives (.ains k true d a n) { r with a := r.a.set d.val (BitVec.ofNat 60 (
      if n.toNat % 4 = 0 then acc.toNat / 2 ^ 24 * 2 ^ 24 + A.toNat
      else if n.toNat % 4 = 1 then acc.toNat / 2 ^ 48 * 2 ^ 48 + A.toNat * 2 ^ 24 + acc.toNat % 2 ^ 24
      else A.toNat % 2 ^ 12 * 2 ^ 48 + acc.toNat % 2 ^ 48)) }) ∧
    (n.toNat % 4 = 3 → r.exl = false → Leads (.ains k true d a n) s (Trapped k.val 1 s))

/-- The loads from a core's data memory (R255 to R257, R260): the container at the effective address, by size, and the address register
after it in each mode. No byte of memory changes. A corrected error is counted alone; an uncorrectable one is counted, the word as it
was read is delivered, and a bus error waits as an imprecise trap. The commands that complete in it: ldB, ldBs, ldH, ldHs, ldT, ldW,
ldD, ldx. -/
def Obligations.SyoftLoads : Prop :=
  ∀ (s : State) (k : Fin 13) (g : Fin 32) (d : Fin 8) (at_ : LAddr) (flips : BitVec 32), s.Canonical → Ready k.val s → at_.sp = 0 → at_.am ≠ 3 →
    let r := (s.core k.val).regs
    let after (size : Nat) (q : CoreRegs) : CoreRegs := (updates at_ size r).foldl (fun q d => q.put d.1 d.2) q
    let loads (size : Nat) (c : Instr) (f : (Nat → Nat) → CoreRegs → CoreRegs) : Prop :=
      let ea := (at_.ea size r).toNat
      ea % size = 0 → ea + size ≤ dataSize k.val →
        Leads c s fun t => Ran k.val s t (after size (f (fun i => (s.byteAt (dataBase k.val + ea + i)).toNat) r)) (r.pc + 1) 1
    let g1 := g.val + 1
    let g2 := g.val + 2
    let w (n : Nat) : BitVec 24 := BitVec.ofNat 24 n
    loads 1 (.ldB k true g at_ .none) (fun m r => r.put (.g g.val) (w (m 0))) ∧
    loads 1 (.ldBs k true g at_ .none) (fun m r => r.put (.g g.val) ((BitVec.ofNat 8 (m 0)).signExtend 24)) ∧
    loads 2 (.ldH k true g at_ .none) (fun m r => r.put (.g g.val) (w (m 0 + 256 * m 1))) ∧
    loads 2 (.ldHs k true g at_ .none) (fun m r => r.put (.g g.val) ((BitVec.ofNat 16 (m 0 + 256 * m 1)).signExtend 24)) ∧
    loads 4 (.ldT k true g at_ .none) (fun m r => r.put (.g g.val) (w (m 0 + 256 * m 1 + 65536 * m 2))) ∧
    (g.val ≤ 30 → loads 4 (.ldW k true g at_ .none) (fun m r =>
      (r.put (.g g.val) (w (m 0 + 256 * m 1 + 65536 * m 2))).put (.g g1) (w (m 3)))) ∧
    (g.val ≤ 29 → loads 8 (.ldD k true g at_ ⟨.none, .none⟩) (fun m r =>
      ((r.put (.g g.val) (w (m 0 + 256 * m 1 + 65536 * m 2))).put (.g g1) (w (m 3 + 256 * m 4 + 65536 * m 5))).put
        (.g g2) (w (m 6 + 256 * m 7)))) ∧
    (at_.am = 0 ∨ at_.x ≠ d → loads 4 (.ldx k true d at_ .none) (fun m r => r.put (.x d.val) (w (m 0 + 256 * m 1 + 65536 * m 2)))) ∧
    (let ea := (at_.ea 4 r).toNat
     let m (i : Nat) : Nat := (s.byteAt (dataBase k.val + ea + i)).toNat
     let word := m 0 + 256 * m 1 + 65536 * m 2 + 2 ^ 24 * m 3
     let loaded (v : Nat) (bad : List Imprecise) (t : State) : Prop := t.core k.val = { s.core k.val with
       waited := false, imprecise := (s.core k.val).imprecise ++ bad, regs := { after 4 (r.put (.g g.val) (w v)) with pc := r.pc + 1, cycle := r.cycle + 1 } }
     ea % 4 = 0 → ea + 4 ≤ dataSize k.val →
      Leads (.ldT k true g at_ .corrected) s (fun t => loaded word [] t ∧ t.mem = s.mem ∧
        (k.val < 8 → Counted (F.seqEcc_CE k.val) s t) ∧ (8 ≤ k.val → k.val < 12 → Counted (F.audCoreEcc_CE (k.val - 8)) s t)) ∧
      Leads (.ldT k true g at_ (.uncorrectable flips)) s (fun t => loaded (word ^^^ flips.toNat) [⟨4, 0, ea⟩] t ∧ t.mem = s.mem ∧
        (k.val < 8 → Counted (F.seqEcc_UE k.val) s t) ∧ (8 ≤ k.val → k.val < 12 → Counted (F.audCoreEcc_UE (k.val - 8)) s t)))

/-- The stores to a core's data memory (R255 to R257, R264): the bytes of the container at the effective address take the registers as
they stood before the bundle, and every other byte of memory stays. SETW writes a far window. The commands that complete in it: stB,
stH, stT, stW, stD, stx, setw. -/
def Obligations.SyoftStores : Prop :=
  ∀ (s : State) (k : Fin 13) (g : Fin 32) (d : Fin 8) (wn : Fin 4) (at_ : LAddr), s.Canonical → Ready k.val s →
    at_.sp = 0 → at_.am ≠ 3 →
    let r := (s.core k.val).regs
    let after (size : Nat) (q : CoreRegs) : CoreRegs := (updates at_ size r).foldl (fun q d => q.put d.1 d.2) q
    let stores (c : Instr) (bytes : List Nat) : Prop :=
      let ea := (at_.ea bytes.length r).toNat
      ea % bytes.length = 0 → ea + bytes.length ≤ dataSize k.val →
        Leads c s fun t =>
          t.core k.val = { s.core k.val with waited := false, regs := { after bytes.length r with pc := r.pc + 1, cycle := r.cycle + 1 } } ∧
          (∀ j, j ≠ k.val → t.core j = s.core j) ∧ t = { s with cells := t.cells, cores := t.cores, mem := t.mem } ∧
          WroteOnly [F.seqStatus_STATE k.val, F.seqStatus_PC k.val, F.audCoreStatus_STATE (k.val - 8), F.audCoreStatus_PC (k.val - 8)] s t ∧
          ∀ a, t.byteAt a = if dataBase k.val + ea ≤ a ∧ a < dataBase k.val + ea + bytes.length then
              BitVec.ofNat 8 (bytes.getD (a - (dataBase k.val + ea)) 0) else s.byteAt a
    let v (i : Nat) : Nat := (r.rg (g.val + i)).toNat
    let x := (r.rx d.val).toNat
    stores (.stB k true g at_) [v 0] ∧
    stores (.stH k true g at_) [v 0, v 0 / 256] ∧
    stores (.stT k true g at_) [v 0, v 0 / 256, v 0 / 65536, 0] ∧
    (g.val ≤ 30 → stores (.stW k true g at_) [v 0, v 0 / 256, v 0 / 65536, v 1]) ∧
    (g.val ≤ 29 → stores (.stD k true g at_) [v 0, v 0 / 256, v 0 / 65536, v 1, v 1 / 256, v 1 / 65536, v 2, v 2 / 256]) ∧
    stores (.stx k true d at_) [x, x / 256, x / 65536, 0] ∧
    Leads (.setw k true wn g) s (fun t => Ran k.val s t { r with w := r.w.set wn.val ((r.rg g.val).setWidth 16) } (r.pc + 1) 1)

/-- Control transfers, calls and the loop (R272 to R275), from a core with no loop active. A LOOP of no iterations skips its body; a
call or a return that RS_TRAP forbids traps. The commands that complete in it: nopc, br, bz, bnz, brg, call, callg, ret, loop. -/
def Obligations.SyoftTransfers : Prop :=
  ∀ (s : State) (k : Fin 13) (g : Fin 32) (tgt : BitVec 16), s.Canonical → Ready k.val s →
    let r := (s.core k.val).regs
    let A := r.rg g.val
    let next := r.pc + 1
    let pushed : CoreRegs := { r with rs := r.rs.set r.ptr.toNat next, ptr := r.ptr + 1, count := BitVec.ofNat 4 (min 8 (r.count.toNat + 1)) }
    let ran (q : CoreRegs) (pc : BitVec 16) (cost : BitVec 48) (t : State) : Prop := Ran k.val s t q pc cost
    Leads (.nopc k true) s (ran r next 1) ∧
    Leads (.br k true tgt) s (ran r tgt 3) ∧
    Leads (.bz k true g tgt) s (if A = 0 then ran r tgt 3 else ran r next 1) ∧
    Leads (.bnz k true g tgt) s (if A = 0 then ran r next 1 else ran r tgt 3) ∧
    Leads (.brg k true g) s (ran r (A.setWidth 16) 3) ∧
    (r.rsTrap = false ∨ r.count.toNat < 8 → Leads (.call k true tgt) s (ran pushed tgt 3)) ∧
    (r.rsTrap = false ∨ r.count.toNat < 8 → Leads (.callg k true g) s (ran pushed (A.setWidth 16) 3)) ∧
    (r.rsTrap = false ∨ r.count ≠ 0 → Leads (.ret k true) s
      (ran { r with ptr := r.ptr - 1, count := BitVec.ofNat 4 (r.count.toNat - 1) } (r.rs.getD (r.ptr - 1).toNat 0) 3)) ∧
    (r.rsTrap = true → 8 ≤ r.count.toNat → r.exl = false → Leads (.call k true tgt) s (Trapped k.val 6 s) ∧
      Leads (.callg k true g) s (Trapped k.val 6 s)) ∧
    (r.rsTrap = true → r.count = 0 → r.exl = false → Leads (.ret k true) s (Trapped k.val 7 s)) ∧
    (A = 0 → r.pc.toNat + 1 ≤ tgt.toNat → Leads (.loop k true g tgt) s
      (ran r (BitVec.ofNat 16 (bundleEnd k.val s 65536 tgt.toNat)) 1)) ∧
    (A ≠ 0 → r.pc.toNat + 1 ≤ tgt.toNat → Leads (.loop k true g tgt) s
      (ran { r with lc := A, ls := next, le := tgt, lact := true } next 1))

/-- The system syllables (R258, R276, R277, R279, R282): WAIT and FENCE hold their bundle or let it run, RETI restores STATUS and
continues at EPC, TRAP enters at VBASE, and the CSR operations read and write by number; a number outside the table traps. Reads of live
counters, the claim of an interrupt, and the end of a WAIT (R276, R277, R406): a claim fills the empty top entry of the core's
in-service stack, and one that finds nothing to claim is spurious; a WAIT that has not ended stays held. The commands that complete in
it: wait, fence, reti, trap, csrr, csrw, csrs, csrc, beamLoRead, cycleLoRead, ivecClaim, waitEnd. -/
def Obligations.SyoftSystem : Prop :=
  (∀ (s : State) (k : Fin 13) (g : Fin 32) (imm : BitVec 16) (csr : BitVec 12), s.Canonical → Ready k.val s →
    let c := s.core k.val
    let r := c.regs
    let A := r.rg g.val
    let n := csr.toNat
    let plain := csrPlain k.val n r
    (s.waitEnded k.val = true → Leads (.wait k true) s (fun t => Ran k.val s t r (r.pc + 1) 1)) ∧
    (s.waitEnded k.val = false → Leads (.wait k true) s fun t =>
      t.core k.val = { c with bundle := [.wait], hold := .wait false, waited := false } ∧ t = { s with cells := t.cells, cores := t.cores }) ∧
    (c.posted = [] → Leads (.fence k true) s (fun t => Ran k.val s t r (r.pc + 1) 1)) ∧
    (c.posted ≠ [] → Leads (.fence k true) s fun t => t = { s with cores := t.cores } ∧
      t.core k.val = { c with bundle := [.fence], hold := .fence, waited := false }) ∧
    Leads (.reti k true) s (fun t => t.core k.val = { c with waited := false, regs := { r with
      ie := bitAt r.estatus.toNat 0, exl := bitAt r.estatus.toNat 1, lact := bitAt r.estatus.toNat 2, aov := bitAt r.estatus.toNat 3,
      pc := r.epc, cycle := r.cycle + 3 } } ∧ t.mem = s.mem) ∧
    Leads (.trap k true imm) s (fun t => (t.core k.val).regs = { r with
      epc := r.pc + 1, code := 9, imprecise := false, space := 0, eaddr := imm.setWidth 24, estatus := BitVec.ofNat 4 r.status,
      ie := false, exl := true, lact := false, pc := r.vbase, cycle := r.cycle + 7 } ∧ t.mem = s.mem) ∧
    (csrKnown n = true → [6, 0x30, 0x31, 0x34, 0x35].contains n = false →
      Leads (.csrr k true g csr) s fun t => Ran k.val s t (r.put (.g g.val) (BitVec.ofNat 24 plain)) (r.pc + 1) 1) ∧
    (csrKnown n = true →
      Leads (.csrw k true g csr) s (fun t => Ran k.val s t (csrWrite n A.toNat r) (r.pc + 1) 1) ∧
      Leads (.csrs k true g csr) s (fun t => Ran k.val s t (csrWrite n (csrPlain 0 n r ||| A.toNat) r) (r.pc + 1) 1) ∧
      Leads (.csrc k true g csr) s (fun t => Ran k.val s t (csrWrite n (csrPlain 0 n r &&& (2 ^ 24 - 1 - A.toNat)) r) (r.pc + 1) 1)) ∧
    (csrKnown n = false → r.exl = false → Leads (.csrr k true g csr) s (Trapped k.val 1 s) ∧
      Leads (.csrw k true g csr) s (Trapped k.val 1 s) ∧ Leads (.csrs k true g csr) s (Trapped k.val 1 s) ∧
      Leads (.csrc k true g csr) s (Trapped k.val 1 s)) ∧
    Leads (.csrw k true g 0x10) s (fun t => Ran k.val s t { r with rs := r.rs.set 0 (A.setWidth 16) } (r.pc + 1) 1) ∧
    Leads (.csrw k true g 5) s (fun t => Ran k.val s t { r with vbase := BitVec.ofNat 16 (A.toNat / 16 * 16) } (r.pc + 1) 1) ∧
    Leads (.csrs k true g 0) s (fun t => Ran k.val s t { r with
      ie := r.ie || bitAt A.toNat 0, exl := r.exl || bitAt A.toNat 1, lact := r.lact || bitAt A.toNat 2, aov := r.aov || bitAt A.toNat 3 } (r.pc + 1) 1) ∧
    Leads (.csrc k true g 0) s (fun t => Ran k.val s t { r with
      ie := r.ie && !bitAt A.toNat 0, exl := r.exl && !bitAt A.toNat 1, lact := r.lact && !bitAt A.toNat 2, aov := r.aov && !bitAt A.toNat 3 } (r.pc + 1) 1) ∧
    Leads (.csrr k true g 2) s (fun t => Ran k.val s t (r.put (.g g.val) (r.epc.setWidth 24)) (r.pc + 1) 1) ∧
    Leads (.csrr k true g 0x18) s (fun t => Ran k.val s t (r.put (.g g.val) r.lc) (r.pc + 1) 1)) ∧
  (∀ (s : State) (k : Fin 13) (g : Fin 32) (dot : Nat) (stall : BitVec 48) (n : Nat) (rest : List (Option Nat)) (hit : Bool),
    s.Canonical →
    let u := s.atDot dot
    let c := s.core k.val
    let r := c.regs
    let ran (q : CoreRegs) (t : State) : Prop := t.core k.val =
      { c with waited := false, beamShadow := (t.core k.val).beamShadow, cycleShadow := (t.core k.val).cycleShadow, regs := { q with pc := r.pc + 1, cycle := q.cycle + 1 } } ∧
      ∀ j, j ≠ k.val → t.core j = s.core j
    (Ready k.val s →
      Leads (.beamLoRead k true g dot) s (fun t => ran (r.put (.g g.val) (BitVec.ofNat 24 u.now)) t ∧
        (t.core k.val).beamShadow = some (BitVec.ofNat 24 (u.now / 2 ^ 24))) ∧
      Leads (.cycleLoRead k true g stall) s (fun t =>
        ran ({ r with cycle := r.cycle + stall }.put (.g g.val) ((r.cycle + stall).setWidth 24)) t ∧
        (t.core k.val).cycleShadow = some (BitVec.ofNat 24 ((r.cycle + stall).toNat / 2 ^ 24))) ∧
      (s.intc.service[k.val]? = some (none :: rest) → claimChoice k.val s = some n → Leads (.ivecClaim k true g) s fun t =>
        ran (r.put (.g g.val) (BitVec.ofNat 24 (0x200 + n))) t ∧ t.isPending n = false ∧
        t.intc.service[k.val]? = some (some n :: rest)) ∧
      (claimChoice k.val s = none → Leads (.ivecClaim k true g) s fun t => ran (r.put (.g g.val) 0x1FF) t ∧ t.intc = s.intc ∧
        Counted F.intcSpurious_COUNT s t)) ∧
    (s.cores.length = 13 → k.val = 12 ∨ s.stopped = false → c.hold = .wait hit → c.bundle = [.wait] → c.stopDue = .none →
      c.mpipe = [] → r.lact = false → u.waitEnded k.val = true → Leads (.waitEnd k dot) s fun t =>
        t.core k.val = { c with bundle := [], hold := .none, waited := false, regs := { r with pc := r.pc + 1, cycle := r.cycle + 1 } } ∧
        (∀ j, j ≠ k.val → t.core j = s.core j) ∧ t.mem = s.mem) ∧
    (s.cores.length = 13 → c.hold = .wait hit → c.bundle = [.wait] → c.waited = false → c.stopDue = .none → u.waitEnded k.val = false →
      Leads (.waitEnd k dot) s fun t => t.cores = s.cores ∧ t.mem = s.mem))

/-- Bundles (R263, R264): a syllable without the stop bit waits for the rest of its bundle, and a bundle that names its units out of
order or writes a register twice traps ILLEGAL at its own address, with nothing of it done. Traps and interrupts of a core (R260, R262,
R278 to R281, R284): the entry saves EPC, CAUSE and ESTATUS, masks interrupts and goes to VBASE, or VBASE + 16 for an interrupt; a word
that names no operation traps ILLEGAL, a failed fetch FETCH_ERR, and a failed access that waits traps imprecisely; a trap while EXL is 1
stops a sequencer; a lockstep mismatch stops the Cellar at its next boundary. The commands that complete in it: trapEntry,
interruptEntry, lockstepMismatch. -/
def Obligations.SyoftEntries : Prop :=
  (∀ (s : State) (k : Fin 13) (j : Bool) (d a b : Fin 32) (first : Syl), s.Canonical →
    let c := s.core k.val
    let y : Syl := .alu j .add d a b
    (Ready k.val s → Leads (.add k false j d a b) s fun t =>
      t = { s with cores := s.cores.modify k.val fun c => { c with bundle := [y] } }) ∧
    (s.cores.length = 13 → c.live = true → k.val = 12 ∨ s.stopped = false → c.bundle = [first] → c.hold = .none → c.stopDue = .none →
      c.regs.exl = false → c.mpipe = [] → c.regs.pc.toNat + 1 < progSize k.val →
      y.unit ≤ first.unit ∨ (d ≠ 0 ∧ first.dsts.contains (.g d.val) = true) → Leads (.add k true j d a b) s (Trapped k.val 1 s))) ∧
  (∀ (s : State) (k : Fin 13) (p : Fin 8) (w : BitVec 32) (e : Imprecise) (tl : List Imprecise), s.Canonical → s.cores.length = 13 →
    let c := s.core k.val
    let r := c.regs
    let q := s.core p.val
    let m := s.core 12
    let runs := c.live = true ∧ (k.val = 12 ∨ s.stopped = false) ∧ c.stopDue = .none ∧ r.exl = false ∧ c.mpipe = []
    let entered (code : BitVec 5) (imprecise : Bool) (pc : BitVec 16) (t : State) : Prop :=
      t.core k.val = { c with bundle := [], hold := .none, waited := false, imprecise := (t.core k.val).imprecise, regs := { r with
        epc := r.pc, code := code, imprecise := imprecise, space := (t.core k.val).regs.space, eaddr := (t.core k.val).regs.eaddr,
        estatus := BitVec.ofNat 4 r.status, ie := false, exl := true, lact := false, pc := pc, cycle := r.cycle + 6 } } ∧
      (∀ j, j ≠ k.val → t.core j = s.core j) ∧ t.mem = s.mem
    (runs → c.hold = .none → decodeSyl w = none → Leads (.trapEntry k (.illegal w)) s (Trapped k.val 1 s)) ∧
    ((decodeSyl w).isSome = true → Leads (.trapEntry k (.illegal w)) s (· = s)) ∧
    (runs → c.hold = .none → Leads (.trapEntry k (.fetchErr false)) s (Trapped k.val 2 s)) ∧
    (runs → c.hold = .none → Leads (.trapEntry k (.fetchErr true)) s fun t => Trapped k.val 2 s t ∧
      (k.val < 8 → Counted (F.seqEcc_UE k.val) s t) ∧ (8 ≤ k.val → k.val < 12 → Counted (F.audCoreEcc_UE (k.val - 8)) s t)) ∧
    (runs → c.hold = .none → Leads (.trapEntry k .corrected) s fun t => RegsOnly s t ∧
      (k.val < 8 → Counted (F.seqEcc_CE k.val) s t) ∧ (8 ≤ k.val → k.val < 12 → Counted (F.audCoreEcc_CE (k.val - 8)) s t)) ∧
    (runs → c.hold = .none → c.bundle = [] → c.imprecise = e :: tl → Leads (.trapEntry k .pending) s fun t =>
      entered (BitVec.ofNat 5 e.code) true r.vbase t ∧ (t.core k.val).imprecise = tl ∧
      (t.core k.val).regs.space = BitVec.ofNat 3 e.sp ∧ (t.core k.val).regs.eaddr = BitVec.ofNat 24 e.ea) ∧
    (runs → c.atBoundary = true → c.imprecise = [] ∨ c.hold ≠ .none → r.ie = true →
      s.rd (F.intcCoreState_PRESENTED k.val) = 1 → Leads (.interruptEntry k) s fun t =>
        entered 16 false (r.vbase + 16) t ∧ (t.core k.val).imprecise = c.imprecise) ∧
    (q.live = true → s.stopped = false → q.hold = .none → q.stopDue = .none → q.regs.exl = true → decodeSyl w = none →
      Leads (.trapEntry ⟨p.val, by omega⟩ (.illegal w)) s fun t =>
        t.core p.val = { q with live := false, bundle := [], waited := false, again := false } ∧ t.rd (F.seqStatus_STATE p.val) = 5 ∧
        t.rd (F.seqCtl_RUN p.val) = 0 ∧ t.rd (F.seqStopinfo_CAUSE p.val) = 1 ∧
        t.rd (F.seqStopinfo_EPC p.val) = q.regs.pc.toNat ∧ Pends (504 + p.val) s t) ∧
    (let due : State := { s with cellar := { s.cellar with wdtDue := s.cellar.wdtDue.or (some 2) } }
     (m.live = true → m.atBoundary = true → m.again = false → Leads .lockstepMismatch s fun t => t = { due with
       cores := s.cores.modify 12 fun c => { c with live := false, bundle := [], hold := .none, stopDue := .none } }) ∧
     (m.live = true → m.atBoundary = false → Leads .lockstepMismatch s fun t => t = { due with
       cores := s.cores.modify 12 fun c => { c with stopDue := .halt } }) ∧
     (m.live = false → Leads .lockstepMismatch s (· = s))))

/-- Far accesses of a core (R256, R258, R278, R291): the response of a load of a word's low 24 bits ends the bundle that held for it;
the acknowledgement of a store takes it from the outstanding ones with its bytes written, an error waiting as an imprecise trap while
the core runs; and a sequencer's IRS store is served by its slot before it is acknowledged. The commands that complete in it:
farLoadResponse, farStoreAck, slotWriteServed. -/
def Obligations.SyoftFar : Prop :=
  ∀ (s : State) (k : Fin 13) (p : Fin 8) (g : Fin 32) (at_ : LAddr) (host : List Byte) (f : FarStore) (latency : BitVec 8),
    s.Canonical → s.cores.length = 13 →
    let c := s.core k.val
    let r := c.regs
    let a := at_.far 4 r
    let v : State := { s with casc := { s.casc with blocked := false, ask := none } }
    let w : State := { v with hif := { s.hif with hostIn := host } }
    let read := busRead (coreInitiator k.val) a 4 w
    let written := busWrite (coreInitiator k.val) f.addr f.data v
    let slot := busWrite (.seq p) f.addr f.data s
    let acked (err : Bool) (c : CoreRun) : CoreRun :=
      { c with posted := [], imprecise := if err && c.live then c.imprecise ++ [⟨5, f.sp, f.ea⟩] else c.imprecise }
    (c.hold = .far → c.bundle = [.ld .t g at_ .none .none] → c.blocksLoad a = false → c.stopDue = .none → c.mpipe = [] → r.lact = false →
      1 ≤ at_.sp.val → at_.sp.val ≤ 4 → at_.am = 0 → (at_.ea 4 r).toNat % 4 = 0 → read.2.1 = false → read.2.2.cores = s.cores →
      read.2.2.casc.blocked = false → Leads (.farLoadResponse k host) s fun t => t.mem = read.2.2.mem ∧
        (∀ j, j ≠ k.val → t.core j = s.core j) ∧
        t.core k.val = { c with bundle := [], hold := .none, waited := false, regs :=
          { r.put (.g g.val) (BitVec.ofNat 24 (leNat read.1)) with pc := r.pc + 1, cycle := r.cycle + 1 } }) ∧
    (c.posted = [f] → f.served = false → isSeq k.val = false ∨ isIrs f.addr = false → c.hold = .none → written.2.cores = s.cores →
      written.2.casc.blocked = false → Leads (.farStoreAck k) s fun t =>
        t = { written.2 with cores := s.cores.modify k.val (acked written.1) }) ∧
    (c.posted = [f] → f.served = true → c.hold = .none → Leads (.farStoreAck k) s fun t =>
        t = { v with cores := s.cores.modify k.val (acked f.err) }) ∧
    ((s.core p.val).posted = [f] → f.served = false → isIrs f.addr = true → Leads (.slotWriteServed p latency) s fun t =>
      t = { slot.2 with
        cores := slot.2.cores.modify p.val fun c => { c with posted := [{ f with served := true, err := slot.1 }] },
        pipes := slot.2.pipes.modify p.val fun q => { q with slotLat := max q.slotLat latency.toNat } })

/-- Starting and stopping a sequencer, its watchdog and its doorbell (R286, R287, R299, R301): a start at a frame waits for one; a
commanded stop keeps the core's state, and a start that came after it follows; the watchdog's stop ends in STOPPED_WDT or in a start at
the next frame, as SEQ_WDT_ACTION says. The commands that complete in it: seqLeaveReset, seqHalt, seqlKick, seqlDoorbell, seqWdtExpire.
-/
def Obligations.SequencerControl : Prop :=
  ∀ (s : State) (p : Fin 8) (f : Nat), s.Canonical → s.cores.length = 13 →
    let c := s.core p.val
    (c.armed = some f → c.armFrame = false ∨ s.rd (F.pipeFrames_COUNT p.val) ≠ f → Leads (.seqLeaveReset p) s fun t =>
      t.core p.val = { core0 p.val with posted := c.posted, live := true, regs :=
        { coreRegs0 p.val with pc := BitVec.ofNat 16 (s.rd (F.seqCtl_ENTRY p.val)) } } ∧
      t.rd (F.seqStatus_STATE p.val) = 2 ∧ (∀ j, j ≠ p.val → t.core j = s.core j) ∧ t.mem = s.mem) ∧
    (c.armed = some f → c.armFrame = true → s.rd (F.pipeFrames_COUNT p.val) = f → Leads (.seqLeaveReset p) s (· = s)) ∧
    (c.armed = none → Leads (.seqLeaveReset p) s (· = s)) ∧
    (c.live = true → c.stopDue = .halt → c.atBoundary = true → c.again = true → s.rd (F.seqCtl_START_AT p.val) = 0 →
      Leads (.seqHalt p) s fun t => t.core p.val = { c with
        live := false, bundle := [], hold := .none, stopDue := .none, again := false, armFrame := false
        armed := some (s.rd (F.pipeFrames_COUNT p.val)) } ∧ WroteOnly [F.seqStatus_STATE p.val] s t) ∧
    (c.stopDue ≠ .halt → Leads (.seqHalt p) s (· = s)) ∧
    (c.live = true → c.stopDue = .halt → c.atBoundary = true → c.again = false → Leads (.seqHalt p) s fun t =>
      t.core p.val = { c with live := false, bundle := [], hold := .none, stopDue := .none } ∧
      t.rd (F.seqStatus_STATE p.val) = 0 ∧ t = { s with cells := t.cells, cores := t.cores } ∧
      WroteOnly [F.seqStatus_STATE p.val] s t) ∧
    Leads (.seqlKick p) s (fun t => t = { s with cores := s.cores.modify p.val fun r => { r with wdt := 0 } }) ∧
    Leads (.seqlDoorbell p) s (fun t => Pends (496 + p.val) s t ∧ RaisedOnly [] s t ∧ DeliveryOnly s t) ∧
    (let fires := c.live = true ∧ c.stopDue = .none ∧ s.rd (F.seqWdt_LINES p.val) ≠ 0 ∧ s.rd (F.seqWdt_LINES p.val) ≤ c.wdt
     (fires → c.atBoundary = false → Leads (.seqWdtExpire p) s fun t =>
        t = { s with cores := s.cores.modify p.val fun r => { r with stopDue := .wdt, wdt := 0 } }) ∧
     (fires → c.atBoundary = true → s.rd (F.seqCtl_WDT_ACTION p.val) = 1 → s.rd (F.seqCtl_RUN p.val) = 1 →
      Leads (.seqWdtExpire p) s fun t =>
        t.core p.val = { c with
          live := false, bundle := [], hold := .none, stopDue := .none, wdt := 0, again := false, armFrame := true
          armed := some (s.rd (F.pipeFrames_COUNT p.val)) } ∧
        t.rd (F.seqStatus_STATE p.val) = 1 ∧ Pends (504 + p.val) s t ∧ Counted (F.seqStops_COUNT p.val) s t) ∧
     (fires → c.atBoundary = true → c.again = false → s.rd (F.seqCtl_WDT_ACTION p.val) = 0 → Leads (.seqWdtExpire p) s fun t =>
        t.core p.val = { c with live := false, bundle := [], hold := .none, stopDue := .none, wdt := 0 } ∧
        t.rd (F.seqStatus_STATE p.val) = 4 ∧ t.rd (F.seqCtl_RUN p.val) = 0 ∧ Pends (504 + p.val) s t ∧
        Counted (F.seqStops_COUNT p.val) s t))

/-! ### Audio (R304 to R338) -/

/-- Gains of the crosspoint and of the side-tone paths (R317, R321, R327): the Cellar and the audio cores write a target, which waits;
at the zero crossing, or at the timeout, the gain in use takes its first step towards it. The write of another that reaches the
registers is dropped. The commands that complete in it: xpGainWrite, stGainWrite, gainChangeStart, audZcTimeout. -/
def Obligations.AudioGains : Prop :=
  ∀ (s : State) (who : Initiator) (i o : Fin 128) (side : Fin 2) (st : Option (Fin 2)) (v : BitVec 16) (r : NodeRun) (d : Nat),
    s.Canonical →
    let key := nodeKey i.val o.val (st.map (·.val))
    let target := s.rd (targetFld key)
    let (x, before) := s.nodeIn key
    let begins (t : State) : Prop :=
      (s.nodeRamp key ≤ 1 → t.rd (currentFld key) = target ∧ t.node key = none) ∧
      (2 ≤ s.nodeRamp key → t.rd (currentFld key) = rampGain r.g0 target 1 (s.nodeRamp key) % 2 ^ 16 ∧
        t.node key = some { r with phase := 2, n1 := s.audNow d, ramp := s.nodeRamp key })
    let waits := s.node key = some r ∧ r.phase = 1 ∧ s.nodeDomain key = some d ∧ r.n0 < s.audNow d
    let written (n : Nat) (t : State) : Prop := t.rd (targetFld n) = v.toNat ∧ Only [targetFld n] s { t with aud := s.aud } ∧
      (s.node n = none → t.aud.nodes = s.aud.nodes.filter (fun q => q.key != n) ++ [{ key := n, phase := 0, n0 := 0, n1 := 0, g0 := 0, ramp := 0 }])
    let allowed (off : Nat) : Bool := mayWrite false none true (initiatorTag who) && !s.shutOut who off
    let dropped (t : State) : Prop := Counted F.hifDroppedWr_COUNT s t ∧ Pends 17 s t ∧ t.aud = s.aud
    (reaches who .irs = true → Leads (.xpGainWrite who i o v) s (if allowed (0xA10000 + (o.val * 128 + i.val) * 4) then written (o.val * 128 + i.val) else dropped)) ∧
    (reaches who .irs = true → Leads (.stGainWrite who side v) s (if allowed (0xA003C4 + side.val * 8) then written (16384 + side.val) else dropped)) ∧
    (waits → s.nodeTimeout key = 0 ∨ crossing x before = true → Leads (.gainChangeStart i o st) s fun t => begins t ∧ t.mem = s.mem) ∧
    (waits → s.nodeTimeout key ≠ 0 → crossing x before = false → r.n0 + s.nodeTimeout key ≤ s.audNow d →
      Leads (.audZcTimeout i o st) s fun t => begins t ∧ Counted F.audZcTimeouts_COUNT s t ∧
        (bitAt s.aud.seen 1 = false → Pends 343 s t))

/-- The clocks of the audio domains and the bridges between them (R307, R311, R322, R329): a lost master clock falls back to the
synthesiser and its return takes it again, either unlocking the bridges it feeds; a slave port's slip is counted, and drops or repeats a
frame; a domain latches its sample count once a frame, with the time since the frame start that it latched last as its rate (the model's
reading, log entry 139); and a sample edge counts one (R308). A TDM port loses its frame sync and seeks it again, or locks to it first
(R309, R312, R559). The commands that complete in it: audSampleEdge, audMclkLost, audMclkRestored, asrcLock, asrcUnlock, audPortSlip,
audFrameLatch, tdmFsError, tdmResyncDone, tdmPortSyncAcquired. -/
def Obligations.AudioClocks : Prop :=
  (∀ (s : State) (d : Fin 2) (e : Fin 3) (b : Fin 6) (p : Fin 8) (ratio : BitVec 24) (phase : BitVec 8) (dot : Nat) (tx drop : Bool)
    (rx : List (BitVec 12 × BitVec 24)) (low : List (Fin 8 × BitVec 24)) (starved : BitVec 8), s.Canonical →
    let moved (v : Nat) : Bool := dom v == d.val || (d.val == 0 && dom v == 2)
    let switched (t : State) : Prop := ∀ b : Fin 6, t.rd (F.asrcStatus_LOCKED b.val) =
      if moved (s.rd (F.asrcCtl_SRC_DOM b.val)) || moved (s.rd (F.asrcCtl_DST_DOM b.val)) then 0 else s.rd (F.asrcStatus_LOCKED b.val)
    let lost (t : State) : Prop := t.rd (F.audDomStatus_EXT_ACTIVE d.val) = 0 ∧ t.rd (F.audDomStatus_EXT_LOST d.val) = 1 ∧ Pends 347 s t
    let ofP (l : List (Nat × Int)) : List (Nat × Int) := l.filter fun r => r.1 / 16 == 0x10 + p.val
    let slipped (cur : List (Nat × Int)) (q : List (List (Nat × Int))) : List (List (Nat × Int)) :=
      if drop then q.drop 1 else (ofP cur :: q).take 4
    let v := s.atDot dot
    let at_ : Int := 256 * (v.audNow e.val : Int) - phase.toNat
    let last := v.aud.frameAt.getD e.val 0
    (s.runs 15 = true → s.rd (F.audDomStatus_RUNNING e.val) = 1 → Leads (.audSampleEdge e rx low starved) s fun t =>
      t.audNow e.val = (s.audNow e.val + 1) % 2 ^ 48) ∧
    (s.rd (F.audDomStatus_EXT_ACTIVE d.val) = 1 → Leads (.audMclkLost d) s fun t => lost t ∧ switched t) ∧
    (s.rd (F.audDomStatus_EXT_ACTIVE d.val) = 0 → s.rd (F.audDomCtl_EXT d.val) = 1 → s.rd (F.audDomStatus_EXT_LOST d.val) = 0 →
      Leads (.audMclkLost d) s fun t => lost t ∧ ∀ b : Fin 6, t.rd (F.asrcStatus_LOCKED b.val) = s.rd (F.asrcStatus_LOCKED b.val)) ∧
    (s.rd (F.audDomCtl_EXT d.val) = 1 → s.rd (F.audDomStatus_EXT_ACTIVE d.val) = 0 → Leads (.audMclkRestored d) s fun t =>
      t.rd (F.audDomStatus_EXT_ACTIVE d.val) = 1 ∧ t.rd (F.audDomStatus_EXT_LOST d.val) = 0 ∧ switched t) ∧
    (s.rd (F.asrcCtl_EN b.val) = 1 → Leads (.asrcLock b ratio) s fun t => t.rd (F.asrcStatus_LOCKED b.val) = 1 ∧
      t.rd (F.asrcStatus_RATIO b.val) = ratio.toNat ∧ Only [F.asrcStatus_LOCKED b.val, F.asrcStatus_RATIO b.val] s t) ∧
    (s.rd (F.asrcStatus_LOCKED b.val) = 1 → Leads (.asrcUnlock b) s fun t => t.rd (F.asrcStatus_LOCKED b.val) = 0 ∧
      Counted (F.asrcUnlocks_COUNT b.val) s t ∧ Pends 346 s t ∧ t.aud = s.aud) ∧
    (s.rd (F.tdmCtl_EN p.val) = 1 → s.rd (F.tdmCtl_ROLE p.val) = 1 → Leads (.audPortSlip ⟨p, tx, drop⟩) s fun t =>
      Counted (F.tdmStatus_SLIPS p.val) s t ∧ (bitAt s.aud.seen 2 = false → Pends 344 s t) ∧ t.aud = { s.aud with
        seen := s.aud.seen ||| 4
        txDrop := if tx ∧ drop ∧ s.aud.txFifo.getD p.val [] = [] then setBitsAt s.aud.txDrop p.val 1 1 else s.aud.txDrop
        rxFifo := if tx then s.aud.rxFifo else s.aud.rxFifo.modify p.val (slipped s.aud.rx)
        txFifo := if tx then s.aud.txFifo.modify p.val (slipped s.aud.tx) else s.aud.txFifo }) ∧
    (s.runs 15 = true → Leads (.audFrameLatch e phase dot) s fun t =>
      t.rd (F.audDomFcount_COUNT e.val) = v.audNow e.val ∧ t.rd (F.audDomFcount_PHASE e.val) = phase.toNat ∧
      t.rd (F.audDomFrate_RATE e.val) = (if at_ < last then at_ else at_ - last).toNat % 2 ^ (F.audDomFrate_RATE e.val).width ∧
      t.rd (F.audDomFrate_FRAME e.val) = v.rd F.beamNow_FRAME ∧ t.mem = s.mem)) ∧
  (∀ (s : State) (p : Fin 8), s.Canonical →
    let unit := unitId 6 p.val
    (s.rd (F.tdmCtl_EN p.val) = 1 → s.rd (F.tdmCtl_ROLE p.val) = 1 → s.rd (F.tdmStatus_STATE p.val) = 2 → Fresh unit s →
      Leads (.tdmFsError p) s fun t => Counted (F.tdmErr_FS_ERR p.val) s t ∧ Counted (F.tdmErr_RESYNC p.val) s t ∧
        t.rd (F.tdmStatus_STATE p.val) = 1 ∧ Pends 345 s t ∧ Suspected unit s t) ∧
    ((s.fltUnit unit).retrying = true → Leads (.tdmResyncDone p true) s fun t =>
      t.rd (F.tdmStatus_STATE p.val) = 2 ∧ (t.fltUnit unit).retrying = false ∧ t.aud = s.aud) ∧
    ((s.fltUnit unit).retrying = true → (s.fltUnit unit).attempts = [] → Leads (.tdmResyncDone p false) s fun t =>
      t.rd (F.tdmStatus_STATE p.val) = 1 ∧ (t.fltUnit unit).retrying = true ∧ Counted (F.tdmErr_RESYNC p.val) s t) ∧
    (s.rd (F.tdmCtl_EN p.val) = 1 → s.rd (F.tdmStatus_STATE p.val) = 1 → (s.fltUnit unit).retrying = false →
      Leads (.tdmPortSyncAcquired p) s fun t => t.rd (F.tdmStatus_STATE p.val) = 2 ∧ Only [F.tdmStatus_STATE p.val] s t))

/-- The exchange of an audio core with the fabric (R324, R326, R328, R336): its start, the end of a block, its page's DONE, KICK and
doorbell, its watchdog, and the clip players that it commands (R327, R332 to R334): GO, STOP, the start of a clip and its end. The
commands that complete in it: playGo, playStop, audPlayStart, audPlayDone, audCoreLeaveReset, audBlockBoundary, audlDone, audlKick,
audlDoorbell, audCoreWdtExpire. -/
def Obligations.AudioCores : Prop :=
  ∀ (s : State) (c : Fin 4) (p : Fin 8) (ctl : BitVec 32) (clip : PlayClip), s.Canonical → s.cores.length = 13 → s.aud.cores.length = 4 →
    p.val < s.aud.players.length →
    let open_ := s.shutOut (.audio c) (0xA0040C + p.val * 0x40) = false
    let y := s.player p.val
    let k := 8 + c.val
    let r := s.audCore c.val
    let q := s.core k
    let puts (f : AudCoreRun) (t : State) : Prop := t = { s with aud := { s.aud with cores := s.aud.cores.set c.val f } }
    (open_ → Leads (.playGo (.audio c) p ctl) s fun t => (t.player p.val).armed.isSome = true ∧ (t.player p.val).playing = y.playing) ∧
    (open_ → y.playing.isSome = true → Leads (.playStop (.audio c) p ctl) s fun t => (t.player p.val).stopping = true ∧
      t.rd (F.playCtl_STOP p.val) = 1) ∧
    (y.armed = some clip → s.rd (F.audDomStatus_RUNNING clip.domain) = 1 → clip.enter ≤ s.audNow clip.domain →
      Leads (.audPlayStart p) s fun t => (t.player p.val).armed = none ∧ (clip.len ≠ 0 → Pends 340 s t)) ∧
    (y.last = true → y.finished = false → Leads (.audPlayDone p) s fun t => (t.player p.val).finished = true ∧ Pends (332 + p.val) s t) ∧
    (q.armed.isSome = true → Leads (.audCoreLeaveReset c) s fun t =>
      t.audCore c.val = { on := true, live := true, pos := 0, blocks := 0, done := false, play := false, wdt := 0 } ∧
      t.core k = { core0 k with posted := q.posted, live := true, regs :=
        { coreRegs0 k with pc := BitVec.ofNat 16 (s.rd (F.audCoreEntry_ENTRY c.val)) } } ∧
      t.rd (F.audCoreStatus_STATE c.val) = 2 ∧ t.mem = s.mem) ∧
    (r.on = true → s.blockLen c.val ≤ r.pos → Leads (.audBlockBoundary c) s fun t =>
      t.audCore c.val = { r with pos := 0, blocks := r.blocks + 1, play := r.live && r.done, done := false, on := r.live, wdt := r.wdt + 1 } ∧
      t.mem = s.mem ∧
      (if r.live = true ∧ 1 ≤ r.blocks ∧ r.done = false then
        Counted (F.audCoreErr_LATE c.val) s t ∧ (bitAt s.aud.seen (4 + c.val) = false → Pends (320 + c.val) s t)
       else t.cells = s.cells)) ∧
    (1 ≤ r.blocks → Leads (.audlDone c) s (puts { r with done := true })) ∧
    (r.blocks = 0 → Leads (.audlDone c) s (· = s)) ∧
    Leads (.audlKick c) s (puts { r with wdt := 0 }) ∧
    Leads (.audlDoorbell c) s (fun t => Pends (324 + c.val) s t ∧ RaisedOnly [] s t ∧ DeliveryOnly s t) ∧
    (let fires := q.live = true ∧ q.stopDue = .none ∧ s.rd (F.audCoreWdt_BLOCKS c.val) ≠ 0 ∧ s.rd (F.audCoreWdt_BLOCKS c.val) ≤ r.wdt
     (fires → q.atBoundary = false → Leads (.audCoreWdtExpire c) s fun t => t.audCore c.val = { r with wdt := 0 } ∧
        t = { s with aud := t.aud, cores := s.cores.modify k fun q => { q with stopDue := .wdt } }) ∧
     (fires → q.atBoundary = true → q.again = false → s.rd (F.audCoreCtl_WDT_ACTION c.val) = 0 → Leads (.audCoreWdtExpire c) s fun t =>
        t.core k = { q with live := false, bundle := [], hold := .none, stopDue := .none } ∧ (t.audCore c.val).live = false ∧
        t.rd (F.audCoreStatus_STATE c.val) = 4 ∧ Pends (328 + c.val) s t ∧ Counted (F.audCoreErr_STOPS c.val) s t))

/-- The clip players and the sample edge (R308, R327, R332 to R334): GO arms a clip with the registers as they stand, its first sample
enters at its index, its last ends the playback, STOP ends it at the next sample. The write of one that reaches the registers but may
not write them is dropped. The commands that complete in it: playGo, playStop, audPlayStart, audPlayDone, audSampleEdge. -/
def Obligations.ClipPlayers : Prop :=
  ∀ (s : State) (who : Initiator) (k : Fin 8) (ctl : BitVec 32) (c : PlayClip) (d : Fin 3) (rx : List (BitVec 12 × BitVec 24))
    (low : List (Fin 8 × BitVec 24)) (starved : BitVec 8), s.Canonical → k.val < s.aud.players.length →
    let r := s.player k.val
    let allowed := mayWrite false none true (initiatorTag who) && !s.shutOut who (0xA0040C + k.val * 0x40)
    (reaches who .irs = true → allowed = true → Leads (.playGo who k ctl) s fun t => t.mem = s.mem ∧
      (t.player k.val).playing = r.playing ∧ (t.player k.val).armed.any (fun n =>
        t.rd (F.playSample_INDEX k.val) == n.index % 2 ^ 48 && n == { n with
          addr := s.rd (F.playAddr_ADDR k.val) / 4 * 4, len := s.rd (F.playLen_LEN k.val), start := s.rd (F.playStart_STAMP k.val),
          comp := ctl.getLsbD 2, format := bitsAt ctl.toNat 3 1, domain := dom (bitsAt ctl.toNat 4 2),
          plays := bitsAt ctl.toNat 8 8 }) = true) ∧
    (reaches who .irs = true → allowed = true → r.playing.isSome = true ∨ r.armed.isSome = true → Leads (.playStop who k ctl) s fun t =>
      t.player k.val = { r with stopping := true } ∧ t.rd (F.playCtl_STOP k.val) = 1 ∧ t.mem = s.mem) ∧
    (reaches who .irs = true → allowed = true → r.playing = none → r.armed = none → Leads (.playStop who k ctl) s fun t => t.aud = s.aud) ∧
    (reaches who .irs = true → allowed = false → Leads (.playGo who k ctl) s fun t => Counted F.hifDroppedWr_COUNT s t ∧ t.aud = s.aud) ∧
    (reaches who .irs = true → allowed = false → Leads (.playStop who k ctl) s fun t => Counted F.hifDroppedWr_COUNT s t ∧ t.aud = s.aud) ∧
    (r.armed = some c → s.rd (F.audDomStatus_RUNNING c.domain) = 1 → c.enter ≤ s.audNow c.domain → c.len ≠ 0 →
      Leads (.audPlayStart k) s fun t => Pends 340 s t ∧ (t.player k.val).armed = none ∧
        (((t.player k.val).playing = some c ∧ (t.player k.val).pos = 0 ∧ t.rd (F.playStatus_STATE k.val) = 2 ∧
            t.rd (F.playStatus_ERR k.val) = 0) ∨
          ((t.player k.val).playing = none ∧ t.rd (F.playStatus_ERR k.val) = 1 ∧ Pends 341 s t))) ∧
    (r.armed = some c → s.rd (F.audDomStatus_RUNNING c.domain) = 1 → c.enter ≤ s.audNow c.domain → c.len = 0 →
      Leads (.audPlayStart k) s fun t => Pends (332 + k.val) s t ∧ t.rd (F.playStatus_ERR k.val) = 0) ∧
    (r.last = true → r.finished = false → Leads (.audPlayDone k) s fun t => Pends (332 + k.val) s t ∧ t.mem = s.mem ∧
      t.player k.val = { r with finished := true } ∧ t.rd (F.playStatus_STATE k.val) = (if r.armed.isSome then 1 else 0)) ∧
    (s.runs 15 = true → Leads (.audSampleEdge d rx low starved) s fun t => t.rd (F.audDomStatus_RUNNING d.val) = 1 ∧
      t.audNow d.val = if s.rd (F.audDomStatus_RUNNING d.val) = 0 then 0 else (s.audNow d.val + 1) % 2 ^ 48)

/-! ### The Press (R341 to R360) -/

/-- The control of a Press engine (R343, R345, R347, R349, R353 to R355, R477): a start, by one that reaches the registers, stages and
takes the list's address, is rejected while the engine is not IDLE or cannot be used, or is dropped where it may not write; the arrival
of an entry and its check; NOP; the end of an entry, with its result written where it asks for that, and what follows it; a fetch or a
first read without a response; an abort; and the Cellar's direct write of the budget (R31). The commands that complete in it:
pressStart, pressEntryFetched, pressNop, pressEntryDone, pressTimeout, pressAbort, irsRegWrite. -/
def Obligations.PressControl : Prop :=
  ∀ (s : State) (who : Initiator) (e : Fin 2) (hi : BitVec 8) (lo : Option (BitVec 32)) (c : PressChunk) (q : Nat × Nat)
    (write : Bool) (n m : Nat), s.Canonical → s.pressRuns = true → e.val < s.press.length →
    let r := s.pressOf e.val
    let run (v : State) (f : PressRun) (t : State) : Prop := t = { v with press := v.press.set e.val f }
    let halted (v : State) (reason : Nat) (t : State) : Prop := t.rd (F.pressStatus_STATE e.val) = 0 ∧
      t.rd (F.pressStatus_HALT e.val) = reason ∧ t.rd (F.pressDoneStamp_STAMP e.val) = v.now % 2 ^ 48 ∧
      (t.pressOf e.val).phase = .idle ∧ Pends (224 + e.val) v t ∧ (reason ≠ 1 → Pends (230 + e.val) v t)
    let budget := if s.rd (F.pressBudget_ENTRIES e.val) = 0 then 65535 else s.rd (F.pressBudget_ENTRIES e.val)
    let mayStart := mayWrite true none false (initiatorTag who) = true ∧ (initiatorTag who = .host → s.heldRes 0x80 e.val = false)
    let idle := s.rd (F.pressStatus_STATE e.val) = 0 ∧ s.usable 22 e.val = true
    let entry := memRead (.press e) (s.rd (F.pressCur_ADDR e.val)) 64 s
    let b := entry.1
    let u := entry.2.2
    let result := if pBit r.entry 7 then
        memWrite (.press e) (s.rd (F.pressCur_ADDR e.val) + 0x3C) (natLE 4 (r.status + r.rows * 256)) s else (false, s)
    let v := result.2
    (reaches who .irs = true →
      (mayStart → idle → Leads (.pressStart who e hi lo) s fun t =>
        t.rd (F.pressStatus_STATE e.val) = 1 ∧ t.rd (F.pressEntries_COUNT e.val) = 0 ∧ t.rd (F.pressStatus_HALT e.val) = 0 ∧
        t.rd (F.pressActs_COUNT e.val) = (s.rd (F.pressActs_COUNT e.val) + 1) % 2 ^ 32 ∧
        t.rd (F.pressCur_ADDR e.val) = hi.toNat * 2 ^ 32 + lo.elim (s.rd (F.pressStartLo_ADDR e.val)) BitVec.toNat / 64 * 64 ∧
        t.pressOf e.val = { press0 with phase := .fetch, budget := budget } ∧ t.mem = s.mem) ∧
      (mayStart → ¬idle → Leads (.pressStart who e hi lo) s fun t =>
        Counted (F.pressStatus_START_REJ e.val) s t ∧ Pends (232 + e.val) s t ∧ t.press = s.press) ∧
      (¬mayStart → Leads (.pressStart who e hi lo) s fun t => Counted F.hifDroppedWr_COUNT s t ∧ Pends 17 s t ∧ t.press = s.press)) ∧
    (r.phase = .fetch → entry.2.1 = false → u.press = s.press → Leads (.pressEntryFetched e) s (run u
      { r with entry := b, fetched := r.fetched + 1, status := pCheck b, rows := 0, phase := if pCheck b = 0 then .run else .finish })) ∧
    (r.phase = .fetch → entry.2.1 = true → e.val < u.press.length → u.Canonical → Leads (.pressEntryFetched e) s (halted u 3)) ∧
    (r.phase = .run → pOp r.entry = 0 → Leads (.pressNop e) s (run s
      { r with phase := .finish, status := if r.aborting then 0x30 else 1, rows := 0 })) ∧
    (r.phase = .finish → v.press = s.press → v.Canonical → Leads (.pressEntryDone e) s fun t => t.mem = v.mem ∧
      (result.1 = true → Counted (F.pressStatus_WB_ERR e.val) v t) ∧
      (0x10 ≤ r.status → Counted (F.pressStatus_ERR_ENTRIES e.val) v t) ∧
      (r.aborting = true → halted v 4 t ∧ t.rd (F.pressEntries_COUNT e.val) = v.rd (F.pressEntries_COUNT e.val)) ∧
      (r.aborting = false →
        t.rd (F.pressEntries_COUNT e.val) = (v.rd (F.pressEntries_COUNT e.val) + 1) % 2 ^ 32 ∧
        (pBit r.entry 4 = true → Pends (226 + e.val) v t) ∧
        (pBit r.entry 5 = true → halted v 1 t) ∧
        (pBit r.entry 5 = false → r.budget ≤ r.fetched → halted v 2 t) ∧
        (pBit r.entry 5 = false → r.fetched < r.budget → t.pressOf e.val = { r with phase := .fetch } ∧
          t.rd (F.pressCur_ADDR e.val) =
            (if pBit r.entry 6 then pNext r.entry else s.rd (F.pressCur_ADDR e.val) + 64) % 2 ^ 40))) ∧
    (r.phase = .fetch → Leads (.pressTimeout e write n m) s (halted s 3)) ∧
    (r.phase = .run → (pChunks r.entry)[0]? = some c → (pChunkReads r.entry c)[0]? = some q → Leads (.pressTimeout e false 0 0) s fun t =>
      t.rd (F.pressErr_ADDR e.val) = q.1 % 2 ^ 40 ∧ t.rd (F.pressErr_STATUS e.val) = 0x22 ∧ t.rd (F.pressErr_VALID e.val) = 1 ∧
      Pends (228 + e.val) s t ∧ t.pressOf e.val = { r with phase := .finish, status := 0x22, rows := 0 } ∧ t.mem = s.mem) ∧
    (s.rd (F.pressStatus_STATE e.val) = 1 → r.phase = .fetch → Leads (.pressAbort e) s fun t => halted s 4 t ∧
      Counted (F.pressStatus_ERR_ENTRIES e.val) s t) ∧
    (s.rd (F.pressStatus_STATE e.val) = 1 → r.phase ≠ .fetch → Leads (.pressAbort e) s fun t =>
      t.rd (F.pressStatus_STATE e.val) = 2 ∧ t.rd (F.pressCtl_ABORT e.val) = 1 ∧ t.pressOf e.val = { r with aborting := true } ∧
      t.mem = s.mem) ∧
    (s.rd (F.pressStatus_STATE e.val) ≠ 1 → Leads (.pressAbort e) s (· = s)) ∧
    (s.irsTrimmed (0x80000C + e.val * 0x100) = false →
      Leads (.irsRegWrite .cellar (BitVec.ofNat 24 (0x80000C + e.val * 0x100)) [hi, 0#8, 0#8, 0#8]) s fun t =>
        t.rd (F.pressBudget_ENTRIES e.val) = hi.toNat ∧ Only [F.pressBudget_ENTRIES e.val] s t)

/-- What the six operations of the Press write (R346, R348, R349), over one destination row that lies in one 64-byte line: the bytes of
the destination pixels, in one write, computed from the source pixels read before it; the entry then waits with status 1. The commands
that complete in it: pressFill, pressCopy, pressBlend, pressConvert, pressExpand, pressRotate. -/
def Obligations.PressOperations : Prop :=
  ∀ (s : State) (e : Fin 2) (src old : List Byte) (pixel : Nat → List Byte), s.Canonical → s.pressRuns = true →
    e.val < s.press.length →
    let r := s.pressOf e.val
    let b := r.entry
    let w := pW b
    let sb := pBytes (pSrcFmt b)
    let db := pBytes (pDstFmt b)
    let ends (v t : State) : Prop := t = { v with press := v.press.modify e.val fun r => { r with phase := .finish, status := 1, rows := 1 } }
    let reads (a n : Nat) (d : List Byte) : Prop := a % 64 + n ≤ 64 ∧ d.length = n ∧ memRead (.press e) a n s = (d, false, s)
    let writes (c : Instr) (bytes : List Byte) : Prop :=
      let u := memWrite (.press e) (pDst b) bytes s
      pDst b % 64 + bytes.length ≤ 64 → u.1 = false → Leads c s (ends u.2)
    let row (f : Nat → Px) : List Byte := packRow b ((List.range w).map f)
    let mask (i : Nat) : Bool := bitAt (fieldAt src ((pParam b 16 3 + i) / 8) 1) ((pParam b 16 3 + i) % 8)
    r.phase = .run → r.aborting = false → pCheck b = 0 →
      (pOp b = 1 → pH b = 1 → writes (.pressFill e 0) (row fun _ => wordPx (pFg b))) ∧
      (pOp b = 2 → pH b = 1 → reads (pSrc b) (w * sb) src → writes (.pressCopy e 0) src) ∧
      (pOp b = 3 → pH b = 1 → reads (pSrc b) (w * sb) src → reads (pDst b) (w * db) old → writes (.pressBlend e 0) (row fun i =>
        pBlend b (rowPx b src w i) (directPx (pDstFmt b) (fieldAt old (i * db) db) (pColour b)))) ∧
      (pOp b = 4 → pH b = 1 → reads (pSrc b) (w * sb) src → writes (.pressConvert e 0) (row (rowPx b src w))) ∧
      (pOp b = 5 → pH b = 1 → reads (pSrc b) ((pParam b 16 3 + w + 7) / 8) src →
        ((pParam b 14 1 = 0 ∨ ∀ i, i < w → mask i = true) → writes (.pressExpand e 0)
          ((List.range w).flatMap fun i => packRow b [if mask i then wordPx (pFg b) else wordPx (pBg b)])) ∧
        (pParam b 14 1 = 1 → (∀ i, i < w → mask i = false) → w * db ≤ 64 → Leads (.pressExpand e 0) s (ends s))) ∧
      (pOp b = 6 → w = 1 → (∀ y, y < pH b → (pixel y).length = sb ∧
          memRead (.press e) (pSrc b + y * pSrcStride b) sb s = (pixel y, false, s)) →
        writes (.pressRotate e 0) ((List.range (pH b)).flatMap fun i => pixel (if pParam b 13 1 = 0 then pH b - 1 - i else i)))

/-! ### The DMA engine (R361 to R380) -/

/-- The control of a DMA channel (R366, R370, R374 to R377, R477): a start, by one that reaches the registers, stages and takes the
chain's address, is rejected while the channel is not IDLE or the engine cannot be used, or is dropped where it may not write; a stop, a
deadline, a gate, a fetch with no response; and, of the descriptors themselves, that one fetched is counted and leaves the fetch, and
that a bad one is counted and raised once its STATUS is written (R372). The commands that complete in it: dmaStart, dmaDescFetched,
dmaDescDone, dmaStop, dmaDeadline, dmaGateOpen, dmaTimeout. -/
def Obligations.DmaControl : Prop :=
  ∀ (s : State) (who : Initiator) (n : Fin 64) (hi : BitVec 8) (lo : Option (BitVec 32)) (t0 beats : Nat) (write : Bool) (host : List Byte),
    s.Canonical → s.dmaRuns = true → n.val < s.dma.length →
    let r := s.dmaOf n.val
    let tag := initiatorTag who
    let state := s.rd (F.chStatus_STATE n.val)
    let mayStart := mayWrite true none false tag = true ∧ (tag = .host → s.heldRes 0x90 n.val = false)
    let idle := state = 0 ∧ s.usable 23 0 = true
    let halted (reason : Nat) (t : State) : Prop := t.rd (F.chStatus_STATE n.val) = 0 ∧ t.rd (F.chStatus_HALT n.val) = reason ∧
      t.rd (F.chCtl_STOP n.val) = 0 ∧ t.rd (F.chLastStamp_STAMP n.val) = s.now % 2 ^ 48 ∧
      t.dmaOf n.val = { r with phase := .idle, deadline := none } ∧ Pends (256 + n.val) s t ∧ t.mem = s.mem
    (reaches who .irs = true →
      (mayStart → idle → Leads (.dmaStart who n hi lo) s fun t =>
        t.rd (F.chStatus_STATE n.val) = 1 ∧ t.rd (F.chStatus_HALT n.val) = 0 ∧ t.rd (F.chFetched_COUNT n.val) = 0 ∧
        t.rd (F.chStatus_TAG n.val) = (match tag with | .cellar => 1 | .peer => 2 | _ => 0) ∧
        t.rd (F.chCur_ADDR n.val) = hi.toNat * 2 ^ 32 + lo.elim (s.rd (F.chStartLo_ADDR n.val)) BitVec.toNat / 32 * 32 ∧
        (t.dmaOf n.val).phase = .fetch ∧ (t.dmaOf n.val).budget = s.rd (F.chBudget_ENTRIES n.val) ∧
        ((t.dmaOf n.val).deadline = none ↔ s.rd (F.chDeadline_LINES n.val) = 0) ∧ t.mem = s.mem) ∧
      (mayStart → ¬idle → Leads (.dmaStart who n hi lo) s fun t =>
        Counted (F.chStatus_START_REJ n.val) s t ∧ Pends (256 + n.val) s t ∧ t.dma = s.dma) ∧
      (¬mayStart → Leads (.dmaStart who n hi lo) s fun t => Counted F.hifDroppedWr_COUNT s t ∧ Pends 17 s t ∧ t.dma = s.dma)) ∧
    (let who := s.dmaWho n.val
     let a := s.rd (F.chCur_ADDR n.val)
     let w : State := { s with casc := { s.casc with blocked := false, ask := none }, hif := { s.hif with hostIn := host } }
     let f0 := dmaReadBeat who a w
     let f1 := dmaReadBeat who ((a + 16) % 2 ^ 40) f0.2.2
     let v := f1.2.2
     let x := (busWrite who ((a + 0x15) % 2 ^ 40) [BitVec.ofNat 8 r.status] w).2
     (r.phase = .fetch → f0.2.1 = none → f1.2.1 = none → f0.2.2.rd (F.chStatus_TAG n.val) = s.rd (F.chStatus_TAG n.val) → v.dma = s.dma →
        v.casc.blocked = false → v.Canonical → Leads (.dmaDescFetched n host) s fun t =>
          (t.dmaOf n.val).desc = f0.1 ++ f1.1 ∧ (t.dmaOf n.val).phase ≠ .fetch ∧ Counted (F.chFetched_COUNT n.val) v t ∧ t.mem = v.mem) ∧
     (r.phase = .finish → 0x10 ≤ r.status → x.dma = s.dma → x.casc.blocked = false → x.Canonical → x.rd (F.chStatus_STATE n.val) = 1 →
        Leads (.dmaDescDone n host) s fun t => t.rd (F.chBad_COUNT n.val) = (x.rd (F.chBad_COUNT n.val) + 1) % 2 ^ (F.chBad_COUNT n.val).width ∧
          t.rd (F.chDone_COUNT n.val) = x.rd (F.chDone_COUNT n.val) ∧ Pends (256 + n.val) x t ∧ t.mem = x.mem)) ∧
    (r.phase = .fetch ∨ r.phase = .gate → Leads (.dmaStop n) s (halted 2)) ∧
    (r.phase = .move ∨ r.phase = .finish → Leads (.dmaStop n) s fun t =>
      t.rd (F.chStatus_STATE n.val) = 3 ∧ t.rd (F.chCtl_STOP n.val) = 1 ∧ Only [F.chStatus_STATE n.val, F.chCtl_STOP n.val] s t) ∧
    (r.deadline = some t0 → reached t0 s.now = true → state ≠ 0 → Leads (.dmaDeadline n) s fun t =>
      Counted (F.chFetched_MISSES n.val) s t ∧ Pends (256 + n.val) s t ∧ t.dmaOf n.val = { r with deadline := none }) ∧
    (r.phase = .gate → reached r.gate s.now = true → Leads (.dmaGateOpen n) s fun t =>
      t.rd (F.chStatus_STATE n.val) = 1 ∧ t.mem = s.mem ∧
      t.dmaOf n.val = (if dmaLen r.desc = 0 then { r with phase := .finish, status := 2 } else { r with phase := .move, status := 1 })) ∧
    (r.phase = .gate → reached r.gate s.now = false → Leads (.dmaGateOpen n) s (· = s)) ∧
    (r.phase = .fetch → Leads (.dmaTimeout n write beats host) s fun t => halted 4 t ∧
      t.rd (F.chCur_ADDR n.val) = (s.rd (F.chCur_ADDR n.val) + 16 * min beats 1) % 2 ^ 40)

/-- A descriptor (R362, R365, R367 to R376): fetched in two beats and checked, it waits for its gate, is bad, has no data, or moves its
data; a fetch that fails loses the chain; a move of one beat reads the source, writes the destination, writes the STATUS byte, counts,
and goes on or halts; one of a channel that is to stop halts once its STATUS is written. The commands that complete in it:
dmaDescFetched, dmaDescDone. -/
def Obligations.DmaDescriptors : Prop :=
  ∀ (s : State) (n : Fin 64) (host : List Byte), s.Canonical → s.dmaRuns = true → n.val < s.dma.length →
    let r := s.dmaOf n.val
    let who := s.dmaWho n.val
    let a := s.rd (F.chCur_ADDR n.val)
    let w : State := { s with casc := { s.casc with blocked := false, ask := none }, hif := { s.hif with hostIn := host } }
    let same (v : State) : Prop := v.dma = s.dma ∧ v.rd (F.chStatus_TAG n.val) = s.rd (F.chStatus_TAG n.val) ∧ v.rd (F.chCur_ADDR n.val) = a
    let f0 := dmaReadBeat who a w
    let f1 := dmaReadBeat who ((a + 16) % 2 ^ 40) f0.2.2
    let v := f1.2.2
    let d := f0.1 ++ f1.1
    let fetched := r.phase = .fetch ∧ f0.2.1 = none ∧ f1.2.1 = none ∧ same f0.2.2 ∧ same v ∧ v.casc.blocked = false ∧ v.Canonical
    let check := dmaCheck v.ref.setting.lines d
    let now (p : DmaRun → DmaRun) (t : State) : Prop := t.dmaOf n.val = p { r with desc := d } ∧ Counted (F.chFetched_COUNT n.val) v t ∧
      t.mem = v.mem
    let src := (dmaSrc r.desc).beat 0
    let dst := (dmaDst r.desc).beat 0
    let read := dmaReadBeat who src w
    let written := dmaWriteBeat who dst read.1 read.2.2
    let fin := busWrite who ((a + 0x15) % 2 ^ 40) [BitVec.ofNat 8 r.status] written.2
    let x := fin.2
    (r.phase = .fetch → f0.2.1 ≠ none → f0.2.2.casc.blocked = false → f0.2.2.dma = s.dma → f0.2.2.Canonical →
      Leads (.dmaDescFetched n host) s fun t => t.rd (F.chStatus_STATE n.val) = 0 ∧ t.rd (F.chStatus_HALT n.val) = 4 ∧
        some (t.rd (F.chCur_ADDR n.val)) = f0.2.1.map (· % 2 ^ 40) ∧ Pends (256 + n.val) f0.2.2 t ∧ (t.dmaOf n.val).phase = .idle) ∧
    (fetched → check = none → dmaFlag d 3 = false → Leads (.dmaDescFetched n host) s fun t =>
      now (fun r => { r with phase := .move, status := 1 }) t ∧ t.rd (F.chStatus_STATE n.val) = 1) ∧
    (fetched → check = some 2 → dmaFlag d 3 = false → Leads (.dmaDescFetched n host) s fun t =>
      now (fun r => { r with phase := .finish, status := 2 }) t ∧ t.rd (F.chStatus_STATE n.val) = 1) ∧
    (fetched → check = none ∨ check = some 2 → dmaFlag d 3 = true → Leads (.dmaDescFetched n host) s fun t =>
      now (fun r => { r with phase := .gate, gate := v.nextLineStart (dmaGateLine d) }) t ∧ t.rd (F.chStatus_STATE n.val) = 2) ∧
    (fetched → check ≠ none → check ≠ some 2 → Leads (.dmaDescFetched n host) s fun t =>
      now (fun r => { r with phase := .finish, status := check.getD 0 }) t ∧ t.rd (F.chErr_ADDR n.val) = a ∧
      some (t.rd (F.chErr_STATUS n.val)) = check ∧ t.rd (F.chErr_VALID n.val) = 1) ∧
    (r.phase = .move → dmaLen r.desc = 16 → read.2.1 = none → written.1 = none → same written.2 → x.dma = s.dma → x.Canonical →
      x.casc.blocked = false → x.rd (F.chStatus_STATE n.val) = 3 → r.status < 0x10 →
      Leads (.dmaDescDone n host) s fun t => t.mem = x.mem ∧ t.rd (F.chStatus_STATE n.val) = 0 ∧ t.rd (F.chStatus_HALT n.val) = 2 ∧
        t.rd (F.chDone_COUNT n.val) = x.rd (F.chDone_COUNT n.val) ∧ t.rd (F.chLastStamp_STAMP n.val) = x.now % 2 ^ 48 ∧
        Pends (256 + n.val) x t ∧ (t.dmaOf n.val).phase = .idle ∧ (fin.1 = true → Counted (F.chBad_WB_ERR n.val) x t)) ∧
    (r.phase = .move → dmaLen r.desc = 16 → read.2.1 = none → written.1 = none → same written.2 → x.dma = s.dma → x.Canonical →
      x.casc.blocked = false → x.rd (F.chStatus_STATE n.val) = 1 → r.status < 0x10 →
      Leads (.dmaDescDone n host) s fun t => t.mem = x.mem ∧
        t.rd (F.chDone_COUNT n.val) = (x.rd (F.chDone_COUNT n.val) + 1) % 2 ^ 32 ∧
        t.rd (F.chLastStamp_STAMP n.val) = x.now % 2 ^ 48 ∧
        (fin.1 = true → Counted (F.chBad_WB_ERR n.val) x t) ∧
        (dmaFlag r.desc 1 = true → Pends (256 + n.val) x t) ∧
        (dmaFlag r.desc 0 = true → t.rd (F.chStatus_STATE n.val) = 0 ∧ t.rd (F.chStatus_HALT n.val) = 1 ∧
          Pends (256 + n.val) x t ∧ (t.dmaOf n.val).phase = .idle) ∧
        (dmaFlag r.desc 0 = false → r.budget ≠ 0 → r.budget ≤ x.rd (F.chFetched_COUNT n.val) →
          t.rd (F.chStatus_STATE n.val) = 0 ∧ t.rd (F.chStatus_HALT n.val) = 3 ∧ (t.dmaOf n.val).phase = .idle) ∧
        (dmaFlag r.desc 0 = false → r.budget = 0 → t.dmaOf n.val = { r with phase := .fetch } ∧
          t.rd (F.chCur_ADDR n.val) = dmaNext r.desc % 2 ^ 40 ∧ t.rd (F.chStatus_STATE n.val) = 1))

/-! ### Timers (R383 to R398) -/

/-- The count of a timer and its events (R383, R384, R388, R390, R391, R395, R397), where at most one timer counts another's wraps or
events (software's start, stop, accesses of the count, of the compare and of the capture are here as far as they touch one register;
R393, R398): the wrap of a free timer, with the tick of the timer chained to it and that of its CLOCK slave; its armed compare, a
capture, and the restarts of a slave and of a locked timer. The commands that complete in it: timerStart, timerStop, timerCountWrite,
timerCmpWrite, timerCountRead, timerCaptureRead, timerWrap, timerCompare, timerCapture, timerSlaveRestart, timerLineRestart. -/
def Obligations.TimerEvents : Prop :=
  ∀ (s : State) (n j : Fin 64) (ticks : BitVec 32) (mask : BitVec 64) (v : Nat), s.Canonical → j.val < s.timers.runs.length →
    (∀ m : Fin 64, (s.timer m.val).tickDue = false ∧ (m ≠ j → s.timerSlave m.val ≠ 3 ∧ s.rd (F.timerCtl_SRC m.val) ≠ 9)) →
    let r := s.timer n.val
    let count := s.rd (F.timerCount_COUNT n.val)
    let top := s.rd (F.timerReload_VALUE n.val)
    let free := s.timerFree n.val = true ∧ s.timerCounts n.val = true
    let k := (s.pipe (s.rd (F.timerLock_PIPE n.val))).linesSent - r.lockBase
    let irq (ev : Nat) (t : State) : Prop := bitAt (s.rd (F.timerCapctl_IRQ n.val)) ev = true → Pends (352 + n.val) s t
    let up (f : Fld) (t : State) : Prop := t.rd f = (s.rd f + 1) % 2 ^ f.width
    Leads (.timerStart mask) s (fun t => ∀ m : Fin 64, m ≠ j → mask.getLsbD m.val = true → t.rd (F.timerCtl_EN m.val) = 1) ∧
    Leads (.timerStop mask) s (fun t => ∀ m : Fin 64, mask.getLsbD m.val = true → t.rd (F.timerCtl_EN m.val) = 0) ∧
    (s.timerCounts n.val = false → Leads (.timerCountWrite n ticks) s fun t =>
      t.rd (F.timerCount_COUNT n.val) = ticks.toNat ∧ t.mem = s.mem) ∧
    Leads (.timerCmpWrite n ticks) s (fun t => t.rd (F.timerCmp_VALUE n.val) = ticks.toNat ∧ t.mem = s.mem) ∧
    (s.timerFree n.val = false → s.timers.last = [] → Leads (.timerCountRead .cellar n ticks) s fun t => t.lastRead = count ∧ t.cells = s.cells) ∧
    Leads (.timerCaptureRead .cellar n .low) s (fun t => t.lastRead = s.rd (F.timerCapture_VALUE n.val) ∧ t.cells = s.cells) ∧
    (free → top ≤ count → Leads (.timerWrap n ticks) s fun t => t.rd (F.timerCount_COUNT n.val) = 0 ∧ up (F.timerEvents_OVF n.val) t ∧
      irq 0 t ∧ t.mem = s.mem) ∧
    (free → top ≤ count → (s.rd (F.timerCtl_SRC j.val) = 9 ∧ s.timerSlave j.val ≠ 3 ∧ j.val = n.val + 1) ∨
        (s.timerSlave j.val = 3 ∧ s.rd (F.timerCtl_MASTER j.val) = n.val ∧ s.rd (F.timerCtl_MEVT j.val) = 0 ∧ j ≠ n) →
      s.timerCounts j.val = true → Leads (.timerWrap n ticks) s fun t =>
        let c := s.rd (F.timerCount_COUNT j.val)
        if c < s.rd (F.timerReload_VALUE j.val) then t.rd (F.timerCount_COUNT j.val) = c + 1 else
          t.rd (F.timerCount_COUNT j.val) = 0 ∧ up (F.timerEvents_OVF j.val) t) ∧
    (free → count < r.cmp → r.cmp ≤ min (count + ticks.toNat) top → s.rd (F.timerStatus_ARMED n.val) = 1 →
      Leads (.timerCompare n ticks) s fun t => t.rd (F.timerCount_COUNT n.val) = r.cmp ∧ t.rd (F.timerStatus_ARMED n.val) = 0 ∧
        up (F.timerEvents_CMP n.val) t ∧ irq 1 t ∧ t.mem = s.mem) ∧
    (free → count < top → s.rd (F.timerStatus_ARMED n.val) = 0 → Leads (.timerCompare n ticks) s fun t =>
      t.rd (F.timerCount_COUNT n.val) = min (count + ticks.toNat) top ∧ Only [F.timerCount_COUNT n.val] s t) ∧
    (s.timerFree n.val = false → r.captureDue = none → Leads (.timerCapture n ticks) s (· = s)) ∧
    (s.timerFree n.val = false → r.captureDue = some v → Leads (.timerCapture n ticks) s fun t =>
      t.rd (F.timerCapture_VALUE n.val) = v % 2 ^ 32 ∧ t.rd (F.timerCapture_PEND n.val) = 1 ∧ irq 2 t ∧
      (s.rd (F.timerCapture_PEND n.val) = 1 → t.rd (F.timerCapture_OVF n.val) = 1 ∧ irq 3 t) ∧ (t.timer n.val).captureDue = none ∧ t.rd (F.timerCount_COUNT n.val) = count) ∧
    (s.timerSlave n.val = 2 → r.restartDue = true → s.rd (F.timerCtl_EN n.val) = 1 → Leads (.timerSlaveRestart n) s fun t =>
      t.rd (F.timerCount_COUNT n.val) = 0 ∧ t.rd (F.timerEvents_OVF n.val) = s.rd (F.timerEvents_OVF n.val) ∧ t.mem = s.mem) ∧
    (n ≠ j → s.rd (F.timerLock_EN n.val) = 1 → k ≠ r.lockSeen →
      k % max 1 (s.rd (F.timerLock_LINE_DIV n.val)) = 0 → s.rd (F.timerCtl_EN n.val) = 1 → Leads (.timerLineRestart n) s fun t =>
        t.rd (F.timerCount_COUNT n.val) = 0 ∧ t.rd (F.timerEvents_OVF n.val) = s.rd (F.timerEvents_OVF n.val) ∧ t.mem = s.mem)

/-- What software does to the timers (R387, R388, R391, R393, R398), where none counts another's events: a start and a stop of several,
writes of the count and of the compare, with the tick of that cclk where the timer counts cclk, and, by one that reaches the registers,
reads of the count through a chain's shadows and reads of the capture. The commands that complete in it: timerStart, timerStop,
timerCountWrite, timerCmpWrite, timerCountRead, timerCaptureRead. -/
def Obligations.TimerAccesses : Prop :=
  ∀ (s : State) (who : Initiator) (n l : Fin 64) (mask : BitVec 64) (v : BitVec 32) (held : Nat), s.Canonical →
    (∀ m : Fin 64, s.timerSlave m.val ≠ 3 ∧ (s.timer m.val).tickDue = false) → n.val < s.timers.runs.length →
    let tag := initiatorTag who
    let r := s.timer n.val
    let count := s.rd (F.timerCount_COUNT n.val)
    let value := s.rd (F.timerCapture_VALUE n.val)
    let flags := s.rd (F.timerCapture_PEND n.val) + 2 * s.rd (F.timerCapture_OVF n.val)
    let top := s.rd (F.timerReload_VALUE n.val)
    let counts := s.rd (F.timerCtl_SRC n.val) = 1 ∧ s.timerCounts n.val = true
    let after (c : Nat) : Nat := if counts then (if c < top then c + 1 else 0) else c
    let cmp := if counts ∧ top ≤ v.toNat ∧ s.rd (F.timerStatus_CMP_PEND n.val) = 1 then s.rd (F.timerCmp_VALUE n.val) else r.cmp
    let fires := (after v.toNat + 2 ^ 32 - cmp) % 2 ^ 32 < 2 ^ 31
    let cleared (q : Nat) (t : State) : Prop := t.lastRead = q ∧ t.rd (F.timerCapture_PEND n.val) = 0 ∧
      t.rd (F.timerCapture_OVF n.val) = 0 ∧ WroteOnly [F.timerCapture_PEND n.val, F.timerCapture_OVF n.val] s t ∧
      t = { s with cells := t.cells, lastRead := t.lastRead }
    Leads (.timerStart mask) s (fun t => ∀ m : Fin 64, if mask.getLsbD m.val then
        t.rd (F.timerCtl_EN m.val) = 1 ∧ t.rd (F.timerCount_COUNT m.val) = 0
      else t.rd (F.timerCtl_EN m.val) = s.rd (F.timerCtl_EN m.val) ∧ t.rd (F.timerCount_COUNT m.val) = s.rd (F.timerCount_COUNT m.val)) ∧
    Leads (.timerStop mask) s (fun t => RegsOnly s t ∧ WroteOnly ((List.range 64).map F.timerCtl_EN) s t ∧
      ∀ m : Fin 64, t.rd (F.timerCtl_EN m.val) = if mask.getLsbD m.val then 0 else s.rd (F.timerCtl_EN m.val)) ∧
    Leads (.timerCountWrite n v) s (fun t => t.rd (F.timerCount_COUNT n.val) = after v.toNat ∧ t.mem = s.mem ∧
      t.rd (F.timerStatus_ARMED n.val) = (if fires then 0 else 1) ∧
      t.rd (F.timerEvents_CMP n.val) = if fires then (s.rd (F.timerEvents_CMP n.val) + 1) % 2 ^ (F.timerEvents_CMP n.val).width
        else s.rd (F.timerEvents_CMP n.val)) ∧
    Leads (.timerCmpWrite n v) s (fun t => t.rd (F.timerCmp_VALUE n.val) = v.toNat ∧
      (s.rd (F.timerCtl_CMP_SYNC n.val) = 1 → t.rd (F.timerStatus_CMP_PEND n.val) = 1 ∧
        Only [F.timerCmp_VALUE n.val, F.timerStatus_CMP_PEND n.val] s t) ∧
      (s.rd (F.timerCtl_CMP_SYNC n.val) = 0 → (t.timer n.val).cmp = v.toNat ∧
        t.rd (F.timerCount_COUNT n.val) = if r.cmp = v.toNat then count else after count)) ∧
    (reaches who .irs = true → s.timerFree n.val = false → (s.timers.last.find? fun l => l.1 == tag) = none → Leads (.timerCountRead who n v) s fun t =>
      t.lastRead = count ∧ t.cells = s.cells ∧ ∀ m ∈ s.chainAbove n.val, (tag, m, s.rd (F.timerCount_COUNT m)) ∈ t.timers.shadows) ∧
    (reaches who .irs = true → s.timerFree n.val = false → (s.timers.last.find? fun l => l.1 == tag) = some (tag, l.val) → l.val < n.val →
      n.val ∈ s.chainAbove l.val → (s.timers.shadows.find? fun x => x.1 == tag && x.2.1 == n.val) = some (tag, n.val, held) →
      Leads (.timerCountRead who n v) s fun t => t.lastRead = held ∧ t.cells = s.cells) ∧
    (reaches who .irs = true →
      Leads (.timerCaptureRead who n .low) s (fun t => t = { s with lastRead := value }) ∧
      Leads (.timerCaptureRead who n .high) s (cleared flags) ∧
      Leads (.timerCaptureRead who n .whole) s (cleared (value + flags * 2 ^ 32)))

/-! ### The interrupt controller (R401 to R411, R621) -/

/-- The enable and pending registers (R404, R405): the Cellar's ones act on every source, the host's on host-targeted ones, and what is
not for the writer, of those that reach the registers, is a dropped write; a cleared level source that is still asserted becomes pending
again. MSI-X (R408, R621): coming into use it sends or keeps one message for each asserted vector and releases INT_N; unmasking sends a
kept message whose vector is still asserted; leaving use, INT_N follows the asserted vectors. The commands that complete in it:
intcEnSet, intcEnClr, intcPendSet, intcPendClr, msixEnable, msixUnmask, msixDisable. -/
def Obligations.Interrupts : Prop :=
  (∀ (s : State) (who : Initiator) (g : Fin 16) (bits : BitVec 32), s.Canonical → reaches who .irs = true →
    let tag := initiatorTag who
    let named (n : Nat) : Bool := n / 32 == g.val && bits.getLsbD (n % 32)
    let shut := s.shutOut who (IntcReg.off .enSet g.val)
    let mine (n : Nat) : Bool := !shut && (tag == .cellar || (tag == .host && s.rd (F.intcTgt_DEST n) == 1))
    let acts (n : Nat) : Bool := named n && mine n && srcAssigned n
    let all := shut = false ∧ (tag = .cellar ∨ tag = .host) ∧ ∀ n, named n = true → mine n = true
    let drops (t : State) : Prop := ¬ all → Counted F.hifDroppedWr_COUNT s t ∧ Pends 17 s t
    Leads (.intcEnSet who g bits) s (fun t => drops t ∧ (all → RaisedOnly [F.intcEnSet_SRC g.val] s t ∧ DeliveryOnly s t) ∧
      ∀ n : Fin 512, t.isEnabled n.val = (s.isEnabled n.val || acts n.val)) ∧
    Leads (.intcEnClr who g bits) s (fun t => drops t ∧ (all → RaisedOnly [F.intcEnSet_SRC g.val] s t ∧ DeliveryOnly s t) ∧
      ∀ n : Fin 512, t.isEnabled n.val = (s.isEnabled n.val && !acts n.val)) ∧
    Leads (.intcPendSet who g bits) s (fun t => drops t ∧ (all → RaisedOnly [] s t ∧ DeliveryOnly s t) ∧
      (∀ n : Fin 512, acts n.val = true → Pends n.val s t) ∧
      (all → ∀ n : Fin 512, s.rd (F.intcTgt_DEST n.val) ≠ 3 → t.isPending n.val = (s.isPending n.val || acts n.val))) ∧
    Leads (.intcPendClr who g bits) s (fun t => drops t ∧ (all → RaisedOnly [] s t ∧ DeliveryOnly s t) ∧
      (all → ∀ n : Fin 512, s.rd (F.intcTgt_DEST n.val) ≠ 3 → t.isPending n.val =
        if acts n.val then s.rd (F.intcTgt_DEST n.val) == 1 && srcLevel n.val && s.isRaw n.val else s.isPending n.val))) ∧
  (∀ (s : State) (masked : BitVec 64) (function : Bool) (table : List (BitVec 64 × BitVec 32)) (v : Fin 64), s.Canonical →
    let asserted (n : Nat) : Bool := bitAt (s.rd F.intcHvecAssert_VEC) n
    let unmasked : State := { s with intc := { s.intc with msixMasked := s.intc.msixMasked &&& ~~~ BitVec.ofNat 64 (2 ^ v.val) } }
    let taken : State := { unmasked with intc := { unmasked.intc with pba := s.intc.pba &&& ~~~ BitVec.ofNat 64 (2 ^ v.val) } }
    (s.rd F.intcHostMode_MSIX = 0 → Leads (.msixEnable ⟨masked, table⟩ function) s fun t =>
      t.rd F.intcHostMode_MSIX = 1 ∧ t.rd F.intcHostMode_INT_N = 0 ∧ t.intc.msixMasked = masked ∧ t.intc.functionMask = function ∧ t.intc.msixTable = table ∧
      ∀ n : Fin 64, asserted n.val = true → if function || masked.getLsbD n.val then t.intc.pba.getLsbD n.val = true
        else .msix n.val (table.getD n.val (0, 0)) ∈ t.hif.out ∧ t.intc.pba.getLsbD n.val = false) ∧
    (s.intc.pba.getLsbD v.val = false ∨ s.intc.functionMask = true → Leads (.msixUnmask (some v)) s (· = unmasked)) ∧
    (s.intc.pba.getLsbD v.val = true → s.intc.functionMask = false → Leads (.msixUnmask (some v)) s (· =
      if s.rd F.intcHostMode_MSIX = 1 ∧ asserted v.val then { taken with hif := { s.hif with out := .msix v.val (s.intc.msixTable.getD v.val (0, 0)) :: s.hif.out } } else taken)) ∧
    (s.intc.pba = 0 → Leads (.msixUnmask none) s (· = { s with intc := { s.intc with functionMask := false } })) ∧
    Leads .msixDisable s (fun t => t.rd F.intcHostMode_MSIX = 0 ∧ t.rd F.intcHostMode_INT_N = intNOf (t.rd F.intcHvecAssert_VEC) ∧
      RaisedOnly [F.intcHostMode_MSIX] s t ∧ DeliveryOnly s t))

/-! ### Mailboxes and requests (R415 to R435) -/

/-- A mailbox's registers and its ring (R421, R424, R425, R429, R431, R433, R434, R443, R525): a doorbell, also of an opcode that is not
served, a write of HEAD, the age limit of moderation, and the entry that NOP's completion writes. The commands that complete in it:
mbxDoorbell, mbxHeadWrite, mbxModTimeout, nop. -/
def Obligations.MailboxRegisters : Prop :=
  ∀ (s : State) (via : Via) (m : Fin 16) (n : Fin 4) (head : BitVec 9) (err : Bool) (r : Rung) (st d : Nat), s.Canonical →
    let host := via = .pcie ∨ via = .xspi
    let tail := s.rd (F.mbxStatus_TAIL m.val)
    let allowed := ∀ k : Fin 4, via = .peer k → bitAt (s.prm P.cascPeerMbx) m.val = true
    (allowed → s.rd (F.mbxStatus_STATE m.val) ≠ 1 → s.hif.rung = [] → opcodeServed (s.reqOpcode m.val) = true →
      Leads (.mbxDoorbell via m) s fun t => t.rd (F.mbxStatus_STATE m.val) = 1 ∧ t.hif.rung = [⟨m.val, via, false, none⟩] ∧
        (host → t.rd F.svcStatus_HOST_PRESENT = 1) ∧ t = { s with cells := t.cells, hif := { s.hif with rung := t.hif.rung } }) ∧
    (allowed → s.rd (F.mbxStatus_STATE m.val) ≠ 1 → s.hif.rung = [] → opcodeServed (s.reqOpcode m.val) = false → s.serves = true →
      RingReady m.val s → Leads (.mbxDoorbell via m) s fun t => t.hif.rung = [] ∧
        (s.refuses (s.reqOpcode m.val) = none → Answered m.val (s.reqOpcode m.val) St.badOpcode 0 [] s t) ∧
        (s.refuses (s.reqOpcode m.val) = some (st, d) → st ≠ St.busySelftest → Answered m.val (s.reqOpcode m.val) st d [] s t)) ∧
    (allowed → s.rd (F.mbxStatus_STATE m.val) ≠ 1 → s.hif.rung = [] → s.serves = false → Leads (.mbxDoorbell via m) s fun t =>
      t.rd (F.mbxStatus_STATE m.val) = 1 ∧ t.hif.rung = [⟨m.val, via, false, none⟩] ∧ t.mem = s.mem) ∧
    (allowed → s.rd (F.mbxStatus_STATE m.val) = 1 → Leads (.mbxDoorbell via m) s fun t =>
      Counted (F.mbxCounts_DB_REJ m.val) s t ∧ Pends 19 s t ∧ t.hif.rung = s.hif.rung) ∧
    (bitAt (s.prm P.cascPeerMbx) m.val = false → Leads (.mbxDoorbell (.peer n) m) s fun t =>
      Counted F.hifDroppedWr_COUNT s t ∧ t.hif.rung = s.hif.rung) ∧
    (256 < (tail + 512 - head.toNat) % 512 → Leads (.mbxHeadWrite m head err) s fun t =>
      Counted (F.mbxCounts_BAD_HEAD m.val) s t ∧ Only [F.mbxCounts_BAD_HEAD m.val] s t) ∧
    ((tail + 512 - head.toNat) % 512 ≤ 256 → s.heldOf m.val = [] → Leads (.mbxHeadWrite m head err) s fun t =>
      t.rd (F.mbxHeadDb_HEAD m.val) = head.toNat ∧ Only [F.mbxHeadDb_HEAD m.val, F.mbxStatus_HELD m.val] s t) ∧
    (s.hif.ageOn.contains m.val = true → s.unnotified m.val ≠ 0 → s.asleep = false → Leads (.mbxModTimeout m) s fun t =>
      Pends m.val s t ∧ t.unnotified m.val = 0 ∧ t.rd (F.mbxStatus_UNNOTIFIED m.val) = 0 ∧ t.hif.ageOn.contains m.val = false ∧
      t.mem = s.mem) ∧
    (Asked m.val 0x00 r s → Leads (.nop m) s fun t => Answered m.val 0x00 St.ok 0 [] s t ∧ t.hif.rung = [] ∧
      t.rd (F.mbxStatus_TAIL m.val) = (tail + 1) % 512 ∧
      t.bytesAt (ringArea m.val + tail % 256 * 16) 16 = natLE 4 (s.req m.val 4 4) ++
        natLE 4 (m.val * 2 ^ 8 + (if tail < 256 then 2 ^ 15 else 0)) ++ natLE 6 s.now ++ natLE 2 0 ∧
      (s.unnotified m.val + 1 ≥ max 1 (s.prm (P.modCount m.val)) ∨ s.prm (P.modTime m.val) = 0 → Pends m.val s t))

/-- The requests for information and for parameters, and SAFE_WRITE (R424 to R430, R472, R582): what each answers, and what it changes;
and the refusal of every request that the present state does not serve. The commands that complete in it: nop, getInfo, paramSet,
paramGet, powerState, faultStatus, reinstate, logRead, updateBegin, updateData, updateFinish, getCert, attest, takeover, handback,
safeWrite, mbxDoorbell, mbxHeadWrite, mbxModTimeout, safeWriteAtReached. -/
def Obligations.HostRequests : Prop :=
  ∀ (s : State) (m : Fin 16) (r : Rung) (x : Fin 5) (a : SafeArm) (w : Rung × Waiting) (dot st d : Nat) (j : Fin 16) (head : BitVec 9), s.Canonical →
    let b := s.payload m.val
    let rest : State := { s with hif := { s.hif with rung := [] } }
    let later := s.atDot dot
    let notifyRec (n : Nat) : List Byte := natLE 2 0x0805 ++ natLE 2 4 ++ natLE 4 0 ++ natLE 4 n
    let oldest := (s.logKept.head?.map (·.seq)).getD (s.rd F.cellarLogSeq_NEXT)
    let after := (fieldAt b 0 4 + 2 ^ 32 - oldest) % 2 ^ 32
    let skip := if after < 2 ^ 31 then after else 0
    let ids := ((allUnits ++ allBlocks).filter fun id => fieldAt b 0 2 ≤ id).take (fieldAt b 2 2)
    let set := applyRecs ⟨m.val, r.via, false⟩ (recsOf true b) rest
    let got := getRecs (recsOf false b) rest
    let addr := fieldAt b 0 8
    let stamp := fieldAt b 8 8 % 2 ^ 48
    let data := b.drop 16
    let may := data ≠ [] ∧ s.inLock addr data.length = true ∧ s.holdsTable addr data.length = false
    let held := s.cellHeld addr data.length = true
    let out := memWrite .cellar addr data rest
    let armed : State := { later with hif := { s.hif with safeArms := s.hif.safeArms.erase a } }
    let put := memWrite .cellar a.addr a.data armed
    let requests : List (Instr × Nat) := [(.nop m, 0x00), (.getInfo m, 0x01), (.paramSet m, 0x10), (.paramGet m, 0x11),
      (.powerState m, 0x20), (.faultStatus m, 0x30), (.reinstate m, 0x31), (.logRead m, 0x40), (.updateBegin m, 0x50),
      (.updateData m, 0x51), (.updateFinish m, 0x52), (.getCert m, 0x60), (.attest m, 0x61), (.takeover m, 0x70), (.handback m, 0x71),
      (.safeWrite m, 0x80)]
    let c := requests.getD j.val (.nop m, 0x00)
    (s.hif.rung = [⟨m.val, r.via, false, none⟩] → s.serves = true → s.refuses (s.reqOpcode m.val) = some (st, d) → st ≠ St.busySelftest →
      RingReady m.val s → c.2 = s.reqOpcode m.val → Leads c.1 s (Answered m.val c.2 st d [] s)) ∧
    (s.rd (F.mbxStatus_STATE m.val) ≠ 1 → s.hif.rung = [] → opcodeServed (s.reqOpcode m.val) = true →
      Leads (.mbxDoorbell .cellar m) s fun t => t.rd (F.mbxStatus_STATE m.val) = 1 ∧ t.hif.rung = [⟨m.val, .cellar, false, none⟩]) ∧
    ((s.rd (F.mbxStatus_TAIL m.val) + 512 - head.toNat) % 512 ≤ 256 → s.heldOf m.val = [] → Leads (.mbxHeadWrite m head false) s fun t =>
      t.rd (F.mbxHeadDb_HEAD m.val) = head.toNat ∧ t.mem = s.mem) ∧
    (s.hif.ageOn.contains m.val = true → s.unnotified m.val ≠ 0 → s.asleep = false → Leads (.mbxModTimeout m) s fun t =>
      Pends m.val s t ∧ t.unnotified m.val = 0) ∧
    (Asked m.val 0x00 r s → Leads (.nop m) s (Answered m.val 0x00 St.ok 0 [] s)) ∧
    (Asked m.val 0x01 r s → Leads (.getInfo m) s (Answered m.val 0x01 St.ok 0 (natLE 2 0x8460 ++ [0xB0#8] ++
      natLE 1 (s.rd F.cellarStatus_LIFECYCLE) ++ natLE 1 (s.rd F.cascStatus_ROLE) ++ natLE 1 (s.rd F.cascStatus_POSITION) ++
      natLE 1 (s.rd F.cellarStatus_SLOT) ++ [0#8] ++ natLE 4 (s.rd F.cellarFwver_VERSION) ++ natLE 4 (s.rd F.cellarSerial_SERIAL)) s)) ∧
    (Asked m.val 0x11 r s → Leads (.paramGet m) s (Answered m.val 0x11 got.1 got.2.1 got.2.2 s)) ∧
    (Asked m.val 0x11 r s → b = natLE 2 0x0805 ++ natLE 2 4 ++ natLE 4 0 → Leads (.paramGet m) s
      (Answered m.val 0x11 St.ok 0 (notifyRec (s.prm P.logNotify)) s)) ∧
    (Asked m.val 0x10 r s → RingReady m.val set.2.2 → set.2.2.mem = s.mem → Leads (.paramSet m) s fun t =>
      Answered m.val 0x10 set.1 set.2.1 [] s t ∧ t.params = set.2.2.params) ∧
    (Asked m.val 0x10 r s → s.svc.held = [] → b = notifyRec x.val → Leads (.paramSet m) s fun t =>
      Answered m.val 0x10 St.ok 0 [] s t ∧ t.prm P.logNotify = x.val) ∧
    (Asked m.val 0x10 r s → s.svc.held = [] → b = notifyRec x.val ++ (natLE 2 0xFFFF ++ natLE 2 4 ++ natLE 4 0 ++ natLE 4 0) →
      Leads (.paramSet m) s fun t => Answered m.val 0x10 St.badParam 1 [] s t ∧ t.params = s.params) ∧
    (Asked m.val 0x40 r s → 6 ≤ b.length → fieldAt b 4 2 ≤ 127 → Leads (.logRead m) s
      (Answered m.val 0x40 St.ok 0 (natLE 4 oldest ++ natLE 4 (s.rd F.cellarLogSeq_NEXT) ++
        ((s.logKept.filter fun e => skip ≤ (e.seq + 2 ^ 32 - oldest) % 2 ^ 32).take (fieldAt b 4 2)).flatMap logBytes) s)) ∧
    (Asked m.val 0x40 r s → b.length < 6 ∨ 127 < fieldAt b 4 2 → Leads (.logRead m) s (Answered m.val 0x40 St.badParam 0 [] s)) ∧
    (Asked m.val 0x30 r s → 4 ≤ b.length → 2 + 8 * ids.length ≤ 4080 → Leads (.faultStatus m) s
      (Answered m.val 0x30 St.ok 0 (natLE 2 (allUnits ++ allBlocks).length ++ ids.flatMap (refreshCounts s).faultRecord) s)) ∧
    (Asked m.val 0x80 r s → ¬ may → Leads (.safeWrite m) s fun t => Answered m.val 0x80 St.badParam 0 [] s t ∧ t.vat = s.vat) ∧
    (Asked m.val 0x80 r s → may → held → Leads (.safeWrite m) s fun t => Answered m.val 0x80 St.notOwner 0 [] s t ∧ t.vat = s.vat) ∧
    (Asked m.val 0x80 r s → may → ¬ held → stamp = 0 ∨ reached stamp s.now = true → RingReady m.val out.2 → Leads (.safeWrite m) s fun t =>
      Answered m.val 0x80 St.ok 0 [] s t ∧ t.vat = out.2.vat) ∧
    (Asked m.val 0x80 r s → may → ¬ held → stamp ≠ 0 → reached stamp s.now = false → Leads (.safeWrite m) s fun t => t.vat = s.vat ∧
      t.mem = s.mem ∧ t.hif.safeArms = s.hif.safeArms ++ [⟨m.val, addr, stamp, data⟩] ∧
      t.hif.waiting = s.hif.waiting ++ [(r, ⟨m.val, 0x80, stamp⟩)] ∧ t.rd (F.mbxStatus_STATE m.val) = s.rd (F.mbxStatus_STATE m.val)) ∧
    ((s.hif.safeArms.find? fun a => a.mbx == m.val && reached a.stamp later.now) = some a →
      (s.hif.waiting.find? fun w => w.1.mbx == m.val && w.2.opcode == 0x80 && w.2.arg == a.stamp) = some w → w.1.discard = false →
      RingReady m.val put.2 → Leads (.safeWriteAtReached m dot) s fun t =>
        Answered m.val 0x80 St.ok 0 [] s t ∧ t.vat = put.2.vat) ∧
    ((∀ a ∈ s.hif.safeArms, a.mbx = m.val → reached a.stamp later.now = false) →
      Leads (.safeWriteAtReached m dot) s (· = later))

/-- Signed update (R451, R454, R455, R457): the stages of an update of a firmware slot, the trial of the new slot, and its commit. The
commands that complete in it: updateBegin, updateData, updateFinish, updateActivateTrial, updateActivateCommit. -/
def Obligations.UpdateRequests : Prop :=
  ∀ (s : State) (m : Fin 16) (r : Rung) (u : Update) (arb : Fin 2), s.Canonical →
    let b := s.payload m.val
    let slot := 1 - s.rd F.cellarStatus_SLOT
    let len := fieldAt b 0 4
    let data := b.drop 8
    let fresh := s.cellar.update = none ∧ s.cellar.trialWaits = false ∧ s.prm P.updateTarget = 0
    (Asked m.val 0x50 r s → fresh → 4 ≤ b.length → 512 ≤ len → len ≤ 0x400000 → Leads (.updateBegin m) s fun t =>
      Answered m.val 0x50 St.ok 0 [] s t ∧ t.cellar.update = some ⟨slot, len, []⟩) ∧
    (Asked m.val 0x50 r s → s.cellar.update = some u → 4 ≤ b.length → Leads (.updateBegin m) s fun t =>
      Answered m.val 0x50 St.busy 0 [] s t ∧ t.cellar.update = some u ∧ t.cellar.flash = s.cellar.flash) ∧
    (Asked m.val 0x51 r s → s.cellar.update = some u → data ≠ [] → data.length ≤ 4064 → len + data.length ≤ u.len →
      Leads (.updateData m) s fun t => Answered m.val 0x51 St.ok 0 [] s t ∧
        t.flashBytes (targetBase u.target + len) data.length = data ∧
        ∀ a, a < targetBase u.target → t.flashBytes a 1 = s.flashBytes a 1) ∧
    (Asked m.val 0x52 r s → s.cellar.update = some u → u.target < 2 → Leads (.updateFinish m) s fun t => t.cellar.update = none ∧
      Answered m.val 0x52 (if s.slotCheck u.target = 0 then St.ok else St.authFail) (s.slotCheck u.target) [] s t) ∧
    (Asked m.val 0x53 r s → s.prm P.updateTarget = 0 → b = [0#8, 0#8] → bitAt s.desc.valid slot = true → s.desc.seq + 1 < 2 ^ 32 →
      Leads (.updateActivateTrial m) s fun t => Answered m.val 0x53 St.ok 0 [] s t ∧
        t.desc = { s.desc with seq := s.desc.seq + 1, trial := slot + 1, count := 0 }) ∧
    (Asked m.val 0x53 r s → s.prm P.updateTarget = 0 → b = [1#8, BitVec.ofNat 8 arb.val] → s.rd F.cellarStatus_TRIAL = 1 →
      s.desc.seq + 1 < 2 ^ 32 → Leads (.updateActivateCommit m) s fun t => Answered m.val 0x53 St.ok 0 [] s t ∧
        t.desc = { s.desc with seq := s.desc.seq + 1, active := s.rd F.cellarStatus_SLOT, trial := 0 } ∧
        t.cellar.trialWaits = false ∧ (arb.val = 0 → t.cellar.fuses = s.cellar.fuses) ∧
        (arb.val = 1 → t.cellar.fuses.arb = max s.cellar.fuses.arb (min 128 s.cellar.runSvn)))

/-- The device's identity and its life cycle (R456 to R463): certificates and attestation, the challenge, the key and the certificate of
MANUFACTURE, a transition and a revocation with its token. The commands that complete in it: getCert, attest, lifecycleChallenge,
keygen, certInstall, lifecycleTransition, revokeKey. -/
def Obligations.IdentityRequests : Prop :=
  ∀ (s : State) (m : Fin 16) (r : Rung) (i : Fin 2) (new : Fin 6) (k : Fin 4) (token dev int : List Byte) (needs : Bool), s.Canonical →
    let b := s.payload m.val
    let f := s.cellar.fuses
    let status (op st : Nat) (t : State) : Prop := t.bytesAt (respArea m.val) 4 = natLE 4 (st + op * 65536)
    let good := s.tokenGood s.cellar.nonce b = true
    (Asked m.val 0x60 r s → b = [BitVec.ofNat 8 i.val] → (s.storedCert i.val).length ≤ 4080 → Leads (.getCert m) s
      (if (if i.val = 0 then s.certGood else f.certDigest.isSome) = true then Answered m.val 0x60 St.ok 0 (s.storedCert i.val) s else Answered m.val 0x60 St.authFail 0 [] s)) ∧
    (Asked m.val 0x61 r s → s.mayAttest = true → b.length = 48 → Leads (.attest m) s fun t =>
      Answered m.val 0x61 St.ok 0 (s.report b ++ t.bytesAt (respArea m.val + 16 + (s.report b).length) 96) s t) ∧
    (Asked m.val 0x61 r s → s.mayAttest = false → Leads (.attest m) s (Answered m.val 0x61 St.lifecycleDenied 0 [] s)) ∧
    (Asked m.val 0x62 r s → b = [0#8] → Leads (.lifecycleChallenge m) s fun t =>
      let nonce := t.cellar.nonce.getD []
      nonce.length = 48 ∧ t.cellar.nonce = some nonce ∧ Answered m.val 0x62 St.ok 0 nonce s t ∧ t.cellar.fuses = f) ∧
    (Asked m.val 0x62 r s → b = [1#8] → f.lifecycle = 1 → f.unitKey = none → Leads (.keygen m) s fun t => status 0x62 St.ok t ∧
      t.cellar.nonce = none ∧
      t.cellar.fuses = { f with unitKey := t.cellar.fuses.unitKey } ∧ t.cellar.fuses.unitKey.any (·.length == 97) = true) ∧
    (Asked m.val 0x62 r s → b = [1#8] → f.lifecycle ≠ 1 → Leads (.keygen m) s fun t =>
      Answered m.val 0x62 St.lifecycleDenied 0 [] s t ∧ t.cellar.fuses = f) ∧
    (Asked m.val 0x62 r s → b = 2#8 :: 0#8 :: (natLE 2 dev.length ++ dev ++ int) → dev.length < 65536 → f.lifecycle = 1 →
      f.certDigest = none → Leads (.certInstall m) s fun t =>
        if f.unitKey = some (Config.certKey dev) ∧ Config.certIssuedBy dev int = true then
          Answered m.val 0x62 St.ok 0 [] s t ∧ t.cellar.fuses = { f with certDigest := some (Config.sha384 dev) } ∧
            t.flashBytes 0x4004 dev.length = dev
        else Answered m.val 0x62 St.authFail 0 [] s t ∧ t.cellar.fuses = f) ∧
    (Asked m.val 0x62 r s → b = 3#8 :: BitVec.ofNat 8 new.val :: token → transition f.lifecycle new.val = some needs →
      (new.val = 2 → f.certDigest ≠ none) → Leads (.lifecycleTransition m) s fun t =>
        if needs = true ∧ ¬ good then Answered m.val 0x62 St.authFail 0 [] s t ∧ t.cellar.fuses = f
        else Answered m.val 0x62 St.ok 0 [] s t ∧ t.cellar.fuses = { f with lifecycle := new.val, keyDisabled := f.keyDisabled || 4 ≤ new.val } ∧
          t.rd F.cellarStatus_LIFECYCLE = new.val) ∧
    (Asked m.val 0x62 r s → b = 3#8 :: BitVec.ofNat 8 new.val :: token → transition f.lifecycle new.val = none →
      Leads (.lifecycleTransition m) s fun t => Answered m.val 0x62 St.lifecycleDenied 0 [] s t ∧ t.cellar.fuses = f) ∧
    (Asked m.val 0x62 r s → b = 4#8 :: BitVec.ofNat 8 k.val :: token → s.cellar.runKey = k.val → s.cellar.booted = true →
      Leads (.revokeKey m) s fun t => Answered m.val 0x62 (if good then St.busy else St.authFail) 0 [] s t ∧ t.cellar.fuses = f) ∧
    (Asked m.val 0x62 r s → b = 4#8 :: BitVec.ofNat 8 k.val :: token → s.cellar.runKey ≠ k.val ∨ s.cellar.booted = false → Leads (.revokeKey m) s fun t =>
      if good then Answered m.val 0x62 St.ok 0 [] s t ∧ t.cellar.fuses = { f with revoked := f.revoked.set k.val true }
      else Answered m.val 0x62 St.authFail 0 [] s t ∧ t.cellar.fuses = f)

/-- The requests that manage power, resets, faults and the self-test (R532, R533, R535, R544, R546, R565, R568, R573). The commands that
complete in it: powerState, resetWarm, resetBlock, reinstate, selftestRun, selftestResults. -/
def Obligations.ManagementRequests : Prop :=
  ∀ (s : State) (m : Fin 16) (r : Rung) (n : Fin 64) (blk inst : BitVec 8) (trim : BitVec 16) (id : BitVec 16), s.Canonical →
    let b := s.payload m.val
    let state := s.rd F.pwrStatus_STATE
    let trims := trim.toNat % 2 ^ 15 * 2 ^ 15 + trim.toNat / 2 ^ 15 * 2 ^ 30
    let unit := id.toNat
    let rest : State := { s with hif := { s.hif with rung := [] } }
    (Asked m.val 0x20 r s → b = [0#8] → state = 1 → s.rd F.pwrTrimmed_UNIT = 0 → Leads (.powerState m) s fun t =>
      Answered m.val 0x20 St.ok 0 [] s t ∧ t.rd F.pwrStatus_STATE = 0) ∧
    (Asked m.val 0x20 r s → b = 1#8 :: 0#8 :: 0#8 :: 0#8 :: natLE 4 trims → state = 0 → s.rd F.pwrTrimmed_UNIT = 0 →
      (∀ j, j < 31 → bitAt trims j = true → s.trimStatus j = St.ok) → Leads (.powerState m) s fun t =>
        Answered m.val 0x20 St.ok 0 [] s t ∧ t.rd F.pwrStatus_STATE = 1 ∧ t.rd F.pwrTrimmed_UNIT = trims) ∧
    (Asked m.val 0x20 r s → b = [2#8] → state < 2 → s.mayStop m.val = true → Leads (.powerState m) s fun t =>
      Answered m.val 0x20 St.ok 0 [] s t ∧ t.rd F.pwrStatus_STATE = 2 ∧ t.rd F.pwrStatus_LP5X_SR = 1 ∧
      t.rd F.pwrStatus_TRANSIT = 0 ∧ t.rd F.pwrStamp_STAMP = s.now % 2 ^ 48 ∧ ∀ p : Fin 8, t.rd (F.pipeStatus_STATE p.val) = 0) ∧
    (Asked m.val 0x20 r s → b = [2#8] → state < 2 → s.mayStop m.val = false → Leads (.powerState m) s fun t =>
      Answered m.val 0x20 St.busy 0 [] s t ∧ t.rd F.pwrStatus_STATE = state) ∧
    (Asked m.val 0x21 r s → b = [0#8] → Leads (.resetWarm m) s fun t =>
      Answered m.val 0x21 St.ok 0 [] s t ∧ t.cellar = { s.cellar with warmDue := true }) ∧
    (Asked m.val 0x21 r s → b = [1#8, blk, inst] → inst.toNat < blockInstances blk.toNat → s.blockHeld blk.toNat inst.toNat = true →
      Leads (.resetBlock m) s fun t => Answered m.val 0x21 St.notOwner 0 [] s t ∧ t.rd F.pwrReset_LAST = s.rd F.pwrReset_LAST) ∧
    (Asked m.val 0x21 r s → b = [1#8, blk, inst] → blockInstances blk.toNat ≤ inst.toNat →
      Leads (.resetBlock m) s fun t => Answered m.val 0x21 St.badParam 0 [] s t ∧ t.rd F.pwrReset_LAST = s.rd F.pwrReset_LAST) ∧
    (Asked m.val 0x21 r s → b = [1#8, blk, inst] → inst.toNat < blockInstances blk.toNat → s.blockHeld blk.toNat inst.toNat = false →
      let u := blockReset blk.toNat inst.toNat rest
      RingReady m.val u → u.mem = s.mem → s.prm P.logNotify = 4 → Leads (.resetBlock m) s fun t => Answered m.val 0x21 St.ok 0 [] s t ∧
        t.rd F.pwrReset_LAST = 6 ∧ t.rd F.cellarLogSeq_NEXT = (u.rd F.cellarLogSeq_NEXT + 1) % 2 ^ 32 ∧ t.dma = u.dma ∧ t.cores = u.cores ∧
        t.planes = u.planes ∧ t.pipes = u.pipes ∧ t.rind = u.rind ∧ t.press = u.press ∧ t.timers = u.timers ∧ t.harp = u.harp) ∧
    (Asked m.val 0x21 r s → b = [1#8, 6#8, BitVec.ofNat 8 n.val] → s.blockHeld 6 n.val = false → n.val < s.dma.length →
      Leads (.resetBlock m) s fun t => Answered m.val 0x21 St.ok 0 [] s t ∧ t.dmaOf n.val = dma0 ∧ t.rd F.pwrReset_LAST = 6 ∧
        t.rd (F.chStatus_STATE n.val) = 0 ∧ t.rd (F.chDone_COUNT n.val) = 0 ∧ t.rd (F.chBudget_ENTRIES n.val) = 0xFFFF) ∧
    (Asked m.val 0x31 r s → b = natLE 2 unit → allUnits.contains unit = true → (s.fltUnit unit).retrying = false →
      s.unitState unit = 1 ∨ s.unitState unit = 2 →
      let rejoins := unit / 256 = 5 ∧ s.unitState unit = 2 ∧ s.linkUp (unit % 256 / 4) = true
      Leads (.reinstate m) s fun t => Answered m.val 0x31 St.ok 0 [] s t ∧ (rejoins → t.rd (F.cascLStatus_STATE (unit % 256 / 4)) = 1) ∧
        (¬ rejoins → t.unitState unit = 0 ∧ t.rd (F.fltU_TOTAL (unit / 256) (unit % 256)) = 0 ∧
          t.rd (F.fltU_ATTEMPTS (unit / 256) (unit % 256)) = 0) ∧ Pends 492 s t ∧ t.fault.record = s.fault.record.filter (· != unit)) ∧
    (Asked m.val 0x31 r s → b = natLE 2 unit → allUnits.contains unit = true → (s.fltUnit unit).retrying = true →
      Leads (.reinstate m) s fun t => Answered m.val 0x31 St.busy 0 [] s t ∧ t.fault = s.fault) ∧
    (Asked m.val 0x31 r s → b = natLE 2 unit → allUnits.contains unit = true → (s.fltUnit unit).retrying = false → s.unitState unit = 0 →
      Leads (.reinstate m) s fun t => Answered m.val 0x31 St.ok 0 [] s t ∧ t.fault = s.fault) ∧
    (Asked m.val 0x31 r s → b = natLE 2 unit → allBlocks.contains unit = true → s.prm P.logNotify = 4 → Leads (.reinstate m) s fun t =>
      Answered m.val 0x31 St.ok 0 [] s t ∧ t.fault.map = s.fault.map.filter (fun e => !(e.id == unit && e.marks)) ∧
        (t.fault.map ≠ s.fault.map → t.rd F.fltMap_PENDING = 1 ∧ Pends 492 s t)) ∧
    (Asked m.val 0x32 r s → b = [1#8] → s.powerStatus m.val [4#8] = St.ok → Leads (.selftestRun m) s fun t =>
      Answered m.val 0x32 St.ok 0 [] s t ∧ t.rd F.stStatus_STATE = 1 ∧ t.rd F.stStatus_ITEM = 1 ∧ t.rd F.stStatus_REMAIN_MS = 420 ∧
      ∀ p : Fin 8, t.rd (F.pipeStatus_STATE p.val) = 0) ∧
    (Asked m.val 0x32 r s → b = [0#8] → Leads (.selftestResults m) s (Answered m.val 0x32 St.ok 0 (s.results.take 4080) s))

/-- Takeover of the standalone services by the host and their hand-back (R494 to R497): the request waits, the release moves the running
services to HOST, a timeout moves none, a hand-back runs at the latch lines, and an absent host is no longer present. The commands that
complete in it: takeover, takeoverRelease, takeoverTimeout, handback, handbackTake, hostTimeout. -/
def Obligations.ServiceRequests : Prop :=
  ∀ (s : State) (m : Fin 16) (r : Rung) (w : Rung × Waiting) (v : Fin 4) (mask flags : BitVec 8), s.Canonical →
    let b := s.payload m.val
    let taken := s.svcIn (w.2.arg % 256) 2
    (Asked m.val 0x70 r s → b = [mask, flags] → (∀ v, v < 5 → mask.getLsbD v = true → s.svcState v ≠ 4) → Leads (.takeover m) s fun t =>
      t.hif.waiting = s.hif.waiting ++ [(r, ⟨m.val, 0x70, mask.toNat + 256 * flags.toNat⟩)] ∧ t.cells = s.cells ∧ t.mem = s.mem) ∧
    (Asked m.val 0x70 r s → b = [mask, flags] → mask.getLsbD v.val = true → s.svcState v.val = 4 → Leads (.takeover m) s
      (Answered m.val 0x70 St.busy 0 [] s)) ∧
    (RingReady m.val s → (s.hif.waiting.find? fun w => w.1.mbx == m.val && w.2.opcode == 0x70) = some w → w.1.discard = false →
      s.takeoverReady (w.2.arg % 256) = true → s.rd F.svcStatus_HOST_PRESENT = 1 → Leads (.takeoverRelease m) s fun t =>
        Answered m.val 0x70 St.ok 0 (natLE 1 (t.svcMask 3) ++ natLE 8 (if taken = [] then s.svc.released else s.now)) s t ∧
        ∀ v : Fin 5, t.svcState v.val = if v.val ∈ taken then 3 else s.svcState v.val) ∧
    (RingReady m.val s → (s.hif.waiting.find? fun w => w.2.opcode == 0x70 && !s.takeoverReady (w.2.arg % 256)) = some w →
      w.1.discard = false → w.1.mbx = m.val → Leads .takeoverTimeout s fun t =>
        Answered m.val 0x70 St.timeout 0 [] s t ∧ t.rd F.svcStatus_STATE = s.rd F.svcStatus_STATE) ∧
    (Asked m.val 0x71 r s → b = [BitVec.ofNat 8 (2 ^ v.val)] → s.svcState v.val ≠ 3 → s.svc.back = 0 → Leads (.handback m) s
      (Answered m.val 0x71 St.ok 0 (natLE 1 (s.svcMask 3)) s)) ∧
    (Asked m.val 0x71 r s → b = [BitVec.ofNat 8 (2 ^ v.val)] → s.svcState v.val = 3 → s.svcConfig v.val = [] → s.svc.back = 0 →
      Leads (.handback m) s fun t => t.svc.back = 2 ^ v.val ∧ t.hif.waiting = s.hif.waiting ++ [(r, ⟨m.val, 0x71, 0⟩)] ∧
        t.svcState v.val = 3) ∧
    (s.svc.back = 2 ^ v.val → s.svcState v.val = 3 → Leads .handbackTake s fun t => t.svcState v.val = 2 ∧ t.svc.back = 0 ∧
      ∀ w ∈ t.hif.waiting, w.2.opcode ≠ 0x71) ∧
    (s.svc.back = 0 → Leads .handbackTake s (· = s)) ∧
    (s.cellar.booted = true → s.prm P.hostTimeoutMs ≠ 0 → s.rd F.pwrStatus_STATE < 2 → s.rd F.svcStatus_HOST_PRESENT = 1 →
      s.resumeMask = 0 → Leads .hostTimeout s fun t => t.rd F.svcStatus_HOST_PRESENT = 0 ∧
        t.rd F.svcStatus_STATE = s.rd F.svcStatus_STATE ∧ t.rd F.cellarLogSeq_NEXT = (s.rd F.cellarLogSeq_NEXT + 1) % 2 ^ 32)

/-! ### The register bus and the host's ports (R26, R29 to R34, R415 to R421, R436 to R439, R540) -/

/-- A direct write of the register space (R26, R29, R31, R32, R343, R416, R420, R421, R534, R575): into a mailbox's request area, whole;
of a register its writer may write, by its fields; of another's register, of a BUSY area, of a trimmed unit, by the host in a self-test,
or out of shape, dropped and counted; of a reserved offset, a decode error. So is every access by one that does not reach the registers:
it has no other effect, and a read returns all ones. The commands that complete in it: irsRegWrite, harpGateWrite, harpObjPublish,
harpAffPublish, pipeCommit, xpGainWrite, stGainWrite, playGo, playStop, pressStart, dmaStart, intcEnSet, intcEnClr, intcPendSet,
intcPendClr, beamEpochRead, timerCaptureRead. -/
def Obligations.RegisterWrites : Prop :=
  ∀ (s : State) (who : Initiator) (m : Fin 16) (e : Fin 2) (p : Fin 8) (o : BitVec 12) (off : BitVec 24) (data : List Byte) (v : BitVec 32)
    (x : Bool) (j : Fin 17) (k : Fin 2), s.Canonical →
    let area := 0x20000 + m.val * 0x2000 + o.toNat
    let word := natLE 4 v.toNat
    let budget := BitVec.ofNat 24 (0x80000C + e.val * 0x100)
    let f := F.pressBudget_ENTRIES e.val
    let dropped (t : State) : Prop := Counted F.hifDroppedWr_COUNT s t ∧ Pends 17 s t
    let object : BitVec 18 := off.setWidth 18
    let writes : List (Instr × Nat) := [(.irsRegWrite who budget word, budget.toNat),
      (.harpGateWrite who object x (v.setWidth 64), 0x500000 + object.toNat), (.harpObjPublish who 4095 v, harpOff false 4095 7),
      (.harpAffPublish who 1023, harpOff true 1023 3), (.pipeCommit who p 5 7, pipeOff p.val), (.xpGainWrite who 127 127 1, 0xA1FFFC),
      (.stGainWrite who e 1, 0xA003C4 + e.val * 8), (.playGo who p v, 0xA0040C + p.val * 0x40), (.playStop who p v, 0xA0040C + p.val * 0x40),
      (.pressStart who e 1 none, 0x800004 + e.val * 0x100), (.pressStart who e 1 (some v), 0x800004 + e.val * 0x100),
      (.dmaStart who 63 1 none, 0x900FC4), (.dmaStart who 0 0 (some v), 0x900004), (.intcEnSet who m v, IntcReg.off .enSet m.val),
      (.intcEnClr who m v, IntcReg.off .enClr m.val), (.intcPendSet who m v, IntcReg.off .pendSet m.val),
      (.intcPendClr who m v, IntcReg.off .pendClr m.val)]
    let write := writes.getD j.val (.pmeTurnOff, 0)
    let reads : List Instr := [.beamEpochRead who, .timerCaptureRead who 63 .whole]
    let decodeErr (t : State) : Prop := Counted F.hifDecodeErr_COUNT s t ∧ Pends 16 s t ∧
      t.rd F.cellarLogSeq_NEXT = (s.rd F.cellarLogSeq_NEXT + 1) % 2 ^ 32 ∧ ReportedOnly [F.hifDecodeErr_COUNT] s t
    (reaches who .irs = false → Leads write.1 s decodeErr ∧ Leads (.irsRegWrite who off data) s decodeErr) ∧
    (reaches who .irs = true → s.shutOut who write.2 = true → (∀ y, who ≠ .bar y ∨ 0x1000 ≤ write.2) → Leads write.1 s dropped) ∧
    (reaches who .irs = false → Leads (reads.getD k.val .pmeTurnOff) s fun t => decodeErr t ∧ t.lastRead = 0xFFFFFFFF) ∧
    (o.toNat + data.length ≤ 0x1000 → s.rd (F.mbxStatus_STATE m.val) ≠ 1 →
      Leads (.irsRegWrite (.bar x) (BitVec.ofNat 24 area) data) s (· = s.setBytes (irsBase + area) data)) ∧
    (data ≠ [] → o.toNat + data.length ≤ 0x1000 → s.rd (F.mbxStatus_STATE m.val) = 1 → Leads (.irsRegWrite (.bar x) (BitVec.ofNat 24 area) data) s
      fun t => dropped t ∧ t.bytesAt (irsBase + area) data.length = s.bytesAt (irsBase + area) data.length) ∧
    (s.irsTrimmed budget.toNat = false → Leads (.irsRegWrite .cellar budget word) s fun t => t.rd f = v.toNat % 65536 ∧ Only [f] s t) ∧
    (Leads (.irsRegWrite (.bar x) budget word) s fun t => dropped t ∧ t.rd f = s.rd f) ∧
    (Leads (.irsRegWrite (.seq p) budget word) s fun t => dropped t ∧ t.rd f = s.rd f ∧ Counted (F.seqSlot_DROPS p.val) s t) ∧
    (s.selfTesting = false → s.heldRes 0x80 e.val = false → s.irsTrimmed (0x800000 + e.val * 0x100) = false →
      Leads (.irsRegWrite (.bar x) (BitVec.ofNat 24 (0x800000 + e.val * 0x100)) word) s fun t =>
        t.rd (F.pressStartLo_ADDR e.val) = v.toNat / 64 * 64 ∧ Only [F.pressStartLo_ADDR e.val] s t) ∧
    (isArea off.toNat = false → 0x1000 ≤ off.toNat → (data.length ≠ 4 ∧ data.length ≠ 8) ∨ off.toNat % data.length ≠ 0 →
      Leads (.irsRegWrite (.bar x) off data) s dropped) ∧
    (isArea off.toNat = false → 0x1000 ≤ off.toNat → off.toNat % 4 = 0 → findReg off.toNat = none →
      Leads (.irsRegWrite .cellar off word) s fun t => Counted F.hifDecodeErr_COUNT s t ∧ Pends 16 s t)

/-- The data port (R436 to R439), where no access waits for a peer's answer: one write and one read of a unit, the bus error, the
timeout, the access of itself and the unaligned transaction that end them, a prefetch with the read that takes it, and the target that
is not enabled. The commands that complete in it: dpWindowWrite, dpWindowRead, dpPrefetchReady, dpPrefetch. -/
def Obligations.DataPort : Prop :=
  ∀ (s : State) (x : Bool) (data : List Byte) (len : BitVec 10) (n : Nat) (late : Option Nat), s.Canonical →
    let a := s.rd F.dpAddr_ADDR
    let unit := s.dpUnit
    let step := [0, 4, 8, 64].getD (s.rd F.dpCtl_INC) 64
    let w : State := { s with casc := { s.casc with blocked := false, ask := none } }
    let put := busWrite (.dataPort x) a data w
    let got (y : Bool) := busRead (.dataPort y) a unit w
    let port := x = false ∨ s.rd F.pinStraps_XSPI_TGT_EN = 1
    let calm (u : State) : Prop := u.casc.blocked = false ∧ u.rd F.dpAddr_ADDR = a ∧ u.rd F.dpCtl_INC = s.rd F.dpCtl_INC
    let one := a % unit = 0 ∧ data.length = unit
    let plain := isDpSelf a = false ∧ late ≠ some 0
    let moved (k : Nat) (t : State) : Prop := t.rd F.dpAddr_ADDR = (a + k * step) % 2 ^ 40
    let failed (code : Nat) (u t : State) : Prop := t.rd F.dpStatus_ERR = code ∧ Counted F.dpStatus_ERR_COUNT u t ∧
      t.rd F.dpErrAddr_ADDR = a ∧ Pends 18 u t ∧ t.mem = u.mem ∧ t.vat = u.vat
    let ones (k : Nat) : List Byte := List.replicate k 0xFF#8
    (port → one → plain → calm put.2 → put.1 = false → Leads (.dpWindowWrite x data late) s fun t =>
      moved 1 t ∧ t.mem = put.2.mem ∧ t.vat = put.2.vat ∧ WroteOnly [F.dpAddr_ADDR] put.2 t) ∧
    (port → one → plain → calm put.2 → put.1 = true → Leads (.dpWindowWrite x data late) s fun t => failed 2 put.2 t ∧ moved 1 t) ∧
    (port → one → isDpSelf a = true → Leads (.dpWindowWrite x data late) s fun t => failed 4 s t ∧ moved 1 t) ∧
    (port → one → isDpSelf a = false → Leads (.dpWindowWrite x data (some 0)) s fun t => failed 3 s t ∧ moved 1 t) ∧
    (port → 0 < data.length → data.length ≤ 512 → data.length % unit ≠ 0 ∨ a % unit ≠ 0 → Leads (.dpWindowWrite x data late) s fun t =>
      failed 1 s t ∧ moved (data.length / unit) t) ∧
    (a % unit = 0 → plain → calm (got false).2.2 → (got false).2.1 = false → Leads (.dpWindowRead false unit late) s fun t =>
      t.hif.readOut = (got false).1 ∧ moved 1 t ∧ t.mem = (got false).2.2.mem ∧ WroteOnly [F.dpAddr_ADDR] (got false).2.2 t) ∧
    (a % unit = 0 → plain → calm (got false).2.2 → (got false).2.1 = true → Leads (.dpWindowRead false unit late) s fun t =>
      t.hif.readOut = ones unit ∧ failed 2 (got false).2.2 t ∧ moved 1 t) ∧
    (0 < n → n ≤ 512 → n % unit ≠ 0 ∨ a % unit ≠ 0 → Leads (.dpWindowRead false n late) s fun t =>
      t.hif.readOut = ones n ∧ failed 1 s t ∧ moved (n / unit) t) ∧
    (a % unit = 0 → plain → calm (got true).2.2 → (got true).2.1 = false → s.hif.prefetchLen = unit → Leads (.dpPrefetchReady late) s
      fun t => t.rd F.dpStatus_READY = 1 ∧ t.hif.prefetch = (got true).1 ∧ t.hif.prefetchLen = 0 ∧ t.rd F.dpAddr_ADDR = a) ∧
    (s.hif.prefetchLen = 0 → Leads (.dpPrefetchReady late) s (· = s)) ∧
    (s.selfTesting = false → 4 ≤ len.toNat → len.toNat ≤ 512 → len.toNat % unit = 0 → Leads (.dpPrefetch len) s fun t =>
      t.rd F.dpStatus_READY = 0 ∧ t = { s with cells := t.cells, hif := { s.hif with prefetch := [], prefetchLen := len.toNat } } ∧
      WroteOnly [F.dpStatus_READY] s t) ∧
    (s.rd F.pinStraps_XSPI_TGT_EN = 1 → s.rd F.dpStatus_READY = 1 → 0 < n → Leads (.dpWindowRead true n late) s fun t =>
      t.hif.readOut = s.hif.prefetch ∧ t.rd F.dpStatus_READY = 0 ∧ t.mem = s.mem ∧ moved (s.hif.prefetch.length / unit) t) ∧
    (s.rd F.pinStraps_XSPI_TGT_EN = 1 → s.rd F.dpStatus_READY = 0 → 0 < n → Leads (.dpWindowRead true n late) s fun t =>
      failed 5 s t ∧ t.hif.readOut = ones n ∧ moved (n / unit) t) ∧
    (s.rd F.pinStraps_XSPI_TGT_EN = 0 → Leads (.dpWindowWrite true data late) s (· = s) ∧ Leads (.dpWindowRead true n late) s (· = s))

/-- The xSPI target and the PCIe link (R29, R416 to R418, R431, R433, R435, R540): accesses of a mailbox area and of a register over
xSPI, a transfer that R418 forbids, a target not enabled, and what bus mastering, the link and a turn-off change, with the ring entry
that bus mastering lets out. The commands that complete in it: xspiRead, xspiWrite, busMasterEnableWrite, pcieLinkUp, pmeTurnOff. -/
def Obligations.HostLink : Prop :=
  ∀ (s : State) (m : Fin 16) (o : BitVec 12) (addr : BitVec 32) (off n : Nat) (data : List Byte) (x y : Bool) (e : RingEntry), s.Canonical →
    let area := 0x20000 + m.val * 0x2000 + o.toNat
    let at_ : BitVec 32 := BitVec.ofNat 32 area
    let casc := { s.casc with blocked := false, ask := none }
    let w : State := { s with casc := casc }
    let got := irsRead (.bar true) off n w
    let put := irsWrite (.bar true) off data w
    let held := (List.range 16).map F.mbxStatus_HELD
    let on := s.rd F.pinStraps_XSPI_TGT_EN = 1
    let tail := s.rd (F.mbxStatus_TAIL m.val)
    (on → 0 < n → n ≤ 512 → o.toNat + n ≤ 0x1000 → Leads (.xspiRead at_ n) s (· =
      { s with casc := casc, hif := { s.hif with readOut := s.bytesAt (irsBase + area) n } })) ∧
    (on → 0 < data.length → data.length ≤ 512 → o.toNat + data.length ≤ 0x1000 →
      s.rd (F.mbxStatus_STATE m.val) ≠ 1 → Leads (.xspiWrite at_ data) s (· = { s.setBytes (irsBase + area) data with casc := casc })) ∧
    (on → xspiTarget addr.toNat n = .reg off → got.2.2.casc.blocked = false → Leads (.xspiRead addr n) s (· =
      { got.2.2 with hif := { got.2.2.hif with readOut := got.1 } })) ∧
    (on → xspiTarget addr.toNat data.length = .reg off → put.2.casc.blocked = false → Leads (.xspiWrite addr data) s (· = put.2)) ∧
    (on → xspiTarget addr.toNat n = .bad → Leads (.xspiRead addr n) s fun t =>
      t.hif.readOut = List.replicate n 0xFF#8 ∧ t.mem = s.mem ∧ t.cells = s.cells) ∧
    (on → xspiTarget addr.toNat data.length = .bad → Leads (.xspiWrite addr data) s fun t =>
      Counted F.hifDroppedWr_COUNT s t ∧ Pends 17 s t) ∧
    (2 ^ 25 ≤ addr.toNat ∨ n = 0 ∨ 512 < n → xspiTarget addr.toNat n = .bad) ∧
    (s.rd F.pinStraps_XSPI_TGT_EN = 0 → Leads (.xspiRead addr n) s (· = s) ∧ Leads (.xspiWrite addr data) s (· = s)) ∧
    (s.hif.held = [] → Leads (.busMasterEnableWrite x y) s fun t =>
      t = { s with cells := t.cells, hif := { s.hif with busMaster := x } } ∧ WroteOnly held s t) ∧
    (s.hif.held = [e] → e.mbx = m.val → s.hif.ringPend = [] → s.asleep = false → s.unconsumed m.val < 256 → s.prm (P.ringLoc m.val) ≠ 0 →
      s.hif.pcieUp = true → Leads (.busMasterEnableWrite true y) s fun t => t.hif.held = [] ∧
        if y then Counted (F.mbxCounts_RING_ERR m.val) s t ∧ Pends 20 s t
        else HostMsg.memWrite (s.prm (P.ringBase m.val) + tail % 256 * 16) (entryBytes e tail) ∈ t.hif.out ∧
          t.rd (F.mbxStatus_TAIL m.val) = (tail + 1) % 512) ∧
    (s.hif.held = [] → Leads (.pcieLinkUp x) s fun t =>
      t = { s with cells := t.cells, hif := { s.hif with pcieUp := true, pmeEn := x, turnOff := false } } ∧ WroteOnly held s t) ∧
    Leads .pmeTurnOff s (· = { s with hif := { s.hif with turnOff := true } })

/-! ### The Cellar and the standalone services (R448 to R472, R476 to R492) -/

/-- The Cellar's own events (R448, R451, R453, R463 to R466, R471, R478, R481, R483, R541, R574): the ROM starts the firmware of the
slot that it chooses and finds good, or else of the other, or enters recovery, and loads none in END; the watchdog; the sensors and
monitors; a flush of the log, where something calls for it, in units of 128 entries to a sector each; and boot-to-view, which takes the
package chosen, and which an unusable essential block prevents. The commands that complete in it: romBoot, cellarWdtExpire, sensorRead,
voltageSample, clockMonitorChange, logFlush, bootToView. -/
def Obligations.CellarEvents : Prop :=
  ∀ (s : State) (readings : List Int) (v : Fin 24) (mv : BitVec 16) (i : Fin 8) (ok : Bool) (e : LogEntry), s.Canonical →
    let starts := s.cellar.romDue = true ∧ s.cellar.pwrGood = true ∧ s.fault.tripHold = false ∧ s.rd F.pwrStatus_STATE < 2
    let d := s.desc
    let tries := (d.trial = 1 ∨ d.trial = 2) ∧ bitAt d.valid (d.trial - 1) = true ∧ d.count = 0
    let slot := s.bootSlot (if tries then d.trial - 1 else d.active % 2) (decide tries)
    let unit (j : Nat) := (s.unflushedLog.drop (128 * j)).take 128
    let flushes := 128 ≤ s.cellar.unflushed ∨ (s.unflushedLog.any fun e => 2 ≤ e.severity) = true
    let views := s.cellar.booted = true ∧ s.svc.bootDue = true ∧ s.rd F.pwrStatus_STATE < 2 ∧ s.rd F.stStatus_STATE = 0 ∧
      s.rd F.cellarStatus_LIFECYCLE ≠ 5
    (starts → s.cellar.fuses.lifecycle ≠ 5 → Leads .romBoot s fun t => t.cellar.romDue = false ∧
      t.cellar.booted = slot.isSome ∧ t.rd F.cellarStatus_ROM_RECOVERY = bit slot.isNone ∧
      (slot = none → t.rd F.cellarFwver_VERSION = 0) ∧
      ∀ x ∈ slot, t.rd F.cellarStatus_SLOT = x.1 ∧ t.rd F.cellarStatus_TRIAL = bit x.2 ∧ t.svc.bootDue = true ∧
        t.rd F.cellarFwver_VERSION = s.flashNat (slotBase x.1 + 4) 4 ∧ t.cellar.runSvn = s.slotSvn x.1 ∧ t.cellar.runKey = s.slotKey x.1 ∧
        t.cellar.trialWaits = x.2 ∧ t.cellar.wdtLog = none ∧ t.fault.resultsDue = false ∧ (s.fault.resultsDue = true → Pends 493 s t)) ∧
    (¬ starts → Leads .romBoot s (· = s)) ∧
    (starts → s.cellar.fuses.lifecycle = 5 → Leads .romBoot s fun t => t.cellar.romDue = false ∧ t.cellar.booted = false ∧
      t.rd F.cellarStatus_ROM_RECOVERY = 0) ∧
    Leads .cellarWdtExpire s (fun t => t = { s with cellar := { s.cellar with wdtDue := s.cellar.wdtDue.or (some 1) } }) ∧
    (readings.length = 12 → Leads (.sensorRead readings) s fun t =>
      t.rd F.cellarSeconds_COUNT = (s.rd F.cellarSeconds_COUNT + if (s.cellar.reads + 1) % 10000 = 0 then 1 else 0) %
        2 ^ F.cellarSeconds_COUNT.width ∧ ∀ j : Fin 12,
      t.rd (F.cellarTemp_TEMP j.val) = unsignedAt 16 (readings.getD j.val 0) ∧
      t.cellar.hot[j.val]? = some (if 2640 ≤ t.temp j.val then min 2 (s.cellar.hot.getD j.val 0 + 1) else 0) ∧
      (s.cellar.booted = true → t.rd (F.cellarTemp_LEVEL j.val) = tempLevel (signedAt 16 (s.prm P.tempWarn)) (signedAt 16 (s.prm P.tempCrit))
        (s.prm P.tempHyst : Nat) (s.rd (F.cellarTemp_LEVEL j.val)) (t.temp j.val))) ∧
    (v.val < s.cellar.volt.length → Leads (.voltageSample v mv) s fun t =>
      t.cellar.volt = s.cellar.volt.set v.val ((mv.toNat :: s.cellar.volt.getD v.val []).take 4) ∧
      t.rd (F.cellarVolt_LEVEL v.val) = (let x := t.rd (F.cellarVolt_MV v.val)
        if x < (s.voltLimits v.val).1 then 1 else if (s.voltLimits v.val).2 < x then 2 else 0)) ∧
    Leads (.clockMonitorChange i ok) s (fun t => bitAt (t.rd F.cellarClkmon_OK) i.val = ok) ∧
    (s.unflushedLog.getLast? = some e → flushes → Leads .logFlush s fun t =>
      t.cellar.unflushed = 0 ∧ t.rd F.cellarLogFlushed_SEQ = e.seq % 2 ^ 32 ∧ t.cellar.log = s.cellar.log ∧
      WroteOnly [F.cellarLogFlushed_SEQ] s t ∧ ∀ j : Fin 16, s.cellar.logSector < 256 →
        t.flashBytes (logBase ((s.cellar.logSector + j.val) % 256)) (32 * (unit j.val).length) = (unit j.val).flatMap logBytes) ∧
    (¬ flushes → Leads .logFlush s (· = s)) ∧
    (¬ views → Leads .bootToView s (· = s)) ∧
    (views → s.rd F.fltSummary_ESSENTIAL = 0 → Leads .bootToView s fun t => t.svc.bootDue = false ∧
      (s.pkgChoice = none → t.svcMask 0 = 31 ∧ t.rd F.svcStatus_PKG_VALID = 0 ∧ t.svc.held = [] ∧ t.svc.chimes = [] ∧ t.svc.digest = []) ∧
      ∀ i ∈ s.pkgChoice, t.rd F.svcStatus_PKG_SLOT = i ∧ t.rd F.svcStatus_PKG_VALID = 1 ∧
        t.rd F.svcPkgVersion_VERSION = s.flashNat (pkgBase i + 4) 4) ∧
    (views → s.rd F.fltSummary_ESSENTIAL = 1 → Leads .bootToView s fun t =>
      t.svcMask 0 = 31 ∧ t.rd F.svcStatus_PKG_VALID = 0 ∧
      t.svc = { s.svc with bootDue := false, held := [], signals := List.replicate 128 0, heard := [], telltales := [], chimes := [],
                           notify := false, back := 0, quiet := [], record := none, autostart := 0, digest := [] })

/-- CAN FD, the signal map, telltales and chimes (R484, R486, R488, R489, R492): a frame counts and decodes for the signals it matches,
a signal times out, bus-off and its recovery, the cells of a pipe's telltales at its latch line, a blink, the end of a bulb check, and a
chime that gives way to another. The commands that complete in it: canFrameRx, canBusoff, signalTimeout, canBusoffRecovery,
telltaleWrite, telltaleBlink, bulbCheckEnd, chimePreempt. -/
def Obligations.ServiceEvents : Prop :=
  ∀ (s : State) (n : Fin 2) (ide : Bool) (id : BitVec 29) (data : List Byte) (e : Fin 128) (tec rec : BitVec 8) (p : Fin 8) (i : Fin 64)
    (k : Fin 4) (g : Signal) (tt : Telltale) (h : ChimeRun) (c : Chime) (next start : Nat), s.Canonical →
    let state := s.rd (F.canStatus_STATE n.val)
    let active := state = 1 ∨ state = 2
    let wired := s.canWired n.val = true
    let unit := unitId 8 n.val
    let run := s.ttRun i.val
    let m := 4 + k.val
    let pattern := if s.ttWanted i.val tt then tt.lit else tt.dark
    let cells := (s.ttRows tt).zipIdx.foldl (fun s r => cellRow .cellar (pattern + r.2 * (s.ttSource tt).2.1) r.1.1 r.1.2 s) s
    let runs (f : TtRun) (t : State) : Prop := t = { s with svc := { s.svc with telltales := s.svc.telltales.set i.val f } }
    (active → wired → Leads (.canFrameRx n ide id ⟨data, tec, rec⟩) s fun t =>
      t.rd (F.canStatus_TEC n.val) = tec.toNat ∧ t.rd (F.canStatus_REC n.val) = rec.toNat ∧
      t.rd (F.canStatus_STATE n.val) = (if 128 ≤ tec.toNat ∨ 128 ≤ rec.toNat then 2 else 1) ∧
      t.rd (F.canFrames_COUNT n.val) = (s.rd (F.canFrames_COUNT n.val) + 1) % 2 ^ (F.canFrames_COUNT n.val).width ∧
      (s.mapRuns = false → Only [F.canFrames_COUNT n.val, F.canStatus_STATE n.val, F.canStatus_TEC n.val, F.canStatus_REC n.val] s t) ∧
      (s.mapRuns = true → s.signals[e.val]? = some g → g.can = n.val → g.ide = ide → g.id = id.toNat →
        e.val < s.svc.signals.length → t.signalState e.val = g.decode (data.take 64) ∧ e.val ∈ t.svc.heard)) ∧
    (¬ (active ∧ wired) → Leads (.canFrameRx n ide id ⟨data, tec, rec⟩) s (· = s)) ∧
    (¬ active → Leads (.canBusoff n tec rec) s (· = s)) ∧
    (s.signals[e.val]? = some g → s.mapRuns = true → fieldAt (s.pkgBytes 2 fun _ => true) (e.val * 16 + 14) 2 ≠ 0 →
      s.signalState e.val ≠ 3 → e.val < s.svc.signals.length → Leads (.signalTimeout e) s fun t => t.signalState e.val = 3) ∧
    (active → Fresh unit s → Leads (.canBusoff n tec rec) s fun t => t.rd (F.canStatus_STATE n.val) = 3 ∧
      t.rd (F.canStatus_TEC n.val) = tec.toNat ∧ t.rd (F.canStatus_REC n.val) = rec.toNat ∧ Suspected unit s t) ∧
    (state = 3 → Leads (.canBusoffRecovery n) s fun t => t.rd (F.canStatus_STATE n.val) = 1 ∧ t.rd (F.canStatus_TEC n.val) = 0 ∧
      t.rd (F.canStatus_REC n.val) = 0 ∧ (t.fltUnit unit).retrying = false) ∧
    (s.svcState 1 = 2 → s.pipeOn p.val = true → s.telltales[i.val]? = some tt → tt.pipe = p.val → run.active = true → run.due = true →
      i.val < s.svc.telltales.length → s.svc.quiet.contains p.val = false → Leads (.telltaleWrite p) s fun t => (t.ttRun i.val).due = false ∧
        t.bitOf F.svcTtLit_TT i.val = s.ttWanted i.val tt ∧ (s.telltales = [tt] → t.vat = cells.vat)) ∧
    (s.svcState 1 ≠ 2 ∨ s.pipeOn p.val = false ∨ s.svc.quiet.contains p.val = true → Leads (.telltaleWrite p) s (· = s)) ∧
    (s.telltales[i.val]? = some tt → s.svcState 1 = 2 ∨ s.svcState 1 = 3 → run.active = true → s.ttBlinks tt = true → s.halfOver i.val tt = true → i.val < s.svc.telltales.length →
      Leads (.telltaleBlink i) s (runs { run with half := !run.half, due := true })) ∧
    (run.bulb = true → i.val < s.svc.telltales.length → Leads (.bulbCheckEnd i) s (runs { run with bulb := false, due := run.active })) ∧
    ((s.svc.chimes.find? fun h => h.player == m) = some h → h.next = some (next, start) →
      s.chimeEntries[next]? = some c →
      (s.rd (F.xpGain_CURRENT h.out (120 + m)) ≠ 0 → Leads (.chimePreempt k) s (· = s)) ∧
      (s.rd (F.xpGain_CURRENT h.out (120 + m)) = 0 → Leads (.chimePreempt k) s fun t =>
        (t.svc.chimes.find? fun h => h.player == m) = some ⟨m, next, c.prio, c.out % 128, none⟩ ∧
        t.rd (F.playAddr_ADDR m) = c.addr % 2 ^ 40 ∧ t.rd (F.playLen_LEN m) = c.len % 2 ^ 24))

/-! ### The cascade (R501 to R530) -/

/-- Rolwauz links and the chain (R502, R503, R505, R507 to R511, R514): a link comes up on its widest set of lanes, goes down, retrains
and retires the lanes that fail; discovery gives a position, and a link in conflict carries nothing; a slot sends a TIMING flit that is
due, else a flit to be replayed, else the first class-0 line, audio flit or best-effort flit that has a credit, else an IDLE flit; the
interrupts for a peer join the messages; an IDLE flit's control word returns credits. The commands that complete in it: linkUp,
linkDown, linkRetrain, chainDiscovery, flitLaunch, idleFlitRx. -/
def Obligations.CascadeLinks : Prop :=
  ∀ (s : State) (l : Fin 2) (pass : BitVec 4) (pool dot : Nat) (chain : Chain) (frac : BitVec 8) (h : FlitHead) (f : Flit) (rest : List Flit)
    (failed : BitVec 4) (conflict : BitVec 2) (found : Option Chain) (q : Fin 5) (src : Fin 512),
    s.Canonical → l.val < s.casc.links.length →
    let k := s.link l.val
    let state := s.rd (F.cascLStatus_STATE l.val)
    let width := s.linkWidth l.val ((s.linkLanes l.val).filter fun j => pass.getLsbD j).length
    let unit (j : Nat) := unitId 5 (4 * l.val + j)
    let u := s.atDot dot
    let idle := s.flitTo (s.rd (F.cascLStatus_PARTNER_POS l.val)) .idle
    let word (f : Flit) (k' : CascLink) : Prop := ∃ pool n, k'.sent = some (f, k.rxSeq, k.nakOwed, pool, n) ∧ k'.nakOwed = false ∧
      k'.lanes = laneBytes k.width (flitBytes f k.rxSeq k.nakOwed pool n)
    let good := h.crcOk = true ∧ h.typ.val < 6
    let slot := state = 2 ∧ s.casc.intrOut = []
    let free := k.timingDue = false ∧ k.resend = [] ∧ k.replay.length < 256
    let sends (f : Flit) (t : State) : Prop := word { f with seq := k.txSeq } (t.link l.val) ∧
      (t.link l.val).txSeq = (k.txSeq + 1) % 4096 ∧ (t.link l.val).replay = k.replay ++ [{ f with seq := k.txSeq }] ∧
      (t.link l.val).credits = k.credits.modify f.pool (· - 1)
    let trains := s.linkPowered l.val = true ∧ (state = 1 ∨ state = 3) ∧ 0 < width
    let retrains := state = 2 ∨ k.retraining = true
    let far := max 32 (min 256 pool)
    let mine := max 32 (min 256 (s.rd (F.cascLCtl_C0_CREDITS l.val)))
    let pools (c0 : Nat) : List Nat := [c0, 432 - c0, 64, 16]
    (trains → Leads (.linkUp l pass pool) s fun t =>
      t.rd (F.cascLStatus_STATE l.val) = 2 ∧ t.rd (F.cascLStatus_LANES_ACTIVE l.val) = width ∧
      t.rd F.cascStatus_CHAIN_READY = 0 ∧ Pends (464 + l.val) s t ∧
      (s.senders l.val = [] → (t.link l.val).farC0 = far ∧ (t.link l.val).pools = pools mine ∧ (t.link l.val).retraining = false ∧
        (t.link l.val).credits = if k.retraining then resized (pools far) (pools k.farC0) k.credits else pools far) ∧
      (k.retraining = true → ∀ j ∈ s.linkLanes l.val, pass.getLsbD j = false → t.unitState (unit j) = 2)) ∧
    (¬ trains → Leads (.linkUp l pass pool) s (· = s)) ∧
    (state ≠ 1 → state ≠ 2 → Leads (.linkDown l) s (· = s)) ∧
    (state = 1 ∨ state = 2 → Leads (.linkDown l) s fun t => t.rd (F.cascLStatus_STATE l.val) = 3 ∧
      t.rd (F.cascLStatus_LANES_ACTIVE l.val) = 0 ∧ t.rd F.cascStatus_CHAIN_READY = 0 ∧ Pends (464 + l.val) s t ∧ t.link l.val = link0) ∧
    (state = 2 → (∀ j, j < 4 → Fresh (unit j) s) → Leads (.linkRetrain l 0) s fun t =>
      t.rd (F.cascLStatus_STATE l.val) = 1 ∧ Counted (F.cascLRetrain_COUNT l.val) s t ∧ (t.link l.val).retraining = true ∧
      Pends (464 + l.val) s t ∧ ∀ j, j < 4 → Suspected (unit j) s t) ∧
    (retrains → Leads (.linkRetrain l failed) s fun t => (∀ j : Fin 4, failed.getLsbD j.val = true → t.unitState (unit j.val) = 2) ∧
      (t.linkLanes l.val = [] → t.rd (F.cascLStatus_STATE l.val) = 3)) ∧
    (¬ retrains → Leads (.linkRetrain l failed) s (· = s)) ∧
    (s.standalone = true → Leads (.chainDiscovery found conflict) s (· = s)) ∧
    (s.standalone = false → conflict.getLsbD l.val = true → state = 2 → Leads (.chainDiscovery found conflict) s fun t =>
      t.rd (F.cascLStatus_STATE l.val) = 4 ∧ t.rd (F.cascLStatus_LANES_ACTIVE l.val) = 0 ∧ t.link l.val = link0) ∧
    (s.standalone = false → chainFits s.isSlave (some chain) = true → Leads (.chainDiscovery (some chain) 0) s fun t => t.rd F.cascStatus_POSITION = chain.pos.val ∧
      t.rd F.cascStatus_POS_VALID = 1 ∧ t.rd F.cascStatus_DEVICES = chain.devices.val ∧ t.rd F.cascStatus_CHAIN_READY = 1 ∧
      t.rd F.cascStatus_UPSTREAM = chain.upstream.val ∧ t.casc.n1 = chain.n1.val ∧ Pends 466 s t) ∧
    (s.standalone = false → chainFits s.isSlave found = false → Leads (.chainDiscovery found 0) s (· = s)) ∧
    (s.isSlave = true → Leads (.chainDiscovery none 0) s fun t => t.rd F.cascStatus_POS_VALID = 0 ∧
      t.rd F.cascStatus_DEVICES = 0 ∧ t.rd F.cascStatus_CHAIN_READY = 0) ∧
    (slot → k.timingDue = true → Leads (.flitLaunch l dot frac) s fun t => (t.link l.val).timingDue = false ∧
      word (u.timingFlit l.val (u.now * 256 + frac.toNat)) (t.link l.val) ∧ (t.link l.val).replay = k.replay) ∧
    (slot → k.timingDue = false → k.resend = f :: rest → Leads (.flitLaunch l dot frac) s fun t => word f (t.link l.val) ∧
      (t.link l.val).resend = rest ∧ (t.link l.val).txSeq = k.txSeq ∧ (t.link l.val).replay = k.replay) ∧
    (slot → free → k.c0 = f :: rest → (∀ g ∈ k.c0, k.hasCredit g = true) → Leads (.flitLaunch l dot frac) s (sends f)) ∧
    (slot → free → (∀ g ∈ k.c0, k.hasCredit g = false) → k.audio = f :: rest → (∀ g ∈ k.audio, k.hasCredit g = true) →
      Leads (.flitLaunch l dot frac) s (sends f)) ∧
    (slot → free → (∀ g ∈ k.c0 ++ k.audio, k.hasCredit g = false) → q.val < k.best.length → k.bestQueue = some (q.val, f) →
      Leads (.flitLaunch l dot frac) s fun t => sends f t ∧ (t.link l.val).turn = (q.val + 1) % 5 ∧
        (t.link l.val).best = k.best.modify q.val (·.drop 1)) ∧
    (state = 2 → s.casc.intrOut = [src.val] → s.routeTo s.irqPos = some l.val → k.timingDue = true → Leads (.flitLaunch l dot frac) s
      fun t => t.casc.intrOut = [] ∧ (t.link l.val).best = k.best.modify 4 (· ++ [s.flitTo s.irqPos (.intr src false)])) ∧
    (slot → k.timingDue = false → k.resend = [] → 256 ≤ k.replay.length ∨ ((∀ g ∈ k.c0 ++ k.audio, k.hasCredit g = false) ∧ k.bestQueue = none) →
      Leads (.flitLaunch l dot frac) s fun t => word idle (t.link l.val) ∧ (t.link l.val).txSeq = k.txSeq) ∧
    (state ≠ 2 → Leads (.flitLaunch l dot frac) s (· = s)) ∧
    (state = 2 → good → h.nak = false → Leads (.idleFlitRx l h) s fun t => t.cells = s.cells ∧
      (t.link l.val).credits = k.credits.modify h.pool.val (· + h.credits.toNat) ∧
      (t.link l.val).replay = k.replay.filter fun f => (h.ackSeq.val + 4096 - f.seq) % 4096 ≥ 2048) ∧
    (state = 2 → good → h.nak = true → Leads (.idleFlitRx l h) s fun t => t.cells = s.cells ∧
      (t.link l.val).resend = k.replay.filter (fun f => (h.ackSeq.val + 4096 - f.seq) % 4096 ≥ 2048) ∧
      (t.link l.val).naks = s.now :: k.naks.filter (s.within 1000)) ∧
    (state ≠ 2 → Leads (.idleFlitRx l h) s (· = s)) ∧
    (state = 2 → ¬ good → Leads (.idleFlitRx l h) s fun t => Counted (F.cascLErr_CRC l.val) s t ∧
      if h.typ.val < 6 then t.casc = s.casc else (t.link l.val).nakOwed = true ∧ (t.link l.val).rxSeq = k.rxSeq)

/-- Flits received in order over a link that is up (R506, R507, R513 to R515, R519, R520, R523, R524, R526, R527): what each type does
for this device; one out of order or with a CRC error is discarded and a NAK owed. A slave's time, a tunnelled access without an answer,
and the peers' interrupt FIFO (R26, R516, R517, R524, R526, R529). The commands that complete in it: msgFlitRx, intrFlitRx, audioFlitRx,
lineFlitRx, timingFlitRx, cascTimeStep, cascHoldover, tunnelTimeout, cascPeerIrqFifoRead. -/
def Obligations.CascadeFlits : Prop :=
  (∀ (s : State) (l j : Fin 2) (h : FlitHead) (src : Fin 512) (id : Nat) (off : BitVec 32) (len : Fin 65) (err : Bool) (d host data : List Byte)
    (count : BitVec 32) (samples : List (BitVec 24)) (a t3 t4 dot : Nat) (timing : Timing) (frac : BitVec 8) (format : Fin 4)
    (n : BitVec 14), s.Canonical →
    s.rd (F.cascLStatus_STATE l.val) = 2 → h.crcOk = true → h.typ.val < 6 → l.val < s.casc.links.length →
    let k := s.link l.val
    let inOrder := h.seq.val = (k.rxSeq + 1) % 4096
    let room (pool : Nat) := k.owed.getD pool 0 < k.pools.getD pool 0
    let here := h.dst.val = s.myPos
    let after (pool : Nat) (s : State) : State := onLink l.val (fun k =>
      { k with rxSeq := h.seq.val, discarding := false, owed := k.owed.modify pool (· + 1) }) (controlWord l.val h s)
    let w := after 2 { s with hif := { s.hif with hostIn := host } }
    let bad : FlitHead := { h with crcOk := false }
    let discards (t : State) : Prop := (t.link l.val).rxSeq = k.rxSeq ∧ (t.link l.val).nakOwed = true ∧ (t.link l.val).discarding = true
    let got := busRead (.peer h.src) a len.val w
    let put := busWrite (.peer h.src) a data w
    let answers (u : State) (m : Msg) (t : State) : Prop := t = pushFlit j.val (u.flitTo h.src.val (.msg m)) u
    let set := timingReference timing.setting
    let fits := set.lines < 2 ^ F.refGeom_LINES.width ∧ set.dots < 2 ^ F.refGeom_DOTS.width ∧ set.synN < 2 ^ F.refSynInt_N.width ∧
      set.synNum < 2 ^ F.refSynNum_NUM.width ∧ 0 < set.synDen ∧ set.synDen < 2 ^ F.refSynDen_DEN.width ∧ set.synP ∈ [4, 6, 8, 12]
    let follows := s.rd F.cascStatus_POS_VALID = 1 ∨ s.keepsTime = true
    let arrive := (s.atDot dot).now * 256 + frac.toNat
    let x := s.finer timing.launch arrive
    let y := s.finer t3 t4
    let feed := l.val * 4 + h.channel.val
    let linePool := if h.class0 then 0 else 1
    let period (i : Nat) : List Int := (List.range 16).map fun c => (samples.getD (16 * i + c) 0#24).toInt
    let r := s.aud.links.getD l.val ⟨[], false, []⟩
    (inOrder → room 2 → here → windowAddr off.toNat = some a → s.selfTesting = false → got.2.2.routeTo h.src.val = some j.val →
      Leads (.msgFlitRx l h (.readReq id off len) host) s (answers got.2.2 (.response id got.2.1 got.1))) ∧
    (inOrder → room 2 → here → windowAddr off.toNat = some a → s.selfTesting = false → data ≠ [] → put.2.routeTo h.src.val = some j.val →
      Leads (.msgFlitRx l h (.writeReq id off (data.map some)) host) s (answers put.2 (.ack id put.1))) ∧
    (inOrder → room 2 → here → windowAddr off.toNat = none ∨ s.selfTesting = true → s.routeTo h.src.val = some j.val →
      Leads (.msgFlitRx l h (.readReq id off len) host) s (answers w (.response id true (List.replicate len.val 0xFF#8))) ∧
      Leads (.msgFlitRx l h (.writeReq id off (data.map some)) host) s (answers w (.ack id true))) ∧
    (inOrder → room 2 → here → Leads (.msgFlitRx l h (.response id err d) host) s (· = { w with casc := { w.casc with
      tunnels := s.casc.tunnels.map fun t => if t.id == id && t.pos == h.src.val && t.answer.isNone then { t with answer := some (err, d) } else t } })) ∧
    (inOrder → room 2 → here → Leads (.msgFlitRx l h (.ack id err) host) s (· = { w with casc := { w.casc with
      tunnels := s.casc.tunnels.map fun t => if t.id == id && t.pos == h.src.val && t.answer.isNone then { t with answer := some (err, []) } else t } })) ∧
    (inOrder → room 2 → ¬ here → s.routeTo h.dst.val = none → Leads (.msgFlitRx l h (.ack id err) host) s (· = w)) ∧
    (inOrder → room 2 → ¬ here → s.routeTo h.dst.val = some j.val → s.linkUp j.val = false →
      Leads (.msgFlitRx l h (.ack id err) host) s (· = w)) ∧
    (inOrder → room 2 → ¬ here → s.routeTo h.dst.val = some j.val → s.linkUp j.val = true →
      Leads (.msgFlitRx l h (.ack id err) host) s (· = pushFlit j.val
      { dst := h.dst.val, src := h.src.val, class0 := h.class0, channel := h.channel.val, seq := 0, body := .msg (.ack id err) } w)) ∧
    (inOrder → room 2 → here → s.casc.fifo.length < 32 → Leads (.intrFlitRx l h src false) s fun t =>
      t.casc.fifo = s.casc.fifo ++ [(src.val, h.src.val)] ∧ t.rd F.cascPeerIrqFifo_VALID = 1 ∧ Pends 469 s t) ∧
    (inOrder → room 2 → here → 32 ≤ s.casc.fifo.length → Leads (.intrFlitRx l h src false) s fun t =>
      t.casc.fifo = s.casc.fifo ∧ Counted F.cascPeerIrqLost_COUNT s t) ∧
    (inOrder → room 2 → here → s.isPending src.val = false → s.isRaw src.val = false → Leads (.intrFlitRx l h src true) s fun t =>
      src.val ∉ t.intc.peerWait) ∧
    (inOrder → room 3 → here → s.rd (F.cascLAud_EN l.val) = 1 → r.fifo.length ≤ 6 → l.val < s.aud.links.length →
      Leads (.audioFlitRx l h count samples true) s fun t => t.cells = s.cells ∧
        (t.aud.links[l.val]?.map (·.fifo)) = some (r.fifo ++ [period 0, period 1])) ∧
    (inOrder → room 3 → here → s.rd (F.cascLAud_EN l.val) = 1 → r.fifo.length ≤ 6 → l.val < s.aud.links.length →
      Leads (.audioFlitRx l h count samples false) s fun t => t.cells = s.cells ∧
        (t.aud.links[l.val]?.map (·.fifo)) = some (r.fifo ++ List.replicate 2 (List.replicate 16 0))) ∧
    (inOrder → room 3 → here → s.rd (F.cascLAud_EN l.val) = 1 → r.fifo.length = 8 → s.rd (F.cascLAud_SLIPS l.val) + 2 < 2 ^ (F.cascLAud_SLIPS l.val).width →
      Leads (.audioFlitRx l h count samples true) s fun t => t.rd (F.cascLAud_SLIPS l.val) = s.rd (F.cascLAud_SLIPS l.val) + 2 ∧
        (t.aud.links[l.val]?.map (·.fifo)) = s.aud.links[l.val]?.map (·.fifo)) ∧
    (inOrder → room 3 → here → s.rd (F.cascLAud_EN l.val) = 0 → Leads (.audioFlitRx l h count samples true) s (· = after 3 s)) ∧
    (inOrder → room linePool → s.rd (F.cascFeedCtl_EN feed) = 0 → Leads (.lineFlitRx l h 0 0 true false format data dot) s
      (· = after linePool (s.atDot dot))) ∧
    (inOrder → room linePool → s.rd (F.cascFeedCtl_EN feed) = 1 → feed < s.casc.feeds.length → data.length = 112 → 112 < s.feedBytes feed →
      s.rd (F.cascFeedCtl_FORMAT feed) = format.val → Leads (.lineFlitRx l h 0 0 true false format data dot) s fun t =>
        t.rd (F.cascFeedStatus_STATE feed) = 2 ∧ t.rd (F.cascFeedStatus_LINE feed) = 0 ∧
        t.feed feed = { feed0 with parts := 1, data := data, class0 := h.class0 }) ∧
    (inOrder → room linePool → s.rd (F.cascFeedCtl_EN feed) = 1 → s.rd (F.cascFeedStatus_STATE feed) = 2 → feed < s.casc.feeds.length →
      n.toNat = (s.feed feed).line → data.length ≤ 112 → data.length < 112 ∨ s.feedBytes feed = (s.feed feed).data.length + data.length →
      Leads (.lineFlitRx l h n 0 false false format data dot) s fun t => t.feed feed = { feed0 with line := n.toNat + 1, class0 := h.class0 } ∧
        t.rd (F.cascFeedStatus_LINE feed) = n.toNat) ∧
    (inOrder → room linePool → s.rd (F.cascFeedCtl_EN feed) = 1 → s.rd (F.cascFeedStatus_STATE feed) ≠ 2 → Leads (.lineFlitRx l h n 0 false false format data dot) s
      (Counted (F.streamOrphan_LINES (s.rd (F.cascFeedCtl_STREAM feed))) s)) ∧
    (Leads (.msgFlitRx l bad (.ack id err) host) s fun t => Counted (F.cascLErr_CRC l.val) s t ∧ discards t) ∧
    (inOrder → ¬ room 3 → k.discarding = false → h.nak = false → Leads (.audioFlitRx l h count samples true) s discards) ∧
    ((k.rxSeq + 4096 - h.seq.val) % 4096 ≥ 2048 → ¬ inOrder → k.discarding = false → h.nak = false →
      Leads (.lineFlitRx l h 0 0 true false format data dot) s discards) ∧
    (s.isSlave = true → follows → s.rd F.cascStatus_UPSTREAM = l.val → fits →
      Leads (.timingFlitRx l h timing dot frac) s fun t => t.refRegs = set ∧
        ∀ p ∈ timing.pending, t.casc.geom = some (timingReference p.1, p.2)) ∧
    (Leads (.timingFlitRx l h timing dot frac) s fun t => (t.link l.val).lastTiming = some (arrive, timing.launch) ∧
      (t.link l.val).silent = 0) ∧
    (s.isSlave = true → follows → s.rd F.cascStatus_UPSTREAM = l.val → timing.last = some (t4, t3) →
      Leads (.timingFlitRx l h timing dot frac) s fun t =>
        t.rd F.cascTime_ERROR = unsignedAt 24 (clampInt (-(2 ^ 23)) (2 ^ 23 - 1) ((x - y) / 2 / 16)) ∧
        t.rd (F.cascLDelay_D l.val) = min (2 ^ 20 - 1) (((x + y) / 2).toNat / 16))) ∧
  (∀ (s : State) (step : TimeStep) (id : Nat) (tun : Tunnel) (who : Initiator), s.Canonical →
    let state := s.rd F.cascTime_STATE
    let l := (s.routeTo tun.pos).getD 0
    let setting := step.setting
    let at_ := advanceStamp (max 1 setting.lines) (max 1 setting.dots) step.master (step.delay + (s.dotsBetween step.own s.now).toNat)
    let steps := s.casc.step.isSome = true ∧ s.rd F.beamNow_DOT = 0 ∧ s.beamRuns = true
    let lost := s.isSlave = true ∧ (state = 1 ∨ state = 2) ∧ 8 ≤ (s.link (s.rd F.cascStatus_UPSTREAM)).silent
    (s.casc.step = some step → s.rd F.beamNow_DOT = 0 → s.beamRuns = true → Leads .cascTimeStep s fun t =>
      t.ref.setting = setting ∧ t.now = at_ ∧ t.casc.step = none ∧
      t.rd F.beamEpoch_EPOCH = (step.epoch + if at_ / 2 ^ 32 < step.master / 2 ^ 32 then 1 else 0) % 2 ^ 32 ∧ Counted F.cascJumps_COUNT s t ∧ Pends 468 s t ∧ t.mem = s.mem) ∧
    (¬ steps → Leads .cascTimeStep s (· = s)) ∧
    (¬ lost → Leads .cascHoldover s (· = s)) ∧
    (lost → Leads .cascHoldover s fun t =>
      t.rd F.cascTime_STATE = 3 ∧ Pends 467 s t) ∧
    ((s.casc.tunnels.find? fun t => t.id == id && t.answer.isNone) = none → Leads (.tunnelTimeout id) s (· = s)) ∧
    ((s.casc.tunnels.find? fun t => t.id == id && t.answer.isNone) = some tun → Leads (.tunnelTimeout id) s fun t =>
      Counted (F.cascLErr_TUNNEL l) s t ∧ Pends 472 s t ∧ t.mem = s.mem ∧
      t.casc.tunnels = s.casc.tunnels.map fun u => if u.id = id then { u with answer := some (true, []) } else u) ∧
    (reaches who .irs = false → Leads (.cascPeerIrqFifoRead who) s fun t => t.lastRead = 0xFFFFFFFF ∧ t.casc.fifo = s.casc.fifo ∧
      Counted F.hifDecodeErr_COUNT s t ∧ Pends 16 s t) ∧
    (reaches who .irs = true → Leads (.cascPeerIrqFifoRead who) s fun t => t.lastRead = s.rdReg 0xE00014 ∧ t.casc.fifo = s.casc.fifo.drop 1 ∧
      t.rd F.cascPeerIrqFifo_VALID = (if s.casc.fifo.length ≤ 1 then 0 else 1) ∧
      t.rd F.cascPeerIrqFifo_SRC = (t.casc.fifo.headD (0, 0)).1 % 512 ∧
      WroteOnly [F.cascPeerIrqFifo_SRC, F.cascPeerIrqFifo_POS, F.cascPeerIrqFifo_VALID] s t))

/-! ### Power, resets, faults and pins (R531 to R605) -/

/-- The power states' own events (R535, R537, R538, R540, R541, R604): a rising PWR_REQ, good power, the end of a return, and the
protective trip. The commands that complete in it: pwrReqRise, pwrGoodRise, powerReturnDone, thermalTrip. -/
def Obligations.PowerEvents : Prop :=
  ∀ (s : State) (a b : Nat) (i : Nat), s.Canonical →
    let state := s.rd F.pwrStatus_STATE
    let held := s.fault.tripHold
    let returns := s.rd F.pwrStatus_TRANSIT = 1 ∧ (state = 2 ∨ state = 3 ∨ (state = 4 ∧ s.cellar.pwrGood = true)) ∧ held = false
    (held = true → Leads .pwrReqRise s (· = s)) ∧
    (held = false → state = 3 ∨ state = 4 → Leads .pwrReqRise s fun t =>
      t.rd F.pwrStatus_TRANSIT = 1 ∧ Only [F.pwrStatus_TRANSIT] s t) ∧
    (held = false → state < 3 → s.rd F.stStatus_STATE = 1 → Leads .pwrReqRise s fun t =>
      t.rd F.stStatus_STATE = 2 ∧ Only [F.stStatus_STATE] s t) ∧
    (held = false → state < 3 → s.rd F.stStatus_STATE ≠ 1 → Leads .pwrReqRise s (· = s)) ∧
    Leads (.pwrGoodRise a b) s (fun t =>
      t = { s with cellar := { s.cellar with pwrGood := true, gpHigh := [decide (2500 < a), decide (2500 < b)] } }) ∧
    (returns → Leads .powerReturnDone s fun t => t.rd F.pwrStatus_STATE = 0 ∧ t.rd F.pwrStatus_TRANSIT = 0 ∧
      t.rd F.pwrStatus_LP5X_SR = 0 ∧ t.rd F.pwrTrimmed_UNIT = 0 ∧ t.cellar.fuses = s.cellar.fuses ∧ t.pending = s.pending ∧
      (state = 2 → t.vat = s.vat) ∧ (state = 4 → t.vat.data = [] ∧ t.cellar.booted = false) ∧
      (state = 2 → s.hif.hostDue = false → t.rd F.pwrStamp_STAMP = s.now % 2 ^ 48) ∧
      (state ≠ 4 → s.hif.hostDue = true → t.rd F.pwrReset_LAST = 2)) ∧
    (s.rd F.pwrStatus_TRANSIT = 0 ∨ state < 2 ∨ (state = 4 ∧ s.cellar.pwrGood = false) ∨ held = true → Leads .powerReturnDone s (· = s)) ∧
    (held = false → ((List.range 12).find? fun i => 2 ≤ s.cellar.hot.getD i 0) = some i → Leads .thermalTrip s fun t =>
      t.fault.tripHold = true ∧ t.rd F.fltSummary_FAULT_N = 1 ∧ Counted F.pwrResets_TRIP s t ∧ t.cellar.fuses = s.cellar.fuses ∧
      t.cellar.flash = s.cellar.flash ∧ t.pending = s.pending ∧
      ∀ j : Fin 12, t.rd (F.cellarTemp_TEMP j.val) = s.rd (F.cellarTemp_TEMP j.val)) ∧
    (held = true ∨ (∀ i, i < 12 → s.cellar.hot.getD i 0 < 2) → Leads .thermalTrip s (· = s))

/-- The resets (R16, R417, R448, R501, R540 to R549): what each records of itself, what it keeps and what it takes, and where an event
is none. A HOST, FLR or WARM reset gives PLAIN registers their reset values and keeps the others; a WDT reset keeps the STICKY ones, but
for HEALTH fields, which the record restores. The commands that complete in it: por, pinReset, hostReset, flr, warmReset, wdtReset. -/
def Obligations.Resets : Prop :=
  ∀ (s : State) (role : Fin 4) (xspi good down : Bool) (cause : Fin 4), s.Canonical →
    let state := s.rd F.pwrStatus_STATE
    let held := s.fault.tripHold
    let kept (t : State) : Prop := t.cellar.fuses = s.cellar.fuses ∧ t.cellar.flash = s.cellar.flash ∧ t.pending = s.pending
    let straps (t : State) : Prop := t.rd F.pinStraps_ROLE = role.val ∧ t.rd F.pinStraps_XSPI_TGT_EN = (if xspi then 1 else 0) ∧
      t.rd F.pinStraps_ROLE_BAD = (if role.val = 3 then 1 else 0) ∧ t.rd F.cascStatus_ROLE = (if role.val = 3 then 0 else role.val)
    let own := [F.pwrReset_LAST, F.pwrResets_HOST, F.pwrResets_FLR, F.pwrResets_WARM, F.pwrResets_WDT, F.pwrTrimmed_UNIT, F.cellarStatus_WDT_CAUSE,
      F.cellarStatus_LOCKSTEP_ERR]
    let health := (List.range 4).map F.csiStatus_HEALTH ++ (List.range 64).map F.vatBankStatus_HEALTH ++
      (List.range 2).map F.cascLStatus_LANE_HEALTH ++ (List.range 8).map F.tdmStatus_HEALTH
    let flags := [F.pinFlagLo_PIN.key, F.pinFlagHi_PIN.key]
    let plain (t : State) : Prop := ∀ g : Fld, g.key / 2 ^ 30 = 2 → reportKey g.key = false → g.key ∉ flags → t.rd g = State.reset.rd g
    let followed (t : State) : Prop := ∀ i : Fin 112, t.pinFlag i.val = ((s.pinIrq i.val == 4 && s.flag (F.pinState_FILTERED i.val)) ||
      (s.pinIrq i.val == 5 && !s.flag (F.pinState_FILTERED i.val)))
    let stays (n : Nat) (but : List Fld) (t : State) : Prop :=
      ∀ g : Fld, g.key / 2 ^ 30 < n → reportKey g.key = false → (∀ f ∈ but, g.key ≠ f.key) → t.rd g = s.rd g
    let quiet := s.rd F.pwrTrimmed_UNIT = 0 ∧ s.resumeMask = 0
    let host (kind : Nat) (t : State) : Prop := kept t ∧ t.rd F.pwrReset_LAST = kind ∧ t.rd F.intcHostMode_MSIX = 0 ∧
      t.hif.busMaster = false ∧ t.rd F.pwrStatus_STATE = state ∧ t.cellar.update = none ∧ t.cellar.nonce = none ∧
      (quiet → plain t ∧ followed t ∧ stays 2 own t)
    Leads (.por role xspi good) s (fun t => kept t ∧ straps t ∧ t.rd F.pwrReset_LAST = 0 ∧ t.vat.data = [] ∧ t.fault.record = [] ∧
      t.fault.tripHold = false ∧ t.rd F.pwrResets_PIN = 0 ∧ t.rd F.refStatus_STATE = State.reset.rd F.refStatus_STATE ∧
      t.rd F.cellarStatus_LIFECYCLE = s.cellar.fuses.lifecycle % 8) ∧
    (held = false ∨ s.tooHot = false → Leads (.pinReset role xspi) s fun t => kept t ∧ straps t ∧ t.rd F.pwrReset_LAST = 1 ∧
      t.rd F.pwrResets_PIN = min 255 (s.rd F.pwrResets_PIN + 1) ∧ t.rd F.pwrResets_WDT = s.rd F.pwrResets_WDT ∧
      t.fault.tripHold = false ∧ t.fault.record = s.fault.record ∧ t.rd F.pwrReset_TRIP = (if held then 1 else 0)) ∧
    (held = true → s.tooHot = true → Leads (.pinReset role xspi) s (· = s)) ∧
    (state < 2 → held = false → (down = true → s.hif.pcieUp = true) → Leads (.hostReset down) s fun t => host 2 t ∧
      Counted F.pwrResets_HOST s t ∧ t.hif.pcieUp = (s.hif.pcieUp && !down)) ∧
    (state = 2 ∨ state = 3 → held = false → down = false ∨ s.rd F.svcStatus_HOST_PRESENT = 0 → Leads (.hostReset down) s
      (· = { s with hif := { s.hif with pcieUp := s.hif.pcieUp && !down, hostDue := s.hif.hostDue || !(down && s.hif.turnOff) } })) ∧
    (state = 2 ∨ state = 3 → held = false → Leads (.hostReset true) s fun t => t.rd F.svcStatus_HOST_PRESENT = 0 ∧ t.hif.pcieUp = false ∧
      t.hif.hostDue = (s.hif.hostDue || !s.hif.turnOff) ∧ t.rd F.pwrReset_LAST = s.rd F.pwrReset_LAST) ∧
    (held = true ∨ 4 ≤ state ∨ (state < 2 ∧ down = true ∧ s.hif.pcieUp = false) → Leads (.hostReset down) s (· = s)) ∧
    (held = true ∨ 2 ≤ state → Leads .flr s (· = s)) ∧
    (s.cellar.warmDue = false ∨ held = true ∨ 2 ≤ state → Leads .warmReset s (· = s)) ∧
    (state < 2 → held = false → Leads .flr s fun t => host 3 t ∧ Counted F.pwrResets_FLR s t) ∧
    (s.cellar.warmDue = true → held = false → state < 2 → Leads .warmReset s fun t => kept t ∧ t.rd F.pwrReset_LAST = 4 ∧
      Counted F.pwrResets_WARM s t ∧ t.cellar.booted = false ∧ t.cellar.romDue = true ∧ t.cellar.warmDue = false ∧
      t.vat.data = s.vat.data ∧ t.fault.testSession = false ∧ t.cellar.update = none ∧ t.cellar.nonce = none ∧
      (s.rd F.pwrTrimmed_UNIT = 0 → plain t ∧ followed t ∧ stays 2 own t)) ∧
    (s.cellar.wdtDue = some cause.val → held = false → state < 4 → Leads .wdtReset s fun t => kept t ∧ t.rd F.pwrReset_LAST = 5 ∧
      Counted F.pwrResets_WDT s t ∧ t.rd F.cellarStatus_WDT_CAUSE = cause.val ∧ t.vat.data = s.vat.data ∧
      t.cellar.booted = false ∧ t.cellar.wdtDue = none ∧ t.cellar.wdtLog = some cause.val ∧ t.fault.record = s.fault.record ∧ plain t ∧ stays 1 (own ++ health) t) ∧
    (s.cellar.wdtDue = none ∨ held = true ∨ 4 ≤ state → Leads .wdtReset s (· = s))

/-- The fault manager, the self-test's end and the test port (R557 to R563, R568, R569, R577, R581): a retry that succeeds, one that
fails and goes on, the failure that makes it permanent, a unit healthy again, an upset, and the repair map written. The commands that
complete in it: retryDone, suspectExpire, lp5xPeriodicRetraining, repairMapWrite, selftestComplete, testSessionOpen, testSessionClose.
-/
def Obligations.FaultEvents : Prop :=
  ∀ (s : State) (id : BitVec 16) (c : Fin 16) (ms : BitVec 32) (last : Fin 9) (finds : List TestFind), s.Canonical →
    let unit := id.toNat
    let u := s.fltUnit unit
    let recent := (u.attempts.filter (s.within 1000000)).length
    let known := allUnits.contains unit = true
    (known → u.retrying = true → Leads (.retryDone id true) s fun t =>
      (t.fltUnit unit).retrying = false ∧ t.unitState unit = s.unitState unit ∧ t.fault.record = s.fault.record) ∧
    (known → u.retrying = true → recent < 3 → Leads (.retryDone id false) s fun t => (t.fltUnit unit).retrying = true ∧
      (t.fltUnit unit).attempts = (s.now :: u.attempts).take 4 ∧ t.unitState unit = s.unitState unit) ∧
    (known → u.retrying = true → 3 ≤ recent → s.unitState unit ≠ 2 → Leads (.retryDone id false) s fun t =>
      t.unitState unit = 2 ∧ unit ∈ t.fault.record ∧ (t.fltUnit unit).retrying = false ∧ Pends 491 s t) ∧
    (u.retrying = false → Leads (.retryDone id true) s fun t => t.fault = s.fault ∧ t.mem = s.mem) ∧
    (known → s.unitState unit = 1 → u.retrying = false → u.upsets.any (s.within 60000000) = false →
      Leads (.suspectExpire id) s fun t => t.unitState unit = 0 ∧ t.rd F.fltLast_UNIT = unit ∧ t.rd F.fltLast_STATE = 0) ∧
    (s.unitState unit ≠ 1 → Leads (.suspectExpire id) s (· = s)) ∧
    (Fresh (unitId 3 c.val) s → s.rd F.pwrStatus_LP5X_SR = 0 → bitAt s.lp.out c.val = false →
      Leads (.lp5xPeriodicRetraining c false) s (Suspected (unitId 3 c.val) s)) ∧
    Leads (.lp5xPeriodicRetraining c true) s (· = s) ∧
    (s.rd F.fltMap_PENDING = 1 → (s.fault.map ++ s.fault.mapNew).length ≤ 4094 → Leads .repairMapWrite s fun t =>
      t.rd F.fltMap_PENDING = 0 ∧ t.rd F.fltMap_ENTRIES = (s.fault.map ++ s.fault.mapNew).length ∧
      t.fault.map = s.fault.map ++ s.fault.mapNew ∧ t.fault.mapNew = []) ∧
    (s.rd F.stStatus_STATE ≠ 0 → s.fault.tripHold = false → Leads (.selftestComplete ms last finds) s fun t =>
      t.rd F.stStatus_STATE = 0 ∧ t.rd F.stStatus_ITEM = 0 ∧ t.rd F.stStatus_REMAIN_MS = 0 ∧ t.fault.resultsDue = true ∧
      t.fault.last.any (fun r => r.elapsedMs == ms.toNat && r.seconds == s.rd F.cellarSeconds_COUNT) = true ∧
      (s.fault.testFromP4 = false → t.cellar.warmDue = true ∧ t.rd F.vatStatus_STATE = 1) ∧
      (s.fault.testFromP4 = true → t.rd F.pwrStatus_STATE = 4 ∧
        t.rd F.pwrStatus_TRANSIT = if s.rd F.stStatus_STATE = 2 then 1 else 0) ∧
      (s.rd F.stStatus_STATE = 2 → last.val < 8 → t.fault.map = s.fault.map) ∧
      (s.rd F.stStatus_STATE ≠ 2 ∨ last.val = 8 → (s.fault.map ++ s.fault.mapNew).length + finds.length ≤ 4094 →
        (∀ f ∈ finds, f.fails = true → (t.fault.map.any fun e => e.id == f.id.toNat && e.marks) = true) ∧
        (finds = [] → t.rd F.stResult_REPAIRS = 0 ∧ t.rd F.stResult_ITEMS = 0))) ∧
    (s.rd F.stStatus_STATE = 0 ∨ s.fault.tripHold = true → Leads (.selftestComplete ms last finds) s (· = s)) ∧
    (s.rd F.fltMap_PENDING = 0 → Leads .repairMapWrite s (· = s)) ∧
    (s.mayTest = true → s.rd F.pwrStatus_STATE = 0 → s.stopped = false → s.fault.tripHold = false → Leads .testSessionOpen s
      (· = { s with fault := { s.fault with testSession := true } })) ∧
    (s.mayTest = false ∨ s.rd F.pwrStatus_STATE ≠ 0 ∨ s.stopped = true ∨ s.fault.tripHold = true → Leads .testSessionOpen s (· = s)) ∧
    (s.fault.testSession = false → Leads .testSessionClose s (· = s)) ∧
    (s.fault.testSession = true → Leads .testSessionClose s
      (· = { s with fault := { s.fault with testSession := false }, cellar := { s.cellar with warmDue := true } }))

/-- The general-purpose pins (R26, R595, R597 to R599, R601): a switch of function ends, the synchronised level, of which a timer may
count the edge, reaches the filtered one, whose edge or level sets the flag that the pin's kind names, a debounce window opens and ends,
and writes of ones by the Cellar clear flags and set or clear outputs; another's write is dropped, or a decode error. The commands that
complete in it: pinFunctionSwitch, pinFilterChange, pinDebounceEnd, pinFlagClr, pinDoutSet, pinDoutClr. -/
def Obligations.Pins : Prop :=
  ∀ (s : State) (i : Fin 112) (level suppressed : Bool) (who : Initiator) (bits : BitVec 64) (hi : Bool), s.Canonical →
    let reach := reaches who .irs = true
    let allowed := mayWrite false none false (initiatorTag who) = true
    let taken := level != s.flag (F.pinCfg_INV_IN i.val)
    let was := s.flag (F.pinState_FILTERED i.val)
    let edge := was != taken && !suppressed && !s.flag (F.pinState_SWITCHING i.val)
    let old := s.pinFlag i.val
    let flag := [false, old || (edge && taken), old || (edge && !taken), old || edge, taken, !taken].getD (s.pinIrq i.val) false
    let window := s.pins.window.contains i.val
    let out := if hi then F.pinDoutHi_PIN else F.pinDoutLo_PIN
    let named (j : Nat) : Bool := if hi then 64 ≤ j && bits.getLsbD (j - 64) else decide (j < 64) && bits.getLsbD j
    let dropped (t : State) : Prop := Counted F.hifDroppedWr_COUNT s t ∧ Pends 17 s t ∧ t.rd out = s.rd out
    let decodeErr (t : State) : Prop := Counted F.hifDecodeErr_COUNT s t ∧ Pends 16 s t ∧ t.rd out = s.rd out
    let seen := s.wr (F.pinState_SYNC i.val) (if level then 1 else 0)
    let unseen := ∀ n : Fin 64, seen.timerIn n.val = s.timerIn n.val
    let synced (t : State) : Prop := t.rd (F.pinState_SYNC i.val) = (if level then 1 else 0) ∧ t.pins = s.pins ∧
      (∀ j : Fin 112, t.rd (F.pinState_FILTERED j.val) = s.rd (F.pinState_FILTERED j.val) ∧ t.pinFlag j.val = s.pinFlag j.val) ∧
      (unseen → Only [F.pinState_SYNC i.val] s t)
    let accepted (t : State) : Prop := t.rd (F.pinState_SYNC i.val) = (if level then 1 else 0) ∧
      t.rd (F.pinState_FILTERED i.val) = (if taken then 1 else 0) ∧ t.pinFlag i.val = flag ∧
      (flag = true → old = false → t.isRaw (416 + i.val / 4) = true) ∧
      t.pins.window.contains i.val = (s.pinFilt i.val == 2 && taken != was)
    Leads (.pinFunctionSwitch i) s (fun t => t.rd (F.pinState_SWITCHING i.val) = 0 ∧ Only [F.pinState_SWITCHING i.val] s t) ∧
    Leads (.pinFilterChange i level false suppressed) s synced ∧
    (window = false → Leads (.pinFilterChange i level true suppressed) s accepted) ∧
    (window = true → s.pinFilt i.val = 2 → Leads (.pinFilterChange i level true suppressed) s synced) ∧
    (window = false → Leads (.pinDebounceEnd i level suppressed) s (· = s)) ∧
    (window = true → Leads (.pinDebounceEnd i level suppressed) s accepted) ∧
    (reach → allowed → Leads (.pinFlagClr who hi bits) s fun t => t.mem = s.mem ∧ ∀ j : Fin 112, t.pinFlag j.val =
      (s.pinFlag j.val && !(named j.val && s.pinIrq j.val != 4 && s.pinIrq j.val != 5))) ∧
    (reach → allowed → Leads (.pinDoutSet who hi bits) s fun t => Only [out] s t ∧ t.rd out = s.rd out ||| bits.toNat % 2 ^ out.width) ∧
    (reach → allowed → Leads (.pinDoutClr who hi bits) s fun t => Only [out] s t ∧
      ∀ j, j < out.width → bitAt (t.rd out) j = (bitAt (s.rd out) j && !bits.getLsbD j)) ∧
    (reach → ¬ allowed → Leads (.pinFlagClr who hi bits) s dropped ∧ Leads (.pinDoutSet who hi bits) s dropped ∧
      Leads (.pinDoutClr who hi bits) s dropped) ∧
    (¬ reach → Leads (.pinFlagClr who hi bits) s decodeErr ∧ Leads (.pinDoutSet who hi bits) s decodeErr ∧
      Leads (.pinDoutClr who hi bits) s decodeErr)

end
end

