-- ==== Sys2Proof/Laws/Sparse.lean ====
section
/-! SUPPORT. The laws of the sparse stores: what a put changes, what it leaves, and that it keeps the canonical form. -/

namespace Sys2Proof.Machine

/-- An entry of a store after a put is an old entry or the one put. -/
theorem put_mem {β : Type} [DecidableEq β] (k : Nat) (v d : β) (l : List (Nat × β)) (c : Nat × β) (h : c ∈ Sparse.put k v d l) :
    c ∈ l ∨ c = (k, v) := by
  induction l with
  | nil => simp only [Sparse.put] at h; split at h <;> simp_all
  | cons a t ih =>
    obtain ⟨k', v'⟩ := a
    simp only [Sparse.put] at h
    split at h
    · split at h <;> simp_all; tauto
    · split at h
      · split at h <;> simp_all; tauto
      · simp only [List.mem_cons] at h ⊢
        rcases h with h | h
        · tauto
        · rcases ih h with h | h <;> tauto

/-- A put keeps the keys rising. -/
theorem put_rising {β : Type} [DecidableEq β] (k : Nat) (v d : β) (l : List (Nat × β)) (h : Sparse.Rising l) :
    Sparse.Rising (Sparse.put k v d l) := by
  induction l with
  | nil => simp only [Sparse.put]; split <;> simp [Sparse.Rising]
  | cons a t ih =>
    obtain ⟨k', v'⟩ := a
    simp only [Sparse.Rising, List.pairwise_cons] at h
    simp only [Sparse.put]
    split
    · split
      · simpa [Sparse.Rising, List.pairwise_cons] using h
      · rename_i hk _
        simp only [Sparse.Rising, List.pairwise_cons]
        refine ⟨?_, h⟩
        intro b hb
        simp only [List.mem_cons] at hb
        rcases hb with rfl | hb
        · exact hk
        · exact lt_trans hk (h.1 b hb)
    · split
      · split
        · exact h.2
        · rename_i he _
          subst he
          simp only [Sparse.Rising, List.pairwise_cons]; exact h
      · rename_i h1 h2
        simp only [Sparse.Rising, List.pairwise_cons]
        refine ⟨?_, ih h.2⟩
        intro b hb
        rcases put_mem _ _ _ _ _ hb with hb | rfl
        · exact h.1 b hb
        · show k' < k; omega

/-- A put keeps memory in its canonical form. -/
theorem put_wf {k : Nat} {v d : Byte} {l : List Host.Cell} (h : Memory.wf d l) : Memory.wf d (Sparse.put k v d l) := by
  refine ⟨put_rising _ _ _ _ h.1, ?_⟩
  have hall := h.2
  clear h
  induction l with
  | nil =>
    intro c hc; simp only [Sparse.put] at hc
    split at hc <;> simp_all
  | cons a t ih =>
    obtain ⟨k', v'⟩ := a
    have ht : ∀ c ∈ t, c.2 ≠ d := fun c hc => hall c (List.mem_cons_of_mem _ hc)
    have h0 := hall (k', v') (by simp)
    intro c hc
    simp only [Sparse.put] at hc
    split at hc
    · split at hc
      · exact hall c hc
      · rcases List.mem_cons.1 hc with rfl | hc
        · simpa
        · exact hall c hc
    · split at hc
      · split at hc
        · exact ht c hc
        · rcases List.mem_cons.1 hc with rfl | hc
          · simpa
          · exact ht c hc
      · rcases List.mem_cons.1 hc with rfl | hc
        · exact h0
        · exact ih ht c hc

/-- `Sparse.Rising` as a name of its own, so that a proof search sees it whole. -/
def RisingP {β : Type} (l : List (Nat × β)) : Prop := Sparse.Rising l

/-- `Memory.wf` as a name of its own. -/
def WfP (d : Byte) (l : List Host.Cell) : Prop := Memory.wf d l

theorem put_risingP {β : Type} [DecidableEq β] {k : Nat} {v d : β} {l : List (Nat × β)} (h : RisingP l) : RisingP (Sparse.put k v d l) := put_rising _ _ _ _ h

theorem put_wfP {k : Nat} {v d : Byte} {l : List Host.Cell} (h : WfP d l) : WfP d (Sparse.put k v d l) := put_wf h

theorem filter_rising {β : Type} {l : List (Nat × β)} {p : Nat × β → Bool} (h : RisingP l) : RisingP (l.filter p) :=
  List.Pairwise.filter _ h

theorem filter_wf {d : Byte} {l : List Host.Cell} {p : Host.Cell → Bool} (h : WfP d l) : WfP d (l.filter p) :=
  ⟨List.Pairwise.filter _ h.1, fun c hc => h.2 c (List.mem_filter.1 hc).1⟩

theorem putCells_wf {d : Byte} {a : Nat} {b : List Byte} {l : List Host.Cell} (h : WfP d l) : WfP d (putCells d a b l) := by
  induction b generalizing a l with
  | nil => exact h
  | cons x t ih => exact ih (put_wf h)

theorem wf_nil {d : Byte} : WfP d [] := ⟨List.Pairwise.nil, by simp⟩

theorem rising_nil {β : Type} : RisingP ([] : List (Nat × β)) := List.Pairwise.nil

theorem foldl_wf {α : Type} {d : Byte} {f : List Host.Cell → α → List Host.Cell} {l : List α} {c : List Host.Cell} (h : WfP d c)
    (hf : ∀ c a, WfP d c → WfP d (f c a)) : WfP d (l.foldl f c) := by
  induction l generalizing c with
  | nil => exact h
  | cons a t ih => exact ih (hf _ _ h)

/-- Reading back the key that was put. -/
theorem get_put_same {β : Type} [DecidableEq β] (k : Nat) (v d : β) (l : List (Nat × β)) (h : Sparse.Rising l) :
    Sparse.get k d (Sparse.put k v d l) = v := by
  induction l with
  | nil => simp only [Sparse.put]; split <;> simp_all [Sparse.get]
  | cons a t ih =>
    obtain ⟨k', v'⟩ := a
    simp only [Sparse.Rising, List.pairwise_cons] at h
    simp only [Sparse.put]
    split
    · split
      · rename_i h1 h2; subst h2; simp [Sparse.get, h1, Nat.ne_of_lt h1]
      · simp [Sparse.get]
    · split
      · split
        · rename_i h1 h2 h3
          subst h3; subst h2
          cases t with
          | nil => rfl
          | cons b u =>
            have := h.1 b (by simp)
            simp [Sparse.get, this, Nat.ne_of_lt this]
        · simp [Sparse.get]
      · rename_i h1 h2
        simp [Sparse.get, h1, h2, ih h.2]

/-- A put leaves what every other key reads as. -/
theorem get_put_other {β : Type} [DecidableEq β] (k j : Nat) (v d e : β) (l : List (Nat × β)) (h : Sparse.Rising l) (hj : j ≠ k) :
    Sparse.get j e (Sparse.put k v d l) = Sparse.get j e l := by
  induction l with
  | nil => simp only [Sparse.put]; split <;> simp [Sparse.get, hj]
  | cons a t ih =>
    obtain ⟨k', v'⟩ := a
    simp only [Sparse.Rising, List.pairwise_cons] at h
    simp only [Sparse.put]
    split
    · split
      · rfl
      · rename_i h1 _
        by_cases hk : j < k
        · have : j < k' := by omega
          simp [Sparse.get, hj, hk, this, Nat.ne_of_lt this]
        · simp [Sparse.get, hj, hk]
    · split
      · split
        · rename_i h1 h2 h3
          subst h2
          cases t with
          | nil => simp [Sparse.get, hj]
          | cons b u =>
            have := h.1 b (by simp)
            by_cases hk : j < k
            · have h4 : j < b.1 := by omega
              simp [Sparse.get, hj, hk, h4, Nat.ne_of_lt h4]
            · simp [Sparse.get, hj, hk]
        · rename_i h1 h2 _
          subst h2; simp [Sparse.get, hj]
      · simp [Sparse.get, ih h.2]

end Sys2Proof.Machine
end

