-- ==== Sys2Proof/Laws/State.lean ====
section
/-! SUPPORT. What each named update of the state leaves alone, a lemma for every field, and how register fields and parameters read
back. -/

namespace Sys2Proof.Machine

/-! ### Register fields -/

@[simp] theorem State.wr_latched (s : State) (f : Fld) (v : Nat) : (s.wr f v).latched = s.latched := rfl
@[simp] theorem State.wr_snap (s : State) (f : Fld) (v : Nat) : (s.wr f v).snap = s.snap := rfl
@[simp] theorem State.wr_params (s : State) (f : Fld) (v : Nat) : (s.wr f v).params = s.params := rfl
@[simp] theorem State.wr_mem (s : State) (f : Fld) (v : Nat) : (s.wr f v).mem = s.mem := rfl
@[simp] theorem State.wr_ref (s : State) (f : Fld) (v : Nat) : (s.wr f v).ref = s.ref := rfl
@[simp] theorem State.wr_lp (s : State) (f : Fld) (v : Nat) : (s.wr f v).lp = s.lp := rfl
@[simp] theorem State.wr_vat (s : State) (f : Fld) (v : Nat) : (s.wr f v).vat = s.vat := rfl
@[simp] theorem State.wr_planes (s : State) (f : Fld) (v : Nat) : (s.wr f v).planes = s.planes := rfl
@[simp] theorem State.wr_harp (s : State) (f : Fld) (v : Nat) : (s.wr f v).harp = s.harp := rfl
@[simp] theorem State.wr_pipes (s : State) (f : Fld) (v : Nat) : (s.wr f v).pipes = s.pipes := rfl
@[simp] theorem State.wr_ports (s : State) (f : Fld) (v : Nat) : (s.wr f v).ports = s.ports := rfl
@[simp] theorem State.wr_cam (s : State) (f : Fld) (v : Nat) : (s.wr f v).cam = s.cam := rfl
@[simp] theorem State.wr_rind (s : State) (f : Fld) (v : Nat) : (s.wr f v).rind = s.rind := rfl
@[simp] theorem State.wr_intc (s : State) (f : Fld) (v : Nat) : (s.wr f v).intc = s.intc := rfl
@[simp] theorem State.wr_hif (s : State) (f : Fld) (v : Nat) : (s.wr f v).hif = s.hif := rfl
@[simp] theorem State.wr_cellar (s : State) (f : Fld) (v : Nat) : (s.wr f v).cellar = s.cellar := rfl
@[simp] theorem State.wr_fault (s : State) (f : Fld) (v : Nat) : (s.wr f v).fault = s.fault := rfl
@[simp] theorem State.wr_svc (s : State) (f : Fld) (v : Nat) : (s.wr f v).svc = s.svc := rfl
@[simp] theorem State.wr_casc (s : State) (f : Fld) (v : Nat) : (s.wr f v).casc = s.casc := rfl
@[simp] theorem State.wr_timers (s : State) (f : Fld) (v : Nat) : (s.wr f v).timers = s.timers := rfl
@[simp] theorem State.wr_pins (s : State) (f : Fld) (v : Nat) : (s.wr f v).pins = s.pins := rfl
@[simp] theorem State.wr_aud (s : State) (f : Fld) (v : Nat) : (s.wr f v).aud = s.aud := rfl
@[simp] theorem State.wr_cores (s : State) (f : Fld) (v : Nat) : (s.wr f v).cores = s.cores := rfl
@[simp] theorem State.wr_press (s : State) (f : Fld) (v : Nat) : (s.wr f v).press = s.press := rfl
@[simp] theorem State.wr_dma (s : State) (f : Fld) (v : Nat) : (s.wr f v).dma = s.dma := rfl
@[simp] theorem State.wr_lastRead (s : State) (f : Fld) (v : Nat) : (s.wr f v).lastRead = s.lastRead := rfl
@[simp] theorem State.wr_freeCount (s : State) (f : Fld) (v : Nat) : (s.wr f v).freeCount = s.freeCount := rfl
@[simp] theorem State.wr_pending (s : State) (f : Fld) (v : Nat) : (s.wr f v).pending = s.pending := rfl

@[simp] theorem State.set1_latched (s : State) (f : Fld) : (s.set1 f).latched = s.latched := rfl
@[simp] theorem State.set1_snap (s : State) (f : Fld) : (s.set1 f).snap = s.snap := rfl
@[simp] theorem State.set1_params (s : State) (f : Fld) : (s.set1 f).params = s.params := rfl
@[simp] theorem State.set1_mem (s : State) (f : Fld) : (s.set1 f).mem = s.mem := rfl
@[simp] theorem State.set1_ref (s : State) (f : Fld) : (s.set1 f).ref = s.ref := rfl
@[simp] theorem State.set1_lp (s : State) (f : Fld) : (s.set1 f).lp = s.lp := rfl
@[simp] theorem State.set1_vat (s : State) (f : Fld) : (s.set1 f).vat = s.vat := rfl
@[simp] theorem State.set1_planes (s : State) (f : Fld) : (s.set1 f).planes = s.planes := rfl
@[simp] theorem State.set1_harp (s : State) (f : Fld) : (s.set1 f).harp = s.harp := rfl
@[simp] theorem State.set1_pipes (s : State) (f : Fld) : (s.set1 f).pipes = s.pipes := rfl
@[simp] theorem State.set1_ports (s : State) (f : Fld) : (s.set1 f).ports = s.ports := rfl
@[simp] theorem State.set1_cam (s : State) (f : Fld) : (s.set1 f).cam = s.cam := rfl
@[simp] theorem State.set1_rind (s : State) (f : Fld) : (s.set1 f).rind = s.rind := rfl
@[simp] theorem State.set1_intc (s : State) (f : Fld) : (s.set1 f).intc = s.intc := rfl
@[simp] theorem State.set1_hif (s : State) (f : Fld) : (s.set1 f).hif = s.hif := rfl
@[simp] theorem State.set1_cellar (s : State) (f : Fld) : (s.set1 f).cellar = s.cellar := rfl
@[simp] theorem State.set1_fault (s : State) (f : Fld) : (s.set1 f).fault = s.fault := rfl
@[simp] theorem State.set1_svc (s : State) (f : Fld) : (s.set1 f).svc = s.svc := rfl
@[simp] theorem State.set1_casc (s : State) (f : Fld) : (s.set1 f).casc = s.casc := rfl
@[simp] theorem State.set1_timers (s : State) (f : Fld) : (s.set1 f).timers = s.timers := rfl
@[simp] theorem State.set1_pins (s : State) (f : Fld) : (s.set1 f).pins = s.pins := rfl
@[simp] theorem State.set1_aud (s : State) (f : Fld) : (s.set1 f).aud = s.aud := rfl
@[simp] theorem State.set1_cores (s : State) (f : Fld) : (s.set1 f).cores = s.cores := rfl
@[simp] theorem State.set1_press (s : State) (f : Fld) : (s.set1 f).press = s.press := rfl
@[simp] theorem State.set1_dma (s : State) (f : Fld) : (s.set1 f).dma = s.dma := rfl
@[simp] theorem State.set1_lastRead (s : State) (f : Fld) : (s.set1 f).lastRead = s.lastRead := rfl
@[simp] theorem State.set1_freeCount (s : State) (f : Fld) : (s.set1 f).freeCount = s.freeCount := rfl
@[simp] theorem State.set1_pending (s : State) (f : Fld) : (s.set1 f).pending = s.pending := rfl

@[simp] theorem State.clr_latched (s : State) (f : Fld) : (s.clr f).latched = s.latched := rfl
@[simp] theorem State.clr_snap (s : State) (f : Fld) : (s.clr f).snap = s.snap := rfl
@[simp] theorem State.clr_params (s : State) (f : Fld) : (s.clr f).params = s.params := rfl
@[simp] theorem State.clr_mem (s : State) (f : Fld) : (s.clr f).mem = s.mem := rfl
@[simp] theorem State.clr_ref (s : State) (f : Fld) : (s.clr f).ref = s.ref := rfl
@[simp] theorem State.clr_lp (s : State) (f : Fld) : (s.clr f).lp = s.lp := rfl
@[simp] theorem State.clr_vat (s : State) (f : Fld) : (s.clr f).vat = s.vat := rfl
@[simp] theorem State.clr_planes (s : State) (f : Fld) : (s.clr f).planes = s.planes := rfl
@[simp] theorem State.clr_harp (s : State) (f : Fld) : (s.clr f).harp = s.harp := rfl
@[simp] theorem State.clr_pipes (s : State) (f : Fld) : (s.clr f).pipes = s.pipes := rfl
@[simp] theorem State.clr_ports (s : State) (f : Fld) : (s.clr f).ports = s.ports := rfl
@[simp] theorem State.clr_cam (s : State) (f : Fld) : (s.clr f).cam = s.cam := rfl
@[simp] theorem State.clr_rind (s : State) (f : Fld) : (s.clr f).rind = s.rind := rfl
@[simp] theorem State.clr_intc (s : State) (f : Fld) : (s.clr f).intc = s.intc := rfl
@[simp] theorem State.clr_hif (s : State) (f : Fld) : (s.clr f).hif = s.hif := rfl
@[simp] theorem State.clr_cellar (s : State) (f : Fld) : (s.clr f).cellar = s.cellar := rfl
@[simp] theorem State.clr_fault (s : State) (f : Fld) : (s.clr f).fault = s.fault := rfl
@[simp] theorem State.clr_svc (s : State) (f : Fld) : (s.clr f).svc = s.svc := rfl
@[simp] theorem State.clr_casc (s : State) (f : Fld) : (s.clr f).casc = s.casc := rfl
@[simp] theorem State.clr_timers (s : State) (f : Fld) : (s.clr f).timers = s.timers := rfl
@[simp] theorem State.clr_pins (s : State) (f : Fld) : (s.clr f).pins = s.pins := rfl
@[simp] theorem State.clr_aud (s : State) (f : Fld) : (s.clr f).aud = s.aud := rfl
@[simp] theorem State.clr_cores (s : State) (f : Fld) : (s.clr f).cores = s.cores := rfl
@[simp] theorem State.clr_press (s : State) (f : Fld) : (s.clr f).press = s.press := rfl
@[simp] theorem State.clr_dma (s : State) (f : Fld) : (s.clr f).dma = s.dma := rfl
@[simp] theorem State.clr_lastRead (s : State) (f : Fld) : (s.clr f).lastRead = s.lastRead := rfl
@[simp] theorem State.clr_freeCount (s : State) (f : Fld) : (s.clr f).freeCount = s.freeCount := rfl
@[simp] theorem State.clr_pending (s : State) (f : Fld) : (s.clr f).pending = s.pending := rfl

@[simp] theorem State.incBy_latched (s : State) (f : Fld) (n : Nat) : (s.incBy f n).latched = s.latched := rfl
@[simp] theorem State.incBy_snap (s : State) (f : Fld) (n : Nat) : (s.incBy f n).snap = s.snap := rfl
@[simp] theorem State.incBy_params (s : State) (f : Fld) (n : Nat) : (s.incBy f n).params = s.params := rfl
@[simp] theorem State.incBy_mem (s : State) (f : Fld) (n : Nat) : (s.incBy f n).mem = s.mem := rfl
@[simp] theorem State.incBy_ref (s : State) (f : Fld) (n : Nat) : (s.incBy f n).ref = s.ref := rfl
@[simp] theorem State.incBy_lp (s : State) (f : Fld) (n : Nat) : (s.incBy f n).lp = s.lp := rfl
@[simp] theorem State.incBy_vat (s : State) (f : Fld) (n : Nat) : (s.incBy f n).vat = s.vat := rfl
@[simp] theorem State.incBy_planes (s : State) (f : Fld) (n : Nat) : (s.incBy f n).planes = s.planes := rfl
@[simp] theorem State.incBy_harp (s : State) (f : Fld) (n : Nat) : (s.incBy f n).harp = s.harp := rfl
@[simp] theorem State.incBy_pipes (s : State) (f : Fld) (n : Nat) : (s.incBy f n).pipes = s.pipes := rfl
@[simp] theorem State.incBy_ports (s : State) (f : Fld) (n : Nat) : (s.incBy f n).ports = s.ports := rfl
@[simp] theorem State.incBy_cam (s : State) (f : Fld) (n : Nat) : (s.incBy f n).cam = s.cam := rfl
@[simp] theorem State.incBy_rind (s : State) (f : Fld) (n : Nat) : (s.incBy f n).rind = s.rind := rfl
@[simp] theorem State.incBy_intc (s : State) (f : Fld) (n : Nat) : (s.incBy f n).intc = s.intc := rfl
@[simp] theorem State.incBy_hif (s : State) (f : Fld) (n : Nat) : (s.incBy f n).hif = s.hif := rfl
@[simp] theorem State.incBy_cellar (s : State) (f : Fld) (n : Nat) : (s.incBy f n).cellar = s.cellar := rfl
@[simp] theorem State.incBy_fault (s : State) (f : Fld) (n : Nat) : (s.incBy f n).fault = s.fault := rfl
@[simp] theorem State.incBy_svc (s : State) (f : Fld) (n : Nat) : (s.incBy f n).svc = s.svc := rfl
@[simp] theorem State.incBy_casc (s : State) (f : Fld) (n : Nat) : (s.incBy f n).casc = s.casc := rfl
@[simp] theorem State.incBy_timers (s : State) (f : Fld) (n : Nat) : (s.incBy f n).timers = s.timers := rfl
@[simp] theorem State.incBy_pins (s : State) (f : Fld) (n : Nat) : (s.incBy f n).pins = s.pins := rfl
@[simp] theorem State.incBy_aud (s : State) (f : Fld) (n : Nat) : (s.incBy f n).aud = s.aud := rfl
@[simp] theorem State.incBy_cores (s : State) (f : Fld) (n : Nat) : (s.incBy f n).cores = s.cores := rfl
@[simp] theorem State.incBy_press (s : State) (f : Fld) (n : Nat) : (s.incBy f n).press = s.press := rfl
@[simp] theorem State.incBy_dma (s : State) (f : Fld) (n : Nat) : (s.incBy f n).dma = s.dma := rfl
@[simp] theorem State.incBy_lastRead (s : State) (f : Fld) (n : Nat) : (s.incBy f n).lastRead = s.lastRead := rfl
@[simp] theorem State.incBy_freeCount (s : State) (f : Fld) (n : Nat) : (s.incBy f n).freeCount = s.freeCount := rfl
@[simp] theorem State.incBy_pending (s : State) (f : Fld) (n : Nat) : (s.incBy f n).pending = s.pending := rfl

@[simp] theorem State.inc_latched (s : State) (f : Fld) : (s.inc f).latched = s.latched := rfl
@[simp] theorem State.inc_snap (s : State) (f : Fld) : (s.inc f).snap = s.snap := rfl
@[simp] theorem State.inc_params (s : State) (f : Fld) : (s.inc f).params = s.params := rfl
@[simp] theorem State.inc_mem (s : State) (f : Fld) : (s.inc f).mem = s.mem := rfl
@[simp] theorem State.inc_ref (s : State) (f : Fld) : (s.inc f).ref = s.ref := rfl
@[simp] theorem State.inc_lp (s : State) (f : Fld) : (s.inc f).lp = s.lp := rfl
@[simp] theorem State.inc_vat (s : State) (f : Fld) : (s.inc f).vat = s.vat := rfl
@[simp] theorem State.inc_planes (s : State) (f : Fld) : (s.inc f).planes = s.planes := rfl
@[simp] theorem State.inc_harp (s : State) (f : Fld) : (s.inc f).harp = s.harp := rfl
@[simp] theorem State.inc_pipes (s : State) (f : Fld) : (s.inc f).pipes = s.pipes := rfl
@[simp] theorem State.inc_ports (s : State) (f : Fld) : (s.inc f).ports = s.ports := rfl
@[simp] theorem State.inc_cam (s : State) (f : Fld) : (s.inc f).cam = s.cam := rfl
@[simp] theorem State.inc_rind (s : State) (f : Fld) : (s.inc f).rind = s.rind := rfl
@[simp] theorem State.inc_intc (s : State) (f : Fld) : (s.inc f).intc = s.intc := rfl
@[simp] theorem State.inc_hif (s : State) (f : Fld) : (s.inc f).hif = s.hif := rfl
@[simp] theorem State.inc_cellar (s : State) (f : Fld) : (s.inc f).cellar = s.cellar := rfl
@[simp] theorem State.inc_fault (s : State) (f : Fld) : (s.inc f).fault = s.fault := rfl
@[simp] theorem State.inc_svc (s : State) (f : Fld) : (s.inc f).svc = s.svc := rfl
@[simp] theorem State.inc_casc (s : State) (f : Fld) : (s.inc f).casc = s.casc := rfl
@[simp] theorem State.inc_timers (s : State) (f : Fld) : (s.inc f).timers = s.timers := rfl
@[simp] theorem State.inc_pins (s : State) (f : Fld) : (s.inc f).pins = s.pins := rfl
@[simp] theorem State.inc_aud (s : State) (f : Fld) : (s.inc f).aud = s.aud := rfl
@[simp] theorem State.inc_cores (s : State) (f : Fld) : (s.inc f).cores = s.cores := rfl
@[simp] theorem State.inc_press (s : State) (f : Fld) : (s.inc f).press = s.press := rfl
@[simp] theorem State.inc_dma (s : State) (f : Fld) : (s.inc f).dma = s.dma := rfl
@[simp] theorem State.inc_lastRead (s : State) (f : Fld) : (s.inc f).lastRead = s.lastRead := rfl
@[simp] theorem State.inc_freeCount (s : State) (f : Fld) : (s.inc f).freeCount = s.freeCount := rfl
@[simp] theorem State.inc_pending (s : State) (f : Fld) : (s.inc f).pending = s.pending := rfl

@[simp] theorem State.incWrap_latched (s : State) (f : Fld) : (s.incWrap f).latched = s.latched := rfl
@[simp] theorem State.incWrap_snap (s : State) (f : Fld) : (s.incWrap f).snap = s.snap := rfl
@[simp] theorem State.incWrap_params (s : State) (f : Fld) : (s.incWrap f).params = s.params := rfl
@[simp] theorem State.incWrap_mem (s : State) (f : Fld) : (s.incWrap f).mem = s.mem := rfl
@[simp] theorem State.incWrap_ref (s : State) (f : Fld) : (s.incWrap f).ref = s.ref := rfl
@[simp] theorem State.incWrap_lp (s : State) (f : Fld) : (s.incWrap f).lp = s.lp := rfl
@[simp] theorem State.incWrap_vat (s : State) (f : Fld) : (s.incWrap f).vat = s.vat := rfl
@[simp] theorem State.incWrap_planes (s : State) (f : Fld) : (s.incWrap f).planes = s.planes := rfl
@[simp] theorem State.incWrap_harp (s : State) (f : Fld) : (s.incWrap f).harp = s.harp := rfl
@[simp] theorem State.incWrap_pipes (s : State) (f : Fld) : (s.incWrap f).pipes = s.pipes := rfl
@[simp] theorem State.incWrap_ports (s : State) (f : Fld) : (s.incWrap f).ports = s.ports := rfl
@[simp] theorem State.incWrap_cam (s : State) (f : Fld) : (s.incWrap f).cam = s.cam := rfl
@[simp] theorem State.incWrap_rind (s : State) (f : Fld) : (s.incWrap f).rind = s.rind := rfl
@[simp] theorem State.incWrap_intc (s : State) (f : Fld) : (s.incWrap f).intc = s.intc := rfl
@[simp] theorem State.incWrap_hif (s : State) (f : Fld) : (s.incWrap f).hif = s.hif := rfl
@[simp] theorem State.incWrap_cellar (s : State) (f : Fld) : (s.incWrap f).cellar = s.cellar := rfl
@[simp] theorem State.incWrap_fault (s : State) (f : Fld) : (s.incWrap f).fault = s.fault := rfl
@[simp] theorem State.incWrap_svc (s : State) (f : Fld) : (s.incWrap f).svc = s.svc := rfl
@[simp] theorem State.incWrap_casc (s : State) (f : Fld) : (s.incWrap f).casc = s.casc := rfl
@[simp] theorem State.incWrap_timers (s : State) (f : Fld) : (s.incWrap f).timers = s.timers := rfl
@[simp] theorem State.incWrap_pins (s : State) (f : Fld) : (s.incWrap f).pins = s.pins := rfl
@[simp] theorem State.incWrap_aud (s : State) (f : Fld) : (s.incWrap f).aud = s.aud := rfl
@[simp] theorem State.incWrap_cores (s : State) (f : Fld) : (s.incWrap f).cores = s.cores := rfl
@[simp] theorem State.incWrap_press (s : State) (f : Fld) : (s.incWrap f).press = s.press := rfl
@[simp] theorem State.incWrap_dma (s : State) (f : Fld) : (s.incWrap f).dma = s.dma := rfl
@[simp] theorem State.incWrap_lastRead (s : State) (f : Fld) : (s.incWrap f).lastRead = s.lastRead := rfl
@[simp] theorem State.incWrap_freeCount (s : State) (f : Fld) : (s.incWrap f).freeCount = s.freeCount := rfl
@[simp] theorem State.incWrap_pending (s : State) (f : Fld) : (s.incWrap f).pending = s.pending := rfl

@[simp] theorem State.maxTo_latched (s : State) (f : Fld) (v : Nat) : (s.maxTo f v).latched = s.latched := rfl
@[simp] theorem State.maxTo_snap (s : State) (f : Fld) (v : Nat) : (s.maxTo f v).snap = s.snap := rfl
@[simp] theorem State.maxTo_params (s : State) (f : Fld) (v : Nat) : (s.maxTo f v).params = s.params := rfl
@[simp] theorem State.maxTo_mem (s : State) (f : Fld) (v : Nat) : (s.maxTo f v).mem = s.mem := rfl
@[simp] theorem State.maxTo_ref (s : State) (f : Fld) (v : Nat) : (s.maxTo f v).ref = s.ref := rfl
@[simp] theorem State.maxTo_lp (s : State) (f : Fld) (v : Nat) : (s.maxTo f v).lp = s.lp := rfl
@[simp] theorem State.maxTo_vat (s : State) (f : Fld) (v : Nat) : (s.maxTo f v).vat = s.vat := rfl
@[simp] theorem State.maxTo_planes (s : State) (f : Fld) (v : Nat) : (s.maxTo f v).planes = s.planes := rfl
@[simp] theorem State.maxTo_harp (s : State) (f : Fld) (v : Nat) : (s.maxTo f v).harp = s.harp := rfl
@[simp] theorem State.maxTo_pipes (s : State) (f : Fld) (v : Nat) : (s.maxTo f v).pipes = s.pipes := rfl
@[simp] theorem State.maxTo_ports (s : State) (f : Fld) (v : Nat) : (s.maxTo f v).ports = s.ports := rfl
@[simp] theorem State.maxTo_cam (s : State) (f : Fld) (v : Nat) : (s.maxTo f v).cam = s.cam := rfl
@[simp] theorem State.maxTo_rind (s : State) (f : Fld) (v : Nat) : (s.maxTo f v).rind = s.rind := rfl
@[simp] theorem State.maxTo_intc (s : State) (f : Fld) (v : Nat) : (s.maxTo f v).intc = s.intc := rfl
@[simp] theorem State.maxTo_hif (s : State) (f : Fld) (v : Nat) : (s.maxTo f v).hif = s.hif := rfl
@[simp] theorem State.maxTo_cellar (s : State) (f : Fld) (v : Nat) : (s.maxTo f v).cellar = s.cellar := rfl
@[simp] theorem State.maxTo_fault (s : State) (f : Fld) (v : Nat) : (s.maxTo f v).fault = s.fault := rfl
@[simp] theorem State.maxTo_svc (s : State) (f : Fld) (v : Nat) : (s.maxTo f v).svc = s.svc := rfl
@[simp] theorem State.maxTo_casc (s : State) (f : Fld) (v : Nat) : (s.maxTo f v).casc = s.casc := rfl
@[simp] theorem State.maxTo_timers (s : State) (f : Fld) (v : Nat) : (s.maxTo f v).timers = s.timers := rfl
@[simp] theorem State.maxTo_pins (s : State) (f : Fld) (v : Nat) : (s.maxTo f v).pins = s.pins := rfl
@[simp] theorem State.maxTo_aud (s : State) (f : Fld) (v : Nat) : (s.maxTo f v).aud = s.aud := rfl
@[simp] theorem State.maxTo_cores (s : State) (f : Fld) (v : Nat) : (s.maxTo f v).cores = s.cores := rfl
@[simp] theorem State.maxTo_press (s : State) (f : Fld) (v : Nat) : (s.maxTo f v).press = s.press := rfl
@[simp] theorem State.maxTo_dma (s : State) (f : Fld) (v : Nat) : (s.maxTo f v).dma = s.dma := rfl
@[simp] theorem State.maxTo_lastRead (s : State) (f : Fld) (v : Nat) : (s.maxTo f v).lastRead = s.lastRead := rfl
@[simp] theorem State.maxTo_freeCount (s : State) (f : Fld) (v : Nat) : (s.maxTo f v).freeCount = s.freeCount := rfl
@[simp] theorem State.maxTo_pending (s : State) (f : Fld) (v : Nat) : (s.maxTo f v).pending = s.pending := rfl

@[simp] theorem State.setBit_latched (s : State) (f : Fld) (i : Nat) (b : Bool) : (s.setBit f i b).latched = s.latched := rfl
@[simp] theorem State.setBit_snap (s : State) (f : Fld) (i : Nat) (b : Bool) : (s.setBit f i b).snap = s.snap := rfl
@[simp] theorem State.setBit_params (s : State) (f : Fld) (i : Nat) (b : Bool) : (s.setBit f i b).params = s.params := rfl
@[simp] theorem State.setBit_mem (s : State) (f : Fld) (i : Nat) (b : Bool) : (s.setBit f i b).mem = s.mem := rfl
@[simp] theorem State.setBit_ref (s : State) (f : Fld) (i : Nat) (b : Bool) : (s.setBit f i b).ref = s.ref := rfl
@[simp] theorem State.setBit_lp (s : State) (f : Fld) (i : Nat) (b : Bool) : (s.setBit f i b).lp = s.lp := rfl
@[simp] theorem State.setBit_vat (s : State) (f : Fld) (i : Nat) (b : Bool) : (s.setBit f i b).vat = s.vat := rfl
@[simp] theorem State.setBit_planes (s : State) (f : Fld) (i : Nat) (b : Bool) : (s.setBit f i b).planes = s.planes := rfl
@[simp] theorem State.setBit_harp (s : State) (f : Fld) (i : Nat) (b : Bool) : (s.setBit f i b).harp = s.harp := rfl
@[simp] theorem State.setBit_pipes (s : State) (f : Fld) (i : Nat) (b : Bool) : (s.setBit f i b).pipes = s.pipes := rfl
@[simp] theorem State.setBit_ports (s : State) (f : Fld) (i : Nat) (b : Bool) : (s.setBit f i b).ports = s.ports := rfl
@[simp] theorem State.setBit_cam (s : State) (f : Fld) (i : Nat) (b : Bool) : (s.setBit f i b).cam = s.cam := rfl
@[simp] theorem State.setBit_rind (s : State) (f : Fld) (i : Nat) (b : Bool) : (s.setBit f i b).rind = s.rind := rfl
@[simp] theorem State.setBit_intc (s : State) (f : Fld) (i : Nat) (b : Bool) : (s.setBit f i b).intc = s.intc := rfl
@[simp] theorem State.setBit_hif (s : State) (f : Fld) (i : Nat) (b : Bool) : (s.setBit f i b).hif = s.hif := rfl
@[simp] theorem State.setBit_cellar (s : State) (f : Fld) (i : Nat) (b : Bool) : (s.setBit f i b).cellar = s.cellar := rfl
@[simp] theorem State.setBit_fault (s : State) (f : Fld) (i : Nat) (b : Bool) : (s.setBit f i b).fault = s.fault := rfl
@[simp] theorem State.setBit_svc (s : State) (f : Fld) (i : Nat) (b : Bool) : (s.setBit f i b).svc = s.svc := rfl
@[simp] theorem State.setBit_casc (s : State) (f : Fld) (i : Nat) (b : Bool) : (s.setBit f i b).casc = s.casc := rfl
@[simp] theorem State.setBit_timers (s : State) (f : Fld) (i : Nat) (b : Bool) : (s.setBit f i b).timers = s.timers := rfl
@[simp] theorem State.setBit_pins (s : State) (f : Fld) (i : Nat) (b : Bool) : (s.setBit f i b).pins = s.pins := rfl
@[simp] theorem State.setBit_aud (s : State) (f : Fld) (i : Nat) (b : Bool) : (s.setBit f i b).aud = s.aud := rfl
@[simp] theorem State.setBit_cores (s : State) (f : Fld) (i : Nat) (b : Bool) : (s.setBit f i b).cores = s.cores := rfl
@[simp] theorem State.setBit_press (s : State) (f : Fld) (i : Nat) (b : Bool) : (s.setBit f i b).press = s.press := rfl
@[simp] theorem State.setBit_dma (s : State) (f : Fld) (i : Nat) (b : Bool) : (s.setBit f i b).dma = s.dma := rfl
@[simp] theorem State.setBit_lastRead (s : State) (f : Fld) (i : Nat) (b : Bool) : (s.setBit f i b).lastRead = s.lastRead := rfl
@[simp] theorem State.setBit_freeCount (s : State) (f : Fld) (i : Nat) (b : Bool) : (s.setBit f i b).freeCount = s.freeCount := rfl
@[simp] theorem State.setBit_pending (s : State) (f : Fld) (i : Nat) (b : Bool) : (s.setBit f i b).pending = s.pending := rfl

@[simp] theorem State.setPrm_cells (s : State) (p : Prm) (v : Nat) : (s.setPrm p v).cells = s.cells := rfl
@[simp] theorem State.setPrm_latched (s : State) (p : Prm) (v : Nat) : (s.setPrm p v).latched = s.latched := rfl
@[simp] theorem State.setPrm_snap (s : State) (p : Prm) (v : Nat) : (s.setPrm p v).snap = s.snap := rfl
@[simp] theorem State.setPrm_mem (s : State) (p : Prm) (v : Nat) : (s.setPrm p v).mem = s.mem := rfl
@[simp] theorem State.setPrm_ref (s : State) (p : Prm) (v : Nat) : (s.setPrm p v).ref = s.ref := rfl
@[simp] theorem State.setPrm_lp (s : State) (p : Prm) (v : Nat) : (s.setPrm p v).lp = s.lp := rfl
@[simp] theorem State.setPrm_vat (s : State) (p : Prm) (v : Nat) : (s.setPrm p v).vat = s.vat := rfl
@[simp] theorem State.setPrm_planes (s : State) (p : Prm) (v : Nat) : (s.setPrm p v).planes = s.planes := rfl
@[simp] theorem State.setPrm_harp (s : State) (p : Prm) (v : Nat) : (s.setPrm p v).harp = s.harp := rfl
@[simp] theorem State.setPrm_pipes (s : State) (p : Prm) (v : Nat) : (s.setPrm p v).pipes = s.pipes := rfl
@[simp] theorem State.setPrm_ports (s : State) (p : Prm) (v : Nat) : (s.setPrm p v).ports = s.ports := rfl
@[simp] theorem State.setPrm_cam (s : State) (p : Prm) (v : Nat) : (s.setPrm p v).cam = s.cam := rfl
@[simp] theorem State.setPrm_rind (s : State) (p : Prm) (v : Nat) : (s.setPrm p v).rind = s.rind := rfl
@[simp] theorem State.setPrm_intc (s : State) (p : Prm) (v : Nat) : (s.setPrm p v).intc = s.intc := rfl
@[simp] theorem State.setPrm_hif (s : State) (p : Prm) (v : Nat) : (s.setPrm p v).hif = s.hif := rfl
@[simp] theorem State.setPrm_cellar (s : State) (p : Prm) (v : Nat) : (s.setPrm p v).cellar = s.cellar := rfl
@[simp] theorem State.setPrm_fault (s : State) (p : Prm) (v : Nat) : (s.setPrm p v).fault = s.fault := rfl
@[simp] theorem State.setPrm_svc (s : State) (p : Prm) (v : Nat) : (s.setPrm p v).svc = s.svc := rfl
@[simp] theorem State.setPrm_casc (s : State) (p : Prm) (v : Nat) : (s.setPrm p v).casc = s.casc := rfl
@[simp] theorem State.setPrm_timers (s : State) (p : Prm) (v : Nat) : (s.setPrm p v).timers = s.timers := rfl
@[simp] theorem State.setPrm_pins (s : State) (p : Prm) (v : Nat) : (s.setPrm p v).pins = s.pins := rfl
@[simp] theorem State.setPrm_aud (s : State) (p : Prm) (v : Nat) : (s.setPrm p v).aud = s.aud := rfl
@[simp] theorem State.setPrm_cores (s : State) (p : Prm) (v : Nat) : (s.setPrm p v).cores = s.cores := rfl
@[simp] theorem State.setPrm_press (s : State) (p : Prm) (v : Nat) : (s.setPrm p v).press = s.press := rfl
@[simp] theorem State.setPrm_dma (s : State) (p : Prm) (v : Nat) : (s.setPrm p v).dma = s.dma := rfl
@[simp] theorem State.setPrm_lastRead (s : State) (p : Prm) (v : Nat) : (s.setPrm p v).lastRead = s.lastRead := rfl
@[simp] theorem State.setPrm_freeCount (s : State) (p : Prm) (v : Nat) : (s.setPrm p v).freeCount = s.freeCount := rfl
@[simp] theorem State.setPrm_pending (s : State) (p : Prm) (v : Nat) : (s.setPrm p v).pending = s.pending := rfl

@[simp] theorem State.setByte_cells (s : State) (a : Nat) (b : Byte) : (s.setByte a b).cells = s.cells := rfl
@[simp] theorem State.setByte_latched (s : State) (a : Nat) (b : Byte) : (s.setByte a b).latched = s.latched := rfl
@[simp] theorem State.setByte_snap (s : State) (a : Nat) (b : Byte) : (s.setByte a b).snap = s.snap := rfl
@[simp] theorem State.setByte_params (s : State) (a : Nat) (b : Byte) : (s.setByte a b).params = s.params := rfl
@[simp] theorem State.setByte_ref (s : State) (a : Nat) (b : Byte) : (s.setByte a b).ref = s.ref := rfl
@[simp] theorem State.setByte_lp (s : State) (a : Nat) (b : Byte) : (s.setByte a b).lp = s.lp := rfl
@[simp] theorem State.setByte_vat (s : State) (a : Nat) (b : Byte) : (s.setByte a b).vat = s.vat := rfl
@[simp] theorem State.setByte_planes (s : State) (a : Nat) (b : Byte) : (s.setByte a b).planes = s.planes := rfl
@[simp] theorem State.setByte_harp (s : State) (a : Nat) (b : Byte) : (s.setByte a b).harp = s.harp := rfl
@[simp] theorem State.setByte_pipes (s : State) (a : Nat) (b : Byte) : (s.setByte a b).pipes = s.pipes := rfl
@[simp] theorem State.setByte_ports (s : State) (a : Nat) (b : Byte) : (s.setByte a b).ports = s.ports := rfl
@[simp] theorem State.setByte_cam (s : State) (a : Nat) (b : Byte) : (s.setByte a b).cam = s.cam := rfl
@[simp] theorem State.setByte_rind (s : State) (a : Nat) (b : Byte) : (s.setByte a b).rind = s.rind := rfl
@[simp] theorem State.setByte_intc (s : State) (a : Nat) (b : Byte) : (s.setByte a b).intc = s.intc := rfl
@[simp] theorem State.setByte_hif (s : State) (a : Nat) (b : Byte) : (s.setByte a b).hif = s.hif := rfl
@[simp] theorem State.setByte_cellar (s : State) (a : Nat) (b : Byte) : (s.setByte a b).cellar = s.cellar := rfl
@[simp] theorem State.setByte_fault (s : State) (a : Nat) (b : Byte) : (s.setByte a b).fault = s.fault := rfl
@[simp] theorem State.setByte_svc (s : State) (a : Nat) (b : Byte) : (s.setByte a b).svc = s.svc := rfl
@[simp] theorem State.setByte_casc (s : State) (a : Nat) (b : Byte) : (s.setByte a b).casc = s.casc := rfl
@[simp] theorem State.setByte_timers (s : State) (a : Nat) (b : Byte) : (s.setByte a b).timers = s.timers := rfl
@[simp] theorem State.setByte_pins (s : State) (a : Nat) (b : Byte) : (s.setByte a b).pins = s.pins := rfl
@[simp] theorem State.setByte_aud (s : State) (a : Nat) (b : Byte) : (s.setByte a b).aud = s.aud := rfl
@[simp] theorem State.setByte_cores (s : State) (a : Nat) (b : Byte) : (s.setByte a b).cores = s.cores := rfl
@[simp] theorem State.setByte_press (s : State) (a : Nat) (b : Byte) : (s.setByte a b).press = s.press := rfl
@[simp] theorem State.setByte_dma (s : State) (a : Nat) (b : Byte) : (s.setByte a b).dma = s.dma := rfl
@[simp] theorem State.setByte_lastRead (s : State) (a : Nat) (b : Byte) : (s.setByte a b).lastRead = s.lastRead := rfl
@[simp] theorem State.setByte_freeCount (s : State) (a : Nat) (b : Byte) : (s.setByte a b).freeCount = s.freeCount := rfl
@[simp] theorem State.setByte_pending (s : State) (a : Nat) (b : Byte) : (s.setByte a b).pending = s.pending := rfl

/-! ### The blocks' working state -/

@[simp] theorem onAud_cells (f : AudioState → AudioState) (s : State) : (onAud f s).cells = s.cells := rfl
@[simp] theorem onAud_latched (f : AudioState → AudioState) (s : State) : (onAud f s).latched = s.latched := rfl
@[simp] theorem onAud_snap (f : AudioState → AudioState) (s : State) : (onAud f s).snap = s.snap := rfl
@[simp] theorem onAud_params (f : AudioState → AudioState) (s : State) : (onAud f s).params = s.params := rfl
@[simp] theorem onAud_mem (f : AudioState → AudioState) (s : State) : (onAud f s).mem = s.mem := rfl
@[simp] theorem onAud_ref (f : AudioState → AudioState) (s : State) : (onAud f s).ref = s.ref := rfl
@[simp] theorem onAud_lp (f : AudioState → AudioState) (s : State) : (onAud f s).lp = s.lp := rfl
@[simp] theorem onAud_vat (f : AudioState → AudioState) (s : State) : (onAud f s).vat = s.vat := rfl
@[simp] theorem onAud_planes (f : AudioState → AudioState) (s : State) : (onAud f s).planes = s.planes := rfl
@[simp] theorem onAud_harp (f : AudioState → AudioState) (s : State) : (onAud f s).harp = s.harp := rfl
@[simp] theorem onAud_pipes (f : AudioState → AudioState) (s : State) : (onAud f s).pipes = s.pipes := rfl
@[simp] theorem onAud_ports (f : AudioState → AudioState) (s : State) : (onAud f s).ports = s.ports := rfl
@[simp] theorem onAud_cam (f : AudioState → AudioState) (s : State) : (onAud f s).cam = s.cam := rfl
@[simp] theorem onAud_rind (f : AudioState → AudioState) (s : State) : (onAud f s).rind = s.rind := rfl
@[simp] theorem onAud_intc (f : AudioState → AudioState) (s : State) : (onAud f s).intc = s.intc := rfl
@[simp] theorem onAud_hif (f : AudioState → AudioState) (s : State) : (onAud f s).hif = s.hif := rfl
@[simp] theorem onAud_cellar (f : AudioState → AudioState) (s : State) : (onAud f s).cellar = s.cellar := rfl
@[simp] theorem onAud_fault (f : AudioState → AudioState) (s : State) : (onAud f s).fault = s.fault := rfl
@[simp] theorem onAud_svc (f : AudioState → AudioState) (s : State) : (onAud f s).svc = s.svc := rfl
@[simp] theorem onAud_casc (f : AudioState → AudioState) (s : State) : (onAud f s).casc = s.casc := rfl
@[simp] theorem onAud_timers (f : AudioState → AudioState) (s : State) : (onAud f s).timers = s.timers := rfl
@[simp] theorem onAud_pins (f : AudioState → AudioState) (s : State) : (onAud f s).pins = s.pins := rfl
@[simp] theorem onAud_cores (f : AudioState → AudioState) (s : State) : (onAud f s).cores = s.cores := rfl
@[simp] theorem onAud_press (f : AudioState → AudioState) (s : State) : (onAud f s).press = s.press := rfl
@[simp] theorem onAud_dma (f : AudioState → AudioState) (s : State) : (onAud f s).dma = s.dma := rfl
@[simp] theorem onAud_lastRead (f : AudioState → AudioState) (s : State) : (onAud f s).lastRead = s.lastRead := rfl
@[simp] theorem onAud_freeCount (f : AudioState → AudioState) (s : State) : (onAud f s).freeCount = s.freeCount := rfl
@[simp] theorem onAud_pending (f : AudioState → AudioState) (s : State) : (onAud f s).pending = s.pending := rfl
@[simp] theorem onAud_rd (f : AudioState → AudioState) (s : State) (g : Fld) : (onAud f s).rd g = s.rd g := rfl
@[simp] theorem onAud_prm (f : AudioState → AudioState) (s : State) (p : Prm) : (onAud f s).prm p = s.prm p := rfl

@[simp] theorem onCasc_cells (f : CascState → CascState) (s : State) : (onCasc f s).cells = s.cells := rfl
@[simp] theorem onCasc_latched (f : CascState → CascState) (s : State) : (onCasc f s).latched = s.latched := rfl
@[simp] theorem onCasc_snap (f : CascState → CascState) (s : State) : (onCasc f s).snap = s.snap := rfl
@[simp] theorem onCasc_params (f : CascState → CascState) (s : State) : (onCasc f s).params = s.params := rfl
@[simp] theorem onCasc_mem (f : CascState → CascState) (s : State) : (onCasc f s).mem = s.mem := rfl
@[simp] theorem onCasc_ref (f : CascState → CascState) (s : State) : (onCasc f s).ref = s.ref := rfl
@[simp] theorem onCasc_lp (f : CascState → CascState) (s : State) : (onCasc f s).lp = s.lp := rfl
@[simp] theorem onCasc_vat (f : CascState → CascState) (s : State) : (onCasc f s).vat = s.vat := rfl
@[simp] theorem onCasc_planes (f : CascState → CascState) (s : State) : (onCasc f s).planes = s.planes := rfl
@[simp] theorem onCasc_harp (f : CascState → CascState) (s : State) : (onCasc f s).harp = s.harp := rfl
@[simp] theorem onCasc_pipes (f : CascState → CascState) (s : State) : (onCasc f s).pipes = s.pipes := rfl
@[simp] theorem onCasc_ports (f : CascState → CascState) (s : State) : (onCasc f s).ports = s.ports := rfl
@[simp] theorem onCasc_cam (f : CascState → CascState) (s : State) : (onCasc f s).cam = s.cam := rfl
@[simp] theorem onCasc_rind (f : CascState → CascState) (s : State) : (onCasc f s).rind = s.rind := rfl
@[simp] theorem onCasc_intc (f : CascState → CascState) (s : State) : (onCasc f s).intc = s.intc := rfl
@[simp] theorem onCasc_hif (f : CascState → CascState) (s : State) : (onCasc f s).hif = s.hif := rfl
@[simp] theorem onCasc_cellar (f : CascState → CascState) (s : State) : (onCasc f s).cellar = s.cellar := rfl
@[simp] theorem onCasc_fault (f : CascState → CascState) (s : State) : (onCasc f s).fault = s.fault := rfl
@[simp] theorem onCasc_svc (f : CascState → CascState) (s : State) : (onCasc f s).svc = s.svc := rfl
@[simp] theorem onCasc_timers (f : CascState → CascState) (s : State) : (onCasc f s).timers = s.timers := rfl
@[simp] theorem onCasc_pins (f : CascState → CascState) (s : State) : (onCasc f s).pins = s.pins := rfl
@[simp] theorem onCasc_aud (f : CascState → CascState) (s : State) : (onCasc f s).aud = s.aud := rfl
@[simp] theorem onCasc_cores (f : CascState → CascState) (s : State) : (onCasc f s).cores = s.cores := rfl
@[simp] theorem onCasc_press (f : CascState → CascState) (s : State) : (onCasc f s).press = s.press := rfl
@[simp] theorem onCasc_dma (f : CascState → CascState) (s : State) : (onCasc f s).dma = s.dma := rfl
@[simp] theorem onCasc_lastRead (f : CascState → CascState) (s : State) : (onCasc f s).lastRead = s.lastRead := rfl
@[simp] theorem onCasc_freeCount (f : CascState → CascState) (s : State) : (onCasc f s).freeCount = s.freeCount := rfl
@[simp] theorem onCasc_pending (f : CascState → CascState) (s : State) : (onCasc f s).pending = s.pending := rfl
@[simp] theorem onCasc_rd (f : CascState → CascState) (s : State) (g : Fld) : (onCasc f s).rd g = s.rd g := rfl
@[simp] theorem onCasc_prm (f : CascState → CascState) (s : State) (p : Prm) : (onCasc f s).prm p = s.prm p := rfl

@[simp] theorem onCellar_cells (f : CellarState → CellarState) (s : State) : (onCellar f s).cells = s.cells := rfl
@[simp] theorem onCellar_latched (f : CellarState → CellarState) (s : State) : (onCellar f s).latched = s.latched := rfl
@[simp] theorem onCellar_snap (f : CellarState → CellarState) (s : State) : (onCellar f s).snap = s.snap := rfl
@[simp] theorem onCellar_params (f : CellarState → CellarState) (s : State) : (onCellar f s).params = s.params := rfl
@[simp] theorem onCellar_mem (f : CellarState → CellarState) (s : State) : (onCellar f s).mem = s.mem := rfl
@[simp] theorem onCellar_ref (f : CellarState → CellarState) (s : State) : (onCellar f s).ref = s.ref := rfl
@[simp] theorem onCellar_lp (f : CellarState → CellarState) (s : State) : (onCellar f s).lp = s.lp := rfl
@[simp] theorem onCellar_vat (f : CellarState → CellarState) (s : State) : (onCellar f s).vat = s.vat := rfl
@[simp] theorem onCellar_planes (f : CellarState → CellarState) (s : State) : (onCellar f s).planes = s.planes := rfl
@[simp] theorem onCellar_harp (f : CellarState → CellarState) (s : State) : (onCellar f s).harp = s.harp := rfl
@[simp] theorem onCellar_pipes (f : CellarState → CellarState) (s : State) : (onCellar f s).pipes = s.pipes := rfl
@[simp] theorem onCellar_ports (f : CellarState → CellarState) (s : State) : (onCellar f s).ports = s.ports := rfl
@[simp] theorem onCellar_cam (f : CellarState → CellarState) (s : State) : (onCellar f s).cam = s.cam := rfl
@[simp] theorem onCellar_rind (f : CellarState → CellarState) (s : State) : (onCellar f s).rind = s.rind := rfl
@[simp] theorem onCellar_intc (f : CellarState → CellarState) (s : State) : (onCellar f s).intc = s.intc := rfl
@[simp] theorem onCellar_hif (f : CellarState → CellarState) (s : State) : (onCellar f s).hif = s.hif := rfl
@[simp] theorem onCellar_fault (f : CellarState → CellarState) (s : State) : (onCellar f s).fault = s.fault := rfl
@[simp] theorem onCellar_svc (f : CellarState → CellarState) (s : State) : (onCellar f s).svc = s.svc := rfl
@[simp] theorem onCellar_casc (f : CellarState → CellarState) (s : State) : (onCellar f s).casc = s.casc := rfl
@[simp] theorem onCellar_timers (f : CellarState → CellarState) (s : State) : (onCellar f s).timers = s.timers := rfl
@[simp] theorem onCellar_pins (f : CellarState → CellarState) (s : State) : (onCellar f s).pins = s.pins := rfl
@[simp] theorem onCellar_aud (f : CellarState → CellarState) (s : State) : (onCellar f s).aud = s.aud := rfl
@[simp] theorem onCellar_cores (f : CellarState → CellarState) (s : State) : (onCellar f s).cores = s.cores := rfl
@[simp] theorem onCellar_press (f : CellarState → CellarState) (s : State) : (onCellar f s).press = s.press := rfl
@[simp] theorem onCellar_dma (f : CellarState → CellarState) (s : State) : (onCellar f s).dma = s.dma := rfl
@[simp] theorem onCellar_lastRead (f : CellarState → CellarState) (s : State) : (onCellar f s).lastRead = s.lastRead := rfl
@[simp] theorem onCellar_freeCount (f : CellarState → CellarState) (s : State) : (onCellar f s).freeCount = s.freeCount := rfl
@[simp] theorem onCellar_pending (f : CellarState → CellarState) (s : State) : (onCellar f s).pending = s.pending := rfl
@[simp] theorem onCellar_rd (f : CellarState → CellarState) (s : State) (g : Fld) : (onCellar f s).rd g = s.rd g := rfl
@[simp] theorem onCellar_prm (f : CellarState → CellarState) (s : State) (p : Prm) : (onCellar f s).prm p = s.prm p := rfl

@[simp] theorem onPins_cells (f : PinsState → PinsState) (s : State) : (onPins f s).cells = s.cells := rfl
@[simp] theorem onPins_latched (f : PinsState → PinsState) (s : State) : (onPins f s).latched = s.latched := rfl
@[simp] theorem onPins_snap (f : PinsState → PinsState) (s : State) : (onPins f s).snap = s.snap := rfl
@[simp] theorem onPins_params (f : PinsState → PinsState) (s : State) : (onPins f s).params = s.params := rfl
@[simp] theorem onPins_mem (f : PinsState → PinsState) (s : State) : (onPins f s).mem = s.mem := rfl
@[simp] theorem onPins_ref (f : PinsState → PinsState) (s : State) : (onPins f s).ref = s.ref := rfl
@[simp] theorem onPins_lp (f : PinsState → PinsState) (s : State) : (onPins f s).lp = s.lp := rfl
@[simp] theorem onPins_vat (f : PinsState → PinsState) (s : State) : (onPins f s).vat = s.vat := rfl
@[simp] theorem onPins_planes (f : PinsState → PinsState) (s : State) : (onPins f s).planes = s.planes := rfl
@[simp] theorem onPins_harp (f : PinsState → PinsState) (s : State) : (onPins f s).harp = s.harp := rfl
@[simp] theorem onPins_pipes (f : PinsState → PinsState) (s : State) : (onPins f s).pipes = s.pipes := rfl
@[simp] theorem onPins_ports (f : PinsState → PinsState) (s : State) : (onPins f s).ports = s.ports := rfl
@[simp] theorem onPins_cam (f : PinsState → PinsState) (s : State) : (onPins f s).cam = s.cam := rfl
@[simp] theorem onPins_rind (f : PinsState → PinsState) (s : State) : (onPins f s).rind = s.rind := rfl
@[simp] theorem onPins_intc (f : PinsState → PinsState) (s : State) : (onPins f s).intc = s.intc := rfl
@[simp] theorem onPins_hif (f : PinsState → PinsState) (s : State) : (onPins f s).hif = s.hif := rfl
@[simp] theorem onPins_cellar (f : PinsState → PinsState) (s : State) : (onPins f s).cellar = s.cellar := rfl
@[simp] theorem onPins_fault (f : PinsState → PinsState) (s : State) : (onPins f s).fault = s.fault := rfl
@[simp] theorem onPins_svc (f : PinsState → PinsState) (s : State) : (onPins f s).svc = s.svc := rfl
@[simp] theorem onPins_casc (f : PinsState → PinsState) (s : State) : (onPins f s).casc = s.casc := rfl
@[simp] theorem onPins_timers (f : PinsState → PinsState) (s : State) : (onPins f s).timers = s.timers := rfl
@[simp] theorem onPins_aud (f : PinsState → PinsState) (s : State) : (onPins f s).aud = s.aud := rfl
@[simp] theorem onPins_cores (f : PinsState → PinsState) (s : State) : (onPins f s).cores = s.cores := rfl
@[simp] theorem onPins_press (f : PinsState → PinsState) (s : State) : (onPins f s).press = s.press := rfl
@[simp] theorem onPins_dma (f : PinsState → PinsState) (s : State) : (onPins f s).dma = s.dma := rfl
@[simp] theorem onPins_lastRead (f : PinsState → PinsState) (s : State) : (onPins f s).lastRead = s.lastRead := rfl
@[simp] theorem onPins_freeCount (f : PinsState → PinsState) (s : State) : (onPins f s).freeCount = s.freeCount := rfl
@[simp] theorem onPins_pending (f : PinsState → PinsState) (s : State) : (onPins f s).pending = s.pending := rfl
@[simp] theorem onPins_rd (f : PinsState → PinsState) (s : State) (g : Fld) : (onPins f s).rd g = s.rd g := rfl
@[simp] theorem onPins_prm (f : PinsState → PinsState) (s : State) (p : Prm) : (onPins f s).prm p = s.prm p := rfl

@[simp] theorem onSvc_cells (f : SvcState → SvcState) (s : State) : (onSvc f s).cells = s.cells := rfl
@[simp] theorem onSvc_latched (f : SvcState → SvcState) (s : State) : (onSvc f s).latched = s.latched := rfl
@[simp] theorem onSvc_snap (f : SvcState → SvcState) (s : State) : (onSvc f s).snap = s.snap := rfl
@[simp] theorem onSvc_params (f : SvcState → SvcState) (s : State) : (onSvc f s).params = s.params := rfl
@[simp] theorem onSvc_mem (f : SvcState → SvcState) (s : State) : (onSvc f s).mem = s.mem := rfl
@[simp] theorem onSvc_ref (f : SvcState → SvcState) (s : State) : (onSvc f s).ref = s.ref := rfl
@[simp] theorem onSvc_lp (f : SvcState → SvcState) (s : State) : (onSvc f s).lp = s.lp := rfl
@[simp] theorem onSvc_vat (f : SvcState → SvcState) (s : State) : (onSvc f s).vat = s.vat := rfl
@[simp] theorem onSvc_planes (f : SvcState → SvcState) (s : State) : (onSvc f s).planes = s.planes := rfl
@[simp] theorem onSvc_harp (f : SvcState → SvcState) (s : State) : (onSvc f s).harp = s.harp := rfl
@[simp] theorem onSvc_pipes (f : SvcState → SvcState) (s : State) : (onSvc f s).pipes = s.pipes := rfl
@[simp] theorem onSvc_ports (f : SvcState → SvcState) (s : State) : (onSvc f s).ports = s.ports := rfl
@[simp] theorem onSvc_cam (f : SvcState → SvcState) (s : State) : (onSvc f s).cam = s.cam := rfl
@[simp] theorem onSvc_rind (f : SvcState → SvcState) (s : State) : (onSvc f s).rind = s.rind := rfl
@[simp] theorem onSvc_intc (f : SvcState → SvcState) (s : State) : (onSvc f s).intc = s.intc := rfl
@[simp] theorem onSvc_hif (f : SvcState → SvcState) (s : State) : (onSvc f s).hif = s.hif := rfl
@[simp] theorem onSvc_cellar (f : SvcState → SvcState) (s : State) : (onSvc f s).cellar = s.cellar := rfl
@[simp] theorem onSvc_fault (f : SvcState → SvcState) (s : State) : (onSvc f s).fault = s.fault := rfl
@[simp] theorem onSvc_casc (f : SvcState → SvcState) (s : State) : (onSvc f s).casc = s.casc := rfl
@[simp] theorem onSvc_timers (f : SvcState → SvcState) (s : State) : (onSvc f s).timers = s.timers := rfl
@[simp] theorem onSvc_pins (f : SvcState → SvcState) (s : State) : (onSvc f s).pins = s.pins := rfl
@[simp] theorem onSvc_aud (f : SvcState → SvcState) (s : State) : (onSvc f s).aud = s.aud := rfl
@[simp] theorem onSvc_cores (f : SvcState → SvcState) (s : State) : (onSvc f s).cores = s.cores := rfl
@[simp] theorem onSvc_press (f : SvcState → SvcState) (s : State) : (onSvc f s).press = s.press := rfl
@[simp] theorem onSvc_dma (f : SvcState → SvcState) (s : State) : (onSvc f s).dma = s.dma := rfl
@[simp] theorem onSvc_lastRead (f : SvcState → SvcState) (s : State) : (onSvc f s).lastRead = s.lastRead := rfl
@[simp] theorem onSvc_freeCount (f : SvcState → SvcState) (s : State) : (onSvc f s).freeCount = s.freeCount := rfl
@[simp] theorem onSvc_pending (f : SvcState → SvcState) (s : State) : (onSvc f s).pending = s.pending := rfl
@[simp] theorem onSvc_rd (f : SvcState → SvcState) (s : State) (g : Fld) : (onSvc f s).rd g = s.rd g := rfl
@[simp] theorem onSvc_prm (f : SvcState → SvcState) (s : State) (p : Prm) : (onSvc f s).prm p = s.prm p := rfl

@[simp] theorem onAudCore_cells (n : Nat) (f : AudCoreRun → AudCoreRun) (s : State) : (onAudCore n f s).cells = s.cells := rfl
@[simp] theorem onAudCore_latched (n : Nat) (f : AudCoreRun → AudCoreRun) (s : State) : (onAudCore n f s).latched = s.latched := rfl
@[simp] theorem onAudCore_snap (n : Nat) (f : AudCoreRun → AudCoreRun) (s : State) : (onAudCore n f s).snap = s.snap := rfl
@[simp] theorem onAudCore_params (n : Nat) (f : AudCoreRun → AudCoreRun) (s : State) : (onAudCore n f s).params = s.params := rfl
@[simp] theorem onAudCore_mem (n : Nat) (f : AudCoreRun → AudCoreRun) (s : State) : (onAudCore n f s).mem = s.mem := rfl
@[simp] theorem onAudCore_ref (n : Nat) (f : AudCoreRun → AudCoreRun) (s : State) : (onAudCore n f s).ref = s.ref := rfl
@[simp] theorem onAudCore_lp (n : Nat) (f : AudCoreRun → AudCoreRun) (s : State) : (onAudCore n f s).lp = s.lp := rfl
@[simp] theorem onAudCore_vat (n : Nat) (f : AudCoreRun → AudCoreRun) (s : State) : (onAudCore n f s).vat = s.vat := rfl
@[simp] theorem onAudCore_planes (n : Nat) (f : AudCoreRun → AudCoreRun) (s : State) : (onAudCore n f s).planes = s.planes := rfl
@[simp] theorem onAudCore_harp (n : Nat) (f : AudCoreRun → AudCoreRun) (s : State) : (onAudCore n f s).harp = s.harp := rfl
@[simp] theorem onAudCore_pipes (n : Nat) (f : AudCoreRun → AudCoreRun) (s : State) : (onAudCore n f s).pipes = s.pipes := rfl
@[simp] theorem onAudCore_ports (n : Nat) (f : AudCoreRun → AudCoreRun) (s : State) : (onAudCore n f s).ports = s.ports := rfl
@[simp] theorem onAudCore_cam (n : Nat) (f : AudCoreRun → AudCoreRun) (s : State) : (onAudCore n f s).cam = s.cam := rfl
@[simp] theorem onAudCore_rind (n : Nat) (f : AudCoreRun → AudCoreRun) (s : State) : (onAudCore n f s).rind = s.rind := rfl
@[simp] theorem onAudCore_intc (n : Nat) (f : AudCoreRun → AudCoreRun) (s : State) : (onAudCore n f s).intc = s.intc := rfl
@[simp] theorem onAudCore_hif (n : Nat) (f : AudCoreRun → AudCoreRun) (s : State) : (onAudCore n f s).hif = s.hif := rfl
@[simp] theorem onAudCore_cellar (n : Nat) (f : AudCoreRun → AudCoreRun) (s : State) : (onAudCore n f s).cellar = s.cellar := rfl
@[simp] theorem onAudCore_fault (n : Nat) (f : AudCoreRun → AudCoreRun) (s : State) : (onAudCore n f s).fault = s.fault := rfl
@[simp] theorem onAudCore_svc (n : Nat) (f : AudCoreRun → AudCoreRun) (s : State) : (onAudCore n f s).svc = s.svc := rfl
@[simp] theorem onAudCore_casc (n : Nat) (f : AudCoreRun → AudCoreRun) (s : State) : (onAudCore n f s).casc = s.casc := rfl
@[simp] theorem onAudCore_timers (n : Nat) (f : AudCoreRun → AudCoreRun) (s : State) : (onAudCore n f s).timers = s.timers := rfl
@[simp] theorem onAudCore_pins (n : Nat) (f : AudCoreRun → AudCoreRun) (s : State) : (onAudCore n f s).pins = s.pins := rfl
@[simp] theorem onAudCore_cores (n : Nat) (f : AudCoreRun → AudCoreRun) (s : State) : (onAudCore n f s).cores = s.cores := rfl
@[simp] theorem onAudCore_press (n : Nat) (f : AudCoreRun → AudCoreRun) (s : State) : (onAudCore n f s).press = s.press := rfl
@[simp] theorem onAudCore_dma (n : Nat) (f : AudCoreRun → AudCoreRun) (s : State) : (onAudCore n f s).dma = s.dma := rfl
@[simp] theorem onAudCore_lastRead (n : Nat) (f : AudCoreRun → AudCoreRun) (s : State) : (onAudCore n f s).lastRead = s.lastRead := rfl
@[simp] theorem onAudCore_freeCount (n : Nat) (f : AudCoreRun → AudCoreRun) (s : State) : (onAudCore n f s).freeCount = s.freeCount := rfl
@[simp] theorem onAudCore_pending (n : Nat) (f : AudCoreRun → AudCoreRun) (s : State) : (onAudCore n f s).pending = s.pending := rfl
@[simp] theorem onAudCore_rd (n : Nat) (f : AudCoreRun → AudCoreRun) (s : State) (g : Fld) : (onAudCore n f s).rd g = s.rd g := rfl
@[simp] theorem onAudCore_prm (n : Nat) (f : AudCoreRun → AudCoreRun) (s : State) (p : Prm) : (onAudCore n f s).prm p = s.prm p := rfl

@[simp] theorem onPlayer_cells (n : Nat) (f : PlayRun → PlayRun) (s : State) : (onPlayer n f s).cells = s.cells := rfl
@[simp] theorem onPlayer_latched (n : Nat) (f : PlayRun → PlayRun) (s : State) : (onPlayer n f s).latched = s.latched := rfl
@[simp] theorem onPlayer_snap (n : Nat) (f : PlayRun → PlayRun) (s : State) : (onPlayer n f s).snap = s.snap := rfl
@[simp] theorem onPlayer_params (n : Nat) (f : PlayRun → PlayRun) (s : State) : (onPlayer n f s).params = s.params := rfl
@[simp] theorem onPlayer_mem (n : Nat) (f : PlayRun → PlayRun) (s : State) : (onPlayer n f s).mem = s.mem := rfl
@[simp] theorem onPlayer_ref (n : Nat) (f : PlayRun → PlayRun) (s : State) : (onPlayer n f s).ref = s.ref := rfl
@[simp] theorem onPlayer_lp (n : Nat) (f : PlayRun → PlayRun) (s : State) : (onPlayer n f s).lp = s.lp := rfl
@[simp] theorem onPlayer_vat (n : Nat) (f : PlayRun → PlayRun) (s : State) : (onPlayer n f s).vat = s.vat := rfl
@[simp] theorem onPlayer_planes (n : Nat) (f : PlayRun → PlayRun) (s : State) : (onPlayer n f s).planes = s.planes := rfl
@[simp] theorem onPlayer_harp (n : Nat) (f : PlayRun → PlayRun) (s : State) : (onPlayer n f s).harp = s.harp := rfl
@[simp] theorem onPlayer_pipes (n : Nat) (f : PlayRun → PlayRun) (s : State) : (onPlayer n f s).pipes = s.pipes := rfl
@[simp] theorem onPlayer_ports (n : Nat) (f : PlayRun → PlayRun) (s : State) : (onPlayer n f s).ports = s.ports := rfl
@[simp] theorem onPlayer_cam (n : Nat) (f : PlayRun → PlayRun) (s : State) : (onPlayer n f s).cam = s.cam := rfl
@[simp] theorem onPlayer_rind (n : Nat) (f : PlayRun → PlayRun) (s : State) : (onPlayer n f s).rind = s.rind := rfl
@[simp] theorem onPlayer_intc (n : Nat) (f : PlayRun → PlayRun) (s : State) : (onPlayer n f s).intc = s.intc := rfl
@[simp] theorem onPlayer_hif (n : Nat) (f : PlayRun → PlayRun) (s : State) : (onPlayer n f s).hif = s.hif := rfl
@[simp] theorem onPlayer_cellar (n : Nat) (f : PlayRun → PlayRun) (s : State) : (onPlayer n f s).cellar = s.cellar := rfl
@[simp] theorem onPlayer_fault (n : Nat) (f : PlayRun → PlayRun) (s : State) : (onPlayer n f s).fault = s.fault := rfl
@[simp] theorem onPlayer_svc (n : Nat) (f : PlayRun → PlayRun) (s : State) : (onPlayer n f s).svc = s.svc := rfl
@[simp] theorem onPlayer_casc (n : Nat) (f : PlayRun → PlayRun) (s : State) : (onPlayer n f s).casc = s.casc := rfl
@[simp] theorem onPlayer_timers (n : Nat) (f : PlayRun → PlayRun) (s : State) : (onPlayer n f s).timers = s.timers := rfl
@[simp] theorem onPlayer_pins (n : Nat) (f : PlayRun → PlayRun) (s : State) : (onPlayer n f s).pins = s.pins := rfl
@[simp] theorem onPlayer_cores (n : Nat) (f : PlayRun → PlayRun) (s : State) : (onPlayer n f s).cores = s.cores := rfl
@[simp] theorem onPlayer_press (n : Nat) (f : PlayRun → PlayRun) (s : State) : (onPlayer n f s).press = s.press := rfl
@[simp] theorem onPlayer_dma (n : Nat) (f : PlayRun → PlayRun) (s : State) : (onPlayer n f s).dma = s.dma := rfl
@[simp] theorem onPlayer_lastRead (n : Nat) (f : PlayRun → PlayRun) (s : State) : (onPlayer n f s).lastRead = s.lastRead := rfl
@[simp] theorem onPlayer_freeCount (n : Nat) (f : PlayRun → PlayRun) (s : State) : (onPlayer n f s).freeCount = s.freeCount := rfl
@[simp] theorem onPlayer_pending (n : Nat) (f : PlayRun → PlayRun) (s : State) : (onPlayer n f s).pending = s.pending := rfl
@[simp] theorem onPlayer_rd (n : Nat) (f : PlayRun → PlayRun) (s : State) (g : Fld) : (onPlayer n f s).rd g = s.rd g := rfl
@[simp] theorem onPlayer_prm (n : Nat) (f : PlayRun → PlayRun) (s : State) (p : Prm) : (onPlayer n f s).prm p = s.prm p := rfl

@[simp] theorem onStream_cells (n : Nat) (f : StreamRun → StreamRun) (s : State) : (onStream n f s).cells = s.cells := rfl
@[simp] theorem onStream_latched (n : Nat) (f : StreamRun → StreamRun) (s : State) : (onStream n f s).latched = s.latched := rfl
@[simp] theorem onStream_snap (n : Nat) (f : StreamRun → StreamRun) (s : State) : (onStream n f s).snap = s.snap := rfl
@[simp] theorem onStream_params (n : Nat) (f : StreamRun → StreamRun) (s : State) : (onStream n f s).params = s.params := rfl
@[simp] theorem onStream_mem (n : Nat) (f : StreamRun → StreamRun) (s : State) : (onStream n f s).mem = s.mem := rfl
@[simp] theorem onStream_ref (n : Nat) (f : StreamRun → StreamRun) (s : State) : (onStream n f s).ref = s.ref := rfl
@[simp] theorem onStream_lp (n : Nat) (f : StreamRun → StreamRun) (s : State) : (onStream n f s).lp = s.lp := rfl
@[simp] theorem onStream_vat (n : Nat) (f : StreamRun → StreamRun) (s : State) : (onStream n f s).vat = s.vat := rfl
@[simp] theorem onStream_planes (n : Nat) (f : StreamRun → StreamRun) (s : State) : (onStream n f s).planes = s.planes := rfl
@[simp] theorem onStream_harp (n : Nat) (f : StreamRun → StreamRun) (s : State) : (onStream n f s).harp = s.harp := rfl
@[simp] theorem onStream_pipes (n : Nat) (f : StreamRun → StreamRun) (s : State) : (onStream n f s).pipes = s.pipes := rfl
@[simp] theorem onStream_ports (n : Nat) (f : StreamRun → StreamRun) (s : State) : (onStream n f s).ports = s.ports := rfl
@[simp] theorem onStream_rind (n : Nat) (f : StreamRun → StreamRun) (s : State) : (onStream n f s).rind = s.rind := rfl
@[simp] theorem onStream_intc (n : Nat) (f : StreamRun → StreamRun) (s : State) : (onStream n f s).intc = s.intc := rfl
@[simp] theorem onStream_hif (n : Nat) (f : StreamRun → StreamRun) (s : State) : (onStream n f s).hif = s.hif := rfl
@[simp] theorem onStream_cellar (n : Nat) (f : StreamRun → StreamRun) (s : State) : (onStream n f s).cellar = s.cellar := rfl
@[simp] theorem onStream_fault (n : Nat) (f : StreamRun → StreamRun) (s : State) : (onStream n f s).fault = s.fault := rfl
@[simp] theorem onStream_svc (n : Nat) (f : StreamRun → StreamRun) (s : State) : (onStream n f s).svc = s.svc := rfl
@[simp] theorem onStream_casc (n : Nat) (f : StreamRun → StreamRun) (s : State) : (onStream n f s).casc = s.casc := rfl
@[simp] theorem onStream_timers (n : Nat) (f : StreamRun → StreamRun) (s : State) : (onStream n f s).timers = s.timers := rfl
@[simp] theorem onStream_pins (n : Nat) (f : StreamRun → StreamRun) (s : State) : (onStream n f s).pins = s.pins := rfl
@[simp] theorem onStream_aud (n : Nat) (f : StreamRun → StreamRun) (s : State) : (onStream n f s).aud = s.aud := rfl
@[simp] theorem onStream_cores (n : Nat) (f : StreamRun → StreamRun) (s : State) : (onStream n f s).cores = s.cores := rfl
@[simp] theorem onStream_press (n : Nat) (f : StreamRun → StreamRun) (s : State) : (onStream n f s).press = s.press := rfl
@[simp] theorem onStream_dma (n : Nat) (f : StreamRun → StreamRun) (s : State) : (onStream n f s).dma = s.dma := rfl
@[simp] theorem onStream_lastRead (n : Nat) (f : StreamRun → StreamRun) (s : State) : (onStream n f s).lastRead = s.lastRead := rfl
@[simp] theorem onStream_freeCount (n : Nat) (f : StreamRun → StreamRun) (s : State) : (onStream n f s).freeCount = s.freeCount := rfl
@[simp] theorem onStream_pending (n : Nat) (f : StreamRun → StreamRun) (s : State) : (onStream n f s).pending = s.pending := rfl
@[simp] theorem onStream_rd (n : Nat) (f : StreamRun → StreamRun) (s : State) (g : Fld) : (onStream n f s).rd g = s.rd g := rfl
@[simp] theorem onStream_prm (n : Nat) (f : StreamRun → StreamRun) (s : State) (p : Prm) : (onStream n f s).prm p = s.prm p := rfl

@[simp] theorem onFeed_cells (n : Nat) (f : FeedRun → FeedRun) (s : State) : (onFeed n f s).cells = s.cells := rfl
@[simp] theorem onFeed_latched (n : Nat) (f : FeedRun → FeedRun) (s : State) : (onFeed n f s).latched = s.latched := rfl
@[simp] theorem onFeed_snap (n : Nat) (f : FeedRun → FeedRun) (s : State) : (onFeed n f s).snap = s.snap := rfl
@[simp] theorem onFeed_params (n : Nat) (f : FeedRun → FeedRun) (s : State) : (onFeed n f s).params = s.params := rfl
@[simp] theorem onFeed_mem (n : Nat) (f : FeedRun → FeedRun) (s : State) : (onFeed n f s).mem = s.mem := rfl
@[simp] theorem onFeed_ref (n : Nat) (f : FeedRun → FeedRun) (s : State) : (onFeed n f s).ref = s.ref := rfl
@[simp] theorem onFeed_lp (n : Nat) (f : FeedRun → FeedRun) (s : State) : (onFeed n f s).lp = s.lp := rfl
@[simp] theorem onFeed_vat (n : Nat) (f : FeedRun → FeedRun) (s : State) : (onFeed n f s).vat = s.vat := rfl
@[simp] theorem onFeed_planes (n : Nat) (f : FeedRun → FeedRun) (s : State) : (onFeed n f s).planes = s.planes := rfl
@[simp] theorem onFeed_harp (n : Nat) (f : FeedRun → FeedRun) (s : State) : (onFeed n f s).harp = s.harp := rfl
@[simp] theorem onFeed_pipes (n : Nat) (f : FeedRun → FeedRun) (s : State) : (onFeed n f s).pipes = s.pipes := rfl
@[simp] theorem onFeed_ports (n : Nat) (f : FeedRun → FeedRun) (s : State) : (onFeed n f s).ports = s.ports := rfl
@[simp] theorem onFeed_cam (n : Nat) (f : FeedRun → FeedRun) (s : State) : (onFeed n f s).cam = s.cam := rfl
@[simp] theorem onFeed_rind (n : Nat) (f : FeedRun → FeedRun) (s : State) : (onFeed n f s).rind = s.rind := rfl
@[simp] theorem onFeed_intc (n : Nat) (f : FeedRun → FeedRun) (s : State) : (onFeed n f s).intc = s.intc := rfl
@[simp] theorem onFeed_hif (n : Nat) (f : FeedRun → FeedRun) (s : State) : (onFeed n f s).hif = s.hif := rfl
@[simp] theorem onFeed_cellar (n : Nat) (f : FeedRun → FeedRun) (s : State) : (onFeed n f s).cellar = s.cellar := rfl
@[simp] theorem onFeed_fault (n : Nat) (f : FeedRun → FeedRun) (s : State) : (onFeed n f s).fault = s.fault := rfl
@[simp] theorem onFeed_svc (n : Nat) (f : FeedRun → FeedRun) (s : State) : (onFeed n f s).svc = s.svc := rfl
@[simp] theorem onFeed_timers (n : Nat) (f : FeedRun → FeedRun) (s : State) : (onFeed n f s).timers = s.timers := rfl
@[simp] theorem onFeed_pins (n : Nat) (f : FeedRun → FeedRun) (s : State) : (onFeed n f s).pins = s.pins := rfl
@[simp] theorem onFeed_aud (n : Nat) (f : FeedRun → FeedRun) (s : State) : (onFeed n f s).aud = s.aud := rfl
@[simp] theorem onFeed_cores (n : Nat) (f : FeedRun → FeedRun) (s : State) : (onFeed n f s).cores = s.cores := rfl
@[simp] theorem onFeed_press (n : Nat) (f : FeedRun → FeedRun) (s : State) : (onFeed n f s).press = s.press := rfl
@[simp] theorem onFeed_dma (n : Nat) (f : FeedRun → FeedRun) (s : State) : (onFeed n f s).dma = s.dma := rfl
@[simp] theorem onFeed_lastRead (n : Nat) (f : FeedRun → FeedRun) (s : State) : (onFeed n f s).lastRead = s.lastRead := rfl
@[simp] theorem onFeed_freeCount (n : Nat) (f : FeedRun → FeedRun) (s : State) : (onFeed n f s).freeCount = s.freeCount := rfl
@[simp] theorem onFeed_pending (n : Nat) (f : FeedRun → FeedRun) (s : State) : (onFeed n f s).pending = s.pending := rfl
@[simp] theorem onFeed_rd (n : Nat) (f : FeedRun → FeedRun) (s : State) (g : Fld) : (onFeed n f s).rd g = s.rd g := rfl
@[simp] theorem onFeed_prm (n : Nat) (f : FeedRun → FeedRun) (s : State) (p : Prm) : (onFeed n f s).prm p = s.prm p := rfl

@[simp] theorem onLink_cells (n : Nat) (f : CascLink → CascLink) (s : State) : (onLink n f s).cells = s.cells := rfl
@[simp] theorem onLink_latched (n : Nat) (f : CascLink → CascLink) (s : State) : (onLink n f s).latched = s.latched := rfl
@[simp] theorem onLink_snap (n : Nat) (f : CascLink → CascLink) (s : State) : (onLink n f s).snap = s.snap := rfl
@[simp] theorem onLink_params (n : Nat) (f : CascLink → CascLink) (s : State) : (onLink n f s).params = s.params := rfl
@[simp] theorem onLink_mem (n : Nat) (f : CascLink → CascLink) (s : State) : (onLink n f s).mem = s.mem := rfl
@[simp] theorem onLink_ref (n : Nat) (f : CascLink → CascLink) (s : State) : (onLink n f s).ref = s.ref := rfl
@[simp] theorem onLink_lp (n : Nat) (f : CascLink → CascLink) (s : State) : (onLink n f s).lp = s.lp := rfl
@[simp] theorem onLink_vat (n : Nat) (f : CascLink → CascLink) (s : State) : (onLink n f s).vat = s.vat := rfl
@[simp] theorem onLink_planes (n : Nat) (f : CascLink → CascLink) (s : State) : (onLink n f s).planes = s.planes := rfl
@[simp] theorem onLink_harp (n : Nat) (f : CascLink → CascLink) (s : State) : (onLink n f s).harp = s.harp := rfl
@[simp] theorem onLink_pipes (n : Nat) (f : CascLink → CascLink) (s : State) : (onLink n f s).pipes = s.pipes := rfl
@[simp] theorem onLink_ports (n : Nat) (f : CascLink → CascLink) (s : State) : (onLink n f s).ports = s.ports := rfl
@[simp] theorem onLink_cam (n : Nat) (f : CascLink → CascLink) (s : State) : (onLink n f s).cam = s.cam := rfl
@[simp] theorem onLink_rind (n : Nat) (f : CascLink → CascLink) (s : State) : (onLink n f s).rind = s.rind := rfl
@[simp] theorem onLink_intc (n : Nat) (f : CascLink → CascLink) (s : State) : (onLink n f s).intc = s.intc := rfl
@[simp] theorem onLink_hif (n : Nat) (f : CascLink → CascLink) (s : State) : (onLink n f s).hif = s.hif := rfl
@[simp] theorem onLink_cellar (n : Nat) (f : CascLink → CascLink) (s : State) : (onLink n f s).cellar = s.cellar := rfl
@[simp] theorem onLink_fault (n : Nat) (f : CascLink → CascLink) (s : State) : (onLink n f s).fault = s.fault := rfl
@[simp] theorem onLink_svc (n : Nat) (f : CascLink → CascLink) (s : State) : (onLink n f s).svc = s.svc := rfl
@[simp] theorem onLink_timers (n : Nat) (f : CascLink → CascLink) (s : State) : (onLink n f s).timers = s.timers := rfl
@[simp] theorem onLink_pins (n : Nat) (f : CascLink → CascLink) (s : State) : (onLink n f s).pins = s.pins := rfl
@[simp] theorem onLink_aud (n : Nat) (f : CascLink → CascLink) (s : State) : (onLink n f s).aud = s.aud := rfl
@[simp] theorem onLink_cores (n : Nat) (f : CascLink → CascLink) (s : State) : (onLink n f s).cores = s.cores := rfl
@[simp] theorem onLink_press (n : Nat) (f : CascLink → CascLink) (s : State) : (onLink n f s).press = s.press := rfl
@[simp] theorem onLink_dma (n : Nat) (f : CascLink → CascLink) (s : State) : (onLink n f s).dma = s.dma := rfl
@[simp] theorem onLink_lastRead (n : Nat) (f : CascLink → CascLink) (s : State) : (onLink n f s).lastRead = s.lastRead := rfl
@[simp] theorem onLink_freeCount (n : Nat) (f : CascLink → CascLink) (s : State) : (onLink n f s).freeCount = s.freeCount := rfl
@[simp] theorem onLink_pending (n : Nat) (f : CascLink → CascLink) (s : State) : (onLink n f s).pending = s.pending := rfl
@[simp] theorem onLink_rd (n : Nat) (f : CascLink → CascLink) (s : State) (g : Fld) : (onLink n f s).rd g = s.rd g := rfl
@[simp] theorem onLink_prm (n : Nat) (f : CascLink → CascLink) (s : State) (p : Prm) : (onLink n f s).prm p = s.prm p := rfl

@[simp] theorem onRind_cells (n : Nat) (f : RindRun → RindRun) (s : State) : (onRind n f s).cells = s.cells := rfl
@[simp] theorem onRind_latched (n : Nat) (f : RindRun → RindRun) (s : State) : (onRind n f s).latched = s.latched := rfl
@[simp] theorem onRind_snap (n : Nat) (f : RindRun → RindRun) (s : State) : (onRind n f s).snap = s.snap := rfl
@[simp] theorem onRind_params (n : Nat) (f : RindRun → RindRun) (s : State) : (onRind n f s).params = s.params := rfl
@[simp] theorem onRind_mem (n : Nat) (f : RindRun → RindRun) (s : State) : (onRind n f s).mem = s.mem := rfl
@[simp] theorem onRind_ref (n : Nat) (f : RindRun → RindRun) (s : State) : (onRind n f s).ref = s.ref := rfl
@[simp] theorem onRind_lp (n : Nat) (f : RindRun → RindRun) (s : State) : (onRind n f s).lp = s.lp := rfl
@[simp] theorem onRind_vat (n : Nat) (f : RindRun → RindRun) (s : State) : (onRind n f s).vat = s.vat := rfl
@[simp] theorem onRind_planes (n : Nat) (f : RindRun → RindRun) (s : State) : (onRind n f s).planes = s.planes := rfl
@[simp] theorem onRind_harp (n : Nat) (f : RindRun → RindRun) (s : State) : (onRind n f s).harp = s.harp := rfl
@[simp] theorem onRind_pipes (n : Nat) (f : RindRun → RindRun) (s : State) : (onRind n f s).pipes = s.pipes := rfl
@[simp] theorem onRind_ports (n : Nat) (f : RindRun → RindRun) (s : State) : (onRind n f s).ports = s.ports := rfl
@[simp] theorem onRind_cam (n : Nat) (f : RindRun → RindRun) (s : State) : (onRind n f s).cam = s.cam := rfl
@[simp] theorem onRind_intc (n : Nat) (f : RindRun → RindRun) (s : State) : (onRind n f s).intc = s.intc := rfl
@[simp] theorem onRind_hif (n : Nat) (f : RindRun → RindRun) (s : State) : (onRind n f s).hif = s.hif := rfl
@[simp] theorem onRind_cellar (n : Nat) (f : RindRun → RindRun) (s : State) : (onRind n f s).cellar = s.cellar := rfl
@[simp] theorem onRind_fault (n : Nat) (f : RindRun → RindRun) (s : State) : (onRind n f s).fault = s.fault := rfl
@[simp] theorem onRind_svc (n : Nat) (f : RindRun → RindRun) (s : State) : (onRind n f s).svc = s.svc := rfl
@[simp] theorem onRind_casc (n : Nat) (f : RindRun → RindRun) (s : State) : (onRind n f s).casc = s.casc := rfl
@[simp] theorem onRind_timers (n : Nat) (f : RindRun → RindRun) (s : State) : (onRind n f s).timers = s.timers := rfl
@[simp] theorem onRind_pins (n : Nat) (f : RindRun → RindRun) (s : State) : (onRind n f s).pins = s.pins := rfl
@[simp] theorem onRind_aud (n : Nat) (f : RindRun → RindRun) (s : State) : (onRind n f s).aud = s.aud := rfl
@[simp] theorem onRind_cores (n : Nat) (f : RindRun → RindRun) (s : State) : (onRind n f s).cores = s.cores := rfl
@[simp] theorem onRind_press (n : Nat) (f : RindRun → RindRun) (s : State) : (onRind n f s).press = s.press := rfl
@[simp] theorem onRind_dma (n : Nat) (f : RindRun → RindRun) (s : State) : (onRind n f s).dma = s.dma := rfl
@[simp] theorem onRind_lastRead (n : Nat) (f : RindRun → RindRun) (s : State) : (onRind n f s).lastRead = s.lastRead := rfl
@[simp] theorem onRind_freeCount (n : Nat) (f : RindRun → RindRun) (s : State) : (onRind n f s).freeCount = s.freeCount := rfl
@[simp] theorem onRind_pending (n : Nat) (f : RindRun → RindRun) (s : State) : (onRind n f s).pending = s.pending := rfl
@[simp] theorem onRind_rd (n : Nat) (f : RindRun → RindRun) (s : State) (g : Fld) : (onRind n f s).rd g = s.rd g := rfl
@[simp] theorem onRind_prm (n : Nat) (f : RindRun → RindRun) (s : State) (p : Prm) : (onRind n f s).prm p = s.prm p := rfl

@[simp] theorem onCore_cells (n : Nat) (f : CoreRun → CoreRun) (s : State) : (onCore n f s).cells = s.cells := rfl
@[simp] theorem onCore_latched (n : Nat) (f : CoreRun → CoreRun) (s : State) : (onCore n f s).latched = s.latched := rfl
@[simp] theorem onCore_snap (n : Nat) (f : CoreRun → CoreRun) (s : State) : (onCore n f s).snap = s.snap := rfl
@[simp] theorem onCore_params (n : Nat) (f : CoreRun → CoreRun) (s : State) : (onCore n f s).params = s.params := rfl
@[simp] theorem onCore_mem (n : Nat) (f : CoreRun → CoreRun) (s : State) : (onCore n f s).mem = s.mem := rfl
@[simp] theorem onCore_ref (n : Nat) (f : CoreRun → CoreRun) (s : State) : (onCore n f s).ref = s.ref := rfl
@[simp] theorem onCore_lp (n : Nat) (f : CoreRun → CoreRun) (s : State) : (onCore n f s).lp = s.lp := rfl
@[simp] theorem onCore_vat (n : Nat) (f : CoreRun → CoreRun) (s : State) : (onCore n f s).vat = s.vat := rfl
@[simp] theorem onCore_planes (n : Nat) (f : CoreRun → CoreRun) (s : State) : (onCore n f s).planes = s.planes := rfl
@[simp] theorem onCore_harp (n : Nat) (f : CoreRun → CoreRun) (s : State) : (onCore n f s).harp = s.harp := rfl
@[simp] theorem onCore_pipes (n : Nat) (f : CoreRun → CoreRun) (s : State) : (onCore n f s).pipes = s.pipes := rfl
@[simp] theorem onCore_ports (n : Nat) (f : CoreRun → CoreRun) (s : State) : (onCore n f s).ports = s.ports := rfl
@[simp] theorem onCore_cam (n : Nat) (f : CoreRun → CoreRun) (s : State) : (onCore n f s).cam = s.cam := rfl
@[simp] theorem onCore_rind (n : Nat) (f : CoreRun → CoreRun) (s : State) : (onCore n f s).rind = s.rind := rfl
@[simp] theorem onCore_intc (n : Nat) (f : CoreRun → CoreRun) (s : State) : (onCore n f s).intc = s.intc := rfl
@[simp] theorem onCore_hif (n : Nat) (f : CoreRun → CoreRun) (s : State) : (onCore n f s).hif = s.hif := rfl
@[simp] theorem onCore_cellar (n : Nat) (f : CoreRun → CoreRun) (s : State) : (onCore n f s).cellar = s.cellar := rfl
@[simp] theorem onCore_fault (n : Nat) (f : CoreRun → CoreRun) (s : State) : (onCore n f s).fault = s.fault := rfl
@[simp] theorem onCore_svc (n : Nat) (f : CoreRun → CoreRun) (s : State) : (onCore n f s).svc = s.svc := rfl
@[simp] theorem onCore_casc (n : Nat) (f : CoreRun → CoreRun) (s : State) : (onCore n f s).casc = s.casc := rfl
@[simp] theorem onCore_timers (n : Nat) (f : CoreRun → CoreRun) (s : State) : (onCore n f s).timers = s.timers := rfl
@[simp] theorem onCore_pins (n : Nat) (f : CoreRun → CoreRun) (s : State) : (onCore n f s).pins = s.pins := rfl
@[simp] theorem onCore_aud (n : Nat) (f : CoreRun → CoreRun) (s : State) : (onCore n f s).aud = s.aud := rfl
@[simp] theorem onCore_press (n : Nat) (f : CoreRun → CoreRun) (s : State) : (onCore n f s).press = s.press := rfl
@[simp] theorem onCore_dma (n : Nat) (f : CoreRun → CoreRun) (s : State) : (onCore n f s).dma = s.dma := rfl
@[simp] theorem onCore_lastRead (n : Nat) (f : CoreRun → CoreRun) (s : State) : (onCore n f s).lastRead = s.lastRead := rfl
@[simp] theorem onCore_freeCount (n : Nat) (f : CoreRun → CoreRun) (s : State) : (onCore n f s).freeCount = s.freeCount := rfl
@[simp] theorem onCore_pending (n : Nat) (f : CoreRun → CoreRun) (s : State) : (onCore n f s).pending = s.pending := rfl
@[simp] theorem onCore_rd (n : Nat) (f : CoreRun → CoreRun) (s : State) (g : Fld) : (onCore n f s).rd g = s.rd g := rfl
@[simp] theorem onCore_prm (n : Nat) (f : CoreRun → CoreRun) (s : State) (p : Prm) : (onCore n f s).prm p = s.prm p := rfl

@[simp] theorem onDma_cells (n : Nat) (f : DmaRun → DmaRun) (s : State) : (onDma n f s).cells = s.cells := rfl
@[simp] theorem onDma_latched (n : Nat) (f : DmaRun → DmaRun) (s : State) : (onDma n f s).latched = s.latched := rfl
@[simp] theorem onDma_snap (n : Nat) (f : DmaRun → DmaRun) (s : State) : (onDma n f s).snap = s.snap := rfl
@[simp] theorem onDma_params (n : Nat) (f : DmaRun → DmaRun) (s : State) : (onDma n f s).params = s.params := rfl
@[simp] theorem onDma_mem (n : Nat) (f : DmaRun → DmaRun) (s : State) : (onDma n f s).mem = s.mem := rfl
@[simp] theorem onDma_ref (n : Nat) (f : DmaRun → DmaRun) (s : State) : (onDma n f s).ref = s.ref := rfl
@[simp] theorem onDma_lp (n : Nat) (f : DmaRun → DmaRun) (s : State) : (onDma n f s).lp = s.lp := rfl
@[simp] theorem onDma_vat (n : Nat) (f : DmaRun → DmaRun) (s : State) : (onDma n f s).vat = s.vat := rfl
@[simp] theorem onDma_planes (n : Nat) (f : DmaRun → DmaRun) (s : State) : (onDma n f s).planes = s.planes := rfl
@[simp] theorem onDma_harp (n : Nat) (f : DmaRun → DmaRun) (s : State) : (onDma n f s).harp = s.harp := rfl
@[simp] theorem onDma_pipes (n : Nat) (f : DmaRun → DmaRun) (s : State) : (onDma n f s).pipes = s.pipes := rfl
@[simp] theorem onDma_ports (n : Nat) (f : DmaRun → DmaRun) (s : State) : (onDma n f s).ports = s.ports := rfl
@[simp] theorem onDma_cam (n : Nat) (f : DmaRun → DmaRun) (s : State) : (onDma n f s).cam = s.cam := rfl
@[simp] theorem onDma_rind (n : Nat) (f : DmaRun → DmaRun) (s : State) : (onDma n f s).rind = s.rind := rfl
@[simp] theorem onDma_intc (n : Nat) (f : DmaRun → DmaRun) (s : State) : (onDma n f s).intc = s.intc := rfl
@[simp] theorem onDma_hif (n : Nat) (f : DmaRun → DmaRun) (s : State) : (onDma n f s).hif = s.hif := rfl
@[simp] theorem onDma_cellar (n : Nat) (f : DmaRun → DmaRun) (s : State) : (onDma n f s).cellar = s.cellar := rfl
@[simp] theorem onDma_fault (n : Nat) (f : DmaRun → DmaRun) (s : State) : (onDma n f s).fault = s.fault := rfl
@[simp] theorem onDma_svc (n : Nat) (f : DmaRun → DmaRun) (s : State) : (onDma n f s).svc = s.svc := rfl
@[simp] theorem onDma_casc (n : Nat) (f : DmaRun → DmaRun) (s : State) : (onDma n f s).casc = s.casc := rfl
@[simp] theorem onDma_timers (n : Nat) (f : DmaRun → DmaRun) (s : State) : (onDma n f s).timers = s.timers := rfl
@[simp] theorem onDma_pins (n : Nat) (f : DmaRun → DmaRun) (s : State) : (onDma n f s).pins = s.pins := rfl
@[simp] theorem onDma_aud (n : Nat) (f : DmaRun → DmaRun) (s : State) : (onDma n f s).aud = s.aud := rfl
@[simp] theorem onDma_cores (n : Nat) (f : DmaRun → DmaRun) (s : State) : (onDma n f s).cores = s.cores := rfl
@[simp] theorem onDma_press (n : Nat) (f : DmaRun → DmaRun) (s : State) : (onDma n f s).press = s.press := rfl
@[simp] theorem onDma_lastRead (n : Nat) (f : DmaRun → DmaRun) (s : State) : (onDma n f s).lastRead = s.lastRead := rfl
@[simp] theorem onDma_freeCount (n : Nat) (f : DmaRun → DmaRun) (s : State) : (onDma n f s).freeCount = s.freeCount := rfl
@[simp] theorem onDma_pending (n : Nat) (f : DmaRun → DmaRun) (s : State) : (onDma n f s).pending = s.pending := rfl
@[simp] theorem onDma_rd (n : Nat) (f : DmaRun → DmaRun) (s : State) (g : Fld) : (onDma n f s).rd g = s.rd g := rfl
@[simp] theorem onDma_prm (n : Nat) (f : DmaRun → DmaRun) (s : State) (p : Prm) : (onDma n f s).prm p = s.prm p := rfl

@[simp] theorem onHarp_cells (n : Nat) (f : HarpRun → HarpRun) (s : State) : (onHarp n f s).cells = s.cells := rfl
@[simp] theorem onHarp_latched (n : Nat) (f : HarpRun → HarpRun) (s : State) : (onHarp n f s).latched = s.latched := rfl
@[simp] theorem onHarp_snap (n : Nat) (f : HarpRun → HarpRun) (s : State) : (onHarp n f s).snap = s.snap := rfl
@[simp] theorem onHarp_params (n : Nat) (f : HarpRun → HarpRun) (s : State) : (onHarp n f s).params = s.params := rfl
@[simp] theorem onHarp_mem (n : Nat) (f : HarpRun → HarpRun) (s : State) : (onHarp n f s).mem = s.mem := rfl
@[simp] theorem onHarp_ref (n : Nat) (f : HarpRun → HarpRun) (s : State) : (onHarp n f s).ref = s.ref := rfl
@[simp] theorem onHarp_lp (n : Nat) (f : HarpRun → HarpRun) (s : State) : (onHarp n f s).lp = s.lp := rfl
@[simp] theorem onHarp_vat (n : Nat) (f : HarpRun → HarpRun) (s : State) : (onHarp n f s).vat = s.vat := rfl
@[simp] theorem onHarp_planes (n : Nat) (f : HarpRun → HarpRun) (s : State) : (onHarp n f s).planes = s.planes := rfl
@[simp] theorem onHarp_pipes (n : Nat) (f : HarpRun → HarpRun) (s : State) : (onHarp n f s).pipes = s.pipes := rfl
@[simp] theorem onHarp_ports (n : Nat) (f : HarpRun → HarpRun) (s : State) : (onHarp n f s).ports = s.ports := rfl
@[simp] theorem onHarp_cam (n : Nat) (f : HarpRun → HarpRun) (s : State) : (onHarp n f s).cam = s.cam := rfl
@[simp] theorem onHarp_rind (n : Nat) (f : HarpRun → HarpRun) (s : State) : (onHarp n f s).rind = s.rind := rfl
@[simp] theorem onHarp_intc (n : Nat) (f : HarpRun → HarpRun) (s : State) : (onHarp n f s).intc = s.intc := rfl
@[simp] theorem onHarp_hif (n : Nat) (f : HarpRun → HarpRun) (s : State) : (onHarp n f s).hif = s.hif := rfl
@[simp] theorem onHarp_cellar (n : Nat) (f : HarpRun → HarpRun) (s : State) : (onHarp n f s).cellar = s.cellar := rfl
@[simp] theorem onHarp_fault (n : Nat) (f : HarpRun → HarpRun) (s : State) : (onHarp n f s).fault = s.fault := rfl
@[simp] theorem onHarp_svc (n : Nat) (f : HarpRun → HarpRun) (s : State) : (onHarp n f s).svc = s.svc := rfl
@[simp] theorem onHarp_casc (n : Nat) (f : HarpRun → HarpRun) (s : State) : (onHarp n f s).casc = s.casc := rfl
@[simp] theorem onHarp_timers (n : Nat) (f : HarpRun → HarpRun) (s : State) : (onHarp n f s).timers = s.timers := rfl
@[simp] theorem onHarp_pins (n : Nat) (f : HarpRun → HarpRun) (s : State) : (onHarp n f s).pins = s.pins := rfl
@[simp] theorem onHarp_aud (n : Nat) (f : HarpRun → HarpRun) (s : State) : (onHarp n f s).aud = s.aud := rfl
@[simp] theorem onHarp_cores (n : Nat) (f : HarpRun → HarpRun) (s : State) : (onHarp n f s).cores = s.cores := rfl
@[simp] theorem onHarp_press (n : Nat) (f : HarpRun → HarpRun) (s : State) : (onHarp n f s).press = s.press := rfl
@[simp] theorem onHarp_dma (n : Nat) (f : HarpRun → HarpRun) (s : State) : (onHarp n f s).dma = s.dma := rfl
@[simp] theorem onHarp_lastRead (n : Nat) (f : HarpRun → HarpRun) (s : State) : (onHarp n f s).lastRead = s.lastRead := rfl
@[simp] theorem onHarp_freeCount (n : Nat) (f : HarpRun → HarpRun) (s : State) : (onHarp n f s).freeCount = s.freeCount := rfl
@[simp] theorem onHarp_pending (n : Nat) (f : HarpRun → HarpRun) (s : State) : (onHarp n f s).pending = s.pending := rfl
@[simp] theorem onHarp_rd (n : Nat) (f : HarpRun → HarpRun) (s : State) (g : Fld) : (onHarp n f s).rd g = s.rd g := rfl
@[simp] theorem onHarp_prm (n : Nat) (f : HarpRun → HarpRun) (s : State) (p : Prm) : (onHarp n f s).prm p = s.prm p := rfl

@[simp] theorem onPlane_cells (n : Nat) (f : PlaneRun → PlaneRun) (s : State) : (onPlane n f s).cells = s.cells := rfl
@[simp] theorem onPlane_latched (n : Nat) (f : PlaneRun → PlaneRun) (s : State) : (onPlane n f s).latched = s.latched := rfl
@[simp] theorem onPlane_snap (n : Nat) (f : PlaneRun → PlaneRun) (s : State) : (onPlane n f s).snap = s.snap := rfl
@[simp] theorem onPlane_params (n : Nat) (f : PlaneRun → PlaneRun) (s : State) : (onPlane n f s).params = s.params := rfl
@[simp] theorem onPlane_mem (n : Nat) (f : PlaneRun → PlaneRun) (s : State) : (onPlane n f s).mem = s.mem := rfl
@[simp] theorem onPlane_ref (n : Nat) (f : PlaneRun → PlaneRun) (s : State) : (onPlane n f s).ref = s.ref := rfl
@[simp] theorem onPlane_lp (n : Nat) (f : PlaneRun → PlaneRun) (s : State) : (onPlane n f s).lp = s.lp := rfl
@[simp] theorem onPlane_vat (n : Nat) (f : PlaneRun → PlaneRun) (s : State) : (onPlane n f s).vat = s.vat := rfl
@[simp] theorem onPlane_harp (n : Nat) (f : PlaneRun → PlaneRun) (s : State) : (onPlane n f s).harp = s.harp := rfl
@[simp] theorem onPlane_pipes (n : Nat) (f : PlaneRun → PlaneRun) (s : State) : (onPlane n f s).pipes = s.pipes := rfl
@[simp] theorem onPlane_ports (n : Nat) (f : PlaneRun → PlaneRun) (s : State) : (onPlane n f s).ports = s.ports := rfl
@[simp] theorem onPlane_cam (n : Nat) (f : PlaneRun → PlaneRun) (s : State) : (onPlane n f s).cam = s.cam := rfl
@[simp] theorem onPlane_rind (n : Nat) (f : PlaneRun → PlaneRun) (s : State) : (onPlane n f s).rind = s.rind := rfl
@[simp] theorem onPlane_intc (n : Nat) (f : PlaneRun → PlaneRun) (s : State) : (onPlane n f s).intc = s.intc := rfl
@[simp] theorem onPlane_hif (n : Nat) (f : PlaneRun → PlaneRun) (s : State) : (onPlane n f s).hif = s.hif := rfl
@[simp] theorem onPlane_cellar (n : Nat) (f : PlaneRun → PlaneRun) (s : State) : (onPlane n f s).cellar = s.cellar := rfl
@[simp] theorem onPlane_fault (n : Nat) (f : PlaneRun → PlaneRun) (s : State) : (onPlane n f s).fault = s.fault := rfl
@[simp] theorem onPlane_svc (n : Nat) (f : PlaneRun → PlaneRun) (s : State) : (onPlane n f s).svc = s.svc := rfl
@[simp] theorem onPlane_casc (n : Nat) (f : PlaneRun → PlaneRun) (s : State) : (onPlane n f s).casc = s.casc := rfl
@[simp] theorem onPlane_timers (n : Nat) (f : PlaneRun → PlaneRun) (s : State) : (onPlane n f s).timers = s.timers := rfl
@[simp] theorem onPlane_pins (n : Nat) (f : PlaneRun → PlaneRun) (s : State) : (onPlane n f s).pins = s.pins := rfl
@[simp] theorem onPlane_aud (n : Nat) (f : PlaneRun → PlaneRun) (s : State) : (onPlane n f s).aud = s.aud := rfl
@[simp] theorem onPlane_cores (n : Nat) (f : PlaneRun → PlaneRun) (s : State) : (onPlane n f s).cores = s.cores := rfl
@[simp] theorem onPlane_press (n : Nat) (f : PlaneRun → PlaneRun) (s : State) : (onPlane n f s).press = s.press := rfl
@[simp] theorem onPlane_dma (n : Nat) (f : PlaneRun → PlaneRun) (s : State) : (onPlane n f s).dma = s.dma := rfl
@[simp] theorem onPlane_lastRead (n : Nat) (f : PlaneRun → PlaneRun) (s : State) : (onPlane n f s).lastRead = s.lastRead := rfl
@[simp] theorem onPlane_freeCount (n : Nat) (f : PlaneRun → PlaneRun) (s : State) : (onPlane n f s).freeCount = s.freeCount := rfl
@[simp] theorem onPlane_pending (n : Nat) (f : PlaneRun → PlaneRun) (s : State) : (onPlane n f s).pending = s.pending := rfl
@[simp] theorem onPlane_rd (n : Nat) (f : PlaneRun → PlaneRun) (s : State) (g : Fld) : (onPlane n f s).rd g = s.rd g := rfl
@[simp] theorem onPlane_prm (n : Nat) (f : PlaneRun → PlaneRun) (s : State) (p : Prm) : (onPlane n f s).prm p = s.prm p := rfl

@[simp] theorem onPort_cells (n : Nat) (f : PortRun → PortRun) (s : State) : (onPort n f s).cells = s.cells := rfl
@[simp] theorem onPort_latched (n : Nat) (f : PortRun → PortRun) (s : State) : (onPort n f s).latched = s.latched := rfl
@[simp] theorem onPort_snap (n : Nat) (f : PortRun → PortRun) (s : State) : (onPort n f s).snap = s.snap := rfl
@[simp] theorem onPort_params (n : Nat) (f : PortRun → PortRun) (s : State) : (onPort n f s).params = s.params := rfl
@[simp] theorem onPort_mem (n : Nat) (f : PortRun → PortRun) (s : State) : (onPort n f s).mem = s.mem := rfl
@[simp] theorem onPort_ref (n : Nat) (f : PortRun → PortRun) (s : State) : (onPort n f s).ref = s.ref := rfl
@[simp] theorem onPort_lp (n : Nat) (f : PortRun → PortRun) (s : State) : (onPort n f s).lp = s.lp := rfl
@[simp] theorem onPort_vat (n : Nat) (f : PortRun → PortRun) (s : State) : (onPort n f s).vat = s.vat := rfl
@[simp] theorem onPort_planes (n : Nat) (f : PortRun → PortRun) (s : State) : (onPort n f s).planes = s.planes := rfl
@[simp] theorem onPort_harp (n : Nat) (f : PortRun → PortRun) (s : State) : (onPort n f s).harp = s.harp := rfl
@[simp] theorem onPort_pipes (n : Nat) (f : PortRun → PortRun) (s : State) : (onPort n f s).pipes = s.pipes := rfl
@[simp] theorem onPort_cam (n : Nat) (f : PortRun → PortRun) (s : State) : (onPort n f s).cam = s.cam := rfl
@[simp] theorem onPort_rind (n : Nat) (f : PortRun → PortRun) (s : State) : (onPort n f s).rind = s.rind := rfl
@[simp] theorem onPort_intc (n : Nat) (f : PortRun → PortRun) (s : State) : (onPort n f s).intc = s.intc := rfl
@[simp] theorem onPort_hif (n : Nat) (f : PortRun → PortRun) (s : State) : (onPort n f s).hif = s.hif := rfl
@[simp] theorem onPort_cellar (n : Nat) (f : PortRun → PortRun) (s : State) : (onPort n f s).cellar = s.cellar := rfl
@[simp] theorem onPort_fault (n : Nat) (f : PortRun → PortRun) (s : State) : (onPort n f s).fault = s.fault := rfl
@[simp] theorem onPort_svc (n : Nat) (f : PortRun → PortRun) (s : State) : (onPort n f s).svc = s.svc := rfl
@[simp] theorem onPort_casc (n : Nat) (f : PortRun → PortRun) (s : State) : (onPort n f s).casc = s.casc := rfl
@[simp] theorem onPort_timers (n : Nat) (f : PortRun → PortRun) (s : State) : (onPort n f s).timers = s.timers := rfl
@[simp] theorem onPort_pins (n : Nat) (f : PortRun → PortRun) (s : State) : (onPort n f s).pins = s.pins := rfl
@[simp] theorem onPort_aud (n : Nat) (f : PortRun → PortRun) (s : State) : (onPort n f s).aud = s.aud := rfl
@[simp] theorem onPort_cores (n : Nat) (f : PortRun → PortRun) (s : State) : (onPort n f s).cores = s.cores := rfl
@[simp] theorem onPort_press (n : Nat) (f : PortRun → PortRun) (s : State) : (onPort n f s).press = s.press := rfl
@[simp] theorem onPort_dma (n : Nat) (f : PortRun → PortRun) (s : State) : (onPort n f s).dma = s.dma := rfl
@[simp] theorem onPort_lastRead (n : Nat) (f : PortRun → PortRun) (s : State) : (onPort n f s).lastRead = s.lastRead := rfl
@[simp] theorem onPort_freeCount (n : Nat) (f : PortRun → PortRun) (s : State) : (onPort n f s).freeCount = s.freeCount := rfl
@[simp] theorem onPort_pending (n : Nat) (f : PortRun → PortRun) (s : State) : (onPort n f s).pending = s.pending := rfl
@[simp] theorem onPort_rd (n : Nat) (f : PortRun → PortRun) (s : State) (g : Fld) : (onPort n f s).rd g = s.rd g := rfl
@[simp] theorem onPort_prm (n : Nat) (f : PortRun → PortRun) (s : State) (p : Prm) : (onPort n f s).prm p = s.prm p := rfl

@[simp] theorem onPress_cells (n : Nat) (f : PressRun → PressRun) (s : State) : (onPress n f s).cells = s.cells := rfl
@[simp] theorem onPress_latched (n : Nat) (f : PressRun → PressRun) (s : State) : (onPress n f s).latched = s.latched := rfl
@[simp] theorem onPress_snap (n : Nat) (f : PressRun → PressRun) (s : State) : (onPress n f s).snap = s.snap := rfl
@[simp] theorem onPress_params (n : Nat) (f : PressRun → PressRun) (s : State) : (onPress n f s).params = s.params := rfl
@[simp] theorem onPress_mem (n : Nat) (f : PressRun → PressRun) (s : State) : (onPress n f s).mem = s.mem := rfl
@[simp] theorem onPress_ref (n : Nat) (f : PressRun → PressRun) (s : State) : (onPress n f s).ref = s.ref := rfl
@[simp] theorem onPress_lp (n : Nat) (f : PressRun → PressRun) (s : State) : (onPress n f s).lp = s.lp := rfl
@[simp] theorem onPress_vat (n : Nat) (f : PressRun → PressRun) (s : State) : (onPress n f s).vat = s.vat := rfl
@[simp] theorem onPress_planes (n : Nat) (f : PressRun → PressRun) (s : State) : (onPress n f s).planes = s.planes := rfl
@[simp] theorem onPress_harp (n : Nat) (f : PressRun → PressRun) (s : State) : (onPress n f s).harp = s.harp := rfl
@[simp] theorem onPress_pipes (n : Nat) (f : PressRun → PressRun) (s : State) : (onPress n f s).pipes = s.pipes := rfl
@[simp] theorem onPress_ports (n : Nat) (f : PressRun → PressRun) (s : State) : (onPress n f s).ports = s.ports := rfl
@[simp] theorem onPress_cam (n : Nat) (f : PressRun → PressRun) (s : State) : (onPress n f s).cam = s.cam := rfl
@[simp] theorem onPress_rind (n : Nat) (f : PressRun → PressRun) (s : State) : (onPress n f s).rind = s.rind := rfl
@[simp] theorem onPress_intc (n : Nat) (f : PressRun → PressRun) (s : State) : (onPress n f s).intc = s.intc := rfl
@[simp] theorem onPress_hif (n : Nat) (f : PressRun → PressRun) (s : State) : (onPress n f s).hif = s.hif := rfl
@[simp] theorem onPress_cellar (n : Nat) (f : PressRun → PressRun) (s : State) : (onPress n f s).cellar = s.cellar := rfl
@[simp] theorem onPress_fault (n : Nat) (f : PressRun → PressRun) (s : State) : (onPress n f s).fault = s.fault := rfl
@[simp] theorem onPress_svc (n : Nat) (f : PressRun → PressRun) (s : State) : (onPress n f s).svc = s.svc := rfl
@[simp] theorem onPress_casc (n : Nat) (f : PressRun → PressRun) (s : State) : (onPress n f s).casc = s.casc := rfl
@[simp] theorem onPress_timers (n : Nat) (f : PressRun → PressRun) (s : State) : (onPress n f s).timers = s.timers := rfl
@[simp] theorem onPress_pins (n : Nat) (f : PressRun → PressRun) (s : State) : (onPress n f s).pins = s.pins := rfl
@[simp] theorem onPress_aud (n : Nat) (f : PressRun → PressRun) (s : State) : (onPress n f s).aud = s.aud := rfl
@[simp] theorem onPress_cores (n : Nat) (f : PressRun → PressRun) (s : State) : (onPress n f s).cores = s.cores := rfl
@[simp] theorem onPress_dma (n : Nat) (f : PressRun → PressRun) (s : State) : (onPress n f s).dma = s.dma := rfl
@[simp] theorem onPress_lastRead (n : Nat) (f : PressRun → PressRun) (s : State) : (onPress n f s).lastRead = s.lastRead := rfl
@[simp] theorem onPress_freeCount (n : Nat) (f : PressRun → PressRun) (s : State) : (onPress n f s).freeCount = s.freeCount := rfl
@[simp] theorem onPress_pending (n : Nat) (f : PressRun → PressRun) (s : State) : (onPress n f s).pending = s.pending := rfl
@[simp] theorem onPress_rd (n : Nat) (f : PressRun → PressRun) (s : State) (g : Fld) : (onPress n f s).rd g = s.rd g := rfl
@[simp] theorem onPress_prm (n : Nat) (f : PressRun → PressRun) (s : State) (p : Prm) : (onPress n f s).prm p = s.prm p := rfl

@[simp] theorem onPipe_cells (n : Nat) (f : PipeRun → PipeRun) (s : State) : (onPipe n f s).cells = s.cells := rfl
@[simp] theorem onPipe_latched (n : Nat) (f : PipeRun → PipeRun) (s : State) : (onPipe n f s).latched = s.latched := rfl
@[simp] theorem onPipe_snap (n : Nat) (f : PipeRun → PipeRun) (s : State) : (onPipe n f s).snap = s.snap := rfl
@[simp] theorem onPipe_params (n : Nat) (f : PipeRun → PipeRun) (s : State) : (onPipe n f s).params = s.params := rfl
@[simp] theorem onPipe_mem (n : Nat) (f : PipeRun → PipeRun) (s : State) : (onPipe n f s).mem = s.mem := rfl
@[simp] theorem onPipe_ref (n : Nat) (f : PipeRun → PipeRun) (s : State) : (onPipe n f s).ref = s.ref := rfl
@[simp] theorem onPipe_lp (n : Nat) (f : PipeRun → PipeRun) (s : State) : (onPipe n f s).lp = s.lp := rfl
@[simp] theorem onPipe_vat (n : Nat) (f : PipeRun → PipeRun) (s : State) : (onPipe n f s).vat = s.vat := rfl
@[simp] theorem onPipe_planes (n : Nat) (f : PipeRun → PipeRun) (s : State) : (onPipe n f s).planes = s.planes := rfl
@[simp] theorem onPipe_harp (n : Nat) (f : PipeRun → PipeRun) (s : State) : (onPipe n f s).harp = s.harp := rfl
@[simp] theorem onPipe_ports (n : Nat) (f : PipeRun → PipeRun) (s : State) : (onPipe n f s).ports = s.ports := rfl
@[simp] theorem onPipe_cam (n : Nat) (f : PipeRun → PipeRun) (s : State) : (onPipe n f s).cam = s.cam := rfl
@[simp] theorem onPipe_rind (n : Nat) (f : PipeRun → PipeRun) (s : State) : (onPipe n f s).rind = s.rind := rfl
@[simp] theorem onPipe_intc (n : Nat) (f : PipeRun → PipeRun) (s : State) : (onPipe n f s).intc = s.intc := rfl
@[simp] theorem onPipe_hif (n : Nat) (f : PipeRun → PipeRun) (s : State) : (onPipe n f s).hif = s.hif := rfl
@[simp] theorem onPipe_cellar (n : Nat) (f : PipeRun → PipeRun) (s : State) : (onPipe n f s).cellar = s.cellar := rfl
@[simp] theorem onPipe_fault (n : Nat) (f : PipeRun → PipeRun) (s : State) : (onPipe n f s).fault = s.fault := rfl
@[simp] theorem onPipe_svc (n : Nat) (f : PipeRun → PipeRun) (s : State) : (onPipe n f s).svc = s.svc := rfl
@[simp] theorem onPipe_casc (n : Nat) (f : PipeRun → PipeRun) (s : State) : (onPipe n f s).casc = s.casc := rfl
@[simp] theorem onPipe_timers (n : Nat) (f : PipeRun → PipeRun) (s : State) : (onPipe n f s).timers = s.timers := rfl
@[simp] theorem onPipe_pins (n : Nat) (f : PipeRun → PipeRun) (s : State) : (onPipe n f s).pins = s.pins := rfl
@[simp] theorem onPipe_aud (n : Nat) (f : PipeRun → PipeRun) (s : State) : (onPipe n f s).aud = s.aud := rfl
@[simp] theorem onPipe_cores (n : Nat) (f : PipeRun → PipeRun) (s : State) : (onPipe n f s).cores = s.cores := rfl
@[simp] theorem onPipe_press (n : Nat) (f : PipeRun → PipeRun) (s : State) : (onPipe n f s).press = s.press := rfl
@[simp] theorem onPipe_dma (n : Nat) (f : PipeRun → PipeRun) (s : State) : (onPipe n f s).dma = s.dma := rfl
@[simp] theorem onPipe_lastRead (n : Nat) (f : PipeRun → PipeRun) (s : State) : (onPipe n f s).lastRead = s.lastRead := rfl
@[simp] theorem onPipe_freeCount (n : Nat) (f : PipeRun → PipeRun) (s : State) : (onPipe n f s).freeCount = s.freeCount := rfl
@[simp] theorem onPipe_pending (n : Nat) (f : PipeRun → PipeRun) (s : State) : (onPipe n f s).pending = s.pending := rfl
@[simp] theorem onPipe_rd (n : Nat) (f : PipeRun → PipeRun) (s : State) (g : Fld) : (onPipe n f s).rd g = s.rd g := rfl
@[simp] theorem onPipe_prm (n : Nat) (f : PipeRun → PipeRun) (s : State) (p : Prm) : (onPipe n f s).prm p = s.prm p := rfl

@[simp] theorem onLock_cells (n : Nat) (f : LockRun → LockRun) (s : State) : (onLock n f s).cells = s.cells := rfl
@[simp] theorem onLock_latched (n : Nat) (f : LockRun → LockRun) (s : State) : (onLock n f s).latched = s.latched := rfl
@[simp] theorem onLock_snap (n : Nat) (f : LockRun → LockRun) (s : State) : (onLock n f s).snap = s.snap := rfl
@[simp] theorem onLock_params (n : Nat) (f : LockRun → LockRun) (s : State) : (onLock n f s).params = s.params := rfl
@[simp] theorem onLock_mem (n : Nat) (f : LockRun → LockRun) (s : State) : (onLock n f s).mem = s.mem := rfl
@[simp] theorem onLock_lp (n : Nat) (f : LockRun → LockRun) (s : State) : (onLock n f s).lp = s.lp := rfl
@[simp] theorem onLock_vat (n : Nat) (f : LockRun → LockRun) (s : State) : (onLock n f s).vat = s.vat := rfl
@[simp] theorem onLock_planes (n : Nat) (f : LockRun → LockRun) (s : State) : (onLock n f s).planes = s.planes := rfl
@[simp] theorem onLock_harp (n : Nat) (f : LockRun → LockRun) (s : State) : (onLock n f s).harp = s.harp := rfl
@[simp] theorem onLock_pipes (n : Nat) (f : LockRun → LockRun) (s : State) : (onLock n f s).pipes = s.pipes := rfl
@[simp] theorem onLock_ports (n : Nat) (f : LockRun → LockRun) (s : State) : (onLock n f s).ports = s.ports := rfl
@[simp] theorem onLock_cam (n : Nat) (f : LockRun → LockRun) (s : State) : (onLock n f s).cam = s.cam := rfl
@[simp] theorem onLock_rind (n : Nat) (f : LockRun → LockRun) (s : State) : (onLock n f s).rind = s.rind := rfl
@[simp] theorem onLock_intc (n : Nat) (f : LockRun → LockRun) (s : State) : (onLock n f s).intc = s.intc := rfl
@[simp] theorem onLock_hif (n : Nat) (f : LockRun → LockRun) (s : State) : (onLock n f s).hif = s.hif := rfl
@[simp] theorem onLock_cellar (n : Nat) (f : LockRun → LockRun) (s : State) : (onLock n f s).cellar = s.cellar := rfl
@[simp] theorem onLock_fault (n : Nat) (f : LockRun → LockRun) (s : State) : (onLock n f s).fault = s.fault := rfl
@[simp] theorem onLock_svc (n : Nat) (f : LockRun → LockRun) (s : State) : (onLock n f s).svc = s.svc := rfl
@[simp] theorem onLock_casc (n : Nat) (f : LockRun → LockRun) (s : State) : (onLock n f s).casc = s.casc := rfl
@[simp] theorem onLock_timers (n : Nat) (f : LockRun → LockRun) (s : State) : (onLock n f s).timers = s.timers := rfl
@[simp] theorem onLock_pins (n : Nat) (f : LockRun → LockRun) (s : State) : (onLock n f s).pins = s.pins := rfl
@[simp] theorem onLock_aud (n : Nat) (f : LockRun → LockRun) (s : State) : (onLock n f s).aud = s.aud := rfl
@[simp] theorem onLock_cores (n : Nat) (f : LockRun → LockRun) (s : State) : (onLock n f s).cores = s.cores := rfl
@[simp] theorem onLock_press (n : Nat) (f : LockRun → LockRun) (s : State) : (onLock n f s).press = s.press := rfl
@[simp] theorem onLock_dma (n : Nat) (f : LockRun → LockRun) (s : State) : (onLock n f s).dma = s.dma := rfl
@[simp] theorem onLock_lastRead (n : Nat) (f : LockRun → LockRun) (s : State) : (onLock n f s).lastRead = s.lastRead := rfl
@[simp] theorem onLock_freeCount (n : Nat) (f : LockRun → LockRun) (s : State) : (onLock n f s).freeCount = s.freeCount := rfl
@[simp] theorem onLock_pending (n : Nat) (f : LockRun → LockRun) (s : State) : (onLock n f s).pending = s.pending := rfl
@[simp] theorem onLock_rd (n : Nat) (f : LockRun → LockRun) (s : State) (g : Fld) : (onLock n f s).rd g = s.rd g := rfl
@[simp] theorem onLock_prm (n : Nat) (f : LockRun → LockRun) (s : State) (p : Prm) : (onLock n f s).prm p = s.prm p := rfl

@[simp] theorem onTt_cells (n : Nat) (f : TtRun → TtRun) (s : State) : (onTt n f s).cells = s.cells := rfl
@[simp] theorem onTt_latched (n : Nat) (f : TtRun → TtRun) (s : State) : (onTt n f s).latched = s.latched := rfl
@[simp] theorem onTt_snap (n : Nat) (f : TtRun → TtRun) (s : State) : (onTt n f s).snap = s.snap := rfl
@[simp] theorem onTt_params (n : Nat) (f : TtRun → TtRun) (s : State) : (onTt n f s).params = s.params := rfl
@[simp] theorem onTt_mem (n : Nat) (f : TtRun → TtRun) (s : State) : (onTt n f s).mem = s.mem := rfl
@[simp] theorem onTt_ref (n : Nat) (f : TtRun → TtRun) (s : State) : (onTt n f s).ref = s.ref := rfl
@[simp] theorem onTt_lp (n : Nat) (f : TtRun → TtRun) (s : State) : (onTt n f s).lp = s.lp := rfl
@[simp] theorem onTt_vat (n : Nat) (f : TtRun → TtRun) (s : State) : (onTt n f s).vat = s.vat := rfl
@[simp] theorem onTt_planes (n : Nat) (f : TtRun → TtRun) (s : State) : (onTt n f s).planes = s.planes := rfl
@[simp] theorem onTt_harp (n : Nat) (f : TtRun → TtRun) (s : State) : (onTt n f s).harp = s.harp := rfl
@[simp] theorem onTt_pipes (n : Nat) (f : TtRun → TtRun) (s : State) : (onTt n f s).pipes = s.pipes := rfl
@[simp] theorem onTt_ports (n : Nat) (f : TtRun → TtRun) (s : State) : (onTt n f s).ports = s.ports := rfl
@[simp] theorem onTt_cam (n : Nat) (f : TtRun → TtRun) (s : State) : (onTt n f s).cam = s.cam := rfl
@[simp] theorem onTt_rind (n : Nat) (f : TtRun → TtRun) (s : State) : (onTt n f s).rind = s.rind := rfl
@[simp] theorem onTt_intc (n : Nat) (f : TtRun → TtRun) (s : State) : (onTt n f s).intc = s.intc := rfl
@[simp] theorem onTt_hif (n : Nat) (f : TtRun → TtRun) (s : State) : (onTt n f s).hif = s.hif := rfl
@[simp] theorem onTt_cellar (n : Nat) (f : TtRun → TtRun) (s : State) : (onTt n f s).cellar = s.cellar := rfl
@[simp] theorem onTt_fault (n : Nat) (f : TtRun → TtRun) (s : State) : (onTt n f s).fault = s.fault := rfl
@[simp] theorem onTt_casc (n : Nat) (f : TtRun → TtRun) (s : State) : (onTt n f s).casc = s.casc := rfl
@[simp] theorem onTt_timers (n : Nat) (f : TtRun → TtRun) (s : State) : (onTt n f s).timers = s.timers := rfl
@[simp] theorem onTt_pins (n : Nat) (f : TtRun → TtRun) (s : State) : (onTt n f s).pins = s.pins := rfl
@[simp] theorem onTt_aud (n : Nat) (f : TtRun → TtRun) (s : State) : (onTt n f s).aud = s.aud := rfl
@[simp] theorem onTt_cores (n : Nat) (f : TtRun → TtRun) (s : State) : (onTt n f s).cores = s.cores := rfl
@[simp] theorem onTt_press (n : Nat) (f : TtRun → TtRun) (s : State) : (onTt n f s).press = s.press := rfl
@[simp] theorem onTt_dma (n : Nat) (f : TtRun → TtRun) (s : State) : (onTt n f s).dma = s.dma := rfl
@[simp] theorem onTt_lastRead (n : Nat) (f : TtRun → TtRun) (s : State) : (onTt n f s).lastRead = s.lastRead := rfl
@[simp] theorem onTt_freeCount (n : Nat) (f : TtRun → TtRun) (s : State) : (onTt n f s).freeCount = s.freeCount := rfl
@[simp] theorem onTt_pending (n : Nat) (f : TtRun → TtRun) (s : State) : (onTt n f s).pending = s.pending := rfl
@[simp] theorem onTt_rd (n : Nat) (f : TtRun → TtRun) (s : State) (g : Fld) : (onTt n f s).rd g = s.rd g := rfl
@[simp] theorem onTt_prm (n : Nat) (f : TtRun → TtRun) (s : State) (p : Prm) : (onTt n f s).prm p = s.prm p := rfl

@[simp] theorem onTimer_cells (n : Nat) (f : TimerRun → TimerRun) (s : State) : (onTimer n f s).cells = s.cells := rfl
@[simp] theorem onTimer_latched (n : Nat) (f : TimerRun → TimerRun) (s : State) : (onTimer n f s).latched = s.latched := rfl
@[simp] theorem onTimer_snap (n : Nat) (f : TimerRun → TimerRun) (s : State) : (onTimer n f s).snap = s.snap := rfl
@[simp] theorem onTimer_params (n : Nat) (f : TimerRun → TimerRun) (s : State) : (onTimer n f s).params = s.params := rfl
@[simp] theorem onTimer_mem (n : Nat) (f : TimerRun → TimerRun) (s : State) : (onTimer n f s).mem = s.mem := rfl
@[simp] theorem onTimer_ref (n : Nat) (f : TimerRun → TimerRun) (s : State) : (onTimer n f s).ref = s.ref := rfl
@[simp] theorem onTimer_lp (n : Nat) (f : TimerRun → TimerRun) (s : State) : (onTimer n f s).lp = s.lp := rfl
@[simp] theorem onTimer_vat (n : Nat) (f : TimerRun → TimerRun) (s : State) : (onTimer n f s).vat = s.vat := rfl
@[simp] theorem onTimer_planes (n : Nat) (f : TimerRun → TimerRun) (s : State) : (onTimer n f s).planes = s.planes := rfl
@[simp] theorem onTimer_harp (n : Nat) (f : TimerRun → TimerRun) (s : State) : (onTimer n f s).harp = s.harp := rfl
@[simp] theorem onTimer_pipes (n : Nat) (f : TimerRun → TimerRun) (s : State) : (onTimer n f s).pipes = s.pipes := rfl
@[simp] theorem onTimer_ports (n : Nat) (f : TimerRun → TimerRun) (s : State) : (onTimer n f s).ports = s.ports := rfl
@[simp] theorem onTimer_cam (n : Nat) (f : TimerRun → TimerRun) (s : State) : (onTimer n f s).cam = s.cam := rfl
@[simp] theorem onTimer_rind (n : Nat) (f : TimerRun → TimerRun) (s : State) : (onTimer n f s).rind = s.rind := rfl
@[simp] theorem onTimer_intc (n : Nat) (f : TimerRun → TimerRun) (s : State) : (onTimer n f s).intc = s.intc := rfl
@[simp] theorem onTimer_hif (n : Nat) (f : TimerRun → TimerRun) (s : State) : (onTimer n f s).hif = s.hif := rfl
@[simp] theorem onTimer_cellar (n : Nat) (f : TimerRun → TimerRun) (s : State) : (onTimer n f s).cellar = s.cellar := rfl
@[simp] theorem onTimer_fault (n : Nat) (f : TimerRun → TimerRun) (s : State) : (onTimer n f s).fault = s.fault := rfl
@[simp] theorem onTimer_svc (n : Nat) (f : TimerRun → TimerRun) (s : State) : (onTimer n f s).svc = s.svc := rfl
@[simp] theorem onTimer_casc (n : Nat) (f : TimerRun → TimerRun) (s : State) : (onTimer n f s).casc = s.casc := rfl
@[simp] theorem onTimer_pins (n : Nat) (f : TimerRun → TimerRun) (s : State) : (onTimer n f s).pins = s.pins := rfl
@[simp] theorem onTimer_aud (n : Nat) (f : TimerRun → TimerRun) (s : State) : (onTimer n f s).aud = s.aud := rfl
@[simp] theorem onTimer_cores (n : Nat) (f : TimerRun → TimerRun) (s : State) : (onTimer n f s).cores = s.cores := rfl
@[simp] theorem onTimer_press (n : Nat) (f : TimerRun → TimerRun) (s : State) : (onTimer n f s).press = s.press := rfl
@[simp] theorem onTimer_dma (n : Nat) (f : TimerRun → TimerRun) (s : State) : (onTimer n f s).dma = s.dma := rfl
@[simp] theorem onTimer_lastRead (n : Nat) (f : TimerRun → TimerRun) (s : State) : (onTimer n f s).lastRead = s.lastRead := rfl
@[simp] theorem onTimer_freeCount (n : Nat) (f : TimerRun → TimerRun) (s : State) : (onTimer n f s).freeCount = s.freeCount := rfl
@[simp] theorem onTimer_pending (n : Nat) (f : TimerRun → TimerRun) (s : State) : (onTimer n f s).pending = s.pending := rfl
@[simp] theorem onTimer_rd (n : Nat) (f : TimerRun → TimerRun) (s : State) (g : Fld) : (onTimer n f s).rd g = s.rd g := rfl
@[simp] theorem onTimer_prm (n : Nat) (f : TimerRun → TimerRun) (s : State) (p : Prm) : (onTimer n f s).prm p = s.prm p := rfl

/-! ### Reading back -/

@[simp] theorem State.setPrm_rd (s : State) (p : Prm) (v : Nat) (g : Fld) : (s.setPrm p v).rd g = s.rd g := rfl
@[simp] theorem State.setByte_rd (s : State) (a : Nat) (b : Byte) (g : Fld) : (s.setByte a b).rd g = s.rd g := rfl
@[simp] theorem State.wr_prm (s : State) (f : Fld) (v : Nat) (p : Prm) : (s.wr f v).prm p = s.prm p := rfl
@[simp] theorem State.wr_byteAt (s : State) (f : Fld) (v a : Nat) : (s.wr f v).byteAt a = s.byteAt a := rfl

/-- A field reads back what was written, cut to its width. -/
theorem State.rd_wr_same {s : State} (h : s.Canonical) (f : Fld) (v : Nat) : (s.wr f v).rd f = v % 2 ^ f.width :=
  (congrArg (· % 2 ^ f.width) (get_put_same _ _ _ _ h.cells)).trans (Nat.mod_mod _ _)

/-- A write of one field leaves every field with another key. -/
theorem State.rd_wr_other {s : State} (h : s.Canonical) (f g : Fld) (v : Nat) (hk : g.key ≠ f.key) : (s.wr f v).rd g = s.rd g :=
  congrArg (· % 2 ^ g.width) (get_put_other _ _ _ _ _ _ h.cells hk)

/-- A field's value fits its width. -/
theorem State.rd_lt (s : State) (f : Fld) : s.rd f < 2 ^ f.width := Nat.mod_lt _ (Nat.two_pow_pos _)

/-- A parameter reads back what was set. -/
theorem State.prm_setPrm_same {s : State} (h : s.Canonical) (p : Prm) (v : Nat) : (s.setPrm p v).prm p = v :=
  get_put_same _ _ _ _ h.params

/-- Setting one parameter leaves every parameter with another key. -/
theorem State.prm_setPrm_other {s : State} (h : s.Canonical) (p q : Prm) (v : Nat) (hk : q.key ≠ p.key) :
    (s.setPrm p v).prm q = s.prm q :=
  get_put_other _ _ _ _ _ _ h.params hk

/-- A byte of memory reads back what was written. -/
theorem State.byteAt_setByte_same {s : State} (h : s.Canonical) (a : Nat) (b : Byte) : (s.setByte a b).byteAt a = b :=
  get_put_same _ _ _ _ h.mem.1

/-- A write of one byte leaves every other byte. -/
theorem State.byteAt_setByte_other {s : State} (h : s.Canonical) (a c : Nat) (b : Byte) (hc : c ≠ a) :
    (s.setByte a b).byteAt c = s.byteAt c :=
  get_put_other _ _ _ _ _ _ h.mem.1 hc

end Sys2Proof.Machine
end

