-- ==== Sys2Proof/Laws/Canonical.lean ====
section
/-! SUPPORT. What a canonical state gives of each store, when a state built field by field is canonical, and folds of changes that
keep a state canonical. -/

namespace Sys2Proof.Machine

theorem moveRange_rising {β : Type} {lo hi : Nat} {src dst : List (Nat × β)} (hs : RisingP src) (hd : RisingP dst) :
    RisingP (moveRange lo hi src dst) := by
  simp only [RisingP, moveRange, Sparse.Rising, List.pairwise_append, List.mem_append, List.mem_filter]
  refine ⟨⟨List.Pairwise.filter _ hd, List.Pairwise.filter _ hs, ?_⟩, List.Pairwise.filter _ hd, ?_⟩
  · intro a ha b hb; simp at ha hb; omega
  · intro a ha b hb; simp at ha hb; omega

theorem canonical_cells {s : State} (h : s.Canonical) : RisingP s.cells := h.cells

theorem canonical_latched {s : State} (h : s.Canonical) : RisingP s.latched := h.latched

theorem canonical_snap {s : State} (h : s.Canonical) : RisingP s.snap := h.snap

theorem canonical_params {s : State} (h : s.Canonical) : RisingP s.params := h.params

theorem canonical_mem {s : State} (h : s.Canonical) : WfP 0#8 s.mem := h.mem

theorem canonical_vat {s : State} (h : s.Canonical) : WfP 0#8 s.vat.data := h.vat

theorem canonical_flash {s : State} (h : s.Canonical) : WfP 0xFF#8 s.cellar.flash := h.flash

theorem foldl_canonical {α : Type} {f : State → α → State} {l : List α} {s : State} (h : s.Canonical)
    (hf : ∀ s a, s.Canonical → (f s a).Canonical) : (l.foldl f s).Canonical := by
  induction l generalizing s with
  | nil => exact h
  | cons a t ih => exact ih (hf _ _ h)

theorem foldl_fst_canonical {α β : Type} {f : State × β → α → State × β} {l : List α} {p : State × β} (h : p.1.Canonical)
    (hf : ∀ p a, p.1.Canonical → (f p a).1.Canonical) : (l.foldl f p).1.Canonical := by
  induction l generalizing p with
  | nil => exact h
  | cons a t ih => exact ih (hf _ _ h)

theorem foldl_snd_canonical {α β : Type} {f : β × State → α → β × State} {l : List α} {p : β × State} (h : p.2.Canonical)
    (hf : ∀ p a, p.2.Canonical → (f p a).2.Canonical) : (l.foldl f p).2.Canonical := by
  induction l generalizing p with
  | nil => exact h
  | cons a t ih => exact ih (hf _ _ h)

theorem foldl_snd2_canonical {α β γ : Type} {f : β × γ × State → α → β × γ × State} {l : List α} {p : β × γ × State} (h : p.2.2.Canonical)
    (hf : ∀ p a, p.2.2.Canonical → (f p a).2.2.Canonical) : (l.foldl f p).2.2.Canonical := by
  induction l generalizing p with
  | nil => exact h
  | cons a t ih => exact ih (hf _ _ h)

theorem mk_canonical {cells : List (Nat × Nat)} {latched : List (Nat × Nat)} {snap : List (Nat × Nat)} {params : List (Nat × Nat)} {mem : List Host.Cell} {ref : RefState} {lp : LpState} {vat : VatState} {planes : List PlaneRun} {harp : HarpState} {pipes : List PipeRun} {ports : List PortRun} {cam : CameraState} {rind : RindState} {intc : IntcState} {hif : HifState} {cellar : CellarState} {fault : FaultState} {svc : SvcState} {casc : CascState} {timers : TimerState} {pins : PinsState} {aud : AudioState} {cores : List CoreRun} {press : List PressRun} {dma : List DmaRun} {lastRead : Nat} {freeCount : Nat} {pending : List Instr}
  (h1 : RisingP cells) (h2 : RisingP latched) (h3 : RisingP snap) (h4 : RisingP params)
  (h5 : WfP 0#8 mem) (h6 : WfP 0#8 vat.data) (h7 : WfP 0xFF#8 cellar.flash) :
  (State.mk cells latched snap params mem ref lp vat planes harp pipes ports cam rind intc hif cellar fault svc casc timers pins aud cores press dma lastRead freeCount pending).Canonical := ⟨h1, h2, h3, h4, h5, h6, h7⟩

end Sys2Proof.Machine
end

