-- ==== Sys2Proof/Laws/CanonicalMemory.lean ====
section
/-! SUPPORT. What the raising of an event, the mailboxes, the host interface, faults and the memories do: each named operation keeps a canonical state canonical. -/

namespace Sys2Proof.Machine

/-! ### State -/

theorem State.reset_canonical  :
    (State.reset ).Canonical := by
  constructor <;> decide

/-! ### Ops -/

theorem State.wr_canonical {x0 x1 x2} (h0 : x0.Canonical) :
    (State.wr x0 x1 x2).Canonical := by
  grind only [State.wr, mk_canonical, canonical_cells, canonical_latched, canonical_snap, canonical_params, canonical_mem, canonical_vat, canonical_flash, put_risingP, put_wfP, filter_rising, filter_wf, wf_nil, rising_nil]

theorem State.set1_canonical {x0 x1} (h0 : x0.Canonical) :
    (State.set1 x0 x1).Canonical := by
  grind only [State.set1, State.wr_canonical]

theorem State.clr_canonical {x0 x1} (h0 : x0.Canonical) :
    (State.clr x0 x1).Canonical := by
  grind only [State.clr, State.wr_canonical]

theorem State.incBy_canonical {x0 x1 x2} (h0 : x0.Canonical) :
    (State.incBy x0 x1 x2).Canonical := by
  grind only [State.incBy, State.wr_canonical]

theorem State.inc_canonical {x0 x1} (h0 : x0.Canonical) :
    (State.inc x0 x1).Canonical := by
  grind only [State.inc, State.incBy_canonical]

theorem State.incWrap_canonical {x0 x1} (h0 : x0.Canonical) :
    (State.incWrap x0 x1).Canonical := by
  grind only [State.incWrap, State.wr_canonical]

theorem State.maxTo_canonical {x0 x1 x2} (h0 : x0.Canonical) :
    (State.maxTo x0 x1 x2).Canonical := by
  grind only [State.maxTo, State.wr_canonical]

theorem State.setBit_canonical {x0 x1 x2 x3} (h0 : x0.Canonical) :
    (State.setBit x0 x1 x2 x3).Canonical := by
  grind only [State.setBit, State.wr_canonical]

theorem State.setPrm_canonical {x0 x1 x2} (h0 : x0.Canonical) :
    (State.setPrm x0 x1 x2).Canonical := by
  grind only [State.setPrm, mk_canonical, canonical_cells, canonical_latched, canonical_snap, canonical_params, canonical_mem, canonical_vat, canonical_flash, put_risingP, put_wfP, filter_rising, filter_wf, wf_nil, rising_nil]

theorem State.setByte_canonical {x0 x1 x2} (h0 : x0.Canonical) :
    (State.setByte x0 x1 x2).Canonical := by
  grind only [State.setByte, mk_canonical, canonical_cells, canonical_latched, canonical_snap, canonical_params, canonical_mem, canonical_vat, canonical_flash, put_risingP, put_wfP, filter_rising, filter_wf, wf_nil, rising_nil]

theorem State.setBytes_canonical {x0 x1 x2} (h0 : x0.Canonical) :
    (State.setBytes x0 x1 x2).Canonical := by
  induction x2 generalizing x0 x1 with
  | nil => exact h0
  | cons b t ih => exact ih (State.setByte_canonical h0)

theorem State.forN_canonical {x0 x1 x2} (h0 : x0.Canonical) (h2 : ∀ y0 y1, y1.Canonical → (x2 y0 y1).Canonical) :
    (State.forN x0 x1 x2).Canonical := by
  grind only [State.forN, foldl_canonical, foldl_fst_canonical, foldl_snd_canonical, foldl_snd2_canonical, foldl_wf, put_wfP]

theorem State.forL_canonical {α : Type} {x1 : State} {x2 : List α} {x3 : α → State → State} (h1 : x1.Canonical) (h3 : ∀ y0 y1, y1.Canonical → (x3 y0 y1).Canonical) :
    (State.forL x1 x2 x3).Canonical := by
  grind only [State.forL, foldl_canonical, foldl_fst_canonical, foldl_snd_canonical, foldl_snd2_canonical, foldl_wf, put_wfP]

theorem State.iff_canonical {x0 x1 x2} (h0 : x0.Canonical) (h2 : ∀ y0, y0.Canonical → (x2 y0).Canonical) :
    (State.iff x0 x1 x2).Canonical := by
  grind only [State.iff]

theorem State.fresh_canonical {x0} (h0 : x0.Canonical) :
    (State.fresh x0).2.Canonical := by
  grind only [State.fresh, mk_canonical, canonical_cells, canonical_latched, canonical_snap, canonical_params, canonical_mem, canonical_vat, canonical_flash, filter_rising, filter_wf, wf_nil, rising_nil]

theorem State.atDot_canonical {x0 x1} (h0 : x0.Canonical) :
    (State.atDot x0 x1).Canonical := by
  grind only [State.atDot, State.wr_canonical]

/-! ### Delivery -/

theorem State.setPending_canonical {x0 x1 x2} (h0 : x0.Canonical) :
    (State.setPending x0 x1 x2).Canonical := by
  grind only [State.setPending, State.setBit_canonical]

theorem msixRequest_canonical {x0 x1} (h1 : x1.Canonical) :
    (msixRequest x0 x1).Canonical := by
  grind only [msixRequest, mk_canonical, canonical_cells, canonical_latched, canonical_snap, canonical_params, canonical_mem, canonical_vat, canonical_flash, filter_rising, filter_wf, wf_nil, rising_nil]

theorem peerSend_canonical {x0 x1} (h1 : x1.Canonical) :
    (peerSend x0 x1).Canonical := by
  grind only [peerSend, State.setPending_canonical, mk_canonical, canonical_cells, canonical_latched, canonical_snap, canonical_params, canonical_mem, canonical_vat, canonical_flash, filter_rising, filter_wf, wf_nil, rising_nil]

theorem deliverAgain_canonical {x0 x1} (h1 : x1.Canonical) :
    (deliverAgain x0 x1).Canonical := by
  grind only [deliverAgain, State.wr_canonical, State.forL_canonical, State.clr_canonical, msixRequest_canonical, State.forN_canonical, peerSend_canonical, filter_rising, filter_wf, wf_nil, rising_nil]

theorem deliver_canonical {x0} (h0 : x0.Canonical) :
    (deliver x0).Canonical := by
  grind only [deliver, deliverAgain_canonical]

theorem raise_canonical {x0 x1} (h1 : x1.Canonical) :
    (raise x0 x1).Canonical := by
  grind only [raise, deliver_canonical, State.setPending_canonical]

theorem setLevel_canonical {x0 x1 x2} (h2 : x2.Canonical) :
    (setLevel x0 x1 x2).Canonical := by
  grind only [setLevel, State.setBit_canonical, deliver_canonical, State.setPending_canonical]

theorem showStack_canonical {x0 x1} (h1 : x1.Canonical) :
    (showStack x0 x1).Canonical := by
  grind only [showStack, State.wr_canonical]

theorem completeSource_canonical {x0 x1} (h1 : x1.Canonical) :
    (completeSource x0 x1).Canonical := by
  grind only [completeSource, State.setPending_canonical]

theorem setStack_canonical {x0 x1 x2} (h2 : x2.Canonical) :
    (setStack x0 x1 x2).Canonical := by
  grind only [setStack, showStack_canonical, mk_canonical, canonical_cells, canonical_latched, canonical_snap, canonical_params, canonical_mem, canonical_vat, canonical_flash, filter_rising, filter_wf, wf_nil, rising_nil]

theorem pushService_canonical {x0 x1} (h1 : x1.Canonical) :
    (pushService x0 x1).Canonical := by
  grind only [pushService, completeSource_canonical, deliver_canonical, setStack_canonical]

theorem popService_canonical {x0 x1} (h1 : x1.Canonical) :
    (popService x0 x1).Canonical := by
  grind only [popService, setStack_canonical, deliver_canonical, completeSource_canonical]

theorem masking_canonical {x0 x1} (h0 : ∀ y0, y0.Canonical → (x0 y0).Canonical) (h1 : x1.Canonical) :
    (masking x0 x1).Canonical := by
  grind only [masking, mk_canonical, canonical_cells, canonical_latched, canonical_snap, canonical_params, canonical_mem, canonical_vat, canonical_flash, filter_rising, filter_wf, wf_nil, rising_nil]

theorem lateTaken_canonical {x0 x1} (h1 : x1.Canonical) :
    (lateTaken x0 x1).Canonical := by
  grind only [lateTaken, mk_canonical, canonical_cells, canonical_latched, canonical_snap, canonical_params, canonical_mem, canonical_vat, canonical_flash, filter_rising, filter_wf, wf_nil, rising_nil]

theorem clearService_canonical {x0 x1} (h1 : x1.Canonical) :
    (clearService x0 x1).Canonical := by
  grind only [clearService, setStack_canonical, lateTaken_canonical, deliver_canonical, State.forL_canonical, completeSource_canonical]

theorem claim_canonical {x0 x1} (h1 : x1.Canonical) :
    (claim x0 x1).2.Canonical := by
  grind only [claim, deliver_canonical, setStack_canonical, State.setPending_canonical, State.inc_canonical]

/-! ### Mailbox -/

theorem showHeld_canonical {x0 x1} (h1 : x1.Canonical) :
    (showHeld x0 x1).Canonical := by
  grind only [showHeld, State.wr_canonical]

theorem setUnnotified_canonical {x0 x1 x2} (h2 : x2.Canonical) :
    (setUnnotified x0 x1 x2).Canonical := by
  grind only [setUnnotified, State.wr_canonical, mk_canonical, canonical_cells, canonical_latched, canonical_snap, canonical_params, canonical_mem, canonical_vat, canonical_flash, filter_rising, filter_wf, wf_nil, rising_nil]

theorem mbxNotify_canonical {x0 x1} (h1 : x1.Canonical) :
    (mbxNotify x0 x1).Canonical := by
  grind only [mbxNotify, setUnnotified_canonical, raise_canonical, mk_canonical, canonical_cells, canonical_latched, canonical_snap, canonical_params, canonical_mem, canonical_vat, canonical_flash, filter_rising, filter_wf, wf_nil, rising_nil]

theorem ringSet_canonical {x0 x1 x2} (h2 : x2.Canonical) :
    (ringSet x0 x1 x2).Canonical := by
  grind only [ringSet, State.setPrm_canonical, State.clr_canonical, mbxNotify_canonical]

theorem applyRingPend_canonical {x0 x1} (h1 : x1.Canonical) :
    (applyRingPend x0 x1).Canonical := by
  grind only [applyRingPend, State.forL_canonical, mk_canonical, canonical_cells, canonical_latched, canonical_snap, canonical_params, canonical_mem, canonical_vat, canonical_flash, ringSet_canonical, filter_rising, filter_wf, wf_nil, rising_nil]

theorem entryDone_canonical {x0 x1} (h1 : x1.Canonical) :
    (entryDone x0 x1).Canonical := by
  grind only [entryDone, applyRingPend_canonical, State.wr_canonical]

theorem ringWriteErr_canonical {x0 x1} (h1 : x1.Canonical) :
    (ringWriteErr x0 x1).2.Canonical := by
  unfold ringWriteErr
  try dsimp only
  repeat' first | with_reducible assumption | split | with_reducible apply State.fresh_canonical

theorem writeEntry_canonical {x0 x1 x2} (h2 : x2.Canonical) :
    (writeEntry x0 x1 x2).Canonical := by
  grind only [writeEntry, ringWriteErr_canonical, raise_canonical, entryDone_canonical, State.inc_canonical, mk_canonical, canonical_cells, canonical_latched, canonical_snap, canonical_params, canonical_mem, canonical_vat, canonical_flash, State.setBytes_canonical, State.wr_canonical, setUnnotified_canonical, mbxNotify_canonical, filter_rising, filter_wf, wf_nil, rising_nil]

theorem wakeRequest_canonical {x0} (h0 : x0.Canonical) :
    (wakeRequest x0).Canonical := by
  grind only [wakeRequest, State.set1_canonical, mk_canonical, canonical_cells, canonical_latched, canonical_snap, canonical_params, canonical_mem, canonical_vat, canonical_flash, filter_rising, filter_wf, wf_nil, rising_nil]

theorem postEntry_canonical {x0 x1} (h1 : x1.Canonical) :
    (postEntry x0 x1).Canonical := by
  grind only [postEntry, raise_canonical, State.inc_canonical, showHeld_canonical, mk_canonical, canonical_cells, canonical_latched, canonical_snap, canonical_params, canonical_mem, canonical_vat, canonical_flash, State.iff_canonical, wakeRequest_canonical, writeEntry_canonical, filter_rising, filter_wf, wf_nil, rising_nil]

theorem flushHeld_canonical {x0 x1 x2 x3} (h3 : x3.Canonical) :
    (flushHeld x0 x1 x2 x3).Canonical := by
  fun_induction flushHeld x0 x1 x2 x3 <;> grind only [showHeld_canonical, writeEntry_canonical, mk_canonical, canonical_cells, canonical_latched, canonical_snap, canonical_params, canonical_mem, canonical_vat, canonical_flash, filter_rising, filter_wf]

theorem notify_canonical {x0 x1 x2 x3} (h3 : x3.Canonical) :
    (notify x0 x1 x2 x3).Canonical := by
  grind only [notify, postEntry_canonical]

theorem logEvent_canonical {x0 x1 x2 x3 x4} (h4 : x4.Canonical) :
    (logEvent x0 x1 x2 x3 x4).Canonical := by
  grind only [logEvent, State.iff_canonical, State.inc_canonical, mk_canonical, canonical_cells, canonical_latched, canonical_snap, canonical_params, canonical_mem, canonical_vat, canonical_flash, State.wr_canonical, notify_canonical, raise_canonical, filter_rising, filter_wf, wf_nil, rising_nil]

theorem droppedWrite_canonical {x0 x1 x2} (h2 : x2.Canonical) :
    (droppedWrite x0 x1 x2).Canonical := by
  grind only [droppedWrite, raise_canonical, State.inc_canonical, logEvent_canonical, mk_canonical, canonical_cells, canonical_latched, canonical_snap, canonical_params, canonical_mem, canonical_vat, canonical_flash, filter_rising, filter_wf, wf_nil, rising_nil]

theorem droppedBy_canonical {x0 x1 x2 x3} (h3 : x3.Canonical) :
    (droppedBy x0 x1 x2 x3).Canonical := by
  unfold droppedBy
  try dsimp only
  repeat' first | with_reducible assumption | split | with_reducible apply droppedWrite_canonical | with_reducible apply State.inc_canonical

theorem decodeError_canonical {x0 x1 x2} (h2 : x2.Canonical) :
    (decodeError x0 x1 x2).Canonical := by
  grind only [decodeError, logEvent_canonical, raise_canonical, State.inc_canonical]

theorem onIrs_canonical {x0 x1 x2 x3} (h2 : ∀ y0, y0.Canonical → (x2 y0).Canonical) (h3 : x3.Canonical) :
    (onIrs x0 x1 x2 x3).Canonical := by
  grind only [onIrs, decodeError_canonical]

theorem writeIrs_canonical {x0 x1 x2 x3 x4} (h3 : ∀ y0, y0.Canonical → (x3 y0).Canonical) (h4 : x4.Canonical) :
    (writeIrs x0 x1 x2 x3 x4).Canonical := by
  grind only [writeIrs, onIrs_canonical, droppedBy_canonical]

theorem readIrs_canonical {x0 x1 x2 x3} (h2 : ∀ y0, y0.Canonical → (x2 y0).2.Canonical) (h3 : x3.Canonical) :
    (readIrs x0 x1 x2 x3).Canonical := by
  grind only [readIrs, mk_canonical, canonical_cells, canonical_latched, canonical_snap, canonical_params, canonical_mem, canonical_vat, canonical_flash, decodeError_canonical, filter_rising, filter_wf, wf_nil, rising_nil]

theorem complete_canonical {x0 x1 x2 x3 x4 x5} (h5 : x5.Canonical) :
    (complete x0 x1 x2 x3 x4 x5).Canonical := by
  grind only [complete, applyRingPend_canonical, State.setBytes_canonical, postEntry_canonical]

theorem completeWaiting_canonical {x0 x1 x2 x3 x4} (h4 : x4.Canonical) :
    (completeWaiting x0 x1 x2 x3 x4).Canonical := by
  grind only [completeWaiting, complete_canonical, mk_canonical, canonical_cells, canonical_latched, canonical_snap, canonical_params, canonical_mem, canonical_vat, canonical_flash, filter_rising, filter_wf, wf_nil, rising_nil]

/-! ### HifOps -/

theorem testRemain_canonical {x0} (h0 : x0.Canonical) :
    (testRemain x0).2.Canonical := by
  grind only [testRemain, State.fresh_canonical, State.wr_canonical, filter_rising, filter_wf, wf_nil, rising_nil]

theorem refuse_canonical {x0 x1 x2 x3 x4} (h4 : x4.Canonical) :
    (refuse x0 x1 x2 x3 x4).Canonical := by
  grind only [refuse, testRemain_canonical, complete_canonical]

theorem serveUnknown_canonical {x0 x1} (h1 : x1.Canonical) :
    (serveUnknown x0 x1).Canonical := by
  fun_induction serveUnknown x0 x1 <;> grind only [complete_canonical, refuse_canonical, mk_canonical, canonical_cells, canonical_latched, canonical_snap, canonical_params, canonical_mem, canonical_vat, canonical_flash, filter_rising, filter_wf]

theorem ringNow_canonical {x0 x1 x2} (h2 : x2.Canonical) :
    (ringNow x0 x1 x2).Canonical := by
  grind only [ringNow, raise_canonical, State.inc_canonical, State.wr_canonical, State.set1_canonical, serveUnknown_canonical, mk_canonical, canonical_cells, canonical_latched, canonical_snap, canonical_params, canonical_mem, canonical_vat, canonical_flash, filter_rising, filter_wf, wf_nil, rising_nil]

theorem ringDoorbell_canonical {x0 x1 x2} (h2 : x2.Canonical) :
    (ringDoorbell x0 x1 x2).Canonical := by
  grind only [ringDoorbell, mk_canonical, canonical_cells, canonical_latched, canonical_snap, canonical_params, canonical_mem, canonical_vat, canonical_flash, ringNow_canonical, filter_rising, filter_wf, wf_nil, rising_nil]

theorem passBells_canonical {x0 x1} (h1 : x1.Canonical) :
    (passBells x0 x1).Canonical := by
  grind only [passBells, State.forL_canonical, mk_canonical, canonical_cells, canonical_latched, canonical_snap, canonical_params, canonical_mem, canonical_vat, canonical_flash, ringNow_canonical, filter_rising, filter_wf, wf_nil, rising_nil]

theorem dpWaits_canonical {x0 x1} (h1 : x1.Canonical) :
    (dpWaits x0 x1).Canonical := by
  grind only [dpWaits, mk_canonical, canonical_cells, canonical_latched, canonical_snap, canonical_params, canonical_mem, canonical_vat, canonical_flash, filter_rising, filter_wf, wf_nil, rising_nil]

theorem headWrite_canonical {x0 x1 x2 x3} (h3 : x3.Canonical) :
    (headWrite x0 x1 x2 x3).Canonical := by
  grind only [headWrite, State.inc_canonical, flushHeld_canonical, State.wr_canonical]

theorem dpPrefetch_canonical {x0 x1} (h1 : x1.Canonical) :
    (dpPrefetch x0 x1).Canonical := by
  grind only [dpPrefetch, State.clr_canonical, mk_canonical, canonical_cells, canonical_latched, canonical_snap, canonical_params, canonical_mem, canonical_vat, canonical_flash, filter_rising, filter_wf, wf_nil, rising_nil]

/-! ### FaultOps -/

theorem setFltUnit_canonical {x0 x1} (h1 : x1.Canonical) :
    (setFltUnit x0 x1).Canonical := by
  grind only [setFltUnit, mk_canonical, canonical_cells, canonical_latched, canonical_snap, canonical_params, canonical_mem, canonical_vat, canonical_flash, filter_rising, filter_wf, wf_nil, rising_nil]

theorem updateFaultN_canonical {x0} (h0 : x0.Canonical) :
    (updateFaultN x0).Canonical := by
  grind only [updateFaultN, State.wr_canonical]

theorem setHealth_canonical {x0 x1 x2} (h2 : x2.Canonical) :
    (setHealth x0 x1 x2).Canonical := by
  grind only [setHealth, State.wr_canonical]

theorem moveSummary_canonical {x0 x1 x2} (h2 : x2.Canonical) :
    (moveSummary x0 x1 x2).Canonical := by
  grind only [moveSummary, State.wr_canonical, State.inc_canonical]

theorem setUnitState_canonical {x0 x1 x2 x3} (h3 : x3.Canonical) :
    (setUnitState x0 x1 x2 x3).Canonical := by
  grind only [setUnitState, moveSummary_canonical, State.wr_canonical, updateFaultN_canonical, setHealth_canonical]

theorem notifyFault_canonical {x0 x1 x2 x3} (h3 : x3.Canonical) :
    (notifyFault x0 x1 x2 x3).Canonical := by
  grind only [notifyFault, notify_canonical]

theorem onPort_canonical {x0 x1 x2} (h2 : x2.Canonical) :
    (onPort x0 x1 x2).Canonical := by
  grind only [onPort, mk_canonical, canonical_cells, canonical_latched, canonical_snap, canonical_params, canonical_mem, canonical_vat, canonical_flash, filter_rising, filter_wf, wf_nil, rising_nil]

theorem portDown_canonical {x0 x1 x2} (h2 : x2.Canonical) :
    (portDown x0 x1 x2).Canonical := by
  grind only [portDown, onPort_canonical, State.clr_canonical, State.wr_canonical]

theorem movePort_canonical {x0 x1 x2} (h2 : x2.Canonical) :
    (movePort x0 x1 x2).Canonical := by
  grind only [movePort, State.wr_canonical, logEvent_canonical, State.set1_canonical]

theorem showCounts_canonical {x0 x1} (h1 : x1.Canonical) :
    (showCounts x0 x1).Canonical := by
  grind only [showCounts, State.wr_canonical, filter_rising, filter_wf, wf_nil, rising_nil]

theorem makeSuspect_canonical {x0 x1 x2} (h2 : x2.Canonical) :
    (makeSuspect x0 x1 x2).Canonical := by
  grind only [makeSuspect, raise_canonical, setUnitState_canonical, logEvent_canonical, notifyFault_canonical, setFltUnit_canonical]

theorem openAttempt_canonical {x0 x1} (h1 : x1.Canonical) :
    (openAttempt x0 x1).Canonical := by
  grind only [openAttempt, showCounts_canonical, setFltUnit_canonical]

theorem countUpset_canonical {x0 x1 x2} (h2 : x2.Canonical) :
    (countUpset x0 x1 x2).Canonical := by
  grind only [countUpset, setFltUnit_canonical, makeSuspect_canonical, showCounts_canonical, State.inc_canonical]

theorem laneRetrain_canonical {x0 x1} (h1 : x1.Canonical) :
    (laneRetrain x0 x1).Canonical := by
  grind only [laneRetrain, raise_canonical, State.wr_canonical, State.inc_canonical, mk_canonical, canonical_cells, canonical_latched, canonical_snap, canonical_params, canonical_mem, canonical_vat, canonical_flash, State.forL_canonical, openAttempt_canonical, countUpset_canonical, filter_rising, filter_wf, wf_nil, rising_nil]

theorem remapUnit_canonical {x0 x1} (h1 : x1.Canonical) :
    (remapUnit x0 x1).Canonical := by
  grind only [remapUnit, movePort_canonical, portDown_canonical, State.clr_canonical, logEvent_canonical, mk_canonical, canonical_cells, canonical_latched, canonical_snap, canonical_params, canonical_mem, canonical_vat, canonical_flash, raise_canonical, State.iff_canonical, laneRetrain_canonical, State.wr_canonical, filter_rising, filter_wf, wf_nil, rising_nil]

theorem retire_canonical {x0 x1 x2} (h2 : x2.Canonical) :
    (retire x0 x1 x2).Canonical := by
  grind only [retire, setUnitState_canonical, mk_canonical, canonical_cells, canonical_latched, canonical_snap, canonical_params, canonical_mem, canonical_vat, canonical_flash, remapUnit_canonical, setFltUnit_canonical, raise_canonical, logEvent_canonical, notifyFault_canonical, filter_rising, filter_wf, wf_nil, rising_nil]

theorem beginAttempt_canonical {x0 x1 x2} (h2 : x2.Canonical) :
    (beginAttempt x0 x1 x2).Canonical := by
  grind only [beginAttempt, retire_canonical, openAttempt_canonical, filter_rising, filter_wf, wf_nil, rising_nil]

theorem upset_canonical {x0 x1 x2} (h2 : x2.Canonical) :
    (upset x0 x1 x2).Canonical := by
  grind only [upset, countUpset_canonical, retire_canonical, beginAttempt_canonical]

theorem endAttempt_canonical {x0 x1 x2} (h2 : x2.Canonical) :
    (endAttempt x0 x1 x2).Canonical := by
  grind only [endAttempt, setFltUnit_canonical, showCounts_canonical, beginAttempt_canonical]

/-! ### Vat -/

theorem parked_canonical {x0 x1} (h1 : x1.Canonical) :
    (parked x0 x1).Canonical := by
  grind only [parked, State.inc_canonical, raise_canonical, mk_canonical, canonical_cells, canonical_latched, canonical_snap, canonical_params, canonical_mem, canonical_vat, canonical_flash, filter_rising, filter_wf, wf_nil, rising_nil]

theorem poisonSeen_canonical {x0 x1 x2 x3} (h3 : x3.Canonical) :
    (poisonSeen x0 x1 x2 x3).Canonical := by
  grind only [poisonSeen, logEvent_canonical, raise_canonical, mk_canonical, canonical_cells, canonical_latched, canonical_snap, canonical_params, canonical_mem, canonical_vat, canonical_flash, filter_rising, filter_wf, wf_nil, rising_nil]

theorem setPoison_canonical {x0 x1 x2} (h2 : x2.Canonical) :
    (setPoison x0 x1 x2).Canonical := by
  grind only [setPoison, mk_canonical, canonical_cells, canonical_latched, canonical_snap, canonical_params, canonical_mem, canonical_vat, canonical_flash, filter_rising, filter_wf, wf_nil, rising_nil]

theorem countUe_canonical {x0 x1 x2} (h2 : x2.Canonical) :
    (countUe x0 x1 x2).Canonical := by
  grind only [countUe, mk_canonical, canonical_cells, canonical_latched, canonical_snap, canonical_params, canonical_mem, canonical_vat, canonical_flash, State.iff_canonical, retire_canonical, filter_rising, filter_wf, wf_nil, rising_nil]

theorem recordErr_canonical {x0 x1 x2 x3 x4} (h4 : x4.Canonical) :
    (recordErr x0 x1 x2 x3 x4).Canonical := by
  grind only [recordErr, State.set1_canonical, State.wr_canonical]

theorem uncorrectable_canonical {x0 x1 x2 x3} (h3 : x3.Canonical) :
    (uncorrectable x0 x1 x2 x3).Canonical := by
  grind only [uncorrectable, setPoison_canonical, recordErr_canonical, State.inc_canonical, countUe_canonical, logEvent_canonical, raise_canonical]

theorem addressParity_canonical {x0 x1 x2} (h2 : x2.Canonical) :
    (addressParity x0 x1 x2).Canonical := by
  grind only [addressParity, recordErr_canonical, State.inc_canonical, countUe_canonical, raise_canonical]

theorem corrected_canonical {x0 x1 x2 x3} (h3 : x3.Canonical) :
    (corrected x0 x1 x2 x3).Canonical := by
  grind only [corrected, State.inc_canonical, mk_canonical, canonical_cells, canonical_latched, canonical_snap, canonical_params, canonical_mem, canonical_vat, canonical_flash, upset_canonical, raise_canonical, filter_rising, filter_wf, wf_nil, rising_nil]

theorem readWord_canonical {x0 x1 x2 x3 x4} (h4 : x4.Canonical) :
    (readWord x0 x1 x2 x3 x4).1.Canonical := by
  unfold readWord
  grind only [uncorrectable_canonical, corrected_canonical]

theorem takeFailed_canonical {x0 x1 x2} (h2 : x2.Canonical) :
    (takeFailed x0 x1 x2).2.Canonical := by
  grind only [takeFailed, mk_canonical, canonical_cells, canonical_latched, canonical_snap, canonical_params, canonical_mem, canonical_vat, canonical_flash, filter_rising, filter_wf, wf_nil, rising_nil]

theorem lineRead_canonical {x0 x1 x2 x3 x4 x5} (h5 : x5.Canonical) :
    (lineRead x0 x1 x2 x3 x4 x5).2.2.Canonical := by
  unfold lineRead
  repeat' split
  all_goals grind only [decodeError_canonical, poisonSeen_canonical, parked_canonical, addressParity_canonical, readWord_canonical, foldl_canonical, foldl_fst_canonical, foldl_snd_canonical, foldl_snd2_canonical, foldl_wf, put_wfP]

theorem writeWord_canonical {x0 x1 x2 x3 x4 x5 x6} (h6 : x6.Canonical) :
    (writeWord x0 x1 x2 x3 x4 x5 x6).1.Canonical := by
  unfold writeWord
  repeat' split
  all_goals grind only [setPoison_canonical, readWord_canonical, put_risingP, put_wfP, mk_canonical, canonical_cells, canonical_latched, canonical_snap, canonical_params, canonical_mem, canonical_vat, canonical_flash, foldl_canonical, foldl_fst_canonical, foldl_snd_canonical, foldl_snd2_canonical, foldl_wf, filter_rising, filter_wf, wf_nil, rising_nil]

theorem lineWrite_canonical {x0 x1 x2 x3 x4 x5} (h5 : x5.Canonical) :
    (lineWrite x0 x1 x2 x3 x4 x5).2.Canonical := by
  unfold lineWrite
  repeat' split
  all_goals grind only [decodeError_canonical, raise_canonical, parked_canonical, addressParity_canonical, writeWord_canonical, foldl_canonical, foldl_fst_canonical, foldl_snd_canonical, foldl_snd2_canonical, foldl_wf, put_wfP]

theorem vatRead_canonical {x0 x1 x2 x3 x4 x5} (h5 : x5.Canonical) :
    (vatRead x0 x1 x2 x3 x4 x5).2.2.Canonical := by
  fun_induction vatRead x0 x1 x2 x3 x4 x5 <;> grind only [takeFailed_canonical, lineRead_canonical]

theorem vatWrite_canonical {x0 x1 x2 x3 x4 x5} (h5 : x5.Canonical) :
    (vatWrite x0 x1 x2 x3 x4 x5).2.Canonical := by
  fun_induction vatWrite x0 x1 x2 x3 x4 x5 <;> grind only [takeFailed_canonical, lineWrite_canonical]

theorem vatInitStart_canonical {x0} (h0 : x0.Canonical) :
    (vatInitStart x0).Canonical := by
  grind only [vatInitStart, State.fresh_canonical, State.wr_canonical, State.incWrap_canonical, mk_canonical, canonical_cells, canonical_latched, canonical_snap, canonical_params, canonical_mem, canonical_vat, canonical_flash, State.forN_canonical, State.set1_canonical, State.iff_canonical, State.clr_canonical, filter_rising, filter_wf, wf_nil, rising_nil]

theorem vatInitEnd_canonical {x0} (h0 : x0.Canonical) :
    (vatInitEnd x0).Canonical := by
  grind only [vatInitEnd, State.clr_canonical, State.wr_canonical, State.forN_canonical, raise_canonical, mk_canonical, canonical_cells, canonical_latched, canonical_snap, canonical_params, canonical_mem, canonical_vat, canonical_flash, filter_rising, filter_wf, wf_nil, rising_nil]

theorem keepResp_canonical {x0 x1 x2} (h2 : x2.Canonical) :
    (keepResp x0 x1 x2).Canonical := by
  grind only [keepResp, mk_canonical, canonical_cells, canonical_latched, canonical_snap, canonical_params, canonical_mem, canonical_vat, canonical_flash, filter_rising, filter_wf, wf_nil, rising_nil]

theorem aliasWrite_canonical {x0 x1 x2 x3 x4 x5} (h5 : x5.Canonical) :
    (aliasWrite x0 x1 x2 x3 x4 x5).Canonical := by
  grind only [aliasWrite, lineWrite_canonical, keepResp_canonical, decodeError_canonical]

theorem clearBank_canonical {x0 x1} (h1 : x1.Canonical) :
    (clearBank x0 x1).Canonical := by
  grind only [clearBank, mk_canonical, canonical_cells, canonical_latched, canonical_snap, canonical_params, canonical_mem, canonical_vat, canonical_flash, filter_rising, filter_wf, wf_nil, rising_nil]

theorem bgtRestored_canonical {x0 x1} (h1 : x1.Canonical) :
    (bgtRestored x0 x1).Canonical := by
  grind only [bgtRestored, State.clr_canonical, mk_canonical, canonical_cells, canonical_latched, canonical_snap, canonical_params, canonical_mem, canonical_vat, canonical_flash, filter_rising, filter_wf, wf_nil, rising_nil]

theorem bankCommand_canonical {x0 x1 x2} (h2 : x2.Canonical) :
    (bankCommand x0 x1 x2).Canonical := by
  grind only [bankCommand, mk_canonical, canonical_cells, canonical_latched, canonical_snap, canonical_params, canonical_mem, canonical_vat, canonical_flash, State.clr_canonical, State.wr_canonical, bgtRestored_canonical, State.iff_canonical, State.set1_canonical, filter_rising, filter_wf, wf_nil, rising_nil]

theorem voidBank_canonical {x0 x1} (h1 : x1.Canonical) :
    (voidBank x0 x1).Canonical := by
  grind only [voidBank, logEvent_canonical, raise_canonical, State.set1_canonical]

theorem bankArrive_canonical {x0 x1 x2 x3} (h3 : x3.Canonical) :
    (bankArrive x0 x1 x2 x3).Canonical := by
  unfold bankArrive
  grind only [State.wr_canonical, mk_canonical, canonical_cells, canonical_latched, canonical_snap, canonical_params, canonical_mem, canonical_vat, canonical_flash, clearBank_canonical, raise_canonical, State.clr_canonical, State.set1_canonical, State.iff_canonical, voidBank_canonical, filter_rising, filter_wf, wf_nil, rising_nil]

theorem bankP3_canonical {x0 x1} (h1 : x1.Canonical) :
    (bankP3 x0 x1).Canonical := by
  grind only [bankP3, bgtRestored_canonical, State.clr_canonical, mk_canonical, canonical_cells, canonical_latched, canonical_snap, canonical_params, canonical_mem, canonical_vat, canonical_flash, bankArrive_canonical, filter_rising, filter_wf, wf_nil, rising_nil]

theorem bgtAdvance_canonical {x0} (h0 : x0.Canonical) :
    (bgtAdvance x0).Canonical := by
  grind only [bgtAdvance, State.wr_canonical, State.clr_canonical, raise_canonical, State.inc_canonical]

theorem bgtSkipOff_canonical {x0 x1} (h1 : x1.Canonical) :
    (bgtSkipOff x0 x1).Canonical := by
  fun_induction bgtSkipOff x0 x1 <;> grind only [bgtAdvance_canonical]

theorem bgtProgress_canonical {x0} (h0 : x0.Canonical) :
    (bgtProgress x0).Canonical := by
  grind only [bgtProgress, State.fresh_canonical, State.wr_canonical]

theorem offerRepair_canonical {x0 x1 x2 x3 x4} (h4 : x4.Canonical) :
    (offerRepair x0 x1 x2 x3 x4).Canonical := by
  grind only [offerRepair, logEvent_canonical, State.set1_canonical, mk_canonical, canonical_cells, canonical_latched, canonical_snap, canonical_params, canonical_mem, canonical_vat, canonical_flash, filter_rising, filter_wf, wf_nil, rising_nil]

theorem bgtFail_canonical {x0 x1 x2} (h2 : x2.Canonical) :
    (bgtFail x0 x1 x2).Canonical := by
  grind only [bgtFail, State.set1_canonical, State.wr_canonical, offerRepair_canonical]

theorem bgtFails_canonical {x0 x1 x2} (h2 : x2.Canonical) :
    (bgtFails x0 x1 x2).Canonical := by
  grind only [bgtFails, raise_canonical, State.inc_canonical, upset_canonical, State.forL_canonical, bgtFail_canonical, mk_canonical, canonical_cells, canonical_latched, canonical_snap, canonical_params, canonical_mem, canonical_vat, canonical_flash, filter_rising, filter_wf, wf_nil, rising_nil]

theorem bgtClose_canonical {x0} (h0 : x0.Canonical) :
    (bgtClose x0).Canonical := by
  grind only [bgtClose, bgtAdvance_canonical, State.clr_canonical, mk_canonical, canonical_cells, canonical_latched, canonical_snap, canonical_params, canonical_mem, canonical_vat, canonical_flash, filter_rising, filter_wf, wf_nil, rising_nil]

/-! ### Memory -/

theorem memRead_canonical {x0 x1 x2 x3} (h3 : x3.Canonical) :
    (memRead x0 x1 x2 x3).2.2.Canonical := by
  grind only [memRead, vatRead_canonical, decodeError_canonical]

theorem memWrite_canonical {x0 x1 x2 x3} (h3 : x3.Canonical) :
    (memWrite x0 x1 x2 x3).2.Canonical := by
  grind only [memWrite, vatWrite_canonical, State.setBytes_canonical, decodeError_canonical]

theorem readAll_canonical {α β : Type} {x2 : α → State → β × Bool × State} {x3 : List α} {x4 : State} (h2 : ∀ y0 y1, y1.Canonical → (x2 y0 y1).2.2.Canonical) (h4 : x4.Canonical) :
    (readAll x2 x3 x4).2.2.Canonical := by
  fun_induction readAll x2 x3 x4 <;> grind only []

end Sys2Proof.Machine
end

