-- ==== Sys2Proof/Laws/CanonicalRaster.lean ====
section
/-! SUPPORT. The pipes' raster, the timers, audio, the cameras, the planes and the Harp: each named operation keeps a canonical state canonical. -/

namespace Sys2Proof.Machine

/-! ### Raster -/

theorem latchRange_canonical {x0 x1 x2} (h2 : x2.Canonical) :
    (latchRange x0 x1 x2).Canonical := by
  grind only [latchRange, moveRange_rising, mk_canonical, canonical_cells, canonical_latched, canonical_snap, canonical_params, canonical_mem, canonical_vat, canonical_flash, filter_rising, filter_wf, wf_nil, rising_nil]

theorem snapRange_canonical {x0 x1 x2} (h2 : x2.Canonical) :
    (snapRange x0 x1 x2).Canonical := by
  grind only [snapRange, mk_canonical, canonical_cells, canonical_latched, canonical_snap, canonical_params, canonical_mem, canonical_vat, canonical_flash, moveRange_rising, filter_rising, filter_wf, wf_nil, rising_nil]

theorem onPipe_canonical {x0 x1 x2} (h2 : x2.Canonical) :
    (onPipe x0 x1 x2).Canonical := by
  grind only [onPipe, mk_canonical, canonical_cells, canonical_latched, canonical_snap, canonical_params, canonical_mem, canonical_vat, canonical_flash, filter_rising, filter_wf, wf_nil, rising_nil]

theorem pipeRaise_canonical {x0 x1 x2} (h2 : x2.Canonical) :
    (pipeRaise x0 x1 x2).Canonical := by
  grind only [pipeRaise, raise_canonical, onPipe_canonical]

theorem onLock_canonical {x0 x1 x2} (h2 : x2.Canonical) :
    (onLock x0 x1 x2).Canonical := by
  grind only [onLock, mk_canonical, canonical_cells, canonical_latched, canonical_snap, canonical_params, canonical_mem, canonical_vat, canonical_flash, filter_rising, filter_wf, wf_nil, rising_nil]

theorem lockApply_canonical {x0 x1} (h1 : x1.Canonical) :
    (lockApply x0 x1).Canonical := by
  grind only [lockApply, State.wr_canonical]

theorem lockRestart_canonical {x0 x1} (h1 : x1.Canonical) :
    (lockRestart x0 x1).Canonical := by
  grind only [lockRestart, onLock_canonical, State.clr_canonical, State.wr_canonical, pipeRaise_canonical]

theorem lockOff_canonical {x0 x1} (h1 : x1.Canonical) :
    (lockOff x0 x1).Canonical := by
  grind only [lockOff, onLock_canonical, State.clr_canonical]

theorem showSlew_canonical {x0 x1 x2 x3} (h3 : x3.Canonical) :
    (showSlew x0 x1 x2 x3).Canonical := by
  grind only [showSlew, State.wr_canonical]

theorem lockMeasured_canonical {x0 x1 x2 x3 x4 x5 x6} (h6 : x6.Canonical) :
    (lockMeasured x0 x1 x2 x3 x4 x5 x6).Canonical := by
  grind only [lockMeasured, State.wr_canonical, showSlew_canonical, lockApply_canonical, onLock_canonical, pipeRaise_canonical]

theorem lockAnchor_canonical {x0 x1} (h1 : x1.Canonical) :
    (lockAnchor x0 x1).Canonical := by
  unfold lockAnchor
  try dsimp only
  repeat' first | with_reducible assumption | split | with_reducible apply lockMeasured_canonical

theorem lockFrameStart_canonical {x0 x1} (h1 : x1.Canonical) :
    (lockFrameStart x0 x1).Canonical := by
  grind only [lockFrameStart, State.wr_canonical, lockAnchor_canonical, showSlew_canonical, onLock_canonical]

/-! ### CoreOps -/

theorem onCore_canonical {x0 x1 x2} (h2 : x2.Canonical) :
    (onCore x0 x1 x2).Canonical := by
  grind only [onCore, mk_canonical, canonical_cells, canonical_latched, canonical_snap, canonical_params, canonical_mem, canonical_vat, canonical_flash, filter_rising, filter_wf, wf_nil, rising_nil]

theorem setCoreState_canonical {x0 x1 x2} (h2 : x2.Canonical) :
    (setCoreState x0 x1 x2).Canonical := by
  grind only [setCoreState, State.wr_canonical]

theorem showPc_canonical {x0 x1} (h1 : x1.Canonical) :
    (showPc x0 x1).Canonical := by
  grind only [showPc, State.wr_canonical]

theorem waitHit_canonical {x0 x1} (h1 : x1.Canonical) :
    (waitHit x0 x1).Canonical := by
  grind only [waitHit, onCore_canonical]

theorem seqLine_canonical {x0 x1} (h1 : x1.Canonical) :
    (seqLine x0 x1).Canonical := by
  grind only [seqLine, waitHit_canonical]

theorem audBlockEvent_canonical {x0 x1} (h1 : x1.Canonical) :
    (audBlockEvent x0 x1).Canonical := by
  grind only [audBlockEvent, waitHit_canonical]

/-! ### CascadeOps -/

theorem onCasc_canonical {x0 x1} (h1 : x1.Canonical) :
    (onCasc x0 x1).Canonical := by
  grind only [onCasc, mk_canonical, canonical_cells, canonical_latched, canonical_snap, canonical_params, canonical_mem, canonical_vat, canonical_flash, filter_rising, filter_wf, wf_nil, rising_nil]

theorem onLink_canonical {x0 x1 x2} (h2 : x2.Canonical) :
    (onLink x0 x1 x2).Canonical := by
  grind only [onLink, onCasc_canonical]

theorem pushFlit_canonical {x0 x1 x2} (h2 : x2.Canonical) :
    (pushFlit x0 x1 x2).Canonical := by
  grind only [pushFlit, onLink_canonical]

theorem unsend_canonical {x0 x1 x2 x3 x4} (h4 : x4.Canonical) :
    (unsend x0 x1 x2 x3 x4).Canonical := by
  grind only [unsend, onLink_canonical, filter_rising, filter_wf, wf_nil, rising_nil]

theorem sendLine_canonical {x0 x1 x2 x3 x4 x5 x6 x7 x8} (h8 : x8.Canonical) :
    (sendLine x0 x1 x2 x3 x4 x5 x6 x7 x8).2.Canonical := by
  grind only [sendLine, unsend_canonical, foldl_canonical, foldl_fst_canonical, foldl_snd_canonical, foldl_snd2_canonical, foldl_wf, put_wfP, pushFlit_canonical]

theorem peerPiece_canonical {x0 x1 x2 x3 x4} (h4 : x4.Canonical) :
    (peerPiece x0 x1 x2 x3 x4).2.2.Canonical := by
  grind only [peerPiece, onCasc_canonical, raise_canonical, State.inc_canonical, filter_rising, filter_wf, wf_nil, rising_nil]

theorem peerRead_canonical {x0 x1 x2 x3 x4} (h4 : x4.Canonical) :
    (peerRead x0 x1 x2 x3 x4).2.2.Canonical := by
  fun_induction peerRead x0 x1 x2 x3 x4 <;> grind only [peerPiece_canonical]

theorem peerWrite_canonical {x0 x1 x2 x3 x4} (h4 : x4.Canonical) :
    (peerWrite x0 x1 x2 x3 x4).2.Canonical := by
  fun_induction peerWrite x0 x1 x2 x3 x4 <;> grind only [peerPiece_canonical]

theorem sendRequest_canonical {x0 x1} (h1 : x1.Canonical) :
    (sendRequest x0 x1).Canonical := by
  grind only [sendRequest, pushFlit_canonical, onCasc_canonical]

theorem withPeerElse_canonical {x0 x1 x2} (h0 : ∀ y0, y0.Canonical → (x0 y0).Canonical) (h1 : ∀ y0, y0.Canonical → (x1 y0).Canonical) (h2 : x2.Canonical) :
    (withPeerElse x0 x1 x2).Canonical := by
  unfold withPeerElse
  dsimp only
  split
  · apply h0
    split
    · exact sendRequest_canonical h2
    · exact h2
  · exact h1 _ (onCasc_canonical h2)

theorem withPeer_canonical {x0 x1} (h0 : ∀ y0, y0.Canonical → (x0 y0).Canonical) (h1 : x1.Canonical) :
    (withPeer x0 x1).Canonical := by
  unfold withPeer
  exact withPeerElse_canonical (fun _ h => h) h0 h1

/-! ### Timers -/

theorem onTimer_canonical {x0 x1 x2} (h2 : x2.Canonical) :
    (onTimer x0 x1 x2).Canonical := by
  grind only [onTimer, mk_canonical, canonical_cells, canonical_latched, canonical_snap, canonical_params, canonical_mem, canonical_vat, canonical_flash, filter_rising, filter_wf, wf_nil, rising_nil]

theorem timerIrq_canonical {x0 x1 x2} (h2 : x2.Canonical) :
    (timerIrq x0 x1 x2).Canonical := by
  grind only [timerIrq, raise_canonical]

theorem timerPeriod_canonical {x0 x1} (h1 : x1.Canonical) :
    (timerPeriod x0 x1).Canonical := by
  grind only [timerPeriod, State.clr_canonical, onTimer_canonical, State.set1_canonical]

theorem timerTick_canonical {x0 x1 x2} (h2 : x2.Canonical) :
    (timerTick x0 x1 x2).2.Canonical := by
  induction x0 generalizing x1 x2 with
  | zero => exact h2
  | succ f ih =>
    simp only [timerTick]
    repeat' split
    · exact h2
    · exact State.wr_canonical h2
    · exact ih (timerPeriod_canonical (State.incWrap_canonical h2))
    · exact timerPeriod_canonical (State.incWrap_canonical h2)

theorem timerSignal_canonical {x0 x1 x2} (h2 : x2.Canonical) :
    (timerSignal x0 x1 x2).Canonical := by
  grind only [timerSignal, State.forL_canonical, onTimer_canonical, filter_rising, filter_wf, wf_nil, rising_nil]

theorem timerCclk_canonical {x0 x1 x2 x3 x4} (h4 : x4.Canonical) :
    (timerCclk x0 x1 x2 x3 x4).Canonical := by
  grind only [timerCclk, foldl_canonical, foldl_fst_canonical, foldl_snd_canonical, foldl_snd2_canonical, foldl_wf, put_wfP, timerTick_canonical, State.forL_canonical, State.incWrap_canonical, State.clr_canonical, State.wr_canonical, timerIrq_canonical, timerSignal_canonical, filter_rising, filter_wf, wf_nil, rising_nil]

theorem timerFollow_canonical {x0 x1} (h1 : x1.Canonical) :
    (timerFollow x0 x1).Canonical := by
  fun_induction timerFollow x0 x1 <;> grind only [State.forL_canonical, onTimer_canonical, timerCclk_canonical, mk_canonical, canonical_cells, canonical_latched, canonical_snap, canonical_params, canonical_mem, canonical_vat, canonical_flash, filter_rising, filter_wf]

theorem timerRun_canonical {x0 x1 x2 x3 x4} (h4 : x4.Canonical) :
    (timerRun x0 x1 x2 x3 x4).Canonical := by
  grind only [timerRun, timerFollow_canonical, timerCclk_canonical, State.forL_canonical, onTimer_canonical, filter_rising, filter_wf, wf_nil, rising_nil]

theorem timerSource_canonical {x0 x1} (h1 : x1.Canonical) :
    (timerSource x0 x1).Canonical := by
  grind only [timerSource, timerRun_canonical, filter_rising, filter_wf, wf_nil, rising_nil]

theorem timerAdvance_canonical {x0 x1 x2} (h2 : x2.Canonical) :
    (timerAdvance x0 x1 x2).Canonical := by
  grind only [timerAdvance, State.wr_canonical]

theorem timerRestart_canonical {x0 x1} (h1 : x1.Canonical) :
    (timerRestart x0 x1).Canonical := by
  grind only [timerRestart, timerRun_canonical, timerPeriod_canonical]

theorem timerPins_canonical {x0 x1} (h0 : x0.Canonical) (h1 : x1.Canonical) :
    (timerPins x0 x1).Canonical := by
  grind only [timerPins, State.forL_canonical, onTimer_canonical, timerRun_canonical, filter_rising, filter_wf, wf_nil, rising_nil]

theorem timerCapture_canonical {x0 x1 x2} (h2 : x2.Canonical) :
    (timerCapture x0 x1 x2).Canonical := by
  grind only [timerCapture, State.set1_canonical, State.wr_canonical, timerIrq_canonical]

theorem timerStartMask_canonical {x0 x1} (h1 : x1.Canonical) :
    (timerStartMask x0 x1).Canonical := by
  grind only [timerStartMask, timerRun_canonical, State.forL_canonical, State.set1_canonical, State.clr_canonical]

theorem timerStopMask_canonical {x0 x1} (h1 : x1.Canonical) :
    (timerStopMask x0 x1).Canonical := by
  grind only [timerStopMask, State.forL_canonical, State.clr_canonical]

theorem timerWritten_canonical {x0 x1} (h1 : x1.Canonical) :
    (timerWritten x0 x1).Canonical := by
  grind only [timerWritten, timerRun_canonical]

theorem timerWriteCount_canonical {x0 x1 x2} (h2 : x2.Canonical) :
    (timerWriteCount x0 x1 x2).Canonical := by
  grind only [timerWriteCount, timerWritten_canonical, State.set1_canonical, State.wr_canonical]

theorem timerWriteCmp_canonical {x0 x1 x2} (h2 : x2.Canonical) :
    (timerWriteCmp x0 x1 x2).Canonical := by
  grind only [timerWriteCmp, State.wr_canonical, State.set1_canonical, State.clr_canonical, timerWritten_canonical, onTimer_canonical]

theorem timerReadCount_canonical {x0 x1 x2} (h2 : x2.Canonical) :
    (timerReadCount x0 x1 x2).2.Canonical := by
  grind only [timerReadCount, mk_canonical, canonical_cells, canonical_latched, canonical_snap, canonical_params, canonical_mem, canonical_vat, canonical_flash, filter_rising, filter_wf, wf_nil, rising_nil]

theorem timerCaptureFlags_canonical {x0 x1} (h1 : x1.Canonical) :
    (timerCaptureFlags x0 x1).2.Canonical := by
  grind only [timerCaptureFlags, State.clr_canonical]

theorem timerReadCapture_canonical {x0 x1 x2} (h2 : x2.Canonical) :
    (timerReadCapture x0 x1 x2).2.Canonical := by
  unfold timerReadCapture
  grind only [timerCaptureFlags_canonical]

theorem timerCtlWritten_canonical {x0 x1} (h1 : x1.Canonical) :
    (timerCtlWritten x0 x1).Canonical := by
  grind only [timerCtlWritten, State.clr_canonical]

theorem timerLockWritten_canonical {x0 x1 x2} (h2 : x2.Canonical) :
    (timerLockWritten x0 x1 x2).Canonical := by
  grind only [timerLockWritten, onTimer_canonical]

/-! ### Audio -/

theorem onAud_canonical {x0 x1} (h1 : x1.Canonical) :
    (onAud x0 x1).Canonical := by
  grind only [onAud, mk_canonical, canonical_cells, canonical_latched, canonical_snap, canonical_params, canonical_mem, canonical_vat, canonical_flash, filter_rising, filter_wf, wf_nil, rising_nil]

theorem onAudCore_canonical {x0 x1 x2} (h2 : x2.Canonical) :
    (onAudCore x0 x1 x2).Canonical := by
  grind only [onAudCore, onAud_canonical]

theorem setNode_canonical {x0 x1 x2} (h2 : x2.Canonical) :
    (setNode x0 x1 x2).Canonical := by
  grind only [setNode, onAud_canonical, filter_rising, filter_wf, wf_nil, rising_nil]

theorem gainWrite_canonical {x0 x1 x2} (h2 : x2.Canonical) :
    (gainWrite x0 x1 x2).Canonical := by
  grind only [gainWrite, State.wr_canonical, setNode_canonical]

theorem audOnce_canonical {x0 x1 x2} (h2 : x2.Canonical) :
    (audOnce x0 x1 x2).Canonical := by
  grind only [audOnce, raise_canonical, onAud_canonical]

theorem nodeBegin_canonical {x0 x1 x2} (h2 : x2.Canonical) :
    (nodeBegin x0 x1 x2).Canonical := by
  grind only [nodeBegin, setNode_canonical, State.wr_canonical]

theorem nodeCheck_canonical {x0 x1 x2 x3} (h3 : x3.Canonical) :
    (nodeCheck x0 x1 x2 x3).Canonical := by
  grind only [nodeCheck, nodeBegin_canonical, audOnce_canonical, State.inc_canonical]

theorem nodeEdge_canonical {x0 x1 x2} (h2 : x2.Canonical) :
    (nodeEdge x0 x1 x2).Canonical := by
  grind only [nodeEdge, setNode_canonical, State.wr_canonical]

theorem xpGainWrite_canonical {x0 x1 x2 x3 x4} (h4 : x4.Canonical) :
    (xpGainWrite x0 x1 x2 x3 x4).Canonical := by
  grind only [xpGainWrite, gainWrite_canonical, droppedBy_canonical]

theorem stGainWrite_canonical {x0 x1 x2 x3} (h3 : x3.Canonical) :
    (stGainWrite x0 x1 x2 x3).Canonical := by
  grind only [stGainWrite, gainWrite_canonical, droppedBy_canonical]

theorem onPlayer_canonical {x0 x1 x2} (h2 : x2.Canonical) :
    (onPlayer x0 x1 x2).Canonical := by
  grind only [onPlayer, onAud_canonical]

theorem showPlayer_canonical {x0 x1} (h1 : x1.Canonical) :
    (showPlayer x0 x1).Canonical := by
  grind only [showPlayer, State.wr_canonical]

theorem playConvert_canonical {x0 x1 x2 x3} (h3 : x3.Canonical) :
    (playConvert x0 x1 x2 x3).Canonical := by
  grind only [playConvert, onPlayer_canonical, State.wr_canonical]

theorem playGo_canonical {x0 x1} (h1 : x1.Canonical) :
    (playGo x0 x1).Canonical := by
  grind only [playGo, showPlayer_canonical, playConvert_canonical]

theorem playStop_canonical {x0 x1} (h1 : x1.Canonical) :
    (playStop x0 x1).Canonical := by
  grind only [playStop, showPlayer_canonical, onPlayer_canonical]

theorem playCtlWrite_canonical {x0 x1 x2 x3} (h3 : x3.Canonical) :
    (playCtlWrite x0 x1 x2 x3).Canonical := by
  grind only [playCtlWrite, droppedBy_canonical, State.wr_canonical, playStop_canonical, playGo_canonical]

theorem chimeDone_canonical {x0 x1} (h1 : x1.Canonical) :
    (chimeDone x0 x1).Canonical := by
  grind only [chimeDone, gainWrite_canonical, mk_canonical, canonical_cells, canonical_latched, canonical_snap, canonical_params, canonical_mem, canonical_vat, canonical_flash, filter_rising, filter_wf, wf_nil, rising_nil]

theorem playEnd_canonical {x0 x1 x2} (h2 : x2.Canonical) :
    (playEnd x0 x1 x2).Canonical := by
  grind only [playEnd, onPlayer_canonical, chimeDone_canonical, raise_canonical, showPlayer_canonical]

theorem playFill_canonical {x0 x1 x2} (h2 : x2.Canonical) :
    (playFill x0 x1 x2).Canonical := by
  fun_induction playFill x0 x1 x2 <;> grind only [State.set1_canonical, raise_canonical, memRead_canonical, onPlayer_canonical, playEnd_canonical, mk_canonical, canonical_cells, canonical_latched, canonical_snap, canonical_params, canonical_mem, canonical_vat, canonical_flash, filter_rising, filter_wf]

theorem playFetch_canonical {x0 x1} (h1 : x1.Canonical) :
    (playFetch x0 x1).Canonical := by
  grind only [playFetch, playFill_canonical, showPlayer_canonical, onPlayer_canonical]

theorem playBegin_canonical {x0 x1 x2} (h2 : x2.Canonical) :
    (playBegin x0 x1 x2).Canonical := by
  grind only [playBegin, onPlayer_canonical, State.clr_canonical, playEnd_canonical, playFetch_canonical, raise_canonical, showPlayer_canonical]

theorem playDue_canonical {x0 x1} (h1 : x1.Canonical) :
    (playDue x0 x1).Canonical := by
  grind only [playDue, playBegin_canonical]

theorem playLast_canonical {x0 x1} (h1 : x1.Canonical) :
    (playLast x0 x1).Canonical := by
  grind only [playLast, chimeDone_canonical, raise_canonical, showPlayer_canonical, onPlayer_canonical]

theorem playAdvance_canonical {x0 x1 x2} (h2 : x2.Canonical) :
    (playAdvance x0 x1 x2).Canonical := by
  grind only [playAdvance, playLast_canonical, playEnd_canonical, onPlayer_canonical, State.set1_canonical, showPlayer_canonical, playFetch_canonical]

theorem audBoundary_canonical {x0 x1} (h1 : x1.Canonical) :
    (audBoundary x0 x1).Canonical := by
  grind only [audBoundary, onAudCore_canonical, audBlockEvent_canonical, audOnce_canonical, State.inc_canonical]

theorem mixOutputs_canonical {x0 x1} (h1 : x1.Canonical) :
    (mixOutputs x0 x1).2.Canonical := by
  grind only [mixOutputs, State.forL_canonical, State.inc_canonical, audOnce_canonical, filter_rising, filter_wf, wf_nil, rising_nil]

theorem portSlip_canonical {x0 x1} (h1 : x1.Canonical) :
    (portSlip x0 x1).Canonical := by
  grind only [portSlip, audOnce_canonical, State.inc_canonical]

theorem slaveEdge_canonical {x0 x1 x2} (h2 : x2.Canonical) :
    (slaveEdge x0 x1 x2).Canonical := by
  grind only [slaveEdge, State.forL_canonical, portSlip_canonical, onAud_canonical, filter_rising, filter_wf, wf_nil, rising_nil]

theorem coreSamples_canonical {x0 x1} (h1 : x1.Canonical) :
    (coreSamples x0 x1).Canonical := by
  grind only [coreSamples, State.forN_canonical, State.setBytes_canonical, onAudCore_canonical]

theorem periodEnd_canonical {x0 x1 x2} (h2 : x2.Canonical) :
    (periodEnd x0 x1 x2).Canonical := by
  grind only [periodEnd, State.forL_canonical, audBoundary_canonical, playDue_canonical, nodeCheck_canonical, mixOutputs_canonical, foldl_canonical, foldl_fst_canonical, foldl_snd_canonical, foldl_snd2_canonical, foldl_wf, put_wfP, coreSamples_canonical, onAud_canonical, playAdvance_canonical, filter_rising, filter_wf, wf_nil, rising_nil]

theorem linkEdge_canonical {x0 x1} (h1 : x1.Canonical) :
    (linkEdge x0 x1).Canonical := by
  grind only [linkEdge, onAud_canonical, audOnce_canonical, State.inc_canonical]

theorem linkSend_canonical {x0 x1} (h1 : x1.Canonical) :
    (linkSend x0 x1).Canonical := by
  grind only [linkSend, onLink_canonical, pushFlit_canonical]

theorem asrcEdge_canonical {x0 x1 x2} (h2 : x2.Canonical) :
    (asrcEdge x0 x1 x2).Canonical := by
  grind only [asrcEdge, onAud_canonical, State.wr_canonical]

theorem audEdge_canonical {x0 x1 x2 x3 x4} (h4 : x4.Canonical) :
    (audEdge x0 x1 x2 x3 x4).Canonical := by
  grind only [audEdge, periodEnd_canonical, State.forL_canonical, linkSend_canonical, State.wr_canonical, State.set1_canonical, onAud_canonical, slaveEdge_canonical, nodeEdge_canonical, linkEdge_canonical, asrcEdge_canonical, timerSource_canonical, filter_rising, filter_wf, wf_nil, rising_nil]

theorem asrcUnlock_canonical {x0 x1} (h1 : x1.Canonical) :
    (asrcUnlock x0 x1).Canonical := by
  grind only [asrcUnlock, raise_canonical, State.inc_canonical, State.clr_canonical]

theorem clockSwitched_canonical {x0 x1} (h1 : x1.Canonical) :
    (clockSwitched x0 x1).Canonical := by
  grind only [clockSwitched, State.forL_canonical, asrcUnlock_canonical, filter_rising, filter_wf, wf_nil, rising_nil]

theorem flushPort_canonical {x0 x1} (h1 : x1.Canonical) :
    (flushPort x0 x1).Canonical := by
  grind only [flushPort, onAud_canonical, filter_rising, filter_wf, wf_nil, rising_nil]

theorem tdmRetired_canonical {x0 x1} (h1 : x1.Canonical) :
    (tdmRetired x0 x1).Canonical := by
  grind only [tdmRetired, State.wr_canonical]

theorem tdmResync_canonical {x0 x1} (h1 : x1.Canonical) :
    (tdmResync x0 x1).Canonical := by
  grind only [tdmResync, flushPort_canonical, State.inc_canonical, State.wr_canonical, tdmRetired_canonical]

theorem tdmCtlWritten_canonical {x0 x1 x2} (h2 : x2.Canonical) :
    (tdmCtlWritten x0 x1 x2).Canonical := by
  grind only [tdmCtlWritten, flushPort_canonical, State.clr_canonical, tdmRetired_canonical, State.wr_canonical]

/-! ### CameraOps -/

theorem onStream_canonical {x0 x1 x2} (h2 : x2.Canonical) :
    (onStream x0 x1 x2).Canonical := by
  grind only [onStream, mk_canonical, canonical_cells, canonical_latched, canonical_snap, canonical_params, canonical_mem, canonical_vat, canonical_flash, filter_rising, filter_wf, wf_nil, rising_nil]

theorem showHolders_canonical {x0 x1 x2} (h2 : x2.Canonical) :
    (showHolders x0 x1 x2).Canonical := by
  grind only [showHolders, State.wr_canonical, filter_rising, filter_wf, wf_nil, rising_nil]

theorem streamEvent_canonical {x0 x1 x2} (h2 : x2.Canonical) :
    (streamEvent x0 x1 x2).Canonical := by
  grind only [streamEvent, mk_canonical, canonical_cells, canonical_latched, canonical_snap, canonical_params, canonical_mem, canonical_vat, canonical_flash, raise_canonical, filter_rising, filter_wf, wf_nil, rising_nil]

theorem csiError_canonical {x0 x1} (h1 : x1.Canonical) :
    (csiError x0 x1).Canonical := by
  grind only [csiError, raise_canonical, mk_canonical, canonical_cells, canonical_latched, canonical_snap, canonical_params, canonical_mem, canonical_vat, canonical_flash, filter_rising, filter_wf, wf_nil, rising_nil]

theorem syncArmPipe_canonical {x0 x1} (h1 : x1.Canonical) :
    (syncArmPipe x0 x1).Canonical := by
  grind only [syncArmPipe, State.forL_canonical, onStream_canonical, filter_rising, filter_wf, wf_nil, rising_nil]

/-! ### Planes -/

theorem onPlane_canonical {x0 x1 x2} (h2 : x2.Canonical) :
    (onPlane x0 x1 x2).Canonical := by
  grind only [onPlane, mk_canonical, canonical_cells, canonical_latched, canonical_snap, canonical_params, canonical_mem, canonical_vat, canonical_flash, filter_rising, filter_wf, wf_nil, rising_nil]

theorem planeFlag_canonical {x0 x1 x2 x3} (h3 : x3.Canonical) :
    (planeFlag x0 x1 x2 x3).Canonical := by
  grind only [planeFlag, onPlane_canonical, State.set1_canonical, State.inc_canonical, raise_canonical]

theorem planeUnderrun_canonical {x0 x1 x2} (h2 : x2.Canonical) :
    (planeUnderrun x0 x1 x2).Canonical := by
  grind only [planeUnderrun, onPlane_canonical, planeFlag_canonical]

theorem planeFrameStart_canonical {x0 x1} (h1 : x1.Canonical) :
    (planeFrameStart x0 x1).Canonical := by
  grind only [planeFrameStart, foldl_canonical, foldl_fst_canonical, foldl_snd_canonical, foldl_snd2_canonical, foldl_wf, put_wfP, State.wr_canonical, State.forN_canonical, onPlane_canonical]

theorem tilePx_canonical {x0 x1 x2 x3 x4} (h4 : x4.Canonical) :
    (tilePx x0 x1 x2 x3 x4).2.2.Canonical := by
  grind only [tilePx, memRead_canonical, planeFlag_canonical]

theorem planeWord_canonical {x0 x1 x2 x3} (h3 : x3.Canonical) :
    (planeWord x0 x1 x2 x3).2.2.Canonical := by
  grind only [planeWord, memRead_canonical]

theorem yccAt_canonical {x0 x1 x2 x3 x4 x5 x6 x7 x8 x9} (h9 : x9.Canonical) :
    (yccAt x0 x1 x2 x3 x4 x5 x6 x7 x8 x9).2.2.Canonical := by
  unfold yccAt
  grind only [planeWord_canonical, readAll_canonical]

theorem formatPx_canonical {x0 x1 x2 x3 x4 x5 x6 x7 x8 x9} (h9 : x9.Canonical) :
    (formatPx x0 x1 x2 x3 x4 x5 x6 x7 x8 x9).2.2.Canonical := by
  grind only [formatPx, planeWord_canonical, yccAt_canonical]

theorem srcPx_canonical {x0 x1 x2 x3 x4} (h4 : x4.Canonical) :
    (srcPx x0 x1 x2 x3 x4).2.2.Canonical := by
  grind only [srcPx, tilePx_canonical, formatPx_canonical]

theorem horizontalPx_canonical {x0 x1 x2 x3 x4 x5 x6} (h6 : x6.Canonical) :
    (horizontalPx x0 x1 x2 x3 x4 x5 x6).2.2.Canonical := by
  grind only [horizontalPx, srcPx_canonical, readAll_canonical]

theorem separablePx_canonical {x0 x1 x2 x3 x4 x5} (h5 : x5.Canonical) :
    (separablePx x0 x1 x2 x3 x4 x5).2.2.Canonical := by
  grind only [separablePx, readAll_canonical, horizontalPx_canonical]

theorem affinePx_canonical {x0 x1 x2 x3 x4} (h4 : x4.Canonical) :
    (affinePx x0 x1 x2 x3 x4).2.2.Canonical := by
  grind only [affinePx, srcPx_canonical, readAll_canonical]

theorem planeLine_canonical {x0 x1 x2 x3} (h3 : x3.Canonical) :
    (planeLine x0 x1 x2 x3).2.2.Canonical := by
  grind only [planeLine, readAll_canonical, affinePx_canonical, separablePx_canonical]

theorem planeLatch_canonical {x0 x1} (h1 : x1.Canonical) :
    (planeLatch x0 x1).Canonical := by
  grind only [planeLatch, latchRange_canonical]

theorem affineAdvance_canonical {x0 x1 x2 x3 x4 x5} (h5 : x5.Canonical) :
    (affineAdvance x0 x1 x2 x3 x4 x5).Canonical := by
  grind only [affineAdvance, onPlane_canonical]

theorem planeChecks_canonical {x0 x1 x2} (h2 : x2.Canonical) :
    (planeChecks x0 x1 x2).Canonical := by
  grind only [planeChecks, planeFlag_canonical]

theorem planeSnapshot_canonical {x0 x1 x2 x3} (h3 : x3.Canonical) :
    (planeSnapshot x0 x1 x2 x3).Canonical := by
  grind only [planeSnapshot, snapRange_canonical, affineAdvance_canonical, onPlane_canonical, planeChecks_canonical, State.wr_canonical]

theorem ringRelease_canonical {x0 x1} (h1 : x1.Canonical) :
    (ringRelease x0 x1).Canonical := by
  grind only [ringRelease, showHolders_canonical, onPlane_canonical]

theorem ringTake_canonical {x0 x1} (h1 : x1.Canonical) :
    (ringTake x0 x1).Canonical := by
  grind only [ringTake, onPlane_canonical, ringRelease_canonical, showHolders_canonical, planeFlag_canonical]

theorem planeLeave_canonical {x0 x1} (h1 : x1.Canonical) :
    (planeLeave x0 x1).Canonical := by
  grind only [planeLeave, onPlane_canonical, ringRelease_canonical, State.setBit_canonical, State.clr_canonical]

theorem planeJoin_canonical {x0 x1 x2} (h2 : x2.Canonical) :
    (planeJoin x0 x1 x2).Canonical := by
  grind only [planeJoin, onPlane_canonical, raise_canonical, State.setBit_canonical, State.set1_canonical]

theorem planesAtFrameStart_canonical {x0 x1} (h1 : x1.Canonical) :
    (planesAtFrameStart x0 x1).Canonical := by
  grind only [planesAtFrameStart, State.forL_canonical, planeLeave_canonical, planeJoin_canonical]

/-! ### Harp -/

theorem onHarp_canonical {x0 x1 x2} (h2 : x2.Canonical) :
    (onHarp x0 x1 x2).Canonical := by
  grind only [onHarp, mk_canonical, canonical_cells, canonical_latched, canonical_snap, canonical_params, canonical_mem, canonical_vat, canonical_flash, filter_rising, filter_wf, wf_nil, rising_nil]

theorem wrAll_canonical {x0 x1 x2} (h2 : x2.Canonical) :
    (wrAll x0 x1 x2).Canonical := by
  grind only [wrAll, State.forL_canonical, State.wr_canonical]

theorem setGate_canonical {x0 x1 x2} (h2 : x2.Canonical) :
    (setGate x0 x1 x2).Canonical := by
  grind only [setGate, mk_canonical, canonical_cells, canonical_latched, canonical_snap, canonical_params, canonical_mem, canonical_vat, canonical_flash, filter_rising, filter_wf, wf_nil, rising_nil]

theorem gateWord_canonical {x0 x1 x2 x3 x4 x5} (h5 : x5.Canonical) :
    (gateWord x0 x1 x2 x3 x4 x5).Canonical := by
  grind only [gateWord, droppedBy_canonical, setGate_canonical, State.inc_canonical, filter_rising, filter_wf, wf_nil, rising_nil]

theorem publish_canonical {x0 x1 x2 x3 x4} (h4 : x4.Canonical) :
    (publish x0 x1 x2 x3 x4).Canonical := by
  grind only [publish, State.iff_canonical, State.inc_canonical, setGate_canonical, droppedBy_canonical, State.forL_canonical, wrAll_canonical]

theorem harpWordWrite_canonical {x0 x1 x2 x3 x4 x5} (h5 : x5.Canonical) :
    (harpWordWrite x0 x1 x2 x3 x4 x5).Canonical := by
  grind only [harpWordWrite, publish_canonical, gateWord_canonical]

theorem harpWrite_canonical {x0 x1 x2 x3 x4} (h4 : x4.Canonical) :
    (harpWrite x0 x1 x2 x3 x4).Canonical := by
  grind only [harpWrite, harpWordWrite_canonical]

theorem harpFlag_canonical {x0 x1 x2 x3} (h3 : x3.Canonical) :
    (harpFlag x0 x1 x2 x3).Canonical := by
  grind only [harpFlag, onHarp_canonical, State.set1_canonical, State.inc_canonical, raise_canonical]

theorem harpFrameStart_canonical {x0 x1} (h1 : x1.Canonical) :
    (harpFrameStart x0 x1).Canonical := by
  grind only [harpFrameStart, foldl_canonical, foldl_fst_canonical, foldl_snd_canonical, foldl_snd2_canonical, foldl_wf, put_wfP, State.wr_canonical, State.forN_canonical, onHarp_canonical, latchRange_canonical]

theorem patternPx_canonical {x0 x1 x2 x3 x4} (h4 : x4.Canonical) :
    (patternPx x0 x1 x2 x3 x4).2.2.Canonical := by
  grind only [patternPx, memRead_canonical]

theorem patternAt_canonical {x0 x1 x2 x3 x4} (h4 : x4.Canonical) :
    (patternAt x0 x1 x2 x3 x4).2.2.Canonical := by
  grind only [patternAt, patternPx_canonical]

theorem objPx_canonical {x0 x1 x2 x3 x4 x5} (h5 : x5.Canonical) :
    (objPx x0 x1 x2 x3 x4 x5).2.2.Canonical := by
  unfold objPx
  repeat' split
  all_goals grind only [patternPx_canonical, patternAt_canonical, readAll_canonical]

theorem capture_canonical {x0 x1 x2} (h2 : x2.Canonical) :
    (capture x0 x1 x2).Canonical := by
  grind only [capture, onHarp_canonical]

theorem dropObjs_canonical {x0 x1 x2 x3 x4} (h4 : x4.Canonical) :
    (dropObjs x0 x1 x2 x3 x4).Canonical := by
  grind only [dropObjs, harpFlag_canonical, State.incBy_canonical, onHarp_canonical, filter_rising, filter_wf, wf_nil, rising_nil]

theorem drawObjs_canonical {x0 x1 x2 x3 x4 x5 x6} (h6 : x6.Canonical) :
    (drawObjs x0 x1 x2 x3 x4 x5 x6).2.2.2.2.Canonical := by
  fun_induction drawObjs x0 x1 x2 x3 x4 x5 x6 <;> grind only [State.fresh_canonical, readAll_canonical, objPx_canonical]

theorem harpUnderrun_canonical {x0 x1 x2} (h2 : x2.Canonical) :
    (harpUnderrun x0 x1 x2).Canonical := by
  grind only [harpUnderrun, onHarp_canonical, harpFlag_canonical]

theorem harpWork_canonical {x0 x1 x2 x3 x4} (h4 : x4.Canonical) :
    (harpWork x0 x1 x2 x3 x4).Canonical := by
  grind only [harpWork, harpFlag_canonical, dropObjs_canonical, State.forL_canonical, capture_canonical, onHarp_canonical, drawObjs_canonical, harpUnderrun_canonical, filter_rising, filter_wf, wf_nil, rising_nil]

theorem harpDeadline_canonical {x0 x1 x2} (h2 : x2.Canonical) :
    (harpDeadline x0 x1 x2).Canonical := by
  grind only [harpDeadline, harpWork_canonical]

theorem harpStart_canonical {x0 x1 x2} (h2 : x2.Canonical) :
    (harpStart x0 x1 x2).Canonical := by
  grind only [harpStart, onHarp_canonical]

theorem stageStart_canonical {x0 x1} (h1 : x1.Canonical) :
    (stageStart x0 x1).Canonical := by
  grind only [stageStart, onHarp_canonical]

theorem putCtx_canonical {x0 x1 x2} (h2 : x2.Canonical) :
    (putCtx x0 x1 x2).Canonical := by
  grind only [putCtx, State.forN_canonical, wrAll_canonical]

theorem putAff_canonical {x0 x1 x2} (h2 : x2.Canonical) :
    (putAff x0 x1 x2).Canonical := by
  grind only [putAff, State.forN_canonical, wrAll_canonical]

theorem stageItems_canonical {x0 x1 x2 x3 x4 x5 x6} (h2 : ∀ y0 y1 y2, y2.Canonical → (x2 y0 y1 y2).Canonical) (h6 : x6.Canonical) :
    (stageItems x0 x1 x2 x3 x4 x5 x6).2.Canonical := by
  fun_induction stageItems x0 x1 x2 x3 x4 x5 x6 <;> grind only [memRead_canonical]

end Sys2Proof.Machine
end

