-- ==== Sys2Proof/Laws/CanonicalVideo.lean ====
section
/-! SUPPORT. Composing, the register map, the Rind, the ports, the pipes, interrupts and the cores: each named operation keeps a canonical state canonical. -/

namespace Sys2Proof.Machine

/-! ### Compose -/

theorem onRind_canonical {x0 x1 x2} (h2 : x2.Canonical) :
    (onRind x0 x1 x2).Canonical := by
  grind only [onRind, mk_canonical, canonical_cells, canonical_latched, canonical_snap, canonical_params, canonical_mem, canonical_vat, canonical_flash, filter_rising, filter_wf, wf_nil, rising_nil]

theorem layerOff_canonical {x0 x1 x2 x3} (h3 : x3.Canonical) :
    (layerOff x0 x1 x2 x3).Canonical := by
  grind only [layerOff, State.setBit_canonical, State.set1_canonical, State.iff_canonical, State.inc_canonical, State.wr_canonical, onRind_canonical, pipeRaise_canonical]

theorem safeFetch_canonical {x0 x1 x2 x3} (h3 : x3.Canonical) :
    (safeFetch x0 x1 x2 x3).2.Canonical := by
  grind only [safeFetch, memRead_canonical, readAll_canonical]

theorem safeFetches_canonical {x0 x1 x2} (h2 : x2.Canonical) :
    (safeFetches x0 x1 x2).Canonical := by
  grind only [safeFetches, safeFetch_canonical, onPipe_canonical]

theorem lineUnderruns_canonical {x0 x1 x2 x3} (h3 : x3.Canonical) :
    (lineUnderruns x0 x1 x2 x3).Canonical := by
  grind only [lineUnderruns, State.forL_canonical, layerOff_canonical, planeUnderrun_canonical, harpDeadline_canonical, State.forN_canonical]

theorem rindLine_canonical {x0 x1 x2 x3 x4} (h4 : x4.Canonical) :
    (rindLine x0 x1 x2 x3 x4).Canonical := by
  grind only [rindLine, onRind_canonical, filter_rising, filter_wf, wf_nil, rising_nil]

theorem onWb_canonical {x0 x1 x2} (h2 : x2.Canonical) :
    (onWb x0 x1 x2).Canonical := by
  grind only [onWb, onPipe_canonical]

theorem wbIncomplete_canonical {x0 x1} (h1 : x1.Canonical) :
    (wbIncomplete x0 x1).Canonical := by
  grind only [wbIncomplete, State.inc_canonical, State.set1_canonical, pipeRaise_canonical, State.wr_canonical]

theorem wbOverflow_canonical {x0 x1 x2} (h2 : x2.Canonical) :
    (wbOverflow x0 x1 x2).Canonical := by
  grind only [wbOverflow, unsend_canonical, wbIncomplete_canonical, onWb_canonical, filter_rising, filter_wf, wf_nil, rising_nil]

theorem wbWriteLine_canonical {x0 x1 x2} (h2 : x2.Canonical) :
    (wbWriteLine x0 x1 x2).2.Canonical := by
  grind only [wbWriteLine, sendLine_canonical, memWrite_canonical]

theorem wbWrite_canonical {x0 x1 x2} (h2 : x2.Canonical) :
    (wbWrite x0 x1 x2).2.Canonical := by
  grind only [wbWrite, foldl_canonical, foldl_fst_canonical, foldl_snd_canonical, foldl_snd2_canonical, foldl_wf, put_wfP, wbWriteLine_canonical]

theorem wbFlushOld_canonical {x0 x1} (h1 : x1.Canonical) :
    (wbFlushOld x0 x1).Canonical := by
  grind only [wbFlushOld, onWb_canonical, wbWrite_canonical, wbIncomplete_canonical, filter_rising, filter_wf, wf_nil, rising_nil]

theorem wbFlush_canonical {x0 x1} (h1 : x1.Canonical) :
    (wbFlush x0 x1).Canonical := by
  grind only [wbFlush, wbFlushOld_canonical, onWb_canonical, wbWrite_canonical, wbOverflow_canonical]

theorem wbHold_canonical {x0 x1 x2 x3} (h3 : x3.Canonical) :
    (wbHold x0 x1 x2 x3).Canonical := by
  grind only [wbHold, wbOverflow_canonical, onWb_canonical]

theorem wbFrameStart_canonical {x0 x1} (h1 : x1.Canonical) :
    (wbFrameStart x0 x1).Canonical := by
  grind only [wbFrameStart, onWb_canonical, State.set1_canonical]

theorem wbDone_canonical {x0 x1 x2} (h2 : x2.Canonical) :
    (wbDone x0 x1 x2).Canonical := by
  grind only [wbDone, State.clr_canonical, State.wr_canonical, pipeRaise_canonical]

theorem composeLine_canonical {x0 x1 x2} (h2 : x2.Canonical) :
    (composeLine x0 x1 x2).Canonical := by
  grind only [composeLine, rindLine_canonical, wbHold_canonical, onPipe_canonical]

/-! ### RegMap -/

theorem writeFlds_canonical {x0 x1 x2 x3 x4} (h4 : x4.Canonical) :
    (writeFlds x0 x1 x2 x3 x4).Canonical := by
  grind only [writeFlds, State.forL_canonical, State.wr_canonical]

/-! ### Rind -/

theorem rectClear_canonical {x0 x1 x2} (h2 : x2.Canonical) :
    (rectClear x0 x1 x2).Canonical := by
  grind only [rectClear, onRind_canonical, State.clr_canonical, filter_rising, filter_wf, wf_nil, rising_nil]

theorem alertClear_canonical {x0 x1} (h1 : x1.Canonical) :
    (alertClear x0 x1).Canonical := by
  grind only [alertClear, State.setBit_canonical]

theorem rindLatch_canonical {x0 x1 x2} (h2 : x2.Canonical) :
    (rindLatch x0 x1 x2).Canonical := by
  grind only [rindLatch, State.forL_canonical, rectClear_canonical, State.clr_canonical, latchRange_canonical, alertClear_canonical, filter_rising, filter_wf, wf_nil, rising_nil]

theorem rindEntries_canonical {x0 x1} (h1 : x1.Canonical) :
    (rindEntries x0 x1).Canonical := by
  grind only [rindEntries, onRind_canonical, State.forL_canonical, memRead_canonical, raise_canonical, filter_rising, filter_wf, wf_nil, rising_nil]

theorem rindSafe_canonical {x0 x1} (h1 : x1.Canonical) :
    (rindSafe x0 x1).Canonical := by
  grind only [rindSafe, State.forN_canonical, State.setBit_canonical, logEvent_canonical, raise_canonical]

theorem rectFails_canonical {x0 x1 x2 x3 x4} (h4 : x4.Canonical) :
    (rectFails x0 x1 x2 x3 x4).Canonical := by
  grind only [rectFails, State.inc_canonical, State.setBit_canonical, raise_canonical, onRind_canonical, logEvent_canonical, mk_canonical, canonical_cells, canonical_latched, canonical_snap, canonical_params, canonical_mem, canonical_vat, canonical_flash, filter_rising, filter_wf, wf_nil, rising_nil]

theorem writeVerdict_canonical {x0 x1 x2 x3} (h3 : x3.Canonical) :
    (writeVerdict x0 x1 x2 x3).Canonical := by
  grind only [writeVerdict, State.wr_canonical]

theorem judge_canonical {x0 x1 x2 x3} (h3 : x3.Canonical) :
    (judge x0 x1 x2 x3).Canonical := by
  grind only [judge, onRind_canonical, State.wr_canonical, writeVerdict_canonical, rectFails_canonical, filter_rising, filter_wf, wf_nil, rising_nil]

theorem rindDue_canonical {x0 x1} (h1 : x1.Canonical) :
    (rindDue x0 x1).Canonical := by
  grind only [rindDue, State.forL_canonical, judge_canonical, filter_rising, filter_wf, wf_nil, rising_nil]

theorem rindSkips_canonical {x0 x1} (h1 : x1.Canonical) :
    (rindSkips x0 x1).Canonical := by
  grind only [rindSkips, State.forN_canonical, writeVerdict_canonical]

theorem breach_canonical {x0 x1 x2} (h2 : x2.Canonical) :
    (breach x0 x1 x2).Canonical := by
  grind only [breach, notify_canonical, logEvent_canonical, raise_canonical, State.inc_canonical, mk_canonical, canonical_cells, canonical_latched, canonical_snap, canonical_params, canonical_mem, canonical_vat, canonical_flash, filter_rising, filter_wf, wf_nil, rising_nil]

theorem rindReport_canonical {x0 x1} (h1 : x1.Canonical) :
    (rindReport x0 x1).Canonical := by
  grind only [rindReport, State.wr_canonical, raise_canonical, State.inc_canonical]

theorem rindBreaches_canonical {x0 x1} (h1 : x1.Canonical) :
    (rindBreaches x0 x1).Canonical := by
  grind only [rindBreaches, breach_canonical]

theorem raceClose_canonical {x0 x1} (h1 : x1.Canonical) :
    (raceClose x0 x1).Canonical := by
  grind only [raceClose, State.fresh_canonical, onPlane_canonical]

theorem raceOpen_canonical {x0 x1} (h1 : x1.Canonical) :
    (raceOpen x0 x1).Canonical := by
  grind only [raceOpen, onPlane_canonical]

theorem raceFrame_canonical {x0 x1 x2 x3} (h3 : x3.Canonical) :
    (raceFrame x0 x1 x2 x3).Canonical := by
  unfold raceFrame
  try dsimp only
  repeat' first | with_reducible assumption | split | with_reducible apply State.fresh_canonical | with_reducible apply State.wr_canonical

theorem rindFrameEnd_canonical {x0 x1} (h1 : x1.Canonical) :
    (rindFrameEnd x0 x1).Canonical := by
  grind only [rindFrameEnd, State.forL_canonical, raceClose_canonical, rindBreaches_canonical, rindReport_canonical, raceFrame_canonical]

theorem rindFrameStart_canonical {x0 x1 x2} (h2 : x2.Canonical) :
    (rindFrameStart x0 x1 x2).Canonical := by
  grind only [rindFrameStart, rindDue_canonical, rindFrameEnd_canonical, State.clr_canonical, State.wr_canonical, alertClear_canonical, onRind_canonical]

theorem rindFrameOpen_canonical {x0 x1} (h1 : x1.Canonical) :
    (rindFrameOpen x0 x1).Canonical := by
  grind only [rindFrameOpen, onRind_canonical]

theorem c0Response_canonical {x0 x1 x2} (h2 : x2.Canonical) :
    (c0Response x0 x1 x2).Canonical := by
  grind only [c0Response, State.maxTo_canonical, mk_canonical, canonical_cells, canonical_latched, canonical_snap, canonical_params, canonical_mem, canonical_vat, canonical_flash, onRind_canonical, filter_rising, filter_wf, wf_nil, rising_nil]

theorem vatGrant_canonical {x0 x1 x2 x3 x4 x5 x6} (h6 : x6.Canonical) :
    (vatGrant x0 x1 x2 x3 x4 x5 x6).Canonical := by
  unfold vatGrant
  grind only [State.wr_canonical, State.maxTo_canonical, c0Response_canonical, mk_canonical, canonical_cells, canonical_latched, canonical_snap, canonical_params, canonical_mem, canonical_vat, canonical_flash, lineRead_canonical, keepResp_canonical, lineWrite_canonical, filter_rising, filter_wf, wf_nil, rising_nil]

/-! ### Ports -/

theorem portNotify_canonical {x0 x1 x2} (h2 : x2.Canonical) :
    (portNotify x0 x1 x2).Canonical := by
  grind only [portNotify, notify_canonical]

theorem portTrain_canonical {x0 x1} (h1 : x1.Canonical) :
    (portTrain x0 x1).Canonical := by
  grind only [portTrain, onPort_canonical, portDown_canonical]

theorem portStart_canonical {x0 x1} (h1 : x1.Canonical) :
    (portStart x0 x1).Canonical := by
  grind only [portStart, portDown_canonical, portTrain_canonical, onPort_canonical]

theorem portStop_canonical {x0 x1} (h1 : x1.Canonical) :
    (portStop x0 x1).Canonical := by
  grind only [portStop, onPort_canonical, State.clr_canonical, portDown_canonical]

theorem portSends_canonical {x0 x1} (h1 : x1.Canonical) :
    (portSends x0 x1).Canonical := by
  grind only [portSends, onPort_canonical, State.wr_canonical]

theorem portRoute_canonical {x0 x1} (h1 : x1.Canonical) :
    (portRoute x0 x1).Canonical := by
  grind only [portRoute, portSends_canonical, onPort_canonical, State.set1_canonical]

theorem portsAtFrameStart_canonical {x0 x1} (h1 : x1.Canonical) :
    (portsAtFrameStart x0 x1).Canonical := by
  grind only [portsAtFrameStart, State.forN_canonical, portSends_canonical, onPort_canonical, State.wr_canonical, State.clr_canonical]

/-! ### Pipes -/

theorem release_canonical {x0 x1 x2 x3} (h3 : x3.Canonical) :
    (release x0 x1 x2 x3).Canonical := by
  grind only [release, State.incWrap_canonical, State.wr_canonical]

theorem releaseAll_canonical {x0 x1 x2 x3} (h3 : x3.Canonical) :
    (releaseAll x0 x1 x2 x3).Canonical := by
  grind only [releaseAll, pipeRaise_canonical, State.forL_canonical, release_canonical]

theorem pipeLatchRegs_canonical {x0 x1 x2} (h2 : x2.Canonical) :
    (pipeLatchRegs x0 x1 x2).Canonical := by
  grind only [pipeLatchRegs, State.wr_canonical, rindDue_canonical, latchRange_canonical, rindLatch_canonical]

theorem takeBases_canonical {x0 x1 x2} (h2 : x2.Canonical) :
    (takeBases x0 x1 x2).Canonical := by
  grind only [takeBases, onPlane_canonical, State.wr_canonical]

theorem paramBases_canonical {x0 x1} (h1 : x1.Canonical) :
    (paramBases x0 x1).Canonical := by
  grind only [paramBases, State.wr_canonical]

theorem checkAddrs_canonical {x0 x1} (h1 : x1.Canonical) :
    (checkAddrs x0 x1).Canonical := by
  grind only [checkAddrs, State.forL_canonical, onPlane_canonical, foldl_canonical, foldl_fst_canonical, foldl_snd_canonical, foldl_snd2_canonical, foldl_wf, put_wfP, onPipe_canonical, pipeRaise_canonical]

theorem clusterSettles_canonical {x0 x1} (h1 : x1.Canonical) :
    (clusterSettles x0 x1).Canonical := by
  grind only [clusterSettles, State.setPrm_canonical]

theorem joinPrepare_canonical {x0 x1 x2} (h2 : x2.Canonical) :
    (joinPrepare x0 x1 x2).Canonical := by
  grind only [joinPrepare, State.wr_canonical, planeLatch_canonical, ringTake_canonical, onPlane_canonical, pipeRaise_canonical, onPipe_canonical]

theorem joinLate_canonical {x0 x1} (h1 : x1.Canonical) :
    (joinLate x0 x1).Canonical := by
  grind only [joinLate, planeSnapshot_canonical, joinPrepare_canonical, onPlane_canonical]

theorem line0Start_canonical {x0 x1} (h1 : x1.Canonical) :
    (line0Start x0 x1).Canonical := by
  grind only [line0Start, State.forL_canonical, joinPrepare_canonical, planeSnapshot_canonical, snapRange_canonical, safeFetches_canonical, harpStart_canonical, onPipe_canonical]

theorem latchSteps_canonical {x0 x1 x2 x3 x4} (h4 : x4.Canonical) :
    (latchSteps x0 x1 x2 x3 x4).Canonical := by
  grind only [latchSteps, pipeLatchRegs_canonical, State.forL_canonical, planeLatch_canonical, takeBases_canonical, clusterSettles_canonical, paramBases_canonical, State.wr_canonical, State.clr_canonical, checkAddrs_canonical, onPipe_canonical, release_canonical, State.incWrap_canonical, stageStart_canonical, ringTake_canonical, line0Start_canonical, pipeRaise_canonical, rindSafe_canonical, rindEntries_canonical, filter_rising, filter_wf, wf_nil, rising_nil]

theorem latchOff_canonical {x0 x1} (h1 : x1.Canonical) :
    (latchOff x0 x1).Canonical := by
  grind only [latchOff, pipeLatchRegs_canonical, State.forL_canonical, planeLatch_canonical, paramBases_canonical]

theorem commitOff_canonical {x0 x1} (h1 : x1.Canonical) :
    (commitOff x0 x1).Canonical := by
  grind only [commitOff, onPipe_canonical, latchSteps_canonical]

theorem commit_canonical {x0 x1 x2 x3} (h3 : x3.Canonical) :
    (commit x0 x1 x2 x3).Canonical := by
  grind only [commit, onPipe_canonical, State.incBy_canonical, releaseAll_canonical, State.wr_canonical, commitOff_canonical, pipeRaise_canonical, filter_rising, filter_wf, wf_nil, rising_nil]

theorem fwCommit_canonical {x0 x1} (h1 : x1.Canonical) :
    (fwCommit x0 x1).Canonical := by
  grind only [fwCommit, commit_canonical]

theorem pipeCommit_canonical {x0 x1 x2 x3 x4} (h4 : x4.Canonical) :
    (pipeCommit x0 x1 x2 x3 x4).Canonical := by
  grind only [pipeCommit, droppedBy_canonical, commit_canonical]

theorem pipeEnable_canonical {x0 x1} (h1 : x1.Canonical) :
    (pipeEnable x0 x1).Canonical := by
  grind only [pipeEnable, pipeLatchRegs_canonical, State.forL_canonical, planeLatch_canonical, State.clr_canonical, State.wr_canonical, onPipe_canonical, lockRestart_canonical, lockOff_canonical, onRind_canonical, latchSteps_canonical]

theorem pipeDisable_canonical {x0 x1} (h1 : x1.Canonical) :
    (pipeDisable x0 x1).Canonical := by
  grind only [pipeDisable, State.clr_canonical, lockOff_canonical, releaseAll_canonical, onPipe_canonical, State.forL_canonical, ringRelease_canonical, onPlane_canonical, onHarp_canonical, State.forN_canonical, onRind_canonical, alertClear_canonical, portSends_canonical]

theorem lineBegins_canonical {x0 x1} (h1 : x1.Canonical) :
    (lineBegins x0 x1).Canonical := by
  grind only [lineBegins, seqLine_canonical, onPipe_canonical]

theorem activeLine_canonical {x0 x1 x2 x3 x4} (h4 : x4.Canonical) :
    (activeLine x0 x1 x2 x3 x4).Canonical := by
  grind only [activeLine, lineBegins_canonical, State.wr_canonical, lineUnderruns_canonical, State.iff_canonical, wbFlush_canonical, composeLine_canonical, State.forL_canonical, planeSnapshot_canonical, snapRange_canonical, safeFetches_canonical, harpStart_canonical]

theorem blankLine_canonical {x0 x1 x2 x3} (h3 : x3.Canonical) :
    (blankLine x0 x1 x2 x3).Canonical := by
  grind only [blankLine, lineBegins_canonical, State.wr_canonical, onPipe_canonical, State.iff_canonical, wbFlush_canonical, line0Start_canonical]

theorem frameStatus_canonical {x0 x1} (h1 : x1.Canonical) :
    (frameStatus x0 x1).Canonical := by
  grind only [frameStatus, State.wr_canonical, State.clr_canonical, onPipe_canonical, pipeRaise_canonical, State.inc_canonical]

theorem badClass0_canonical {x0 x1} (h1 : x1.Canonical) :
    (badClass0 x0 x1).Canonical := by
  grind only [badClass0, onRind_canonical]

theorem frameStart_canonical {x0 x1} (h1 : x1.Canonical) :
    (frameStart x0 x1).Canonical := by
  grind only [frameStart, rindFrameStart_canonical, frameStatus_canonical, State.forL_canonical, planeFrameStart_canonical, planesAtFrameStart_canonical, joinLate_canonical, raceOpen_canonical, badClass0_canonical, rindFrameOpen_canonical, harpFrameStart_canonical, rindSkips_canonical, pipeRaise_canonical, State.incWrap_canonical, syncArmPipe_canonical, lockFrameStart_canonical, State.clr_canonical, State.wr_canonical, wbFrameStart_canonical, portsAtFrameStart_canonical, onPipe_canonical, filter_rising, filter_wf, wf_nil, rising_nil]

/-! ### Camera -/

theorem frameComplete_canonical {x0 x1} (h1 : x1.Canonical) :
    (frameComplete x0 x1).Canonical := by
  grind only [frameComplete, State.wr_canonical, State.set1_canonical, State.clr_canonical, raise_canonical, onStream_canonical]

theorem frameEnd_canonical {x0 x1 x2} (h2 : x2.Canonical) :
    (frameEnd x0 x1 x2).Canonical := by
  grind only [frameEnd, streamEvent_canonical, State.inc_canonical, onStream_canonical, State.clr_canonical]

theorem frameBegin_canonical {x0 x1 x2} (h2 : x2.Canonical) :
    (frameBegin x0 x1 x2).Canonical := by
  grind only [frameBegin, frameComplete_canonical, frameEnd_canonical, onStream_canonical, State.clr_canonical, State.wr_canonical, streamEvent_canonical, State.inc_canonical, State.set1_canonical]

theorem frameFe_canonical {x0 x1} (h1 : x1.Canonical) :
    (frameFe x0 x1).Canonical := by
  grind only [frameFe, onStream_canonical, frameEnd_canonical, State.inc_canonical]

theorem ringLine_canonical {x0 x1 x2 x3 x4} (h4 : x4.Canonical) :
    (ringLine x0 x1 x2 x3 x4).Canonical := by
  grind only [ringLine, memWrite_canonical, streamEvent_canonical, onStream_canonical]

theorem slotLine_canonical {x0 x1 x2 x3 x4 x5} (h5 : x5.Canonical) :
    (slotLine x0 x1 x2 x3 x4 x5).Canonical := by
  grind only [slotLine, memWrite_canonical, onStream_canonical, filter_rising, filter_wf, wf_nil, rising_nil]

theorem streamLine_canonical {x0 x1 x2 x3 x4} (h4 : x4.Canonical) :
    (streamLine x0 x1 x2 x3 x4).Canonical := by
  grind only [streamLine, State.inc_canonical, onStream_canonical, streamEvent_canonical, State.wr_canonical, slotLine_canonical, ringLine_canonical]

theorem streamLost_canonical {x0 x1} (h1 : x1.Canonical) :
    (streamLost x0 x1).Canonical := by
  grind only [streamLost, frameEnd_canonical, onStream_canonical, State.clr_canonical, State.wr_canonical, State.forN_canonical, State.forL_canonical, onPlane_canonical, logEvent_canonical, streamEvent_canonical]

theorem streamEnable_canonical {x0 x1} (h1 : x1.Canonical) :
    (streamEnable x0 x1).Canonical := by
  grind only [streamEnable, onStream_canonical, State.clr_canonical, State.wr_canonical, State.forN_canonical]

theorem streamDisable_canonical {x0 x1} (h1 : x1.Canonical) :
    (streamDisable x0 x1).Canonical := by
  grind only [streamDisable, onStream_canonical, State.clr_canonical, State.forN_canonical]

theorem csiRetired_canonical {x0 x1} (h1 : x1.Canonical) :
    (csiRetired x0 x1).Canonical := by
  grind only [csiRetired, State.wr_canonical, mk_canonical, canonical_cells, canonical_latched, canonical_snap, canonical_params, canonical_mem, canonical_vat, canonical_flash, State.forL_canonical, streamLost_canonical, filter_rising, filter_wf, wf_nil, rising_nil]

theorem csiResync_canonical {x0 x1} (h1 : x1.Canonical) :
    (csiResync x0 x1).Canonical := by
  grind only [csiResync, csiRetired_canonical, csiError_canonical, State.inc_canonical, State.wr_canonical, mk_canonical, canonical_cells, canonical_latched, canonical_snap, canonical_params, canonical_mem, canonical_vat, canonical_flash, filter_rising, filter_wf, wf_nil, rising_nil]

theorem csiUpset_canonical {x0 x1} (h1 : x1.Canonical) :
    (csiUpset x0 x1).Canonical := by
  grind only [csiUpset, csiResync_canonical, upset_canonical, State.forL_canonical, frameEnd_canonical]

theorem csiBurst_canonical {x0 x1} (h1 : x1.Canonical) :
    (csiBurst x0 x1).Canonical := by
  grind only [csiBurst, csiUpset_canonical, mk_canonical, canonical_cells, canonical_latched, canonical_snap, canonical_params, canonical_mem, canonical_vat, canonical_flash, filter_rising, filter_wf, wf_nil, rising_nil]

theorem csiHeader_canonical {x0 x1 x2} (h2 : x2.Canonical) :
    (csiHeader x0 x1 x2).2.Canonical := by
  unfold csiHeader
  grind only [csiError_canonical, State.inc_canonical, csiBurst_canonical]

theorem csiPacket_canonical {x0 x1 x2 x3} (h2 : ∀ y0, y0.Canonical → (x2 y0).Canonical) (h3 : x3.Canonical) :
    (csiPacket x0 x1 x2 x3).Canonical := by
  grind only [csiPacket, csiHeader_canonical]

theorem longPacket_canonical {x0 x1 x2 x3 x4 x5} (h5 : x5.Canonical) :
    (longPacket x0 x1 x2 x3 x4 x5).Canonical := by
  grind only [longPacket, State.iff_canonical, csiError_canonical, State.inc_canonical, streamLine_canonical, csiBurst_canonical]

theorem replaceLine_canonical {x0 x1 x2 x3 x4} (h4 : x4.Canonical) :
    (replaceLine x0 x1 x2 x3 x4).Canonical := by
  grind only [replaceLine, onPlane_canonical, streamEvent_canonical, State.inc_canonical]

theorem csiEnable_canonical {x0 x1} (h1 : x1.Canonical) :
    (csiEnable x0 x1).Canonical := by
  grind only [csiEnable, State.wr_canonical]

theorem csiDisable_canonical {x0 x1} (h1 : x1.Canonical) :
    (csiDisable x0 x1).Canonical := by
  grind only [csiDisable, State.forL_canonical, frameEnd_canonical, State.clr_canonical, mk_canonical, canonical_cells, canonical_latched, canonical_snap, canonical_params, canonical_mem, canonical_vat, canonical_flash, filter_rising, filter_wf, wf_nil, rising_nil]

/-! ### Interrupts -/

theorem IntcReg.apply_canonical {x0 x1 x2} (h2 : x2.Canonical) :
    (IntcReg.apply x0 x1 x2).Canonical := by
  unfold IntcReg.apply
  grind only [State.setBit_canonical, State.setPending_canonical, completeSource_canonical]

theorem intcWrite_canonical {x0 x1 x2 x3 x4} (h4 : x4.Canonical) :
    (intcWrite x0 x1 x2 x3 x4).Canonical := by
  grind only [intcWrite, deliverAgain_canonical, State.forL_canonical, IntcReg.apply_canonical, masking_canonical, droppedBy_canonical, filter_rising, filter_wf, wf_nil, rising_nil]

theorem pbaSend_canonical {x0 x1} (h1 : x1.Canonical) :
    (pbaSend x0 x1).Canonical := by
  grind only [pbaSend, mk_canonical, canonical_cells, canonical_latched, canonical_snap, canonical_params, canonical_mem, canonical_vat, canonical_flash, msixRequest_canonical, filter_rising, filter_wf, wf_nil, rising_nil]

/-! ### Syoft -/

theorem csrRead_canonical {x0 x1 x2} (h2 : x2.Canonical) :
    (csrRead x0 x1 x2).2.Canonical := by
  unfold csrRead
  grind only [claim_canonical, onCore_canonical]

theorem trapAccess_canonical {x0 x1} (h1 : x1.Canonical) :
    (trapAccess x0 x1).2.Canonical := by
  unfold trapAccess
  grind only [State.fresh_canonical]

theorem doubleTrap_canonical {x0 x1 x2 x3} (h3 : x3.Canonical) :
    (doubleTrap x0 x1 x2 x3).Canonical := by
  grind only [doubleTrap, onCore_canonical, setCoreState_canonical, State.clr_canonical, State.wr_canonical, logEvent_canonical, raise_canonical, State.inc_canonical, onAudCore_canonical, mk_canonical, canonical_cells, canonical_latched, canonical_snap, canonical_params, canonical_mem, canonical_vat, canonical_flash, filter_rising, filter_wf, wf_nil, rising_nil]

theorem armCore_canonical {x0 x1 x2} (h2 : x2.Canonical) :
    (armCore x0 x1 x2).Canonical := by
  grind only [armCore, onCore_canonical, setCoreState_canonical]

theorem stopCore_canonical {x0 x1} (h1 : x1.Canonical) :
    (stopCore x0 x1).Canonical := by
  grind only [stopCore, onCore_canonical, onAudCore_canonical, logEvent_canonical, raise_canonical, State.inc_canonical, armCore_canonical, setCoreState_canonical, State.clr_canonical]

theorem stopAtBoundary_canonical {x0 x1} (h1 : x1.Canonical) :
    (stopAtBoundary x0 x1).Canonical := by
  grind only [stopAtBoundary, stopCore_canonical]

theorem runWritten_canonical {x0 x1 x2} (h2 : x2.Canonical) :
    (runWritten x0 x1 x2).Canonical := by
  grind only [runWritten, stopAtBoundary_canonical, onCore_canonical, armCore_canonical, setCoreState_canonical]

theorem enter_canonical {x0 x1 x2 x3 x4 x5} (h5 : x5.Canonical) :
    (enter x0 x1 x2 x3 x4 x5).Canonical := by
  grind only [enter, trapAccess_canonical, onCore_canonical, stopAtBoundary_canonical, showPc_canonical, pushService_canonical, setCoreState_canonical]

theorem preciseTrap_canonical {x0 x1 x2 x3 x4} (h4 : x4.Canonical) :
    (preciseTrap x0 x1 x2 x3 x4).Canonical := by
  grind only [preciseTrap, doubleTrap_canonical, enter_canonical]

theorem leaveReset_canonical {x0 x1 x2} (h2 : x2.Canonical) :
    (leaveReset x0 x1 x2).Canonical := by
  grind only [leaveReset, clearService_canonical, onCore_canonical, showPc_canonical, setCoreState_canonical]

theorem pageRead_canonical {x0 x1 x2} (h2 : x2.Canonical) :
    (pageRead x0 x1 x2).2.Canonical := by
  unfold pageRead
  grind only [onCore_canonical, State.fresh_canonical, filter_rising, filter_wf, wf_nil, rising_nil]

theorem seqKick_canonical {x0 x1} (h1 : x1.Canonical) :
    (seqKick x0 x1).Canonical := by
  grind only [seqKick, onCore_canonical]

theorem seqDoorbell_canonical {x0 x1} (h1 : x1.Canonical) :
    (seqDoorbell x0 x1).Canonical := by
  grind only [seqDoorbell, raise_canonical]

theorem audlDone_canonical {x0 x1} (h1 : x1.Canonical) :
    (audlDone x0 x1).Canonical := by
  grind only [audlDone, onAudCore_canonical]

theorem audlKick_canonical {x0 x1} (h1 : x1.Canonical) :
    (audlKick x0 x1).Canonical := by
  grind only [audlKick, onAudCore_canonical]

theorem audlDoorbell_canonical {x0 x1} (h1 : x1.Canonical) :
    (audlDoorbell x0 x1).Canonical := by
  grind only [audlDoorbell, raise_canonical]

theorem pageWrite_canonical {x0 x1 x2 x3} (h3 : x3.Canonical) :
    (pageWrite x0 x1 x2 x3).Canonical := by
  unfold pageWrite
  grind only [onCore_canonical, seqKick_canonical, seqDoorbell_canonical, audlDone_canonical, audlKick_canonical, audlDoorbell_canonical]

theorem countEcc_canonical {x0 x1 x2} (h2 : x2.Canonical) :
    (countEcc x0 x1 x2).Canonical := by
  unfold countEcc
  grind only [State.inc_canonical]

theorem loadBytes_canonical {x0 x1 x2 x3 x4 x5 x6 x7} (h7 : x7.Canonical) :
    (loadBytes x0 x1 x2 x3 x4 x5 x6 x7).2.Canonical := by
  grind only [loadBytes, countEcc_canonical, onCore_canonical, pageRead_canonical]

theorem sylWrites_canonical {x0 x1 x2 x3 x4} (h4 : x4.Canonical) :
    (sylWrites x0 x1 x2 x3 x4).2.Canonical := by
  unfold sylWrites
  grind only [loadBytes_canonical, State.fresh_canonical, csrRead_canonical]

theorem bundleStore_canonical {x0 x1 x2 x3} (h3 : x3.Canonical) :
    (bundleStore x0 x1 x2 x3).Canonical := by
  grind only [bundleStore, State.forL_canonical, onCore_canonical, State.setBytes_canonical, pageWrite_canonical]

theorem bundleWrites_canonical {x0 x1 x2 x3 x4} (h4 : x4.Canonical) :
    (bundleWrites x0 x1 x2 x3 x4).2.Canonical := by
  fun_induction bundleWrites x0 x1 x2 x3 x4 <;> grind only [sylWrites_canonical]

theorem commitBundle_canonical {x0 x1 x2} (h2 : x2.Canonical) :
    (commitBundle x0 x1 x2).Canonical := by
  grind only [commitBundle, bundleWrites_canonical, bundleStore_canonical, onCore_canonical, foldl_canonical, foldl_fst_canonical, foldl_snd_canonical, foldl_snd2_canonical, foldl_wf, put_wfP, popService_canonical, setCoreState_canonical, enter_canonical, stopAtBoundary_canonical, showPc_canonical]

theorem holdBundle_canonical {x0 x1 x2} (h2 : x2.Canonical) :
    (holdBundle x0 x1 x2).Canonical := by
  unfold holdBundle
  grind only [onCore_canonical, stopAtBoundary_canonical, showPc_canonical, setCoreState_canonical]

theorem runBundle_canonical {x0 x1 x2} (h2 : x2.Canonical) :
    (runBundle x0 x1 x2).Canonical := by
  unfold runBundle
  try dsimp only
  repeat' first | with_reducible assumption | split | with_reducible apply preciseTrap_canonical | with_reducible apply holdBundle_canonical | with_reducible apply onCore_canonical | with_reducible apply commitBundle_canonical

theorem syllable_canonical {x0 x1 x2 x3} (h3 : x3.Canonical) :
    (syllable x0 x1 x2 x3).Canonical := by
  grind only [syllable, preciseTrap_canonical, onCore_canonical, runBundle_canonical]

theorem retryHeld_canonical {x0 x1} (h1 : x1.Canonical) :
    (retryHeld x0 x1).Canonical := by
  grind only [retryHeld, runBundle_canonical]

end Sys2Proof.Machine
end

