-- ==== Sys2Proof/Laws/CanonicalBus.lean ====
section
/-! SUPPORT. Pins, the reference, the cascade, the press, the DMA and the bus: each named operation keeps a canonical state canonical. -/

namespace Sys2Proof.Machine

/-! ### Pins -/

theorem setPinBit_canonical {x0 x1 x2 x3 x4} (h4 : x4.Canonical) :
    (setPinBit x0 x1 x2 x3 x4).Canonical := by
  grind only [setPinBit, State.setBit_canonical]

theorem pinSource_canonical {x0 x1} (h1 : x1.Canonical) :
    (pinSource x0 x1).Canonical := by
  grind only [pinSource, setLevel_canonical]

theorem setPinFlag_canonical {x0 x1 x2} (h2 : x2.Canonical) :
    (setPinFlag x0 x1 x2).Canonical := by
  grind only [setPinFlag, pinSource_canonical, setPinBit_canonical]

theorem pinFollow_canonical {x0 x1} (h1 : x1.Canonical) :
    (pinFollow x0 x1).Canonical := by
  grind only [pinFollow, setPinFlag_canonical]

theorem pinsAfterReset_canonical {x0} (h0 : x0.Canonical) :
    (pinsAfterReset x0).Canonical := by
  grind only [pinsAfterReset, State.forN_canonical, setPinBit_canonical, pinSource_canonical]

theorem pinFiltered_canonical {x0 x1 x2 x3} (h3 : x3.Canonical) :
    (pinFiltered x0 x1 x2 x3).Canonical := by
  grind only [pinFiltered, State.wr_canonical, setPinFlag_canonical, pinFollow_canonical]

theorem onPins_canonical {x0 x1} (h1 : x1.Canonical) :
    (onPins x0 x1).Canonical := by
  grind only [onPins, mk_canonical, canonical_cells, canonical_latched, canonical_snap, canonical_params, canonical_mem, canonical_vat, canonical_flash, filter_rising, filter_wf, wf_nil, rising_nil]

theorem pinAccept_canonical {x0 x1 x2} (h2 : x2.Canonical) :
    (pinAccept x0 x1 x2).Canonical := by
  grind only [pinAccept, onPins_canonical, pinFiltered_canonical, filter_rising, filter_wf, wf_nil, rising_nil]

theorem pinSync_canonical {x0 x1 x2} (h2 : x2.Canonical) :
    (pinSync x0 x1 x2).Canonical := by
  grind only [pinSync, timerPins_canonical, State.wr_canonical]

theorem pinCfgWritten_canonical {x0 x1 x2} (h1 : x1.Canonical) (h2 : x2.Canonical) :
    (pinCfgWritten x0 x1 x2).Canonical := by
  grind only [pinCfgWritten, State.set1_canonical, onPins_canonical, pinFollow_canonical, filter_rising, filter_wf, wf_nil, rising_nil]

theorem pinFlagClear_canonical {x0 x1 x2} (h2 : x2.Canonical) :
    (pinFlagClear x0 x1 x2).Canonical := by
  grind only [pinFlagClear, State.forL_canonical, setPinFlag_canonical]

theorem pinDout_canonical {x0 x1 x2 x3} (h3 : x3.Canonical) :
    (pinDout x0 x1 x2 x3).Canonical := by
  grind only [pinDout, State.wr_canonical]

theorem pinWrite_canonical {x0 x1 x2 x3 x4} (h3 : ∀ y0, y0.Canonical → (x3 y0).Canonical) (h4 : x4.Canonical) :
    (pinWrite x0 x1 x2 x3 x4).Canonical := by
  grind only [pinWrite, writeIrs_canonical, droppedBy_canonical]

/-! ### Reference -/

theorem setRefRegs_canonical {x0 x1} (h1 : x1.Canonical) :
    (setRefRegs x0 x1).Canonical := by
  grind only [setRefRegs, State.wr_canonical]

theorem refApply_canonical {x0} (h0 : x0.Canonical) :
    (refApply x0).Canonical := by
  grind only [refApply, State.set1_canonical]

theorem newSetting_canonical {x0 x1} (h1 : x1.Canonical) :
    (newSetting x0 x1).Canonical := by
  grind only [newSetting, mk_canonical, canonical_cells, canonical_latched, canonical_snap, canonical_params, canonical_mem, canonical_vat, canonical_flash, State.clr_canonical, State.forL_canonical, lockRestart_canonical, raise_canonical, filter_rising, filter_wf, wf_nil, rising_nil]

theorem applySetting_canonical {x0} (h0 : x0.Canonical) :
    (applySetting x0).Canonical := by
  grind only [applySetting, newSetting_canonical, onCasc_canonical, setRefRegs_canonical]

theorem frameFlags_canonical {x0} (h0 : x0.Canonical) :
    (frameFlags x0).Canonical := by
  grind only [frameFlags, mk_canonical, canonical_cells, canonical_latched, canonical_snap, canonical_params, canonical_mem, canonical_vat, canonical_flash, State.wr_canonical, State.forN_canonical, onLink_canonical, onCasc_canonical, filter_rising, filter_wf, wf_nil, rising_nil]

theorem countSyncs_canonical {x0} (h0 : x0.Canonical) :
    (countSyncs x0).Canonical := by
  grind only [countSyncs, State.forL_canonical, onStream_canonical, filter_rising, filter_wf, wf_nil, rising_nil]

theorem lineTick_canonical {x0} (h0 : x0.Canonical) :
    (lineTick x0).Canonical := by
  grind only [lineTick, timerSource_canonical, State.forL_canonical, onCore_canonical, State.forN_canonical, onLink_canonical, filter_rising, filter_wf, wf_nil, rising_nil]

theorem refreshCounts_canonical {x0} (h0 : x0.Canonical) :
    (refreshCounts x0).Canonical := by
  grind only [refreshCounts, State.forL_canonical, showCounts_canonical, filter_rising, filter_wf, wf_nil, rising_nil]

theorem beamBegin_canonical {x0} (h0 : x0.Canonical) :
    (beamBegin x0).Canonical := by
  grind only [beamBegin, State.clr_canonical, mk_canonical, canonical_cells, canonical_latched, canonical_snap, canonical_params, canonical_mem, canonical_vat, canonical_flash, onCasc_canonical, filter_rising, filter_wf, wf_nil, rising_nil]

/-! ### Cascade -/

theorem logOpen_canonical {x0 x1} (h1 : x1.Canonical) :
    (logOpen x0 x1).Canonical := by
  grind only [logOpen, State.fresh_canonical, logEvent_canonical]

theorem timeState_canonical {x0 x1} (h1 : x1.Canonical) :
    (timeState x0 x1).Canonical := by
  grind only [timeState, raise_canonical, State.wr_canonical, logOpen_canonical]

theorem linkState_canonical {x0 x1 x2} (h2 : x2.Canonical) :
    (linkState x0 x1 x2).Canonical := by
  grind only [linkState, raise_canonical, State.wr_canonical]

theorem onFeed_canonical {x0 x1 x2} (h2 : x2.Canonical) :
    (onFeed x0 x1 x2).Canonical := by
  grind only [onFeed, onCasc_canonical]

theorem feedLost_canonical {x0 x1} (h1 : x1.Canonical) :
    (feedLost x0 x1).Canonical := by
  grind only [feedLost, frameEnd_canonical, onFeed_canonical, State.wr_canonical]

theorem tunnelFails_canonical {x0 x1 x2} (h2 : x2.Canonical) :
    (tunnelFails x0 x1 x2).Canonical := by
  grind only [tunnelFails, onCasc_canonical, raise_canonical, State.inc_canonical]

theorem intrLost_canonical {x0} (h0 : x0.Canonical) :
    (intrLost x0).Canonical := by
  grind only [intrLost, onCasc_canonical, mk_canonical, canonical_cells, canonical_latched, canonical_snap, canonical_params, canonical_mem, canonical_vat, canonical_flash, deliver_canonical, State.forL_canonical, State.setPending_canonical, completeSource_canonical, filter_rising, filter_wf, wf_nil, rising_nil]

theorem linkLost_canonical {x0 x1 x2} (h2 : x2.Canonical) :
    (linkLost x0 x1 x2).Canonical := by
  grind only [linkLost, State.forL_canonical, feedLost_canonical, tunnelFails_canonical, intrLost_canonical, onLink_canonical, onAud_canonical, timeState_canonical, filter_rising, filter_wf, wf_nil, rising_nil]

theorem linkStop_canonical {x0 x1 x2} (h2 : x2.Canonical) :
    (linkStop x0 x1 x2).Canonical := by
  grind only [linkStop, linkLost_canonical, State.clr_canonical, linkState_canonical]

theorem stopSending_canonical {x0 x1} (h1 : x1.Canonical) :
    (stopSending x0 x1).Canonical := by
  grind only [stopSending, State.clr_canonical, raise_canonical, logOpen_canonical, fwCommit_canonical, latchOff_canonical]

theorem readmit_canonical {x0 x1 x2} (h2 : x2.Canonical) :
    (readmit x0 x1 x2).Canonical := by
  grind only [readmit, foldl_canonical, foldl_fst_canonical, foldl_snd_canonical, foldl_snd2_canonical, foldl_wf, put_wfP, stopSending_canonical, filter_rising, filter_wf, wf_nil, rising_nil]

theorem linkTrain_canonical {x0 x1} (h1 : x1.Canonical) :
    (linkTrain x0 x1).Canonical := by
  grind only [linkTrain, linkState_canonical]

theorem linkRetrain_canonical {x0 x1} (h1 : x1.Canonical) :
    (linkRetrain x0 x1).Canonical := by
  grind only [linkRetrain, linkState_canonical, State.inc_canonical, onLink_canonical, State.forL_canonical, upset_canonical]

theorem linkCtlWritten_canonical {x0 x1 x2} (h2 : x2.Canonical) :
    (linkCtlWritten x0 x1 x2).Canonical := by
  grind only [linkCtlWritten, linkStop_canonical, linkTrain_canonical, linkRetrain_canonical]

theorem intrReady_canonical {x0 x1} (h1 : x1.Canonical) :
    (intrReady x0 x1).Canonical := by
  grind only [intrReady, onCasc_canonical, State.forL_canonical, pushFlit_canonical]

theorem noteNak_canonical {x0 x1} (h1 : x1.Canonical) :
    (noteNak x0 x1).Canonical := by
  grind only [noteNak, onLink_canonical, filter_rising, filter_wf, wf_nil, rising_nil]

theorem controlWord_canonical {x0 x1 x2} (h2 : x2.Canonical) :
    (controlWord x0 x1 x2).Canonical := by
  grind only [controlWord, onLink_canonical, noteNak_canonical, filter_rising, filter_wf, wf_nil, rising_nil]

theorem discard_canonical {x0 x1} (h1 : x1.Canonical) :
    (discard x0 x1).Canonical := by
  grind only [discard, noteNak_canonical, onLink_canonical]

theorem flitRx_canonical {x0 x1 x2 x3 x4 x5} (h4 : ∀ y0, y0.Canonical → (x4 y0).Canonical) (h5 : x5.Canonical) :
    (flitRx x0 x1 x2 x3 x4 x5).Canonical := by
  grind only [flitRx, State.inc_canonical, discard_canonical, controlWord_canonical, onLink_canonical]

theorem forMe_canonical {x0 x1 x2 x3} (h2 : ∀ y0, y0.Canonical → (x2 y0).Canonical) (h3 : x3.Canonical) :
    (forMe x0 x1 x2 x3).Canonical := by
  grind only [forMe, pushFlit_canonical]

theorem exchange_canonical {x0 x1 x2 x3 x4 x5} (h5 : x5.Canonical) :
    (exchange x0 x1 x2 x3 x4 x5).Canonical := by
  grind only [exchange, State.wr_canonical, onCasc_canonical, timeState_canonical]

theorem stepTo_canonical {x0 x1 x2 x3 x4 x5} (h5 : x5.Canonical) :
    (stepTo x0 x1 x2 x3 x4 x5).Canonical := by
  grind only [stepTo, State.wr_canonical, setRefRegs_canonical, mk_canonical, canonical_cells, canonical_latched, canonical_snap, canonical_params, canonical_mem, canonical_vat, canonical_flash, onCasc_canonical, raise_canonical, State.inc_canonical, State.forL_canonical, lockRestart_canonical, filter_rising, filter_wf, wf_nil, rising_nil]

theorem feedWritten_canonical {x0 x1 x2 x3} (h3 : x3.Canonical) :
    (feedWritten x0 x1 x2 x3).Canonical := by
  grind only [feedWritten, State.clr_canonical, streamDisable_canonical, onFeed_canonical, State.wr_canonical, streamEnable_canonical, State.set1_canonical]

theorem feedLine_canonical {x0 x1} (h1 : x1.Canonical) :
    (feedLine x0 x1).Canonical := by
  grind only [feedLine, State.inc_canonical, raise_canonical, streamLine_canonical, onFeed_canonical]

theorem feedSkip_canonical {x0 x1 x2 x3} (h3 : x3.Canonical) :
    (feedSkip x0 x1 x2 x3).Canonical := by
  fun_induction feedSkip x0 x1 x2 x3 <;> grind only [feedLine_canonical]

theorem feedLong_canonical {x0 x1 x2} (h2 : x2.Canonical) :
    (feedLong x0 x1 x2).Canonical := by
  grind only [feedLong, streamEvent_canonical, onStream_canonical, filter_rising, filter_wf, wf_nil, rising_nil]

theorem feedOrphan_canonical {x0 x1 x2 x3} (h3 : x3.Canonical) :
    (feedOrphan x0 x1 x2 x3).Canonical := by
  grind only [feedOrphan, State.iff_canonical, State.inc_canonical, onFeed_canonical]

theorem lineRx_canonical {x0 x1 x2 x3 x4 x5 x6 x7 x8} (h8 : x8.Canonical) :
    (lineRx x0 x1 x2 x3 x4 x5 x6 x7 x8).Canonical := by
  grind only [lineRx, State.fresh_canonical, State.wr_canonical, onFeed_canonical, frameBegin_canonical, feedOrphan_canonical, feedSkip_canonical, feedLong_canonical, feedLine_canonical, frameFe_canonical]

theorem showPeerFifo_canonical {x0} (h0 : x0.Canonical) :
    (showPeerFifo x0).Canonical := by
  grind only [showPeerFifo, State.wr_canonical]

theorem popPeerFifo_canonical {x0} (h0 : x0.Canonical) :
    (popPeerFifo x0).Canonical := by
  grind only [popPeerFifo, showPeerFifo_canonical, onCasc_canonical]

theorem sendTo_canonical {x0 x1 x2} (h2 : x2.Canonical) :
    (sendTo x0 x1 x2).Canonical := by
  grind only [sendTo, pushFlit_canonical]

theorem intrRx_canonical {x0 x1 x2 x3} (h3 : x3.Canonical) :
    (intrRx x0 x1 x2 x3).Canonical := by
  grind only [intrRx, deliver_canonical, completeSource_canonical, mk_canonical, canonical_cells, canonical_latched, canonical_snap, canonical_params, canonical_mem, canonical_vat, canonical_flash, raise_canonical, showPeerFifo_canonical, onCasc_canonical, State.inc_canonical, sendTo_canonical, filter_rising, filter_wf, wf_nil, rising_nil]

theorem audioPush_canonical {x0 x1 x2} (h2 : x2.Canonical) :
    (audioPush x0 x1 x2).Canonical := by
  grind only [audioPush, audOnce_canonical, State.inc_canonical, onAud_canonical]

/-! ### Press -/

theorem onPress_canonical {x0 x1 x2} (h2 : x2.Canonical) :
    (onPress x0 x1 x2).Canonical := by
  grind only [onPress, mk_canonical, canonical_cells, canonical_latched, canonical_snap, canonical_params, canonical_mem, canonical_vat, canonical_flash, filter_rising, filter_wf, wf_nil, rising_nil]

theorem pressHalt_canonical {x0 x1 x2} (h2 : x2.Canonical) :
    (pressHalt x0 x1 x2).Canonical := by
  grind only [pressHalt, State.wr_canonical, State.clr_canonical, onPress_canonical, raise_canonical]

theorem pressStart_canonical {x0 x1 x2} (h2 : x2.Canonical) :
    (pressStart x0 x1 x2).Canonical := by
  grind only [pressStart, raise_canonical, State.inc_canonical, State.clr_canonical, State.wr_canonical, State.incWrap_canonical, onPress_canonical]

theorem pressStage_canonical {x0 x1 x2} (h2 : x2.Canonical) :
    (pressStage x0 x1 x2).Canonical := by
  grind only [pressStage, State.wr_canonical]

theorem pReads_canonical {x0 x1 x2} (h2 : x2.Canonical) :
    (pReads x0 x1 x2).2.Canonical := by
  fun_induction pReads x0 x1 x2 <;> grind only [memRead_canonical]

theorem pWrites_canonical {x0 x1 x2 x3} (h3 : x3.Canonical) :
    (pWrites x0 x1 x2 x3).2.Canonical := by
  fun_induction pWrites x0 x1 x2 x3 <;> grind only [memWrite_canonical]

theorem pChunk_canonical {x0 x1 x2 x3 x4} (h2 : x2.Canonical) (h4 : x4.Canonical) :
    (pChunk x0 x1 x2 x3 x4).2.Canonical := by
  grind only [pChunk, pReads_canonical, pWrites_canonical]

theorem pRun_canonical {x0 x1 x2 x3 x4 x5} (h2 : x2.Canonical) (h5 : x5.Canonical) :
    (pRun x0 x1 x2 x3 x4 x5).2.2.Canonical := by
  fun_induction pRun x0 x1 x2 x3 x4 x5 <;> grind only [pChunk_canonical]

theorem pEnd_canonical {x0 x1 x2 x3} (h3 : x3.Canonical) :
    (pEnd x0 x1 x2 x3).Canonical := by
  grind only [pEnd, onPress_canonical]

theorem pFailed_canonical {x0 x1 x2 x3 x4} (h4 : x4.Canonical) :
    (pFailed x0 x1 x2 x3 x4).Canonical := by
  grind only [pFailed, State.set1_canonical, State.wr_canonical, raise_canonical, pEnd_canonical]

theorem pressOp_canonical {x0 x1 x2 x3} (h3 : x3.Canonical) :
    (pressOp x0 x1 x2 x3).Canonical := by
  grind only [pressOp, pRun_canonical, pFailed_canonical, pEnd_canonical]

theorem pressFinish_canonical {x0 x1 x2} (h2 : x2.Canonical) :
    (pressFinish x0 x1 x2).Canonical := by
  grind only [pressFinish, memWrite_canonical, State.inc_canonical, pressHalt_canonical, State.incWrap_canonical, raise_canonical, onPress_canonical, State.wr_canonical]

theorem pressAbort_canonical {x0 x1} (h1 : x1.Canonical) :
    (pressAbort x0 x1).Canonical := by
  grind only [pressAbort, State.wr_canonical, pressHalt_canonical, State.inc_canonical, onPress_canonical, State.set1_canonical]

/-! ### DmaOps -/

theorem onDma_canonical {x0 x1 x2} (h2 : x2.Canonical) :
    (onDma x0 x1 x2).Canonical := by
  grind only [onDma, mk_canonical, canonical_cells, canonical_latched, canonical_snap, canonical_params, canonical_mem, canonical_vat, canonical_flash, filter_rising, filter_wf, wf_nil, rising_nil]

theorem dmaRaise_canonical {x0 x1} (h1 : x1.Canonical) :
    (dmaRaise x0 x1).Canonical := by
  grind only [dmaRaise, raise_canonical]

theorem dmaState_canonical {x0 x1 x2} (h2 : x2.Canonical) :
    (dmaState x0 x1 x2).Canonical := by
  grind only [dmaState, State.wr_canonical]

theorem dmaHalt_canonical {x0 x1 x2} (h2 : x2.Canonical) :
    (dmaHalt x0 x1 x2).Canonical := by
  grind only [dmaHalt, State.wr_canonical, dmaState_canonical, State.clr_canonical, dmaRaise_canonical, onDma_canonical]

theorem dmaStart_canonical {x0 x1 x2 x3} (h3 : x3.Canonical) :
    (dmaStart x0 x1 x2 x3).Canonical := by
  grind only [dmaStart, dmaRaise_canonical, State.inc_canonical, State.wr_canonical, State.clr_canonical, dmaState_canonical, onDma_canonical]

theorem dmaStage_canonical {x0 x1 x2} (h2 : x2.Canonical) :
    (dmaStage x0 x1 x2).Canonical := by
  grind only [dmaStage, State.wr_canonical]

theorem dmaStop_canonical {x0 x1} (h1 : x1.Canonical) :
    (dmaStop x0 x1).Canonical := by
  grind only [dmaStop, dmaHalt_canonical, dmaState_canonical, State.set1_canonical]

/-! ### Applied -/

theorem settle_canonical {x0 x1} (h1 : x1.Canonical) :
    (settle x0 x1).Canonical := by
  grind only [settle, latchOff_canonical]

theorem pipeApplied_canonical {x0 x1} (h1 : x1.Canonical) :
    (pipeApplied x0 x1).Canonical := by
  grind only [pipeApplied, pipeEnable_canonical, latchOff_canonical]

theorem lockApplied_canonical {x0 x1 x2} (h1 : x1.Canonical) (h2 : x2.Canonical) :
    (lockApplied x0 x1 x2).Canonical := by
  grind only [lockApplied, lockRestart_canonical, lockOff_canonical]

theorem portApplied_canonical {x0 x1 x2} (h1 : x1.Canonical) (h2 : x2.Canonical) :
    (portApplied x0 x1 x2).Canonical := by
  grind only [portApplied, portSends_canonical, portStart_canonical, State.wr_canonical, portStop_canonical, portRoute_canonical]

theorem planeApplied_canonical {x0 x1 x2} (h2 : x2.Canonical) :
    (planeApplied x0 x1 x2).Canonical := by
  grind only [planeApplied, settle_canonical, State.iff_canonical, paramBases_canonical, onPlane_canonical, planeLatch_canonical, joinLate_canonical]

theorem csiApplied_canonical {x0 x1 x2} (h1 : x1.Canonical) (h2 : x2.Canonical) :
    (csiApplied x0 x1 x2).Canonical := by
  grind only [csiApplied, csiEnable_canonical, csiDisable_canonical]

theorem streamApplied_canonical {x0 x1 x2} (h1 : x1.Canonical) (h2 : x2.Canonical) :
    (streamApplied x0 x1 x2).Canonical := by
  grind only [streamApplied, State.set1_canonical, streamEnable_canonical, streamDisable_canonical]

theorem fsyncApplied_canonical {x0 x1 x2} (h1 : x1.Canonical) (h2 : x2.Canonical) :
    (fsyncApplied x0 x1 x2).Canonical := by
  grind only [fsyncApplied, onStream_canonical]

theorem asrcApplied_canonical {x0 x1 x2} (h1 : x1.Canonical) (h2 : x2.Canonical) :
    (asrcApplied x0 x1 x2).Canonical := by
  grind only [asrcApplied, onAud_canonical, State.wr_canonical, State.clr_canonical]

theorem domApplied_canonical {x0 x1 x2} (h1 : x1.Canonical) (h2 : x2.Canonical) :
    (domApplied x0 x1 x2).Canonical := by
  grind only [domApplied, State.clr_canonical]

theorem linkAudioApplied_canonical {x0 x1 x2} (h1 : x1.Canonical) (h2 : x2.Canonical) :
    (linkAudioApplied x0 x1 x2).Canonical := by
  grind only [linkAudioApplied, linkRetrain_canonical, onAud_canonical, onLink_canonical]

theorem feedApplied_canonical {x0 x1 x2} (h1 : x1.Canonical) (h2 : x2.Canonical) :
    (feedApplied x0 x1 x2).Canonical := by
  grind only [feedApplied, feedWritten_canonical]

theorem cascApplied_canonical {x0 x1 x2} (h1 : x1.Canonical) (h2 : x2.Canonical) :
    (cascApplied x0 x1 x2).Canonical := by
  unfold cascApplied
  try dsimp only
  repeat' first | with_reducible assumption | split | with_reducible apply linkCtlWritten_canonical | with_reducible apply linkAudioApplied_canonical | with_reducible apply feedApplied_canonical

theorem audioApplied_canonical {x0 x1 x2} (h1 : x1.Canonical) (h2 : x2.Canonical) :
    (audioApplied x0 x1 x2).Canonical := by
  unfold audioApplied
  try dsimp only
  repeat' first | with_reducible assumption | split | with_reducible apply domApplied_canonical | with_reducible apply tdmCtlWritten_canonical | with_reducible apply asrcApplied_canonical | with_reducible apply runWritten_canonical

theorem timerApplied_canonical {x0 x1 x2 x3} (h2 : x2.Canonical) (h3 : x3.Canonical) :
    (timerApplied x0 x1 x2 x3).Canonical := by
  unfold timerApplied
  grind only [timerCtlWritten_canonical, timerLockWritten_canonical]

theorem regApplied_canonical {x0 x1 x2} (h1 : x1.Canonical) (h2 : x2.Canonical) :
    (regApplied x0 x1 x2).Canonical := by
  grind only [regApplied, deliver_canonical, lockApplied_canonical, pipeApplied_canonical, settle_canonical, portApplied_canonical, planeApplied_canonical, latchRange_canonical, State.wr_canonical, csiApplied_canonical, streamApplied_canonical, fsyncApplied_canonical, audioApplied_canonical, timerApplied_canonical, pinCfgWritten_canonical, cascApplied_canonical, runWritten_canonical]

/-! ### Bus -/

theorem writeReg_canonical {x0 x1 x2 x3 x4 x5} (h5 : x5.Canonical) :
    (writeReg x0 x1 x2 x3 x4 x5).Canonical := by
  grind only [writeReg, writeFlds_canonical, refApply_canonical, vatInitStart_canonical, State.iff_canonical, bankCommand_canonical, pipeCommit_canonical, pressStage_canonical, pressStart_canonical, pressAbort_canonical, dmaStage_canonical, dmaStart_canonical, dmaStop_canonical, gainWrite_canonical, playCtlWrite_canonical, timerWriteCmp_canonical, timerWriteCount_canonical, ringDoorbell_canonical, headWrite_canonical, dpPrefetch_canonical, pinDout_canonical, pinFlagClear_canonical, onPlane_canonical, regApplied_canonical]

theorem dropWrite_canonical {x0 x1 x2 x3} (h3 : x3.Canonical) :
    (dropWrite x0 x1 x2 x3).2.Canonical := by
  unfold dropWrite
  grind only [droppedBy_canonical]

theorem writeAt_canonical {x0 x1 x2 x3 x4 x5} (h5 : x5.Canonical) :
    (writeAt x0 x1 x2 x3 x4 x5).2.Canonical := by
  grind only [writeAt, decodeError_canonical, dropWrite_canonical, intcWrite_canonical, harpWrite_canonical, writeReg_canonical]

theorem regNow_canonical {x0 x1} (h1 : x1.Canonical) :
    (regNow x0 x1).2.Canonical := by
  grind only [regNow, State.fresh_canonical, bgtProgress_canonical, popPeerFifo_canonical, foldl_canonical, foldl_fst_canonical, foldl_snd_canonical, foldl_snd2_canonical, foldl_wf, put_wfP]

theorem takeShadow_canonical {x0 x1 x2} (h2 : x2.Canonical) :
    (takeShadow x0 x1 x2).2.Canonical := by
  grind only [takeShadow, mk_canonical, canonical_cells, canonical_latched, canonical_snap, canonical_params, canonical_mem, canonical_vat, canonical_flash, filter_rising, filter_wf, wf_nil, rising_nil]

theorem putShadow_canonical {x0 x1 x2 x3} (h3 : x3.Canonical) :
    (putShadow x0 x1 x2 x3).Canonical := by
  grind only [putShadow, takeShadow_canonical, mk_canonical, canonical_cells, canonical_latched, canonical_snap, canonical_params, canonical_mem, canonical_vat, canonical_flash, filter_rising, filter_wf, wf_nil, rising_nil]

theorem readWide_canonical {x0 x1 x2 x3} (h3 : x3.Canonical) :
    (readWide x0 x1 x2 x3).2.Canonical := by
  unfold readWide
  grind only [putShadow_canonical, takeShadow_canonical, regNow_canonical]

theorem readEpoch_canonical {x0 x1} (h1 : x1.Canonical) :
    (readEpoch x0 x1).2.Canonical := by
  grind only [readEpoch, takeShadow_canonical]

theorem readAt_canonical {x0 x1 x2 x3} (h3 : x3.Canonical) :
    ∀ p, readAt x0 x1 x2 x3 = some p → p.2.Canonical := by
  grind only [readAt, readEpoch_canonical, timerReadCount_canonical, timerReadCapture_canonical, readWide_canonical, regNow_canonical]

theorem areaPiece_canonical {x0 x1 x2 x3} (h3 : x3.Canonical) :
    (areaPiece x0 x1 x2 x3).Canonical := by
  grind only [areaPiece, State.setBytes_canonical, dropWrite_canonical]

theorem areaWrite_canonical {x0 x1 x2 x3} (h3 : x3.Canonical) :
    (areaWrite x0 x1 x2 x3).Canonical := by
  grind only [areaWrite, State.forL_canonical, areaPiece_canonical]

theorem irsWrite_canonical {x0 x1 x2 x3} (h3 : x3.Canonical) :
    (irsWrite x0 x1 x2 x3).2.Canonical := by
  grind only [irsWrite, areaWrite_canonical, decodeError_canonical, writeAt_canonical, foldl_canonical, foldl_fst_canonical, foldl_snd_canonical, foldl_snd2_canonical, foldl_wf, put_wfP]

theorem irsRead_canonical {x0 x1 x2 x3} (h3 : x3.Canonical) :
    (irsRead x0 x1 x2 x3).2.2.Canonical := by
  have hr : ∀ w o b s v t, s.Canonical → readAt w o b s = some (v, t) → t.Canonical := fun w o b s v t h e => readAt_canonical (x0 := w) (x1 := o) (x2 := b) h (v, t) e
  unfold irsRead
  repeat' split
  · exact h3
  · exact decodeError_canonical h3
  · exact hr _ _ _ _ _ _ h3 (by assumption)
  · exact decodeError_canonical h3
  · apply foldl_snd2_canonical h3
    intro p a h
    split
    · exact hr _ _ _ _ _ _ h (by assumption)
    · exact decodeError_canonical h

theorem busRead_canonical {x0 x1 x2 x3} (h3 : x3.Canonical) :
    (busRead x0 x1 x2 x3).2.2.Canonical := by
  unfold busRead
  try dsimp only
  repeat' first | with_reducible assumption | split | with_reducible apply decodeError_canonical | with_reducible apply memRead_canonical | with_reducible apply vatRead_canonical | with_reducible apply peerRead_canonical | with_reducible apply irsRead_canonical | with_reducible apply mk_canonical | with_reducible apply canonical_cells | with_reducible apply canonical_latched | with_reducible apply canonical_snap | with_reducible apply canonical_params | with_reducible apply canonical_mem | with_reducible apply canonical_vat | with_reducible apply canonical_flash | with_reducible apply filter_rising | with_reducible apply filter_wf | with_reducible apply wf_nil | with_reducible apply rising_nil

theorem busWrite_canonical {x0 x1 x2 x3} (h3 : x3.Canonical) :
    (busWrite x0 x1 x2 x3).2.Canonical := by
  unfold busWrite
  try dsimp only
  repeat' first | with_reducible assumption | split | with_reducible apply decodeError_canonical | with_reducible apply memWrite_canonical | with_reducible apply vatWrite_canonical | with_reducible apply peerWrite_canonical | with_reducible apply irsWrite_canonical | with_reducible apply State.setBytes_canonical | with_reducible apply mk_canonical | with_reducible apply canonical_cells | with_reducible apply canonical_latched | with_reducible apply canonical_snap | with_reducible apply canonical_params | with_reducible apply canonical_mem | with_reducible apply canonical_vat | with_reducible apply canonical_flash | with_reducible apply filter_rising | with_reducible apply filter_wf | with_reducible apply wf_nil | with_reducible apply rising_nil

end Sys2Proof.Machine
end

