-- ==== Sys2Proof/Laws/CanonicalParams.lean ====
section
/-! SUPPORT. Far accesses, the host port and the firmware parameters: each named operation keeps a canonical state canonical. -/

namespace Sys2Proof.Machine

/-! ### SyoftFar -/

theorem farLoadResponse_canonical {x0 x1} (h1 : x1.Canonical) :
    (farLoadResponse x0 x1).Canonical := by
  grind only [farLoadResponse, busRead_canonical, runBundle_canonical]

theorem storeAcked_canonical {x0 x1 x2 x3 x4} (h4 : x4.Canonical) :
    (storeAcked x0 x1 x2 x3 x4).Canonical := by
  grind only [storeAcked, retryHeld_canonical, onCore_canonical]

theorem farStoreAck_canonical {x0 x1} (h1 : x1.Canonical) :
    (farStoreAck x0 x1).Canonical := by
  grind only [farStoreAck, storeAcked_canonical, busWrite_canonical]

/-! ### CascadeMsg -/

theorem servePeerRead_canonical {x0 x1 x2 x3} (h3 : x3.Canonical) :
    (servePeerRead x0 x1 x2 x3).2.2.Canonical := by
  grind only [servePeerRead, busRead_canonical]

theorem servePeerWrite_canonical {x0 x1 x2 x3} (h3 : x3.Canonical) :
    (servePeerWrite x0 x1 x2 x3).2.Canonical := by
  grind only [servePeerWrite, foldl_canonical, foldl_fst_canonical, foldl_snd_canonical, foldl_snd2_canonical, foldl_wf, put_wfP, busWrite_canonical]

theorem tunnelAnswer_canonical {x0 x1 x2 x3 x4} (h4 : x4.Canonical) :
    (tunnelAnswer x0 x1 x2 x3 x4).Canonical := by
  grind only [tunnelAnswer, onCasc_canonical]

theorem msgRx_canonical {x0 x1 x2} (h2 : x2.Canonical) :
    (msgRx x0 x1 x2).Canonical := by
  unfold msgRx
  try dsimp only
  repeat' first | with_reducible assumption | split | with_reducible apply servePeerRead_canonical | with_reducible apply sendTo_canonical | with_reducible apply servePeerWrite_canonical | with_reducible apply tunnelAnswer_canonical

/-! ### Dma -/

theorem dmaBad_canonical {x0 x1 x2 x3} (h3 : x3.Canonical) :
    (dmaBad x0 x1 x2 x3).Canonical := by
  grind only [dmaBad, onDma_canonical, State.set1_canonical, State.wr_canonical]

theorem dmaGo_canonical {x0 x1} (h1 : x1.Canonical) :
    (dmaGo x0 x1).Canonical := by
  grind only [dmaGo, onDma_canonical, dmaState_canonical]

theorem dmaChecked_canonical {x0 x1 x2} (h2 : x2.Canonical) :
    (dmaChecked x0 x1 x2).Canonical := by
  grind only [dmaChecked, onDma_canonical, State.inc_canonical, dmaState_canonical, dmaGo_canonical, dmaBad_canonical]

theorem dmaLost_canonical {x0 x1 x2} (h2 : x2.Canonical) :
    (dmaLost x0 x1 x2).Canonical := by
  grind only [dmaLost, dmaHalt_canonical, State.wr_canonical]

theorem dmaReadBeat_canonical {x0 x1 x2} (h2 : x2.Canonical) :
    (dmaReadBeat x0 x1 x2).2.2.Canonical := by
  grind only [dmaReadBeat, foldl_canonical, foldl_fst_canonical, foldl_snd_canonical, foldl_snd2_canonical, foldl_wf, put_wfP, busRead_canonical]

theorem dmaFetch_canonical {x0 x1} (h1 : x1.Canonical) :
    (dmaFetch x0 x1).Canonical := by
  grind only [dmaFetch, dmaReadBeat_canonical, dmaLost_canonical, dmaChecked_canonical]

theorem dmaWriteBeat_canonical {x0 x1 x2 x3} (h3 : x3.Canonical) :
    (dmaWriteBeat x0 x1 x2 x3).2.Canonical := by
  grind only [dmaWriteBeat, foldl_canonical, foldl_fst_canonical, foldl_snd_canonical, foldl_snd2_canonical, foldl_wf, put_wfP, busWrite_canonical]

theorem dmaBeats_canonical {x0 x1 x2 x3 x4 x5} (h5 : x5.Canonical) :
    (dmaBeats x0 x1 x2 x3 x4 x5).2.Canonical := by
  fun_induction dmaBeats x0 x1 x2 x3 x4 x5 <;> grind only [dmaReadBeat_canonical, dmaWriteBeat_canonical]

theorem dmaMove_canonical {x0 x1 x2} (h2 : x2.Canonical) :
    (dmaMove x0 x1 x2).Canonical := by
  grind only [dmaMove, dmaBeats_canonical, dmaBad_canonical]

theorem dmaComplete_canonical {x0 x1} (h1 : x1.Canonical) :
    (dmaComplete x0 x1).Canonical := by
  grind only [dmaComplete, dmaHalt_canonical, State.incWrap_canonical, State.wr_canonical, State.iff_canonical, dmaRaise_canonical, onDma_canonical]

theorem dmaFinish_canonical {x0 x1 x2} (h2 : x2.Canonical) :
    (dmaFinish x0 x1 x2).Canonical := by
  grind only [dmaFinish, busWrite_canonical, dmaComplete_canonical, State.iff_canonical, State.inc_canonical]

theorem dmaRest_canonical {x0 x1} (h1 : x1.Canonical) :
    (dmaRest x0 x1).Canonical := by
  grind only [dmaRest, dmaFinish_canonical, dmaMove_canonical]

theorem dmaLate_canonical {x0 x1 x2 x3} (h3 : x3.Canonical) :
    (dmaLate x0 x1 x2 x3).Canonical := by
  grind only [dmaLate, dmaLost_canonical, dmaMove_canonical, dmaFinish_canonical, dmaBad_canonical, dmaReadBeat_canonical, dmaWriteBeat_canonical]

/-! ### HifPort -/

theorem dpError_canonical {x0 x1 x2} (h2 : x2.Canonical) :
    (dpError x0 x1 x2).Canonical := by
  grind only [dpError, raise_canonical, State.wr_canonical, State.inc_canonical]

theorem dpAdvance_canonical {x0 x1} (h1 : x1.Canonical) :
    (dpAdvance x0 x1).Canonical := by
  grind only [dpAdvance, State.wr_canonical]

theorem dpWriteUnits_canonical {x0 x1 x2 x3 x4 x5} (h5 : x5.Canonical) :
    (dpWriteUnits x0 x1 x2 x3 x4 x5).Canonical := by
  fun_induction dpWriteUnits x0 x1 x2 x3 x4 x5 <;> grind only [busWrite_canonical, dpError_canonical]

theorem dpReadUnits_canonical {x0 x1 x2 x3 x4} (h4 : x4.Canonical) :
    (dpReadUnits x0 x1 x2 x3 x4).2.Canonical := by
  fun_induction dpReadUnits x0 x1 x2 x3 x4 <;> grind only [busRead_canonical, dpError_canonical]

theorem dpWrite_canonical {x0 x1 x2 x3} (h3 : x3.Canonical) :
    (dpWrite x0 x1 x2 x3).Canonical := by
  grind only [dpWrite, dpAdvance_canonical, dpError_canonical, dpWriteUnits_canonical]

theorem dpReadData_canonical {x0 x1 x2 x3} (h3 : x3.Canonical) :
    (dpReadData x0 x1 x2 x3).2.Canonical := by
  grind only [dpReadData, dpError_canonical, dpReadUnits_canonical]

theorem dpWrites_canonical {x0 x1 x2 x3 x4} (h4 : x4.Canonical) :
    (dpWrites x0 x1 x2 x3 x4).Canonical := by
  fun_induction dpWrites x0 x1 x2 x3 x4 <;> grind only [dpWrite_canonical]

theorem dpReads_canonical {x0 x1 x2 x3 x4} (h4 : x4.Canonical) :
    (dpReads x0 x1 x2 x3 x4).2.Canonical := by
  fun_induction dpReads x0 x1 x2 x3 x4 <;> grind only [dpAdvance_canonical, dpReadData_canonical]

theorem keepRead_canonical {x0 x1} (h1 : x1.Canonical) :
    (keepRead x0 x1).Canonical := by
  grind only [keepRead, mk_canonical, canonical_cells, canonical_latched, canonical_snap, canonical_params, canonical_mem, canonical_vat, canonical_flash, filter_rising, filter_wf, wf_nil, rising_nil]

theorem windowWrite_canonical {x0 x1 x2 x3} (h3 : x3.Canonical) :
    (windowWrite x0 x1 x2 x3).Canonical := by
  grind only [windowWrite, dpWrites_canonical]

theorem portWrite_canonical {x0 x1 x2 x3} (h3 : x3.Canonical) :
    (portWrite x0 x1 x2 x3).Canonical := by
  grind only [portWrite, withPeerElse_canonical, dpWaits_canonical, passBells_canonical, windowWrite_canonical]

theorem windowRead_canonical {x0 x1 x2 x3} (h3 : x3.Canonical) :
    (windowRead x0 x1 x2 x3).Canonical := by
  grind only [windowRead, keepRead_canonical, dpReads_canonical, dpAdvance_canonical, State.clr_canonical, mk_canonical, canonical_cells, canonical_latched, canonical_snap, canonical_params, canonical_mem, canonical_vat, canonical_flash, dpError_canonical, filter_rising, filter_wf, wf_nil, rising_nil]

theorem prefetchReady_canonical {x0 x1} (h1 : x1.Canonical) :
    (prefetchReady x0 x1).Canonical := by
  grind only [prefetchReady, dpReadData_canonical, State.set1_canonical, mk_canonical, canonical_cells, canonical_latched, canonical_snap, canonical_params, canonical_mem, canonical_vat, canonical_flash, filter_rising, filter_wf, wf_nil, rising_nil]

theorem barRead_canonical {x0 x1 x2 x3} (h3 : x3.Canonical) :
    (barRead x0 x1 x2 x3).Canonical := by
  unfold barRead
  try dsimp only
  repeat' first | with_reducible assumption | split | with_reducible apply windowRead_canonical | with_reducible apply keepRead_canonical | with_reducible apply irsRead_canonical

theorem barWrite_canonical {x0 x1 x2 x3 x4} (h4 : x4.Canonical) :
    (barWrite x0 x1 x2 x3 x4).Canonical := by
  unfold barWrite
  try dsimp only
  repeat' first | with_reducible assumption | split | with_reducible apply portWrite_canonical | with_reducible apply areaWrite_canonical | with_reducible apply irsWrite_canonical | with_reducible apply droppedWrite_canonical

theorem xspiRead_canonical {x0 x1 x2} (h2 : x2.Canonical) :
    (xspiRead x0 x1 x2).Canonical := by
  grind only [xspiRead, barRead_canonical]

theorem xspiWrite_canonical {x0 x1 x2} (h2 : x2.Canonical) :
    (xspiWrite x0 x1 x2).Canonical := by
  grind only [xspiWrite, barWrite_canonical]

theorem flushAll_canonical {x0 x1} (h1 : x1.Canonical) :
    (flushAll x0 x1).Canonical := by
  grind only [flushAll, State.forN_canonical, flushHeld_canonical]

/-! ### Admit -/

theorem State.view_canonical {x0} (h0 : x0.Canonical) :
    (State.view x0).Canonical := by
  grind only [State.view, mk_canonical, canonical_cells, canonical_latched, canonical_snap, canonical_params, canonical_mem, canonical_vat, canonical_flash, filter_rising, filter_wf, wf_nil, rising_nil]

/-! ### Params -/

theorem setRegPart_canonical {x0 x1 x2 x3} (h3 : x3.Canonical) :
    (setRegPart x0 x1 x2 x3).Canonical := by
  grind only [setRegPart, writeFlds_canonical, filter_rising, filter_wf, wf_nil, rising_nil]

theorem setBlob_canonical {x0 x1 x2} (h2 : x2.Canonical) :
    (setBlob x0 x1 x2).Canonical := by
  grind only [setBlob, State.forL_canonical, setRegPart_canonical]

theorem setParam_canonical {x0 x1 x2} (h2 : x2.Canonical) :
    (setParam x0 x1 x2).Canonical := by
  grind only [setParam, State.forL_canonical, State.wr_canonical, setRegPart_canonical, State.setPrm_canonical, foldl_canonical, foldl_fst_canonical, foldl_snd_canonical, foldl_snd2_canonical, foldl_wf, put_wfP]

theorem canStart_canonical {x0 x1} (h1 : x1.Canonical) :
    (canStart x0 x1).Canonical := by
  grind only [canStart, State.clr_canonical, State.wr_canonical]

theorem lockParam_canonical {x0 x1 x2} (h2 : x2.Canonical) :
    (lockParam x0 x1 x2).Canonical := by
  grind only [lockParam, lockOff_canonical, State.clr_canonical, lockApply_canonical, State.set1_canonical, lockRestart_canonical, State.wr_canonical]

theorem rasterParam_canonical {x0 x1 x2} (h2 : x2.Canonical) :
    (rasterParam x0 x1 x2).Canonical := by
  grind only [rasterParam, State.wr_canonical, lockParam_canonical]

theorem gainsSet_canonical {x0 x1 x2} (h2 : x2.Canonical) :
    (gainsSet x0 x1 x2).Canonical := by
  grind only [gainsSet, State.forN_canonical, gainWrite_canonical]

theorem runParam_canonical {x0 x1 x2 x3} (h2 : x2.Canonical) (h3 : x3.Canonical) :
    (runParam x0 x1 x2 x3).Canonical := by
  grind only [runParam, runWritten_canonical]

theorem recEffect_canonical {x0 x1 x2 x3 x4} (h1 : x1.Canonical) (h4 : x4.Canonical) :
    (recEffect x0 x1 x2 x3 x4).Canonical := by
  grind only [recEffect, mk_canonical, canonical_cells, canonical_latched, canonical_snap, canonical_params, canonical_mem, canonical_vat, canonical_flash, ringSet_canonical, logEvent_canonical, State.clr_canonical, canStart_canonical, updateFaultN_canonical, masking_canonical, deliver_canonical, State.wr_canonical, refApply_canonical, lockParam_canonical, rasterParam_canonical, onPlane_canonical, planeApplied_canonical, memWrite_canonical, pressAbort_canonical, dmaStop_canonical, gainsSet_canonical, gainWrite_canonical, playCtlWrite_canonical, setBlob_canonical, runParam_canonical, timerStartMask_canonical, timerStopMask_canonical, timerWriteCmp_canonical, timerWriteCount_canonical, pinDout_canonical, pinFlagClear_canonical, vatInitStart_canonical, bankCommand_canonical, State.forN_canonical, onCore_canonical, filter_rising, filter_wf, wf_nil, rising_nil]

theorem recStep_v_canonical {s src a r} (h : a.v.Canonical) : (recStep s src a r).v.Canonical := by
  unfold recStep
  dsimp only
  repeat' first | with_reducible exact h | split | with_reducible apply setBlob_canonical | with_reducible apply setParam_canonical

theorem recFold_canonical {s src a} {l : List (Rec × Nat)} (h : a.v.Canonical) : (l.foldl (recStep s src) a).v.Canonical := by
  induction l generalizing a with
  | nil => exact h
  | cons r t ih => exact ih (recStep_v_canonical h)

theorem applyRecs_canonical {x0 x1 x2} (h2 : x2.Canonical) :
    (applyRecs x0 x1 x2).2.2.Canonical := by
  have hv : ((x1.zipIdx.foldl (recStep x2 x0) ⟨x2, x2.hif.staging, [], none⟩).v).Canonical := recFold_canonical h2
  unfold applyRecs
  dsimp only
  generalize x1.zipIdx.foldl (recStep x2 x0) ⟨x2, x2.hif.staging, [], none⟩ = a at hv ⊢
  split
  · exact h2
  · refine State.forL_canonical (State.forL_canonical (State.forL_canonical (State.forL_canonical ?_ ?_) ?_) ?_) ?_
    all_goals grind only [mk_canonical, canonical_cells, canonical_latched, canonical_snap, canonical_params, canonical_mem, canonical_vat, canonical_flash, regApplied_canonical, recEffect_canonical, fwCommit_canonical]

end Sys2Proof.Machine
end

