-- ==== Sys2Proof/Laws/CanonicalSystem.lean ====
section
/-! SUPPORT. The services, the Cellar, the resets, power, boot and the self-test: each named operation keeps a canonical state canonical. -/

namespace Sys2Proof.Machine

/-! ### Package -/

theorem flashWrite_canonical {x0 x1 x2} (h2 : x2.Canonical) :
    (flashWrite x0 x1 x2).Canonical := by
  grind only [flashWrite, mk_canonical, canonical_cells, canonical_latched, canonical_snap, canonical_params, canonical_mem, canonical_vat, canonical_flash, putCells_wf, filter_rising, filter_wf, wf_nil, rising_nil]

theorem flashErase_canonical {x0 x1 x2} (h2 : x2.Canonical) :
    (flashErase x0 x1 x2).Canonical := by
  grind only [flashErase, mk_canonical, canonical_cells, canonical_latched, canonical_snap, canonical_params, canonical_mem, canonical_vat, canonical_flash, filter_rising, filter_wf, wf_nil, rising_nil]

/-! ### SvcOps -/

theorem onSvc_canonical {x0 x1} (h1 : x1.Canonical) :
    (onSvc x0 x1).Canonical := by
  grind only [onSvc, mk_canonical, canonical_cells, canonical_latched, canonical_snap, canonical_params, canonical_mem, canonical_vat, canonical_flash, filter_rising, filter_wf, wf_nil, rising_nil]

theorem setSvc_canonical {x0 x1 x2} (h2 : x2.Canonical) :
    (setSvc x0 x1 x2).Canonical := by
  grind only [setSvc, State.wr_canonical, onSvc_canonical, notify_canonical, logEvent_canonical, filter_rising, filter_wf, wf_nil, rising_nil]

theorem svcTake_canonical {x0 x1} (h1 : x1.Canonical) :
    (svcTake x0 x1).Canonical := by
  grind only [svcTake, onSvc_canonical, filter_rising, filter_wf, wf_nil, rising_nil]

theorem svcApply_canonical {x0 x1 x2} (h2 : x2.Canonical) :
    (svcApply x0 x1 x2).2.Canonical := by
  grind only [svcApply, mk_canonical, canonical_cells, canonical_latched, canonical_snap, canonical_params, canonical_mem, canonical_vat, canonical_flash, applyRecs_canonical, State.iff_canonical, State.setPrm_canonical, filter_rising, filter_wf, wf_nil, rising_nil]

theorem chimeStart_canonical {x0 x1 x2 x3} (h3 : x3.Canonical) :
    (chimeStart x0 x1 x2 x3).Canonical := by
  grind only [chimeStart, State.wr_canonical, playCtlWrite_canonical, gainWrite_canonical, onSvc_canonical, filter_rising, filter_wf, wf_nil, rising_nil]

theorem chimeYield_canonical {x0 x1 x2 x3} (h3 : x3.Canonical) :
    (chimeYield x0 x1 x2 x3).Canonical := by
  grind only [chimeYield, gainWrite_canonical, onSvc_canonical]

theorem chimeRequest_canonical {x0 x1 x2} (h2 : x2.Canonical) :
    (chimeRequest x0 x1 x2).Canonical := by
  grind only [chimeRequest, chimeYield_canonical, chimeStart_canonical, logEvent_canonical, filter_rising, filter_wf, wf_nil, rising_nil]

theorem chimeRoutes_canonical {x0} (h0 : x0.Canonical) :
    (chimeRoutes x0).Canonical := by
  grind only [chimeRoutes, State.forL_canonical, State.wr_canonical]

theorem onTt_canonical {x0 x1 x2} (h2 : x2.Canonical) :
    (onTt x0 x1 x2).Canonical := by
  grind only [onTt, onSvc_canonical]

theorem showValid_canonical {x0 x1} (h1 : x1.Canonical) :
    (showValid x0 x1).Canonical := by
  grind only [showValid, State.forL_canonical, State.setBit_canonical]

theorem cellRow_canonical {x0 x1 x2 x3 x4} (h4 : x4.Canonical) :
    (cellRow x0 x1 x2 x3 x4).Canonical := by
  grind only [cellRow, memRead_canonical, memWrite_canonical]

theorem ttWrite_canonical {x0 x1 x2} (h2 : x2.Canonical) :
    (ttWrite x0 x1 x2).Canonical := by
  grind only [ttWrite, State.forL_canonical, cellRow_canonical, onTt_canonical, State.setBit_canonical, chimeRequest_canonical]

theorem writeTelltales_canonical {x0 x1} (h1 : x1.Canonical) :
    (writeTelltales x0 x1).Canonical := by
  grind only [writeTelltales, State.forL_canonical, ttWrite_canonical]

theorem rearApply_canonical {x0} (h0 : x0.Canonical) :
    (rearApply x0).Canonical := by
  unfold rearApply
  split
  · exact h0
  · refine State.forL_canonical h0 ?_
    intro n s h
    split
    · exact h
    · have hw : ∀ o b, (regApplied o s (s.wr (F.planeCfg_EN n) b)).Canonical :=
        fun o b => regApplied_canonical h (State.wr_canonical h)
      dsimp only
      split
      · exact fwCommit_canonical (hw _ _)
      · exact hw _ _

theorem applyRequest_canonical {x0 x1 x2} (h2 : x2.Canonical) :
    (applyRequest x0 x1 x2).2.2.Canonical := by
  grind only [applyRequest, applyRecs_canonical, State.iff_canonical, rearApply_canonical]

theorem notifySignal_canonical {x0 x1 x2} (h2 : x2.Canonical) :
    (notifySignal x0 x1 x2).Canonical := by
  grind only [notifySignal, State.forL_canonical, notify_canonical, filter_rising, filter_wf, wf_nil, rising_nil]

theorem signalSet_canonical {x0 x1 x2} (h2 : x2.Canonical) :
    (signalSet x0 x1 x2).Canonical := by
  grind only [signalSet, onSvc_canonical, showValid_canonical, notifySignal_canonical, State.forL_canonical, onTt_canonical, rearApply_canonical]

theorem handBack_canonical {x0 x1} (h1 : x1.Canonical) :
    (handBack x0 x1).Canonical := by
  grind only [handBack, State.forL_canonical, svcApply_canonical, onSvc_canonical, setSvc_canonical, filter_rising, filter_wf, wf_nil, rising_nil]

theorem hostAbsent_canonical {x0 x1} (h1 : x1.Canonical) :
    (hostAbsent x0 x1).Canonical := by
  grind only [hostAbsent, logEvent_canonical, handBack_canonical, State.clr_canonical]

/-! ### Serve -/

theorem settleRings_canonical {x0} (h0 : x0.Canonical) :
    (settleRings x0).Canonical := by
  grind only [settleRings, State.forN_canonical, flushHeld_canonical]

theorem finish_canonical {x0 x1 x2 x3 x4 x5} (h5 : x5.Canonical) :
    (finish x0 x1 x2 x3 x4 x5).Canonical := by
  grind only [finish, settleRings_canonical, complete_canonical]

theorem answer_canonical {x0 x1 x2 x3} (h1 : ∀ y0 y1 y2, y2.Canonical → (x1 y0 y1 y2).2.Canonical) (h3 : x3.Canonical) :
    (answer x0 x1 x2 x3).Canonical := by
  grind only [answer, settleRings_canonical, refuse_canonical, finish_canonical, mk_canonical, canonical_cells, canonical_latched, canonical_snap, canonical_params, canonical_mem, canonical_vat, canonical_flash, filter_rising, filter_wf, wf_nil, rising_nil]

theorem withArea_canonical {x0 x1 x2} (h1 : ∀ y0, y0.Canonical → (x1 y0).Canonical) (h2 : x2.Canonical) :
    (withArea x0 x1 x2).Canonical := by
  grind only [withArea, State.setBytes_canonical]

theorem serveWith_canonical {x0 x1 x2 x3 x4 x5 x6} (h0 : ∀ y0, y0.Canonical → (x0 y0).Canonical) (h5 : ∀ y0 y1 y2, y2.Canonical → (x5 y0 y1 y2).2.Canonical) (h6 : x6.Canonical) :
    (serveWith x0 x1 x2 x3 x4 x5 x6).Canonical := by
  grind only [serveWith, serveUnknown_canonical, withArea_canonical, answer_canonical, mk_canonical, canonical_cells, canonical_latched, canonical_snap, canonical_params, canonical_mem, canonical_vat, canonical_flash, filter_rising, filter_wf, wf_nil, rising_nil]

theorem serveSub_canonical {x0 x1 x2 x3 x4 x5} (h4 : ∀ y0 y1 y2, y2.Canonical → (x4 y0 y1 y2).2.Canonical) (h5 : x5.Canonical) :
    (serveSub x0 x1 x2 x3 x4 x5).Canonical := serveWith_canonical (fun _ h => h) h4 h5

theorem serve_canonical {x0 x1 x2 x3} (h2 : ∀ y0 y1 y2, y2.Canonical → (x2 y0 y1 y2).2.Canonical) (h3 : x3.Canonical) :
    (serve x0 x1 x2 x3).Canonical := by
  grind only [serve, serveSub_canonical]

theorem reply_canonical {x0 x1} (h1 : x1.Canonical) :
    (reply x0 x1).2.Canonical := by
  grind only [reply]

theorem safeWrite_canonical {x0 x1 x2} (h2 : x2.Canonical) :
    (safeWrite x0 x1 x2).Canonical := by
  grind only [safeWrite, memWrite_canonical]

/-! ### Services -/

theorem logRejects_canonical {x0} (h0 : x0.Canonical) :
    (logRejects x0).Canonical := by
  grind only [logRejects, State.forN_canonical, logEvent_canonical]

theorem usePackage_canonical {x0 x1} (h1 : x1.Canonical) :
    (usePackage x0 x1).Canonical := by
  grind only [usePackage, State.wr_canonical, State.set1_canonical, onSvc_canonical]

theorem loadPiece_canonical {x0 x1 x2} (h2 : x2.Canonical) :
    (loadPiece x0 x1 x2).Canonical := by
  grind only [loadPiece, decodeError_canonical, busWrite_canonical]

theorem loadSections_canonical {x0} (h0 : x0.Canonical) :
    (loadSections x0).Canonical := by
  grind only [loadSections, State.forL_canonical, loadPiece_canonical, filter_rising, filter_wf, wf_nil, rising_nil]

theorem svcStart_canonical {x0 x1} (h1 : x1.Canonical) :
    (svcStart x0 x1).Canonical := by
  grind only [svcStart, svcApply_canonical, setSvc_canonical, onSvc_canonical, chimeRoutes_canonical, svcTake_canonical, State.wr_canonical, rearApply_canonical]

theorem startServices_canonical {x0 x1} (h1 : x1.Canonical) :
    (startServices x0 x1).Canonical := by
  grind only [startServices, State.forN_canonical, setSvc_canonical, State.forL_canonical, State.clr_canonical, svcStart_canonical, filter_rising, filter_wf, wf_nil, rising_nil]

theorem noPackage_canonical {x0} (h0 : x0.Canonical) :
    (noPackage x0).Canonical := by
  grind only [noPackage, State.forN_canonical, setSvc_canonical, State.clr_canonical, onSvc_canonical]

theorem svcResume_canonical {x0} (h0 : x0.Canonical) :
    (svcResume x0).Canonical := by
  grind only [svcResume, State.wr_canonical, onSvc_canonical]

theorem bootView_canonical {x0} (h0 : x0.Canonical) :
    (bootView x0).Canonical := by
  grind only [bootView, onSvc_canonical, noPackage_canonical, logRejects_canonical, logEvent_canonical, State.forN_canonical, usePackage_canonical, canStart_canonical, svcResume_canonical, startServices_canonical, loadSections_canonical]

theorem canCounts_canonical {x0 x1 x2 x3} (h3 : x3.Canonical) :
    (canCounts x0 x1 x2 x3).Canonical := by
  grind only [canCounts, State.wr_canonical]

theorem svcRelease_canonical {x0 x1} (h1 : x1.Canonical) :
    (svcRelease x0 x1).Canonical := by
  grind only [svcRelease, onSvc_canonical, setSvc_canonical, filter_rising, filter_wf, wf_nil, rising_nil]

theorem releaseFree_canonical {x0 x1} (h1 : x1.Canonical) :
    (releaseFree x0 x1).Canonical := by
  grind only [releaseFree, State.iff_canonical, writeTelltales_canonical, State.forL_canonical, svcRelease_canonical, onSvc_canonical, filter_rising, filter_wf, wf_nil, rising_nil]

theorem takeoverEnd_canonical {x0 x1} (h1 : x1.Canonical) :
    (takeoverEnd x0 x1).Canonical := by
  grind only [takeoverEnd, onSvc_canonical, filter_rising, filter_wf, wf_nil, rising_nil]

theorem svcBack_canonical {x0 x1} (h1 : x1.Canonical) :
    (svcBack x0 x1).Canonical := by
  grind only [svcBack, chimeRoutes_canonical, setSvc_canonical, svcTake_canonical, onSvc_canonical, rearApply_canonical]

/-! ### Cellar -/

theorem putDesc_canonical {x0 x1} (h1 : x1.Canonical) :
    (putDesc x0 x1).Canonical := by
  grind only [putDesc, flashWrite_canonical, flashErase_canonical]

theorem setSlotValid_canonical {x0 x1 x2} (h2 : x2.Canonical) :
    (setSlotValid x0 x1 x2).Canonical := by
  grind only [setSlotValid, putDesc_canonical]

theorem updateStage_canonical {x0 x1 x2 x3} (h3 : x3.Canonical) :
    (updateStage x0 x1 x2 x3).2.Canonical := by
  grind only [updateStage, logEvent_canonical]

theorem raiseArb_canonical {x0 x1} (h1 : x1.Canonical) :
    (raiseArb x0 x1).Canonical := by
  grind only [raiseArb, onCellar, mk_canonical, canonical_cells, canonical_latched, canonical_snap, canonical_params, canonical_mem, canonical_vat, canonical_flash, State.wr_canonical]

theorem lifecycleServe_canonical {x0 x1 x2 x3} (h2 : ∀ y0 y1 y2, y2.Canonical → (x2 y0 y1 y2).2.Canonical) (h3 : x3.Canonical) :
    (lifecycleServe x0 x1 x2 x3).Canonical := by
  grind only [lifecycleServe, serveWith_canonical, onCellar, mk_canonical, canonical_cells, canonical_latched, canonical_snap, canonical_params, canonical_mem, canonical_vat, canonical_flash, logEvent_canonical]

theorem drawBytes_canonical {x0 x1} (h1 : x1.Canonical) :
    (drawBytes x0 x1).2.Canonical := by
  grind only [drawBytes, mk_canonical, canonical_cells, canonical_latched, canonical_snap, canonical_params, canonical_mem, canonical_vat, canonical_flash, filter_rising, filter_wf, wf_nil, rising_nil]

theorem enterLifecycle_canonical {x0 x1} (h1 : x1.Canonical) :
    (enterLifecycle x0 x1).Canonical := by
  unfold enterLifecycle
  grind only [onCellar, mk_canonical, canonical_cells, canonical_latched, canonical_snap, canonical_params, canonical_mem, canonical_vat, canonical_flash, State.wr_canonical, vatInitStart_canonical]

/-! ### Monitor -/

theorem levelAct_canonical {x0 x1 x2 x3 x4} (h4 : x4.Canonical) :
    (levelAct x0 x1 x2 x3 x4).Canonical := by
  grind only [levelAct, logEvent_canonical, raise_canonical, State.iff_canonical, notify_canonical]

theorem setRate_canonical {x0 x1} (h1 : x1.Canonical) :
    (setRate x0 x1).Canonical := by
  grind only [setRate, onCellar, mk_canonical, canonical_cells, canonical_latched, canonical_snap, canonical_params, canonical_mem, canonical_vat, canonical_flash, filter_rising, filter_wf, wf_nil, rising_nil]

theorem levelChange_canonical {x0 x1 x2 x3 x4 x5} (h5 : x5.Canonical) :
    (levelChange x0 x1 x2 x3 x4 x5).Canonical := by
  grind only [levelChange, setRate_canonical, levelAct_canonical]

theorem takeReadings_canonical {x0 x1} (h1 : x1.Canonical) :
    (takeReadings x0 x1).Canonical := by
  grind only [takeReadings, State.forL_canonical, State.wr_canonical, onCellar, mk_canonical, canonical_cells, canonical_latched, canonical_snap, canonical_params, canonical_mem, canonical_vat, canonical_flash]

theorem invalidate_canonical {x0 x1} (h1 : x1.Canonical) :
    (invalidate x0 x1).Canonical := by
  grind only [invalidate, onCellar, mk_canonical, canonical_cells, canonical_latched, canonical_snap, canonical_params, canonical_mem, canonical_vat, canonical_flash, State.clr_canonical, State.iff_canonical, upset_canonical, logOpen_canonical]

theorem judgeReadings_canonical {x0} (h0 : x0.Canonical) :
    (judgeReadings x0).Canonical := by
  grind only [judgeReadings, State.iff_canonical, onCellar, mk_canonical, canonical_cells, canonical_latched, canonical_snap, canonical_params, canonical_mem, canonical_vat, canonical_flash, State.forN_canonical, State.wr_canonical, State.forL_canonical, invalidate_canonical, foldl_canonical, foldl_fst_canonical, foldl_snd_canonical, foldl_snd2_canonical, foldl_wf, put_wfP, voidBank_canonical, levelChange_canonical, filter_rising, filter_wf, wf_nil, rising_nil]

theorem owedClocks_canonical {x0} (h0 : x0.Canonical) :
    (owedClocks x0).Canonical := by
  grind only [owedClocks, State.forN_canonical, levelChange_canonical]

theorem tick100us_canonical {x0} (h0 : x0.Canonical) :
    (tick100us x0).Canonical := by
  grind only [tick100us, onCellar, mk_canonical, canonical_cells, canonical_latched, canonical_snap, canonical_params, canonical_mem, canonical_vat, canonical_flash, State.iff_canonical, State.incWrap_canonical]

theorem flushUnit_canonical {x0 x1} (h1 : x1.Canonical) :
    (flushUnit x0 x1).Canonical := by
  grind only [flushUnit, onCellar, mk_canonical, canonical_cells, canonical_latched, canonical_snap, canonical_params, canonical_mem, canonical_vat, canonical_flash, flashWrite_canonical, flashErase_canonical]

theorem flushLog_canonical {x0} (h0 : x0.Canonical) :
    (flushLog x0).Canonical := by
  grind only [flushLog, onCellar, mk_canonical, canonical_cells, canonical_latched, canonical_snap, canonical_params, canonical_mem, canonical_vat, canonical_flash, State.wr_canonical, State.forL_canonical, flushUnit_canonical]

/-! ### Resets -/

theorem plainReset_canonical {x0} (h0 : x0.Canonical) :
    (plainReset x0).Canonical := by
  grind only [plainReset, mk_canonical, canonical_cells, canonical_latched, canonical_snap, canonical_params, canonical_mem, canonical_vat, canonical_flash, filter_rising, filter_wf, wf_nil, rising_nil]

theorem blockRegs_canonical {x0 x1 x2 x3} (h3 : x3.Canonical) :
    (blockRegs x0 x1 x2 x3).Canonical := by
  grind only [blockRegs, mk_canonical, canonical_cells, canonical_latched, canonical_snap, canonical_params, canonical_mem, canonical_vat, canonical_flash, filter_rising, filter_wf, wf_nil, rising_nil]

theorem clearCore_canonical {x0 x1} (h1 : x1.Canonical) :
    (clearCore x0 x1).Canonical := by
  grind only [clearCore, onCore_canonical, clearService_canonical, onAudCore_canonical, showPc_canonical, setCoreState_canonical]

theorem clearCores_canonical {x0} (h0 : x0.Canonical) :
    (clearCores x0).Canonical := by
  grind only [clearCores, State.forN_canonical, clearCore_canonical, armCore_canonical]

theorem blockStop_canonical {x0 x1 x2} (h2 : x2.Canonical) :
    (blockStop x0 x1 x2).Canonical := by
  unfold blockStop
  grind only [State.iff_canonical, pipeDisable_canonical, planeLeave_canonical, State.forL_canonical, streamDisable_canonical, frameEnd_canonical, csiDisable_canonical, State.forN_canonical, State.clr_canonical, pressHalt_canonical, dmaHalt_canonical, linkStop_canonical, filter_rising, filter_wf, wf_nil, rising_nil]

theorem blockClear_canonical {x0 x1 x2} (h2 : x2.Canonical) :
    (blockClear x0 x1 x2).Canonical := by
  unfold blockClear
  grind only [State.forL_canonical, onPipe_canonical, blockRegs_canonical, State.clr_canonical, mk_canonical, canonical_cells, canonical_latched, canonical_snap, canonical_params, canonical_mem, canonical_vat, canonical_flash, State.wr_canonical, onPlane_canonical, State.reset_canonical, onStream_canonical, onRind_canonical, alertClear_canonical, onPress_canonical, onDma_canonical, clearCore_canonical, onAud_canonical, filter_rising, filter_wf, wf_nil, rising_nil]

theorem blockAfter_canonical {x0 x1 x2} (h2 : x2.Canonical) :
    (blockAfter x0 x1 x2).Canonical := by
  unfold blockAfter
  try dsimp only
  repeat' first | with_reducible assumption | split | with_reducible apply csiRetired_canonical | with_reducible apply linkTrain_canonical

theorem showHalt_canonical {x0 x1 x2 x3} (h2 : x2.Canonical) (h3 : x3.Canonical) :
    (showHalt x0 x1 x2 x3).Canonical := by
  grind only [showHalt, State.wr_canonical]

theorem blockReset_canonical {x0 x1 x2} (h2 : x2.Canonical) :
    (blockReset x0 x1 x2).Canonical := by
  grind only [blockReset, showHalt_canonical, blockAfter_canonical, blockClear_canonical, blockStop_canonical]

theorem untrim_canonical {x0 x1} (h1 : x1.Canonical) :
    (untrim x0 x1).Canonical := by
  grind only [untrim, State.forL_canonical, blockClear_canonical, State.wr_canonical, foldl_canonical, foldl_fst_canonical, foldl_snd_canonical, foldl_snd2_canonical, foldl_wf, put_wfP, State.iff_canonical, State.clr_canonical, linkTrain_canonical, csiRetired_canonical, filter_rising, filter_wf, wf_nil, rising_nil]

theorem untrimAll_canonical {x0} (h0 : x0.Canonical) :
    (untrimAll x0).Canonical := by
  grind only [untrimAll, untrim_canonical]

theorem logReset_canonical {x0 x1 x2} (h2 : x2.Canonical) :
    (logReset x0 x1 x2).Canonical := by
  grind only [logReset, logEvent_canonical, onCellar, mk_canonical, canonical_cells, canonical_latched, canonical_snap, canonical_params, canonical_mem, canonical_vat, canonical_flash]

theorem startChain_canonical {x0} (h0 : x0.Canonical) :
    (startChain x0).Canonical := by
  grind only [startChain, onCasc_canonical, timeState_canonical, State.wr_canonical, State.forL_canonical, linkTrain_canonical, filter_rising, filter_wf, wf_nil, rising_nil]

theorem targetMailboxes_canonical {x0} (h0 : x0.Canonical) :
    (targetMailboxes x0).Canonical := by
  grind only [targetMailboxes, deliver_canonical, State.forN_canonical, State.wr_canonical]

theorem discardRung_canonical {x0} (h0 : x0.Canonical) :
    (discardRung x0).Canonical := by
  grind only [discardRung, mk_canonical, canonical_cells, canonical_latched, canonical_snap, canonical_params, canonical_mem, canonical_vat, canonical_flash, filter_rising, filter_wf, wf_nil, rising_nil]

theorem hifReset_canonical {x0} (h0 : x0.Canonical) :
    (hifReset x0).Canonical := by
  grind only [hifReset, mk_canonical, canonical_cells, canonical_latched, canonical_snap, canonical_params, canonical_mem, canonical_vat, canonical_flash, filter_rising, filter_wf, wf_nil, rising_nil]

theorem mailboxesLost_canonical {x0} (h0 : x0.Canonical) :
    (mailboxesLost x0).Canonical := by
  grind only [mailboxesLost, hifReset_canonical, mk_canonical, canonical_cells, canonical_latched, canonical_snap, canonical_params, canonical_mem, canonical_vat, canonical_flash, filter_rising, filter_wf, wf_nil, rising_nil]

theorem endpointReset_canonical {x0} (h0 : x0.Canonical) :
    (endpointReset x0).Canonical := by
  grind only [endpointReset, State.clr_canonical, mk_canonical, canonical_cells, canonical_latched, canonical_snap, canonical_params, canonical_mem, canonical_vat, canonical_flash, filter_rising, filter_wf, wf_nil, rising_nil]

theorem softReset_canonical {x0} (h0 : x0.Canonical) :
    (softReset x0).Canonical := by
  grind only [softReset, deliver_canonical, clearCores_canonical, pinsAfterReset_canonical, plainReset_canonical, untrimAll_canonical]

theorem hostReset_canonical {x0 x1 x2} (h2 : x2.Canonical) :
    (hostReset x0 x1 x2).Canonical := by
  grind only [hostReset, softReset_canonical, endpointReset_canonical, hifReset_canonical, discardRung_canonical, mk_canonical, canonical_cells, canonical_latched, canonical_snap, canonical_params, canonical_mem, canonical_vat, canonical_flash, State.wr_canonical, State.inc_canonical, logReset_canonical, hostAbsent_canonical, filter_rising, filter_wf, wf_nil, rising_nil]

theorem restoreHealth_canonical {x0} (h0 : x0.Canonical) :
    (restoreHealth x0).Canonical := by
  grind only [restoreHealth, State.forL_canonical, setHealth_canonical, State.wr_canonical, State.clr_canonical, updateFaultN_canonical, mk_canonical, canonical_cells, canonical_latched, canonical_snap, canonical_params, canonical_mem, canonical_vat, canonical_flash, filter_rising, filter_wf, wf_nil, rising_nil]

theorem keepFlds_canonical {x0 x1 x2} (h1 : x1.Canonical) (h2 : x2.Canonical) :
    (keepFlds x0 x1 x2).Canonical := by
  grind only [keepFlds, State.forL_canonical, State.wr_canonical, filter_rising, filter_wf, wf_nil, rising_nil]

theorem restart_cells_rising {b : Bool} {s : State} (h : s.Canonical) :
    RisingP ((if b then s.cells.filter (fun c : Nat × Nat => c.1 < 2 ^ 30) else []) ++ State.reset.cells) := by
  have hf : RisingP (s.cells.filter fun c : Nat × Nat => c.1 < 2 ^ 30) := filter_rising h.cells
  cases b
  · exact State.reset_canonical.cells
  · show List.Pairwise _ _
    refine List.pairwise_append.2 ⟨hf, State.reset_canonical.cells, ?_⟩
    intro a ha c hc
    have h1 : a.1 < 2 ^ 30 := by simpa using (List.mem_filter.1 ha).2
    have h2 : c = (3 * 2 ^ 30 + 0x200000 * 64, 1) := by simpa [State.reset] using hc
    subst h2
    show a.1 < 3 * 2 ^ 30 + 0x200000 * 64
    omega

theorem restart_canonical {x0 x1} (h1 : x1.Canonical) :
    (restart x0 x1).Canonical := by
  unfold restart
  refine State.forL_canonical ?_ (fun _ _ h => State.wr_canonical h)
  have hr := State.reset_canonical
  refine mk_canonical (restart_cells_rising h1) hr.latched hr.snap ?_ hr.mem hr.vat h1.flash
  split
  · exact filter_rising h1.params
  · exact rising_nil

theorem showFuses_canonical {x0} (h0 : x0.Canonical) :
    (showFuses x0).Canonical := by
  grind only [showFuses, State.wr_canonical]

theorem restoreLog_canonical {x0} (h0 : x0.Canonical) :
    (restoreLog x0).Canonical := by
  grind only [restoreLog, State.set1_canonical, State.wr_canonical]

theorem sampleStraps_canonical {x0 x1 x2} (h2 : x2.Canonical) :
    (sampleStraps x0 x1 x2).Canonical := by
  grind only [sampleStraps, State.wr_canonical]

theorem coldStart_canonical {x0 x1 x2 x3} (h3 : x3.Canonical) :
    (coldStart x0 x1 x2 x3).Canonical := by
  grind only [coldStart, sampleStraps_canonical, restoreLog_canonical, showFuses_canonical, onCellar, mk_canonical, canonical_cells, canonical_latched, canonical_snap, canonical_params, canonical_mem, canonical_vat, canonical_flash, logReset_canonical, restoreHealth_canonical, State.wr_canonical]

theorem cellarRestart_canonical {x0} (h0 : x0.Canonical) :
    (cellarRestart x0).Canonical := by
  grind only [cellarRestart, onCore_canonical, clearService_canonical, onCellar, mk_canonical, canonical_cells, canonical_latched, canonical_snap, canonical_params, canonical_mem, canonical_vat, canonical_flash]

theorem saveRecord_canonical {x0} (h0 : x0.Canonical) :
    (saveRecord x0).Canonical := by
  grind only [saveRecord, onSvc_canonical]

theorem warmReset_canonical {x0} (h0 : x0.Canonical) :
    (warmReset x0).Canonical := by
  grind only [warmReset, cellarRestart_canonical, saveRecord_canonical, softReset_canonical, mailboxesLost_canonical, mk_canonical, canonical_cells, canonical_latched, canonical_snap, canonical_params, canonical_mem, canonical_vat, canonical_flash, State.clr_canonical, logReset_canonical, State.wr_canonical, State.inc_canonical, filter_rising, filter_wf, wf_nil, rising_nil]

theorem keepEpc_canonical {x0 x1} (h0 : x0.Canonical) (h1 : x1.Canonical) :
    (keepEpc x0 x1).Canonical := by
  grind only [keepEpc, onCellar, mk_canonical, canonical_cells, canonical_latched, canonical_snap, canonical_params, canonical_mem, canonical_vat, canonical_flash]

theorem keepVat_canonical {x0 x1} (h0 : x0.Canonical) (h1 : x1.Canonical) :
    (keepVat x0 x1).Canonical := by
  grind only [keepVat, keepFlds_canonical, mk_canonical, canonical_cells, canonical_latched, canonical_snap, canonical_params, canonical_mem, canonical_vat, canonical_flash, filter_rising, filter_wf, wf_nil, rising_nil]

theorem wdtReset_canonical {x0 x1} (h1 : x1.Canonical) :
    (wdtReset x0 x1).Canonical := by
  unfold wdtReset
  grind only [restart_canonical, mk_canonical, canonical_cells, canonical_latched, canonical_snap, canonical_params, canonical_mem, canonical_vat, canonical_flash, keepFlds_canonical, keepVat_canonical, State.wr_canonical, State.set1_canonical, restoreHealth_canonical, keepEpc_canonical, State.inc_canonical, logReset_canonical, onCellar, filter_rising, filter_wf, wf_nil, rising_nil]

/-! ### Power -/

theorem trimStop_canonical {x0 x1} (h1 : x1.Canonical) :
    (trimStop x0 x1).Canonical := by
  unfold trimStop
  try dsimp only
  repeat' first | with_reducible assumption | split | with_reducible apply State.forL_canonical | with_reducible apply portStop_canonical | with_reducible apply csiDisable_canonical | with_reducible apply State.set1_canonical | with_reducible apply linkStop_canonical | with_reducible apply filter_rising | with_reducible apply filter_wf | with_reducible apply wf_nil | with_reducible apply rising_nil

theorem setTrims_canonical {x0 x1} (h1 : x1.Canonical) :
    (setTrims x0 x1).Canonical := by
  grind only [setTrims, untrim_canonical, State.forL_canonical, trimStop_canonical, State.wr_canonical, filter_rising, filter_wf, wf_nil, rising_nil]

theorem pipeHalt_canonical {x0 x1} (h1 : x1.Canonical) :
    (pipeHalt x0 x1).Canonical := by
  grind only [pipeHalt, State.clr_canonical, lockOff_canonical, onPipe_canonical, State.forL_canonical, onPlane_canonical, onHarp_canonical, onRind_canonical, alertClear_canonical]

theorem stopUnits_canonical {x0} (h0 : x0.Canonical) :
    (stopUnits x0).Canonical := by
  grind only [stopUnits, State.forL_canonical, pipeHalt_canonical, portStop_canonical, State.forN_canonical, frameEnd_canonical, csiDisable_canonical, linkStop_canonical, filter_rising, filter_wf, wf_nil, rising_nil]

theorem banksP3_canonical {x0} (h0 : x0.Canonical) :
    (banksP3 x0).Canonical := by
  grind only [banksP3, State.forN_canonical, bankP3_canonical]

theorem enterState_canonical {x0 x1} (h1 : x1.Canonical) :
    (enterState x0 x1).Canonical := by
  grind only [enterState, logEvent_canonical, stopUnits_canonical, mk_canonical, canonical_cells, canonical_latched, canonical_snap, canonical_params, canonical_mem, canonical_vat, canonical_flash, State.wr_canonical, State.clr_canonical, State.iff_canonical, onCellar, banksP3_canonical, State.forN_canonical, wakeRequest_canonical, filter_rising, filter_wf, wf_nil, rising_nil]

theorem startTest_canonical {x0 x1} (h1 : x1.Canonical) :
    (startTest x0 x1).Canonical := by
  grind only [startTest, stopUnits_canonical, mk_canonical, canonical_cells, canonical_latched, canonical_snap, canonical_params, canonical_mem, canonical_vat, canonical_flash, State.wr_canonical, State.clr_canonical, filter_rising, filter_wf, wf_nil, rising_nil]

theorem retrim_canonical {x0 x1 x2} (h2 : x2.Canonical) :
    (retrim x0 x1 x2).Canonical := by
  grind only [retrim, setTrims_canonical, logEvent_canonical, State.wr_canonical]

theorem writeHeld_canonical {x0} (h0 : x0.Canonical) :
    (writeHeld x0).Canonical := by
  grind only [writeHeld, flushAll_canonical, State.forL_canonical, mbxNotify_canonical, State.clr_canonical, mk_canonical, canonical_cells, canonical_latched, canonical_snap, canonical_params, canonical_mem, canonical_vat, canonical_flash, filter_rising, filter_wf, wf_nil, rising_nil]

theorem resumeUnits_canonical {x0} (h0 : x0.Canonical) :
    (resumeUnits x0).Canonical := by
  grind only [resumeUnits, State.forL_canonical, pipeEnable_canonical, portStart_canonical, csiEnable_canonical, State.forN_canonical, linkTrain_canonical, filter_rising, filter_wf, wf_nil, rising_nil]

theorem memAfterP3_wf {b : Bool} {m : List Host.Cell} (h : WfP 0#8 m) : WfP 0#8 (memAfterP3 b m) := by
  grind only [memAfterP3, filter_wf, wf_nil]

theorem returnP3_canonical {x0} (h0 : x0.Canonical) :
    (returnP3 x0).Canonical := by
  have hr := restart_canonical (x0 := true) h0
  have hm := memAfterP3_wf (b := x0.flag F.pwrStatus_LP5X_SR) (canonical_mem h0)
  unfold returnP3
  dsimp only
  refine State.forN_canonical (restoreHealth_canonical (State.wr_canonical (State.wr_canonical (keepFlds_canonical h0 (keepVat_canonical h0 ?_))))) ?_
  · exact mk_canonical hr.cells hr.latched hr.snap hr.params hm hr.vat h0.flash
  · grind only [bankArrive_canonical]

theorem returnP4_canonical {x0} (h0 : x0.Canonical) :
    (returnP4 x0).Canonical := by
  grind only [returnP4, restart_canonical, State.forN_canonical, State.clr_canonical, restoreHealth_canonical]

/-! ### Boot -/

theorem writeMap_canonical {x0 x1} (h1 : x1.Canonical) :
    (writeMap x0 x1).Canonical := by
  grind only [writeMap, flashWrite_canonical, flashErase_canonical, State.wr_canonical, State.clr_canonical, mk_canonical, canonical_cells, canonical_latched, canonical_snap, canonical_params, canonical_mem, canonical_vat, canonical_flash, filter_rising, filter_wf, wf_nil, rising_nil]

theorem applyMarkers_canonical {x0 x1} (h1 : x1.Canonical) :
    (applyMarkers x0 x1).Canonical := by
  grind only [applyMarkers, State.forL_canonical, State.wr_canonical, updateFaultN_canonical, tdmRetired_canonical, csiRetired_canonical, retire_canonical, filter_rising, filter_wf, wf_nil, rising_nil]

theorem showRepairs_canonical {x0 x1} (h1 : x1.Canonical) :
    (showRepairs x0 x1).Canonical := by
  grind only [showRepairs, State.forL_canonical, State.wr_canonical, filter_rising, filter_wf, wf_nil, rising_nil]

theorem applyMap_canonical {x0} (h0 : x0.Canonical) :
    (applyMap x0).Canonical := by
  grind only [applyMap, mk_canonical, canonical_cells, canonical_latched, canonical_snap, canonical_params, canonical_mem, canonical_vat, canonical_flash, State.clr_canonical, logEvent_canonical, applyMarkers_canonical, showRepairs_canonical, State.wr_canonical, filter_rising, filter_wf, wf_nil, rising_nil]

theorem chooseSlot_canonical {x0} (h0 : x0.Canonical) :
    (chooseSlot x0).2.2.Canonical := by
  grind only [chooseSlot, putDesc_canonical, State.fresh_canonical, logEvent_canonical]

theorem loadSlot_canonical {x0 x1} (h1 : x1.Canonical) :
    (loadSlot x0 x1).Canonical := by
  grind only [loadSlot, vatInitEnd_canonical, State.forL_canonical, busWrite_canonical]

theorem announceResults_canonical {x0} (h0 : x0.Canonical) :
    (announceResults x0).Canonical := by
  grind only [announceResults, mk_canonical, canonical_cells, canonical_latched, canonical_snap, canonical_params, canonical_mem, canonical_vat, canonical_flash, raise_canonical, State.iff_canonical, filter_rising, filter_wf, wf_nil, rising_nil]

theorem startFirmware_canonical {x0 x1 x2} (h2 : x2.Canonical) :
    (startFirmware x0 x1 x2).Canonical := by
  grind only [startFirmware, State.wr_canonical, onCellar, mk_canonical, canonical_cells, canonical_latched, canonical_snap, canonical_params, canonical_mem, canonical_vat, canonical_flash, targetMailboxes_canonical, leaveReset_canonical, onSvc_canonical, State.forN_canonical, logEvent_canonical, announceResults_canonical, State.iff_canonical, logOpen_canonical, serveUnknown_canonical, startChain_canonical, filter_rising, filter_wf, wf_nil, rising_nil]

theorem firstStart_canonical {x0} (h0 : x0.Canonical) :
    (firstStart x0).Canonical := by
  grind only [firstStart, vatInitStart_canonical, foldl_canonical, foldl_fst_canonical, foldl_snd_canonical, foldl_snd2_canonical, foldl_wf, put_wfP, mk_canonical, canonical_cells, canonical_latched, canonical_snap, canonical_params, canonical_mem, canonical_vat, canonical_flash, filter_rising, filter_wf, wf_nil, rising_nil]

theorem endServices_canonical {x0} (h0 : x0.Canonical) :
    (endServices x0).Canonical := by
  grind only [endServices, onSvc_canonical, State.clr_canonical, State.forN_canonical, blockReset_canonical]

/-! ### SelfTest -/

theorem zeroCounts_canonical {x0 x1} (h1 : x1.Canonical) :
    (zeroCounts x0 x1).Canonical := by
  grind only [zeroCounts, mk_canonical, canonical_cells, canonical_latched, canonical_snap, canonical_params, canonical_mem, canonical_vat, canonical_flash, State.clr_canonical, filter_rising, filter_wf, wf_nil, rising_nil]

theorem makeHealthy_canonical {x0 x1} (h1 : x1.Canonical) :
    (makeHealthy x0 x1).Canonical := by
  grind only [makeHealthy, notifyFault_canonical, setUnitState_canonical]

theorem afterRetire_canonical {x0 x1} (h1 : x1.Canonical) :
    (afterRetire x0 x1).Canonical := by
  grind only [afterRetire, csiRetired_canonical, tdmRetired_canonical]

theorem returnUnit_canonical {x0 x1} (h1 : x1.Canonical) :
    (returnUnit x0 x1).Canonical := by
  grind only [returnUnit, State.iff_canonical, portStart_canonical, csiEnable_canonical, linkRetrain_canonical, State.wr_canonical]

theorem reinstated_canonical {x0 x1 x2} (h2 : x2.Canonical) :
    (reinstated x0 x1 x2).Canonical := by
  grind only [reinstated, logEvent_canonical, raise_canonical]

theorem recordTest_canonical {x0 x1 x2 x3} (h3 : x3.Canonical) :
    (recordTest x0 x1 x2 x3).Canonical := by
  grind only [recordTest, foldl_canonical, foldl_fst_canonical, foldl_snd_canonical, foldl_snd2_canonical, foldl_wf, put_wfP, mk_canonical, canonical_cells, canonical_latched, canonical_snap, canonical_params, canonical_mem, canonical_vat, canonical_flash, State.wr_canonical, State.forL_canonical, showRepairs_canonical, writeMap_canonical, logEvent_canonical, filter_rising, filter_wf, wf_nil, rising_nil]

end Sys2Proof.Machine
end

