-- ==== Sys2Proof/Laws/Delivery.lean ====
section
/-! SUPPORT. What the delivery of an interrupt changes: fields of the delivery itself, and nothing else but what `DeliveryOnly` names. -/

namespace Sys2Proof.Machine

theorem wroteOnly_refl (fs : List Fld) (s : State) : WroteOnly fs s s := fun _ _ => rfl

/-- At most the fields in `fs` and delivery fields were written, and beside the registers only what a delivery changes. -/
def Does (fs : List Fld) (s t : State) : Prop := t.Canonical ∧ RaisedOnly fs s t ∧ DeliveryOnly s t

theorem does_refl {fs : List Fld} {s : State} (h : s.Canonical) : Does fs s s := ⟨h, fun _ _ _ => rfl, rfl⟩

theorem does_trans {fs : List Fld} {s t u : State} (h : Does fs s t) (k : Does fs t u) : Does fs s u := by
  obtain ⟨_, h2, h3⟩ := h
  obtain ⟨k1, k2, k3⟩ := k
  refine ⟨k1, fun g hg hf => (k2 g hg hf).trans (h2 g hg hf), ?_⟩
  unfold DeliveryOnly at *
  rw [k3, h3]

/-- A write of a delivery field. -/
theorem does_wr {fs : List Fld} {s t : State} (h : Does fs s t) {f : Fld} {v : Nat} (hf : deliveryKey f.key = true) :
    Does fs s (t.wr f v) := by
  refine does_trans h ⟨State.wr_canonical h.1, ?_, rfl⟩
  intro g hg _
  refine State.rd_wr_other h.1 f g v fun e => ?_
  rw [e, hf] at hg
  cases hg

/-- A write of a field that is named. -/
theorem does_wr_named {fs : List Fld} {s t : State} (h : Does fs s t) {f : Fld} {v : Nat} (hf : f ∈ fs) : Does fs s (t.wr f v) :=
  does_trans h ⟨State.wr_canonical h.1, fun g _ hg => State.rd_wr_other h.1 f g v (hg f hf), rfl⟩

theorem does_forL {α : Type} {fs : List Fld} {s t : State} {l : List α} {f : α → State → State} (h : Does fs s t)
    (hf : ∀ a ∈ l, ∀ u, Does fs s u → Does fs s (f a u)) : Does fs s (t.forL l f) := by
  induction l generalizing t with
  | nil => exact h
  | cons a r ih => exact ih (hf a (by simp) t h) fun b hb => hf b (by simp [hb])

theorem deliveryKey_pend {g : Nat} (h : g < 16) : deliveryKey (F.intcPendSet_SRC g).key = true := by
  have : (F.intcPendSet_SRC g).key % 2 ^ 30 / 64 = 0x100008 + g * 0x10 := by simp [Fld.key, Fld.group, F.intcPendSet_SRC]; omega
  simp only [deliveryKey, this]; simp; omega

theorem deliveryKey_core {k : Nat} (h : k < 13) : deliveryKey (F.intcCoreState_PRESENTED k).key = true := by
  have : (F.intcCoreState_PRESENTED k).key % 2 ^ 30 / 64 = 0x100300 + k * 4 := by simp [Fld.key, Fld.group, F.intcCoreState_PRESENTED]; omega
  simp only [deliveryKey, this]; simp; omega

theorem does_msixRequest {fs : List Fld} {s t : State} (h : Does fs s t) (v : Nat) : Does fs s (msixRequest v t) := by
  refine does_trans h ⟨msixRequest_canonical h.1, ?_, ?_⟩
  · intro g _ _; unfold msixRequest; split <;> rfl
  · unfold msixRequest DeliveryOnly; split <;> rfl

theorem does_peerSend {fs : List Fld} {s t : State} (h : Does fs s t) {n : Nat} (hn : n < 512) : Does fs s (peerSend n t) := by
  unfold peerSend
  split
  · exact h
  · have h1 : Does fs s (if srcLevel n then t else t.setPending n false) := by
      split
      · exact h
      · exact does_wr h (deliveryKey_pend (by omega))
    exact does_trans h1 ⟨⟨h1.1.cells, h1.1.latched, h1.1.snap, h1.1.params, h1.1.mem, h1.1.vat, h1.1.flash⟩, fun _ _ _ => rfl, rfl⟩

theorem activeSources_lt {s : State} {n : Nat} (h : n ∈ s.activeSources) : n < 512 := by
  simp only [State.activeSources, List.mem_flatMap, List.mem_range, List.mem_map, wordBits] at h
  obtain ⟨g, hg, i, hi, rfl⟩ := h
  split at hi
  · simp at hi
  · have := (List.mem_filter.1 hi).1
    simp at this; omega

/-- A delivery decision writes only delivery fields. -/
theorem does_deliverAgain {fs : List Fld} {s t : State} (h : Does fs s t) (l : List Nat) : Does fs s (deliverAgain l t) := by
  unfold deliverAgain
  dsimp only
  refine does_forL ?_ fun n hn u hu => does_peerSend hu (activeSources_lt (List.mem_filter.1 hn).1)
  refine does_forL ?_ fun k hk u hu => does_wr hu (deliveryKey_core (List.mem_range.1 hk))
  have hw := does_wr (f := F.intcHvecAssert_VEC) (v := t.vectorsOf t.activeSources) h (by decide)
  split
  · exact does_forL (does_wr hw (by decide)) fun v _ u hu => does_msixRequest hu v
  · exact does_wr hw (by decide)

theorem srcAssigned_lt {n : Nat} (h : srcAssigned n = true) : n < 512 := by
  simp [srcAssigned] at h; omega

/-- Raising a source writes only delivery fields. -/
theorem does_raise {fs : List Fld} {s t : State} (h : Does fs s t) (n : Nat) : Does fs s (raise n t) := by
  unfold raise
  split
  · rename_i hn
    exact does_deliverAgain (does_wr h (deliveryKey_pend (by have := srcAssigned_lt hn; omega))) []
  · exact h

/-- A field outside the delivery keeps its value when a source is raised. -/
theorem raise_rd {s : State} (h : s.Canonical) (n : Nat) (g : Fld) (hg : deliveryKey g.key = false) : (raise n s).rd g = s.rd g :=
  (does_raise (fs := []) (does_refl h) n).2.1 g hg (by simp)

theorem bitAt_setBitsAt_same (v i : Nat) (b : Bool) : bitAt (setBitsAt v i 1 (bit b)) i = b := by
  have h : setBitsAt v i 1 (bit b) = v / 2 ^ (i + 1) * 2 ^ (i + 1) + bit b * 2 ^ i + v % 2 ^ i := by
    have h1 : v = v / 2 ^ i * 2 ^ i + v % 2 ^ i := (Nat.div_add_mod' v (2 ^ i)).symm
    have h2 : v / 2 ^ i = v / 2 ^ (i + 1) * 2 + v / 2 ^ i % 2 := by
      rw [Nat.pow_succ, ← Nat.div_div_eq_div_mul]; omega
    have h3 : bit b % 2 = bit b := by cases b <;> rfl
    unfold setBitsAt bitsAt
    rw [Nat.pow_one, h3]
    have h4 : v = (v / 2 ^ (i + 1) * 2 + v / 2 ^ i % 2) * 2 ^ i + v % 2 ^ i := by rw [← h2]; exact h1
    have h5 : v / 2 ^ (i + 1) * 2 ^ (i + 1) = v / 2 ^ (i + 1) * 2 * 2 ^ i := by rw [Nat.pow_succ]; ring
    rw [h5]
    have h6 : (v / 2 ^ (i + 1) * 2 + v / 2 ^ i % 2) * 2 ^ i = v / 2 ^ (i + 1) * 2 * 2 ^ i + v / 2 ^ i % 2 * 2 ^ i := by ring
    omega
  rw [h]
  unfold bitAt
  have hlt : v % 2 ^ i < 2 ^ i := Nat.mod_lt _ (Nat.two_pow_pos i)
  have h7 : (v / 2 ^ (i + 1) * 2 ^ (i + 1) + bit b * 2 ^ i + v % 2 ^ i) / 2 ^ i = v / 2 ^ (i + 1) * 2 + bit b := by
    have : v / 2 ^ (i + 1) * 2 ^ (i + 1) + bit b * 2 ^ i + v % 2 ^ i = v % 2 ^ i + (v / 2 ^ (i + 1) * 2 + bit b) * 2 ^ i := by
      rw [Nat.pow_succ]; ring
    rw [this, Nat.add_mul_div_right _ _ (Nat.two_pow_pos i), Nat.div_eq_of_lt hlt, Nat.zero_add]
  rw [h7]
  cases b <;> simp [bit] <;> omega

end Sys2Proof.Machine
end

