-- ==== Sys2Proof/Laws/Report.lean ====
section
/-! SUPPORT. Which register fields an operation may write, said as a set of keys, and that reporting an event (an interrupt, a
notification, a log entry) writes only fields of the report. -/

namespace Sys2Proof.Machine

/-- `t` is canonical, and every field whose key lies outside `K` reads in it as in `s`. -/
def Moves (K : Nat → Bool) (s t : State) : Prop := t.Canonical ∧ ∀ g : Fld, K g.key = false → t.rd g = s.rd g

theorem moves_refl {K : Nat → Bool} {s : State} (h : s.Canonical) : Moves K s s := ⟨h, fun _ _ => rfl⟩

theorem moves_trans {K : Nat → Bool} {s t u : State} (h : Moves K s t) (k : Moves K t u) : Moves K s u :=
  ⟨k.1, fun g hg => (k.2 g hg).trans (h.2 g hg)⟩

theorem moves_wr {K : Nat → Bool} {s t : State} (h : Moves K s t) {f : Fld} {v : Nat} (hf : K f.key = true) : Moves K s (t.wr f v) := by
  refine moves_trans h ⟨State.wr_canonical h.1, fun g hg => State.rd_wr_other h.1 f g v fun e => ?_⟩
  rw [e, hf] at hg
  cases hg

theorem moves_set1 {K : Nat → Bool} {s t : State} (h : Moves K s t) {f : Fld} (hf : K f.key = true) : Moves K s (t.set1 f) := moves_wr h hf
theorem moves_clr {K : Nat → Bool} {s t : State} (h : Moves K s t) {f : Fld} (hf : K f.key = true) : Moves K s (t.clr f) := moves_wr h hf
theorem moves_inc {K : Nat → Bool} {s t : State} (h : Moves K s t) {f : Fld} (hf : K f.key = true) : Moves K s (t.inc f) := moves_wr h hf

/-- A change of anything but the registers moves no field. -/
theorem moves_cells {K : Nat → Bool} {s t u : State} (h : Moves K s t) (hc : u.Canonical) (he : u.cells = t.cells) : Moves K s u :=
  moves_trans h ⟨hc, fun g _ => by simp only [State.rd, he]⟩

/-- The same, where every store stands as it was. -/
theorem moves_rest {K : Nat → Bool} {s t u : State} (h : Moves K s t) (h1 : u.cells = t.cells := by rfl)
    (h2 : u.latched = t.latched := by rfl) (h3 : u.snap = t.snap := by rfl) (h4 : u.params = t.params := by rfl)
    (h5 : u.mem = t.mem := by rfl) (h6 : u.vat.data = t.vat.data := by rfl) (h7 : u.cellar.flash = t.cellar.flash := by rfl) :
    Moves K s u := by
  refine moves_cells h ⟨?_, ?_, ?_, ?_, ?_, ?_, ?_⟩ h1
  · rw [h1]; exact h.1.cells
  · rw [h2]; exact h.1.latched
  · rw [h3]; exact h.1.snap
  · rw [h4]; exact h.1.params
  · rw [h5]; exact h.1.mem
  · rw [h6]; exact h.1.vat
  · rw [h7]; exact h.1.flash

theorem moves_forL {α : Type} {K : Nat → Bool} {s t : State} {l : List α} {f : α → State → State} (h : Moves K s t)
    (hf : ∀ a ∈ l, ∀ u, Moves K s u → Moves K s (f a u)) : Moves K s (t.forL l f) := by
  induction l generalizing t with
  | nil => exact h
  | cons a r ih => exact ih (hf a (by simp) t h) fun b hb => hf b (by simp [hb])

theorem moves_forN {K : Nat → Bool} {s t : State} {n : Nat} {f : Nat → State → State} (h : Moves K s t)
    (hf : ∀ i, i < n → ∀ u, Moves K s u → Moves K s (f i u)) : Moves K s (t.forN n f) :=
  moves_forL h fun i hi => hf i (List.mem_range.1 hi)

theorem moves_mono {K L : Nat → Bool} {s t : State} (h : Moves K s t) (hK : ∀ k, K k = true → L k = true) : Moves L s t :=
  ⟨h.1, fun g hg => h.2 g (by cases hk : K g.key with | false => rfl | true => rw [hK _ hk] at hg; cases hg)⟩

/-- The keys `K` hold those of an interrupt's delivery. -/
theorem moves_raise {K : Nat → Bool} {s t : State} (h : Moves K s t) (hK : ∀ k, deliveryKey k = true → K k = true) (n : Nat) :
    Moves K s (raise n t) :=
  moves_trans h (moves_mono ⟨raise_canonical h.1, fun g hg => raise_rd h.1 n g hg⟩ hK)

theorem reportKey_delivery {k : Nat} (h : deliveryKey k = true) : reportKey k = true := by simp [reportKey, h]

theorem reportKey_mbx {f : Fld} (h1 : 0x2000 * 64 ≤ f.key % 2 ^ 30) (h2 : f.key % 2 ^ 30 < 0x2200 * 64) : reportKey f.key = true := by
  have h3 : 0x2000 ≤ f.key % 2 ^ 30 / 64 := by omega
  have h4 : f.key % 2 ^ 30 / 64 < 0x2200 := by omega
  unfold reportKey
  dsimp only
  rw [decide_eq_true h3, decide_eq_true h4]
  simp

theorem reportKey_status {m : Nat} (h : m < 16) : reportKey (F.mbxStatus_TAIL m).key = true ∧ reportKey (F.mbxStatus_HELD m).key = true
    ∧ reportKey (F.mbxStatus_UNNOTIFIED m).key = true ∧ reportKey (F.mbxCounts_LOST m).key = true
    ∧ reportKey (F.mbxCounts_RING_ERR m).key = true ∧ reportKey (F.mbxStatus_STATE m).key = true := by
  refine ⟨?_, ?_, ?_, ?_, ?_, ?_⟩ <;> apply reportKey_mbx <;>
    simp [Fld.key, Fld.group, F.mbxStatus_TAIL, F.mbxStatus_HELD, F.mbxStatus_UNNOTIFIED, F.mbxCounts_LOST, F.mbxCounts_RING_ERR, F.mbxStatus_STATE] <;> omega

theorem moves_raise_report {s t : State} (h : Moves reportKey s t) (n : Nat) : Moves reportKey s (raise n t) :=
  moves_raise h (fun _ => reportKey_delivery) n

theorem moves_setUnnotified {s t : State} (h : Moves reportKey s t) {m : Nat} (hm : m < 16) (n : Nat) :
    Moves reportKey s (setUnnotified m n t) :=
  moves_cells (moves_wr h (reportKey_status hm).2.2.1) (setUnnotified_canonical h.1) rfl

theorem moves_mbxNotify {s t : State} (h : Moves reportKey s t) {m : Nat} (hm : m < 16) : Moves reportKey s (mbxNotify m t) := by
  unfold mbxNotify
  refine moves_raise_report ?_ m
  have h1 := moves_setUnnotified h hm 0
  exact moves_rest h1

theorem setBytes_cells (s : State) (a : Nat) (l : List Byte) : (s.setBytes a l).cells = s.cells := by
  induction l generalizing s a with
  | nil => rfl
  | cons b t ih => exact ih _ _

/-- What follows the bytes of a ring entry moves only fields of the report. -/
theorem moves_entryTail {s q : State} (h : Moves reportKey s q) {m : Nat} (hm : m < 16) (n u : Nat) (c d : Bool) :
    Moves reportKey s
      (let r := setUnnotified m u (q.wr (F.mbxStatus_TAIL m) n)
       if c then mbxNotify m r else if d then r else { r with hif := { r.hif with ageOn := m :: r.hif.ageOn } }) := by
  have h1 := moves_setUnnotified (moves_wr (v := n) h (reportKey_status hm).1) hm u
  dsimp only
  split
  · exact moves_mbxNotify h1 hm
  · split
    · exact h1
    · exact moves_rest h1

/-- The outcome of the posted write moves no field. -/
theorem moves_ringWriteErr {s t : State} (h : Moves reportKey s t) (err : Option Bool) : Moves reportKey s (ringWriteErr err t).2 := by
  cases err with
  | none => exact moves_rest h
  | some b => exact h

/-- A notification's entry written moves only fields of the report. -/
theorem moves_writeEntry {s t : State} (h : Moves reportKey s t) (err : Option Bool) {e : RingEntry} (hm : e.mbx < 16)
    (hc : e.completion = false) : Moves reportKey s (writeEntry err e t) := by
  have hd : ∀ u, entryDone e u = u := fun u => by simp [entryDone, hc]
  have h1 : Moves reportKey s (if t.prm (P.ringLoc e.mbx) != 0 then ringWriteErr err t else (false, t)).2 := by
    split
    · exact moves_ringWriteErr h err
    · exact h
  unfold writeEntry
  dsimp only
  rw [hd, hd]
  generalize (if t.prm (P.ringLoc e.mbx) != 0 then ringWriteErr err t else (false, t)) = q at h1
  split
  · exact moves_raise_report (moves_inc h1 (reportKey_status hm).2.2.2.2.1) 20
  · split
    · exact moves_entryTail (moves_rest h1) hm _ _ _ _
    · exact moves_entryTail (moves_cells h1 (State.setBytes_canonical h1.1) (setBytes_cells _ _ _)) hm _ _ _ _

theorem moves_wakeRequest {s t : State} (h : Moves reportKey s t) : Moves reportKey s (wakeRequest t) := by
  unfold wakeRequest
  split
  · exact h
  · have h1 := moves_set1 h (f := F.pwrStatus_WAKE_REQ) (by decide)
    dsimp only
    split <;> exact moves_rest h1

/-- A notification moves only fields of the report. -/
theorem moves_notify {s t : State} (h : Moves reportKey s t) (code a b : Nat) : Moves reportKey s (notify code a b t) := by
  unfold notify
  have hm : t.prm P.mbxNotify % 16 < 16 := Nat.mod_lt _ (by decide)
  generalize t.prm P.mbxNotify % 16 = m at hm
  unfold postEntry
  dsimp only
  split
  · split
    · exact moves_raise_report (moves_inc h (reportKey_status hm).2.2.2.1) 21
    · have h1 : Moves reportKey s (showHeld m { t with hif := { t.hif with held := t.hif.held ++
          [{ mbx := m, completion := false, tagData := a, status := 0, opcode := code, stamp := t.now, data2 := b, notifyNow := false }] } }) :=
        moves_wr (moves_rest h) (reportKey_status hm).2.1
      unfold State.iff
      split
      · exact moves_wakeRequest h1
      · exact h1
  · exact moves_writeEntry h none hm rfl

/-- A log entry moves only fields of the report. -/
theorem moves_logEvent {s t : State} (h : Moves reportKey s t) (code sev a b : Nat) : Moves reportKey s (logEvent code sev a b t) := by
  have h1 : Moves reportKey s (t.iff (decide (t.cellar.unflushed ≥ 2048)) fun s => s.inc F.cellarLogLost_COUNT) := by
    unfold State.iff
    split
    · exact moves_inc h (by decide)
    · exact h
  have h2 : ∀ (q : State) (p n : Nat), Moves reportKey s q →
      Moves reportKey s (if p ≤ sev then notify 0x8005 n code (raise 486 q) else q) := fun q p n hq => by
    split
    · exact moves_notify (moves_raise_report hq _) _ _ _
    · exact hq
  refine h2 _ _ _ (moves_wr (f := F.cellarLogSeq_NEXT) ?_ (by decide))
  exact moves_rest h1

/-- Fields outside the report keep their values when an event is logged. -/
theorem logEvent_rd {s : State} (h : s.Canonical) (code sev a b : Nat) (g : Fld) (hg : reportKey g.key = false) :
    (logEvent code sev a b s).rd g = s.rd g := (moves_logEvent (moves_refl h) code sev a b).2 g hg

end Sys2Proof.Machine
end

