-- ==== Sys2Proof/Laws/Pending.lean ====
section
/-! SUPPORT. A raised source is pending after it is raised, unless it goes to the peer device (R402, R410). -/

namespace Sys2Proof.Machine

theorem bitAt_mod {x i j : Nat} (h : j < i) : bitAt (x % 2 ^ i) j = bitAt x j := by
  unfold bitAt
  have h1 : (2 : Nat) ^ i = 2 ^ j * (2 * 2 ^ (i - j - 1)) := by
    rw [← Nat.pow_succ', ← Nat.pow_add]; congr 1; omega
  rw [h1, Nat.mod_mul_right_div_self]
  congr 1
  exact Nat.mod_mul_right_mod _ _ _

theorem bitAt_div {x i j : Nat} (h : i ≤ j) : bitAt x j = bitAt (x / 2 ^ i) (j - i) := by
  unfold bitAt
  rw [Nat.div_div_eq_div_mul, ← Nat.pow_add]
  congr 4
  omega

theorem setBitsAt_one (v i : Nat) (b : Bool) :
    setBitsAt v i 1 (bit b) = v % 2 ^ i + (v / 2 ^ (i + 1) * 2 + bit b) * 2 ^ i := by
  have h1 : v = v / 2 ^ i * 2 ^ i + v % 2 ^ i := (Nat.div_add_mod' v (2 ^ i)).symm
  have h2 : v / 2 ^ i = v / 2 ^ (i + 1) * 2 + v / 2 ^ i % 2 := by
    rw [Nat.pow_succ, ← Nat.div_div_eq_div_mul]; omega
  have h3 : bit b % 2 = bit b := by cases b <;> rfl
  unfold setBitsAt bitsAt
  rw [Nat.pow_one, h3]
  have h4 : v = (v / 2 ^ (i + 1) * 2 + v / 2 ^ i % 2) * 2 ^ i + v % 2 ^ i := by rw [← h2]; exact h1
  have h5 : (v / 2 ^ (i + 1) * 2 + v / 2 ^ i % 2) * 2 ^ i = v / 2 ^ (i + 1) * 2 * 2 ^ i + v / 2 ^ i % 2 * 2 ^ i := by ring
  have h6 : (v / 2 ^ (i + 1) * 2 + bit b) * 2 ^ i = v / 2 ^ (i + 1) * 2 * 2 ^ i + bit b * 2 ^ i := by ring
  omega

theorem bitAt_setBitsAt_other (v i j : Nat) (b : Bool) (h : j ≠ i) : bitAt (setBitsAt v i 1 (bit b)) j = bitAt v j := by
  rw [setBitsAt_one]
  have hlt : v % 2 ^ i < 2 ^ i := Nat.mod_lt _ (Nat.two_pow_pos i)
  rcases Nat.lt_or_ge j i with hj | hj
  · rw [← bitAt_mod hj, Nat.add_mul_mod_self_right, Nat.mod_mod, bitAt_mod hj]
  · have hj : i + 1 ≤ j := by omega
    rw [bitAt_div hj, bitAt_div (x := v) hj]
    congr 1
    rw [Nat.pow_succ, ← Nat.div_div_eq_div_mul, Nat.add_mul_div_right _ _ (Nat.two_pow_pos i), Nat.div_eq_of_lt hlt, Nat.zero_add,
      ← Nat.pow_succ]
    have : bit b < 2 := by cases b <;> decide
    omega

theorem isPending_setPending_same {s : State} (h : s.Canonical) (n : Nat) (b : Bool) : (s.setPending n b).isPending n = b := by
  unfold State.isPending State.setPending State.setBit
  rw [State.rd_wr_same h]
  show bitAt (_ % 2 ^ 32) _ = b
  rw [bitAt_mod (Nat.mod_lt _ (by decide)), bitAt_setBitsAt_same]

theorem isPending_setPending_other {s : State} (h : s.Canonical) {n m : Nat} (b : Bool) (hm : m ≠ n) :
    (s.setPending n b).isPending m = s.isPending m := by
  unfold State.isPending State.setPending State.setBit
  by_cases hg : m / 32 = n / 32
  · rw [hg, State.rd_wr_same h]
    show bitAt (_ % 2 ^ 32) _ = _
    rw [bitAt_mod (Nat.mod_lt _ (by decide)), bitAt_setBitsAt_other]
    intro e
    apply hm
    have h1 := Nat.div_add_mod m 32
    have h2 := Nat.div_add_mod n 32
    omega
  · rw [State.rd_wr_other h]
    simp [Fld.key, Fld.group, F.intcPendSet_SRC]
    omega

/-- A field outside the pending words is written: no pending bit changes. -/
theorem isPending_wr {s : State} (h : s.Canonical) {f : Fld} {v : Nat} (n : Nat) (hf : f.key ≠ (F.intcPendSet_SRC (n / 32)).key) :
    (s.wr f v).isPending n = s.isPending n := by
  unfold State.isPending
  rw [State.rd_wr_other h _ _ _ (Ne.symm hf)]

theorem peerSend_pending {s : State} (h : s.Canonical) {n m : Nat} (hm : m ≠ n) : (peerSend n s).isPending m = s.isPending m := by
  unfold peerSend
  split
  · rfl
  · show (if srcLevel n then s else s.setPending n false).isPending m = _
    split
    · rfl
    · exact isPending_setPending_other h false hm

/-- A pending bit, and where its source goes, stand as in `s`. -/
def Holds (n : Nat) (s t : State) : Prop :=
  t.Canonical ∧ t.isPending n = s.isPending n ∧ t.rd (F.intcTgt_DEST n) = s.rd (F.intcTgt_DEST n)

theorem holds_forL {α : Type} {n : Nat} {s t : State} {l : List α} {f : α → State → State} (h : Holds n s t)
    (hf : ∀ a ∈ l, ∀ u, Holds n s u → Holds n s (f a u)) : Holds n s (t.forL l f) := by
  induction l generalizing t with
  | nil => exact h
  | cons a r ih => exact ih (hf a (by simp) t h) fun b hb => hf b (by simp [hb])

theorem holds_wr {n : Nat} {s t : State} (h : Holds n s t) {f : Fld} {v o : Nat} (ho : f.key % 2 ^ 30 / 64 = o) (h1 : 0x100100 ≤ o)
    (h2 : o < 0x101000) (hn : n < 512) : Holds n s (t.wr f v) := by
  refine ⟨State.wr_canonical h.1, (isPending_wr h.1 n ?_).trans h.2.1, (State.rd_wr_other h.1 _ _ _ ?_).trans h.2.2⟩
  · intro e
    rw [e] at ho
    simp [Fld.key, Fld.group, F.intcPendSet_SRC] at ho
    omega
  · intro e
    rw [← e] at ho
    simp [Fld.key, Fld.group, F.intcTgt_DEST] at ho
    omega

theorem holds_msixRequest {n : Nat} {s t : State} (h : Holds n s t) (v : Nat) : Holds n s (msixRequest v t) := by
  refine ⟨msixRequest_canonical h.1, Eq.trans ?_ h.2.1, Eq.trans ?_ h.2.2⟩ <;> unfold msixRequest <;> split <;> rfl

theorem holds_peerSend {n m : Nat} {s t : State} (h : Holds n s t) (hm : n ≠ m) (hn : n < 512) : Holds n s (peerSend m t) := by
  refine ⟨peerSend_canonical h.1, (peerSend_pending h.1 hm).trans h.2.1, Eq.trans ?_ h.2.2⟩
  unfold peerSend
  split
  · rfl
  · show (if srcLevel m then t else t.setPending m false).rd _ = _
    split
    · rfl
    · refine State.rd_wr_other h.1 _ _ _ ?_
      simp [Fld.key, Fld.group, F.intcTgt_DEST, F.intcPendSet_SRC]
      omega

theorem holds_core {n k : Nat} {s t : State} (h : Holds n s t) (hk : k < 13) (hn : n < 512) (v : Nat) :
    Holds n s (t.wr (F.intcCoreState_PRESENTED k) v) :=
  holds_wr h (o := 0x100300 + k * 4) (by simp [Fld.key, Fld.group, F.intcCoreState_PRESENTED]; omega) (by omega) (by omega) hn

theorem holds_vectors {n : Nat} {s t : State} (h : Holds n s t) (hn : n < 512) (b : Bool) (v w : Nat) (l : List Nat) :
    Holds n s (if b then (((t.wr F.intcHvecAssert_VEC v).clr F.intcHostMode_INT_N).forL l msixRequest)
      else (t.wr F.intcHvecAssert_VEC v).wr F.intcHostMode_INT_N w) := by
  have h1 : Holds n s (t.wr F.intcHvecAssert_VEC v) := holds_wr h (o := 0x100200) (by decide) (by omega) (by omega) hn
  have h2 : ∀ x, Holds n s ((t.wr F.intcHvecAssert_VEC v).wr F.intcHostMode_INT_N x) := fun x =>
    holds_wr h1 (o := 0x100208) (by decide) (by omega) (by omega) hn
  split
  · exact holds_forL (h2 0) fun v _ u hu => holds_msixRequest hu v
  · exact h2 w

theorem holds_presented {n : Nat} {s t : State} (h : Holds n s t) (hn : n < 512) (g : State → Nat → Nat) :
    Holds n s (t.forN 13 fun k u => u.wr (F.intcCoreState_PRESENTED k) (g u k)) :=
  holds_forL h fun k hk _ hu => holds_core hu (List.mem_range.1 hk) hn _

theorem holds_peers {n : Nat} {s t : State} (h : Holds n s t) (hn : n < 512) (act : List Nat) (hd : s.rd (F.intcTgt_DEST n) ≠ 3) :
    Holds n s (t.forL (act.filter fun m => t.rd (F.intcTgt_DEST m) = 3) peerSend) := by
  refine holds_forL h fun m hm u hu => holds_peerSend hu (fun e => ?_) hn
  subst e
  have := (List.mem_filter.1 hm).2
  rw [h.2.2] at this
  exact hd (by simpa using this)

theorem deliver_pending {s : State} (h : s.Canonical) (n : Nat) (hn : n < 512) (hd : s.rd (F.intcTgt_DEST n) ≠ 3) :
    (deliver s).isPending n = s.isPending n :=
  (holds_peers (holds_presented (holds_vectors ⟨h, rfl, rfl⟩ hn _ _ _ _) hn _) hn _ hd).2.1

/-- A raised source is pending, unless it goes to the peer device. -/
theorem raise_pending {s : State} (h : s.Canonical) {n : Nat} (hn : srcAssigned n = true) (hd : s.rd (F.intcTgt_DEST n) ≠ 3) :
    (raise n s).isPending n = true := by
  unfold raise
  rw [if_pos hn, deliver_pending (State.setPending_canonical h) n (srcAssigned_lt hn), isPending_setPending_same h]
  unfold State.setPending State.setBit
  rw [State.rd_wr_other h]
  · exact hd
  · have := srcAssigned_lt hn
    simp [Fld.key, Fld.group, F.intcTgt_DEST, F.intcPendSet_SRC]
    omega

end Sys2Proof.Machine
end

