-- ==== Sys2Proof/Laws/Timers.lean ====
section
/-! SUPPORT. Which register fields the timers' running writes: counts, compare states, outputs and event counts, and the delivery
of their interrupts. -/

namespace Sys2Proof.Machine

/-- The key of a field that a timer's running writes (R383 to R391): COUNT, STATUS or EVENTS of some timer, or a delivery field. -/
def timerKey (k : Nat) : Bool :=
  let o := k % 2 ^ 30 / 64
  deliveryKey k || (0xB00000 ≤ o && o < 0xB01000 && (o % 64 == 0x18 || o % 64 == 0x28 || o % 64 == 0x2C))

theorem timerKey_delivery {k : Nat} (h : deliveryKey k = true) : timerKey k = true := by simp [timerKey, h]

theorem timerKey_of {f : Fld} {n d : Nat} (hn : n < 64) (ho : f.key % 2 ^ 30 / 64 = 0xB00000 + n * 64 + d)
    (hd : d = 0x18 ∨ d = 0x28 ∨ d = 0x2C) : timerKey f.key = true := by
  unfold timerKey
  dsimp only
  rw [ho]
  have h1 : 0xB00000 ≤ 0xB00000 + n * 64 + d := by omega
  have h2 : 0xB00000 + n * 64 + d < 0xB01000 := by omega
  have h3 : (0xB00000 + n * 64 + d) % 64 = d := by omega
  rw [h3, decide_eq_true h1, decide_eq_true h2]
  rcases hd with rfl | rfl | rfl <;> simp

theorem timerKey_fields {n : Nat} (hn : n < 64) :
    timerKey (F.timerCount_COUNT n).key = true ∧ timerKey (F.timerStatus_OUT n).key = true ∧
      timerKey (F.timerStatus_ARMED n).key = true ∧ timerKey (F.timerStatus_CMP_PEND n).key = true ∧
      timerKey (F.timerEvents_OVF n).key = true ∧ timerKey (F.timerEvents_CMP n).key = true := by
  refine ⟨timerKey_of (d := 0x18) hn ?_ (by simp), timerKey_of (d := 0x28) hn ?_ (by simp), timerKey_of (d := 0x28) hn ?_ (by simp),
    timerKey_of (d := 0x28) hn ?_ (by simp), timerKey_of (d := 0x2C) hn ?_ (by simp), timerKey_of (d := 0x2C) hn ?_ (by simp)⟩ <;>
    simp [Fld.key, Fld.group, F.timerCount_COUNT, F.timerStatus_OUT, F.timerStatus_ARMED, F.timerStatus_CMP_PEND, F.timerEvents_OVF,
      F.timerEvents_CMP] <;> omega

theorem moves_timerIrq {s t : State} (h : Moves timerKey s t) (n : Nat) (ev : List Nat) : Moves timerKey s (timerIrq n ev t) := by
  unfold timerIrq
  split
  · exact moves_raise h (fun _ => timerKey_delivery) _
  · exact h

/-- A signal to slaves moves no field: what is due waits beside the registers. -/
theorem moves_timerSignal {s t : State} (h : Moves timerKey s t) (m ev : Nat) : Moves timerKey s (timerSignal m ev t) :=
  moves_forL h fun _ _ _ hu => moves_rest hu

theorem moves_timerPeriod {s t : State} (h : Moves timerKey s t) {n : Nat} (hn : n < 64) : Moves timerKey s (timerPeriod n t) := by
  unfold timerPeriod
  refine moves_set1 ?_ (timerKey_fields hn).2.2.1
  split
  · exact moves_rest (moves_clr (moves_clr h (timerKey_fields hn).1) (timerKey_fields hn).2.2.2.1)
  · exact moves_clr h (timerKey_fields hn).1

/-- A tick and its chain move only the timers' fields, and count only timers. -/
theorem moves_timerTick (fuel : Nat) {s t : State} (h : Moves timerKey s t) {n : Nat} (hn : n < 64) :
    Moves timerKey s (timerTick fuel n t).2 ∧ ∀ c ∈ (timerTick fuel n t).1, c.1 < 64 := by
  induction fuel generalizing n t with
  | zero => exact ⟨h, by simp [timerTick]⟩
  | succ fuel ih =>
    have h1 := moves_timerPeriod (moves_wr (v := t.rd (F.timerEvents_OVF n) + 1) h (timerKey_fields hn).2.2.2.2.1) hn
    simp only [timerTick]
    split
    · exact ⟨h, by simp⟩
    · split
      · exact ⟨moves_wr h (timerKey_fields hn).1, by simpa using hn⟩
      · split
        · rename_i hc
          simp at hc
          have h2 := ih h1 (n := n + 1) (by omega)
          refine ⟨h2.1, fun c hm => ?_⟩
          rcases List.mem_cons.1 hm with rfl | hm
          · exact hn
          · exact h2.2 c hm
        · exact ⟨h1, by simpa using hn⟩

theorem moves_ticks {s : State} {l : List Nat} (hl : ∀ n ∈ l, n < 64) {a : List (Nat × Bool) × State} (h : Moves timerKey s a.2)
    (ha : ∀ c ∈ a.1, c.1 < 64) :
    let r := l.foldl (fun (a : List (Nat × Bool) × State) n => let (l, s) := timerTick 64 n a.2; (a.1 ++ l, s)) a
    Moves timerKey s r.2 ∧ ∀ c ∈ r.1, c.1 < 64 := by
  induction l generalizing a with
  | nil => exact ⟨h, ha⟩
  | cons n l ih =>
    have h1 := moves_timerTick 64 h (hl n (by simp))
    refine ih (fun m hm => hl m (by simp [hm])) h1.1 fun c hc => ?_
    rcases List.mem_append.1 hc with hc | hc
    · exact ha c hc
    · exact h1.2 c hc

/-- One cclk of the timers moves only their fields. -/
theorem moves_timerCclk {s t : State} (h : Moves timerKey s t) {ticks begun started wrote : List Nat} (h1 : ∀ n ∈ ticks, n < 64)
    (h2 : ∀ n ∈ begun, n < 64) (h3 : ∀ n ∈ started, n < 64) (h4 : ∀ n ∈ wrote, n < 64) :
    Moves timerKey s (timerCclk ticks begun started wrote t) := by
  have hd := moves_ticks h1 (a := ([], t)) h (by simp)
  unfold timerCclk
  dsimp only at hd ⊢
  generalize ticks.foldl (fun (a : List (Nat × Bool) × State) n => ((a.1 ++ (timerTick 64 n a.2).1), (timerTick 64 n a.2).2)) ([], t) = d
    at hd ⊢
  obtain ⟨hd, hl⟩ := hd
  have ht : ∀ n ∈ (d.1.map (·.1) ++ begun ++ started ++ wrote).eraseDups, n < 64 := fun n hn => by
    rw [List.mem_eraseDups] at hn
    simp only [List.mem_append, List.mem_map] at hn
    rcases hn with ((⟨c, hc, rfl⟩ | hn) | hn) | hn
    · exact hl c hc
    · exact h2 n hn
    · exact h3 n hn
    · exact h4 n hn
  generalize (d.1.map (·.1) ++ begun ++ started ++ wrote).eraseDups = touched at ht
  refine moves_forL (moves_forL (moves_forL (moves_forL (moves_forL (moves_forL hd ?_) ?_) ?_) ?_) ?_) ?_
  · exact fun n hn u hu => by
      have hn := ht n (List.mem_filter.1 hn).1
      exact moves_wr (moves_clr hu (timerKey_fields hn).2.2.1) (timerKey_fields hn).2.2.2.2.2
  · exact fun n hn u hu => moves_wr hu (timerKey_fields (ht n hn)).2.1
  · exact fun n _ u hu => moves_timerIrq hu n _
  · exact fun n _ u hu => moves_timerSignal hu n 0
  · exact fun n _ u hu => moves_timerSignal hu n 1
  · exact fun n _ u hu => moves_timerSignal hu n 2

theorem timersDue_lt {s : State} {n : Nat} (h : n ∈ s.timersDue) : n < 64 := List.mem_range.1 (List.mem_filter.1 h).1

theorem moves_timerFollow (fuel : Nat) {s t : State} (h : Moves timerKey s t) : Moves timerKey s (timerFollow fuel t) := by
  induction fuel generalizing t with
  | zero => exact h
  | succ fuel ih =>
    simp only [timerFollow]
    split
    · exact h
    · exact ih (moves_timerCclk (moves_forL h fun _ _ _ hu => moves_rest hu) (fun _ => timersDue_lt) (by simp) (by simp) (by simp))

/-- The cclk that an event of the timers makes move only the timers' fields. -/
theorem moves_timerRun {s t : State} (h : Moves timerKey s t) {ticks begun started wrote : List Nat} (h1 : ∀ n ∈ ticks, n < 64)
    (h2 : ∀ n ∈ begun, n < 64) (h3 : ∀ n ∈ started, n < 64) (h4 : ∀ n ∈ wrote, n < 64) :
    Moves timerKey s (timerRun ticks begun started wrote t) := by
  refine moves_timerFollow 64 (moves_timerCclk (moves_forL h fun _ _ _ hu => moves_rest hu) (fun n hn => ?_) h2 h3 h4)
  rcases List.mem_append.1 hn with hn | hn
  · exact h1 n hn
  · exact timersDue_lt (List.mem_filter.1 hn).1

theorem moves_timerSource {s t : State} (h : Moves timerKey s t) (src : Nat) : Moves timerKey s (timerSource src t) :=
  moves_timerRun h (fun _ hn => List.mem_range.1 (List.mem_filter.1 hn).1) (by simp) (by simp) (by simp)

end Sys2Proof.Machine
end

