-- ==== Sys2Proof/WellFormed.lean ====
section
/-! DEFINITION. When a command's operands are ones that the world outside the block can present. `exec` gives every command its
meaning, well-formed or not; an ill-formed one stands for no event. -/

namespace Sys2Proof

/-- A dot of a line: line and dot number are 16-bit fields of the stamp (R51). -/
def goodDot (dot : Nat) : Bool := decide (dot < 65536)

/-- A register write over the bus and a transaction of the xSPI target carry 1 to 512 bytes (R416, R418). -/
def goodLen (n : Nat) : Bool := decide (1 ≤ n ∧ n ≤ 512)

/-- An alias write carries 1 to 64 bytes of one line (R94). -/
def goodAlias (off : Nat) (data : List Byte) : Bool := decide (1 ≤ data.length ∧ off % 64 + data.length ≤ 64)

/-- A thermal sensor reads −55 °C to 175 °C, in 1/16 °C (R464). -/
def goodReading (t : Int) : Bool := decide (-880 ≤ t ∧ t ≤ 2800)

/-- A line write names each of the line's 64 bytes, enabled or not (R71). -/
def LineOp.wf : LineOp → Bool
  | .read => true
  | .write bytes => bytes.length == 64

/-- A tunnelled access carries at most 64 bytes (R524). -/
def Msg.wf : Msg → Bool
  | .readReq _ _ _ => true
  | .writeReq _ _ data => decide (1 ≤ data.length ∧ data.length ≤ 64)
  | .response _ _ data => decide (data.length ≤ 64)
  | .ack _ _ => true

/-- A command whose operands the world can present. A write of the data window carries at most 512 bytes, perhaps none, and a read request of
more is served in transactions of 512 (R437, R438). -/
def Instr.wf : Instr → Bool
  | .irsRegWrite _ _ data => goodLen data.length
  | .refFrameStart mw => mw.length == 14 && mw.all (fun w => decide (w < 2 ^ 20))
  | .beamNowRead _ _ dot => goodDot dot
  | .vatAccess _ _ op _ _ _ => op.wf
  | .vatSetAliasWrite _ off data _ => goodAlias off.val data
  | .vatClearAliasWrite _ off data _ => goodAlias off.val data
  | .pipeLineStart _ dot _ _ => goodDot dot
  | .pipeFrameStart _ dot => goodDot dot
  | .portHpdRise _ dot => goodDot dot
  | .csiFs _ _ _ _ dot => goodDot dot
  | .csiLongPacket _ _ _ data _ _ => decide (data.length ≤ 65535)
  | .csiFe _ _ _ _ dot => goodDot dot
  | .streamFrameComplete _ dot => goodDot dot
  | .streamTimeout _ dot => goodDot dot
  | .camFsyncPulse _ dot => goodDot dot
  | .camFsyncEnd pulse => goodDot pulse.dot
  | .audFrameLatch _ _ dot => goodDot dot
  | .waitEnd _ dot => goodDot dot
  | .beamLoRead _ _ _ dot => goodDot dot
  | .safeWriteAtReached _ dot => goodDot dot
  | .dpWindowWrite _ data _ => decide (data.length ≤ 512)
  | .dpWindowRead _ len _ => decide (len ≤ 4096)
  | .xspiRead _ len => goodLen len
  | .xspiWrite _ data => goodLen data.length
  | .sensorRead readings => readings.length == 12 && readings.all goodReading
  | .msixEnable table _ => decide (table.entries.length ≤ 64)
  | .canFrameRx _ ide id rx => decide (rx.data.length ≤ 64) && (ide || decide (id.toNat < 2048))
  | .linkUp _ _ c0 => decide (32 ≤ c0 ∧ c0 ≤ 256)
  | .flitLaunch _ dot _ => goodDot dot
  | .timingFlitRx _ _ _ dot _ => goodDot dot
  | .lineFlitRx _ _ _ _ _ _ _ data dot => decide (data.length ≤ 112) && goodDot dot
  | .msgFlitRx _ _ m _ => m.wf
  | .audioFlitRx _ _ _ samples _ => samples.length == 32
  | .refCtlApply | .refLineStart | .refSynLock | .beamEpochRead .. | .refLost | .refRestored | .vatReinit
  | .vatInitDone | .vatCeWriteback .. | .vatBankTransitionDone .. | .vatC0ResApply .. | .scrubLine ..
  | .vatBankScrubDone .. | .bgtRegionOpen | .bgtRegionClose .. | .bgtRegionSkip | .planeLineFetched ..
  | .harpGateWrite .. | .harpObjPublish .. | .harpAffPublish .. | .harpScan .. | .harpStageDone .. | .pipeLatch ..
  | .pipeLateLatch .. | .fetchDrainRelease .. | .pipeCommit .. | .wbFrameDone .. | .portHpdFall ..
  | .portTrainingDone .. | .portTrainingTimeout .. | .portLinkLoss .. | .csiShortIgnored .. | .landingTagValid ..
  | .raceCutoff .. | .csiSyncLoss .. | .csiResyncDone .. | .rindVerdict .. | .rindC0CondSet ..
  | .rindC0CondClear .. | .add .. | .sub .. | .and .. | .or .. | .xor .. | .shl .. | .shr .. | .sar .. | .min ..
  | .max .. | .minu .. | .maxu .. | .cmpeq .. | .cmplt .. | .cmpltu .. | .adds .. | .subs .. | .abs .. | .clz ..
  | .addi .. | .andi .. | .ori .. | .xori .. | .shli .. | .shri .. | .sari .. | .cmpeqi .. | .cmplti .. | .li ..
  | .lih .. | .movx .. | .movg .. | .addx .. | .rdp .. | .rda .. | .rdar .. | .mul .. | .mulu .. | .mac .. | .msu ..
  | .macz .. | .macu .. | .mova .. | .ashr .. | .ains .. | .ldB .. | .ldBs .. | .ldH .. | .ldHs .. | .ldT .. | .ldW ..
  | .ldD .. | .stB .. | .stH .. | .stT .. | .stW .. | .stD .. | .ldx .. | .stx .. | .setw .. | .nopc .. | .br ..
  | .bz .. | .bnz .. | .call .. | .ret .. | .loop .. | .wait .. | .fence .. | .reti .. | .trap .. | .brg .. | .callg ..
  | .csrr .. | .csrw .. | .csrs .. | .csrc .. | .cycleLoRead .. | .ivecClaim .. | .farLoadResponse .. | .farStoreAck ..
  | .trapEntry .. | .interruptEntry .. | .lockstepMismatch | .seqLeaveReset .. | .seqHalt .. | .seqlKick ..
  | .seqlDoorbell .. | .slotWriteServed .. | .seqWdtExpire .. | .audMclkLost .. | .audMclkRestored .. | .audPortSlip ..
  | .tdmFsError .. | .tdmResyncDone .. | .asrcLock .. | .asrcUnlock .. | .xpGainWrite .. | .stGainWrite ..
  | .gainChangeStart .. | .audZcTimeout .. | .audCoreLeaveReset .. | .audBlockBoundary .. | .audlDone .. | .audlKick ..
  | .audlDoorbell .. | .audCoreWdtExpire .. | .playGo .. | .playStop .. | .audPlayStart ..
  | .audPlayDone .. | .pressStart .. | .pressEntryFetched .. | .pressNop .. | .pressFill .. | .pressCopy ..
  | .pressBlend .. | .pressConvert .. | .pressExpand .. | .pressRotate .. | .pressEntryDone .. | .pressTimeout ..
  | .pressAbort .. | .dmaStart .. | .dmaDescFetched .. | .dmaGateOpen .. | .dmaDescDone .. | .dmaTimeout ..
  | .dmaStop .. | .dmaDeadline .. | .timerWrap .. | .timerCompare .. | .timerCapture .. | .timerSlaveRestart ..
  | .timerLineRestart .. | .timerStart .. | .timerStop .. | .timerCountWrite .. | .timerCmpWrite ..
  | .timerCountRead .. | .timerCaptureRead .. | .intcEnSet .. | .intcEnClr .. | .intcPendSet .. | .intcPendClr ..
  | .msixUnmask .. | .mbxDoorbell .. | .nop .. | .getInfo .. | .paramSet .. | .paramGet ..
  | .powerState .. | .resetWarm .. | .resetBlock .. | .faultStatus .. | .reinstate .. | .selftestRun ..
  | .selftestResults .. | .logRead .. | .updateBegin .. | .updateData .. | .updateFinish .. | .updateActivateTrial ..
  | .updateActivateCommit .. | .getCert .. | .attest .. | .lifecycleChallenge .. | .keygen .. | .certInstall ..
  | .lifecycleTransition .. | .revokeKey .. | .takeover .. | .takeoverRelease .. | .handback .. | .handbackTake
  | .safeWrite .. | .mbxHeadWrite .. | .mbxModTimeout .. | .dpPrefetch .. | .dpPrefetchReady .. | .hostTimeout
  | .cellarWdtExpire | .romBoot | .voltageSample .. | .clockMonitorChange .. | .logFlush | .bootToView
  | .signalTimeout .. | .canBusoff .. | .canBusoffRecovery .. | .telltaleWrite .. | .chimePreempt ..
  | .telltaleBlink .. | .bulbCheckEnd .. | .linkDown .. | .linkRetrain .. | .chainDiscovery .. | .intrFlitRx ..
  | .idleFlitRx .. | .cascTimeStep | .cascHoldover | .tunnelTimeout .. | .cascPeerIrqFifoRead .. | .pwrReqRise
  | .powerReturnDone | .pwrGoodRise .. | .thermalTrip | .por .. | .pinReset .. | .hostReset .. | .flr | .warmReset
  | .wdtReset | .retryDone .. | .suspectExpire .. | .selftestComplete .. | .repairMapWrite | .testSessionOpen
  | .testSessionClose | .pinFunctionSwitch .. | .pinFilterChange .. | .pinDebounceEnd .. | .pinFlagClr ..
  | .pinDoutSet .. | .pinDoutClr .. | .audSampleEdge .. | .csiPhySyncAcquired .. | .tdmPortSyncAcquired ..
  | .lp5xPeriodicRetraining .. | .msixDisable | .busMasterEnableWrite .. | .pcieLinkUp .. | .pmeTurnOff
  | .takeoverTimeout => true

end Sys2Proof
end

