-- ==== Sys2Proof/Tests/Slice0.lean ====
section
/-! SUPPORT. Tests: ill-formed operands are refused, words of the spec's syllable encoding decode to their operations, small steps whose
result the spec states, and for every statement about the block a state and operands that meet its hypotheses together, clause by
clause. A state is the one after reset with the register fields that a list names. -/

namespace Sys2Proof.Tests

open Sys2Proof.Machine

set_option maxRecDepth 20000
set_option Elab.async false

/-- The state after reset with the fields of a list at the values it gives. -/
def st (l : List (Fld × Nat)) : State := l.foldl (fun s f => s.wr f.1 f.2) State.reset

/-- `State.Canonical` as a test that evaluates. -/
def canonB (s : State) : Bool :=
  decide (Sparse.Rising s.cells) && decide (Sparse.Rising s.latched) && decide (Sparse.Rising s.snap) && decide (Sparse.Rising s.params) &&
    decide (Memory.wf 0#8 s.mem) && decide (Memory.wf 0#8 s.vat.data) && decide (Memory.wf 0xFF#8 s.cellar.flash)

theorem canonical_of {s : State} (h : canonB s = true) : s.Canonical := by
  simp only [canonB, Bool.and_eq_true, decide_eq_true_eq] at h
  obtain ⟨⟨⟨⟨⟨⟨h1, h2⟩, h3⟩, h4⟩, h5⟩, h6⟩, h7⟩ := h
  exact ⟨h1, h2, h3, h4, h5, h6, h7⟩

/-! ### Well-formedness: one ill-formed command for each check -/

/-- Lengths, readings and part counts out of range. -/
theorem test_illFormed_operands :
    [Instr.irsRegWrite .cellar 0 [], .irsRegWrite .cellar 0 (List.replicate 513 0), .refFrameStart [1, 2, 3], .refFrameStart (List.replicate 14 0x100000),
     .vatAccess .cellar 0 (.write [none]) .none 0 0, .vatSetAliasWrite .cellar 63 [1, 2] .none, .vatClearAliasWrite .cellar 0 [] .none,
     .csiLongPacket 0 0 0x2A (List.replicate 65536 0) .none false, .dpWindowWrite false (List.replicate 513 0) none, .dpWindowRead false 4097 none, .xspiRead 0 0,
     .xspiWrite 0 [], .sensorRead [0], .sensorRead (List.replicate 12 2801), .canFrameRx 0 true 5 ⟨List.replicate 65 0, 0, 0⟩, .canFrameRx 0 false 2048 ⟨[], 0, 0⟩,
     .msixEnable ⟨0, List.replicate 65 (0, 0)⟩ false,
     .linkUp 0 15 31, .linkUp 0 15 257].all (fun c => !c.wf) = true := by decide +kernel

/-- A dot past the 16 bits of a stamp. -/
theorem test_illFormed_dots :
    [Instr.beamNowRead .cellar .low 65536, .pipeLineStart 0 65536 0 false, .pipeFrameStart 0 65536, .portHpdRise 0 65536, .csiFs 0 0 1 .none 65536,
     .csiFe 0 0 1 .none 65536, .streamFrameComplete 0 65536, .streamTimeout 0 65536, .camFsyncPulse 0 65536, .camFsyncEnd ⟨0, 65536⟩, .audFrameLatch 0 0 65536, .waitEnd 0 65536,
     .beamLoRead 0 true 1 65536, .safeWriteAtReached 0 65536, .flitLaunch 0 65536 0].all (fun c => !c.wf) = true := by decide +kernel

/-- Flits that do not fit their layout. -/
theorem test_illFormed_flits (h : FlitHead) (t : Timing) (x : List Byte) :
    [Instr.timingFlitRx 0 h t 65536 0, .lineFlitRx 0 h 0 0 false false 0 (List.replicate 113 0) 0, .lineFlitRx 0 h 0 0 false false 0 [] 65536,
     .msgFlitRx 0 h (.writeReq 0 0 []) x, .msgFlitRx 0 h (.response 0 false (List.replicate 65 0)) x, .audioFlitRx 0 h 0 [] true].all
      (fun c => !c.wf) = true := rfl

/-- And well-formed commands pass. -/
theorem test_wellFormed :
    [Instr.irsRegWrite .cellar 0x200000 [1, 2, 3, 4], .refFrameStart (List.replicate 14 0), .pipeLineStart 7 65535 0 false,
     .vatAccess .cellar 5 .read .none 0 0, .vatSetAliasWrite .cellar 63 [1] .none, .xspiRead 0 512, .linkUp 0 15 256, .canFrameRx 1 false 2047 ⟨[], 0, 0⟩, .dpWindowRead false 0 none,
     .msixEnable ⟨0, List.replicate 64 (0, 0)⟩ false,
     .sensorRead (List.replicate 12 (-880)), .por 0 false true].all Instr.wf = true := by decide +kernel

/-! ### Words written out from R261, R262 and R269 to R272: stop bit, unit, OP, and the fields of the format -/

theorem test_decode_table (s : State) (n w : Nat) : decodeTableWord n w = none ∧ s.withFetchWord n w = s := ⟨rfl, rfl⟩

theorem test_decode_add : decodeSyl 0b1_000_000000_00011_00100_00101_0000000#32 = some (.alu false .add 3 4 5) := by decide
theorem test_decode_xori : decodeSyl 0b0_001_100011_00001_11111_111111111111#32 = some (.alui true .xor 1 31 0xFFF) := by decide
theorem test_decode_mac : decodeSyl 0b1_010_000010_00011_00111_01000_0_000000#32 = some (.mul .mac 3 7 8) := by decide
theorem test_decode_stT : decodeSyl 0b1_011_001010_11110_101_110_10_100000001#32 = some (.st .t 30 ⟨5, 6, 2, 0x101⟩) := by decide
theorem test_decode_bnz : decodeSyl 0b1_100_000010_00010_1_0000000000001111#32 = some (.bnz 2 15) := by decide
/-- A reserved bit, an unassigned OP and a reserved unit are illegal. -/
theorem test_decode_illegal : decodeSyl 0b1_000_000000_00011_00100_00101_0000001#32 = none ∧ decodeSyl 0b1_100_111111_0000000000000000000000#32 = none ∧
    decodeSyl 0b1_111_000000_0000000000000000000000#32 = none := by decide
theorem test_stop_bit : stopBit 0x80000000#32 = true ∧ stopBit 0x7FFFFFFF#32 = false := by decide

/-! ### Small steps -/

/-- An empty queue: nothing changes. -/
theorem test_step_idle : step State.reset = .next State.reset := rfl

/-- A step takes the command at the front. -/
theorem test_step_front : step { State.reset with pending := [.refLost, .nop 0] } = exec .refLost { State.reset with pending := [.nop 0] } := rfl

/-- Register values that R68 states for reset. -/
theorem test_reset_values : State.reset.rd F.refGeom_LINES = 3000 ∧ State.reset.rd F.refGeom_DOTS = 0x1130 ∧ State.reset.rd F.refStatus_STATE = 1 := by decide +kernel

/-- The Vat reads back what was written, lowest byte first (R2, R71). -/
theorem test_vat_readback :
    (memRead .cellar (vatBase + 0x40) 4 (memWrite .cellar (vatBase + 0x40) (natLE 4 0x11223344) (st [(F.vatStatus_STATE, 2)])).2).1 =
      [0x44, 0x33, 0x22, 0x11] := by decide +kernel

/-- A write to the set alias sets the bits at 1 and leaves the others (R94). -/
theorem test_set_alias :
    (match exec (.vatSetAliasWrite .cellar 0x40 [0x0F] .none) (memWrite .cellar (vatBase + 0x40) [0xA0] (st [(F.vatStatus_STATE, 2)])).2 with
     | .next t => (memRead .cellar (vatBase + 0x40) 1 t).1
     | _ => []) = [0xAF] := by decide +kernel

/-- An address of no region answers ones with an error (R26). -/
theorem test_decode_error : (busRead .cellar 0x6000000000 4 (st [])).1 = [0xFF, 0xFF, 0xFF, 0xFF] ∧ (busRead .cellar 0x6000000000 4 (st [])).2.1 = true := by
  decide +kernel

/-- A loss of the reference input in RUNNING: HOLDOVER, and source 480 pends (R64). -/
theorem test_ref_lost :
    (match exec .refLost (st [(F.refStatus_STATE, 2)]) with | .next t => (t.rd F.refStatus_STATE, t.isPending 480) | _ => (0, false)) = (3, true) := by
  decide +kernel

/-! ### States that meet the hypotheses: the machine -/

theorem test_meets_StepRunsCommand : ∃ (s : State) (c : Instr) (rest : List Instr), s.pending = c :: rest ∧ (∃ s : State, s.pending = []) :=
  ⟨{ State.reset with pending := [.refLost] }, .refLost, [], rfl, State.reset, rfl⟩

theorem test_meets_StepKeepsCanonical : ∃ s t : State, s.Canonical ∧ step s = .next t :=
  ⟨State.reset, State.reset, canonical_of (by decide +kernel), rfl⟩

theorem test_meets_FusesOnlyBlow : ∃ (c : Instr) (s t : State), s.cellar.fuses.arb ≤ 128 ∧ exec c s = .next t :=
  ⟨.keygen 0, State.reset, _, by decide, rfl⟩

theorem test_meets_ResetState : ∃ f : Fld, f.key ≠ F.refStatus_STATE.key := ⟨F.beamNow_LINE, by decide⟩

/-! ### States that meet the hypotheses: the reference raster and the locks -/

namespace Raster

def run1 : State := st [(F.refStatus_STATE, 2), (F.beamNow_LINE, 5), (F.beamNow_FRAME, 65535)]
def run2 : State :=
  let s := st [(F.refStatus_STATE, 2), (F.beamNow_LINE, 1124), (F.beamNow_FRAME, 65535), (F.refStatus_RECONFIG_PEND, 1),
      (F.refStatus_REF_IN_OK, 1)]
  {s with ref := {s.ref with setting := {s.ref.setting with lines := 1125}}}

theorem test_meets_ReferenceSettings : ∃ (s : State),
      s.Canonical ∧ s.rd F.refStatus_STATE = 1 ∧ s.fault.tripHold = false :=
  ⟨(st [(F.refStatus_STATE, 1)]), canonical_of (by decide +kernel), by decide +kernel⟩

theorem test_meets_BeamAdvances :
    (∃ (s : State),
      s.Canonical ∧ s.beamRuns = false) ∧
    (∃ (s : State),
      let line := s.rd F.beamNow_LINE
      s.Canonical ∧ s.beamRuns = true ∧ line + 1 < s.ref.setting.lines) ∧
    (∃ (s : State),
      let line := s.rd F.beamNow_LINE
      s.Canonical ∧ s.beamRuns = true ∧ s.ref.setting.lines ≤ line + 1) :=
  ⟨⟨(st []), canonical_of (by decide +kernel), by decide +kernel⟩,
   ⟨run1, canonical_of (by decide +kernel), by decide +kernel⟩,
   ⟨run2, canonical_of (by decide +kernel), by decide +kernel⟩⟩

theorem test_meets_BeamReads :
    (∃ (s : State) (who : Initiator),
      s.Canonical ∧ reaches who .irs = true) ∧
    (∃ (s : State) (who : Initiator),
      s.Canonical ∧ reaches who .irs = false) :=
  ⟨⟨run1, (.bar false), canonical_of (by decide +kernel), by decide +kernel⟩,
   ⟨run1, (.press 0), canonical_of (by decide +kernel), by decide +kernel⟩⟩

theorem test_meets_ReferenceInput :
    (∃ (s : State),
      let line := s.rd F.beamNow_LINE
      s.Canonical ∧ (s.rd F.refStatus_STATE = 2 ∨ s.rd F.refStatus_STATE = 3) ∧ s.rd F.pwrStatus_STATE < 3 ∧ line + 1 < s.ref.setting.lines ∧
          s.ref.shadows = [] ∧ s.rd F.refStatus_STATE = 2 ∧ s.fault.tripHold = false) ∧
    (∃ (s : State),
      let line := s.rd F.beamNow_LINE
      s.Canonical ∧ (s.rd F.refStatus_STATE = 2 ∨ s.rd F.refStatus_STATE = 3) ∧ s.rd F.pwrStatus_STATE < 3 ∧
          s.ref.setting.lines ≤ line + 1) ∧
    (∃ (s : State),
      s.Canonical ∧ s.rd F.refStatus_STATE = 3) :=
  ⟨⟨run1, canonical_of (by decide +kernel), by decide +kernel⟩,
   ⟨run2, canonical_of (by decide +kernel), by decide +kernel⟩,
   ⟨(st [(F.refStatus_STATE, 3)]), canonical_of (by decide +kernel), by decide +kernel⟩⟩

end Raster

/-! ### States that meet the hypotheses: the Vat -/

namespace Vat

def v0 : State := st [(F.vatStatus_STATE, 2), (F.vatCtl_SCRUB_EN, 1), (F.vatCtl_BGT_EN, 1), (F.vatBankErr_UE 3, 65535),(F.vatBankErr_CE 3,
    65535)]
def v1 : State := { v0 with vat := { v0.vat with data := [(physAddr 3 5 0, 7#8), (physAddr 3 5 63, 9#8), (physAddr 3 6 0, 1#8), (physAddr 4 6 0, 1#8)], ceQueue := [(1,4),(3,9),(3,8)], scrubbing := [3, 4], ueSince := [3], poison := [2,5] } }
def vr : State := st [(F.vatBankStatus_HEALTH 2, 2), (F.vatBankStatus_PWR 5, 1), (F.vatBankStatus_PWR 6, 2), (F.vatCtl_GROUP_LOG2, 7),
    (F.vatStatus_STATE, 1), (F.vatStatus_KEY_ID, 255), (F.vatBankErr_UE 3, 5)]
def lin : Fin 0x400000 := 12345
def loc := (v0.vatLoc (lin.val * 64)).getD (99,0)
def v2 : State := { v0 with vat := { v0.vat with data := [(physAddr loc.1 loc.2 0, 7#8), (physAddr loc.1 loc.2 63, 9#8)] } }
def mv (o t : Nat) (v : Nat) : State :=
  let s := (st [(F.vatStatus_STATE, 2), (F.vatBankStatus_RET_VOID 3, v), (F.vatBankStatus_PWR 3, 3)])
  { s with vat := { v1.vat with moving := [(3,o,t), (4, 1, 1)] } }
def bg (b r : Nat) : State := { st [(F.vatStatus_STATE, 2), (F.vatCtl_BGT_EN, 1), (F.vatBgtPos_BANK, b), (F.vatBgtPos_REGION, r), (F.vatBgtPos_PASSES, 4095), (F.vatBgtFail_COUNT, 255), (F.vatBgtPos_PHASE, 1), (F.vatBgtSkipped_COUNT, 65535)] with vat := { v1.vat with bgt := some ⟨b, r⟩ } }

theorem test_meets_VatInitialises : ∃ (s : State),
      s.Canonical ∧ s.scanning = false ∧ s.rd F.vatStatus_STATE = 1 :=
  ⟨vr, canonical_of (by decide +kernel), by decide +kernel⟩

theorem test_meets_VatServes :
    (∃ (s : State) (who : Initiator) (line : Fin 0x400000) (k : Fin 64) (row : Nat),
      s.Canonical ∧ s.vatLoc (line.val * 64) = some (k.val, row) ∧ s.bankServes k.val = true ∧ (∀ w,
          w < 4 → s.poisoned (eccWord (physAddr k.val row (16 * w))) = false) ∧ reaches who .vat = false) ∧
    (∃ (s : State) (who : Initiator) (line : Fin 0x400000) (k : Fin 64) (row : Nat),
      s.Canonical ∧ s.vatLoc (line.val * 64) = some (k.val, row) ∧ s.bankServes k.val = true ∧ (∀ w,
          w < 4 → s.poisoned (eccWord (physAddr k.val row (16 * w))) = false) ∧ reaches who .setAlias = false ∧
          reaches who .clearAlias = false) ∧
    (∃ (s : State) (who : Initiator) (line : Fin 0x400000) (i : Fin 64) (k : Fin 64) (row : Nat),
      let off : Fin 0x10000000 := ⟨line.val * 64 + i.val, by omega⟩
      s.Canonical ∧ s.vatLoc (line.val * 64) = some (k.val, row) ∧ s.bankServes k.val = true ∧ (∀ w,
          w < 4 → s.poisoned (eccWord (physAddr k.val row (16 * w))) = false) ∧ reaches who .vat = true ∧
          s.lockedAgainst who (line.val * 64) = false ∧ reaches who .setAlias = true ∧ reaches who .clearAlias = true ∧
          s.lockedAgainst who off.val = false) :=
  ⟨⟨v2, (.bar true), lin, (Fin.ofNat 64 loc.1), loc.2, canonical_of (by decide +kernel), by decide +kernel⟩,
   ⟨v2, (.press 0), lin, (Fin.ofNat 64 loc.1), loc.2, canonical_of (by decide +kernel), by decide +kernel⟩,
   ⟨v2, .cellar, lin, 0, (Fin.ofNat 64 loc.1), loc.2, canonical_of (by decide +kernel), by decide +kernel⟩⟩

theorem test_meets_VatErrors :
    (∃ (s : State) (k : Fin 64) (row : Fin 65536) (w : Fin 4) (older : List (Nat × Nat)) (newer : List (Nat × Nat)) (v : Nat),
      let word := eccWord (physAddr k.val row.val (16 * w.val))
      s.Canonical ∧ (s.rd F.vatCtl_SCRUB_EN = 1 ∨ s.vat.scrubbing.contains k.val = true) ∧ s.bankServes k.val = true ∧
          s.poisoned word = false ∧ s.vat.ceQueue = older ++ (k.val, v) :: newer ∧ (∀ c ∈ older, c.1 ≠ k.val) ∧
          s.vat.scrubbing.contains k.val = true ∧ s.vat.scrubBurst.contains k.val = false) ∧
    (∃ (s : State) (k : Fin 64) (row : Fin 65536) (line : Fin 0x400000),
      s.Canonical ∧ s.vatLoc (line.val * 64) = some (k.val, row.val) ∧ s.bankServes k.val = false) ∧
    (∃ (s : State) (k : Fin 64) (row : Fin 65536) (line : Fin 0x400000) (n : Fin 4),
      s.Canonical ∧ s.vatLoc (line.val * 64) = some (k.val, row.val) ∧ s.rd (F.vatLock_BASE n.val) * 65536 ≤ line.val * 64 ∧
          line.val * 64 < (s.rd (F.vatLock_BASE n.val) + s.rd (F.vatLock_SIZE n.val)) * 65536) :=
  ⟨⟨v1, 3, 5, 3, [(1,4)], [(3,8)], 9, canonical_of (by decide +kernel), by decide +kernel⟩,
   ⟨(v0.wr (F.vatBankStatus_PWR loc.1) 1), (Fin.ofNat 64 loc.1), (Fin.ofNat 65536 loc.2), lin, canonical_of (by decide +kernel),
       by decide +kernel⟩,
   ⟨((v0.wr (F.vatLock_BASE 3) 12).wr (F.vatLock_SIZE 3) 1), (Fin.ofNat 64 loc.1), (Fin.ofNat 65536 loc.2), lin, 3,
       canonical_of (by decide +kernel), by decide +kernel⟩⟩

theorem test_meets_VatBankPower : ∃ (s : State) (k : Fin 64) (old : Fin 3) (target : Fin 3),
      s.Canonical ∧ ((s.vat.moving.find? fun m => m.1 == k.val) = some (k.val, old.val, target.val)) ∧ s.vat.queued = [] :=
  ⟨(mv 2 0 0), 3, 2, 0, canonical_of (by decide +kernel), by decide +kernel⟩

theorem test_meets_BackgroundTest :
    (∃ (s : State),
      let bank := s.rd F.vatBgtPos_BANK
      s.Canonical ∧ s.rd F.vatCtl_BGT_EN = 1 ∧ s.vat.bgt = none ∧ bank < 64 ∧ s.bankServes bank = true) ∧
    (∃ (s : State) (b : BgtRun),
      s.Canonical ∧ s.vat.bgt = some b ∧ b.bank < 64 ∧ b.region < 1024) :=
  ⟨⟨{ v0 with vat := { v0.vat with bgt := none } }, canonical_of (by decide +kernel), by decide +kernel⟩,
   ⟨(bg 63 1023), ⟨63, 1023⟩, canonical_of (by decide +kernel), by decide +kernel⟩⟩

end Vat

/-! ### States that meet the hypotheses: planes, Harp, pipes and ports -/

namespace Picture

def stL (l : List (Fld × Nat)) (s : State) : State := l.foldl (fun s f => { s with latched := Sparse.put f.1.key (f.2 % 2 ^ f.1.width) f.1.reset s.latched }) s
def P0 (f : PlaneRun → PlaneRun) (n : Nat) (s : State) : State := { s with planes := s.planes.modify n f }
def sP : State := P0 (fun r => { r with fetch := some 5, pipe := some 0 }) 0 (st [])
def sP1 : State := P0 (fun r => { r with fetch := some 5, pipe := some 0 }) 0 (stL [(F.planeCfg_KIND 0, 2), (F.planeCfg_SRC_SEL 0,
    2)] (st []))
def own (i : Nat) (g : List HarpGate) : State :=
  let s := st [(F.harpGrp_OWNER i, 3)]
  { s with harp := { s.harp with gates := g } }
def gHarp (f : HarpRun → HarpRun) (p : Nat) (s : State) : State := { s with harp := { s.harp with pipes := s.harp.pipes.modify p f } }
def hw (l : Nat) : State := gHarp (fun r => {r with work := some l, stage := if l = 0 then none else some (0,0,0,0,0)}) 3 (stL [(F.pipeH_HACTIVE 3, 20)] (st []))
def hs : State :=
  let s := st [(F.vatStatus_STATE, 2)]
  gHarp (fun r => {r with stage := some (vatBase+0x7000, 4095, 1, 0, 0) }) 3 s
def hd := memRead (.harp 3) (vatBase+0x7000) 32 hs
def pp (f : PipeRun → PipeRun) (p : Nat) (s : State) : State := { s with pipes := s.pipes.modify p f }
def pi (state line : Nat) (f : PipeRun → PipeRun) : State :=
  pp f 2 (stL [(F.pipeV_VACTIVE 2, 8), (F.pipeH_HACTIVE 2, 20), (F.pipeV_VBLANK_MIN 2, 4), (F.pipeVmax_VBLANK_MAX 2, 9),
      (F.pipeH_HTOTAL_M1 2, 40)] (st [(F.refStatus_STATE, 2), (F.pipeStatus_STATE 2, state), (F.pipeStatus_LINE 2, line), (F.pipeCtl_EN 2,
      1), (F.pipeFrames_COUNT 2, 2^32-1), (F.pipeRetired_COUNT 2, 2^32-1), (F.pipeCtl_DITHER 2, 1), (F.pipeCommitSeq_PENDING 2, 7)]))
def pig (state line : Nat) (f : PipeRun → PipeRun) : State := stL [(F.pipeCtl_READY_GATE 2, 1)] (pi state line f)

theorem test_meets_PlaneLines :
    (∃ (s : State) (n : Fin 32) (l : Nat),
      s.Canonical ∧ (s.plane n.val).fetch = some l ∧ s.planeSel n.val = 2 ∧ s.racedReady n.val l = false) ∧
    (∃ (s : State) (n : Fin 32) (l : Nat),
      s.Canonical ∧ (s.plane n.val).fetch = some l ∧ (s.planeSel n.val ≠ 2 ∨ s.racedReady n.val l = true)) :=
  ⟨⟨sP1, 0, 5, canonical_of (by decide +kernel), by decide +kernel⟩,
   ⟨sP, 0, 5, canonical_of (by decide +kernel), by decide +kernel⟩⟩

theorem test_meets_HarpGates :
    (∃ (s : State) (who : Initiator) (i : Fin 4096) (w : Fin 7),
      let tag := initiatorTag who
      let off : BitVec 18 := BitVec.ofNat 18 (i.val * 32 + w.val * 4)
      s.Canonical ∧ s.shutOut who (0x500000 + off.toNat) = false ∧ s.harpOwns tag (i.val / 64) = true ∧ s.gateOf tag = none) ∧
    (∃ (s : State) (who : Initiator) (i : Fin 4096),
      let tag := initiatorTag who
      s.Canonical ∧ s.harpOwns tag (i.val / 64) = false) ∧
    (∃ (s : State) (who : Initiator) (i : Fin 4096) (gated : List (Nat × Nat)),
      let tag := initiatorTag who
      s.Canonical ∧ s.shutOut who (harpOff false i.val 7) = false ∧ s.harpOwns tag (i.val / 64) = true ∧ s.gateOf tag = some ⟨tag, false,
          i.val, gated⟩ ∧ (∀ x ∈ gated, x.1 < 7) ∧ (gated.Pairwise (fun a b => a.1 ≠ b.1))) ∧
    (∃ (s : State) (who : Initiator) (set : Fin 1024) (gated : List (Nat × Nat)),
      let tag := initiatorTag who
      s.Canonical ∧ s.shutOut who (harpOff true set.val 3) = false ∧ s.harpOwns tag (set.val / 16) = true ∧ s.gateOf tag = some ⟨tag, true,
          set.val, gated⟩ ∧ (∀ x ∈ gated, x.1 < 3) ∧ (gated.Pairwise (fun a b => a.1 ≠ b.1))) :=
  ⟨⟨(own 7 []), (.seq 3), 455, 6, canonical_of (by decide +kernel), by decide +kernel⟩,
   ⟨(own 6 []), (.seq 3), 455, canonical_of (by decide +kernel), by decide +kernel⟩,
   ⟨(own 7 [⟨.seq 3, false, 455, [(0, 0xFFFFFFFF), (6, 5)]⟩]), (.seq 3), 455, [(0, 0xFFFFFFFF), (6, 5)], canonical_of (by decide +kernel),
       by decide +kernel⟩,
   ⟨(own 7 [⟨.seq 3, true, 127, [(0, 0xFFFFFFFF), (2, 5)]⟩]), (.seq 3), 127, [(0, 0xFFFFFFFF), (2, 5)], canonical_of (by decide +kernel),
       by decide +kernel⟩⟩

theorem test_meets_HarpWork :
    (∃ (s : State) (p : Fin 8) (l : Nat),
      s.Canonical ∧ (s.harpRun p.val).work = some l ∧ (l = 0 → (s.harpRun p.val).stage = none) ∧ (s.harpRun p.val).caps = [] ∧
          (∀ i : Fin 4096, s.rd (F.harpObjCtl_EN i.val) = 0)) ∧
    (∃ (s : State) (p : Fin 8) (addr : Nat) (first : Nat) (d : List Byte) (u : State),
      s.Canonical ∧ (s.harpRun p.val).stage = some (addr, first, 1, 0, 0) ∧ first < 4096 ∧ (s.harpRun p.val).staged = false ∧
          memRead (.harp p) addr 32 s = (d, false, u)) :=
  ⟨⟨(hw 5), 3, 5, canonical_of (by decide +kernel), by decide +kernel⟩,
   ⟨hs, 3, (vatBase+0x7000), 4095, hd.1, hd.2.2, canonical_of (by decide +kernel), by decide +kernel⟩⟩

theorem test_meets_PipeLines_1 :
    (∃ (s : State) (p : Fin 8),
      s.Canonical ∧ s.rd (F.pipeStatus_STATE p.val) = 0) ∧
    (∃ (s : State) (p : Fin 8),
      let r := s.pipe p.val
      s.Canonical ∧ s.pipeOn p.val = true ∧ r.atLine0 = true) ∧
    (∃ (s : State) (p : Fin 8),
      let r := s.pipe p.val
      let line := s.rd (F.pipeStatus_LINE p.val)
      s.Canonical ∧ s.rd (F.pipeStatus_STATE p.val) = 2 ∧ r.atLine0 = false ∧ line + 1 < s.vactive p.val) ∧
    (∃ (s : State) (p : Fin 8),
      let r := s.pipe p.val
      let line := s.rd (F.pipeStatus_LINE p.val)
      s.Canonical ∧ s.rd (F.pipeStatus_STATE p.val) = 2 ∧ r.atLine0 = false ∧ s.vactive p.val ≤ line + 1) :=
  ⟨⟨(pi 0 0 id), 2, canonical_of (by decide +kernel), by decide +kernel⟩,
   ⟨(pi 1 3 fun r => {r with atLine0 := true}), 2, canonical_of (by decide +kernel), by decide +kernel⟩,
   ⟨(pi 2 3 id), 2, canonical_of (by decide +kernel), by decide +kernel⟩,
   ⟨(pi 2 7 id), 2, canonical_of (by decide +kernel), by decide +kernel⟩⟩

theorem test_meets_PipeLines_2 :
    (∃ (s : State) (p : Fin 8) (dot : Nat),
      let u := s.atDot dot
      let r := s.pipe p.val
      s.Canonical ∧ s.inBlanking p.val = true ∧ r.atLine0 = false ∧ r.atBlank0 = false ∧ u.frameDue p.val = false) ∧
    (∃ (s : State) (p : Fin 8) (dot : Nat),
      let u := s.atDot dot
      s.Canonical ∧ s.pipeOn p.val = true ∧ u.frameDue p.val = true) :=
  ⟨⟨(pi 3 8 id), 2, 5, canonical_of (by decide +kernel), by decide +kernel⟩,
   ⟨(pi 3 8 fun r => {r with blank := 3}), 2, 5, canonical_of (by decide +kernel), by decide +kernel⟩⟩

theorem test_meets_PipeLatches :
    (∃ (s : State) (p : Fin 8),
      let r := s.pipe p.val
      s.Canonical ∧ s.inBlanking p.val = true ∧ s.rd (F.pipeCtl_EN p.val) = 1 ∧ r.latchDone = false ∧ r.atBlank0 = false ∧ r.blank = 0 ∧
          s.readyGate p.val = true ∧ r.pend = false) ∧
    (∃ (s : State) (p : Fin 8),
      let r := s.pipe p.val
      s.Canonical ∧ s.inBlanking p.val = true ∧ s.rd (F.pipeCtl_EN p.val) = 1 ∧ r.latchDone = false ∧ r.atBlank0 = false ∧ r.blank = 0 ∧
          (s.readyGate p.val = false ∨ r.pend = true)) ∧
    (∃ (s : State) (p : Fin 8),
      let r := s.pipe p.val
      s.Canonical ∧ s.inBlanking p.val = true ∧ s.rd (F.pipeCtl_EN p.val) = 1 ∧ r.latchDone = true ∧ s.readyGate p.val = true ∧
          r.latchLine = none ∧ r.pend = true ∧ r.aged = true ∧ 1 ≤ r.blank ∧ r.blank < 8192 ∧ r.blank ≤ s.vmax p.val - 2) :=
  ⟨⟨(pig 3 8 id), 2, canonical_of (by decide +kernel), by decide +kernel⟩,
   ⟨(pi 3 8 id), 2, canonical_of (by decide +kernel), by decide +kernel⟩,
   ⟨(pig 3 8 fun r => {r with latchDone := true, pend := true, aged := true, blank := 7}), 2, canonical_of (by decide +kernel),
       by decide +kernel⟩⟩

theorem test_meets_PipeCommits :
    (∃ (s : State) (who : Initiator) (p : Fin 8),
      let r := s.pipe p.val
      let tag := initiatorTag who
      s.Canonical ∧ s.shutOut who (pipeOff p.val) = false ∧ mayWrite true (some p.val) false tag = true ∧ s.heldRes 0x30 p.val = false ∧
          s.pipeOn p.val = true ∧ r.addrs = []) ∧
    (∃ (s : State) (who : Initiator) (p : Fin 8),
      let tag := initiatorTag who
      s.Canonical ∧ mayWrite true (some p.val) false tag = false) ∧
    (∃ (s : State) (p : Fin 8) (slot : Fin 12) (a : BitVec 40),
      let r := s.pipe p.val
      s.Canonical ∧ r.drain = [(slot.val, a.toNat)] ∧ r.wb.active = true ∧ s.rd (F.pipeStatus_STATE p.val) ≠ 2 ∧ r.wb.held = [] ∧
          r.wb.ending = []) :=
  ⟨⟨(pi 3 8 id), (.bar false), 2, canonical_of (by decide +kernel), by decide +kernel⟩,
   ⟨(pi 3 8 id), (.seq 3), 2, canonical_of (by decide +kernel), by decide +kernel⟩,
   ⟨(pi 3 8 fun r => {r with drain := [(11, 64)], raised := 0xFFF, wb := {r.wb with active := true, buf := 17, stamp := 2^48+5} }), 2, 11,
       64, canonical_of (by decide +kernel), by decide +kernel⟩⟩

theorem test_meets_DisplayPorts :
    (∃ (s : State) (k : Fin 8),
      let on := s.rd (F.portCtl_EN k.val) = 1
      s.Canonical ∧ on ∧ s.unitState (unitId 0 k.val) ≠ 2 ∧ s.portLanes k.val ≠ 0) ∧
    (∃ (s : State) (k : Fin 8),
      let on := s.rd (F.portCtl_EN k.val) = 1
      s.Canonical ∧ ¬on) ∧
    (∃ (s : State) (k : Fin 8),
      s.Canonical ∧ s.rd (F.portStatus_STATE k.val) = 1 ∧ Fresh (unitId 0 k.val) s) ∧
    (∃ (s : State) (k : Fin 8),
      s.Canonical ∧ s.rd (F.portStatus_HPD k.val) = 1 ∧ (s.rd (F.portStatus_STATE k.val) = 2 ∨ s.rd (F.portStatus_STATE k.val) = 3) ∧
          Fresh (unitId 0 k.val) s) :=
  ⟨⟨(st [(F.portCtl_EN 7, 1)]), 7, canonical_of (by decide +kernel), by decide +kernel⟩,
   ⟨(st []), 7, canonical_of (by decide +kernel), by decide +kernel⟩,
   ⟨(st [(F.portStatus_STATE 0, 1), (F.portCtl_EN 0, 1)]), 0, canonical_of (by decide +kernel), by unfold Fresh; decide +kernel⟩,
   ⟨(st [(F.portStatus_STATE 7, 2), (F.portStatus_HPD 7, 1), (F.portCtl_EN 7, 1)]), 7, canonical_of (by decide +kernel),
       by unfold Fresh; decide +kernel⟩⟩

end Picture

/-! ### States that meet the hypotheses: cameras and Rind -/

namespace Camera

def stL (l : List (Fld × Nat)) (s : State) : State := l.foldl (fun s f => { s with latched := Sparse.put f.1.key (f.2 % 2 ^ f.1.width) f.1.reset s.latched }) s
def cs (l : List (Fld × Nat)) (f : StreamRun → StreamRun) : State :=
  let n := 15
  let s0 := st ([(F.refStatus_STATE,2),(F.csiCtl_EN 3, 1), (F.csiStatus_STATE 3, 2), (F.vatStatus_STATE, 2), (F.streamCtl_EN n, 1),
      (F.streamCtl_PORT n, 3), (F.streamCtl_VC n, 15), (F.streamCtl_DT n, 0x2A), (F.streamStatus_STATE n, 1), (F.streamSize_W n, 8),
      (F.streamSize_H n, 4), (F.streamStride_BYTES n, 64), (F.streamRingBase_ADDR n, vatBase), (F.streamSpacing_BYTES n, 4096)] ++ l)
  { s0 with cam := { s0.cam with streams := s0.cam.streams.modify n f } }
def inF (l : Nat) (r : StreamRun) : StreamRun := { r with inFrame := true, lines := l, buf := some 1, frames := 3 }
def dat : List Byte := [1#8,2#8,3#8,4#8,5#8,6#8,7#8,0xFF#8]
def ps (f : PlaneRun → PlaneRun) (s : State) : State := 
   let s := stL [(F.planeCfg_KIND 7, 2), (F.planeCfg_SRC_SEL 7, 2), (F.planeCfg_STREAM 7, 15)] s
   { s with planes := s.planes.modify 7 f }
def rc (tags : List LandTag) : State := ps (fun r => { r with fetch := some 0 }) (cs [(F.streamStatus_STATE 15,
    2)] (fun r => { (inF 2 r) with tags := tags }))
def rr := (rc []).racedLines 7 0
def ri (l lat : List (Fld × Nat)) (f : RindRun → RindRun) : State :=
  let s := stL ([(F.rindCtl_EN 7, 1), (F.pipeH_HACTIVE 7, 100), (F.pipeV_VACTIVE 7, 100), (F.rectCtl_EN 7 63, 1), (F.rectSize_W 7 63, 9),
      (F.rectSize_H 7 63, 9), (F.rectCtl_MATCH_EN 7 63, 1), (F.rectCtl_EXP_COUNT 7 63, 2)] ++ lat) (st ([(F.pipeStatus_STATE 7, 3),
      (F.pipeFrames_COUNT 7, 65537), (F.rectFails_COUNT 7 63, 2^32-1)] ++ l))
  { s with rind := { s.rind with pipes := s.rind.pipes.modify 7 f } }
def q1 (off : Bool) : RectRun := { rect := 63, crc := 5, done := true, off := off }
def rv (off : Bool) (es : List Nat) : RindRun → RindRun := fun r => { r with rects := [q1 off], entries := [(63, some es)] }
def x5 : Nat := 5 ^^^ 0xFFFFFFFF
def c0 : State :=
  let s := stL [(F.planeCfg_CLASS0 3, 1), (F.planeMap_MAP_W_M1 3, 9), (F.planeMap_MAP_H_M1 3, 9), (F.planePatcount_COUNT 3,
      9)] (st [(F.planeCfg_CLASS0 3, 1), (F.planeBase_ADDR 3, 64)])
  { s with planes := s.planes.modify 3 fun r => { r with pipe := some 1 } }

theorem test_meets_CameraFrames :
    (∃ (s : State) (port : Fin 4) (vc : Fin 16) (n : Fin 16) (b : Fin 8),
      let r := s.stream n.val
      s.Canonical ∧ s.csiReceives port.val = true ∧ s.vcStreams port.val vc.val = [n.val] ∧ n.val < s.cam.streams.length ∧
          r.inFrame = false ∧ r.done = none ∧ s.ringChoose n.val = some b.val) ∧
    (∃ (s : State) (port : Fin 4) (vc : Fin 16) (n : Fin 16) (b : Fin 8),
      let r := s.stream n.val
      s.Canonical ∧ s.csiReceives port.val = true ∧ s.vcStreams port.val vc.val = [n.val] ∧ r.inFrame = true ∧
          r.lines = s.rd (F.streamSize_H n.val) ∧ r.corrupt = false ∧ r.buf = some b.val) ∧
    (∃ (s : State) (port : Fin 4) (vc : Fin 16) (n : Fin 16) (b : Fin 8),
      let r := s.stream n.val
      s.Canonical ∧ s.csiReceives port.val = true ∧ s.vcStreams port.val vc.val = [n.val] ∧ r.inFrame = true ∧
          r.lines < s.rd (F.streamSize_H n.val) ∧ r.buf = some b.val) ∧
    (∃ (s : State) (n : Fin 16) (b : Fin 8) (err : Bool) (long : Bool),
      let r := s.stream n.val
      s.Canonical ∧ r.done = some (b.val, err, long)) :=
  ⟨⟨(cs [] id), 3, 15, 15, 0, canonical_of (by decide +kernel), by decide +kernel⟩,
   ⟨(cs [(F.streamStatus_STATE 15, 2)] (inF 4)), 3, 15, 15, 1, canonical_of (by decide +kernel), by decide +kernel⟩,
   ⟨(cs [(F.streamStatus_STATE 15, 2), (F.streamErrs_SHORT 15, 255)] (inF 3)), 3, 15, 15, 1, canonical_of (by decide +kernel),
       by decide +kernel⟩,
   ⟨(cs [(F.streamStatus_STATE 15, 2)] (fun r => { (inF 3 r) with done := some (1, true, true) })), 15, 1, true, true,
       canonical_of (by decide +kernel), by decide +kernel⟩⟩

theorem test_meets_CameraPackets :
    (∃ (s : State) (port : Fin 4) (vc : Fin 16) (n : Fin 16) (dt : BitVec 6) (data : List Byte) (b : Fin 8),
      let r := s.stream n.val
      let bytes := landLine dt.toNat (s.rd (F.streamSize_W n.val)) data
      let a := s.ringBuf n.val b.val + r.lines * s.rd (F.streamStride_BYTES n.val)
      let line : State := { s.wr (F.streamStatus_LINE n.val) r.lines with cam := { s.cam with streams := s.cam.streams.modify n.val fun r => { r with lines := r.lines + 1 } } }
      let landed := memWrite (.camera n false) a bytes line
      let taker := (s.vcStreams port.val vc.val).find? fun m => s.rd (F.streamCtl_DT m) == dt.toNat
      s.Canonical ∧ s.csiReceives port.val = true ∧ dt ≠ 0x12 ∧ taker = some n.val ∧
          data.length * 8 / wireBits dt.toNat = s.rd (F.streamSize_W n.val) ∧ r.inFrame = true ∧ r.lines < s.rd (F.streamSize_H n.val) ∧
          r.buf = some b.val ∧ landed.1 = false ∧ s.rd (F.streamCtl_RACED n.val) = 0) ∧
    (∃ (s : State) (port : Fin 4) (vc : Fin 16) (n : Fin 16) (dt : BitVec 6) (data : List Byte) (b : Fin 8),
      let r := s.stream n.val
      let bytes := landLine dt.toNat (s.rd (F.streamSize_W n.val)) data
      let a := s.ringBuf n.val b.val + r.lines * s.rd (F.streamStride_BYTES n.val)
      let line : State := { s.wr (F.streamStatus_LINE n.val) r.lines with cam := { s.cam with streams := s.cam.streams.modify n.val fun r => { r with lines := r.lines + 1 } } }
      let landed := memWrite (.camera n false) a bytes line
      let slot := r.lines % s.landLines n.val
      let raced := memWrite (.camera n true) (s.landSlot n.val slot) bytes landed.2
      let taker := (s.vcStreams port.val vc.val).find? fun m => s.rd (F.streamCtl_DT m) == dt.toNat
      s.Canonical ∧ s.csiReceives port.val = true ∧ dt ≠ 0x12 ∧ taker = some n.val ∧
          data.length * 8 / wireBits dt.toNat = s.rd (F.streamSize_W n.val) ∧ r.inFrame = true ∧ r.lines < s.rd (F.streamSize_H n.val) ∧
          r.buf = some b.val ∧ landed.1 = false ∧ s.rd (F.streamCtl_RACED n.val) = 1 ∧ raced.1 = false) ∧
    (∃ (s : State) (port : Fin 4) (vc : Fin 16) (n : Fin 16) (dt : BitVec 6),
      let r := s.stream n.val
      let taker := (s.vcStreams port.val vc.val).find? fun m => s.rd (F.streamCtl_DT m) == dt.toNat
      s.Canonical ∧ s.csiReceives port.val = true ∧ dt ≠ 0x12 ∧ taker = some n.val ∧ r.inFrame = false) ∧
    (∃ (s : State) (port : Fin 4) (vc : Fin 16) (dt : BitVec 6),
      let taker := (s.vcStreams port.val vc.val).find? fun m => s.rd (F.streamCtl_DT m) == dt.toNat
      s.Canonical ∧ s.csiReceives port.val = true ∧ dt ≠ 0x12 ∧ taker = none ∧ (∀ m ∈ s.portStreams port.val, (s.stream m).inFrame = false) ∧
          Fresh (csiUnit port.val) s) :=
  ⟨⟨(cs [] (inF 0)), 3, 15, 15, 0x2A, dat, 1, canonical_of (by decide +kernel), by decide +kernel⟩,
   ⟨(cs [(F.streamCtl_RACED 15, 1), (F.streamLand_LINES 15, 3), (F.streamLandBase_ADDR 15, vatBase + 65536)] (inF 3)), 3, 15, 15, 0x2A, dat,
       1, canonical_of (by decide +kernel), by decide +kernel⟩,
   ⟨(cs [(F.streamOrphan_LINES 15, 65535)] id), 3, 15, 15, 0x2A, canonical_of (by decide +kernel), by decide +kernel⟩,
   ⟨(cs [(F.csiErr1_RESYNC 3, 255)] id), 3, 15, 0x2B, canonical_of (by decide +kernel), by unfold Fresh; decide +kernel⟩⟩

theorem test_meets_CameraPorts_1 :
    (∃ (s : State) (k : Fin 4) (n : Fin 16) (dot : Nat),
      let u := s.atDot dot
      let over_ := match (u.stream n.val).pulse with | some at_ => u.rd F.refStatus_STATE < 2 || reached (u.advance at_ (u.usDots (max 1 (u.rd (F.streamFsync_PULSE n.val))))) u.now | none => false
      s.Canonical ∧ s.rd (F.csiCtl_EN k.val) = 1 ∧ s.rd (F.csiStatus_STATE k.val) = 1 ∧ s.cam.resync.contains k.val = false ∧
          (s.rd (F.streamCtl_EN n.val) = 0 ∨ u.fsyncDue n.val = false) ∧ over_ = false) ∧
    (∃ (s : State) (k : Fin 4),
      s.Canonical ∧ s.cam.resync.contains k.val = true) ∧
    (∃ (s : State) (k : Fin 4),
      let unit := csiUnit k.val
      s.Canonical ∧ s.cam.resync.contains k.val = true ∧ (s.fltUnit unit).retrying = true ∧ (s.fltUnit unit).attempts = []) ∧
    (∃ (s : State) (n : Fin 16) (dot : Nat),
      let u := s.atDot dot
      s.Canonical ∧ s.rd (F.streamCtl_EN n.val) = 1 ∧ u.fsyncDue n.val = true) :=
  ⟨⟨(cs [(F.csiStatus_STATE 3, 1)] id), 3, 15, 6, canonical_of (by decide +kernel), by decide +kernel⟩,
   ⟨(let s := cs [(F.csiStatus_STATE 3, 1)] id; { s with cam := { s.cam with resync := [3] } }), 3, canonical_of (by decide +kernel),
       by decide +kernel⟩,
   ⟨(let s := cs [(F.csiStatus_STATE 3,
       1)] id; let s := { s with cam := { s.cam with resync := [3] } }; setFltUnit { (s.fltUnit (csiUnit 3)) with retrying := true } s), 3,
       canonical_of (by decide +kernel), by decide +kernel⟩,
   ⟨(cs [(F.streamFsync_MODE 15, 1), (F.streamFsyncPhase_DOT 15, 6), (F.beamNow_LINE, 0)] (fun r => { r with syncArmed := [0, 1] })), 15, 6,
       canonical_of (by decide +kernel), by decide +kernel⟩⟩

theorem test_meets_CameraPorts_2 : ∃ (s : State) (n : Fin 16) (dot : Nat),
      let u := s.atDot dot
      let over_ := match (u.stream n.val).pulse with | some at_ => u.rd F.refStatus_STATE < 2 || reached (u.advance at_ (u.usDots (max 1 (u.rd (F.streamFsync_PULSE n.val))))) u.now | none => false
      s.Canonical ∧ over_ = true :=
  ⟨(cs [(F.refStatus_STATE, 1)] (fun r => { r with pulse := some 7 })), 15, 6, canonical_of (by decide +kernel), by decide +kernel⟩

theorem test_meets_CameraRaces :
    (∃ (s : State) (st : Fin 16) (tag : LandTag) (rest : List LandTag),
      s.Canonical ∧ (s.stream st.val).landing = tag :: rest) ∧
    (∃ (s : State) (st : Fin 16) (dot : Nat),
      let u := s.atDot dot
      s.Canonical ∧ (s.rd (F.streamStatus_STATE st.val) = 1 ∨ s.rd (F.streamStatus_STATE st.val) = 2) ∧
          (u.rd F.refStatus_STATE < 2 ∨ reached (u.advance (s.stream st.val).since (u.usDots (max 1 (s.rd (F.streamTimeout_US st.val))))) u.now = true)) ∧
    (∃ (s : State) (n : Fin 32) (f : Nat) (c : Nat),
      let cam := s.planeStream n.val
      s.Canonical ∧ s.planeSel n.val = 2 ∧ (s.plane n.val).fetch = some 0 ∧ n.val < s.planes.length ∧ s.raceBinding cam = some f ∧
          ((s.racedLines n.val 0).all (fun c => s.landed cam f c) = true)) ∧
    (∃ (s : State) (n : Fin 32) (f : Nat) (c : Nat),
      let cam := s.planeStream n.val
      s.Canonical ∧ s.planeSel n.val = 2 ∧ (s.plane n.val).fetch = some 0 ∧ n.val < s.planes.length ∧ s.raceBinding cam = some f ∧
          ((s.racedLines n.val 0).eraseDups.filter (fun c => !s.landed cam f c) = [c])) :=
  ⟨⟨(cs [] (fun r => { r with landing := [⟨3, 4, 5⟩, ⟨1,1,1⟩] })), 15, ⟨3,4,5⟩, [⟨1,1,1⟩], canonical_of (by decide +kernel),
      by decide +kernel⟩,
   ⟨(cs [(F.streamTimeout_US 15, 1), (F.beamNow_LINE, 1000), (F.beamNow_FRAME, 2)] (inF 3)), 15, 6, canonical_of (by decide +kernel),
       by decide +kernel⟩,
   ⟨(rc (rr.map fun c => ⟨c, 3, c⟩)), 7, 3, 0, canonical_of (by decide +kernel), by decide +kernel⟩,
   ⟨(rc []), 7, 3, (rr.headD 99), canonical_of (by decide +kernel), by decide +kernel⟩⟩

theorem test_meets_RindVerdicts :
    (∃ (s : State) (p : Fin 8) (r : Fin 64),
      s.Canonical ∧ s.latFlag (F.rindCtl_EN p.val) = true ∧ s.pipeOn p.val = true ∧ p.val < s.rind.pipes.length ∧
          s.rectLive p.val r.val = false) ∧
    (∃ (s : State) (p : Fin 8) (r : Fin 64) (q : RectRun),
      s.Canonical ∧ s.latFlag (F.rindCtl_EN p.val) = true ∧ s.pipeOn p.val = true ∧ p.val < s.rind.pipes.length ∧
          s.rectLive p.val r.val = true ∧ ((s.rindRun p.val).rects.find? (fun x => x.rect == r.val && x.done) = some q)) :=
  ⟨⟨(ri [] [(F.rectCtl_EN 7 63, 0)] id), 7, 63, canonical_of (by decide +kernel), by decide +kernel⟩,
   ⟨(ri [] [] (rv true [x5])), 7, 63, (q1 true), canonical_of (by decide +kernel), by decide +kernel⟩⟩

theorem test_meets_RindConditions :
    (∃ (s : State) (c : Fin 3),
      s.Canonical ∧ s.condBroken c.val = true ∧ s.rd (condFld c.val) = 0) ∧
    (∃ (s : State) (c : Fin 3),
      s.Canonical ∧ s.condBroken c.val = false) :=
  ⟨⟨c0, 0, canonical_of (by decide +kernel), by decide +kernel⟩,
   ⟨(st []), 1, canonical_of (by decide +kernel), by decide +kernel⟩⟩

end Camera

/-! ### States that meet the hypotheses: the Syoft cores -/

namespace Syoft

def rnd (n : Nat) : Nat := (n * 6364136223846793005 + 1442695040888963407) % 2^64 / 2^17
def v24 (n : Nat) : BitVec 24 := match rnd n % 7 with | 0 => 0x800000 | 1 => 0x7FFFFF | 2 => 0 | 3 => BitVec.ofNat 24 (rnd (n+77) % 64) | 4 => 0xFFFFFF | _ => BitVec.ofNat 24 (rnd (n+55))
def regs (k seed : Nat) : CoreRegs := { coreRegs0 k with
  g := (List.range 32).map fun i => v24 (seed * 1000 + i * 17),
      x := (List.range 8).map fun i => BitVec.ofNat 24 (rnd (seed * 1000 + i * 17) % 20000 / 8 * 8)
  p := (List.range 4).map fun i => BitVec.ofNat 48 (rnd (seed * 31 + i)),
      a := (List.range 4).map fun i => BitVec.ofNat 60 (rnd (seed * 37 + i) * 2^14 + rnd (seed*41+i)),
  pc := BitVec.ofNat 16 (rnd seed % 1000), vbase := 0x40, cycle := BitVec.ofNat 48 (rnd (seed+3)),
      rs := (List.range 8).map fun i => BitVec.ofNat 16 (rnd (seed+i)),
  ptr := BitVec.ofNat 3 (rnd (seed+8)), count := BitVec.ofNat 4 (rnd (seed+9) % 9), aov := rnd (seed + 10) % 2 == 0,
      ie := rnd (seed + 11) % 2 == 0, rsTrap := rnd (seed+12) % 2 == 0,
  estatus := BitVec.ofNat 4 (rnd (seed+13)), epc := BitVec.ofNat 16 (rnd (seed+14)), lc := v24 (seed + 9),
      xmod := (List.range 8).map fun i => BitVec.ofNat 5 (rnd (seed*3+i) % 12),
      w := (List.range 4).map fun i => BitVec.ofNat 16 (rnd (seed*5+i)) }
def sc (k seed : Nat) (f : CoreRun → CoreRun := id) (l : List (Fld × Nat) := []) : State :=
  let s := st ([(F.refStatus_STATE, 2), (F.seqStatus_PC k, 5)] ++ l)
  let s := { s with mem := (List.range 4).map fun i => (dataBase k + i * 5, BitVec.ofNat 8 (rnd (i + seed) % 255 + 1)) }
  { s with cores := s.cores.modify k fun c => f { c with live := true, regs := regs k seed } }
def fin (n k : Nat) [NeZero n] : Fin n := Fin.ofNat n k
def la (seed : Nat) (am : Fin 4) : LAddr := ⟨fin 8 (rnd seed), 0, am, BitVec.ofNat 9 (rnd (seed+1) % 200)⟩
def fs : FarStore := ⟨vatBase + 64, [1#8,2#8,3#8,4#8], 1, 64, false, false⟩
def sv (f : CoreRun → CoreRun) : State := sc 3 5 (fun c => f { c with regs := { c.regs with w := [BitVec.ofNat 16 (vatBase / 2^24), 0, 0,0], x := List.replicate 8 0x40 } }) [(F.vatStatus_STATE, 2)]
def fl (f : CoreRun → CoreRun) : State := sv (fun c => f { c with hold := .far, bundle := [.ld .t 30 ⟨7, 1, 0, 0⟩ .none .none] })
def po : CoreRun → CoreRun := fun c => { c with posted := [fs] }
def fi : FarStore := ⟨irsBase + 0x200000 , [1#8,2#8,3#8,4#8], 1, 64, false, false⟩
def poi : CoreRun → CoreRun := fun c => { c with posted := [fi] }

theorem test_meets_SyoftAlu : ∃ (s : State) (k : Fin 13),
      s.Canonical ∧ Ready k.val s :=
  ⟨(sc 12 1), 12, canonical_of (by decide +kernel), by first | (unfold Ready; decide +kernel) | decide +kernel⟩

theorem test_meets_SyoftMoves :
    (∃ (s : State) (k : Fin 13) (imm : BitVec 12),
      let h := imm.toNat
      s.Canonical ∧ Ready k.val s ∧ h % 4 ≠ 3) ∧
    (∃ (s : State) (k : Fin 13) (imm : BitVec 12),
      let r := (s.core k.val).regs
      let h := imm.toNat
      s.Canonical ∧ Ready k.val s ∧ h % 4 = 3 ∧ r.exl = false) :=
  ⟨⟨(sc 12 1), 12, (BitVec.ofNat 12 (rnd 1)), canonical_of (by decide +kernel), by unfold Ready; decide +kernel⟩,
   ⟨(sc 9 3), 9, (BitVec.ofNat 12 (rnd 3)), canonical_of (by decide +kernel), by unfold Ready; decide +kernel⟩⟩

theorem test_meets_SyoftMultiply :
    (∃ (s : State) (k : Fin 13) (n : BitVec 6),
      s.Canonical ∧ Ready k.val s ∧ (s.core k.val).regs.pc.toNat + 2 < progSize k.val ∧ n.toNat % 4 ≠ 3) ∧
    (∃ (s : State) (k : Fin 13) (n : BitVec 6),
      let r := (s.core k.val).regs
      s.Canonical ∧ Ready k.val s ∧ (s.core k.val).regs.pc.toNat + 2 < progSize k.val ∧ n.toNat % 4 = 3 ∧ r.exl = false) :=
  ⟨⟨(sc 12 1), 12, (BitVec.ofNat 6 (rnd 1)), canonical_of (by decide +kernel), by unfold Ready; decide +kernel⟩,
   ⟨(sc 9 3), 9, (BitVec.ofNat 6 (rnd 3)), canonical_of (by decide +kernel), by unfold Ready; decide +kernel⟩⟩

theorem test_meets_SyoftLoads :
    (∃ (s : State) (k : Fin 13) (g : Fin 32) (d : Fin 8) (at_ : LAddr),
      let r := (s.core k.val).regs
      let ea := (at_.ea 4 r).toNat
      s.Canonical ∧ Ready k.val s ∧ at_.sp = 0 ∧ at_.am ≠ 3 ∧ g.val ≤ 30 ∧ (at_.am = 0 ∨ at_.x ≠ d) ∧ ea % 4 = 0 ∧
          ea + 4 ≤ dataSize k.val) ∧
    (∃ (s : State) (k : Fin 13) (g : Fin 32) (at_ : LAddr),
      s.Canonical ∧ Ready k.val s ∧ at_.sp = 0 ∧ at_.am ≠ 3 ∧ g.val ≤ 29) :=
  ⟨⟨(sc 12 1), 12, (fin 32 (rnd 1)), (fin 8 (rnd 8)), (la 1 0), canonical_of (by decide +kernel), by unfold Ready; decide +kernel⟩,
   ⟨(sc 9 2), 9, (fin 32 (rnd 2)), (la 2 0), canonical_of (by decide +kernel), by unfold Ready; decide +kernel⟩⟩

theorem test_meets_SyoftStores :
    (∃ (s : State) (k : Fin 13) (g : Fin 32) (at_ : LAddr),
      s.Canonical ∧ Ready k.val s ∧ at_.sp = 0 ∧ at_.am ≠ 3 ∧ g.val ≤ 30) ∧
    (∃ (s : State) (k : Fin 13) (g : Fin 32) (at_ : LAddr),
      s.Canonical ∧ Ready k.val s ∧ at_.sp = 0 ∧ at_.am ≠ 3 ∧ g.val ≤ 29) :=
  ⟨⟨(sc 12 1), 12, (fin 32 (rnd 1)), (la 1 0), canonical_of (by decide +kernel), by unfold Ready; decide +kernel⟩,
   ⟨(sc 9 2), 9, (fin 32 (rnd 2)), (la 2 0), canonical_of (by decide +kernel), by unfold Ready; decide +kernel⟩⟩

theorem test_meets_SyoftTransfers :
    (∃ (s : State) (k : Fin 13) (g : Fin 32) (tgt : BitVec 16),
      let r := (s.core k.val).regs
      let A := r.rg g.val
      s.Canonical ∧ Ready k.val s ∧ (r.rsTrap = false ∨ r.count.toNat < 8) ∧ (r.rsTrap = false ∨ r.count ≠ 0) ∧ A ≠ 0 ∧
          r.pc.toNat + 1 ≤ tgt.toNat) ∧
    (∃ (s : State) (k : Fin 13),
      let r := (s.core k.val).regs
      s.Canonical ∧ Ready k.val s ∧ r.rsTrap = true ∧ 8 ≤ r.count.toNat ∧ r.exl = false) ∧
    (∃ (s : State) (k : Fin 13) (g : Fin 32) (tgt : BitVec 16),
      let r := (s.core k.val).regs
      let A := r.rg g.val
      s.Canonical ∧ Ready k.val s ∧ r.rsTrap = true ∧ r.count = 0 ∧ r.exl = false ∧ A = 0 ∧ r.pc.toNat + 1 ≤ tgt.toNat) :=
  ⟨⟨(sc 12 1), 12, (fin 32 (rnd 1)), (BitVec.ofNat 16 (rnd 1)), canonical_of (by decide +kernel), by unfold Ready; decide +kernel⟩,
   ⟨(sc 3 5 fun c => {c with regs := {c.regs with rsTrap := true, count := 8, exl := false} }), 3, canonical_of (by decide +kernel),
       by unfold Ready; decide +kernel⟩,
   ⟨(sc 3 5 fun c => {c with regs := {c.regs with rsTrap := true, count := 0, exl := false, g := c.regs.g.set 0 0} }), 3, 0, 9999,
       canonical_of (by decide +kernel), by unfold Ready; decide +kernel⟩⟩

theorem test_meets_SyoftSystem :
    (∃ (s : State) (k : Fin 13) (csr : BitVec 12),
      let c := s.core k.val
      let n := csr.toNat
      s.Canonical ∧ Ready k.val s ∧ s.waitEnded k.val = true ∧ c.posted = [] ∧ csrKnown n = true ∧ [6, 0x30, 0x31, 0x34,
          0x35].contains n = false) ∧
    (∃ (s : State) (k : Fin 13),
      let c := s.core k.val
      s.Canonical ∧ Ready k.val s ∧ s.waitEnded k.val = false ∧ c.posted ≠ []) ∧
    (∃ (s : State) (k : Fin 13) (csr : BitVec 12),
      let c := s.core k.val
      let r := c.regs
      let n := csr.toNat
      s.Canonical ∧ Ready k.val s ∧ csrKnown n = false ∧ r.exl = false) :=
  ⟨⟨(sc 12 1), 12, (BitVec.ofNat 12 0), canonical_of (by decide +kernel), by unfold Ready; decide +kernel⟩,
   ⟨(sc 12 1 fun c => {c with posted := [fs], regs := {c.regs with waitTarget := 500} }), 12, canonical_of (by decide +kernel),
       by unfold Ready; decide +kernel⟩,
   ⟨(sc 9 2), 9, (BitVec.ofNat 12 9), canonical_of (by decide +kernel), by unfold Ready; decide +kernel⟩⟩

theorem test_meets_SyoftBundles :
    (∃ (s : State) (k : Fin 13),
      s.Canonical ∧ Ready k.val s) ∧
    (∃ (s : State) (k : Fin 13) (j : Bool) (d : Fin 32) (a : Fin 32) (b : Fin 32) (first : Syl),
      let c := s.core k.val
      let y : Syl := .alu j .add d a b
      s.Canonical ∧ s.cores.length = 13 ∧ c.live = true ∧ (k.val = 12 ∨ s.stopped = false) ∧ c.bundle = [first] ∧ c.hold = .none ∧
          c.stopDue = .none ∧ c.regs.exl = false ∧ c.mpipe = [] ∧ c.regs.pc.toNat + 1 < progSize k.val ∧ (y.unit ≤ first.unit ∨ (d ≠ 0 ∧
          first.dsts.contains (.g d.val) = true))) :=
  ⟨⟨(sc 12 1), 12, canonical_of (by decide +kernel), by first | (unfold Ready; decide +kernel) | decide +kernel⟩,
   ⟨(sc 12 1 fun c => {c with bundle := [.alu true .add 3 4 5] }), 12, true, 1, 2, 3, (.alu true .add 3 4 5),
       canonical_of (by decide +kernel), by decide +kernel⟩⟩

theorem test_meets_SyoftReads :
    (∃ (s : State) (k : Fin 13),
      s.Canonical ∧ Ready k.val s ∧ claimChoice k.val s = none) ∧
    (∃ (s : State) (k : Fin 13) (n : Nat) (rest : List (Option Nat)),
      s.Canonical ∧ Ready k.val s ∧ s.intc.service[k.val]? = some (none :: rest) ∧ claimChoice k.val s = some n) ∧
    (∃ (s : State) (k : Fin 13) (dot : Nat) (hit : Bool),
      let u := s.atDot dot
      let c := s.core k.val
      let r := c.regs
      s.Canonical ∧ s.cores.length = 13 ∧ (k.val = 12 ∨ s.stopped = false) ∧ c.hold = .wait hit ∧ c.bundle = [.wait] ∧ c.stopDue = .none ∧
          c.mpipe = [] ∧ r.lact = false ∧ u.waitEnded k.val = true) ∧
    (∃ (s : State) (k : Fin 13) (dot : Nat) (hit : Bool),
      let u := s.atDot dot
      let c := s.core k.val
      s.Canonical ∧ s.cores.length = 13 ∧ c.hold = .wait hit ∧ c.bundle = [.wait] ∧ c.waited = false ∧ c.stopDue = .none ∧
          u.waitEnded k.val = false) :=
  ⟨⟨(sc 12 1), 12, canonical_of (by decide +kernel), by unfold Ready; decide +kernel⟩,
   ⟨(let s := sc 3 2 id [(F.intcTgt_DEST 77, 11), (F.intcPendSet_SRC 2, 2^13), (F.intcEnSet_SRC 2,
       2^13)]; { s with intc := { s.intc with service := s.intc.service.set 3 [none, some 5] } }), 3, 77, [some 5],
       canonical_of (by decide +kernel), by unfold Ready; decide +kernel⟩,
   ⟨(sc 12 1 fun c => {c with hold := .wait true, bundle := [.wait]}), 12, 7, true, canonical_of (by decide +kernel), by decide +kernel⟩,
   ⟨(sc 12 1 fun c => {c with hold := .wait false, bundle := [.wait], waitCfg := 1}), 12, 7, false, canonical_of (by decide +kernel),
       by decide +kernel⟩⟩

theorem test_meets_SyoftFar :
    (∃ (s : State) (k : Fin 13) (g : Fin 32) (at_ : LAddr) (host : List Byte),
      let c := s.core k.val
      let r := c.regs
      let a := at_.far 4 r
      let v : State := { s with casc := { s.casc with blocked := false, ask := none } }
      let w : State := { v with hif := { s.hif with hostIn := host } }
      let read := busRead (coreInitiator k.val) a 4 w
      s.Canonical ∧ s.cores.length = 13 ∧ c.hold = .far ∧ c.bundle = [.ld .t g at_ .none .none] ∧ c.blocksLoad a = false ∧
          c.stopDue = .none ∧ c.mpipe = [] ∧ r.lact = false ∧ 1 ≤ at_.sp.val ∧ at_.sp.val ≤ 4 ∧ at_.am = 0 ∧ (at_.ea 4 r).toNat % 4 = 0 ∧
          read.2.1 = false ∧ read.2.2.cores = s.cores ∧ read.2.2.casc.blocked = false) ∧
    (∃ (s : State) (k : Fin 13) (f : FarStore),
      let c := s.core k.val
      let v : State := { s with casc := { s.casc with blocked := false, ask := none } }
      let written := busWrite (coreInitiator k.val) f.addr f.data v
      s.Canonical ∧ s.cores.length = 13 ∧ c.posted = [f] ∧ f.served = false ∧ (isSeq k.val = false ∨ isIrs f.addr = false) ∧ c.hold = .none ∧
          written.2.cores = s.cores ∧ written.2.casc.blocked = false) ∧
    (∃ (s : State) (k : Fin 13) (f : FarStore),
      let c := s.core k.val
      s.Canonical ∧ s.cores.length = 13 ∧ c.posted = [f] ∧ f.served = true ∧ c.hold = .none) ∧
    (∃ (s : State) (p : Fin 8) (f : FarStore),
      s.Canonical ∧ s.cores.length = 13 ∧ (s.core p.val).posted = [f] ∧ f.served = false ∧ isIrs f.addr = true) :=
  ⟨⟨(fl id), 3, 30, ⟨7,1,0,0⟩, [], canonical_of (by decide +kernel), by decide +kernel⟩,
   ⟨(sv po), 3, fs, canonical_of (by decide +kernel), by decide +kernel⟩,
   ⟨(sv fun c => { c with posted := [{ fi with served := true, err := true }] }), 3, { fi with served := true, err := true },
       canonical_of (by decide +kernel), by decide +kernel⟩,
   ⟨(sv poi), 3, fi, canonical_of (by decide +kernel), by decide +kernel⟩⟩

theorem test_meets_SyoftEntries_1 :
    (∃ (s : State) (k : Fin 13) (w : BitVec 32),
      let c := s.core k.val
      let r := c.regs
      let m := s.core 12
      s.Canonical ∧ s.cores.length = 13 ∧ c.live = true ∧ (k.val = 12 ∨ s.stopped = false) ∧ c.stopDue = .none ∧ r.exl = false ∧
          c.mpipe = [] ∧ c.hold = .none ∧ decodeSyl w = none ∧ c.atBoundary = true ∧ (c.imprecise = [] ∨ c.hold ≠ .none) ∧ r.ie = true ∧
          s.rd (F.intcCoreState_PRESENTED k.val) = 1 ∧ m.live = true ∧ m.atBoundary = true ∧ m.again = false) ∧
    (∃ (s : State) (w : BitVec 32),
      s.Canonical ∧ s.cores.length = 13 ∧ (decodeSyl w).isSome = true) ∧
    (∃ (s : State) (k : Fin 13) (e : Imprecise) (tl : List Imprecise),
      let c := s.core k.val
      let r := c.regs
      s.Canonical ∧ s.cores.length = 13 ∧ c.live = true ∧ (k.val = 12 ∨ s.stopped = false) ∧ c.stopDue = .none ∧ r.exl = false ∧
          c.mpipe = [] ∧ c.hold = .none ∧ c.bundle = [] ∧ c.imprecise = e :: tl) ∧
    (∃ (s : State) (p : Fin 8) (w : BitVec 32),
      let q := s.core p.val
      s.Canonical ∧ s.cores.length = 13 ∧ q.live = true ∧ s.stopped = false ∧ q.hold = .none ∧ q.stopDue = .none ∧ q.regs.exl = true ∧
          decodeSyl w = none) :=
  ⟨⟨(sc 12 1 (fun c => {c with regs := {c.regs with ie := true} }) [(F.intcCoreState_PRESENTED 12, 1)]), 12, 0xFFFFFFFF,
      canonical_of (by decide +kernel), by decide +kernel⟩,
   ⟨(sc 12 1), 0, canonical_of (by decide +kernel), by decide +kernel⟩,
   ⟨(sc 9 1 fun c => {c with imprecise := [⟨4,1,77⟩] }), 9, ⟨4,1,77⟩, [], canonical_of (by decide +kernel), by decide +kernel⟩,
   ⟨(sc 3 4 fun c => {c with regs := {c.regs with exl := true} }), 3, 0xFFFFFFFF, canonical_of (by decide +kernel), by decide +kernel⟩⟩

theorem test_meets_SyoftEntries_2 :
    (∃ (s : State),
      let m := s.core 12
      s.Canonical ∧ s.cores.length = 13 ∧ m.live = true ∧ m.atBoundary = false) ∧
    (∃ (s : State),
      let m := s.core 12
      s.Canonical ∧ s.cores.length = 13 ∧ m.live = false) :=
  ⟨⟨(sc 12 1 fun c => {c with bundle := [.fence] }), canonical_of (by decide +kernel), by decide +kernel⟩,
   ⟨(sc 9 2 (fun c => {c with regs := {c.regs with ie := true} }) [(F.intcCoreState_PRESENTED 9, 1)]), canonical_of (by decide +kernel),
       by decide +kernel⟩⟩

theorem test_meets_SequencerControl_1 :
    (∃ (s : State) (p : Fin 8) (f : Nat),
      let c := s.core p.val
      s.Canonical ∧ s.cores.length = 13 ∧ c.armed = some f ∧ (c.armFrame = false ∨ s.rd (F.pipeFrames_COUNT p.val) ≠ f) ∧
          c.stopDue ≠ .halt) ∧
    (∃ (s : State) (p : Fin 8) (f : Nat),
      let c := s.core p.val
      s.Canonical ∧ s.cores.length = 13 ∧ c.armed = some f ∧ c.armFrame = true ∧ s.rd (F.pipeFrames_COUNT p.val) = f) ∧
    (∃ (s : State) (p : Fin 8),
      let c := s.core p.val
      s.Canonical ∧ s.cores.length = 13 ∧ c.armed = none ∧ c.live = true ∧ c.stopDue = .halt ∧ c.atBoundary = true ∧ c.again = false) ∧
    (∃ (s : State) (p : Fin 8),
      let c := s.core p.val
      s.Canonical ∧ s.cores.length = 13 ∧ c.live = true ∧ c.stopDue = .halt ∧ c.atBoundary = true ∧ c.again = true ∧
          s.rd (F.seqCtl_START_AT p.val) = 0) :=
  ⟨⟨(sc 3 5 fun c => {c with live := false, armed := some 5 }), 3, 5, canonical_of (by decide +kernel), by decide +kernel⟩,
   ⟨(sc 3 5 fun c => {c with live := false, armed := some 0, armFrame := true }), 3, 0, canonical_of (by decide +kernel),
       by decide +kernel⟩,
   ⟨(sc 3 5 (fun c => {c with stopDue := .halt })), 3, canonical_of (by decide +kernel), by decide +kernel⟩,
   ⟨(sc 3 5 fun c => {c with stopDue := .halt, again := true }), 3, canonical_of (by decide +kernel), by decide +kernel⟩⟩

theorem test_meets_SequencerControl_2 :
    (∃ (s : State) (p : Fin 8),
      let c := s.core p.val
      s.Canonical ∧ s.cores.length = 13 ∧ c.live = true ∧ c.stopDue = .none ∧ s.rd (F.seqWdt_LINES p.val) ≠ 0 ∧
          s.rd (F.seqWdt_LINES p.val) ≤ c.wdt ∧ c.atBoundary = false) ∧
    (∃ (s : State) (p : Fin 8),
      let c := s.core p.val
      s.Canonical ∧ s.cores.length = 13 ∧ c.live = true ∧ c.stopDue = .none ∧ s.rd (F.seqWdt_LINES p.val) ≠ 0 ∧
          s.rd (F.seqWdt_LINES p.val) ≤ c.wdt ∧ c.atBoundary = true ∧ s.rd (F.seqCtl_WDT_ACTION p.val) = 1 ∧
          s.rd (F.seqCtl_RUN p.val) = 1) ∧
    (∃ (s : State) (p : Fin 8),
      let c := s.core p.val
      s.Canonical ∧ s.cores.length = 13 ∧ c.live = true ∧ c.stopDue = .none ∧ s.rd (F.seqWdt_LINES p.val) ≠ 0 ∧
          s.rd (F.seqWdt_LINES p.val) ≤ c.wdt ∧ c.atBoundary = true ∧ c.again = false ∧ s.rd (F.seqCtl_WDT_ACTION p.val) = 0) :=
  ⟨⟨(sc 3 5 (fun c => {c with wdt := 4, bundle := [.fence] }) [(F.seqWdt_LINES 3, 4)]), 3, canonical_of (by decide +kernel),
      by decide +kernel⟩,
   ⟨(sc 3 5 (fun c => {c with wdt := 4 }) [(F.seqWdt_LINES 3, 3),(F.seqCtl_WDT_ACTION 3, 1), (F.seqCtl_RUN 3, 1), (F.pipeFrames_COUNT 3,
       66)]), 3, canonical_of (by decide +kernel), by decide +kernel⟩,
   ⟨(sc 3 5 (fun c => {c with wdt := 4 }) [(F.seqWdt_LINES 3, 4), (F.seqStops_COUNT 3, 2^32-1)]), 3, canonical_of (by decide +kernel),
       by decide +kernel⟩⟩

end Syoft

/-! ### States that meet the hypotheses: audio -/

namespace Audio

def nr (p : Nat) : NodeRun := { key := 16384, phase := p, n0 := 3, n1 := 0, g0 := 5, ramp := 0 }
def nd (p now : Nat) (cur : Int) (seen : Nat) : State :=
  let s := st [(F.audDomStatus_RUNNING 0, 1), (F.audDomNow_COUNT 0, now), (F.stCtl_SRC 0, 0x600), (F.stGain_TARGET 0, 77)]
  { s with aud := { s.aud with nodes := [nr p], stPrev := [5, 5], seen := seen, players := s.aud.players.modify 0 fun r => { r with playing := some ⟨0x1000,2,0,false,0,0,1,10,8⟩, cur := cur } } }
def mk (l : List (Fld × Nat)) (f : AudioState → AudioState := id) (k : Nat := 9) (g : CoreRun → CoreRun := id) : State :=
  let s := st ([(F.audDomStatus_RUNNING 0, 1),(F.audDomStatus_RUNNING 1, 1), (F.audDomNow_COUNT 0, 1000), (F.vatStatus_STATE, 2)] ++
      l); { s with aud := f s.aud, cores := s.cores.modify k g }
def rtr (p : Nat) : State :=
  let s := mk [(F.tdmCtl_EN p, 1), (F.tdmStatus_STATE p, 1)]
  setFltUnit { (s.fltUnit (unitId 6 p)) with retrying := true } s
def ac (f : AudCoreRun → AudCoreRun) : AudioState → AudioState := fun a => { a with cores := a.cores.modify 3 f }
def clp : PlayClip := ⟨vatBase,2,0,false,0,0,1,10,1000⟩
def clpBad : PlayClip := ⟨0x10,2,0,false,0,0,1,10,1000⟩
def pl (f : PlayRun → PlayRun) : AudioState → AudioState := fun a => { a with players := a.players.modify 7 f }

theorem test_meets_AudioGains :
    (∃ (s : State) (who : Initiator),
      s.Canonical ∧ reaches who .irs = true) ∧
    (∃ (s : State) (i : Fin 128) (o : Fin 128) (st : Option (Fin 2)) (r : NodeRun) (d : Nat),
      let key := nodeKey i.val o.val (st.map (·.val))
      let (x, before) := s.nodeIn key
      s.Canonical ∧ s.node key = some r ∧ r.phase = 1 ∧ s.nodeDomain key = some d ∧ r.n0 < s.audNow d ∧
          (s.nodeTimeout key = 0 ∨ crossing x before = true)) ∧
    (∃ (s : State) (i : Fin 128) (o : Fin 128) (st : Option (Fin 2)) (r : NodeRun) (d : Nat),
      let key := nodeKey i.val o.val (st.map (·.val))
      let (x, before) := s.nodeIn key
      s.Canonical ∧ s.node key = some r ∧ r.phase = 1 ∧ s.nodeDomain key = some d ∧ r.n0 < s.audNow d ∧ s.nodeTimeout key ≠ 0 ∧
          crossing x before = false ∧ r.n0 + s.nodeTimeout key ≤ s.audNow d) :=
  ⟨⟨(nd 1 4 5 0), .cellar, canonical_of (by decide +kernel), by decide +kernel⟩,
   ⟨(nd 1 4 (-5) 0), 3, 4, (some 0), (nr 1), 0, canonical_of (by decide +kernel), by decide +kernel⟩,
   ⟨(nd 1 483 5 0), 3, 4, (some 0), (nr 1), 0, canonical_of (by decide +kernel), by decide +kernel⟩⟩

theorem test_meets_AudioClocks :
    (∃ (s : State) (e : Fin 3),
      s.Canonical ∧ s.runs 15 = true ∧ s.rd (F.audDomStatus_RUNNING e.val) = 1) ∧
    (∃ (s : State) (d : Fin 2) (b : Fin 6) (p : Fin 8),
      s.Canonical ∧ s.rd (F.audDomStatus_EXT_ACTIVE d.val) = 1 ∧ s.rd (F.asrcCtl_EN b.val) = 1 ∧ s.rd (F.asrcStatus_LOCKED b.val) = 1 ∧
          s.rd (F.tdmCtl_EN p.val) = 1 ∧ s.rd (F.tdmCtl_ROLE p.val) = 1 ∧ s.runs 15 = true) ∧
    (∃ (s : State) (d : Fin 2),
      s.Canonical ∧ s.rd (F.audDomStatus_EXT_ACTIVE d.val) = 0 ∧ s.rd (F.audDomCtl_EXT d.val) = 1 ∧
          s.rd (F.audDomStatus_EXT_LOST d.val) = 0) :=
  ⟨⟨(mk [(F.audDomStatus_EXT_ACTIVE 0, 1), (F.asrcCtl_EN 5, 1), (F.asrcStatus_LOCKED 5, 1), (F.asrcCtl_SRC_DOM 5, 1), (F.asrcCtl_DST_DOM 5,
      2), (F.tdmCtl_EN 7, 1), (F.tdmCtl_ROLE 7, 1)]), 0, canonical_of (by decide +kernel), by decide +kernel⟩,
   ⟨(mk [(F.audDomStatus_EXT_ACTIVE 1, 1), (F.asrcCtl_EN 5, 1), (F.asrcStatus_LOCKED 5, 1), (F.asrcCtl_SRC_DOM 5, 1),
       (F.asrcUnlocks_COUNT 5, 2^32-1), (F.tdmCtl_EN 7, 1), (F.tdmCtl_ROLE 7, 1)]), 1, 5, 7, canonical_of (by decide +kernel),
       by decide +kernel⟩,
   ⟨(mk [(F.audDomCtl_EXT 1, 1), (F.asrcCtl_EN 5, 1), (F.asrcStatus_LOCKED 5, 1), (F.asrcCtl_SRC_DOM 5,
       1)] (fun a => { a with seen := 4 })), 1, canonical_of (by decide +kernel), by decide +kernel⟩⟩

theorem test_meets_TdmPorts :
    (∃ (s : State) (p : Fin 8),
      let unit := unitId 6 p.val
      s.Canonical ∧ s.rd (F.tdmCtl_EN p.val) = 1 ∧ s.rd (F.tdmCtl_ROLE p.val) = 1 ∧ s.rd (F.tdmStatus_STATE p.val) = 2 ∧ Fresh unit s) ∧
    (∃ (s : State) (p : Fin 8),
      let unit := unitId 6 p.val
      s.Canonical ∧ (s.fltUnit unit).retrying = true ∧ (s.fltUnit unit).attempts = []) ∧
    (∃ (s : State) (p : Fin 8),
      let unit := unitId 6 p.val
      s.Canonical ∧ s.rd (F.tdmCtl_EN p.val) = 1 ∧ s.rd (F.tdmStatus_STATE p.val) = 1 ∧ (s.fltUnit unit).retrying = false) :=
  ⟨⟨(mk [(F.tdmCtl_EN 7, 1), (F.tdmCtl_ROLE 7, 1), (F.tdmStatus_STATE 7, 2)]), 7, canonical_of (by decide +kernel),
      by unfold Fresh; decide +kernel⟩,
   ⟨(rtr 7), 7, canonical_of (by decide +kernel), by decide +kernel⟩,
   ⟨(mk [(F.tdmCtl_EN 7, 1), (F.tdmStatus_STATE 7, 1)]), 7, canonical_of (by decide +kernel), by decide +kernel⟩⟩

theorem test_meets_AudioCores_1 :
    (∃ (s : State) (c : Fin 4) (p : Fin 8),
      let open_ := s.shutOut (.audio c) (0xA0040C + p.val * 0x40) = false
      let k := 8 + c.val
      let r := s.audCore c.val
      let q := s.core k
      s.Canonical ∧ s.cores.length = 13 ∧ s.aud.cores.length = 4 ∧ p.val < s.aud.players.length ∧ open_ ∧ q.armed.isSome = true ∧
          r.blocks = 0) ∧
    (∃ (s : State) (c : Fin 4) (p : Fin 8),
      let open_ := s.shutOut (.audio c) (0xA0040C + p.val * 0x40) = false
      let y := s.player p.val
      s.Canonical ∧ s.cores.length = 13 ∧ s.aud.cores.length = 4 ∧ p.val < s.aud.players.length ∧ open_ ∧ y.playing.isSome = true ∧
          y.last = true ∧ y.finished = false) ∧
    (∃ (s : State) (p : Fin 8) (clip : PlayClip),
      let y := s.player p.val
      s.Canonical ∧ s.cores.length = 13 ∧ s.aud.cores.length = 4 ∧ p.val < s.aud.players.length ∧ y.armed = some clip ∧
          s.rd (F.audDomStatus_RUNNING clip.domain) = 1 ∧ clip.enter ≤ s.audNow clip.domain) ∧
    (∃ (s : State) (c : Fin 4) (p : Fin 8),
      let r := s.audCore c.val
      s.Canonical ∧ s.cores.length = 13 ∧ s.aud.cores.length = 4 ∧ p.val < s.aud.players.length ∧ r.on = true ∧ s.blockLen c.val ≤ r.pos ∧
          1 ≤ r.blocks) :=
  ⟨⟨(mk [(F.audCoreEntry_ENTRY 3, 65535)] id 11 (fun c => { c with armed := some 3 })), 3, 7, canonical_of (by decide +kernel),
      by decide +kernel⟩,
   ⟨(mk [] (pl fun r => { r with playing := some clp, pos := 1, rep := 1 })), 1, 7, canonical_of (by decide +kernel), by decide +kernel⟩,
   ⟨(mk [(F.audDomStatus_RUNNING 0, 1), (F.audDomStatus_RUNNING 1, 1),(F.audDomStatus_RUNNING 2,
       1)] (pl fun r => { r with armed := some {clp with len := 0, enter := 0} })), 7, {clp with len := 0, enter := 0},
       canonical_of (by decide +kernel), by decide +kernel⟩,
   ⟨(mk [(F.audCoreCtl_BLOCK_LEN 3, 16), (F.audCoreErr_LATE 3,
       65535)] (ac fun r => { r with on := true, live := true, pos := 16, blocks := 1, wdt := 3 })), 3, 7, canonical_of (by decide +kernel),
       by decide +kernel⟩⟩

theorem test_meets_AudioCores_2 :
    (∃ (s : State) (c : Fin 4) (p : Fin 8),
      let k := 8 + c.val
      let r := s.audCore c.val
      let q := s.core k
      s.Canonical ∧ s.cores.length = 13 ∧ s.aud.cores.length = 4 ∧ p.val < s.aud.players.length ∧ q.live = true ∧ q.stopDue = .none ∧
          s.rd (F.audCoreWdt_BLOCKS c.val) ≠ 0 ∧ s.rd (F.audCoreWdt_BLOCKS c.val) ≤ r.wdt ∧ q.atBoundary = false) ∧
    (∃ (s : State) (c : Fin 4) (p : Fin 8),
      let k := 8 + c.val
      let r := s.audCore c.val
      let q := s.core k
      s.Canonical ∧ s.cores.length = 13 ∧ s.aud.cores.length = 4 ∧ p.val < s.aud.players.length ∧ q.live = true ∧ q.stopDue = .none ∧
          s.rd (F.audCoreWdt_BLOCKS c.val) ≠ 0 ∧ s.rd (F.audCoreWdt_BLOCKS c.val) ≤ r.wdt ∧ q.atBoundary = true ∧ q.again = false ∧
          s.rd (F.audCoreCtl_WDT_ACTION c.val) = 0) :=
  ⟨⟨(mk [(F.audCoreWdt_BLOCKS 3,
      3)] (ac fun r => { r with on := true, live := true, wdt := 3 }) 11 (fun c => {c with live := true, bundle := [.fence]})), 3, 7,
      canonical_of (by decide +kernel), by decide +kernel⟩,
   ⟨(mk [(F.audCoreWdt_BLOCKS 3, 3)] (ac fun r => { r with on := true, live := true, wdt := 3 }) 11 (fun c => {c with live := true})), 3, 7,
       canonical_of (by decide +kernel), by decide +kernel⟩⟩

theorem test_meets_ClipPlayers_1 :
    (∃ (s : State) (who : Initiator) (k : Fin 8),
      let r := s.player k.val
      let allowed := mayWrite false none true (initiatorTag who) && !s.shutOut who (0xA0040C + k.val * 0x40)
      s.Canonical ∧ k.val < s.aud.players.length ∧ reaches who .irs = true ∧ allowed = true ∧ r.playing = none ∧ r.armed = none ∧
          s.runs 15 = true) ∧
    (∃ (s : State) (who : Initiator) (k : Fin 8) (c : PlayClip),
      let r := s.player k.val
      let allowed := mayWrite false none true (initiatorTag who) && !s.shutOut who (0xA0040C + k.val * 0x40)
      s.Canonical ∧ k.val < s.aud.players.length ∧ reaches who .irs = true ∧ allowed = true ∧
          (r.playing.isSome = true ∨ r.armed.isSome = true) ∧ r.armed = some c ∧ s.rd (F.audDomStatus_RUNNING c.domain) = 1 ∧
          c.enter ≤ s.audNow c.domain ∧ c.len ≠ 0) ∧
    (∃ (s : State) (who : Initiator) (k : Fin 8),
      let allowed := mayWrite false none true (initiatorTag who) && !s.shutOut who (0xA0040C + k.val * 0x40)
      s.Canonical ∧ k.val < s.aud.players.length ∧ reaches who .irs = true ∧ allowed = false) ∧
    (∃ (s : State) (k : Fin 8) (c : PlayClip),
      let r := s.player k.val
      s.Canonical ∧ k.val < s.aud.players.length ∧ r.armed = some c ∧ s.rd (F.audDomStatus_RUNNING c.domain) = 1 ∧
          c.enter ≤ s.audNow c.domain ∧ c.len = 0) :=
  ⟨⟨(mk [(F.playAddr_ADDR 7, 0x1003), (F.playLen_LEN 7, 8)]), .cellar, 7, canonical_of (by decide +kernel), by decide +kernel⟩,
   ⟨(mk [] (pl fun r => { r with armed := some clp })), (.audio 1), 7, clp, canonical_of (by decide +kernel), by decide +kernel⟩,
   ⟨(mk [] (pl fun r => { r with armed := some clpBad })), (.dma 1 .host), 7, canonical_of (by decide +kernel), by decide +kernel⟩,
   ⟨(mk [(F.audDomStatus_RUNNING 0, 1), (F.audDomStatus_RUNNING 1, 1),(F.audDomStatus_RUNNING 2,
       1)] (pl fun r => { r with armed := some {clp with len := 0, enter := 0} })), 7, {clp with len := 0, enter := 0},
       canonical_of (by decide +kernel), by decide +kernel⟩⟩

theorem test_meets_ClipPlayers_2 : ∃ (s : State) (k : Fin 8),
      let r := s.player k.val
      s.Canonical ∧ k.val < s.aud.players.length ∧ r.last = true ∧ r.finished = false :=
  ⟨(mk [] (pl fun r => { r with playing := some clp, pos := 1, rep := 1 })), 7, canonical_of (by decide +kernel), by decide +kernel⟩

end Audio

/-! ### States that meet the hypotheses: the Press -/

namespace Press

def ent (op sf df fl w h src dst ss ds fg bg par : Nat) : List Byte := natLE 4 (op + fl + sf * 256 + df * 65536) ++ natLE 2 w ++ natLE 2 h ++
    natLE 8 src ++ natLE 8 dst ++ natLE 4 ss ++ natLE 4 ds ++ natLE 8 fg ++ natLE 8 bg ++ natLE 8 0x1234567 ++ natLE 8 par
def sM : State :=
  let s := st [(F.vatStatus_STATE, 2), (F.pressStatus_STATE 1, 1), (F.pressCur_ADDR 1, vatBase), (F.pressEntries_COUNT 1, 2^32-1),
      (F.pressStatus_ERR_ENTRIES 1, 255)]
  s
def pe (b : List Byte) (f : PressRun → PressRun) (s : State := sM) : State := { s with press := s.press.modify 1 fun r => f { r with phase := .run, entry := b, budget := 9 } }
def rd (a n : Nat) : List Byte := (memRead (.press 1) a n sM).1
def S := vatBase + 0x1000
def D := vatBase + 0x2000
def eF : List Byte := ent 1 0 4 0 16 1 0 D 0 64 0x123456789ABC 0 0
def eC : List Byte := ent 2 8 0 0 64 1 S D 64 64 0x123456789ABC 0 0
def eB : List Byte := ent 3 4 0 0 16 1 S (D+32) 64 64 0x123456789ABC 0 0x800
def eV : List Byte := ent 4 4 3 0 16 1 S D 64 64 0x123456789ABC 0 0x800
def eX (keep : Nat) (src : Nat) : List Byte := ent 5 4 4 0 16 1 src D 64 64 0x123456789ABC 0xFEDC (keep * 2^14 + 3 * 2^16)
def eR (cw : Nat) : List Byte := ent 6 4 4 0 1 16 S D 64 64 0x123456789ABC 0xFEDC (cw * 2^13)
def stt : State := st [(F.vatStatus_STATE, 2), (F.pressStartLo_ADDR 1, 0xFFFFFFFF), (F.pressActs_COUNT 1, 2^32-1)]
def fe : State := pe [] (fun r => { r with phase := .fetch })
def feB : State :=
  let s := pe [] (fun r => { r with phase := .fetch })
  s.wr (F.pressCur_ADDR 1) 0x6000000000
def c1 : PressChunk := (pChunks eB)[0]?.getD ⟨0,0,0⟩
def q1 : Nat × Nat := ((pChunkReads eB c1)[0]?).getD (0,0)
def fin1 (fl st_ fetched : Nat) : State := pe (ent 1 0 4 fl 16 1 0 D 0 64 0 0 0) (fun r => { r with phase := .finish, status := st_, fetched := fetched })

theorem test_meets_PressControl_1 :
    (∃ (s : State) (who : Initiator) (e : Fin 2),
      let mayStart := mayWrite true none false (initiatorTag who) = true ∧ (initiatorTag who = .host → s.heldRes 0x80 e.val = false)
      s.Canonical ∧ s.pressRuns = true ∧ e.val < s.press.length ∧ reaches who .irs = true ∧ mayStart ∧ s.rd (F.pressStatus_STATE e.val) = 0 ∧
          s.usable 22 e.val = true ∧ s.rd (F.pressStatus_STATE e.val) ≠ 1 ∧ s.irsTrimmed (0x80000C + e.val * 0x100) = false) ∧
    (∃ (s : State) (who : Initiator) (e : Fin 2),
      let r := s.pressOf e.val
      let mayStart := mayWrite true none false (initiatorTag who) = true ∧ (initiatorTag who = .host → s.heldRes 0x80 e.val = false)
      let idle := s.rd (F.pressStatus_STATE e.val) = 0 ∧ s.usable 22 e.val = true
      s.Canonical ∧ s.pressRuns = true ∧ e.val < s.press.length ∧ reaches who .irs = true ∧ mayStart ∧ ¬idle ∧
          s.rd (F.pressStatus_STATE e.val) = 1 ∧ r.phase ≠ .fetch) ∧
    (∃ (s : State) (who : Initiator) (e : Fin 2),
      let mayStart := mayWrite true none false (initiatorTag who) = true ∧ (initiatorTag who = .host → s.heldRes 0x80 e.val = false)
      s.Canonical ∧ s.pressRuns = true ∧ e.val < s.press.length ∧ reaches who .irs = true ∧ ¬mayStart) ∧
    (∃ (s : State) (e : Fin 2),
      let r := s.pressOf e.val
      let entry := memRead (.press e) (s.rd (F.pressCur_ADDR e.val)) 64 s
      let u := entry.2.2
      s.Canonical ∧ s.pressRuns = true ∧ e.val < s.press.length ∧ r.phase = .fetch ∧ entry.2.1 = false ∧ u.press = s.press ∧
          s.rd (F.pressStatus_STATE e.val) = 1) :=
  ⟨⟨stt, .cellar, 1, canonical_of (by decide +kernel), by decide +kernel⟩,
   ⟨sM, (.dma 1 .peer), 1, canonical_of (by decide +kernel), by decide +kernel⟩,
   ⟨sM, (.seq 3), 1, canonical_of (by decide +kernel), by decide +kernel⟩,
   ⟨fe, 1, canonical_of (by decide +kernel), by decide +kernel⟩⟩

theorem test_meets_PressControl_2 :
    (∃ (s : State) (e : Fin 2),
      let r := s.pressOf e.val
      let entry := memRead (.press e) (s.rd (F.pressCur_ADDR e.val)) 64 s
      let u := entry.2.2
      s.Canonical ∧ s.pressRuns = true ∧ e.val < s.press.length ∧ r.phase = .fetch ∧ entry.2.1 = true ∧ e.val < u.press.length ∧
          u.Canonical) ∧
    (∃ (s : State) (e : Fin 2),
      let r := s.pressOf e.val
      s.Canonical ∧ s.pressRuns = true ∧ e.val < s.press.length ∧ r.phase = .run ∧ pOp r.entry = 0) ∧
    (∃ (s : State) (e : Fin 2),
      let r := s.pressOf e.val
      let result := if pBit r.entry 7 then memWrite (.press e) (s.rd (F.pressCur_ADDR e.val) + 0x3C) (natLE 4 (r.status + r.rows * 256)) s else (false, s)
      let v := result.2
      s.Canonical ∧ s.pressRuns = true ∧ e.val < s.press.length ∧ r.phase = .finish ∧ v.press = s.press ∧ v.Canonical) ∧
    (∃ (s : State) (e : Fin 2) (c : PressChunk) (q : Nat × Nat),
      let r := s.pressOf e.val
      s.Canonical ∧ s.pressRuns = true ∧ e.val < s.press.length ∧ r.phase = .run ∧ (pChunks r.entry)[0]? = some c ∧
          (pChunkReads r.entry c)[0]? = some q) :=
  ⟨⟨feB, 1, canonical_of (by decide +kernel), by decide +kernel, by decide +kernel, by decide +kernel, by decide +kernel, by decide +kernel,
      canonical_of (by decide +kernel)⟩,
   ⟨(pe (ent 0 0 4 0 16 1 0 D 0 64 0 0 0) id), 1, canonical_of (by decide +kernel), by decide +kernel⟩,
   ⟨(fin1 0x30 0x1F 3), 1, canonical_of (by decide +kernel), by decide +kernel, by decide +kernel, by decide +kernel, by decide +kernel,
       canonical_of (by decide +kernel)⟩,
   ⟨(pe eB id), 1, c1, q1, canonical_of (by decide +kernel), by decide +kernel⟩⟩

theorem test_meets_PressOperations_1 :
    (∃ (s : State) (e : Fin 2),
      let r := s.pressOf e.val
      let b := r.entry
      s.Canonical ∧ s.pressRuns = true ∧ e.val < s.press.length ∧ r.phase = .run ∧ r.aborting = false ∧ pCheck b = 0 ∧ pOp b = 1 ∧
          pH b = 1) ∧
    (∃ (s : State) (e : Fin 2) (src : List Byte),
      let r := s.pressOf e.val
      let b := r.entry
      let w := pW b
      let sb := pBytes (pSrcFmt b)
      let reads (a n : Nat) (d : List Byte) : Prop := a % 64 + n ≤ 64 ∧ d.length = n ∧ memRead (.press e) a n s = (d, false, s)
      s.Canonical ∧ s.pressRuns = true ∧ e.val < s.press.length ∧ r.phase = .run ∧ r.aborting = false ∧ pCheck b = 0 ∧ pOp b = 2 ∧ pH b = 1 ∧
          reads (pSrc b) (w * sb) src) ∧
    (∃ (s : State) (e : Fin 2) (src : List Byte) (old : List Byte),
      let r := s.pressOf e.val
      let b := r.entry
      let w := pW b
      let sb := pBytes (pSrcFmt b)
      let db := pBytes (pDstFmt b)
      let reads (a n : Nat) (d : List Byte) : Prop := a % 64 + n ≤ 64 ∧ d.length = n ∧ memRead (.press e) a n s = (d, false, s)
      s.Canonical ∧ s.pressRuns = true ∧ e.val < s.press.length ∧ r.phase = .run ∧ r.aborting = false ∧ pCheck b = 0 ∧ pOp b = 3 ∧ pH b = 1 ∧
          reads (pSrc b) (w * sb) src ∧ reads (pDst b) (w * db) old) ∧
    (∃ (s : State) (e : Fin 2) (src : List Byte),
      let r := s.pressOf e.val
      let b := r.entry
      let w := pW b
      let sb := pBytes (pSrcFmt b)
      let reads (a n : Nat) (d : List Byte) : Prop := a % 64 + n ≤ 64 ∧ d.length = n ∧ memRead (.press e) a n s = (d, false, s)
      s.Canonical ∧ s.pressRuns = true ∧ e.val < s.press.length ∧ r.phase = .run ∧ r.aborting = false ∧ pCheck b = 0 ∧ pOp b = 4 ∧ pH b = 1 ∧
          reads (pSrc b) (w * sb) src) :=
  ⟨⟨(pe eF id), 1, canonical_of (by decide +kernel), by decide +kernel⟩,
   ⟨(pe eC id), 1, (rd S 64), canonical_of (by decide +kernel), by decide +kernel⟩,
   ⟨(pe eB id), 1, (rd S 64), (rd (D+32) 32), canonical_of (by decide +kernel), by decide +kernel⟩,
   ⟨(pe eV id), 1, (rd S 64), canonical_of (by decide +kernel), by decide +kernel⟩⟩

theorem test_meets_PressOperations_2 :
    (∃ (s : State) (e : Fin 2) (src : List Byte),
      let r := s.pressOf e.val
      let b := r.entry
      let w := pW b
      let reads (a n : Nat) (d : List Byte) : Prop := a % 64 + n ≤ 64 ∧ d.length = n ∧ memRead (.press e) a n s = (d, false, s)
      let mask (i : Nat) : Bool := bitAt (fieldAt src ((pParam b 16 3 + i) / 8) 1) ((pParam b 16 3 + i) % 8)
      s.Canonical ∧ s.pressRuns = true ∧ e.val < s.press.length ∧ r.phase = .run ∧ r.aborting = false ∧ pCheck b = 0 ∧ pOp b = 5 ∧ pH b = 1 ∧
          reads (pSrc b) ((pParam b 16 3 + w + 7) / 8) src ∧ (pParam b 14 1 = 0 ∨ ∀ i, i < w → mask i = true)) ∧
    (∃ (s : State) (e : Fin 2) (src : List Byte),
      let r := s.pressOf e.val
      let b := r.entry
      let w := pW b
      let db := pBytes (pDstFmt b)
      let reads (a n : Nat) (d : List Byte) : Prop := a % 64 + n ≤ 64 ∧ d.length = n ∧ memRead (.press e) a n s = (d, false, s)
      let mask (i : Nat) : Bool := bitAt (fieldAt src ((pParam b 16 3 + i) / 8) 1) ((pParam b 16 3 + i) % 8)
      s.Canonical ∧ s.pressRuns = true ∧ e.val < s.press.length ∧ r.phase = .run ∧ r.aborting = false ∧ pCheck b = 0 ∧ pOp b = 5 ∧ pH b = 1 ∧
          reads (pSrc b) ((pParam b 16 3 + w + 7) / 8) src ∧ pParam b 14 1 = 1 ∧ (∀ i, i < w → mask i = false) ∧ w * db ≤ 64) ∧
    (∃ (s : State) (e : Fin 2) (pixel : Nat → List Byte),
      let r := s.pressOf e.val
      let b := r.entry
      let w := pW b
      let sb := pBytes (pSrcFmt b)
      s.Canonical ∧ s.pressRuns = true ∧ e.val < s.press.length ∧ r.phase = .run ∧ r.aborting = false ∧ pCheck b = 0 ∧ pOp b = 6 ∧ w = 1 ∧
          (∀ y, y < pH b → (pixel y).length = sb ∧ memRead (.press e) (pSrc b + y * pSrcStride b) sb s = (pixel y, false, s))) :=
  ⟨⟨(pe (eX 0 S) id), 1, (rd S 3), canonical_of (by decide +kernel), by decide +kernel⟩,
   ⟨(pe (eX 1 (S+0x800)) id), 1, (rd (S+0x800) 3), canonical_of (by decide +kernel), by decide +kernel⟩,
   ⟨(pe (eR 0) id), 1, (fun y => rd (S + y * 64) 4), canonical_of (by decide +kernel), by decide +kernel⟩⟩

end Press

/-! ### States that meet the hypotheses: the DMA engine -/

namespace Dma

def de (src dst len fl next gl : Nat) : List Byte := natLE 8 src ++ natLE 8 dst ++ natLE 4 len ++ natLE 1 fl ++ natLE 3 0 ++ natLE 5 next ++
    natLE 2 gl ++ [0#8]
def A := vatBase + 0x3000
def S := vatBase + 0x1000
def D := vatBase + 0x2000
def base (l : List (Fld × Nat)) : State := st ([(F.refStatus_STATE, 2), (F.vatStatus_STATE, 2), (F.chCur_ADDR 63, A), (F.beamNow_LINE,
    1000), (F.beamNow_FRAME, 1)] ++ l)
def dm (l : List (Fld × Nat)) (f : DmaRun → DmaRun) (d : List Byte := de S D 16 1 A 5) : State :=
  let s := base l
  let s := (memWrite .cellar A d s).2
  { s with dma := s.dma.modify 63 f }
def fe : DmaRun → DmaRun := fun r => { r with phase := .fetch }
def w (s : State) : State := { s with casc := { s.casc with blocked := false, ask := none }, hif := { s.hif with hostIn := [] } }
def mvS (d : List Byte) (b : Nat) (fetched : Nat) : State := dm [(F.chStatus_STATE 63, 1), (F.chFetched_COUNT 63, fetched),
    (F.chDone_COUNT 63, 2^32-1)] (fun r => { r with phase := .move, desc := d, status := 1, budget := b }) d
def g1 : List Byte := de S D 16 8 A 2999
def z0 : List Byte := de S D 0 0 A 5
def b0 : List Byte := de (S+1) D 16 0 A 5
def k0 : List Byte := de S D 16 0 A 5

theorem test_meets_DmaControl_1 :
    (∃ (s : State) (who : Initiator) (n : Fin 64),
      let tag := initiatorTag who
      let state := s.rd (F.chStatus_STATE n.val)
      let mayStart := mayWrite true none false tag = true ∧ (tag = .host → s.heldRes 0x90 n.val = false)
      s.Canonical ∧ s.dmaRuns = true ∧ n.val < s.dma.length ∧ reaches who .irs = true ∧ mayStart ∧ state = 0 ∧ s.usable 23 0 = true) ∧
    (∃ (s : State) (who : Initiator) (n : Fin 64) (host : List Byte),
      let r := s.dmaOf n.val
      let tag := initiatorTag who
      let state := s.rd (F.chStatus_STATE n.val)
      let mayStart := mayWrite true none false tag = true ∧ (tag = .host → s.heldRes 0x90 n.val = false)
      let idle := state = 0 ∧ s.usable 23 0 = true
      let who := s.dmaWho n.val
      let a := s.rd (F.chCur_ADDR n.val)
      let w : State := { s with casc := { s.casc with blocked := false, ask := none }, hif := { s.hif with hostIn := host } }
      let f0 := dmaReadBeat who a w
      let f1 := dmaReadBeat who ((a + 16) % 2 ^ 40) f0.2.2
      let v := f1.2.2
      s.Canonical ∧ s.dmaRuns = true ∧ n.val < s.dma.length ∧ reaches who .irs = true ∧ mayStart ∧ ¬idle ∧ r.phase = .fetch ∧ f0.2.1 = none ∧
          f1.2.1 = none ∧ f0.2.2.rd (F.chStatus_TAG n.val) = s.rd (F.chStatus_TAG n.val) ∧ v.dma = s.dma ∧ v.casc.blocked = false ∧
          v.Canonical ∧ (r.phase = .fetch ∨ r.phase = .gate)) ∧
    (∃ (s : State) (who : Initiator) (n : Fin 64),
      let r := s.dmaOf n.val
      let tag := initiatorTag who
      let mayStart := mayWrite true none false tag = true ∧ (tag = .host → s.heldRes 0x90 n.val = false)
      s.Canonical ∧ s.dmaRuns = true ∧ n.val < s.dma.length ∧ reaches who .irs = true ∧ ¬mayStart ∧ r.phase = .gate ∧
          reached r.gate s.now = false) ∧
    (∃ (s : State) (who : Initiator) (n : Fin 64) (host : List Byte),
      let r := s.dmaOf n.val
      let who := s.dmaWho n.val
      let a := s.rd (F.chCur_ADDR n.val)
      let w : State := { s with casc := { s.casc with blocked := false, ask := none }, hif := { s.hif with hostIn := host } }
      let x := (busWrite who ((a + 0x15) % 2 ^ 40) [BitVec.ofNat 8 r.status] w).2
      s.Canonical ∧ s.dmaRuns = true ∧ n.val < s.dma.length ∧ r.phase = .finish ∧ 0x10 ≤ r.status ∧ x.dma = s.dma ∧ x.casc.blocked = false ∧
          x.Canonical ∧ x.rd (F.chStatus_STATE n.val) = 1) :=
  ⟨⟨(base [(F.chStartLo_ADDR 63, 0xFFFFFFFF), (F.chBudget_ENTRIES 63, 4), (F.chDeadline_LINES 63, 3)]), .cellar, 63,
      canonical_of (by decide +kernel), by decide +kernel⟩,
   ⟨(dm [(F.chStatus_STATE 63, 1), (F.chStatus_START_REJ 63, 255)] fe), (.bar true), 63, [], canonical_of (by decide +kernel),
       by decide +kernel, by decide +kernel, by decide +kernel, by decide +kernel, by decide +kernel, by decide +kernel, by decide +kernel,
       by decide +kernel, by decide +kernel, by decide +kernel, by decide +kernel, canonical_of (by decide +kernel), by decide +kernel⟩,
   ⟨(dm [(F.chStatus_STATE 63, 2)] (fun r => { r with phase := .gate, gate := 2*2^32, desc := z0})), (.seq 3), 63,
       canonical_of (by decide +kernel), by decide +kernel⟩,
   ⟨(dm [(F.chStatus_STATE 63, 1), (F.chBad_COUNT 63, 65535)] (fun r => { r with phase := .finish, status := 0x21, desc := b0 })), .cellar,
       63, [], canonical_of (by decide +kernel), by decide +kernel, by decide +kernel, by decide +kernel, by decide +kernel,
       by decide +kernel, by decide +kernel, canonical_of (by decide +kernel), by decide +kernel⟩⟩

theorem test_meets_DmaControl_2 :
    (∃ (s : State) (n : Fin 64),
      let r := s.dmaOf n.val
      s.Canonical ∧ s.dmaRuns = true ∧ n.val < s.dma.length ∧ (r.phase = .move ∨ r.phase = .finish)) ∧
    (∃ (s : State) (n : Fin 64) (t0 : Nat),
      let r := s.dmaOf n.val
      let state := s.rd (F.chStatus_STATE n.val)
      s.Canonical ∧ s.dmaRuns = true ∧ n.val < s.dma.length ∧ r.deadline = some t0 ∧ reached t0 s.now = true ∧ state ≠ 0 ∧ r.phase = .gate ∧
          reached r.gate s.now = true) :=
  ⟨⟨(dm [(F.chStatus_STATE 63, 1)] (fun r => { r with phase := .finish })), 63, canonical_of (by decide +kernel), by decide +kernel⟩,
   ⟨(dm [(F.chStatus_STATE 63, 2)] (fun r => { r with phase := .gate, gate := 0x10000000, desc := k0, deadline := some 0x10000000})), 63,
       0x10000000, canonical_of (by decide +kernel), by decide +kernel⟩⟩

theorem test_meets_DmaDescriptors_1 :
    (∃ (s : State) (n : Fin 64) (host : List Byte),
      let r := s.dmaOf n.val
      let who := s.dmaWho n.val
      let a := s.rd (F.chCur_ADDR n.val)
      let w : State := { s with casc := { s.casc with blocked := false, ask := none }, hif := { s.hif with hostIn := host } }
      let f0 := dmaReadBeat who a w
      s.Canonical ∧ s.dmaRuns = true ∧ n.val < s.dma.length ∧ r.phase = .fetch ∧ f0.2.1 ≠ none ∧ f0.2.2.casc.blocked = false ∧
          f0.2.2.dma = s.dma ∧ f0.2.2.Canonical) ∧
    (∃ (s : State) (n : Fin 64) (host : List Byte),
      let r := s.dmaOf n.val
      let who := s.dmaWho n.val
      let a := s.rd (F.chCur_ADDR n.val)
      let w : State := { s with casc := { s.casc with blocked := false, ask := none }, hif := { s.hif with hostIn := host } }
      let same (v : State) : Prop := v.dma = s.dma ∧ v.rd (F.chStatus_TAG n.val) = s.rd (F.chStatus_TAG n.val) ∧
          v.rd (F.chCur_ADDR n.val) = a
      let f0 := dmaReadBeat who a w
      let f1 := dmaReadBeat who ((a + 16) % 2 ^ 40) f0.2.2
      let v := f1.2.2
      let d := f0.1 ++ f1.1
      let check := dmaCheck v.ref.setting.lines d
      s.Canonical ∧ s.dmaRuns = true ∧ n.val < s.dma.length ∧ r.phase = .fetch ∧ f0.2.1 = none ∧ f1.2.1 = none ∧ same f0.2.2 ∧ same v ∧
          v.casc.blocked = false ∧ v.Canonical ∧ check = none ∧ dmaFlag d 3 = false) ∧
    (∃ (s : State) (n : Fin 64) (host : List Byte),
      let r := s.dmaOf n.val
      let who := s.dmaWho n.val
      let a := s.rd (F.chCur_ADDR n.val)
      let w : State := { s with casc := { s.casc with blocked := false, ask := none }, hif := { s.hif with hostIn := host } }
      let same (v : State) : Prop := v.dma = s.dma ∧ v.rd (F.chStatus_TAG n.val) = s.rd (F.chStatus_TAG n.val) ∧
          v.rd (F.chCur_ADDR n.val) = a
      let f0 := dmaReadBeat who a w
      let f1 := dmaReadBeat who ((a + 16) % 2 ^ 40) f0.2.2
      let v := f1.2.2
      let d := f0.1 ++ f1.1
      let check := dmaCheck v.ref.setting.lines d
      s.Canonical ∧ s.dmaRuns = true ∧ n.val < s.dma.length ∧ r.phase = .fetch ∧ f0.2.1 = none ∧ f1.2.1 = none ∧ same f0.2.2 ∧ same v ∧
          v.casc.blocked = false ∧ v.Canonical ∧ check = some 2 ∧ dmaFlag d 3 = false) ∧
    (∃ (s : State) (n : Fin 64) (host : List Byte),
      let r := s.dmaOf n.val
      let who := s.dmaWho n.val
      let a := s.rd (F.chCur_ADDR n.val)
      let w : State := { s with casc := { s.casc with blocked := false, ask := none }, hif := { s.hif with hostIn := host } }
      let same (v : State) : Prop := v.dma = s.dma ∧ v.rd (F.chStatus_TAG n.val) = s.rd (F.chStatus_TAG n.val) ∧
          v.rd (F.chCur_ADDR n.val) = a
      let f0 := dmaReadBeat who a w
      let f1 := dmaReadBeat who ((a + 16) % 2 ^ 40) f0.2.2
      let v := f1.2.2
      let d := f0.1 ++ f1.1
      let check := dmaCheck v.ref.setting.lines d
      s.Canonical ∧ s.dmaRuns = true ∧ n.val < s.dma.length ∧ r.phase = .fetch ∧ f0.2.1 = none ∧ f1.2.1 = none ∧ same f0.2.2 ∧ same v ∧
          v.casc.blocked = false ∧ v.Canonical ∧ (check = none ∨ check = some 2) ∧ dmaFlag d 3 = true) :=
  ⟨⟨((dm [] fe k0).wr (F.chCur_ADDR 63) 0x6000000000), 63, [], canonical_of (by decide +kernel), by decide +kernel, by decide +kernel,
      by decide +kernel, by decide +kernel, by decide +kernel, by decide +kernel, canonical_of (by decide +kernel)⟩,
   ⟨(dm [] fe k0), 63, [], canonical_of (by decide +kernel), by decide +kernel, by decide +kernel, by decide +kernel, by decide +kernel,
       by decide +kernel, by decide +kernel, by decide +kernel, by decide +kernel, canonical_of (by decide +kernel), by decide +kernel⟩,
   ⟨(dm [] fe z0), 63, [], canonical_of (by decide +kernel), by decide +kernel, by decide +kernel, by decide +kernel, by decide +kernel,
       by decide +kernel, by decide +kernel, by decide +kernel, by decide +kernel, canonical_of (by decide +kernel), by decide +kernel⟩,
   ⟨(dm [] fe g1), 63, [], canonical_of (by decide +kernel), by decide +kernel, by decide +kernel, by decide +kernel, by decide +kernel,
       by decide +kernel, by decide +kernel, by decide +kernel, by decide +kernel, canonical_of (by decide +kernel), by decide +kernel⟩⟩

theorem test_meets_DmaDescriptors_2 :
    (∃ (s : State) (n : Fin 64) (host : List Byte),
      let r := s.dmaOf n.val
      let who := s.dmaWho n.val
      let a := s.rd (F.chCur_ADDR n.val)
      let w : State := { s with casc := { s.casc with blocked := false, ask := none }, hif := { s.hif with hostIn := host } }
      let same (v : State) : Prop := v.dma = s.dma ∧ v.rd (F.chStatus_TAG n.val) = s.rd (F.chStatus_TAG n.val) ∧
          v.rd (F.chCur_ADDR n.val) = a
      let f0 := dmaReadBeat who a w
      let f1 := dmaReadBeat who ((a + 16) % 2 ^ 40) f0.2.2
      let v := f1.2.2
      let d := f0.1 ++ f1.1
      let check := dmaCheck v.ref.setting.lines d
      s.Canonical ∧ s.dmaRuns = true ∧ n.val < s.dma.length ∧ r.phase = .fetch ∧ f0.2.1 = none ∧ f1.2.1 = none ∧ same f0.2.2 ∧ same v ∧
          v.casc.blocked = false ∧ v.Canonical ∧ check ≠ none ∧ check ≠ some 2) ∧
    (∃ (s : State) (n : Fin 64) (host : List Byte),
      let r := s.dmaOf n.val
      let who := s.dmaWho n.val
      let a := s.rd (F.chCur_ADDR n.val)
      let w : State := { s with casc := { s.casc with blocked := false, ask := none }, hif := { s.hif with hostIn := host } }
      let same (v : State) : Prop := v.dma = s.dma ∧ v.rd (F.chStatus_TAG n.val) = s.rd (F.chStatus_TAG n.val) ∧
          v.rd (F.chCur_ADDR n.val) = a
      let src := (dmaSrc r.desc).beat 0
      let dst := (dmaDst r.desc).beat 0
      let read := dmaReadBeat who src w
      let written := dmaWriteBeat who dst read.1 read.2.2
      let fin := busWrite who ((a + 0x15) % 2 ^ 40) [BitVec.ofNat 8 r.status] written.2
      let x := fin.2
      s.Canonical ∧ s.dmaRuns = true ∧ n.val < s.dma.length ∧ r.phase = .move ∧ dmaLen r.desc = 16 ∧ read.2.1 = none ∧ written.1 = none ∧
          same written.2 ∧ x.dma = s.dma ∧ x.Canonical ∧ x.casc.blocked = false ∧ x.rd (F.chStatus_STATE n.val) = 3 ∧ r.status < 0x10) ∧
    (∃ (s : State) (n : Fin 64) (host : List Byte),
      let r := s.dmaOf n.val
      let who := s.dmaWho n.val
      let a := s.rd (F.chCur_ADDR n.val)
      let w : State := { s with casc := { s.casc with blocked := false, ask := none }, hif := { s.hif with hostIn := host } }
      let same (v : State) : Prop := v.dma = s.dma ∧ v.rd (F.chStatus_TAG n.val) = s.rd (F.chStatus_TAG n.val) ∧
          v.rd (F.chCur_ADDR n.val) = a
      let src := (dmaSrc r.desc).beat 0
      let dst := (dmaDst r.desc).beat 0
      let read := dmaReadBeat who src w
      let written := dmaWriteBeat who dst read.1 read.2.2
      let fin := busWrite who ((a + 0x15) % 2 ^ 40) [BitVec.ofNat 8 r.status] written.2
      let x := fin.2
      s.Canonical ∧ s.dmaRuns = true ∧ n.val < s.dma.length ∧ r.phase = .move ∧ dmaLen r.desc = 16 ∧ read.2.1 = none ∧ written.1 = none ∧
          same written.2 ∧ x.dma = s.dma ∧ x.Canonical ∧ x.casc.blocked = false ∧ x.rd (F.chStatus_STATE n.val) = 1 ∧ r.status < 0x10) :=
  ⟨⟨(dm [] fe b0), 63, [], canonical_of (by decide +kernel), by decide +kernel, by decide +kernel, by decide +kernel, by decide +kernel,
      by decide +kernel, by decide +kernel, by decide +kernel, by decide +kernel, canonical_of (by decide +kernel), by decide +kernel⟩,
   ⟨((mvS k0 0 3).wr (F.chStatus_STATE 63) 3), 63, [], canonical_of (by decide +kernel), by decide +kernel, by decide +kernel,
       by decide +kernel, by decide +kernel, by decide +kernel, by decide +kernel, by decide +kernel, by decide +kernel,
       canonical_of (by decide +kernel), by decide +kernel⟩,
   ⟨(mvS k0 0 3), 63, [], canonical_of (by decide +kernel), by decide +kernel, by decide +kernel, by decide +kernel, by decide +kernel,
       by decide +kernel, by decide +kernel, by decide +kernel, by decide +kernel, canonical_of (by decide +kernel), by decide +kernel⟩⟩

end Dma

/-! ### States that meet the hypotheses: the timers -/

namespace Timers

def rnd (n : Nat) : Nat := (n * 6364136223846793005 + 1442695040888963407) % 2^64 / 2^17
def tm (l : List (Fld × Nat)) (f : TimerRun → TimerRun) (seed : Nat := 0) : State :=
  let s := st ([(F.refStatus_STATE, 2)] ++ ((List.range 64).flatMap fun n => if seed = 0 ∨ n = 63 then [] else [(F.timerCtl_EN n,
      rnd (seed + n)), (F.timerCtl_SRC n, rnd (seed+n+100) % 9), (F.timerCtl_SLAVE n, rnd (seed+n+200) % 3), (F.timerCtl_MASTER n,
      if rnd (seed+n) % 2 = 0 then 63 else rnd (seed+n+300)), (F.timerCtl_MEVT n, rnd (seed+n+400)), (F.timerCount_COUNT n,
      rnd (seed+n+500) % 9), (F.timerReload_VALUE n, rnd (seed+n+501) % 9), (F.timerStatus_ARMED n, rnd (seed+n+600)),
      (F.timerCapctl_CAP_SRC n, rnd (seed+n+700)), (F.timerCapctl_IRQ n, rnd (seed+n+800)), (F.timerCapture_PEND n, rnd (seed+n+900))]) ++
      l)
  { s with timers := { s.timers with runs := s.timers.runs.modify 63 f } }
def C (n : Nat) : Fld := F.timerCount_COUNT n
def sh (l : List (Fld × Nat)) : State :=
  let s := tm l id
  { s with timers := { s.timers with shadows := [(.cellar, 63, 99)], last := [(.cellar, 61)] } }

theorem test_meets_TimerEvents_1 :
    (∃ (s : State) (n : Fin 64) (j : Fin 64),
      let r := s.timer n.val
      s.Canonical ∧ j.val < s.timers.runs.length ∧ (∀ m : Fin 64, (s.timer m.val).tickDue = false ∧ (m ≠ j → s.timerSlave m.val ≠ 3 ∧
          s.rd (F.timerCtl_SRC m.val) ≠ 9)) ∧ s.timerCounts n.val = false ∧ s.timerFree n.val = false ∧ s.timers.last = [] ∧
          r.captureDue = none) ∧
    (∃ (s : State) (n : Fin 64) (j : Fin 64),
      let count := s.rd (F.timerCount_COUNT n.val)
      let top := s.rd (F.timerReload_VALUE n.val)
      s.Canonical ∧ j.val < s.timers.runs.length ∧ (∀ m : Fin 64, (s.timer m.val).tickDue = false ∧ (m ≠ j → s.timerSlave m.val ≠ 3 ∧
          s.rd (F.timerCtl_SRC m.val) ≠ 9)) ∧ s.timerFree n.val = true ∧ s.timerCounts n.val = true ∧ top ≤ count) :=
  ⟨⟨(tm [(C 63, 5), (F.timerReload_VALUE 63, 9), (F.timerCtl_SRC 63, 3)] id 0), 63, 0, canonical_of (by decide +kernel), by decide +kernel⟩,
   ⟨(tm [(F.timerCtl_EN 63, 1), (F.timerCtl_SRC 63, 1), (C 63, 5), (F.timerReload_VALUE 63, 5), (F.timerEvents_OVF 63, 65535),
       (F.timerCapctl_IRQ 63, 15)] id 0), 63, 0, canonical_of (by decide +kernel), by decide +kernel⟩⟩

theorem test_meets_TimerEvents_2 :
    (∃ (s : State) (n : Fin 64) (j : Fin 64),
      let count := s.rd (F.timerCount_COUNT n.val)
      let top := s.rd (F.timerReload_VALUE n.val)
      s.Canonical ∧ j.val < s.timers.runs.length ∧ (∀ m : Fin 64, (s.timer m.val).tickDue = false ∧ (m ≠ j → s.timerSlave m.val ≠ 3 ∧
          s.rd (F.timerCtl_SRC m.val) ≠ 9)) ∧ s.timerFree n.val = true ∧ s.timerCounts n.val = true ∧ top ≤ count ∧
          ((s.rd (F.timerCtl_SRC j.val) = 9 ∧ s.timerSlave j.val ≠ 3 ∧ j.val = n.val + 1) ∨ (s.timerSlave j.val = 3 ∧
          s.rd (F.timerCtl_MASTER j.val) = n.val ∧ s.rd (F.timerCtl_MEVT j.val) = 0 ∧ j ≠ n)) ∧ s.timerCounts j.val = true) ∧
    (∃ (s : State) (n : Fin 64) (j : Fin 64) (ticks : BitVec 32),
      let r := s.timer n.val
      let count := s.rd (F.timerCount_COUNT n.val)
      let top := s.rd (F.timerReload_VALUE n.val)
      s.Canonical ∧ j.val < s.timers.runs.length ∧ (∀ m : Fin 64, (s.timer m.val).tickDue = false ∧ (m ≠ j → s.timerSlave m.val ≠ 3 ∧
          s.rd (F.timerCtl_SRC m.val) ≠ 9)) ∧ s.timerFree n.val = true ∧ s.timerCounts n.val = true ∧ count < r.cmp ∧
          r.cmp ≤ min (count + ticks.toNat) top ∧ s.rd (F.timerStatus_ARMED n.val) = 1) :=
  ⟨⟨(tm [(F.timerCtl_EN 62, 1), (F.timerCtl_SRC 62, 1), (C 62, 5), (F.timerReload_VALUE 62, 5), (F.timerCtl_EN 63, 1), (F.timerCtl_SRC 63,
      9), (C 63, 5), (F.timerReload_VALUE 63, 6)] id 0), 62, 63, canonical_of (by decide +kernel), by decide +kernel⟩,
   ⟨(tm [(F.timerCtl_EN 63, 1), (F.timerCtl_SRC 63, 2), (C 63, 5), (F.timerReload_VALUE 63, 9), (F.timerEvents_CMP 63, 65535),
       (F.timerCapctl_IRQ 63, 15), (F.timerStatus_ARMED 63, 1)] (fun r => { r with cmp := 9 }) 0), 63, 0, 0xFFFFFFFF,
       canonical_of (by decide +kernel), by decide +kernel⟩⟩

theorem test_meets_TimerEvents_3 :
    (∃ (s : State) (n : Fin 64) (j : Fin 64),
      let count := s.rd (F.timerCount_COUNT n.val)
      let top := s.rd (F.timerReload_VALUE n.val)
      s.Canonical ∧ j.val < s.timers.runs.length ∧ (∀ m : Fin 64, (s.timer m.val).tickDue = false ∧ (m ≠ j → s.timerSlave m.val ≠ 3 ∧
          s.rd (F.timerCtl_SRC m.val) ≠ 9)) ∧ s.timerFree n.val = true ∧ s.timerCounts n.val = true ∧ count < top ∧
          s.rd (F.timerStatus_ARMED n.val) = 0) ∧
    (∃ (s : State) (n : Fin 64) (j : Fin 64) (v : Nat),
      let r := s.timer n.val
      s.Canonical ∧ j.val < s.timers.runs.length ∧ (∀ m : Fin 64, (s.timer m.val).tickDue = false ∧ (m ≠ j → s.timerSlave m.val ≠ 3 ∧
          s.rd (F.timerCtl_SRC m.val) ≠ 9)) ∧ s.timerFree n.val = false ∧ r.captureDue = some v) :=
  ⟨⟨(tm [(F.timerCtl_EN 63, 1), (F.timerCtl_SRC 63, 2), (C 63, 5), (F.timerReload_VALUE 63, 9), (F.timerCapctl_IRQ 63,
      15)] (fun r => { r with cmp := 9 }) 0), 63, 0, canonical_of (by decide +kernel), by decide +kernel⟩,
   ⟨(tm [(F.timerCtl_EN 63, 1), (F.timerCtl_SRC 63, 3), (C 63, 5), (F.timerReload_VALUE 63, 9), (F.timerCapctl_IRQ 63, 15),
       (F.timerCapctl_CAP_SRC 63, 1), (F.timerCapture_PEND 63, 1)] (fun r => { r with cmp := 9, captureDue := some 77 }) 0), 63, 0, 77,
       canonical_of (by decide +kernel), by decide +kernel⟩⟩

theorem test_meets_TimerEvents_4 :
    (∃ (s : State) (n : Fin 64) (j : Fin 64),
      let r := s.timer n.val
      s.Canonical ∧ j.val < s.timers.runs.length ∧ (∀ m : Fin 64, (s.timer m.val).tickDue = false ∧ (m ≠ j → s.timerSlave m.val ≠ 3 ∧
          s.rd (F.timerCtl_SRC m.val) ≠ 9)) ∧ s.timerSlave n.val = 2 ∧ r.restartDue = true ∧ s.rd (F.timerCtl_EN n.val) = 1) ∧
    (∃ (s : State) (n : Fin 64) (j : Fin 64),
      let r := s.timer n.val
      let k := (s.pipe (s.rd (F.timerLock_PIPE n.val))).linesSent - r.lockBase
      s.Canonical ∧ j.val < s.timers.runs.length ∧ (∀ m : Fin 64, (s.timer m.val).tickDue = false ∧ (m ≠ j → s.timerSlave m.val ≠ 3 ∧
          s.rd (F.timerCtl_SRC m.val) ≠ 9)) ∧ n ≠ j ∧ s.rd (F.timerLock_EN n.val) = 1 ∧ k ≠ r.lockSeen ∧
          k % max 1 (s.rd (F.timerLock_LINE_DIV n.val)) = 0 ∧ s.rd (F.timerCtl_EN n.val) = 1) :=
  ⟨⟨(tm [(F.timerCtl_EN 63, 1), (F.timerCtl_SRC 63, 3), (C 63, 5), (F.timerReload_VALUE 63, 9), (F.timerCtl_SLAVE 63,
      2)] (fun r => { r with restartDue := true }) 0), 63, 0, canonical_of (by decide +kernel), by decide +kernel⟩,
   ⟨(let s := tm [(F.timerCtl_EN 63, 1), (F.timerCtl_SRC 63, 3), (C 63, 5), (F.timerReload_VALUE 63, 9), (F.timerLock_EN 63, 1),
       (F.timerLock_PIPE 63, 7), (F.timerLock_LINE_DIV 63,
       255)] (fun r => { r with lockSeen := 3 }) 0; { s with pipes := s.pipes.modify 7 fun r => { r with linesSent := 510 } }), 63, 0,
       canonical_of (by decide +kernel), by decide +kernel⟩⟩

theorem test_meets_TimerAccesses :
    (∃ (s : State) (who : Initiator) (n : Fin 64) (l : Fin 64),
      let tag := initiatorTag who
      s.Canonical ∧ (∀ m : Fin 64, s.timerSlave m.val ≠ 3 ∧ (s.timer m.val).tickDue = false) ∧ n.val < s.timers.runs.length ∧
          reaches who .irs = true ∧ s.timerFree n.val = false ∧ ((s.timers.last.find? fun l => l.1 == tag) = none)) ∧
    (∃ (s : State) (who : Initiator) (n : Fin 64) (l : Fin 64) (held : Nat),
      let tag := initiatorTag who
      s.Canonical ∧ (∀ m : Fin 64, s.timerSlave m.val ≠ 3 ∧ (s.timer m.val).tickDue = false) ∧ n.val < s.timers.runs.length ∧
          reaches who .irs = true ∧ s.timerFree n.val = false ∧ ((s.timers.last.find? fun l => l.1 == tag) = some (tag, l.val)) ∧
          l.val < n.val ∧ n.val ∈ s.chainAbove l.val ∧ ((s.timers.shadows.find? fun x => x.1 == tag && x.2.1 == n.val) = some (tag, n.val,
          held))) :=
  ⟨⟨(tm [(F.timerCtl_EN 63, 1), (F.timerCtl_SRC 63, 3), (C 63, 5), (F.timerReload_VALUE 63, 9), (F.timerCapctl_IRQ 63, 15),
      (F.timerCapctl_CAP_SRC 63, 1), (F.timerCapture_PEND 63, 1), (F.timerCapture_VALUE 63, 2^32-1), (F.timerEvents_CMP 63, 65535),
      (F.timerCtl_CMP_SYNC 63, 1)] (fun r => { r with cmp := 9 }) 0), .cellar, 63, 61, canonical_of (by decide +kernel), by decide +kernel⟩,
   ⟨(sh [(F.timerCtl_SRC 62, 9), (F.timerCtl_SRC 63, 9)]), .cellar, 63, 61, 99, canonical_of (by decide +kernel), by decide +kernel⟩⟩

end Timers

/-! ### States that meet the hypotheses: the interrupt controller -/

namespace Intc


theorem test_meets_IntcRegisters : ∃ (s : State) (who : Initiator),
      s.Canonical ∧ reaches who .irs = true :=
  ⟨(st [(F.intcPendSet_SRC 3, 5)]), .cellar, canonical_of (by decide +kernel), by decide +kernel⟩

theorem test_meets_Msix :
    (∃ (s : State) (v : Fin 64),
      s.Canonical ∧ s.rd F.intcHostMode_MSIX = 0 ∧ (s.intc.pba.getLsbD v.val = false ∨ s.intc.functionMask = true) ∧ s.intc.pba = 0) ∧
    (∃ (s : State) (v : Fin 64),
      s.Canonical ∧ s.intc.pba.getLsbD v.val = true ∧ (s.intc.functionMask = false)) :=
  ⟨⟨(st [(F.intcPendSet_SRC 3, 5)]), 63, canonical_of (by decide +kernel), by decide +kernel⟩,
   ⟨({ st [] with intc := { (st []).intc with pba := 0x400000 } }), 22, canonical_of (by decide +kernel), by decide +kernel⟩⟩

end Intc

/-! ### States that meet the hypotheses: the mailboxes' requests -/

namespace Requests

def rnd (n : Nat) : Nat := (n * 6364136223846793005 + 1442695040888963407) % 2^64 / 2^17
def R (m : Nat) (v : Via := .pcie) : Rung := ⟨m, v, false, none⟩
def ak (m op : Nat) (pay : List Byte) (l : List (Fld × Nat) := []) (f : State → State := id) : State :=
  let s := st ([(F.vatStatus_STATE, 2), (F.intcTgt_HVEC m, m), (F.mbxStatus_STATE m, 1), (F.mbxStatus_TAIL m, rnd m % 512),
      (F.mbxHeadDb_HEAD m, rnd m % 512)] ++ l)
  let s := { s with cellar := { s.cellar with booted := true }, hif := { s.hif with rung := [R m] } }
  f (s.setBytes (reqArea m) (natLE 2 op ++ natLE 2 1 ++ natLE 4 0xDEADBEEF ++ natLE 4 pay.length ++ natLE 4 0 ++ pay))
def nr (n : Nat) : List Byte := natLE 2 0x0805 ++ natLE 2 4 ++ natLE 4 0 ++ natLE 4 n
def le (q sev : Nat) : LogEntry := ⟨1, 2, 3, q, sev, false, 5, 6⟩
def lk : List (Fld × Nat) := [(F.vatLock_BASE 1, 2), (F.vatLock_SIZE 1, 1)]
def arm0 : SafeArm := ⟨15, vatBase + 0x20000, 1, [1#8, 2#8, 3#8]⟩
def setF (f : Fuses → Fuses) (s : State) : State := { s with cellar := { s.cellar with fuses := f s.cellar.fuses } }
def setC (f : CellarState → CellarState) (s : State) : State := { s with cellar := f s.cellar }
def ttb : List Byte := [0,0,0,0,0,0xFF,0,0,0,0] ++ natLE 2 1 ++ natLE 2 1 ++ [0,0] ++ natLE 8 (vatBase + 0x20000) ++ natLE 8 0 ++ natLE 8 0
def pk (s : State) : State :=
  let s := flashWrite (pkgBase 0 + 0x11) [1] s
  let s := flashWrite (pkgBase 0 + 0x20) (natLE 5 0 ++ [0,0] ++ [3] ++ natLE 4 0 ++ natLE 4 40) s
  let s := flashWrite (pkgBase 0 + 512) ttb s
  { s.wr F.svcStatus_STATE 8 with svc := { s.svc with telltales := [⟨true, false, false, false, 0⟩] } }

theorem test_meets_MailboxRegisters_1 :
    (∃ (s : State) (via : Via) (m : Fin 16) (head : BitVec 9),
      let tail := s.rd (F.mbxStatus_TAIL m.val)
      let allowed := ∀ k : Fin 4, via = .peer k → bitAt (s.prm P.cascPeerMbx) m.val = true
      s.Canonical ∧ allowed ∧ s.rd (F.mbxStatus_STATE m.val) ≠ 1 ∧ s.hif.rung = [] ∧ opcodeServed (s.reqOpcode m.val) = true ∧
          bitAt (s.prm P.cascPeerMbx) m.val = false ∧ (tail + 512 - head.toNat) % 512 ≤ 256 ∧ s.heldOf m.val = []) ∧
    (∃ (s : State) (via : Via) (m : Fin 16),
      let allowed := ∀ k : Fin 4, via = .peer k → bitAt (s.prm P.cascPeerMbx) m.val = true
      s.Canonical ∧ allowed ∧ s.rd (F.mbxStatus_STATE m.val) ≠ 1 ∧ s.hif.rung = [] ∧ opcodeServed (s.reqOpcode m.val) = false ∧
          s.serves = true ∧ RingReady m.val s) ∧
    (∃ (s : State) (via : Via) (m : Fin 16),
      let allowed := ∀ k : Fin 4, via = .peer k → bitAt (s.prm P.cascPeerMbx) m.val = true
      s.Canonical ∧ allowed ∧ s.rd (F.mbxStatus_STATE m.val) ≠ 1 ∧ s.hif.rung = [] ∧ s.serves = false) ∧
    (∃ (s : State) (via : Via) (m : Fin 16),
      let allowed := ∀ k : Fin 4, via = .peer k → bitAt (s.prm P.cascPeerMbx) m.val = true
      s.Canonical ∧ allowed ∧ s.rd (F.mbxStatus_STATE m.val) = 1) :=
  ⟨⟨(ak 15 0 [] [(F.mbxStatus_STATE 15, 2)] fun s => { s with hif := { s.hif with rung := [] } }), .pcie, 15, 0,
      canonical_of (by decide +kernel), by decide +kernel⟩,
   ⟨(ak 15 0x12 [] [(F.mbxStatus_STATE 15, 0)] fun s => { s with hif := { s.hif with rung := [] } }), .xspi, 15,
       canonical_of (by decide +kernel), by unfold RingReady; decide +kernel⟩,
   ⟨(ak 15 0x12 [] [(F.mbxStatus_STATE 15,
       0)] fun s => { s with cellar := { s.cellar with booted := false }, hif := { s.hif with rung := [] } }), .pcie, 15,
       canonical_of (by decide +kernel), by decide +kernel⟩,
   ⟨(ak 15 0x10 []), .cellar, 15, canonical_of (by decide +kernel), by decide +kernel⟩⟩

theorem test_meets_MailboxRegisters_2 :
    (∃ (s : State) (m : Fin 16) (head : BitVec 9),
      let tail := s.rd (F.mbxStatus_TAIL m.val)
      s.Canonical ∧ 256 < (tail + 512 - head.toNat) % 512) ∧
    (∃ (s : State) (m : Fin 16),
      s.Canonical ∧ s.hif.ageOn.contains m.val = true ∧ s.unnotified m.val ≠ 0 ∧ s.asleep = false) ∧
    (∃ (s : State) (m : Fin 16) (r : Rung),
      s.Canonical ∧ Asked m.val 0x00 r s) :=
  ⟨⟨(ak 15 0x10 [] [(F.mbxStatus_TAIL 15, 300), (F.mbxHeadDb_HEAD 15, 300)]), 15, 43, canonical_of (by decide +kernel), by decide +kernel⟩,
   ⟨(ak 15 0x10 [] [(F.mbxStatus_TAIL 15, 300), (F.mbxHeadDb_HEAD 15,
       300)] fun s => {setUnnotified 15 3 s with hif := { s.hif with ageOn := [15], unnotified := List.replicate 16 3}}), 15,
       canonical_of (by decide +kernel), by decide +kernel⟩,
   ⟨(ak 15 0x0 [] [(F.mbxStatus_TAIL 15, 300), (F.mbxHeadDb_HEAD 15, 290)]), 15, (R 15), canonical_of (by decide +kernel),
       by first | (unfold Asked RingReady; decide +kernel) | decide +kernel⟩⟩

theorem test_meets_HostRequests_1 :
    (∃ (s : State) (m : Fin 16) (r : Rung) (st : Nat) (d : Nat) (j : Fin 16),
      let requests : List (Instr × Nat) := [(.nop m, 0x00), (.getInfo m, 0x01), (.paramSet m, 0x10), (.paramGet m, 0x11), (.powerState m,
          0x20), (.faultStatus m, 0x30), (.reinstate m, 0x31), (.logRead m, 0x40), (.updateBegin m, 0x50), (.updateData m, 0x51),
          (.updateFinish m, 0x52), (.getCert m, 0x60), (.attest m, 0x61), (.takeover m, 0x70), (.handback m, 0x71), (.safeWrite m, 0x80)]
      let c := requests.getD j.val (.nop m, 0x00)
      s.Canonical ∧ s.hif.rung = [⟨m.val, r.via, false, none⟩] ∧ s.serves = true ∧ s.refuses (s.reqOpcode m.val) = some (st, d) ∧
          st ≠ St.busySelftest ∧ RingReady m.val s ∧ c.2 = s.reqOpcode m.val) ∧
    (∃ (s : State) (m : Fin 16),
      s.Canonical ∧ s.rd (F.mbxStatus_STATE m.val) ≠ 1 ∧ s.hif.rung = [] ∧ opcodeServed (s.reqOpcode m.val) = true) ∧
    (∃ (s : State) (m : Fin 16) (r : Rung) (head : BitVec 9),
      let b := s.payload m.val
      let addr := fieldAt b 0 8
      let data := b.drop 16
      let may := data ≠ [] ∧ s.inLock addr data.length = true ∧ s.holdsTable addr data.length = false
      s.Canonical ∧ (s.rd (F.mbxStatus_TAIL m.val) + 512 - head.toNat) % 512 ≤ 256 ∧ s.heldOf m.val = [] ∧ Asked m.val 0x80 r s ∧ ¬ may) ∧
    (∃ (s : State) (m : Fin 16),
      s.Canonical ∧ s.hif.ageOn.contains m.val = true ∧ s.unnotified m.val ≠ 0 ∧ s.asleep = false) :=
  ⟨⟨(ak 15 0x80 (natLE 8 (vatBase + 0x20000) ++ natLE 8 0 ++ [1#8,2#8,3#8]) [(F.fltSummary_ESSENTIAL, 1)]), 15, (R 15), 4, 0, 15,
      canonical_of (by decide +kernel), by unfold RingReady; decide +kernel⟩,
   ⟨(ak 15 0x10 [] [(F.mbxStatus_STATE 15, 2)] fun s => { s with hif := { s.hif with rung := [] } }), 15, canonical_of (by decide +kernel),
       by decide +kernel⟩,
   ⟨(ak 15 0x80 (natLE 8 (vatBase + 0x20000) ++ natLE 8 0 ++ [1#8,2#8,3#8])), 15, (R 15), 17, canonical_of (by decide +kernel),
       by unfold Asked RingReady; decide +kernel⟩,
   ⟨(ak 15 0x10 [] [(F.mbxStatus_TAIL 15, 300), (F.mbxHeadDb_HEAD 15,
       300)] fun s => {setUnnotified 15 3 s with hif := { s.hif with ageOn := [15], unnotified := List.replicate 16 3}}), 15,
       canonical_of (by decide +kernel), by decide +kernel⟩⟩

theorem test_meets_HostRequests_2 :
    (∃ (s : State) (m : Fin 16) (r : Rung),
      s.Canonical ∧ Asked m.val 0x00 r s) ∧
    (∃ (s : State) (m : Fin 16) (r : Rung) (a : SafeArm) (dot : Nat),
      let later := s.atDot dot
      s.Canonical ∧ Asked m.val 0x01 r s ∧ (∀ a ∈ s.hif.safeArms, a.mbx = m.val → reached a.stamp later.now = false)) ∧
    (∃ (s : State) (m : Fin 16) (r : Rung),
      let b := s.payload m.val
      s.Canonical ∧ Asked m.val 0x11 r s ∧ b = natLE 2 0x0805 ++ natLE 2 4 ++ natLE 4 0) ∧
    (∃ (s : State) (m : Fin 16) (r : Rung) (x : Fin 5),
      let b := s.payload m.val
      let rest : State := { s with hif := { s.hif with rung := [] } }
      let notifyRec (n : Nat) : List Byte := natLE 2 0x0805 ++ natLE 2 4 ++ natLE 4 0 ++ natLE 4 n
      let set := applyRecs ⟨m.val, r.via, false⟩ (recsOf true b) rest
      s.Canonical ∧ Asked m.val 0x10 r s ∧ RingReady m.val set.2.2 ∧ set.2.2.mem = s.mem ∧ s.svc.held = [] ∧ b = notifyRec x.val) :=
  ⟨⟨(ak 15 0 [] [(F.pwrStatus_STATE, 0)] fun s => {s with fault := {s.fault with testSession := true}}), 15, (R 15),
      canonical_of (by decide +kernel), by first | (unfold Asked RingReady; decide +kernel) | decide +kernel⟩,
   ⟨(ak 7 0x1 []), 7, (R 7), arm0, 0, canonical_of (by decide +kernel), by unfold Asked RingReady; decide +kernel⟩,
   ⟨(ak 7 0x11 (natLE 2 0x0805 ++ natLE 2 4 ++ natLE 4 0)), 7, (R 7), canonical_of (by decide +kernel),
       by unfold Asked RingReady; decide +kernel⟩,
   ⟨(ak 7 0x10 (nr 3)), 7, (R 7), 3, canonical_of (by decide +kernel), by unfold Asked RingReady; decide +kernel⟩⟩

theorem test_meets_HostRequests_3 :
    (∃ (s : State) (m : Fin 16) (r : Rung) (x : Fin 5),
      let b := s.payload m.val
      let notifyRec (n : Nat) : List Byte := natLE 2 0x0805 ++ natLE 2 4 ++ natLE 4 0 ++ natLE 4 n
      s.Canonical ∧ Asked m.val 0x10 r s ∧ s.svc.held = [] ∧ b = notifyRec x.val ++ (natLE 2 0xFFFF ++ natLE 2 4 ++ natLE 4 0 ++
          natLE 4 0)) ∧
    (∃ (s : State) (m : Fin 16) (r : Rung),
      let b := s.payload m.val
      s.Canonical ∧ Asked m.val 0x40 r s ∧ 6 ≤ b.length ∧ fieldAt b 4 2 ≤ 127) ∧
    (∃ (s : State) (m : Fin 16) (r : Rung),
      let b := s.payload m.val
      s.Canonical ∧ Asked m.val 0x40 r s ∧ (b.length < 6 ∨ 127 < fieldAt b 4 2)) ∧
    (∃ (s : State) (m : Fin 16) (r : Rung),
      let b := s.payload m.val
      let ids := ((allUnits ++ allBlocks).filter fun id => fieldAt b 0 2 ≤ id).take (fieldAt b 2 2)
      s.Canonical ∧ Asked m.val 0x30 r s ∧ 4 ≤ b.length ∧ 2 + 8 * ids.length ≤ 4080) :=
  ⟨⟨(ak 7 0x10 (nr 4 ++ (natLE 2 0xFFFF ++ natLE 2 4 ++ natLE 4 0 ++ natLE 4 0))), 7, (R 7), 4, canonical_of (by decide +kernel),
      by unfold Asked RingReady; decide +kernel⟩,
   ⟨(ak 7 0x40 (natLE 4 11 ++ natLE 2 2) [] (setC fun c => {c with log := [le 10 0, le 11 1, le 12 2, le 13 0]})), 7, (R 7),
       canonical_of (by decide +kernel), by unfold Asked RingReady; decide +kernel⟩,
   ⟨(ak 7 0x40 (natLE 4 1 ++ natLE 2 128) [] (setC fun c => {c with log := [le 10 0, le 11 1, le 12 2, le 13 0]})), 7, (R 7),
       canonical_of (by decide +kernel), by unfold Asked RingReady; decide +kernel⟩,
   ⟨(ak 7 0x30 (natLE 2 0x200 ++ natLE 2 40)), 7, (R 7), canonical_of (by decide +kernel), by unfold Asked RingReady; decide +kernel⟩⟩

theorem test_meets_HostRequests_4 :
    (∃ (s : State) (m : Fin 16) (r : Rung),
      let b := s.payload m.val
      let addr := fieldAt b 0 8
      let data := b.drop 16
      let held := s.cellHeld addr data.length = true
      s.Canonical ∧ Asked m.val 0x80 r s ∧ data ≠ [] ∧ s.inLock addr data.length = true ∧ s.holdsTable addr data.length = false ∧ held) ∧
    (∃ (s : State) (m : Fin 16) (r : Rung),
      let b := s.payload m.val
      let rest : State := { s with hif := { s.hif with rung := [] } }
      let addr := fieldAt b 0 8
      let stamp := fieldAt b 8 8 % 2 ^ 48
      let data := b.drop 16
      let held := s.cellHeld addr data.length = true
      let out := memWrite .cellar addr data rest
      s.Canonical ∧ Asked m.val 0x80 r s ∧ data ≠ [] ∧ s.inLock addr data.length = true ∧ s.holdsTable addr data.length = false ∧ ¬ held ∧
          (stamp = 0 ∨ reached stamp s.now = true) ∧ RingReady m.val out.2) ∧
    (∃ (s : State) (m : Fin 16) (r : Rung),
      let b := s.payload m.val
      let addr := fieldAt b 0 8
      let stamp := fieldAt b 8 8 % 2 ^ 48
      let data := b.drop 16
      let held := s.cellHeld addr data.length = true
      s.Canonical ∧ Asked m.val 0x80 r s ∧ data ≠ [] ∧ s.inLock addr data.length = true ∧ s.holdsTable addr data.length = false ∧ ¬ held ∧
          stamp ≠ 0 ∧ reached stamp s.now = false) ∧
    (∃ (s : State) (m : Fin 16) (a : SafeArm) (w : Rung × Waiting) (dot : Nat),
      let later := s.atDot dot
      let armed : State := { later with hif := { s.hif with safeArms := s.hif.safeArms.erase a } }
      let put := memWrite .cellar a.addr a.data armed
      s.Canonical ∧ ((s.hif.safeArms.find? fun a => a.mbx == m.val && reached a.stamp later.now) = some a) ∧
          ((s.hif.waiting.find? fun w => w.1.mbx == m.val && w.2.opcode == 0x80 && w.2.arg == a.stamp) = some w) ∧ w.1.discard = false ∧
          RingReady m.val put.2) :=
  ⟨⟨(pk (ak 15 0x80 (natLE 8 (vatBase + 0x20000) ++ natLE 8 0 ++ [1#8,2#8,3#8]) (lk ++ [(F.safeBase_ADDR 0 0,
      vatBase + 0x20000),(F.safeStride_BYTES 0 0, 64)]))), 15, (R 15), canonical_of (by decide +kernel),
      by unfold Asked RingReady; decide +kernel⟩,
   ⟨(ak 15 0x80 (natLE 8 (vatBase + 0x20000) ++ natLE 8 0 ++ [1#8,2#8,3#8]) lk), 15, (R 15), canonical_of (by decide +kernel),
       by unfold Asked RingReady; decide +kernel⟩,
   ⟨(ak 15 0x80 (natLE 8 (vatBase + 0x20000) ++ natLE 8 1000 ++ [1#8,2#8,3#8]) lk), 15, (R 15), canonical_of (by decide +kernel),
       by unfold Asked RingReady; decide +kernel⟩,
   ⟨(ak 15 0x80 (natLE 8 (vatBase + 0x20000) ++ natLE 8 1000 ++ [1#8,2#8,3#8]) (lk ++ [(F.refStatus_STATE, 2), (F.beamNow_DOT,
       5)]) fun s => {s with hif := {s.hif with rung := [], safeArms := [{arm0 with stamp := (s.atDot 100).now}], waiting := [(R 15, ⟨15, 0x80, (s.atDot 100).now⟩)]}}), 15, {arm0 with stamp := ((st [(F.refStatus_STATE,2)]).atDot 100).now}, (R 15, ⟨15, 0x80, ((st [(F.refStatus_STATE,2)]).atDot 100).now⟩), 100, canonical_of (by decide +kernel), by unfold RingReady; decide +kernel⟩⟩

theorem test_meets_UpdateRequests_1 :
    (∃ (s : State) (m : Fin 16) (r : Rung),
      let b := s.payload m.val
      let len := fieldAt b 0 4
      s.Canonical ∧ Asked m.val 0x50 r s ∧ s.cellar.update = none ∧ s.cellar.trialWaits = false ∧ s.prm P.updateTarget = 0 ∧ 4 ≤ b.length ∧
          512 ≤ len ∧ len ≤ 0x400000) ∧
    (∃ (s : State) (m : Fin 16) (r : Rung) (u : Update),
      let b := s.payload m.val
      s.Canonical ∧ Asked m.val 0x50 r s ∧ s.cellar.update = some u ∧ 4 ≤ b.length) ∧
    (∃ (s : State) (m : Fin 16) (r : Rung) (u : Update),
      let b := s.payload m.val
      let len := fieldAt b 0 4
      let data := b.drop 8
      s.Canonical ∧ Asked m.val 0x51 r s ∧ s.cellar.update = some u ∧ data ≠ [] ∧ data.length ≤ 4064 ∧ len + data.length ≤ u.len) ∧
    (∃ (s : State) (m : Fin 16) (r : Rung) (u : Update),
      s.Canonical ∧ Asked m.val 0x52 r s ∧ s.cellar.update = some u ∧ u.target < 2) :=
  ⟨⟨(ak 4 0x50 (natLE 4 512)), 4, (R 4), canonical_of (by decide +kernel), by unfold Asked RingReady; decide +kernel⟩,
   ⟨(ak 4 0x50 (natLE 4 512) [] (setC fun c => {c with update := some ⟨1, 512, []⟩})), 4, (R 4), ⟨1, 512, []⟩,
       canonical_of (by decide +kernel), by unfold Asked RingReady; decide +kernel⟩,
   ⟨(ak 4 0x51 (natLE 4 2 ++ natLE 4 0 ++ [1#8,255#8,3#8]) [] (setC fun c => {c with update := some ⟨1, 512, []⟩})), 4, (R 4), ⟨1, 512, []⟩,
       canonical_of (by decide +kernel), by unfold Asked RingReady; decide +kernel⟩,
   ⟨(ak 4 0x52 [] [] (setC fun c => {c with update := some ⟨1, 512, []⟩})), 4, (R 4), ⟨1, 512, []⟩, canonical_of (by decide +kernel),
       by unfold Asked RingReady; decide +kernel⟩⟩

theorem test_meets_UpdateRequests_2 :
    (∃ (s : State) (m : Fin 16) (r : Rung),
      let b := s.payload m.val
      let slot := 1 - s.rd F.cellarStatus_SLOT
      s.Canonical ∧ Asked m.val 0x53 r s ∧ s.prm P.updateTarget = 0 ∧ b = [0#8, 0#8] ∧ bitAt s.desc.valid slot = true ∧
          s.desc.seq + 1 < 2 ^ 32) ∧
    (∃ (s : State) (m : Fin 16) (r : Rung) (arb : Fin 2),
      let b := s.payload m.val
      s.Canonical ∧ Asked m.val 0x53 r s ∧ s.prm P.updateTarget = 0 ∧ b = [1#8, BitVec.ofNat 8 arb.val] ∧ s.rd F.cellarStatus_TRIAL = 1 ∧
          s.desc.seq + 1 < 2 ^ 32) :=
  ⟨⟨(ak 4 0x53 [0,0]), 4, (R 4), canonical_of (by decide +kernel), by unfold Asked RingReady; decide +kernel⟩,
   ⟨(putDesc ⟨0, 0, 3, 2, 1⟩ (putDesc ⟨0, 0, 3, 0, 7⟩ (ak 4 0x53 [1,0] [(F.cellarStatus_SLOT, 1), (F.cellarStatus_TRIAL, 1)]))), 4, (R 4),
       0, canonical_of (by decide +kernel), by unfold Asked RingReady; decide +kernel⟩⟩

theorem test_meets_IdentityRequests_1 :
    (∃ (s : State) (m : Fin 16) (r : Rung) (i : Fin 2),
      let b := s.payload m.val
      s.Canonical ∧ Asked m.val 0x60 r s ∧ b = [BitVec.ofNat 8 i.val] ∧ (s.storedCert i.val).length ≤ 4080) ∧
    (∃ (s : State) (m : Fin 16) (r : Rung),
      let b := s.payload m.val
      s.Canonical ∧ Asked m.val 0x61 r s ∧ s.mayAttest = true ∧ b.length = 48) ∧
    (∃ (s : State) (m : Fin 16) (r : Rung),
      s.Canonical ∧ Asked m.val 0x61 r s ∧ s.mayAttest = false) ∧
    (∃ (s : State) (m : Fin 16) (r : Rung),
      let b := s.payload m.val
      s.Canonical ∧ Asked m.val 0x62 r s ∧ b = [0#8]) :=
  ⟨⟨(ak 4 0x60 [0] [] (setF fun f => {f with certDigest := some []}) |> flashWrite 0x4000 [3#8, 0, 2#8, 0, 5, 6, 7, 8, 9]), 4, (R 4), 0,
      canonical_of (by decide +kernel), by unfold Asked RingReady; decide +kernel⟩,
   ⟨(ak 4 0x61 (List.replicate 48 5) [] (setF fun f => {f with lifecycle := 3})), 4, (R 4), canonical_of (by decide +kernel),
       by unfold Asked RingReady; decide +kernel⟩,
   ⟨(ak 4 0x61 (List.replicate 48 5) [] (setF fun f => {f with lifecycle := 1})), 4, (R 4), canonical_of (by decide +kernel),
       by unfold Asked RingReady; decide +kernel⟩,
   ⟨(ak 4 0x62 [0]), 4, (R 4), canonical_of (by decide +kernel), by unfold Asked RingReady; decide +kernel⟩⟩

theorem test_meets_IdentityRequests_2 :
    (∃ (s : State) (m : Fin 16) (r : Rung),
      let b := s.payload m.val
      let f := s.cellar.fuses
      s.Canonical ∧ Asked m.val 0x62 r s ∧ b = [1#8] ∧ f.lifecycle = 1 ∧ f.unitKey = none) ∧
    (∃ (s : State) (m : Fin 16) (r : Rung),
      let b := s.payload m.val
      let f := s.cellar.fuses
      s.Canonical ∧ Asked m.val 0x62 r s ∧ b = [1#8] ∧ f.lifecycle ≠ 1) ∧
    (∃ (s : State) (m : Fin 16) (r : Rung) (dev : List Byte) (int : List Byte),
      let b := s.payload m.val
      let f := s.cellar.fuses
      s.Canonical ∧ Asked m.val 0x62 r s ∧ b = 2#8 :: 0#8 :: (natLE 2 dev.length ++ dev ++ int) ∧ dev.length < 65536 ∧ f.lifecycle = 1 ∧
          f.certDigest = none) ∧
    (∃ (s : State) (m : Fin 16) (r : Rung) (new : Fin 6) (token : List Byte) (needs : Bool),
      let b := s.payload m.val
      let f := s.cellar.fuses
      s.Canonical ∧ Asked m.val 0x62 r s ∧ b = 3#8 :: BitVec.ofNat 8 new.val :: token ∧ transition f.lifecycle new.val = some needs ∧
          (new.val = 2 → f.certDigest ≠ none)) :=
  ⟨⟨(ak 4 0x62 [1] [] (setF fun f => {f with lifecycle := 1})), 4, (R 4), canonical_of (by decide +kernel),
      by unfold Asked RingReady; decide +kernel⟩,
   ⟨(ak 4 0x62 [1]), 4, (R 4), canonical_of (by decide +kernel), by unfold Asked RingReady; decide +kernel⟩,
   ⟨(ak 4 0x62 [2,0,2,0,7,8,9] [] (setF fun f => {f with lifecycle := 1, unitKey := some []})), 4, (R 4), [7,8], [9],
       canonical_of (by decide +kernel), by unfold Asked RingReady; decide +kernel⟩,
   ⟨(ak 4 0x62 [3,5] [(F.cellarStatus_LIFECYCLE, 3)] (setF fun f => {f with lifecycle := 3})), 4, (R 4), 5, [], true,
       canonical_of (by decide +kernel), by unfold Asked RingReady; decide +kernel⟩⟩

theorem test_meets_IdentityRequests_3 :
    (∃ (s : State) (m : Fin 16) (r : Rung) (new : Fin 6) (token : List Byte),
      let b := s.payload m.val
      let f := s.cellar.fuses
      s.Canonical ∧ Asked m.val 0x62 r s ∧ b = 3#8 :: BitVec.ofNat 8 new.val :: token ∧ transition f.lifecycle new.val = none) ∧
    (∃ (s : State) (m : Fin 16) (r : Rung) (k : Fin 4) (token : List Byte),
      let b := s.payload m.val
      s.Canonical ∧ Asked m.val 0x62 r s ∧ b = 4#8 :: BitVec.ofNat 8 k.val :: token ∧ s.cellar.runKey = k.val ∧ s.cellar.booted = true) ∧
    (∃ (s : State) (m : Fin 16) (r : Rung) (k : Fin 4) (token : List Byte),
      let b := s.payload m.val
      s.Canonical ∧ Asked m.val 0x62 r s ∧ b = 4#8 :: BitVec.ofNat 8 k.val :: token ∧
          (s.cellar.runKey ≠ k.val ∨ s.cellar.booted = false)) :=
  ⟨⟨(ak 4 0x62 [3,4]), 4, (R 4), 4, [], canonical_of (by decide +kernel), by unfold Asked RingReady; decide +kernel⟩,
   ⟨(ak 4 0x62 ([4,3] ++ List.replicate 96 4) [] (setC fun c => {c with runKey := 3, nonce := some []})), 4, (R 4), 3,
       (List.replicate 96 4), canonical_of (by decide +kernel), by unfold Asked RingReady; decide +kernel⟩,
   ⟨(ak 4 0x62 ([4,3] ++ List.replicate 96 4) [] (setC fun c => {c with nonce := some []})), 4, (R 4), 3, (List.replicate 96 4),
       canonical_of (by decide +kernel), by unfold Asked RingReady; decide +kernel⟩⟩

theorem test_meets_ManagementRequests_1 :
    (∃ (s : State) (m : Fin 16) (r : Rung),
      let b := s.payload m.val
      let state := s.rd F.pwrStatus_STATE
      s.Canonical ∧ Asked m.val 0x20 r s ∧ b = [0#8] ∧ state = 1 ∧ s.rd F.pwrTrimmed_UNIT = 0) ∧
    (∃ (s : State) (m : Fin 16) (r : Rung) (trim : BitVec 16),
      let b := s.payload m.val
      let state := s.rd F.pwrStatus_STATE
      let trims := trim.toNat % 2 ^ 15 * 2 ^ 15 + trim.toNat / 2 ^ 15 * 2 ^ 30
      s.Canonical ∧ Asked m.val 0x20 r s ∧ b = 1#8 :: 0#8 :: 0#8 :: 0#8 :: natLE 4 trims ∧ state = 0 ∧ s.rd F.pwrTrimmed_UNIT = 0 ∧ (∀ j,
          j < 31 → bitAt trims j = true → s.trimStatus j = St.ok)) ∧
    (∃ (s : State) (m : Fin 16) (r : Rung),
      let b := s.payload m.val
      let state := s.rd F.pwrStatus_STATE
      s.Canonical ∧ Asked m.val 0x20 r s ∧ b = [2#8] ∧ state < 2 ∧ s.mayStop m.val = true) ∧
    (∃ (s : State) (m : Fin 16) (r : Rung),
      let b := s.payload m.val
      let state := s.rd F.pwrStatus_STATE
      s.Canonical ∧ Asked m.val 0x20 r s ∧ b = [2#8] ∧ state < 2 ∧ s.mayStop m.val = false) :=
  ⟨⟨(ak 4 0x20 [0] [(F.pwrStatus_STATE, 1)]), 4, (R 4), canonical_of (by decide +kernel), by unfold Asked RingReady; decide +kernel⟩,
   ⟨(ak 4 0x20 ([1,0,0,0] ++ natLE 4 (32767 * 2^15))), 4, (R 4), 32767, canonical_of (by decide +kernel),
       by unfold Asked RingReady; decide +kernel⟩,
   ⟨(ak 4 0x20 [2] [(F.pipeStatus_STATE 7, 3), (F.pipeCtl_EN 7, 1)]), 4, (R 4), canonical_of (by decide +kernel),
       by unfold Asked RingReady; decide +kernel⟩,
   ⟨(ak 4 0x20 [2] [(F.mbxStatus_STATE 7, 1)]), 4, (R 4), canonical_of (by decide +kernel), by unfold Asked RingReady; decide +kernel⟩⟩

theorem test_meets_ManagementRequests_2 :
    (∃ (s : State) (m : Fin 16) (r : Rung),
      let b := s.payload m.val
      s.Canonical ∧ Asked m.val 0x21 r s ∧ b = [0#8]) ∧
    (∃ (s : State) (m : Fin 16) (r : Rung) (blk : BitVec 8) (inst : BitVec 8),
      let b := s.payload m.val
      s.Canonical ∧ Asked m.val 0x21 r s ∧ b = [1#8, blk, inst] ∧ inst.toNat < blockInstances blk.toNat ∧
          s.blockHeld blk.toNat inst.toNat = true) ∧
    (∃ (s : State) (m : Fin 16) (r : Rung) (blk : BitVec 8) (inst : BitVec 8),
      let b := s.payload m.val
      s.Canonical ∧ Asked m.val 0x21 r s ∧ b = [1#8, blk, inst] ∧ blockInstances blk.toNat ≤ inst.toNat) ∧
    (∃ (s : State) (m : Fin 16) (r : Rung) (n : Fin 64) (blk : BitVec 8) (inst : BitVec 8),
      let b := s.payload m.val
      let rest : State := { s with hif := { s.hif with rung := [] } }
      let u := blockReset blk.toNat inst.toNat rest
      s.Canonical ∧ Asked m.val 0x21 r s ∧ b = [1#8, blk, inst] ∧ inst.toNat < blockInstances blk.toNat ∧
          s.blockHeld blk.toNat inst.toNat = false ∧ RingReady m.val u ∧ u.mem = s.mem ∧ s.prm P.logNotify = 4 ∧ b = [1#8, 6#8,
          BitVec.ofNat 8 n.val] ∧ s.blockHeld 6 n.val = false ∧ n.val < s.dma.length) :=
  ⟨⟨(ak 4 0x21 [0]), 4, (R 4), canonical_of (by decide +kernel), by unfold Asked RingReady; decide +kernel⟩,
   ⟨(ak 4 0x21 [1, 1, 31] [] fun s => {s with svc := {s.svc with held := [(1, 0x40, 31)]}}), 4, (R 4), 1, 31,
       canonical_of (by decide +kernel), by unfold Asked RingReady; decide +kernel⟩,
   ⟨(ak 4 0x21 [1, 12, 0]), 4, (R 4), 12, 0, canonical_of (by decide +kernel), by unfold Asked RingReady; decide +kernel⟩,
   ⟨(ak 4 0x21 [1, 6, 63] [(F.chStatus_STATE 63, 1), (F.chDone_COUNT 63, 9), (F.chBudget_ENTRIES 63,
       9)] fun s => (onDma 63 (fun r => {r with phase := .gate}) s).setPrm P.logNotify 4), 4, (R 4), 63, 6, 63,
       canonical_of (by decide +kernel), by unfold Asked RingReady; decide +kernel⟩⟩

theorem test_meets_ManagementRequests_3 :
    (∃ (s : State) (m : Fin 16) (r : Rung) (id : BitVec 16),
      let b := s.payload m.val
      let unit := id.toNat
      s.Canonical ∧ Asked m.val 0x31 r s ∧ b = natLE 2 unit ∧ allUnits.contains unit = true ∧ (s.fltUnit unit).retrying = false ∧
          (s.unitState unit = 1 ∨ s.unitState unit = 2)) ∧
    (∃ (s : State) (m : Fin 16) (r : Rung) (id : BitVec 16),
      let b := s.payload m.val
      let unit := id.toNat
      s.Canonical ∧ Asked m.val 0x31 r s ∧ b = natLE 2 unit ∧ allUnits.contains unit = true ∧ (s.fltUnit unit).retrying = true) ∧
    (∃ (s : State) (m : Fin 16) (r : Rung) (id : BitVec 16),
      let b := s.payload m.val
      let unit := id.toNat
      s.Canonical ∧ Asked m.val 0x31 r s ∧ b = natLE 2 unit ∧ allUnits.contains unit = true ∧ (s.fltUnit unit).retrying = false ∧
          s.unitState unit = 0) ∧
    (∃ (s : State) (m : Fin 16) (r : Rung) (id : BitVec 16),
      let b := s.payload m.val
      let unit := id.toNat
      s.Canonical ∧ Asked m.val 0x31 r s ∧ b = natLE 2 unit ∧ allBlocks.contains unit = true ∧ s.prm P.logNotify = 4) :=
  ⟨⟨(ak 4 0x31 (natLE 2 0) [(F.fltU_STATE 0 0, 1), (F.portCtl_EN 7, 1), (F.csiCtl_EN 3, 1), (F.tdmCtl_EN 7, 1), (F.fltU_TOTAL 0 0,
      5)] fun s => {s with fault := {s.fault with record := [0, 5]}}), 4, (R 4), 0, canonical_of (by decide +kernel),
      by unfold Asked RingReady; decide +kernel⟩,
   ⟨(ak 4 0x31 (natLE 2 0x200) [(F.fltU_STATE 2 0,
       1)] fun s => {s with fault := {s.fault with units := [{(s.fltUnit 0x200) with retrying := true, id := 0x200}]}}), 4, (R 4), 0x200,
       canonical_of (by decide +kernel), by unfold Asked RingReady; decide +kernel⟩,
   ⟨(ak 4 0x31 (natLE 2 0) [(F.fltU_STATE 0 0, 0), (F.portCtl_EN 7, 1), (F.csiCtl_EN 3, 1), (F.tdmCtl_EN 7, 1), (F.fltU_TOTAL 0 0,
       5)] fun s => {s with fault := {s.fault with record := [0, 5]}}), 4, (R 4), 0, canonical_of (by decide +kernel),
       by unfold Asked RingReady; decide +kernel⟩,
   ⟨(ak 4 0x31 (natLE 2 0x1000) [] (State.setPrm · P.logNotify 4)), 4, (R 4), 0x1000, canonical_of (by decide +kernel),
       by unfold Asked RingReady; decide +kernel⟩⟩

theorem test_meets_ManagementRequests_4 :
    (∃ (s : State) (m : Fin 16) (r : Rung),
      let b := s.payload m.val
      s.Canonical ∧ Asked m.val 0x32 r s ∧ b = [1#8] ∧ s.powerStatus m.val [4#8] = St.ok) ∧
    (∃ (s : State) (m : Fin 16) (r : Rung),
      let b := s.payload m.val
      s.Canonical ∧ Asked m.val 0x32 r s ∧ b = [0#8]) :=
  ⟨⟨(ak 4 0x32 [1]), 4, (R 4), canonical_of (by decide +kernel), by unfold Asked RingReady; decide +kernel⟩,
   ⟨(ak 4 0x32 [0]), 4, (R 4), canonical_of (by decide +kernel), by unfold Asked RingReady; decide +kernel⟩⟩

theorem test_meets_ServiceRequests_1 :
    (∃ (s : State) (m : Fin 16) (r : Rung) (v : Fin 4) (mask : BitVec 8) (flags : BitVec 8),
      let b := s.payload m.val
      s.Canonical ∧ Asked m.val 0x70 r s ∧ b = [mask, flags] ∧ (∀ v, v < 5 → mask.getLsbD v = true → s.svcState v ≠ 4) ∧ s.svc.back = 0) ∧
    (∃ (s : State) (m : Fin 16) (r : Rung) (v : Fin 4) (mask : BitVec 8) (flags : BitVec 8),
      let b := s.payload m.val
      s.Canonical ∧ Asked m.val 0x70 r s ∧ b = [mask, flags] ∧ mask.getLsbD v.val = true ∧ s.svcState v.val = 4) ∧
    (∃ (s : State) (m : Fin 16) (w : Rung × Waiting),
      s.Canonical ∧ RingReady m.val s ∧ ((s.hif.waiting.find? fun w => w.1.mbx == m.val && w.2.opcode == 0x70) = some w) ∧
          w.1.discard = false ∧ s.takeoverReady (w.2.arg % 256) = true ∧ s.rd F.svcStatus_HOST_PRESENT = 1) ∧
    (∃ (s : State) (m : Fin 16) (w : Rung × Waiting),
      s.Canonical ∧ RingReady m.val s ∧ ((s.hif.waiting.find? fun w => w.2.opcode == 0x70 && !s.takeoverReady (w.2.arg % 256)) = some w) ∧
          w.1.discard = false ∧ w.1.mbx = m.val) :=
  ⟨⟨(ak 4 0x70 [31, 1]), 4, (R 4), 3, 31, 1, canonical_of (by decide +kernel), by unfold Asked RingReady; decide +kernel⟩,
   ⟨(ak 4 0x70 [31, 1] [(F.svcStatus_STATE, 4 * 512)]), 4, (R 4), 3, 31, 1, canonical_of (by decide +kernel),
       by unfold Asked RingReady; decide +kernel⟩,
   ⟨(ak 15 0 [] [(F.svcStatus_STATE, 2 + 3*8+ 2 * 512), (F.svcStatus_HOST_PRESENT,
       1)] fun s => {s with hif := {s.hif with rung := [], waiting := [(R 15, ⟨15, 0x70, 31+256⟩)]}}), 15, (R 15, ⟨15, 0x70, 31+256⟩),
       canonical_of (by decide +kernel), by unfold RingReady; decide +kernel⟩,
   ⟨(ak 15 0 [] [(F.svcStatus_STATE, 1), (F.svcStatus_HOST_PRESENT,
       1)] fun s => {s with hif := {s.hif with rung := [], waiting := [(R 15, ⟨15, 0x70, 31+256⟩)]}}), 15, (R 15, ⟨15, 0x70, 31+256⟩),
       canonical_of (by decide +kernel), by unfold RingReady; decide +kernel⟩⟩

theorem test_meets_ServiceRequests_2 :
    (∃ (s : State) (m : Fin 16) (r : Rung) (v : Fin 4),
      let b := s.payload m.val
      s.Canonical ∧ Asked m.val 0x71 r s ∧ b = [BitVec.ofNat 8 (2 ^ v.val)] ∧ s.svcState v.val ≠ 3 ∧ s.svc.back = 0) ∧
    (∃ (s : State) (m : Fin 16) (r : Rung) (v : Fin 4),
      let b := s.payload m.val
      s.Canonical ∧ Asked m.val 0x71 r s ∧ b = [BitVec.ofNat 8 (2 ^ v.val)] ∧ s.svcState v.val = 3 ∧ s.svcConfig v.val = [] ∧
          s.svc.back = 0) ∧
    (∃ (s : State) (v : Fin 4),
      s.Canonical ∧ s.svc.back = 2 ^ v.val ∧ s.svcState v.val = 3) ∧
    (∃ (s : State),
      s.Canonical ∧ s.cellar.booted = true ∧ s.prm P.hostTimeoutMs ≠ 0 ∧ s.rd F.pwrStatus_STATE < 2 ∧ s.rd F.svcStatus_HOST_PRESENT = 1 ∧
          s.resumeMask = 0) :=
  ⟨⟨(ak 4 0x71 [8]), 4, (R 4), 3, canonical_of (by decide +kernel), by unfold Asked RingReady; decide +kernel⟩,
   ⟨(ak 4 0x71 [8] [(F.svcStatus_STATE, 3 * 512)]), 4, (R 4), 3, canonical_of (by decide +kernel),
       by unfold Asked RingReady; decide +kernel⟩,
   ⟨(ak 4 0x71 [8] [(F.svcStatus_STATE,
       3 * 512)] fun s => {s with svc := {s.svc with back := 8}, hif := {s.hif with rung := [], waiting := [(R 15, ⟨15, 0x71, 0⟩), (R 14, ⟨14, 0x71, 0⟩)]}}), 3, canonical_of (by decide +kernel), by decide +kernel⟩,
   ⟨(ak 15 0 [] [(F.svcStatus_HOST_PRESENT, 1)] fun s => {s with hif := {s.hif with rung := [], waiting := [(R 15, ⟨15, 0x70, 31+256⟩)]}}),
       canonical_of (by decide +kernel), by decide +kernel⟩⟩

end Requests

/-! ### States that meet the hypotheses: the host interface -/

namespace HostSide

def b1 (l : List (Fld × Nat)) (f : State → State := id) : State := f (st ([(F.vatStatus_STATE, 2)] ++ l))
def d64 : List Byte := (List.range 64).map fun i => BitVec.ofNat 8 (i*3+1)
def xs : Fld × Nat := (F.pinStraps_XSPI_TGT_EN, 1)
def en (c : Bool) : RingEntry := { mbx := 15, completion := c, tagData := 7, status := 0, opcode := 0x8004, stamp := 99, data2 := 5, notifyNow := false }

theorem test_meets_RegisterWrites :
    (∃ (s : State) (who : Initiator) (m : Fin 16) (e : Fin 2) (o : BitVec 12) (data : List Byte),
      let budget := BitVec.ofNat 24 (0x80000C + e.val * 0x100)
      s.Canonical ∧ reaches who .irs = false ∧ o.toNat + data.length ≤ 0x1000 ∧ s.rd (F.mbxStatus_STATE m.val) ≠ 1 ∧
          s.irsTrimmed budget.toNat = false ∧ s.selfTesting = false ∧ s.heldRes 0x80 e.val = false ∧
          s.irsTrimmed (0x800000 + e.val * 0x100) = false) ∧
    (∃ (s : State) (who : Initiator) (m : Fin 16) (e : Fin 2) (p : Fin 8) (off : BitVec 24) (v : BitVec 32) (x : Bool) (j : Fin 17),
      let word := natLE 4 v.toNat
      let budget := BitVec.ofNat 24 (0x80000C + e.val * 0x100)
      let object : BitVec 18 := off.setWidth 18
      let writes : List (Instr × Nat) := [(.irsRegWrite who budget word, budget.toNat), (.harpGateWrite who object x (v.setWidth 64),
          0x500000 + object.toNat), (.harpObjPublish who 4095 v, harpOff false 4095 7), (.harpAffPublish who 1023, harpOff true 1023 3),
          (.pipeCommit who p 5 7, pipeOff p.val), (.xpGainWrite who 127 127 1, 0xA1FFFC), (.stGainWrite who e 1, 0xA003C4 + e.val * 8),
          (.playGo who p v, 0xA0040C + p.val * 0x40), (.playStop who p v, 0xA0040C + p.val * 0x40), (.pressStart who e 1 none,
          0x800004 + e.val * 0x100), (.pressStart who e 1 (some v), 0x800004 + e.val * 0x100), (.dmaStart who 63 1 none, 0x900FC4),
          (.dmaStart who 0 0 (some v), 0x900004), (.intcEnSet who m v, IntcReg.off .enSet m.val), (.intcEnClr who m v,
          IntcReg.off .enClr m.val), (.intcPendSet who m v, IntcReg.off .pendSet m.val), (.intcPendClr who m v, IntcReg.off .pendClr m.val)]
      let write := writes.getD j.val (.pmeTurnOff, 0)
      s.Canonical ∧ reaches who .irs = true ∧ s.shutOut who write.2 = true ∧ (∀ y, who ≠ .bar y ∨ 0x1000 ≤ write.2)) ∧
    (∃ (s : State) (m : Fin 16) (o : BitVec 12) (data : List Byte),
      s.Canonical ∧ data ≠ [] ∧ o.toNat + data.length ≤ 0x1000 ∧ s.rd (F.mbxStatus_STATE m.val) = 1) ∧
    (∃ (s : State) (off : BitVec 24) (data : List Byte),
      s.Canonical ∧ isArea off.toNat = false ∧ 0x1000 ≤ off.toNat ∧ ((data.length ≠ 4 ∧ data.length ≠ 8) ∨ off.toNat % data.length ≠ 0) ∧
          off.toNat % 4 = 0 ∧ findReg off.toNat = none) :=
  ⟨⟨(b1 []), (.press 1), 15, 1, 0xFFD, [1,2,3], canonical_of (by decide +kernel), by decide +kernel⟩,
   ⟨(b1 [(F.stStatus_STATE, 1)]), (.bar true), 15, 1, 7, 0x20004, 2147483649, false, 0, canonical_of (by decide +kernel),
       by decide +kernel⟩,
   ⟨(b1 [(F.mbxStatus_STATE 15, 1)]), 15, 0xFFD, [1,2,3], canonical_of (by decide +kernel), by decide +kernel⟩,
   ⟨(b1 [(F.pressBudget_ENTRIES 0, 9)]), 0x1014, [1,2,3,4,5], canonical_of (by decide +kernel), by decide +kernel⟩⟩

theorem test_meets_DataPort_1 :
    (∃ (s : State) (x : Bool) (data : List Byte) (len : BitVec 10) (n : Nat) (late : Option Nat),
      let a := s.rd F.dpAddr_ADDR
      let unit := s.dpUnit
      let w : State := { s with casc := { s.casc with blocked := false, ask := none } }
      let put := busWrite (.dataPort x) a data w
      let got (y : Bool) := busRead (.dataPort y) a unit w
      let port := x = false ∨ s.rd F.pinStraps_XSPI_TGT_EN = 1
      let calm (u : State) : Prop := u.casc.blocked = false ∧ u.rd F.dpAddr_ADDR = a ∧ u.rd F.dpCtl_INC = s.rd F.dpCtl_INC
      s.Canonical ∧ port ∧ a % unit = 0 ∧ data.length = unit ∧ isDpSelf a = false ∧ late ≠ some 0 ∧ calm put.2 ∧ put.1 = false ∧
          calm (got false).2.2 ∧ (got false).2.1 = false ∧ calm (got true).2.2 ∧ (got true).2.1 = false ∧ s.hif.prefetchLen = unit ∧
          s.selfTesting = false ∧ 4 ≤ len.toNat ∧ len.toNat ≤ 512 ∧ len.toNat % unit = 0 ∧ s.rd F.pinStraps_XSPI_TGT_EN = 1 ∧
          s.rd F.dpStatus_READY = 0 ∧ 0 < n) ∧
    (∃ (s : State) (x : Bool) (data : List Byte) (late : Option Nat),
      let a := s.rd F.dpAddr_ADDR
      let unit := s.dpUnit
      let w : State := { s with casc := { s.casc with blocked := false, ask := none } }
      let put := busWrite (.dataPort x) a data w
      let got (y : Bool) := busRead (.dataPort y) a unit w
      let port := x = false ∨ s.rd F.pinStraps_XSPI_TGT_EN = 1
      let calm (u : State) : Prop := u.casc.blocked = false ∧ u.rd F.dpAddr_ADDR = a ∧ u.rd F.dpCtl_INC = s.rd F.dpCtl_INC
      s.Canonical ∧ port ∧ a % unit = 0 ∧ data.length = unit ∧ isDpSelf a = false ∧ late ≠ some 0 ∧ calm put.2 ∧ put.1 = true ∧
          calm (got false).2.2 ∧ (got false).2.1 = true) ∧
    (∃ (s : State) (x : Bool) (data : List Byte),
      let a := s.rd F.dpAddr_ADDR
      let unit := s.dpUnit
      let port := x = false ∨ s.rd F.pinStraps_XSPI_TGT_EN = 1
      s.Canonical ∧ port ∧ a % unit = 0 ∧ data.length = unit ∧ isDpSelf a = true) ∧
    (∃ (s : State) (x : Bool) (data : List Byte) (n : Nat),
      let a := s.rd F.dpAddr_ADDR
      let unit := s.dpUnit
      let port := x = false ∨ s.rd F.pinStraps_XSPI_TGT_EN = 1
      s.Canonical ∧ port ∧ 0 < data.length ∧ data.length ≤ 512 ∧ (data.length % unit ≠ 0 ∨ a % unit ≠ 0) ∧ 0 < n ∧ n ≤ 512 ∧
          (n % unit ≠ 0 ∨ a % unit ≠ 0)) :=
  ⟨⟨(b1 [xs, (F.dpAddr_ADDR, vatBase + 0x1000), (F.dpCtl_INC, 0)] fun s => {s with hif := {s.hif with prefetchLen := 4}}), false,
      (d64.take 4), 8, 4, none, canonical_of (by decide +kernel), by decide +kernel⟩,
   ⟨(b1 [xs, (F.dpAddr_ADDR, 0x9000000000), (F.dpCtl_INC, 0)] fun s => {s with hif := {s.hif with prefetchLen := 4}}), false, (d64.take 4),
       none, canonical_of (by decide +kernel), by decide +kernel⟩,
   ⟨(b1 [xs, (F.dpAddr_ADDR, irsBase), (F.dpCtl_INC, 0)] fun s => {s with hif := {s.hif with prefetchLen := 4}}), false, (d64.take 4),
       canonical_of (by decide +kernel), by decide +kernel⟩,
   ⟨(b1 [xs, (F.dpAddr_ADDR, vatBase+0x1001), (F.dpCtl_INC, 0)] fun s => {s with hif := {s.hif with prefetchLen := 4}}), false,
       (d64.take 4), 4, canonical_of (by decide +kernel), by decide +kernel⟩⟩

theorem test_meets_DataPort_2 :
    (∃ (s : State),
      s.Canonical ∧ s.hif.prefetchLen = 0 ∧ s.rd F.pinStraps_XSPI_TGT_EN = 0) ∧
    (∃ (s : State) (n : Nat),
      s.Canonical ∧ s.rd F.pinStraps_XSPI_TGT_EN = 1 ∧ s.rd F.dpStatus_READY = 1 ∧ 0 < n) :=
  ⟨⟨(b1 [(F.dpAddr_ADDR, 8)]), canonical_of (by decide +kernel), by decide +kernel⟩,
   ⟨(b1 [xs, (F.dpAddr_ADDR, 8), (F.dpStatus_READY, 1)] fun s => {s with hif := {s.hif with prefetch := d64}}), 5,
       canonical_of (by decide +kernel), by decide +kernel⟩⟩

theorem test_meets_HostLink_1 :
    (∃ (s : State) (m : Fin 16) (o : BitVec 12) (n : Nat) (data : List Byte),
      let on := s.rd F.pinStraps_XSPI_TGT_EN = 1
      s.Canonical ∧ on ∧ 0 < n ∧ n ≤ 512 ∧ o.toNat + n ≤ 0x1000 ∧ 0 < data.length ∧ data.length ≤ 512 ∧ o.toNat + data.length ≤ 0x1000 ∧
          s.rd (F.mbxStatus_STATE m.val) ≠ 1 ∧ s.hif.held = []) ∧
    (∃ (s : State) (addr : BitVec 32) (off : Nat) (n : Nat) (data : List Byte),
      let casc := { s.casc with blocked := false, ask := none }
      let w : State := { s with casc := casc }
      let got := irsRead (.bar true) off n w
      let put := irsWrite (.bar true) off data w
      let on := s.rd F.pinStraps_XSPI_TGT_EN = 1
      s.Canonical ∧ on ∧ xspiTarget addr.toNat n = .reg off ∧ got.2.2.casc.blocked = false ∧ xspiTarget addr.toNat data.length = .reg off ∧
          put.2.casc.blocked = false) ∧
    (∃ (s : State) (addr : BitVec 32) (n : Nat) (data : List Byte),
      let on := s.rd F.pinStraps_XSPI_TGT_EN = 1
      s.Canonical ∧ on ∧ xspiTarget addr.toNat n = .bad ∧ xspiTarget addr.toNat data.length = .bad) ∧
    (∃ (s : State),
      s.Canonical ∧ s.rd F.pinStraps_XSPI_TGT_EN = 0) :=
  ⟨⟨(b1 [xs]), 15, 0xFF0, 16, (d64.take 16), canonical_of (by decide +kernel), by decide +kernel⟩,
   ⟨(b1 [xs]), 0x80000C, (0x80000C % 0x1000000), 4, (d64.take 4), canonical_of (by decide +kernel), by decide +kernel⟩,
   ⟨(b1 [xs]), 0x80000C, 8, (d64.take 8), canonical_of (by decide +kernel), by decide +kernel⟩,
   ⟨(b1 []), canonical_of (by decide +kernel), by decide +kernel⟩⟩

theorem test_meets_HostLink_2 : ∃ (s : State) (m : Fin 16) (e : RingEntry),
      s.Canonical ∧ s.hif.held = [e] ∧ e.mbx = m.val ∧ s.hif.ringPend = [] ∧ s.asleep = false ∧ s.unconsumed m.val < 256 ∧
          s.prm (P.ringLoc m.val) ≠ 0 ∧ s.hif.pcieUp = true :=
  ⟨((b1 [xs, (F.mbxStatus_TAIL 15, 511), (F.mbxHeadDb_HEAD 15,
      256)] fun s => {s with hif := {s.hif with held := [en true], pcieUp := true}}).setPrm (P.ringLoc 15) 1 |>.setPrm (P.ringBase 15) 0x123456780), 15, (en true), canonical_of (by decide +kernel), by decide +kernel⟩

end HostSide

/-! ### States that meet the hypotheses: the Cellar and the services -/

namespace Cellar

def setC (f : CellarState → CellarState) (s : State) : State := { s with cellar := f s.cellar }
def b1 (l : List (Fld × Nat)) (f : State → State := id) : State := f (st l)
def boot1 (l : List (Fld × Nat)) (f : CellarState → CellarState) : State := setC (fun c => f {c with romDue := true, pwrGood := true}) (st l)
def le (q sev : Nat) : LogEntry := ⟨1, 2, 3, q, sev, false, 5, 6⟩
def e0 : LogEntry := le 9 2
def rr : List Int := [-640, 2000, 2640, 2639, 16, 100, 4000, 2700, 0, 0, 0, 5]
def sg2 : List Byte := [1,1] ++ natLE 2 3 ++ natLE 4 0x1ABCDEF0 ++ natLE 4 5 ++ [4, 2] ++ natLE 2 100
def ttb (chime fail : Byte) : List Byte := [7,0,1,0,0,chime,fail,0,0,0] ++ natLE 2 1 ++ natLE 2 1 ++ [0,0] ++ natLE 8 (vatBase + 0x20000) ++
    natLE 8 (vatBase + 0x30000) ++ natLE 8 (vatBase + 0x40000)
def ch (a : Nat) : List Byte := natLE 5 a ++ [0, 2, 3] ++ natLE 4 96 ++ [5, 0] ++ natLE 2 0x1000
def pk (sig tt chs : List Byte) (s : State) : State :=
  let s := flashWrite (pkgBase 0 + 0x11) [3] s
  let s := flashWrite (pkgBase 0 + 0x20) (natLE 5 0 ++ [0,0] ++ [3] ++ natLE 4 0 ++ natLE 4 tt.length) s
  let s := flashWrite (pkgBase 0 + 0x30) (natLE 5 0 ++ [0,0] ++ [2] ++ natLE 4 0x1000 ++ natLE 4 sig.length) s
  let s := flashWrite (pkgBase 0 + 0x40) (natLE 5 0 ++ [0,0] ++ [4] ++ natLE 4 0x2000 ++ natLE 4 chs.length) s
  let s := flashWrite (pkgBase 0 + 512) tt s
  let s := flashWrite (pkgBase 0 + 512 + 0x1000) sig s
  let s := flashWrite (pkgBase 0 + 512 + 0x2000) chs s
  { s with svc := { s.svc with telltales := [⟨true, false, false, true, 0⟩], signals := List.replicate 128 0 }, cellar := {s.cellar with booted := true} }
def sv (l : List (Fld × Nat)) (f : State → State := id) : State :=
  f (pk sg2 (ttb 0xFF 2) (ch 0x123 ++ ch 0x4567) (st ([(F.svcStatus_PKG_VALID, 1), (F.pinCfg_MUX 3, 7), (F.canStatus_STATE 1, 1),
      (F.vatStatus_STATE, 2), (F.safeBase_ADDR 7 1, vatBase + 0x20000),(F.safeStride_BYTES 7 1, 64)] ++ l)))
def onT (f : TtRun → TtRun) (s : State) : State := onTt 0 f s
def g0 (s : State) : Signal := (s.signals.getD 0 ⟨0,false,0,0,0,0,0⟩)
def t0 (s : State) : Telltale := (s.telltales.getD 0 ⟨0,false,0,0,0,0,0,0,0,0,0,0,0,0⟩)
def h0 (nx : Option (Nat × Nat)) (k : Nat) : ChimeRun := ⟨4 + k, 0, 3, 5, nx⟩
def vw (l : List (Fld × Nat)) (f : State → State := id) : State := f { setC (fun c => {c with booted := true}) (st l) with svc := { (st l).svc with bootDue := true, held := [(1,2,3)], chimes := [h0 none 0] } }

theorem test_meets_CellarEvents_1 :
    (∃ (s : State),
      s.Canonical ∧ s.cellar.romDue = true ∧ s.cellar.pwrGood = true ∧ s.fault.tripHold = false ∧ s.rd F.pwrStatus_STATE < 2 ∧
          s.cellar.fuses.lifecycle ≠ 5) ∧
    (∃ (s : State) (readings : List Int) (v : Fin 24) (e : LogEntry),
      let starts := s.cellar.romDue = true ∧ s.cellar.pwrGood = true ∧ s.fault.tripHold = false ∧ s.rd F.pwrStatus_STATE < 2
      let flushes := 128 ≤ s.cellar.unflushed ∨ (s.unflushedLog.any fun e => 2 ≤ e.severity) = true
      let views := s.cellar.booted = true ∧ s.svc.bootDue = true ∧ s.rd F.pwrStatus_STATE < 2 ∧ s.rd F.stStatus_STATE = 0 ∧
          s.rd F.cellarStatus_LIFECYCLE ≠ 5
      s.Canonical ∧ ¬ starts ∧ readings.length = 12 ∧ v.val < s.cellar.volt.length ∧ ¬ flushes ∧ ¬ views) ∧
    (∃ (s : State),
      s.Canonical ∧ s.cellar.romDue = true ∧ s.cellar.pwrGood = true ∧ s.fault.tripHold = false ∧ s.rd F.pwrStatus_STATE < 2 ∧
          s.cellar.fuses.lifecycle = 5) ∧
    (∃ (s : State) (e : LogEntry),
      let flushes := 128 ≤ s.cellar.unflushed ∨ (s.unflushedLog.any fun e => 2 ≤ e.severity) = true
      s.Canonical ∧ s.unflushedLog.getLast? = some e ∧ flushes) :=
  ⟨⟨(boot1 [] id), canonical_of (by decide +kernel), by decide +kernel⟩,
   ⟨(st [(F.pwrStatus_STATE, 2)]), rr, 0, e0, canonical_of (by decide +kernel), by decide +kernel⟩,
   ⟨(boot1 [(F.cellarStatus_ROM_RECOVERY, 1)] fun c => {c with fuses := {c.fuses with lifecycle := 5}}), canonical_of (by decide +kernel),
       by decide +kernel⟩,
   ⟨(b1 [] (setC fun c => {c with log := [le 7 0, le 8 3, le 9 0], unflushed := 2})), (le 9 0), canonical_of (by decide +kernel),
       by decide +kernel⟩⟩

theorem test_meets_CellarEvents_2 :
    (∃ (s : State),
      s.Canonical ∧ s.cellar.booted = true ∧ s.svc.bootDue = true ∧ s.rd F.pwrStatus_STATE < 2 ∧ s.rd F.stStatus_STATE = 0 ∧
          s.rd F.cellarStatus_LIFECYCLE ≠ 5 ∧ s.rd F.fltSummary_ESSENTIAL = 0) ∧
    (∃ (s : State),
      s.Canonical ∧ s.cellar.booted = true ∧ s.svc.bootDue = true ∧ s.rd F.pwrStatus_STATE < 2 ∧ s.rd F.stStatus_STATE = 0 ∧
          s.rd F.cellarStatus_LIFECYCLE ≠ 5 ∧ s.rd F.fltSummary_ESSENTIAL = 1) :=
  ⟨⟨(b1 [(F.cellarTemp_LEVEL 2, 1), (F.cellarTemp_LEVEL 6, 2), (F.cellarTemp_LEVEL 0,
      2)] (setC fun c => {c with booted := true, hot := [1,2,1,1,0,0,2,1,1,0,0,0]})), canonical_of (by decide +kernel), by decide +kernel⟩,
   ⟨(vw [(F.fltSummary_ESSENTIAL, 1)]), canonical_of (by decide +kernel), by decide +kernel⟩⟩

theorem test_meets_ServiceEvents_1 :
    (∃ (s : State) (n : Fin 2) (e : Fin 128) (p : Fin 8) (g : Signal),
      let state := s.rd (F.canStatus_STATE n.val)
      let active := state = 1 ∨ state = 2
      let wired := s.canWired n.val = true
      let unit := unitId 8 n.val
      s.Canonical ∧ active ∧ wired ∧ s.signals[e.val]? = some g ∧ s.mapRuns = true ∧
          (fieldAt (s.pkgBytes 2 fun _ => true) (e.val * 16 + 14) 2 ≠ 0) ∧ s.signalState e.val ≠ 3 ∧ e.val < s.svc.signals.length ∧
          Fresh unit s ∧ (s.svcState 1 ≠ 2 ∨ s.pipeOn p.val = false ∨ s.svc.quiet.contains p.val = true)) ∧
    (∃ (s : State) (n : Fin 2),
      let state := s.rd (F.canStatus_STATE n.val)
      let active := state = 1 ∨ state = 2
      let wired := s.canWired n.val = true
      s.Canonical ∧ (¬ (active ∧ wired)) ∧ ¬ active) ∧
    (∃ (s : State) (n : Fin 2),
      let state := s.rd (F.canStatus_STATE n.val)
      s.Canonical ∧ state = 3) ∧
    (∃ (s : State) (p : Fin 8) (i : Fin 64) (tt : Telltale),
      let run := s.ttRun i.val
      s.Canonical ∧ s.svcState 1 = 2 ∧ s.pipeOn p.val = true ∧ s.telltales[i.val]? = some tt ∧ tt.pipe = p.val ∧ run.active = true ∧
          run.due = true ∧ i.val < s.svc.telltales.length ∧ s.svc.quiet.contains p.val = false) :=
  ⟨⟨(sv []), 1, 0, 7, (g0 (sv [])), canonical_of (by decide +kernel), by unfold Fresh; decide +kernel⟩,
   ⟨(sv [(F.canStatus_STATE 1, 0)]), 1, canonical_of (by decide +kernel), by decide +kernel⟩,
   ⟨(sv [(F.canStatus_STATE 1, 3), (F.canStatus_TEC 1, 3)]), 1, canonical_of (by decide +kernel), by decide +kernel⟩,
   ⟨(sv [(F.svcStatus_STATE, 16), (F.pipeStatus_STATE 7, 3)]), 7, 0, (t0 (sv [(F.svcStatus_STATE, 16), (F.pipeStatus_STATE 7, 3)])),
       canonical_of (by decide +kernel), by decide +kernel⟩⟩

theorem test_meets_ServiceEvents_2 :
    (∃ (s : State) (i : Fin 64) (tt : Telltale),
      let run := s.ttRun i.val
      s.Canonical ∧ s.telltales[i.val]? = some tt ∧ (s.svcState 1 = 2 ∨ s.svcState 1 = 3) ∧ run.active = true ∧ s.ttBlinks tt = true ∧
          s.halfOver i.val tt = true ∧ i.val < s.svc.telltales.length) ∧
    (∃ (s : State) (i : Fin 64),
      let run := s.ttRun i.val
      s.Canonical ∧ run.bulb = true ∧ i.val < s.svc.telltales.length) ∧
    (∃ (s : State) (k : Fin 4) (h : ChimeRun) (c : Chime) (next : Nat) (start : Nat),
      let m := 4 + k.val
      s.Canonical ∧ ((s.svc.chimes.find? fun h => h.player == m) = some h) ∧ h.next = some (next, start) ∧ s.chimeEntries[next]? = some c ∧
          s.rd (F.xpGain_CURRENT h.out (120 + m)) ≠ 0) ∧
    (∃ (s : State) (k : Fin 4) (h : ChimeRun) (c : Chime) (next : Nat) (start : Nat),
      let m := 4 + k.val
      s.Canonical ∧ ((s.svc.chimes.find? fun h => h.player == m) = some h) ∧ h.next = some (next, start) ∧ s.chimeEntries[next]? = some c ∧
          s.rd (F.xpGain_CURRENT h.out (120 + m)) = 0) :=
  ⟨⟨(sv [(F.svcStatus_STATE, 16), (F.pipeStatus_STATE 7, 3), (F.pipeFrames_COUNT 7,
      2)] fun s => {s with svc := {s.svc with signals := s.svc.signals.set 0 2}}), 0, (t0 (sv [])), canonical_of (by decide +kernel),
      by decide +kernel⟩,
   ⟨(sv [(F.svcStatus_STATE,
       16)] fun s => onT (fun r => {r with half := true, bulb := true}) {s with svc := {s.svc with signals := s.svc.signals.set 0 3}}), 0,
       canonical_of (by decide +kernel), by decide +kernel⟩,
   ⟨(sv [(F.xpGain_CURRENT 5 127, 5), (F.playStatus_STATE 7, 0)] fun s => {s with svc := {s.svc with chimes := [h0 (some (1, 77)) 3]}}), 3,
       (h0 (some (1,77)) 3), ⟨0x4567, 2, 3, 96, 5, 0, 0x1000⟩, 1, 77, canonical_of (by decide +kernel), by decide +kernel⟩,
   ⟨(sv [(F.xpGain_CURRENT 5 127, 0), (F.playStatus_STATE 7, 0)] fun s => {s with svc := {s.svc with chimes := [h0 (some (1, 77)) 3]}}), 3,
       (h0 (some (1,77)) 3), ⟨0x4567, 2, 3, 96, 5, 0, 0x1000⟩, 1, 77, canonical_of (by decide +kernel), by decide +kernel⟩⟩

end Cellar

/-! ### States that meet the hypotheses: the cascade -/

namespace Cascade

def ch (pos n1 dev up : Nat) (l : Nat) (ls : List (Fld × Nat)) (f : CascLink → CascLink := id) (g : State → State := id) : State :=
  let s := st ([(F.vatStatus_STATE, 2), (F.refStatus_STATE, 2), (F.cascStatus_ROLE, if pos = 0 then 1 else 2), (F.cascStatus_POS_VALID, 1),
      (F.cascStatus_POSITION, pos), (F.cascStatus_DEVICES, dev), (F.cascStatus_UPSTREAM, up),
    (F.cascLStatus_STATE l, 2), (F.cascLCtl_EN l, 1), (F.cascLStatus_LANES_ACTIVE l, 4), (F.cascStatus_CHAIN_READY, 1),
        (F.cascLStatus_PARTNER_POS l, 1)] ++ ls)
  g { s with casc := { s.casc with n1 := n1, links := s.casc.links.modify l fun k => f { k with pools := [64, 368, 64, 16], farC0 := 64, width := 4 } } }
def hd (dst src seq : Nat) (nak : Bool := false) (c0 : Bool := false) (chn : Nat := 0) : FlitHead := ⟨3, Fin.ofNat 4 dst, Fin.ofNat 4 src,
    c0, Fin.ofNat 4 chn, Fin.ofNat 4096 seq, 7, nak, 2, 9, true⟩
def fl (b : FlitBody) (seq : Nat := 0) (c0 : Bool := false) : Flit := { dst := 1, src := 0, class0 := c0, channel := 1, seq := seq, body := b }
def lnf (c0 : Bool) : Flit := fl (.line 3 0 false false 0 [1#8]) 0 c0
def msgf : Flit := fl (.msg (.ack 3 false)) 9
def audf : Flit := fl (.audio 3 []) 9
def cha : Chain := ⟨2, 1, 4, 1⟩
def tm (last : Option (Nat × Nat)) (pend : Option (TimingSetting × Nat)) : Timing := ⟨stampOf 3 4 5 * 256 + 7, 9, ⟨3000, 0x1130, 190, 2, 25,
    6⟩, pend, last⟩
def L (l : Nat) : Fin 2 := Fin.ofNat 2 l
def d112 : List Byte := (List.range 112).map fun i => BitVec.ofNat 8 (i + 1)
def fd (l : List (Fld × Nat)) (dat : List Byte) (line : Nat) : State := ch 0 2 4 1 1 ([(F.cascFeedCtl_EN 6, 1), (F.cascFeedCtl_STREAM 6,
    15), (F.cascFeedCtl_FORMAT 6, 1), (F.streamCtl_EN 15, 1), (F.streamSize_W 15, 64), (F.streamSize_H 15, 4)] ++
    l) id fun s => { s with casc := { s.casc with feeds := s.casc.feeds.set 6 { feed0 with data := dat, line := line } } }
def stp : TimeStep := { own := stampOf 3 4 0, epoch := 5, setting := ⟨3000, 0x1130, 190, 2, 25, 6⟩, master := stampOf 65535 2999 4000, delay := 300 }
def tun (ans : Option (Bool × List Byte)) : Tunnel := { id := 7, pos := 1, off := 64, len := 4, data := none, answer := ans }

theorem test_meets_CascadeLinks_1 :
    (∃ (s : State) (l : Fin 2) (pass : BitVec 4),
      let state := s.rd (F.cascLStatus_STATE l.val)
      let width := s.linkWidth l.val ((s.linkLanes l.val).filter fun j => pass.getLsbD j).length
      s.Canonical ∧ l.val < s.casc.links.length ∧ s.linkPowered l.val = true ∧ (state = 1 ∨ state = 3) ∧ 0 < width ∧
          (state = 1 ∨ state = 2)) ∧
    (∃ (s : State) (l : Fin 2) (pass : BitVec 4) (chain : Chain),
      let k := s.link l.val
      let state := s.rd (F.cascLStatus_STATE l.val)
      let width := s.linkWidth l.val ((s.linkLanes l.val).filter fun j => pass.getLsbD j).length
      let trains := s.linkPowered l.val = true ∧ (state = 1 ∨ state = 3) ∧ 0 < width
      let retrains := state = 2 ∨ k.retraining = true
      s.Canonical ∧ l.val < s.casc.links.length ∧ ¬ trains ∧ state ≠ 1 ∧ state ≠ 2 ∧ ¬ retrains ∧ s.standalone = false ∧
          chainFits s.isSlave (some chain) = true ∧ s.isSlave = true) ∧
    (∃ (s : State) (l : Fin 2) (h : FlitHead),
      let k := s.link l.val
      let state := s.rd (F.cascLStatus_STATE l.val)
      let unit (j : Nat) := unitId 5 (4 * l.val + j)
      let retrains := state = 2 ∨ k.retraining = true
      s.Canonical ∧ l.val < s.casc.links.length ∧ state = 2 ∧ (∀ j, j < 4 → Fresh (unit j) s) ∧ retrains ∧ s.casc.intrOut = [] ∧
          k.timingDue = false ∧ k.resend = [] ∧ (256 ≤ k.replay.length ∨ ((∀ g ∈ k.c0 ++ k.audio, k.hasCredit g = false) ∧
          k.bestQueue = none)) ∧ h.crcOk = true ∧ h.typ.val < 6 ∧ h.nak = false) ∧
    (∃ (s : State) (l : Fin 2),
      s.Canonical ∧ l.val < s.casc.links.length ∧ s.standalone = true) :=
  ⟨⟨(ch 1 2 4 0 1 [(F.cascLStatus_STATE 1, 1), (F.cascLCtl_LANES_MAX 1, 2)]), (L 1), 15, canonical_of (by decide +kernel),
      by decide +kernel⟩,
   ⟨(ch 1 2 4 0 1 [(F.cascLStatus_STATE 1, 0), (F.cascLCtl_LANES_MAX 1, 2)]), (L 1), 15, cha, canonical_of (by decide +kernel),
       by decide +kernel⟩,
   ⟨(ch 1 2 4 0 1 [(F.cascLStatus_STATE 1, 2), (F.cascLCtl_LANES_MAX 1, 2)]), (L 1), (hd 0 1 0), canonical_of (by decide +kernel),
       by unfold Fresh; decide +kernel⟩,
   ⟨(st []), (L 1), canonical_of (by decide +kernel), by decide +kernel⟩⟩

theorem test_meets_CascadeLinks_2 :
    (∃ (s : State) (l : Fin 2) (conflict : BitVec 2),
      let state := s.rd (F.cascLStatus_STATE l.val)
      s.Canonical ∧ l.val < s.casc.links.length ∧ s.standalone = false ∧ conflict.getLsbD l.val = true ∧ state = 2) ∧
    (∃ (s : State) (l : Fin 2) (found : Option Chain),
      s.Canonical ∧ l.val < s.casc.links.length ∧ s.standalone = false ∧ chainFits s.isSlave found = false) ∧
    (∃ (s : State) (l : Fin 2),
      let k := s.link l.val
      let state := s.rd (F.cascLStatus_STATE l.val)
      s.Canonical ∧ l.val < s.casc.links.length ∧ state = 2 ∧ s.casc.intrOut = [] ∧ k.timingDue = true) ∧
    (∃ (s : State) (l : Fin 2) (f : Flit) (rest : List Flit),
      let k := s.link l.val
      let state := s.rd (F.cascLStatus_STATE l.val)
      s.Canonical ∧ l.val < s.casc.links.length ∧ state = 2 ∧ s.casc.intrOut = [] ∧ k.timingDue = false ∧ k.resend = f :: rest) :=
  ⟨⟨(ch 1 2 4 0 1 []), (L 1), 2, canonical_of (by decide +kernel), by decide +kernel⟩,
   ⟨(ch 1 2 4 0 1 []), (L 1), (some {cha with pos := 0}), canonical_of (by decide +kernel), by decide +kernel⟩,
   ⟨(ch 1 2 4 0 1 [] fun k => {k with timingDue := true, c0 := [lnf true]}), (L 1), canonical_of (by decide +kernel), by decide +kernel⟩,
   ⟨(ch 1 2 4 0 1 [] fun k => {k with c0 := [lnf true], resend := [msgf, audf], credits := [1,1,1,1]}), (L 1), msgf, [audf],
       canonical_of (by decide +kernel), by decide +kernel⟩⟩

theorem test_meets_CascadeLinks_3 :
    (∃ (s : State) (l : Fin 2) (f : Flit) (rest : List Flit),
      let k := s.link l.val
      let state := s.rd (F.cascLStatus_STATE l.val)
      s.Canonical ∧ l.val < s.casc.links.length ∧ state = 2 ∧ s.casc.intrOut = [] ∧ k.timingDue = false ∧ k.resend = [] ∧
          k.replay.length < 256 ∧ k.c0 = f :: rest ∧ (∀ g ∈ k.c0, k.hasCredit g = true)) ∧
    (∃ (s : State) (l : Fin 2) (f : Flit) (rest : List Flit),
      let k := s.link l.val
      let state := s.rd (F.cascLStatus_STATE l.val)
      s.Canonical ∧ l.val < s.casc.links.length ∧ state = 2 ∧ s.casc.intrOut = [] ∧ k.timingDue = false ∧ k.resend = [] ∧
          k.replay.length < 256 ∧ (∀ g ∈ k.c0, k.hasCredit g = false) ∧ k.audio = f :: rest ∧ (∀ g ∈ k.audio, k.hasCredit g = true)) ∧
    (∃ (s : State) (l : Fin 2) (f : Flit) (q : Fin 5),
      let k := s.link l.val
      let state := s.rd (F.cascLStatus_STATE l.val)
      s.Canonical ∧ l.val < s.casc.links.length ∧ state = 2 ∧ s.casc.intrOut = [] ∧ k.timingDue = false ∧ k.resend = [] ∧
          k.replay.length < 256 ∧ (∀ g ∈ k.c0 ++ k.audio, k.hasCredit g = false) ∧ q.val < k.best.length ∧ k.bestQueue = some (q.val, f)) ∧
    (∃ (s : State) (l : Fin 2) (src : Fin 512),
      let k := s.link l.val
      let state := s.rd (F.cascLStatus_STATE l.val)
      s.Canonical ∧ l.val < s.casc.links.length ∧ state = 2 ∧ s.casc.intrOut = [src.val] ∧ s.routeTo s.irqPos = some l.val ∧
          k.timingDue = true) :=
  ⟨⟨(ch 1 2 4 0 1 [] fun k => {k with c0 := [lnf true, lnf true], txSeq := 4095, audio := [audf], credits := [1,1,1,1]}), (L 1), (lnf true),
      [lnf true], canonical_of (by decide +kernel), by decide +kernel⟩,
   ⟨(ch 1 2 4 0 1 [] fun k => {k with c0 := [lnf true], audio := [audf], credits := [0,1,1,1]}), (L 1), audf, [],
       canonical_of (by decide +kernel), by decide +kernel⟩,
   ⟨(ch 1 2 4 0 1 [] fun k => {k with c0 := [lnf true], audio := [audf], best := [[lnf false],[],[],[],[msgf]], turn := 1, credits := [0,1,1,0]}), (L 1), msgf, 4, canonical_of (by decide +kernel), by decide +kernel⟩,
   ⟨(ch 1 2 4 1 1 [] (fun k => {k with timingDue := true}) fun s => {s with casc := {s.casc with intrOut := [5]}}), (L 1), 5,
       canonical_of (by decide +kernel), by decide +kernel⟩⟩

theorem test_meets_CascadeLinks_4 :
    (∃ (s : State) (l : Fin 2) (h : FlitHead),
      let state := s.rd (F.cascLStatus_STATE l.val)
      s.Canonical ∧ l.val < s.casc.links.length ∧ state = 2 ∧ h.crcOk = true ∧ h.typ.val < 6 ∧ h.nak = true) ∧
    (∃ (s : State) (l : Fin 2) (h : FlitHead),
      let state := s.rd (F.cascLStatus_STATE l.val)
      let good := h.crcOk = true ∧ h.typ.val < 6
      s.Canonical ∧ l.val < s.casc.links.length ∧ state = 2 ∧ ¬ good) :=
  ⟨⟨(ch 1 2 4 0 1 [] fun k => {k with replay := [fl .idle 6, fl .idle 7, fl .idle 8], naks := [5]}), (L 1),
      { hd 0 1 0 true with crcOk := true }, canonical_of (by decide +kernel), by decide +kernel⟩,
   ⟨(ch 1 2 4 0 1 [] fun k => {k with replay := [fl .idle 6, fl .idle 7, fl .idle 8], naks := [5]}), (L 1),
       { hd 0 1 0 true with crcOk := false }, canonical_of (by decide +kernel), by decide +kernel⟩⟩

theorem test_meets_CascadeFlits_1 :
    (∃ (s : State) (l : Fin 2) (j : Fin 2) (h : FlitHead) (src : Fin 512) (off : BitVec 32) (len : Fin 65) (host : List Byte) (data : List Byte) (a : Nat),
      let k := s.link l.val
      let inOrder := h.seq.val = (k.rxSeq + 1) % 4096
      let room (pool : Nat) := k.owed.getD pool 0 < k.pools.getD pool 0
      let here := h.dst.val = s.myPos
      let after (pool : Nat) (s : State) : State := onLink l.val (fun k => { k with rxSeq := h.seq.val, discarding := false, owed := k.owed.modify pool (· + 1) }) (controlWord l.val h s)
      let w := after 2 { s with hif := { s.hif with hostIn := host } }
      let got := busRead (.peer h.src) a len.val w
      let put := busWrite (.peer h.src) a data w
      let feed := l.val * 4 + h.channel.val
      let linePool := if h.class0 then 0 else 1
      s.Canonical ∧ s.rd (F.cascLStatus_STATE l.val) = 2 ∧ h.crcOk = true ∧ h.typ.val < 6 ∧ l.val < s.casc.links.length ∧ inOrder ∧ room 2 ∧
          here ∧ windowAddr off.toNat = some a ∧ s.selfTesting = false ∧ got.2.2.routeTo h.src.val = some j.val ∧ data ≠ [] ∧
          put.2.routeTo h.src.val = some j.val ∧ s.casc.fifo.length < 32 ∧ s.isPending src.val = false ∧ s.isRaw src.val = false ∧ room 3 ∧
          s.rd (F.cascLAud_EN l.val) = 0 ∧ room linePool ∧ s.rd (F.cascFeedCtl_EN feed) = 0) ∧
    (∃ (s : State) (l : Fin 2) (j : Fin 2) (h : FlitHead) (off : BitVec 32),
      let k := s.link l.val
      let inOrder := h.seq.val = (k.rxSeq + 1) % 4096
      let room (pool : Nat) := k.owed.getD pool 0 < k.pools.getD pool 0
      let here := h.dst.val = s.myPos
      s.Canonical ∧ s.rd (F.cascLStatus_STATE l.val) = 2 ∧ h.crcOk = true ∧ h.typ.val < 6 ∧ l.val < s.casc.links.length ∧ inOrder ∧ room 2 ∧
          here ∧ (windowAddr off.toNat = none ∨ s.selfTesting = true) ∧ s.routeTo h.src.val = some j.val) ∧
    (∃ (s : State) (l : Fin 2) (h : FlitHead),
      let k := s.link l.val
      let inOrder := h.seq.val = (k.rxSeq + 1) % 4096
      let room (pool : Nat) := k.owed.getD pool 0 < k.pools.getD pool 0
      let here := h.dst.val = s.myPos
      s.Canonical ∧ s.rd (F.cascLStatus_STATE l.val) = 2 ∧ h.crcOk = true ∧ h.typ.val < 6 ∧ l.val < s.casc.links.length ∧ inOrder ∧ room 2 ∧
          ¬ here ∧ s.routeTo h.dst.val = none) ∧
    (∃ (s : State) (l : Fin 2) (j : Fin 2) (h : FlitHead),
      let k := s.link l.val
      let inOrder := h.seq.val = (k.rxSeq + 1) % 4096
      let room (pool : Nat) := k.owed.getD pool 0 < k.pools.getD pool 0
      let here := h.dst.val = s.myPos
      s.Canonical ∧ s.rd (F.cascLStatus_STATE l.val) = 2 ∧ h.crcOk = true ∧ h.typ.val < 6 ∧ l.val < s.casc.links.length ∧ inOrder ∧ room 2 ∧
          ¬ here ∧ s.routeTo h.dst.val = some j.val ∧ s.linkUp j.val = false) :=
  ⟨⟨(ch 0 2 4 1 1 []), (L 1), (L 1), (hd 0 1 0), 500, 0, 4, [], [1,2,3,4], (vatBase), canonical_of (by decide +kernel), by decide +kernel⟩,
   ⟨(ch 0 2 4 1 1 []), (L 1), (L 1), (hd 0 2 0), 0x31000000, canonical_of (by decide +kernel), by decide +kernel⟩,
   ⟨(ch 1 2 4 1 1 [(F.cascStatus_POS_VALID, 0), (F.cascTime_STATE, 3), (F.beamNow_FRAME, 3), (F.beamNow_LINE, 4)]), (L 1), (hd 0 1 0),
       canonical_of (by decide +kernel), by decide +kernel⟩,
   ⟨(ch 1 2 4 1 1 []), (L 1), (L 0), (hd 2 0 0), canonical_of (by decide +kernel), by decide +kernel⟩⟩

theorem test_meets_CascadeFlits_2 :
    (∃ (s : State) (l : Fin 2) (j : Fin 2) (h : FlitHead),
      let k := s.link l.val
      let inOrder := h.seq.val = (k.rxSeq + 1) % 4096
      let room (pool : Nat) := k.owed.getD pool 0 < k.pools.getD pool 0
      let here := h.dst.val = s.myPos
      s.Canonical ∧ s.rd (F.cascLStatus_STATE l.val) = 2 ∧ h.crcOk = true ∧ h.typ.val < 6 ∧ l.val < s.casc.links.length ∧ inOrder ∧ room 2 ∧
          ¬ here ∧ s.routeTo h.dst.val = some j.val ∧ s.linkUp j.val = true) ∧
    (∃ (s : State) (l : Fin 2) (h : FlitHead),
      let k := s.link l.val
      let inOrder := h.seq.val = (k.rxSeq + 1) % 4096
      let room (pool : Nat) := k.owed.getD pool 0 < k.pools.getD pool 0
      let here := h.dst.val = s.myPos
      s.Canonical ∧ s.rd (F.cascLStatus_STATE l.val) = 2 ∧ h.crcOk = true ∧ h.typ.val < 6 ∧ l.val < s.casc.links.length ∧ inOrder ∧ room 2 ∧
          here ∧ 32 ≤ s.casc.fifo.length) ∧
    (∃ (s : State) (l : Fin 2) (h : FlitHead),
      let k := s.link l.val
      let inOrder := h.seq.val = (k.rxSeq + 1) % 4096
      let room (pool : Nat) := k.owed.getD pool 0 < k.pools.getD pool 0
      let here := h.dst.val = s.myPos
      let r := s.aud.links.getD l.val ⟨[], false, []⟩
      s.Canonical ∧ s.rd (F.cascLStatus_STATE l.val) = 2 ∧ h.crcOk = true ∧ h.typ.val < 6 ∧ l.val < s.casc.links.length ∧ inOrder ∧ room 3 ∧
          here ∧ s.rd (F.cascLAud_EN l.val) = 1 ∧ r.fifo.length ≤ 6 ∧ l.val < s.aud.links.length) ∧
    (∃ (s : State) (l : Fin 2) (h : FlitHead),
      let k := s.link l.val
      let inOrder := h.seq.val = (k.rxSeq + 1) % 4096
      let room (pool : Nat) := k.owed.getD pool 0 < k.pools.getD pool 0
      let here := h.dst.val = s.myPos
      let r := s.aud.links.getD l.val ⟨[], false, []⟩
      s.Canonical ∧ s.rd (F.cascLStatus_STATE l.val) = 2 ∧ h.crcOk = true ∧ h.typ.val < 6 ∧ l.val < s.casc.links.length ∧ inOrder ∧ room 3 ∧
          here ∧ s.rd (F.cascLAud_EN l.val) = 1 ∧ r.fifo.length = 8 ∧
          s.rd (F.cascLAud_SLIPS l.val) + 2 < 2 ^ (F.cascLAud_SLIPS l.val).width) :=
  ⟨⟨(ch 1 2 4 1 0 [] id), (L 0), (L 0), (hd 2 0 0 true), canonical_of (by decide +kernel), by decide +kernel⟩,
   ⟨(ch 0 2 4 1 1 [] id fun s => {s with casc := {s.casc with fifo := List.replicate 32 (1,1)}}), (L 1), (hd 0 1 0),
       canonical_of (by decide +kernel), by decide +kernel⟩,
   ⟨(ch 0 2 4 1 1 [(F.cascLAud_EN 1,
       1)] id fun s => {s with aud := {s.aud with links := s.aud.links.set 1 ⟨List.replicate 0 [1,2], false, []⟩}}), (L 1), (hd 0 1 0),
       canonical_of (by decide +kernel), by decide +kernel⟩,
   ⟨(ch 0 2 4 1 1 [(F.cascLAud_EN 1,
       1)] id fun s => {s with aud := {s.aud with links := s.aud.links.set 1 ⟨List.replicate 8 [1,2], false, []⟩}}), (L 1), (hd 0 1 0),
       canonical_of (by decide +kernel), by decide +kernel⟩⟩

theorem test_meets_CascadeFlits_3 :
    (∃ (s : State) (l : Fin 2) (h : FlitHead) (data : List Byte) (format : Fin 4),
      let k := s.link l.val
      let inOrder := h.seq.val = (k.rxSeq + 1) % 4096
      let room (pool : Nat) := k.owed.getD pool 0 < k.pools.getD pool 0
      let feed := l.val * 4 + h.channel.val
      let linePool := if h.class0 then 0 else 1
      s.Canonical ∧ s.rd (F.cascLStatus_STATE l.val) = 2 ∧ h.crcOk = true ∧ h.typ.val < 6 ∧ l.val < s.casc.links.length ∧ inOrder ∧
          room linePool ∧ s.rd (F.cascFeedCtl_EN feed) = 1 ∧ feed < s.casc.feeds.length ∧ data.length = 112 ∧ 112 < s.feedBytes feed ∧
          s.rd (F.cascFeedCtl_FORMAT feed) = format.val ∧ s.rd (F.cascFeedStatus_STATE feed) ≠ 2) ∧
    (∃ (s : State) (l : Fin 2) (h : FlitHead) (data : List Byte) (n : BitVec 14),
      let k := s.link l.val
      let inOrder := h.seq.val = (k.rxSeq + 1) % 4096
      let room (pool : Nat) := k.owed.getD pool 0 < k.pools.getD pool 0
      let feed := l.val * 4 + h.channel.val
      let linePool := if h.class0 then 0 else 1
      s.Canonical ∧ s.rd (F.cascLStatus_STATE l.val) = 2 ∧ h.crcOk = true ∧ h.typ.val < 6 ∧ l.val < s.casc.links.length ∧ inOrder ∧
          room linePool ∧ s.rd (F.cascFeedCtl_EN feed) = 1 ∧ s.rd (F.cascFeedStatus_STATE feed) = 2 ∧ feed < s.casc.feeds.length ∧
          n.toNat = (s.feed feed).line ∧ data.length ≤ 112 ∧
          (data.length < 112 ∨ s.feedBytes feed = (s.feed feed).data.length + data.length)) ∧
    (∃ (s : State) (l : Fin 2) (h : FlitHead),
      let k := s.link l.val
      let inOrder := h.seq.val = (k.rxSeq + 1) % 4096
      let room (pool : Nat) := k.owed.getD pool 0 < k.pools.getD pool 0
      s.Canonical ∧ s.rd (F.cascLStatus_STATE l.val) = 2 ∧ h.crcOk = true ∧ h.typ.val < 6 ∧ l.val < s.casc.links.length ∧ inOrder ∧
          ¬ room 3 ∧ k.discarding = false ∧ h.nak = false) ∧
    (∃ (s : State) (l : Fin 2) (h : FlitHead),
      let k := s.link l.val
      let inOrder := h.seq.val = (k.rxSeq + 1) % 4096
      s.Canonical ∧ s.rd (F.cascLStatus_STATE l.val) = 2 ∧ h.crcOk = true ∧ h.typ.val < 6 ∧ l.val < s.casc.links.length ∧
          (k.rxSeq + 4096 - h.seq.val) % 4096 ≥ 2048 ∧ ¬ inOrder ∧ k.discarding = false ∧ h.nak = false) :=
  ⟨⟨(fd [] [] 0), (L 1), (hd 0 1 0 false true 2), d112, 1, canonical_of (by decide +kernel), by decide +kernel⟩,
   ⟨(fd [(F.cascFeedStatus_STATE 6, 2), (F.streamStatus_STATE 15, 2)] (d112 ++ d112) 3), (L 1), (hd 0 1 0 false true 2), (d112.take 32), 3,
       canonical_of (by decide +kernel), by decide +kernel⟩,
   ⟨(ch 0 2 4 1 1 [] (fun k => {k with owed := [0,0,64,16]})), (L 1), (hd 0 1 0), canonical_of (by decide +kernel), by decide +kernel⟩,
   ⟨(fd [] [] 3), (L 1), (hd 0 1 5 false true 2), canonical_of (by decide +kernel), by decide +kernel⟩⟩

theorem test_meets_CascadeFlits_4 :
    (∃ (s : State) (l : Fin 2) (h : FlitHead) (timing : Timing),
      let set := timingReference timing.setting
      let follows := s.rd F.cascStatus_POS_VALID = 1 ∨ s.keepsTime = true
      s.Canonical ∧ s.rd (F.cascLStatus_STATE l.val) = 2 ∧ h.crcOk = true ∧ h.typ.val < 6 ∧ l.val < s.casc.links.length ∧ s.isSlave = true ∧
          follows ∧ s.rd F.cascStatus_UPSTREAM = l.val ∧ set.lines < 2 ^ F.refGeom_LINES.width ∧ set.dots < 2 ^ F.refGeom_DOTS.width ∧
          set.synN < 2 ^ F.refSynInt_N.width ∧ set.synNum < 2 ^ F.refSynNum_NUM.width ∧ 0 < set.synDen ∧
          set.synDen < 2 ^ F.refSynDen_DEN.width ∧ set.synP ∈ [4, 6, 8, 12]) ∧
    (∃ (s : State) (l : Fin 2) (h : FlitHead) (t3 : Nat) (t4 : Nat) (timing : Timing),
      let follows := s.rd F.cascStatus_POS_VALID = 1 ∨ s.keepsTime = true
      s.Canonical ∧ s.rd (F.cascLStatus_STATE l.val) = 2 ∧ h.crcOk = true ∧ h.typ.val < 6 ∧ l.val < s.casc.links.length ∧ s.isSlave = true ∧
          follows ∧ s.rd F.cascStatus_UPSTREAM = l.val ∧ timing.last = some (t4, t3)) :=
  ⟨⟨(ch 1 2 4 1 1 [] id), (L 1), (hd 0 2 0 true), (tm none none), canonical_of (by decide +kernel), by decide +kernel⟩,
   ⟨(ch 1 2 4 1 1 [(F.beamNow_FRAME, 3), (F.beamNow_LINE, 4)]), (L 1), (hd 0 1 0), (stampOf 3 3 1*256), (stampOf 3 3 9 * 256 + 4),
       (tm (some (stampOf 3 3 9 * 256 + 4, stampOf 3 3 1*256)) (some (⟨2000, 1000, 3, 4, 5, 8⟩, 77))), canonical_of (by decide +kernel),
       by decide +kernel⟩⟩

theorem test_meets_CascadeTime_1 :
    (∃ (s : State) (step : TimeStep) (id : Nat) (who : Initiator),
      let state := s.rd F.cascTime_STATE
      let lost := s.isSlave = true ∧ (state = 1 ∨ state = 2) ∧ 8 ≤ (s.link (s.rd F.cascStatus_UPSTREAM)).silent
      s.Canonical ∧ s.casc.step = some step ∧ s.rd F.beamNow_DOT = 0 ∧ s.beamRuns = true ∧ ¬ lost ∧
          ((s.casc.tunnels.find? fun t => t.id == id && t.answer.isNone) = none) ∧ reaches who .irs = true) ∧
    (∃ (s : State),
      let steps := s.casc.step.isSome = true ∧ s.rd F.beamNow_DOT = 0 ∧ s.beamRuns = true
      s.Canonical ∧ ¬ steps) ∧
    (∃ (s : State),
      let state := s.rd F.cascTime_STATE
      s.Canonical ∧ s.isSlave = true ∧ (state = 1 ∨ state = 2) ∧ 8 ≤ (s.link (s.rd F.cascStatus_UPSTREAM)).silent) ∧
    (∃ (s : State) (id : Nat) (tun : Tunnel),
      s.Canonical ∧ ((s.casc.tunnels.find? fun t => t.id == id && t.answer.isNone) = some tun)) :=
  ⟨⟨(ch 1 2 4 1 1 [(F.beamNow_FRAME, 3), (F.beamNow_LINE, 9), (F.beamNow_DOT, 0), (F.lockCtl_EN 3,
      1)] id fun s => {s with casc := {s.casc with step := some stp}}), stp, 7, .cellar, canonical_of (by decide +kernel),
      by decide +kernel⟩,
   ⟨(ch 1 2 4 1 1 [(F.beamNow_FRAME, 3), (F.beamNow_LINE, 9), (F.beamNow_DOT, 1), (F.lockCtl_EN 3,
       1)] id fun s => {s with casc := {s.casc with step := some stp}}), canonical_of (by decide +kernel), by decide +kernel⟩,
   ⟨(ch 1 2 4 1 1 [(F.cascTime_STATE, 2)] fun k => {k with silent := 8}), canonical_of (by decide +kernel), by decide +kernel⟩,
   ⟨(ch 1 2 4 1 1 [(F.cascTime_STATE,
       1)] id fun s => {s with casc := {s.casc with tunnels := [{tun (some (true,[])) with id := 3}, tun none]}}), 7, (tun none),
       canonical_of (by decide +kernel), by decide +kernel⟩⟩

theorem test_meets_CascadeTime_2 : ∃ (s : State) (who : Initiator),
      s.Canonical ∧ reaches who .irs = false :=
  ⟨(showPeerFifo (ch 1 2 4 1 1 [(F.cascTime_STATE, 1)] id fun s => {s with casc := {s.casc with fifo := [(3,1),(4,2)]}})), (.press 1),
      canonical_of (by decide +kernel), by decide +kernel⟩

end Cascade

/-! ### States that meet the hypotheses: power, resets, faults and pins -/

namespace System

def setC (f : CellarState → CellarState) (s : State) : State := { s with cellar := f s.cellar }
def setH (f : HifState → HifState) (s : State) : State := { s with hif := f s.hif }
def setFl (f : FaultState → FaultState) (s : State) : State := { s with fault := f s.fault }
def dirty (seed : Nat) : State := st [(F.pressBudget_ENTRIES 0, seed), (F.pinCfg_MUX 3, 2), (F.seqWdt_LINES 1, 7)]
def dr (seed st_ : Nat) (l : List (Fld × Nat) := []) (f : State → State := id) : State :=
  let s := ([(F.pwrStatus_STATE, st_), (F.pwrStatus_TRANSIT, 0), (F.pwrTrimmed_UNIT, 0), (F.stStatus_STATE, 0), (F.svcStatus_STATE, 0),
      (F.vatStatus_STATE, 2)] ++ l).foldl (fun s f => s.wr f.1 f.2) (dirty seed)
  f { s with mem := [(0x6000050000, 3#8)], vat := { s.vat with data := [(5, 7#8)] } }
def P0 (st_ : Nat) (l : List (Fld × Nat)) (f : State → State := id) : State := f (st ([(F.pwrStatus_STATE, st_), (F.vatStatus_STATE, 2)] ++
    l))
def un (id : Nat) (at_ : List Nat) (re : Bool) (s : State) : State := setFltUnit { (s.fltUnit id) with attempts := at_, retrying := re } s

theorem test_meets_PowerEvents_1 :
    (∃ (s : State),
      let held := s.fault.tripHold
      s.Canonical ∧ held = true) ∧
    (∃ (s : State),
      let state := s.rd F.pwrStatus_STATE
      let held := s.fault.tripHold
      s.Canonical ∧ held = false ∧ (state = 3 ∨ state = 4)) ∧
    (∃ (s : State),
      let state := s.rd F.pwrStatus_STATE
      let held := s.fault.tripHold
      s.Canonical ∧ held = false ∧ state < 3 ∧ s.rd F.stStatus_STATE = 1) ∧
    (∃ (s : State) (i : Nat),
      let state := s.rd F.pwrStatus_STATE
      let held := s.fault.tripHold
      s.Canonical ∧ held = false ∧ state < 3 ∧ s.rd F.stStatus_STATE ≠ 1 ∧ (s.rd F.pwrStatus_TRANSIT = 0 ∨ state < 2 ∨ (state = 4 ∧
          s.cellar.pwrGood = false) ∨ held = true) ∧ (held = true ∨ (∀ i, i < 12 → s.cellar.hot.getD i 0 < 2))) :=
  ⟨⟨(P0 3 [] (setFl fun f => {f with tripHold := true})), canonical_of (by decide +kernel), by decide +kernel⟩,
   ⟨(P0 3 [(F.stStatus_STATE, 0)]), canonical_of (by decide +kernel), by decide +kernel⟩,
   ⟨(P0 0 [(F.stStatus_STATE, 1)]), canonical_of (by decide +kernel), by decide +kernel⟩,
   ⟨(P0 0 [(F.stStatus_STATE, 0)]), 0, canonical_of (by decide +kernel), by decide +kernel⟩⟩

theorem test_meets_PowerEvents_2 :
    (∃ (s : State),
      let state := s.rd F.pwrStatus_STATE
      let held := s.fault.tripHold
      s.Canonical ∧ s.rd F.pwrStatus_TRANSIT = 1 ∧ (state = 2 ∨ state = 3 ∨ (state = 4 ∧ s.cellar.pwrGood = true)) ∧ held = false) ∧
    (∃ (s : State) (i : Nat),
      let held := s.fault.tripHold
      s.Canonical ∧ held = false ∧ (((List.range 12).find? fun i => 2 ≤ s.cellar.hot.getD i 0) = some i)) :=
  ⟨⟨(P0 2 [(F.pwrStatus_TRANSIT, 1), (F.pwrStatus_LP5X_SR, 1), (F.beamNow_LINE,
      9)] fun s => setC (fun c => {c with pwrGood := true, booted := true}) (setH (fun h => {h with hostDue := true}) {s with vat := {s.vat with data := [(5,7#8)]}})), canonical_of (by decide +kernel), by decide +kernel⟩,
   ⟨(dr 5 0 [] (setC fun c => {c with hot := [1,1,1,2,2]})), 3, canonical_of (by decide +kernel), by decide +kernel⟩⟩

theorem test_meets_Resets :
    (∃ (s : State) (down : Bool) (cause : Fin 4),
      let state := s.rd F.pwrStatus_STATE
      let held := s.fault.tripHold
      s.Canonical ∧ (held = false ∨ s.tooHot = false) ∧ state < 2 ∧ held = false ∧ (down = true → s.hif.pcieUp = true) ∧
          s.cellar.warmDue = true ∧ s.cellar.wdtDue = some cause.val ∧ state < 4) ∧
    (∃ (s : State),
      let held := s.fault.tripHold
      s.Canonical ∧ held = true ∧ s.tooHot = true) ∧
    (∃ (s : State) (down : Bool),
      let state := s.rd F.pwrStatus_STATE
      let held := s.fault.tripHold
      s.Canonical ∧ (state = 2 ∨ state = 3) ∧ held = false ∧ (down = false ∨ s.rd F.svcStatus_HOST_PRESENT = 0) ∧ (held = true ∨ 2 ≤ state) ∧
          (s.cellar.warmDue = false ∨ held = true ∨ 2 ≤ state)) ∧
    (∃ (s : State) (down : Bool),
      let state := s.rd F.pwrStatus_STATE
      let held := s.fault.tripHold
      s.Canonical ∧ (held = true ∨ 4 ≤ state ∨ (state < 2 ∧ down = true ∧ s.hif.pcieUp = false)) ∧
          (s.cellar.wdtDue = none ∨ held = true ∨ 4 ≤ state)) :=
  ⟨⟨(dr 1 0 [] fun s => setC (fun c => {c with warmDue := true, wdtDue := some 1, booted := true}) (setH (fun h => {h with pcieUp := true, turnOff := true}) s)), false, 1, canonical_of (by decide +kernel), by decide +kernel⟩,
   ⟨(dr 3 0 [(F.cellarTemp_TEMP 11, 2320)] (setFl fun f => {f with tripHold := true, record := [3]})), canonical_of (by decide +kernel),
       by decide +kernel⟩,
   ⟨(dr 1 2 [] fun s => setC (fun c => {c with warmDue := true, wdtDue := some 1, booted := true}) (setH (fun h => {h with pcieUp := true, turnOff := true}) s)), false, canonical_of (by decide +kernel), by decide +kernel⟩,
   ⟨(dr 1 4 [] fun s => setC (fun c => {c with warmDue := true, wdtDue := some 1, booted := true}) (setH (fun h => {h with pcieUp := true, turnOff := true}) s)), false, canonical_of (by decide +kernel), by decide +kernel⟩⟩

theorem test_meets_FaultEvents_1 :
    (∃ (s : State) (id : BitVec 16) (c : Fin 16),
      let unit := id.toNat
      let u := s.fltUnit unit
      let recent := (u.attempts.filter (s.within 1000000)).length
      let known := allUnits.contains unit = true
      s.Canonical ∧ known ∧ u.retrying = true ∧ recent < 3 ∧ s.unitState unit ≠ 1 ∧ Fresh (unitId 3 c.val) s ∧ s.rd F.pwrStatus_LP5X_SR = 0 ∧
          bitAt s.lp.out c.val = false ∧ (s.rd F.stStatus_STATE = 0 ∨ s.fault.tripHold = true) ∧ s.rd F.fltMap_PENDING = 0 ∧
          s.mayTest = true ∧ s.rd F.pwrStatus_STATE = 0 ∧ s.stopped = false ∧ s.fault.tripHold = false ∧ s.fault.testSession = false) ∧
    (∃ (s : State) (id : BitVec 16),
      let unit := id.toNat
      let u := s.fltUnit unit
      let recent := (u.attempts.filter (s.within 1000000)).length
      let known := allUnits.contains unit = true
      s.Canonical ∧ known ∧ u.retrying = true ∧ 3 ≤ recent ∧ s.unitState unit ≠ 2) ∧
    (∃ (s : State) (id : BitVec 16),
      let unit := id.toNat
      let u := s.fltUnit unit
      let known := allUnits.contains unit = true
      s.Canonical ∧ u.retrying = false ∧ known ∧ s.unitState unit = 1 ∧ u.upsets.any (s.within 60000000) = false ∧
          s.rd F.fltMap_PENDING = 1 ∧ (s.fault.map ++ s.fault.mapNew).length ≤ 4094) ∧
    (∃ (s : State),
      s.Canonical ∧ s.rd F.stStatus_STATE ≠ 0 ∧ s.fault.tripHold = false ∧
          (s.mayTest = false ∨ s.rd F.pwrStatus_STATE ≠ 0 ∨ s.stopped = true ∨ s.fault.tripHold = true)) :=
  ⟨⟨(P0 0 [(F.fltU_STATE 0 0, 0), (F.portCtl_EN 7, 1), (F.csiCtl_EN 3, 1), (F.tdmCtl_EN 7, 1)] (un 0 [] true)), 0, 15,
      canonical_of (by decide +kernel), by unfold Fresh; decide +kernel⟩,
   ⟨(P0 0 [(F.fltU_STATE 0 0, 0), (F.portCtl_EN 7, 1), (F.csiCtl_EN 3, 1), (F.tdmCtl_EN 7, 1)] (un 0 [0,0,0] true)), 0,
       canonical_of (by decide +kernel), by decide +kernel⟩,
   ⟨(P0 0 [(F.fltU_STATE 0 0, 1), (F.fltMap_PENDING, 1)]), 0, canonical_of (by decide +kernel), by decide +kernel⟩,
   ⟨(P0 0 [(F.stStatus_STATE, 1), (F.stStatus_ITEM, 3), (F.stStatus_REMAIN_MS,
       9)] (setFl fun f => {f with testFromP4 := true, map := [⟨0x1002, 0, 0xFF, 1⟩, ⟨0x1003, 0, 0, 0⟩]})),
       canonical_of (by decide +kernel), by decide +kernel⟩⟩

theorem test_meets_FaultEvents_2 : ∃ (s : State),
      s.Canonical ∧ s.fault.testSession = true :=
  ⟨(P0 0 [] fun s => setC (fun c => {c with fuses := {c.fuses with lifecycle := 0}}) (setFl (fun f => {f with testSession := true}) s)),
      canonical_of (by decide +kernel), by decide +kernel⟩

theorem test_meets_Pins :
    (∃ (s : State) (i : Fin 112) (who : Initiator),
      let reach := reaches who .irs = true
      let allowed := mayWrite false none false (initiatorTag who) = true
      let window := s.pins.window.contains i.val
      s.Canonical ∧ window = false ∧ reach ∧ allowed) ∧
    (∃ (s : State) (i : Fin 112),
      let window := s.pins.window.contains i.val
      s.Canonical ∧ window = true ∧ s.pinFilt i.val = 2) ∧
    (∃ (s : State) (who : Initiator),
      let reach := reaches who .irs = true
      let allowed := mayWrite false none false (initiatorTag who) = true
      s.Canonical ∧ reach ∧ ¬ allowed) ∧
    (∃ (s : State) (who : Initiator),
      let reach := reaches who .irs = true
      s.Canonical ∧ ¬ reach) :=
  ⟨⟨(P0 0 [(F.pinCfg_IRQ 111, 0), (F.pinFilt_N 111, 3), (F.pinCfg_FILT 111, 0), (F.pinCfg_INV_IN 111, 1), (F.pinState_FILTERED 111, 0),
      (F.pinState_SWITCHING 111, 0), (F.pinFlagHi_PIN, 1)] fun s => {s with pins := {s.pins with window := []}}), 111, (.dma 3 .cellar),
      canonical_of (by decide +kernel), by decide +kernel⟩,
   ⟨(P0 0 [(F.pinCfg_IRQ 111, 0), (F.pinFilt_N 111, 3), (F.pinCfg_FILT 111, 2), (F.pinCfg_INV_IN 111, 1), (F.pinState_FILTERED 111, 0),
       (F.pinState_SWITCHING 111, 0), (F.pinFlagHi_PIN, 1)] fun s => {s with pins := {s.pins with window := [5, 111]}}), 111,
       canonical_of (by decide +kernel), by decide +kernel⟩,
   ⟨(P0 0 [(F.pinCfg_IRQ 111, 0), (F.pinFilt_N 111, 3), (F.pinCfg_FILT 111, 0), (F.pinCfg_INV_IN 111, 0), (F.pinState_FILTERED 111, 0),
       (F.pinState_SWITCHING 111, 0), (F.pinFlagHi_PIN, 140737488355328)] fun s => {s with pins := {s.pins with window := []}}),
       (.bar true), canonical_of (by decide +kernel), by decide +kernel⟩,
   ⟨(P0 0 [(F.pinCfg_IRQ 111, 0), (F.pinFilt_N 111, 3), (F.pinCfg_FILT 111, 2), (F.pinCfg_INV_IN 111, 0), (F.pinState_FILTERED 111, 0),
       (F.pinState_SWITCHING 111, 0), (F.pinFlagHi_PIN, 140737488355328)] fun s => {s with pins := {s.pins with window := []}}), (.press 1),
       canonical_of (by decide +kernel), by decide +kernel⟩⟩

end System

end Sys2Proof.Tests
end

namespace Sys2Proof.Machine

-- One declaration after another: the memory limit of the check counts the stack of every thread that elaborates beside them.
set_option Elab.async false

/-! ### The state after reset -/

/-- A store with no entry reads every key as the value of an unlisted one. -/
@[simp] theorem get_nil {β : Type} (k : Nat) (d : β) : Sparse.get k d [] = d := rfl

/-- The only field that differs from its reset value is the synthesiser's lock state (R47). -/
theorem reset_cells : State.reset.cells = [(F.refStatus_STATE.key, 1)] := rfl

theorem reset_rd_other {f : Fld} (h : f.key ≠ F.refStatus_STATE.key) : State.reset.rd f = f.reset % 2 ^ f.width := by
  simp [State.rd, reset_cells, Sparse.get, h]

theorem reset_core {k : Nat} (h : k < 13) : State.reset.core k = core0 k := by
  simp [State.core, State.reset, h]

end Sys2Proof.Machine

section
open Sys2Proof Sys2Proof.Machine
set_option Elab.async false

/-- Settles O3: the reset state lists one register field, and nothing in any other store. -/
theorem resetState : Obligations.ResetState :=
  ⟨fun _ h => reset_rd_other h, rfl, fun _ => ⟨rfl, rfl⟩, fun _ => rfl, fun _ h => reset_core h, fun _ => rfl, rfl⟩

/-- Settles O4: every store is empty but that of the registers, which lists one key. -/
theorem resetCanonical : Obligations.ResetCanonical := State.reset_canonical
end

namespace Sys2Proof.Machine

-- One declaration after another: the memory limit of the check counts the stack of every thread that elaborates beside them.
set_option Elab.async false

/-! ### Keeping the canonical form

What each command of the opcode table does is a composition of named operations, each of which keeps the canonical form
(`Sys2Proof/Laws/Canonical*.lean`). The lemmas here put those laws together along the branches of a command's meaning. -/

/-- Where the outcome is a next state, that state is canonical. -/
def Keeps (o : Out) : Prop := ∀ t, o = .next t → t.Canonical

theorem keeps_next {t : State} (h : t.Canonical) : Keeps (.next t) := by
  intro u e
  cases e
  exact h

theorem ite_canonical {c : Prop} [Decidable c] {a b : State} (ha : a.Canonical) (hb : b.Canonical) : (if c then a else b).Canonical := by
  split
  · exact ha
  · exact hb

theorem ite_snd_canonical {α : Type} {c : Prop} [Decidable c] {a b : α × State} (ha : a.2.Canonical) (hb : b.2.Canonical) :
    (if c then a else b).2.Canonical := by
  split
  · exact ha
  · exact hb

/-- A command that acts under a guard and changes nothing where the guard fails. -/
theorem keeps_guarded {c : Prop} [Decidable c] {s t : State} (h : s.Canonical) (ht : t.Canonical) : Keeps (.next (if c then t else s)) :=
  keeps_next (ite_canonical ht h)

/-- A command that changes nothing where its guard holds. -/
theorem keeps_unless {c : Prop} [Decidable c] {s t : State} (h : s.Canonical) (ht : t.Canonical) : Keeps (.next (if c then s else t)) :=
  keeps_next (ite_canonical h ht)

/-- A change of anything but the sparse stores. -/
theorem rest_canonical {s t : State} (h : s.Canonical) (h1 : t.cells = s.cells := by rfl) (h2 : t.latched = s.latched := by rfl)
    (h3 : t.snap = s.snap := by rfl) (h4 : t.params = s.params := by rfl) (h5 : t.mem = s.mem := by rfl)
    (h6 : t.vat.data = s.vat.data := by rfl) (h7 : t.cellar.flash = s.cellar.flash := by rfl) : t.Canonical :=
  (moves_rest (K := fun _ => true) (moves_refl h) h1 h2 h3 h4 h5 h6 h7).1

theorem onCellar_canonical {f : CellarState → CellarState} {s : State} (h : s.Canonical)
    (hf : (f s.cellar).flash = s.cellar.flash := by rfl) : (onCellar f s).Canonical :=
  rest_canonical h (h7 := hf)

/-- A WARM reset noted as due. -/
theorem warmDue_canonical {s : State} (h : s.Canonical) : (onCellar (fun c => { c with warmDue := true }) s).Canonical :=
  onCellar_canonical h

theorem execIrsRegWrite_keeps {who : Initiator} {off : BitVec 24} {data : List Byte} {s : State} (h : s.Canonical) :
    Keeps (execIrsRegWrite who off data s) := by
  refine keeps_next (onIrs_canonical (fun u hu => ?_) h)
  cases who with
  | bar x => exact ite_canonical (portWrite_canonical hu) (ite_canonical (irsWrite_canonical hu) (droppedWrite_canonical hu))
  | _ => exact irsWrite_canonical hu

theorem execRefFrameStart_keeps {mw : List Nat} {s : State} (h : s.Canonical) : Keeps (execRefFrameStart mw s) := by
  refine keeps_unless h (lineTick_canonical (timerSource_canonical (refreshCounts_canonical (countSyncs_canonical
    (State.forN_canonical (frameFlags_canonical (applySetting_canonical ?_)) fun _ _ => State.wr_canonical)))))
  exact State.clr_canonical (State.clr_canonical (State.wr_canonical (ite_canonical (State.inc_canonical h) h)))

theorem execBeamNowRead_keeps {who : Initiator} {part : ReadPart} {dot : Nat} {s : State} (h : s.Canonical) :
    Keeps (execBeamNowRead who part dot s) := by
  refine keeps_next ?_
  split
  · exact readIrs_canonical (fun _ => readWide_canonical) (State.atDot_canonical h)
  · exact h

theorem execVatCeWriteback_keeps {k : Fin 64} {s : State} (h : s.Canonical) : Keeps (execVatCeWriteback k s) := by
  refine keeps_next ?_
  split
  · exact h
  · exact rest_canonical h

theorem execVatBankTransitionDone_keeps {k : Fin 64} {s : State} (h : s.Canonical) : Keeps (execVatBankTransitionDone k s) := by
  refine keeps_next ?_
  split
  · exact h
  · dsimp only
    split
    · exact bankArrive_canonical h
    · exact bankCommand_canonical (rest_canonical (bankArrive_canonical h))

theorem execScrubLine_keeps {k : Fin 64} {row : Fin 65536} {err : VatErr} {s : State} (h : s.Canonical) :
    Keeps (execScrubLine k row err s) := by
  exact keeps_guarded h (ite_canonical (addressParity_canonical h) (State.forN_canonical h fun _ _ => readWord_canonical))

theorem execVatBankScrubDone_keeps {k : Fin 64} {s : State} (h : s.Canonical) : Keeps (execVatBankScrubDone k s) := by
  refine keeps_unless h (ite_canonical (setUnitState_canonical ?_) ?_)
  · exact endAttempt_canonical (rest_canonical h)
  · exact endAttempt_canonical (rest_canonical h)

theorem execBgtRegionOpen_keeps {s : State} (h : s.Canonical) : Keeps (execBgtRegionOpen s) := by
  exact keeps_guarded h (rest_canonical (State.wr_canonical (bgtSkipOff_canonical h)))

theorem execBgtRegionClose_keeps {fails : List BgtBit} {s : State} (h : s.Canonical) : Keeps (execBgtRegionClose fails s) := by
  refine keeps_next ?_
  split
  · exact h
  · exact bgtClose_canonical (bgtFails_canonical h)

theorem execBgtRegionSkip_keeps {s : State} (h : s.Canonical) : Keeps (execBgtRegionSkip s) := by
  refine keeps_next ?_
  split
  · exact h
  · exact bgtClose_canonical (State.inc_canonical h)

theorem execPlaneLineFetched_keeps {n : Fin 32} {cclk : Nat} {s : State} (h : s.Canonical) : Keeps (execPlaneLineFetched n cclk s) := by
  unfold execPlaneLineFetched
  refine keeps_next ?_
  grind only [onPlane_canonical, planeLine_canonical, planeUnderrun_canonical]

theorem execHarpScan_keeps {p : Fin 8} {scanWait : Nat} {avail : Option Nat} {s : State} (h : s.Canonical) :
    Keeps (execHarpScan p scanWait avail s) := by
  refine keeps_next ?_
  split
  · exact ite_canonical h (harpWork_canonical h)
  · exact h

theorem execHarpStageDone_keeps {p : Fin 8} {s : State} (h : s.Canonical) : Keeps (execHarpStageDone p s) := by
  unfold execHarpStageDone
  refine keeps_next ?_
  grind only [State.wr_canonical, harpFlag_canonical, onHarp_canonical, putAff_canonical, putCtx_canonical, raise_canonical,
    stageItems_canonical]

theorem execPipeLineStart_keeps {p : Fin 8} {dot : Nat} {safeLate : BitVec 2} {wbStall : Bool} {s : State} (h : s.Canonical) :
    Keeps (execPipeLineStart p dot safeLate wbStall s) := by
  have hd : (s.atDot dot).Canonical := State.atDot_canonical h
  refine keeps_unless hd (ite_canonical (activeLine_canonical (onPipe_canonical hd)) (ite_canonical ?_ (ite_canonical
    (blankLine_canonical hd)
    (ite_canonical hd (blankLine_canonical hd)))))
  exact ite_canonical (activeLine_canonical hd) (blankLine_canonical hd)

theorem execPipeLatch_keeps {p : Fin 8} {s : State} (h : s.Canonical) : Keeps (execPipeLatch p s) := by
  refine keeps_unless h ?_
  have hl : ∀ t : State, t.Canonical → (if t.flag (F.pipeCtl_EN p) then t else pipeDisable p t).Canonical :=
    fun t ht => ite_canonical ht (pipeDisable_canonical ht)
  exact hl _ (ite_canonical (onPipe_canonical (State.incWrap_canonical (State.set1_canonical h))) (latchSteps_canonical h))

theorem execWbFrameDone_keeps {p : Fin 8} {s : State} (h : s.Canonical) : Keeps (execWbFrameDone p s) := by
  refine keeps_next (ite_canonical (State.forL_canonical (onWb_canonical (wbFlushOld_canonical h)) fun _ _ => wbDone_canonical)
    (ite_canonical h (ite_canonical (wbFlush_canonical h) (wbDone_canonical (onWb_canonical (wbFlush_canonical h))))))

theorem execPortTrainingDone_keeps {k : Fin 8} {s : State} (h : s.Canonical) : Keeps (execPortTrainingDone k s) := by
  refine keeps_unless h (portNotify_canonical (portSends_canonical (State.forL_canonical (endAttempt_canonical
    (onPort_canonical ?_)) ?_)))
  · exact State.wr_canonical (State.wr_canonical (State.wr_canonical h))
  · exact fun _ _ => endAttempt_canonical

theorem execPortTrainingTimeout_keeps {k : Fin 8} {s : State} (h : s.Canonical) : Keeps (execPortTrainingTimeout k s) := by
  refine keeps_unless h (portNotify_canonical (ite_canonical ?_ ?_))
  · exact endAttempt_canonical (portDown_canonical h)
  · exact upset_canonical (portDown_canonical h)

theorem execPortLinkLoss_keeps {k : Fin 8} {lanes : BitVec 4} {s : State} (h : s.Canonical) : Keeps (execPortLinkLoss k lanes s) := by
  refine keeps_unless h (portNotify_canonical (ite_canonical ?_ ?_))
  · exact upset_canonical (portTrain_canonical h)
  · exact State.forL_canonical (portTrain_canonical h) fun _ _ => upset_canonical

theorem execLandingTagValid_keeps {n : Fin 16} {err : Bool} {s : State} (h : s.Canonical) : Keeps (execLandingTagValid n err s) := by
  refine keeps_next ?_
  split
  · exact h
  · exact onStream_canonical h

theorem execRaceCutoff_keeps {n : Fin 32} {slackCclk latency10ns : Option Nat} {s : State} (h : s.Canonical) :
    Keeps (execRaceCutoff n slackCclk latency10ns s) := by
  unfold execRaceCutoff
  refine keeps_next ?_
  grind only [State.forL_canonical, onPlane_canonical, replaceLine_canonical]

theorem execCsiResyncDone_keeps {port : Fin 4} {synced : Bool} {s : State} (h : s.Canonical) :
    Keeps (execCsiResyncDone port synced s) := by
  refine keeps_unless h (ite_canonical (State.wr_canonical ?_) (csiResync_canonical ?_))
  · exact endAttempt_canonical (rest_canonical h)
  · exact endAttempt_canonical (rest_canonical h)

theorem execCamFsyncEnd_keeps {pulse : FsyncEnd} {s : State} (h : s.Canonical) : Keeps (execCamFsyncEnd pulse s) := by
  have hd : (s.atDot pulse.dot).Canonical := State.atDot_canonical h
  refine keeps_next ?_
  split
  · exact ite_canonical (onStream_canonical hd) hd
  · exact hd

theorem execRindVerdict_keeps {p : Fin 8} {r : Fin 64} {s : State} (h : s.Canonical) : Keeps (execRindVerdict p r s) := by
  refine keeps_unless h (ite_canonical (writeVerdict_canonical h) ?_)
  split
  · exact h
  · exact judge_canonical h

theorem execWaitEnd_keeps {k : Fin 13} {dot : Nat} {s : State} (h : s.Canonical) : Keeps (execWaitEnd k dot s) := by
  have hd : (s.atDot dot).Canonical := State.atDot_canonical h
  refine keeps_next ?_
  split
  · exact retryHeld_canonical hd
  · exact hd

theorem execTrapEntry_keeps {k : Fin 13} {cause : TrapCause} {s : State} (h : s.Canonical) : Keeps (execTrapEntry k cause s) := by
  refine keeps_unless h ?_
  cases cause with
  | illegal w => exact ite_canonical h (preciseTrap_canonical h)
  | fetchErr ecc => exact preciseTrap_canonical (ite_canonical (countEcc_canonical h) h)
  | corrected => exact countEcc_canonical h
  | pending =>
    dsimp only
    split
    · exact ite_canonical h (enter_canonical (onCore_canonical h))
    · exact h

theorem execInterruptEntry_keeps {k : Fin 13} {s : State} (h : s.Canonical) : Keeps (execInterruptEntry k s) := by
  exact keeps_guarded h (enter_canonical (lateTaken_canonical h))

theorem execSeqLeaveReset_keeps {p : Fin 8} {s : State} (h : s.Canonical) : Keeps (execSeqLeaveReset p s) := by
  refine keeps_next ?_
  split
  · exact h
  · exact ite_canonical h (leaveReset_canonical h)

theorem execSlotWriteServed_keeps {p : Fin 8} {latency : BitVec 8} {s : State} (h : s.Canonical) :
    Keeps (execSlotWriteServed p latency s) := by
  unfold execSlotWriteServed
  refine keeps_next ?_
  grind only [busWrite_canonical, onCore_canonical, onPipe_canonical]

theorem execAudMclkLost_keeps {d : Fin 2} {s : State} (h : s.Canonical) : Keeps (execAudMclkLost d s) := by
  refine keeps_guarded h (ite_canonical (clockSwitched_canonical ?_) ?_)
  · exact logEvent_canonical (raise_canonical (State.set1_canonical (State.clr_canonical h)))
  · exact logEvent_canonical (raise_canonical (State.set1_canonical (State.clr_canonical h)))

theorem execTdmResyncDone_keeps {p : Fin 8} {ok : Bool} {s : State} (h : s.Canonical) : Keeps (execTdmResyncDone p ok s) := by
  exact keeps_unless h (ite_canonical (State.wr_canonical (endAttempt_canonical h)) (tdmResync_canonical (endAttempt_canonical h)))

theorem execGainChangeStart_keeps {i o : Fin 128} {st : Option (Fin 2)} {s : State} (h : s.Canonical) :
    Keeps (execGainChangeStart i o st s) := by
  refine keeps_next ?_
  split
  · exact nodeCheck_canonical h
  · exact h

theorem execAudZcTimeout_keeps {i o : Fin 128} {st : Option (Fin 2)} {s : State} (h : s.Canonical) :
    Keeps (execAudZcTimeout i o st s) := by
  refine keeps_next ?_
  split
  · exact nodeCheck_canonical h
  · exact h

theorem execAudFrameLatch_keeps {d : Fin 3} {phase : BitVec 8} {dot : Nat} {s : State} (h : s.Canonical) :
    Keeps (execAudFrameLatch d phase dot s) := by
  refine keeps_unless h (State.forN_canonical ?_ fun k u hu => ?_)
  · exact State.wr_canonical (State.wr_canonical (State.wr_canonical (State.wr_canonical (onAud_canonical (State.atDot_canonical h)))))
  · split
    · exact ite_canonical (showPlayer_canonical (playConvert_canonical hu)) hu
    · exact hu

theorem execPressStart_keeps {who : Initiator} {e : Fin 2} {hi : BitVec 8} {lo : Option (BitVec 32)} {s : State} (h : s.Canonical) :
    Keeps (execPressStart who e hi lo s) := by
  refine keeps_next (writeIrs_canonical (fun u hu => ite_canonical hu (ite_canonical (droppedBy_canonical hu)
    (pressStart_canonical ?_))) h)
  cases lo with
  | none => exact hu
  | some v => exact pressStage_canonical hu

theorem execPressEntryFetched_keeps {e : Fin 2} {s : State} (h : s.Canonical) : Keeps (execPressEntryFetched e s) := by
  unfold execPressEntryFetched
  refine keeps_next ?_
  grind only [memRead_canonical, onPress_canonical, pEnd_canonical, pressHalt_canonical]

theorem execPressTimeout_keeps {e : Fin 2} {write : Bool} {chunks requests : Nat} {s : State} (h : s.Canonical) :
    Keeps (execPressTimeout e write chunks requests s) := by
  refine keeps_unless h ?_
  split
  · exact h
  · exact pressHalt_canonical h
  · exact pressFinish_canonical h
  · have hr := pRun_canonical (x0 := e.val) (x1 := (s.pressOf e.val).entry) (x3 := (pChunks (s.pressOf e.val).entry).take chunks)
      (x4 := 0) h h
    generalize pRun e.val (s.pressOf e.val).entry s ((pChunks (s.pressOf e.val).entry).take chunks) 0 s = q at hr ⊢
    obtain ⟨failed, k, t⟩ := q
    have ht : t.Canonical := hr
    cases failed with
    | some f => exact pFailed_canonical ht
    | none =>
      dsimp only
      split
      · exact h
      · split
        · exact h
        · split <;> grind only [pFailed_canonical, pReads_canonical, pWrites_canonical]

theorem execDmaStart_keeps {who : Initiator} {n : Fin 64} {hi : BitVec 8} {lo : Option (BitVec 32)} {s : State} (h : s.Canonical) :
    Keeps (execDmaStart who n hi lo s) := by
  refine keeps_next (writeIrs_canonical (fun u hu => ite_canonical hu (ite_canonical (droppedBy_canonical hu) (dmaStart_canonical ?_))) h)
  cases lo with
  | none => exact hu
  | some v => exact dmaStage_canonical hu

theorem execDmaDeadline_keeps {n : Fin 64} {s : State} (h : s.Canonical) : Keeps (execDmaDeadline n s) := by
  refine keeps_next ?_
  split
  · exact ite_canonical (dmaRaise_canonical (onDma_canonical (State.inc_canonical h))) h
  · exact h

theorem execTimerCapture_keeps {n : Fin 64} {ticks : BitVec 32} {s : State} (h : s.Canonical) : Keeps (execTimerCapture n ticks s) := by
  have ha : (timerAdvance n.val ticks.toNat s).Canonical := timerAdvance_canonical h
  refine keeps_next ?_
  split
  · exact timerCapture_canonical (onTimer_canonical ha)
  · exact ha

theorem execMsixEnable_keeps {table : MsixTable} {functionMask : Bool} {s : State} (h : s.Canonical) :
    Keeps (execMsixEnable table functionMask s) := by
  refine keeps_next (ite_canonical (State.forN_canonical (rest_canonical h) fun _ _ => pbaSend_canonical) ?_)
  exact State.forL_canonical (State.clr_canonical (State.set1_canonical (rest_canonical h))) fun _ _ => msixRequest_canonical

theorem execMsixUnmask_keeps {v : Option (Fin 64)} {s : State} (h : s.Canonical) : Keeps (execMsixUnmask v s) := by
  refine keeps_next ?_
  split
  · exact pbaSend_canonical (rest_canonical h)
  · exact State.forN_canonical (rest_canonical h) fun _ _ => pbaSend_canonical

theorem execMbxDoorbell_keeps {via : Via} {m : Fin 16} {s : State} (h : s.Canonical) : Keeps (execMbxDoorbell via m s) := by
  refine keeps_next ?_
  split
  · exact ite_canonical (ringDoorbell_canonical h) (droppedWrite_canonical h)
  · exact ringDoorbell_canonical h

theorem execPowerState_keeps {m : Fin 16} {s : State} (h : s.Canonical) : Keeps (execPowerState m s) := by
  refine keeps_next (serve_canonical (fun _ _ u hu => ite_snd_canonical (reply_canonical hu) (ite_snd_canonical
    (reply_canonical (State.set1_canonical hu)) (ite_snd_canonical (reply_canonical (retrim_canonical hu)) ?_))) h)
  refine ite_canonical (startTest_canonical (State.set1_canonical ?_)) (enterState_canonical ?_)
  all_goals exact finish_canonical (ite_canonical (flushLog_canonical hu) hu)

theorem execResetBlock_keeps {m : Fin 16} {s : State} (h : s.Canonical) : Keeps (execResetBlock m s) := by
  refine keeps_next (serveSub_canonical (fun _ _ u hu => ite_snd_canonical (reply_canonical hu) (ite_snd_canonical
    (reply_canonical hu) ?_)) h)
  exact reply_canonical (logReset_canonical (State.wr_canonical (blockReset_canonical hu)))

theorem execReinstate_keeps {m : Fin 16} {s : State} (h : s.Canonical) : Keeps (execReinstate m s) := by
  refine keeps_next (serve_canonical (fun _ _ u hu => ite_snd_canonical (reply_canonical hu) (ite_snd_canonical ?_ (ite_snd_canonical ?_
    (reply_canonical hu)))) h)
  · refine ite_snd_canonical (reply_canonical hu) (ite_snd_canonical (reply_canonical hu) (reply_canonical (reinstated_canonical
      (ite_canonical (returnUnit_canonical ?_) ?_))))
    · exact makeHealthy_canonical (zeroCounts_canonical (rest_canonical hu))
    · exact makeHealthy_canonical (zeroCounts_canonical (rest_canonical hu))
  · exact ite_snd_canonical (reply_canonical hu) (reply_canonical (reinstated_canonical (rest_canonical (State.set1_canonical hu))))

theorem execUpdateBegin_keeps {m : Fin 16} {s : State} (h : s.Canonical) : Keeps (execUpdateBegin m s) := by
  refine keeps_next (serve_canonical (fun _ _ u hu => ?_) h)
  have hs := fun op st d => updateStage_canonical (x0 := op) (x1 := st) (x2 := d) hu
  refine ite_snd_canonical (hs ..) (ite_snd_canonical (hs ..) (ite_snd_canonical (hs ..) ?_))
  exact updateStage_canonical (onCellar_canonical (setSlotValid_canonical hu))

theorem execUpdateData_keeps {m : Fin 16} {s : State} (h : s.Canonical) : Keeps (execUpdateData m s) := by
  refine keeps_next (serve_canonical (fun _ _ u hu => ?_) h)
  dsimp only
  split
  · exact updateStage_canonical hu
  · refine ite_snd_canonical (updateStage_canonical hu) (updateStage_canonical (onCellar_canonical (flashWrite_canonical ?_)))
    exact State.forL_canonical hu fun _ _ => flashErase_canonical

theorem execUpdateFinish_keeps {m : Fin 16} {s : State} (h : s.Canonical) : Keeps (execUpdateFinish m s) := by
  refine keeps_next (serve_canonical (fun _ _ u hu => ?_) h)
  split
  · exact updateStage_canonical hu
  · refine ite_snd_canonical (updateStage_canonical (setSlotValid_canonical ?_)) (updateStage_canonical ?_)
    · exact onCellar_canonical hu
    · exact onCellar_canonical hu

theorem execUpdateActivateTrial_keeps {m : Fin 16} {s : State} (h : s.Canonical) : Keeps (execUpdateActivateTrial m s) := by
  refine keeps_next (serveSub_canonical (fun _ _ u hu => ite_snd_canonical (updateStage_canonical hu)
    (ite_snd_canonical (updateStage_canonical hu) ?_)) h)
  exact updateStage_canonical (putDesc_canonical hu)

theorem execUpdateActivateCommit_keeps {m : Fin 16} {s : State} (h : s.Canonical) : Keeps (execUpdateActivateCommit m s) := by
  refine keeps_next (serveSub_canonical (fun _ _ u hu => ite_snd_canonical (updateStage_canonical hu)
    (ite_snd_canonical (updateStage_canonical hu) ?_)) h)
  refine updateStage_canonical (ite_canonical (raiseArb_canonical ?_) ?_)
  · exact putDesc_canonical (onCellar_canonical hu)
  · exact putDesc_canonical (onCellar_canonical hu)

theorem execAttest_keeps {m : Fin 16} {s : State} (h : s.Canonical) : Keeps (execAttest m s) := by
  refine keeps_next (serve_canonical (fun _ _ u hu => ite_snd_canonical (reply_canonical hu) (ite_snd_canonical
    (reply_canonical hu) ?_)) h)
  exact State.fresh_canonical hu

theorem execLifecycleChallenge_keeps {m : Fin 16} {s : State} (h : s.Canonical) : Keeps (execLifecycleChallenge m s) := by
  refine keeps_next (lifecycleServe_canonical (fun _ _ u hu => ite_snd_canonical (reply_canonical hu) ?_) h)
  exact rest_canonical (drawBytes_canonical hu)

theorem execKeygen_keeps {m : Fin 16} {s : State} (h : s.Canonical) : Keeps (execKeygen m s) := by
  refine keeps_next (lifecycleServe_canonical (fun _ _ u hu => ite_snd_canonical (reply_canonical hu) (ite_snd_canonical
    (reply_canonical hu) ?_)) h)
  exact rest_canonical (State.fresh_canonical hu)

theorem execCertInstall_keeps {m : Fin 16} {s : State} (h : s.Canonical) : Keeps (execCertInstall m s) := by
  refine keeps_next (lifecycleServe_canonical (fun _ _ u hu => ?_) h)
  have hr := fun st => reply_canonical (x0 := st) hu
  refine ite_snd_canonical (hr _) (ite_snd_canonical (hr _) (ite_snd_canonical (hr _) (ite_snd_canonical (hr _) ?_)))
  exact reply_canonical (onCellar_canonical (flashWrite_canonical (flashErase_canonical hu)))

theorem execLifecycleTransition_keeps {m : Fin 16} {s : State} (h : s.Canonical) : Keeps (execLifecycleTransition m s) := by
  refine keeps_next (lifecycleServe_canonical (fun _ _ u hu => ite_snd_canonical (reply_canonical hu) ?_) h)
  split
  · exact reply_canonical hu
  · refine ite_snd_canonical (reply_canonical hu) (ite_snd_canonical (reply_canonical hu) ?_)
    exact reply_canonical (enterLifecycle_canonical hu)

theorem execRevokeKey_keeps {m : Fin 16} {s : State} (h : s.Canonical) : Keeps (execRevokeKey m s) := by
  refine keeps_next (lifecycleServe_canonical (fun _ _ u hu => ?_) h)
  have hr := fun st => reply_canonical (x0 := st) hu
  exact ite_snd_canonical (hr _) (ite_snd_canonical (hr _) (ite_snd_canonical (hr _) (reply_canonical (onCellar_canonical hu))))

theorem execTakeoverRelease_keeps {m : Fin 16} {s : State} (h : s.Canonical) : Keeps (execTakeoverRelease m s) := by
  unfold execTakeoverRelease
  refine keeps_next ?_
  grind only [completeWaiting_canonical, handBack_canonical, notify_canonical, onSvc_canonical, releaseFree_canonical,
    settleRings_canonical, takeoverEnd_canonical]

theorem execHandback_keeps {m : Fin 16} {s : State} (h : s.Canonical) : Keeps (execHandback m s) := by
  refine keeps_next (serve_canonical (fun _ _ u hu => ite_snd_canonical (reply_canonical hu) ?_) h)
  exact ite_snd_canonical (handBack_canonical hu) (handBack_canonical hu)

theorem execHandbackTake_keeps {s : State} (h : s.Canonical) : Keeps (execHandbackTake s) := by
  refine keeps_unless h (State.forL_canonical (onSvc_canonical (State.forL_canonical h fun _ _ => svcBack_canonical)) ?_)
  exact fun _ _ hu => settleRings_canonical (completeWaiting_canonical hu)

theorem execSafeWrite_keeps {m : Fin 16} {s : State} (h : s.Canonical) : Keeps (execSafeWrite m s) := by
  refine keeps_next (serve_canonical (fun _ _ u hu => ?_) h)
  have hr := fun st => reply_canonical (x0 := st) hu
  refine ite_snd_canonical (hr _) (ite_snd_canonical (hr _) (ite_snd_canonical ?_ (rest_canonical hu)))
  exact reply_canonical (safeWrite_canonical hu)

theorem execSafeWriteAtReached_keeps {m : Fin 16} {dot : Nat} {s : State} (h : s.Canonical) : Keeps (execSafeWriteAtReached m dot s) := by
  have hd : (s.atDot dot).Canonical := State.atDot_canonical h
  refine keeps_next ?_
  dsimp only
  split
  · exact hd
  · split
    · exact hd
    · exact settleRings_canonical (completeWaiting_canonical (safeWrite_canonical (rest_canonical hd)))

theorem execRomBoot_keeps {s : State} (h : s.Canonical) : Keeps (execRomBoot s) := by
  unfold execRomBoot
  refine keeps_unless h ?_
  have hf := firstStart_canonical (applyMap_canonical (onCellar_canonical (f := fun c => { c with romDue := false, booted := false })
    (State.clr_canonical (x1 := F.cellarStatus_ROM_RECOVERY) h)))
  dsimp only
  generalize firstStart _ = t at hf ⊢
  have hc := chooseSlot_canonical hf
  refine ite_canonical (serveUnknown_canonical (endServices_canonical hf)) ?_
  split
  · exact startFirmware_canonical (loadSlot_canonical hc)
  · exact serveUnknown_canonical (State.clr_canonical (State.set1_canonical hc))

theorem execVoltageSample_keeps {v : Fin 24} {mv : BitVec 16} {s : State} (h : s.Canonical) : Keeps (execVoltageSample v mv s) := by
  refine keeps_next (ite_canonical (levelChange_canonical ?_) ?_)
  · exact State.wr_canonical (State.wr_canonical (onCellar_canonical h))
  · exact State.wr_canonical (State.wr_canonical (onCellar_canonical h))

theorem execCanFrameRx_keeps {n : Fin 2} {ide : Bool} {id : BitVec 29} {rx : CanRx} {s : State} (h : s.Canonical) :
    Keeps (execCanFrameRx n ide id rx s) := by
  refine keeps_guarded h (ite_canonical ?_ (State.forL_canonical ?_ fun _ _ hu => ite_canonical (signalSet_canonical
    (onSvc_canonical hu)) hu))
  · exact canCounts_canonical (State.incWrap_canonical h)
  · exact canCounts_canonical (State.incWrap_canonical h)

theorem execSignalTimeout_keeps {e : Fin 128} {s : State} (h : s.Canonical) : Keeps (execSignalTimeout e s) := by
  unfold execSignalTimeout
  refine keeps_next ?_
  grind only [State.fresh_canonical, logEvent_canonical, signalSet_canonical]

theorem execChimePreempt_keeps {k : Fin 4} {s : State} (h : s.Canonical) : Keeps (execChimePreempt k s) := by
  refine keeps_next ?_
  split
  · split
    · exact ite_canonical h (chimeStart_canonical (ite_canonical h (playEnd_canonical h)))
    · exact h
  · exact h

theorem execTelltaleBlink_keeps {t : Fin 64} {s : State} (h : s.Canonical) : Keeps (execTelltaleBlink t s) := by
  refine keeps_next ?_
  split
  · exact h
  · exact ite_canonical (onTt_canonical h) h

theorem execLinkUp_keeps {l : Fin 2} {pass : BitVec 4} {c0 : Nat} {s : State} (h : s.Canonical) : Keeps (execLinkUp l pass c0 s) := by
  unfold execLinkUp
  refine keeps_next ?_
  grind only [State.clr_canonical, State.forL_canonical, State.wr_canonical, endAttempt_canonical, linkState_canonical,
    onLink_canonical, readmit_canonical, retire_canonical]

theorem execLinkRetrain_keeps {l : Fin 2} {failed : BitVec 4} {s : State} (h : s.Canonical) : Keeps (execLinkRetrain l failed s) := by
  refine keeps_guarded h (ite_canonical (linkStop_canonical (State.clr_canonical ?_)) (ite_canonical ?_ (readmit_canonical ?_)))
  all_goals exact State.forL_canonical (linkRetrain_canonical h) fun _ _ => retire_canonical

theorem execChainDiscovery_keeps {chain : Option Chain} {conflict : BitVec 2} {s : State} (h : s.Canonical) :
    Keeps (execChainDiscovery chain conflict s) := by
  unfold execChainDiscovery
  refine keeps_next ?_
  grind only [State.clr_canonical, State.forN_canonical, State.set1_canonical, State.wr_canonical, linkStop_canonical,
    onCasc_canonical, raise_canonical, timeState_canonical]

theorem execFlitLaunch_keeps {l : Fin 2} {dot : Nat} {frac : BitVec 8} {s : State} (h : s.Canonical) :
    Keeps (execFlitLaunch l dot frac s) := by
  unfold execFlitLaunch
  refine keeps_next ?_
  grind only [State.atDot_canonical, intrReady_canonical, onLink_canonical]

theorem execTimingFlitRx_keeps {l : Fin 2} {hd : FlitHead} {t : Timing} {dot : Nat} {frac : BitVec 8} {s : State} (h : s.Canonical) :
    Keeps (execTimingFlitRx l hd t dot frac s) := by
  unfold execTimingFlitRx
  refine keeps_next ?_
  grind only [State.atDot_canonical, exchange_canonical, flitRx_canonical, onCasc_canonical, onLink_canonical, setRefRegs_canonical]

theorem execAudioFlitRx_keeps {l : Fin 2} {hd : FlitHead} {count : BitVec 32} {samples : List (BitVec 24)} {same : Bool} {s : State}
    (h : s.Canonical) :
    Keeps (execAudioFlitRx l hd count samples same s) := by
  refine keeps_next (flitRx_canonical (fun _ => forMe_canonical fun u hu => ite_canonical hu ?_) h)
  exact audioPush_canonical (audioPush_canonical hu)

theorem execCascTimeStep_keeps {s : State} (h : s.Canonical) : Keeps (execCascTimeStep s) := by
  refine keeps_next ?_
  split
  · exact h
  · exact ite_canonical h (stepTo_canonical h)

theorem execTunnelTimeout_keeps {id : Nat} {s : State} (h : s.Canonical) : Keeps (execTunnelTimeout id s) := by
  refine keeps_next ?_
  split
  · exact tunnelFails_canonical h
  · exact h

theorem execPowerReturnDone_keeps {s : State} (h : s.Canonical) : Keeps (execPowerReturnDone s) := by
  unfold execPowerReturnDone
  refine keeps_next ?_
  grind only [State.clr_canonical, State.wr_canonical, hostReset_canonical, logEvent_canonical, resumeUnits_canonical,
    returnP3_canonical, returnP4_canonical, startChain_canonical, targetMailboxes_canonical, untrimAll_canonical,
    writeHeld_canonical]

theorem execThermalTrip_keeps {s : State} (h : s.Canonical) : Keeps (execThermalTrip s) := by
  refine keeps_unless h ?_
  split
  · exact h
  · refine updateFaultN_canonical (State.inc_canonical (State.forN_canonical (rest_canonical (restart_canonical h)) ?_))
    exact fun _ _ => State.wr_canonical

theorem execPinReset_keeps {role : Fin 4} {xspi : Bool} {s : State} (h : s.Canonical) : Keeps (execPinReset role xspi s) := by
  refine keeps_unless h (coldStart_canonical ?_)
  iterate 7 refine State.wr_canonical ?_
  exact rest_canonical (restart_canonical h)

theorem execHostReset_keeps {linkDown : Bool} {s : State} (h : s.Canonical) : Keeps (execHostReset linkDown s) := by
  refine keeps_unless h (ite_canonical ?_ (ite_canonical h (hostReset_canonical h)))
  have ht : ∀ t : State, t.Canonical → (if linkDown then hostAbsent 2 t else t).Canonical :=
    fun t ht => ite_canonical (hostAbsent_canonical ht) ht
  exact ht _ (ite_canonical (rest_canonical h) (rest_canonical h))

theorem execWdtReset_keeps {s : State} (h : s.Canonical) : Keeps (execWdtReset s) := by
  refine keeps_next ?_
  split
  · exact ite_canonical h (wdtReset_canonical h)
  · exact h

theorem execSelftestComplete_keeps {elapsedMs : BitVec 32} {last : Fin 9} {finds : List TestFind} {s : State} (h : s.Canonical) :
    Keeps (execSelftestComplete elapsedMs last finds s) := by
  unfold execSelftestComplete
  refine keeps_unless h ?_
  dsimp only
  generalize (if (s.rd F.stStatus_STATE == 2) = true then last.val else 8) = l
  have hr : ((((recordTest elapsedMs.toNat l finds s).clr F.stStatus_STATE).clr F.stStatus_ITEM).clr F.stStatus_REMAIN_MS).Canonical :=
    State.clr_canonical (State.clr_canonical (State.clr_canonical (recordTest_canonical h)))
  generalize State.clr _ F.stStatus_REMAIN_MS = t at hr ⊢
  refine ite_canonical (State.iff_canonical (enterState_canonical (rest_canonical hr)) fun _ => State.set1_canonical) ?_
  exact warmDue_canonical (resumeUnits_canonical (vatInitStart_canonical hr))

theorem execTakeoverTimeout_keeps {s : State} (h : s.Canonical) : Keeps (execTakeoverTimeout s) := by
  refine keeps_next ?_
  split
  · exact h
  · exact State.iff_canonical (settleRings_canonical (completeWaiting_canonical (takeoverEnd_canonical h))) fun _ => onSvc_canonical

/-- Every command keeps the canonical form, by the law of the operation that it makes. -/
theorem exec_keeps (c : Instr) {s : State} (h : s.Canonical) : Keeps (exec c s) := by
  cases c with
  | irsRegWrite => exact execIrsRegWrite_keeps h
  | refCtlApply => exact keeps_next (refApply_canonical h)
  | refFrameStart => exact execRefFrameStart_keeps h
  | refLineStart => exact keeps_next (ite_canonical (lineTick_canonical (State.clr_canonical (State.wr_canonical h))) h)
  | refSynLock => exact keeps_next (ite_canonical (beamBegin_canonical (State.set1_canonical (State.wr_canonical h))) h)
  | beamNowRead => exact execBeamNowRead_keeps h
  | beamEpochRead => exact keeps_next (readIrs_canonical (fun _ => readEpoch_canonical) h)
  | refLost => exact keeps_next (ite_canonical (upset_canonical (logEvent_canonical (raise_canonical (State.clr_canonical
      (State.wr_canonical (State.iff_canonical h fun _ => beamBegin_canonical)))))) h)
  | refRestored => exact keeps_next (ite_canonical (endAttempt_canonical (logEvent_canonical (raise_canonical (State.set1_canonical
      (State.wr_canonical h))))) h)
  | vatReinit => exact keeps_next (ite_canonical h (vatInitStart_canonical h))
  | vatInitDone => exact keeps_next (ite_canonical (vatInitEnd_canonical h) h)
  | vatAccess => exact keeps_next (ite_canonical (vatGrant_canonical h) (keepResp_canonical (decodeError_canonical h)))
  | vatSetAliasWrite => exact keeps_next (aliasWrite_canonical h)
  | vatClearAliasWrite => exact keeps_next (aliasWrite_canonical h)
  | vatCeWriteback => exact execVatCeWriteback_keeps h
  | vatBankTransitionDone => exact execVatBankTransitionDone_keeps h
  | vatC0ResApply => exact keeps_next (rest_canonical h)
  | scrubLine => exact execScrubLine_keeps h
  | vatBankScrubDone => exact execVatBankScrubDone_keeps h
  | bgtRegionOpen => exact execBgtRegionOpen_keeps h
  | bgtRegionClose => exact execBgtRegionClose_keeps h
  | bgtRegionSkip => exact execBgtRegionSkip_keeps h
  | planeLineFetched => exact execPlaneLineFetched_keeps h
  | harpGateWrite => exact keeps_next (writeIrs_canonical (fun _ => harpWrite_canonical) h)
  | harpObjPublish => exact keeps_next (writeIrs_canonical (fun _ => publish_canonical) h)
  | harpAffPublish => exact keeps_next (writeIrs_canonical (fun _ => publish_canonical) h)
  | harpScan => exact execHarpScan_keeps h
  | harpStageDone => exact execHarpStageDone_keeps h
  | pipeLineStart => exact execPipeLineStart_keeps h
  | pipeFrameStart => exact keeps_next (ite_canonical (frameStart_canonical (State.atDot_canonical h)) (State.atDot_canonical h))
  | pipeLatch => exact execPipeLatch_keeps h
  | pipeLateLatch => exact keeps_next (ite_canonical (latchSteps_canonical h) h)
  | fetchDrainRelease => exact keeps_next (releaseAll_canonical (onPipe_canonical h))
  | pipeCommit => exact keeps_next (writeIrs_canonical (fun _ => pipeCommit_canonical) h)
  | wbFrameDone => exact execWbFrameDone_keeps h
  | portHpdRise => exact keeps_next (portNotify_canonical (ite_canonical (portStart_canonical (State.set1_canonical
      (State.atDot_canonical h))) (State.set1_canonical (State.atDot_canonical h))))
  | portHpdFall => exact keeps_next (portNotify_canonical (ite_canonical (portDown_canonical (State.clr_canonical h))
      (State.clr_canonical h)))
  | portTrainingDone => exact execPortTrainingDone_keeps h
  | portTrainingTimeout => exact execPortTrainingTimeout_keeps h
  | portLinkLoss => exact execPortLinkLoss_keeps h
  | csiFs => exact keeps_next (csiPacket_canonical (fun _ hu => State.forL_canonical hu fun _ _ => frameBegin_canonical)
      (State.atDot_canonical h))
  | csiLongPacket => exact keeps_next (csiPacket_canonical (fun _ => longPacket_canonical) h)
  | csiShortIgnored => exact keeps_next (csiPacket_canonical (fun _ hu => hu) h)
  | csiFe => exact keeps_next (csiPacket_canonical (fun _ hu => State.forL_canonical hu fun _ _ => frameFe_canonical)
      (State.atDot_canonical h))
  | streamFrameComplete => exact keeps_next (frameComplete_canonical (State.atDot_canonical h))
  | landingTagValid => exact execLandingTagValid_keeps h
  | raceCutoff => exact execRaceCutoff_keeps h
  | streamTimeout => exact keeps_next (ite_canonical (streamLost_canonical (State.atDot_canonical h)) (State.atDot_canonical h))
  | csiSyncLoss => exact keeps_next (csiUpset_canonical h)
  | csiResyncDone => exact execCsiResyncDone_keeps h
  | camFsyncPulse => exact keeps_next (ite_canonical (onStream_canonical (State.atDot_canonical h)) (State.atDot_canonical h))
  | camFsyncEnd => exact execCamFsyncEnd_keeps h
  | rindVerdict => exact execRindVerdict_keeps h
  | rindC0CondSet => exact keeps_next (ite_canonical (logEvent_canonical (raise_canonical (State.forN_canonical (State.set1_canonical h)
      fun _ _ => onRind_canonical))) h)
  | rindC0CondClear => exact keeps_next (ite_canonical h (State.clr_canonical h))
  | add | sub | and | or | xor | shl | shr | sar | min | max | minu | maxu | cmpeq | cmplt | cmpltu | adds | subs | abs | clz | addi |
    andi | ori | xori | shli | shri | sari | cmpeqi | cmplti | li | lih | movx | movg | addx | rdp | rda | rdar | mul | mulu | mac | msu |
    macz | macu | mova | ashr | ains | ldB | ldBs | ldH | ldHs | ldT | ldW | ldD | stB | stH | stT | stW | stD | ldx | stx | setw | nopc |
    br | bz | bnz | call | ret | loop | wait | fence | reti | trap | brg | callg | csrr | csrw | csrs | csrc | ivecClaim =>
    exact keeps_next (syllable_canonical h)
  | waitEnd => exact execWaitEnd_keeps h
  | beamLoRead => exact keeps_next (syllable_canonical (State.atDot_canonical h))
  | cycleLoRead => exact keeps_next (syllable_canonical (onCore_canonical h))
  | farLoadResponse => exact keeps_next (withPeer_canonical (fun _ => farLoadResponse_canonical) (rest_canonical h))
  | farStoreAck => exact keeps_next (withPeer_canonical (fun _ => farStoreAck_canonical) h)
  | trapEntry => exact execTrapEntry_keeps h
  | interruptEntry => exact execInterruptEntry_keeps h
  | lockstepMismatch => exact keeps_next (ite_canonical (rest_canonical (stopAtBoundary_canonical (onCore_canonical h))) h)
  | seqLeaveReset => exact execSeqLeaveReset_keeps h
  | seqHalt => exact keeps_next (ite_canonical (stopCore_canonical h) h)
  | seqlKick => exact keeps_next (seqKick_canonical h)
  | seqlDoorbell => exact keeps_next (seqDoorbell_canonical h)
  | slotWriteServed => exact execSlotWriteServed_keeps h
  | seqWdtExpire => exact keeps_next (ite_canonical (stopAtBoundary_canonical (onCore_canonical h)) h)
  | audMclkLost => exact execAudMclkLost_keeps h
  | audMclkRestored => exact keeps_next (ite_canonical (clockSwitched_canonical (State.clr_canonical (State.set1_canonical h))) h)
  | audPortSlip => exact keeps_next (ite_canonical (portSlip_canonical (onAud_canonical h)) h)
  | tdmFsError => exact keeps_next (ite_canonical (tdmResync_canonical (upset_canonical (raise_canonical (State.inc_canonical h)))) h)
  | tdmResyncDone => exact execTdmResyncDone_keeps h
  | asrcLock => exact keeps_next (ite_canonical (State.wr_canonical (State.set1_canonical h)) h)
  | asrcUnlock => exact keeps_next (asrcUnlock_canonical h)
  | xpGainWrite => exact keeps_next (writeIrs_canonical (fun _ => xpGainWrite_canonical) h)
  | stGainWrite => exact keeps_next (writeIrs_canonical (fun _ => stGainWrite_canonical) h)
  | gainChangeStart => exact execGainChangeStart_keeps h
  | audZcTimeout => exact execAudZcTimeout_keeps h
  | audCoreLeaveReset => exact keeps_next (ite_canonical (onAudCore_canonical (leaveReset_canonical h)) h)
  | audBlockBoundary => exact keeps_next (audBoundary_canonical h)
  | audlDone => exact keeps_next (audlDone_canonical h)
  | audlKick => exact keeps_next (audlKick_canonical h)
  | audlDoorbell => exact keeps_next (audlDoorbell_canonical h)
  | audCoreWdtExpire => exact keeps_next (ite_canonical (stopAtBoundary_canonical (onCore_canonical (onAudCore_canonical h))) h)
  | audFrameLatch => exact execAudFrameLatch_keeps h
  | playGo => exact keeps_next (writeIrs_canonical (fun _ => playCtlWrite_canonical) h)
  | playStop => exact keeps_next (writeIrs_canonical (fun _ => playCtlWrite_canonical) h)
  | audPlayStart => exact keeps_next (playDue_canonical h)
  | audPlayDone => exact keeps_next (playLast_canonical h)
  | pressStart => exact execPressStart_keeps h
  | pressEntryFetched => exact execPressEntryFetched_keeps h
  | pressNop => exact keeps_next (ite_canonical (pEnd_canonical h) h)
  | pressFill => exact keeps_next (pressOp_canonical h)
  | pressCopy => exact keeps_next (pressOp_canonical h)
  | pressBlend => exact keeps_next (pressOp_canonical h)
  | pressConvert => exact keeps_next (pressOp_canonical h)
  | pressExpand => exact keeps_next (pressOp_canonical h)
  | pressRotate => exact keeps_next (pressOp_canonical h)
  | pressEntryDone => exact keeps_next (ite_canonical (pressFinish_canonical h) h)
  | pressTimeout => exact execPressTimeout_keeps h
  | pressAbort => exact keeps_next (ite_canonical (pressAbort_canonical h) h)
  | dmaStart => exact execDmaStart_keeps h
  | dmaDescFetched => exact keeps_next (ite_canonical (withPeer_canonical (fun _ => dmaFetch_canonical) (rest_canonical h)) h)
  | dmaGateOpen => exact keeps_next (ite_canonical (dmaGo_canonical h) h)
  | dmaDescDone => exact keeps_next (ite_canonical (withPeer_canonical (fun _ => dmaRest_canonical) (rest_canonical h)) h)
  | dmaTimeout => exact keeps_next (ite_canonical (withPeer_canonical (fun _ => dmaLate_canonical) (rest_canonical h)) h)
  | dmaStop => exact keeps_next (ite_canonical (dmaStop_canonical h) h)
  | dmaDeadline => exact execDmaDeadline_keeps h
  | timerWrap => exact keeps_next (ite_canonical (timerRun_canonical (timerAdvance_canonical h)) (timerAdvance_canonical h))
  | timerCompare => exact keeps_next (timerRun_canonical (timerAdvance_canonical h))
  | timerCapture => exact execTimerCapture_keeps h
  | timerSlaveRestart => exact keeps_next (ite_canonical (timerRestart_canonical (onTimer_canonical h)) h)
  | timerLineRestart => exact keeps_next (ite_canonical (timerRestart_canonical (onTimer_canonical h)) h)
  | timerStart => exact keeps_next (timerStartMask_canonical h)
  | timerStop => exact keeps_next (timerStopMask_canonical h)
  | timerCountWrite => exact keeps_next (timerWriteCount_canonical h)
  | timerCmpWrite => exact keeps_next (timerWriteCmp_canonical h)
  | timerCountRead => exact keeps_next (readIrs_canonical (fun _ => timerReadCount_canonical) (timerAdvance_canonical h))
  | timerCaptureRead => exact keeps_next (readIrs_canonical (fun _ => timerReadCapture_canonical) h)
  | intcEnSet => exact keeps_next (writeIrs_canonical (fun _ => intcWrite_canonical) h)
  | intcEnClr => exact keeps_next (writeIrs_canonical (fun _ => intcWrite_canonical) h)
  | intcPendSet => exact keeps_next (writeIrs_canonical (fun _ => intcWrite_canonical) h)
  | intcPendClr => exact keeps_next (writeIrs_canonical (fun _ => intcWrite_canonical) h)
  | msixEnable => exact execMsixEnable_keeps h
  | msixUnmask => exact execMsixUnmask_keeps h
  | mbxDoorbell => exact execMbxDoorbell_keeps h
  | nop => exact keeps_next (serve_canonical (fun _ _ _ => reply_canonical) h)
  | getInfo => exact keeps_next (serve_canonical (fun _ _ _ hu => hu) h)
  | paramSet => exact keeps_next (serve_canonical (fun _ _ _ hu => applyRequest_canonical hu) h)
  | paramGet => exact keeps_next (serve_canonical (fun _ _ _ hu => hu) h)
  | powerState => exact execPowerState_keeps h
  | resetWarm => exact keeps_next (serveSub_canonical (fun _ _ _ hu => ite_snd_canonical (reply_canonical hu) (reply_canonical
      (onCellar_canonical hu))) h)
  | resetBlock => exact execResetBlock_keeps h
  | faultStatus => exact keeps_next (serve_canonical (fun _ _ _ hu => ite_snd_canonical (reply_canonical (refreshCounts_canonical hu))
      (refreshCounts_canonical hu)) h)
  | reinstate => exact execReinstate_keeps h
  | selftestRun => exact keeps_next (serveSub_canonical (fun _ _ _ hu => ite_snd_canonical (reply_canonical hu) (startTest_canonical
      (finish_canonical hu))) h)
  | selftestResults => exact keeps_next (serveSub_canonical (fun _ _ _ hu => ite_snd_canonical (reply_canonical hu) hu) h)
  | logRead => exact keeps_next (serve_canonical (fun _ _ _ hu => ite_snd_canonical (reply_canonical hu) hu) h)
  | updateBegin => exact execUpdateBegin_keeps h
  | updateData => exact execUpdateData_keeps h
  | updateFinish => exact execUpdateFinish_keeps h
  | updateActivateTrial => exact execUpdateActivateTrial_keeps h
  | updateActivateCommit => exact execUpdateActivateCommit_keeps h
  | getCert => exact keeps_next (serve_canonical (fun _ _ _ hu => ite_snd_canonical (reply_canonical hu) (ite_snd_canonical
      (reply_canonical hu) hu)) h)
  | attest => exact execAttest_keeps h
  | lifecycleChallenge => exact execLifecycleChallenge_keeps h
  | keygen => exact execKeygen_keeps h
  | certInstall => exact execCertInstall_keeps h
  | lifecycleTransition => exact execLifecycleTransition_keeps h
  | revokeKey => exact execRevokeKey_keeps h
  | takeover => exact keeps_next (serve_canonical (fun _ _ _ hu => ite_snd_canonical (reply_canonical hu) (ite_snd_canonical
      (reply_canonical hu) hu)) h)
  | takeoverRelease => exact execTakeoverRelease_keeps h
  | handback => exact execHandback_keeps h
  | handbackTake => exact execHandbackTake_keeps h
  | safeWrite => exact execSafeWrite_keeps h
  | safeWriteAtReached => exact execSafeWriteAtReached_keeps h
  | mbxHeadWrite => exact keeps_next (headWrite_canonical h)
  | mbxModTimeout => exact keeps_next (ite_canonical (mbxNotify_canonical h) h)
  | dpWindowWrite => exact keeps_next (ite_canonical h (portWrite_canonical h))
  | dpWindowRead => exact keeps_next (ite_canonical h (withPeer_canonical (fun _ => windowRead_canonical) h))
  | dpPrefetch => exact keeps_next (ite_canonical (droppedWrite_canonical h) (dpPrefetch_canonical h))
  | dpPrefetchReady => exact keeps_next (ite_canonical h (withPeer_canonical (fun _ => prefetchReady_canonical) h))
  | xspiRead => exact keeps_next (ite_canonical (withPeer_canonical (fun _ => xspiRead_canonical) h) h)
  | xspiWrite => exact keeps_next (ite_canonical (xspiWrite_canonical h) h)
  | hostTimeout => exact keeps_next (ite_canonical (hostAbsent_canonical h) h)
  | cellarWdtExpire => exact keeps_next (onCellar_canonical h)
  | romBoot => exact execRomBoot_keeps h
  | sensorRead => exact keeps_next (ite_canonical (owedClocks_canonical (judgeReadings_canonical (takeReadings_canonical
      (tick100us_canonical h)))) (takeReadings_canonical (tick100us_canonical h)))
  | voltageSample => exact execVoltageSample_keeps h
  | clockMonitorChange => exact keeps_next (ite_canonical h (ite_canonical (levelChange_canonical (State.setBit_canonical h))
      (State.setBit_canonical h)))
  | logFlush => exact keeps_next (ite_canonical (flushLog_canonical h) h)
  | bootToView => exact keeps_next (ite_canonical (bootView_canonical h) h)
  | canFrameRx => exact execCanFrameRx_keeps h
  | signalTimeout => exact execSignalTimeout_keeps h
  | canBusoff => exact keeps_next (ite_canonical (upset_canonical (logEvent_canonical (State.wr_canonical (State.wr_canonical
      (State.wr_canonical h))))) h)
  | canBusoffRecovery => exact keeps_next (ite_canonical (endAttempt_canonical (State.clr_canonical (State.clr_canonical
      (State.wr_canonical h)))) h)
  | telltaleWrite => exact keeps_next (ite_canonical (State.iff_canonical (writeTelltales_canonical h) fun _ => onSvc_canonical) h)
  | chimePreempt => exact execChimePreempt_keeps h
  | telltaleBlink => exact execTelltaleBlink_keeps h
  | bulbCheckEnd => exact keeps_next (ite_canonical (onTt_canonical h) h)
  | linkUp => exact execLinkUp_keeps h
  | linkDown => exact keeps_next (ite_canonical (linkStop_canonical (State.clr_canonical h)) h)
  | linkRetrain => exact execLinkRetrain_keeps h
  | chainDiscovery => exact execChainDiscovery_keeps h
  | flitLaunch => exact execFlitLaunch_keeps h
  | timingFlitRx => exact execTimingFlitRx_keeps h
  | lineFlitRx => exact keeps_next (flitRx_canonical (fun _ => lineRx_canonical) (State.atDot_canonical h))
  | msgFlitRx => exact keeps_next (flitRx_canonical (fun _ => forMe_canonical fun _ => msgRx_canonical) (rest_canonical h))
  | audioFlitRx => exact execAudioFlitRx_keeps h
  | intrFlitRx => exact keeps_next (flitRx_canonical (fun _ => forMe_canonical fun _ => intrRx_canonical) h)
  | idleFlitRx => exact keeps_next (flitRx_canonical (fun _ hu => hu) h)
  | cascTimeStep => exact execCascTimeStep_keeps h
  | cascHoldover => exact keeps_next (ite_canonical (timeState_canonical h) h)
  | tunnelTimeout => exact execTunnelTimeout_keeps h
  | cascPeerIrqFifoRead => exact keeps_next (readIrs_canonical (fun _ => popPeerFifo_canonical) h)
  | pwrReqRise => exact keeps_next (ite_canonical h (ite_canonical (State.set1_canonical h) (ite_canonical (State.wr_canonical h) h)))
  | powerReturnDone => exact execPowerReturnDone_keeps h
  | pwrGoodRise => exact keeps_next (onCellar_canonical h)
  | thermalTrip => exact execThermalTrip_keeps h
  | por => exact keeps_next (coldStart_canonical (rest_canonical (restart_canonical h)))
  | pinReset => exact execPinReset_keeps h
  | hostReset => exact execHostReset_keeps h
  | flr => exact keeps_next (ite_canonical h (hostReset_canonical h))
  | warmReset => exact keeps_next (ite_canonical (warmReset_canonical h) h)
  | wdtReset => exact execWdtReset_keeps h
  | retryDone => exact keeps_next (afterRetire_canonical (endAttempt_canonical h))
  | suspectExpire => exact keeps_next (ite_canonical (makeHealthy_canonical (showCounts_canonical h)) h)
  | selftestComplete => exact execSelftestComplete_keeps h
  | repairMapWrite => exact keeps_next (ite_canonical (writeMap_canonical h) h)
  | testSessionOpen => exact keeps_next (ite_canonical (rest_canonical h) h)
  | testSessionClose => exact keeps_next (ite_canonical (onCellar_canonical (rest_canonical h)) h)
  | pinFunctionSwitch => exact keeps_next (State.clr_canonical h)
  | pinFilterChange => exact keeps_next (ite_canonical (pinAccept_canonical (pinSync_canonical h)) (pinSync_canonical h))
  | pinDebounceEnd => exact keeps_next (ite_canonical h (pinAccept_canonical (onPins_canonical (pinSync_canonical h))))
  | pinFlagClr => exact keeps_next (pinWrite_canonical (fun _ => pinFlagClear_canonical) h)
  | pinDoutSet => exact keeps_next (pinWrite_canonical (fun _ => pinDout_canonical) h)
  | pinDoutClr => exact keeps_next (pinWrite_canonical (fun _ => pinDout_canonical) h)
  | audSampleEdge => exact keeps_next (ite_canonical (audEdge_canonical h) h)
  | csiPhySyncAcquired => exact keeps_next (ite_canonical (State.wr_canonical h) h)
  | tdmPortSyncAcquired => exact keeps_next (ite_canonical (State.wr_canonical h) h)
  | lp5xPeriodicRetraining => exact keeps_next (ite_canonical h (upset_canonical h))
  | msixDisable => exact keeps_next (deliver_canonical (State.clr_canonical h))
  | busMasterEnableWrite => exact keeps_next (flushAll_canonical (rest_canonical h))
  | pcieLinkUp => exact keeps_next (flushAll_canonical (rest_canonical h))
  | pmeTurnOff => exact keeps_next (rest_canonical h)
  | takeoverTimeout => exact execTakeoverTimeout_keeps h

end Sys2Proof.Machine

section
open Sys2Proof Sys2Proof.Machine
set_option Elab.async false

/-- Settles O5: an empty queue leaves the state, and otherwise the front command runs on the state with the queue's rest, which is
canonical as the state is; `exec_keeps` says the rest. -/
theorem stepKeepsCanonical : Obligations.StepKeepsCanonical := by
  intro s t h e
  unfold step at e
  split at e
  · cases e
    exact h
  · exact exec_keeps _ (rest_canonical h) t e
end

namespace Sys2Proof.Machine

-- One declaration after another: the memory limit of the check counts the stack of every thread that elaborates beside them.
set_option Elab.async false

/-! ### A HOST reset that leaves MSI-X enabled

A HOST reset switches MSI-X off and then hands the services back (R417). A handed-back service applies the records of its package, one of
which can stop the link on which messages await their acknowledgement; the sources of those messages become pending again. Nothing bounds
the numbers that `peerWait` holds, and `lostSource` is one whose pending word has the key of MSIX. -/

/-- No source has this number: its pending bit lies at the key of `F.intcHostMode_MSIX`. -/
def lostSource : Nat := 33555456

example : (F.intcPendSet_SRC (lostSource / 32)).key = F.intcHostMode_MSIX.key := rfl

/-- Package slot 0 with one section, of CONFIG records for every service: twelve bytes that clear EN of link 0 (parameter 0xE000). -/
def linkOffPackage : List (Nat × Byte) :=
  [(0x1000011, 1),
   (0x1000027, 1),
   (0x1000028, 0), (0x1000029, 0), (0x100002A, 0), (0x100002B, 0),
   (0x100002C, 12), (0x100002D, 0), (0x100002E, 0), (0x100002F, 0),
   (0x1000200, 0x00), (0x1000201, 0xE0), (0x1000202, 4), (0x1000203, 0),
   (0x1000204, 0), (0x1000205, 0), (0x1000206, 0), (0x1000207, 0),
   (0x1000208, 0), (0x1000209, 0), (0x100020A, 0), (0x100020B, 0)]

/-- The master of a chain of two in P0: the host is present and holds service 0, messages to the peer leave by link 0, and one of them
awaits its acknowledgement. -/
def lostLink : State :=
  { State.reset with
    cells := [(F.cascStatus_ROLE.key, 1), (F.svcStatus_STATE.key, 3), (F.svcStatus_HOST_PRESENT.key, 1), (F.refStatus_STATE.key, 1),
              (F.cascStatus_POS_VALID.key, 1), (F.cascStatus_DEVICES.key, 2)]
    intc := { State.reset.intc with peerWait := [lostSource] }
    cellar := { State.reset.cellar with flash := linkOffPackage } }

theorem lostLink_canonical : lostLink.Canonical where
  cells := by unfold Sparse.Rising; decide
  latched := State.reset_canonical.latched
  snap := State.reset_canonical.snap
  params := State.reset_canonical.params
  mem := State.reset_canonical.mem
  vat := State.reset_canonical.vat
  flash := by unfold Memory.wf; decide

/-- A HOST reset of a device that is awake and not held. -/
theorem exec_hostReset_awake {s : State} {down : Bool} (hstate : s.rd F.pwrStatus_STATE < 2) (hheld : s.fault.tripHold = false)
    (hup : down = true → s.hif.pcieUp = true) : exec (.hostReset down) s = .next (hostReset 2 down s) := by
  have hawake : s.asleep = false := by simp [State.asleep]; omega
  have hdown : (down && !s.hif.pcieUp) = false := by cases down <;> simp_all
  change execHostReset down s = _
  simp [execHostReset, hheld, hawake, hdown, show ¬ 4 ≤ s.rd F.pwrStatus_STATE by omega]

theorem lostLink_hostReset_msix : (hostReset 2 false lostLink).rd F.intcHostMode_MSIX = 1 := by decide +kernel

end Sys2Proof.Machine

section
open Sys2Proof Sys2Proof.Machine
set_option Elab.async false

/-- Refutes O58: after a HOST reset MSI-X is not disabled in every canonical state. At `lostLink` the service handed back stops the link,
and the pending bit of the source that awaits its acknowledgement is the bit of MSIX. -/
theorem not_resets : ¬ Obligations.Resets := by
  unfold Obligations.Resets
  intro h
  obtain ⟨-, -, -, hHost, -⟩ := h lostLink 0 false false false 0 lostLink_canonical
  have hup : false = true → lostLink.hif.pcieUp = true := by simp
  have hstate : lostLink.rd F.pwrStatus_STATE < 2 := by decide
  obtain ⟨t, hexec, ⟨-, -, hmsix, -⟩, -⟩ := hHost hstate rfl hup
  rw [exec_hostReset_awake hstate rfl hup] at hexec
  rw [← Host.Outcome.next.inj hexec, lostLink_hostReset_msix] at hmsix
  exact absurd hmsix (by decide)
end

namespace Sys2Proof.Machine

-- One declaration after another: the memory limit of the check counts the stack of every thread that elaborates beside them.
set_option Elab.async false

/-! ### What a dropped write and a decode error leave (R26, R31) -/

theorem State.flag_eq {s t : State} {f : Fld} (h : t.rd f = s.rd f) : t.flag f = s.flag f := by
  unfold State.flag
  rw [h]

/-- Source `n` is pending and does not go to the peer. -/
def StaysPending (n : Nat) (s : State) : Prop := s.Canonical ∧ s.isPending n = true ∧ s.rd (F.intcTgt_DEST n) ≠ 3

theorem intcTgt_DEST_not_report (n : Nat) (hn : n < 512) : reportKey (F.intcTgt_DEST n).key = false := by
  have ho : (F.intcTgt_DEST n).key % 2 ^ 30 / 64 = 0x101000 + n * 4 := by simp [Fld.key, Fld.group, F.intcTgt_DEST]; omega
  have hw : (F.intcTgt_DEST n).key ≠ F.pwrStatus_WAKE_REQ.key := by
    simp [Fld.key, Fld.group, F.intcTgt_DEST, F.pwrStatus_WAKE_REQ]; omega
  simp only [reportKey, deliveryKey, ho]
  simp [hw]
  omega

/-- A change of anything but the registers. -/
theorem staysPending_cells {n : Nat} {s t : State} (h : StaysPending n s) (ht : t.Canonical) (he : t.cells = s.cells) : StaysPending n t := by
  obtain ⟨-, hpend, hdest⟩ := h
  have hrd : ∀ f, t.rd f = s.rd f := fun f => by simp only [State.rd, he]
  exact ⟨ht, by rw [State.isPending, hrd]; exact hpend, by rw [hrd]; exact hdest⟩

/-- The same, where every store stands as it was. -/
theorem staysPending_rest {n : Nat} {s t : State} (h : StaysPending n s) (h1 : t.cells = s.cells := by rfl)
    (h2 : t.latched = s.latched := by rfl) (h3 : t.snap = s.snap := by rfl) (h4 : t.params = s.params := by rfl)
    (h5 : t.mem = s.mem := by rfl) (h6 : t.vat.data = s.vat.data := by rfl) (h7 : t.cellar.flash = s.cellar.flash := by rfl) :
    StaysPending n t :=
  staysPending_cells h (rest_canonical h.1 h1 h2 h3 h4 h5 h6 h7) h1

/-- A write of a field of the report that no delivery decision writes. -/
theorem staysPending_wr {n : Nat} {s : State} (h : StaysPending n s) (hn : n < 512) {f : Fld} (v : Nat) (hf : reportKey f.key = true)
    (hd : deliveryKey f.key = false) : StaysPending n (s.wr f v) := by
  obtain ⟨hs, hpend, hdest⟩ := h
  refine ⟨State.wr_canonical hs, ?_, ?_⟩
  · rw [isPending_wr hs n fun e => ?_, hpend]
    rw [e, deliveryKey_pend (by omega)] at hd
    cases hd
  · rw [State.rd_wr_other hs _ _ _ fun e => ?_]
    · exact hdest
    · rw [← e, intcTgt_DEST_not_report n hn] at hf
      cases hf

theorem staysPending_raise {n : Nat} {s : State} (h : StaysPending n s) (hn : n < 512) (m : Nat) : StaysPending n (raise m s) := by
  obtain ⟨hs, hpend, hdest⟩ := h
  refine ⟨raise_canonical hs, ?_, ?_⟩
  · unfold raise
    split
    · have hset : (s.setPending m true).isPending n = true := by
        by_cases e : n = m
        · rw [e, isPending_setPending_same hs]
        · rw [isPending_setPending_other hs true e, hpend]
      have hdest' : (s.setPending m true).rd (F.intcTgt_DEST n) ≠ 3 := by
        unfold State.setPending State.setBit
        rw [State.rd_wr_other hs]
        · exact hdest
        · intro e
          have h1 := deliveryKey_pend (g := m / 32) (by have := srcAssigned_lt ‹_›; omega)
          have h2 := intcTgt_DEST_not_report n hn
          rw [e, reportKey_delivery h1] at h2
          cases h2
      rw [deliver_pending (State.setPending_canonical hs) n hn hdest', hset]
    · exact hpend
  · rw [raise_rd hs]
    · exact hdest
    · cases e : deliveryKey (F.intcTgt_DEST n).key with
      | false => rfl
      | true => rw [← intcTgt_DEST_not_report n hn, reportKey_delivery e]

/-- A mailbox register is no delivery field. -/
theorem mbx_not_delivery {f : Fld} (h : f.key % 2 ^ 30 < 0x2200 * 64) : deliveryKey f.key = false := by
  unfold deliveryKey
  simp
  omega

theorem status_not_delivery {m : Nat} (h : m < 16) : deliveryKey (F.mbxStatus_TAIL m).key = false ∧
    deliveryKey (F.mbxStatus_HELD m).key = false ∧ deliveryKey (F.mbxStatus_UNNOTIFIED m).key = false ∧
    deliveryKey (F.mbxCounts_LOST m).key = false ∧ deliveryKey (F.mbxCounts_RING_ERR m).key = false := by
  refine ⟨?_, ?_, ?_, ?_, ?_⟩ <;> apply mbx_not_delivery <;>
    simp [Fld.key, Fld.group, F.mbxStatus_TAIL, F.mbxStatus_HELD, F.mbxStatus_UNNOTIFIED, F.mbxCounts_LOST, F.mbxCounts_RING_ERR] <;> omega

theorem staysPending_setUnnotified {n m : Nat} {s : State} (h : StaysPending n s) (hn : n < 512) (hm : m < 16) (u : Nat) :
    StaysPending n (setUnnotified m u s) := by
  obtain ⟨-, -, hr, -⟩ := reportKey_status hm
  obtain ⟨-, -, hd, -⟩ := status_not_delivery hm
  exact staysPending_cells (staysPending_wr h hn (min 127 u) hr hd) (setUnnotified_canonical h.1) rfl

theorem staysPending_mbxNotify {n m : Nat} {s : State} (h : StaysPending n s) (hn : n < 512) (hm : m < 16) : StaysPending n (mbxNotify m s) := by
  unfold mbxNotify
  have h1 := staysPending_setUnnotified h hn hm 0
  refine staysPending_raise ?_ hn m
  exact staysPending_rest h1

/-- What follows the bytes of a ring entry. -/
theorem staysPending_entryTail {n m : Nat} {s : State} (h : StaysPending n s) (hn : n < 512) (hm : m < 16) (v u : Nat) (c d : Bool) :
    StaysPending n (let r := setUnnotified m u (s.wr (F.mbxStatus_TAIL m) v)
      if c then mbxNotify m r else if d then r else { r with hif := { r.hif with ageOn := m :: r.hif.ageOn } }) := by
  have h1 := staysPending_setUnnotified (staysPending_wr h hn v (reportKey_status hm).1 (status_not_delivery hm).1) hn hm u
  dsimp only
  split
  · exact staysPending_mbxNotify h1 hn hm
  · split
    · exact h1
    · exact staysPending_rest h1

/-- A notification's entry written. -/
theorem staysPending_writeEntry {n : Nat} {s : State} (h : StaysPending n s) (hn : n < 512) (err : Option Bool) {e : RingEntry}
    (hm : e.mbx < 16) (hc : e.completion = false) : StaysPending n (writeEntry err e s) := by
  have hdone : ∀ u, entryDone e u = u := fun u => by simp [entryDone, hc]
  have h1 : StaysPending n (if s.prm (P.ringLoc e.mbx) != 0 then ringWriteErr err s else (false, s)).2 := by
    split
    · cases err with
      | none => exact staysPending_rest h
      | some b => exact h
    · exact h
  unfold writeEntry
  dsimp only
  rw [hdone, hdone]
  generalize (if s.prm (P.ringLoc e.mbx) != 0 then ringWriteErr err s else (false, s)) = q at h1
  obtain ⟨-, -, -, -, hr, -⟩ := reportKey_status hm
  obtain ⟨-, -, -, -, hd⟩ := status_not_delivery hm
  split
  · exact staysPending_raise (staysPending_wr h1 hn _ hr hd) hn 20
  · split
    · exact staysPending_entryTail (staysPending_rest h1) hn hm _ _ _ _
    · exact staysPending_entryTail (staysPending_cells h1 (State.setBytes_canonical h1.1) (setBytes_cells _ _ _)) hn hm _ _ _ _

theorem staysPending_wakeRequest {n : Nat} {s : State} (h : StaysPending n s) (hn : n < 512) : StaysPending n (wakeRequest s) := by
  unfold wakeRequest
  split
  · exact h
  · have h1 : StaysPending n (s.set1 F.pwrStatus_WAKE_REQ) := staysPending_wr h hn 1 (by decide) (by decide)
    dsimp only
    split <;> exact staysPending_rest h1

theorem staysPending_notify {n : Nat} {s : State} (h : StaysPending n s) (hn : n < 512) (code a b : Nat) :
    StaysPending n (notify code a b s) := by
  unfold notify
  have hm : s.prm P.mbxNotify % 16 < 16 := Nat.mod_lt _ (by decide)
  generalize s.prm P.mbxNotify % 16 = m at hm
  obtain ⟨-, hrHeld, -, hrLost, -⟩ := reportKey_status hm
  obtain ⟨-, hdHeld, -, hdLost, -⟩ := status_not_delivery hm
  unfold postEntry
  dsimp only
  split
  · split
    · exact staysPending_raise (staysPending_wr h hn _ hrLost hdLost) hn 21
    · have hheld : StaysPending n (showHeld m { s with hif := { s.hif with held := s.hif.held ++
          [{ mbx := m, completion := false, tagData := a, status := 0, opcode := code, stamp := s.now, data2 := b, notifyNow := false }] } }) :=
        staysPending_wr (staysPending_rest h) hn _ hrHeld hdHeld
      unfold State.iff
      split
      · exact staysPending_wakeRequest hheld hn
      · exact hheld
  · exact staysPending_writeEntry h hn none hm rfl

/-- A pending source stays so when an event is logged. -/
theorem staysPending_logEvent {n : Nat} {s : State} (h : StaysPending n s) (hn : n < 512) (code sev a b : Nat) :
    StaysPending n (logEvent code sev a b s) := by
  have h1 : StaysPending n (s.iff (decide (s.cellar.unflushed ≥ 2048)) fun s => s.inc F.cellarLogLost_COUNT) := by
    unfold State.iff
    split
    · exact staysPending_wr h hn _ (by decide) (by decide)
    · exact h
  have h2 : ∀ (q : State) (p k : Nat), StaysPending n q →
      StaysPending n (if p ≤ sev then notify 0x8005 k code (raise 486 q) else q) := fun q p k hq => by
    split
    · exact staysPending_notify (staysPending_raise hq hn 486) hn _ _ _
    · exact hq
  refine h2 _ _ _ (staysPending_wr (f := F.cellarLogSeq_NEXT) ?_ hn _ (by decide) (by decide))
  exact staysPending_rest h1

/-- A counter outside the report counts, source `n` is pending, and of the other fields outside the report none changed. -/
def CountsAndRaises (f : Fld) (n : Nat) (s t : State) : Prop := t.Canonical ∧ Counted f s t ∧ Pends n s t ∧ ReportedOnly [f] s t

/-- An event counted and raised. -/
theorem raise_inc_counts {s : State} (h : s.Canonical) {f : Fld} {n : Nat} (hn : srcAssigned n = true) (hf : reportKey f.key = false)
    (hdest : (F.intcTgt_DEST n).key ≠ f.key) : CountsAndRaises f n s (raise n (s.inc f)) := by
  have hs : (s.inc f).Canonical := State.inc_canonical h
  have hdel : ∀ g : Fld, reportKey g.key = false → deliveryKey g.key = false := fun g hg => by
    cases e : deliveryKey g.key with
    | false => rfl
    | true => rw [← hg, reportKey_delivery e]
  have hrd : ∀ g : Fld, reportKey g.key = false → g.key ≠ f.key → (raise n (s.inc f)).rd g = s.rd g := fun g hg hk => by
    rw [raise_rd hs n g (hdel g hg)]
    exact State.rd_wr_other h _ _ _ hk
  refine ⟨raise_canonical hs, ?_, ?_, fun g hg hk => hrd g hg (hk f (by simp))⟩
  · unfold Counted
    rw [raise_rd hs n f (hdel f hf)]
    exact (State.rd_wr_same h f _).trans (Nat.mod_eq_of_lt (by have := Nat.two_pow_pos f.width; omega))
  · by_cases hd : s.rd (F.intcTgt_DEST n) = 3
    · exact .inr hd
    · refine .inl (raise_pending hs hn ?_)
      rw [show (s.inc f).rd (F.intcTgt_DEST n) = s.rd (F.intcTgt_DEST n) from State.rd_wr_other h _ _ _ hdest]
      exact hd

/-- An entry of the event log leaves the count and the source. -/
theorem logEvent_counts {f : Fld} {n : Nat} {s t : State} (h : CountsAndRaises f n s t) (hn : n < 512) (hf : reportKey f.key = false)
    (hdest : (F.intcTgt_DEST n).key ≠ f.key) (code sev a b : Nat) : CountsAndRaises f n s (logEvent code sev a b t) := by
  obtain ⟨ht, hcount, hpend, honly⟩ := h
  refine ⟨logEvent_canonical ht, (logEvent_rd ht code sev a b f hf).trans hcount, ?_, fun g hg hk => ?_⟩
  · refine hpend.elim (fun hp => ?_) .inr
    by_cases hd : s.rd (F.intcTgt_DEST n) = 3
    · exact .inr hd
    · have hd' : t.rd (F.intcTgt_DEST n) ≠ 3 := by
        rw [honly _ (intcTgt_DEST_not_report n hn) (by simpa using hdest)]
        exact hd
      exact .inl (staysPending_logEvent ⟨ht, hp, hd'⟩ hn code sev a b).2.1
  · rw [logEvent_rd ht code sev a b g hg, honly g hg hk]

/-- A dropped write is counted and raised (R31). -/
theorem droppedWrite_counts {s : State} (h : s.Canonical) (off data : Nat) :
    CountsAndRaises F.hifDroppedWr_COUNT 17 s (droppedWrite off data s) := by
  have h1 := raise_inc_counts (f := F.hifDroppedWr_COUNT) (n := 17) h (by decide) (by decide) (by decide)
  unfold droppedWrite
  dsimp only
  split
  · exact h1
  · obtain ⟨hc, hcount, hpend, honly⟩ := h1
    have h2 : CountsAndRaises F.hifDroppedWr_COUNT 17 s { raise 17 (s.inc F.hifDroppedWr_COUNT) with
        hif := { (raise 17 (s.inc F.hifDroppedWr_COUNT)).hif with dropLogged := true } } :=
      ⟨rest_canonical hc, hcount, hpend, honly⟩
    exact logEvent_counts h2 (by decide) (by decide) (by decide) _ _ _ _

/-- A dropped write of an initiator: a sequencer's is counted in its slot register too (R31, R293). Of the fields below the sequencers'
registers, it changes only the count and those of the report. -/
theorem droppedBy_counts {s : State} (h : s.Canonical) (who : Initiator) (off data : Nat) :
    let t := droppedBy (initiatorTag who) off data s
    Counted F.hifDroppedWr_COUNT s t ∧ Pends 17 s t ∧
      ∀ g : Fld, reportKey g.key = false → g.key ≠ F.hifDroppedWr_COUNT.key → g.key % 2 ^ 30 / 64 < 0xF00000 → t.rd g = s.rd g := by
  obtain ⟨hc, hcount, hpend, honly⟩ := droppedWrite_counts h off data
  have hrd : ∀ g : Fld, reportKey g.key = false → g.key ≠ F.hifDroppedWr_COUNT.key → g.key % 2 ^ 30 / 64 < 0xF00000 →
      (droppedWrite off data s).rd g = s.rd g := fun g hg hk _ => honly g hg (by simpa using hk)
  have hslot (p : Fin 8) : 0xF00000 ≤ (F.seqSlot_DROPS p.val).key % 2 ^ 30 / 64 := by
    simp [Fld.key, Fld.group, F.seqSlot_DROPS]
    omega
  have hother (p : Fin 8) (g : Fld) (hg : g.key % 2 ^ 30 / 64 < 0xF00000) :
      ((droppedWrite off data s).inc (F.seqSlot_DROPS p.val)).rd g = (droppedWrite off data s).rd g :=
    State.rd_wr_other hc _ _ _ fun e => by
      have := hslot p
      rw [e] at hg
      omega
  cases who with
  | seq p =>
    refine ⟨(hother p _ (by decide)).trans hcount, ?_, fun g hg hk ho => (hother p g ho).trans (hrd g hg hk ho)⟩
    refine hpend.imp_left fun hp => ?_
    rw [← hp]
    unfold State.isPending
    exact congrArg (bitAt · _) (hother p _ (by decide))
  | dma n t => cases t <;> exact ⟨hcount, hpend, hrd⟩
  | _ => exact ⟨hcount, hpend, hrd⟩

/-- A decode error is counted and raised (R26). -/
theorem decodeError_counts {s : State} (h : s.Canonical) (who : Initiator) (addr : Nat) :
    CountsAndRaises F.hifDecodeErr_COUNT 16 s (decodeError who addr s) :=
  logEvent_counts (raise_inc_counts h (by decide) (by decide) (by decide)) (by decide) (by decide) (by decide) _ _ _ _

/-! ### What the timers that see a pin leave (R385) -/

theorem pins_forL {α : Type} {p : PinsState} {s : State} {l : List α} {f : α → State → State} (h : s.pins = p)
    (hf : ∀ a u, u.pins = p → (f a u).pins = p) : (s.forL l f).pins = p := by
  induction l generalizing s with
  | nil => exact h
  | cons a l ih => exact ih (hf a s h)

theorem pins_forN {p : PinsState} {s : State} {n : Nat} {f : Nat → State → State} (h : s.pins = p)
    (hf : ∀ a u, u.pins = p → (f a u).pins = p) : (s.forN n f).pins = p := pins_forL h hf

theorem msixRequest_pins (v : Nat) (s : State) : (msixRequest v s).pins = s.pins := by
  unfold msixRequest
  split <;> rfl

theorem peerSend_pins (n : Nat) (s : State) : (peerSend n s).pins = s.pins := by
  unfold peerSend
  split
  · rfl
  · change (if srcLevel n then s else s.setPending n false).pins = s.pins
    split <;> rfl

theorem deliver_pins (s : State) : (deliver s).pins = s.pins := by
  unfold deliver deliverAgain
  dsimp only
  refine pins_forL (pins_forN ?_ fun _ _ hu => hu) fun n u hu => (peerSend_pins n u).trans hu
  split
  · exact pins_forL rfl fun v u hu => (msixRequest_pins v u).trans hu
  · rfl

theorem raise_pins (n : Nat) (s : State) : (raise n s).pins = s.pins := by
  unfold raise
  split
  · exact deliver_pins _
  · rfl

theorem timerIrq_pins (n : Nat) (evs : List Nat) (s : State) : (timerIrq n evs s).pins = s.pins := by
  unfold timerIrq
  split
  · exact raise_pins _ _
  · rfl

theorem timerSignal_pins (m ev : Nat) (s : State) : (timerSignal m ev s).pins = s.pins := pins_forL rfl fun _ _ hu => hu

theorem timerPeriod_pins (n : Nat) (s : State) : (timerPeriod n s).pins = s.pins := by
  unfold timerPeriod
  dsimp only
  split <;> rfl

theorem timerTick_pins (fuel n : Nat) (s : State) : (timerTick fuel n s).2.pins = s.pins := by
  induction fuel generalizing n s with
  | zero => rfl
  | succ fuel ih =>
    simp only [timerTick]
    split
    · rfl
    · split
      · rfl
      · split
        · exact (ih _ _).trans (timerPeriod_pins _ _)
        · exact timerPeriod_pins _ _

theorem ticks_pins (l : List Nat) (a : List (Nat × Bool) × State) :
    (l.foldl (fun (a : List (Nat × Bool) × State) n => let (l, s) := timerTick 64 n a.2; (a.1 ++ l, s)) a).2.pins = a.2.pins := by
  induction l generalizing a with
  | nil => rfl
  | cons n l ih => exact (ih _).trans (timerTick_pins 64 n a.2)

theorem timerCclk_pins (ticks begun started wrote : List Nat) (s : State) : (timerCclk ticks begun started wrote s).pins = s.pins := by
  unfold timerCclk
  dsimp only
  refine pins_forL (pins_forL (pins_forL (pins_forL (pins_forL (pins_forL (ticks_pins ticks ([], s)) ?_) ?_) ?_) ?_) ?_) ?_
  · exact fun _ _ hu => hu
  · exact fun _ _ hu => hu
  · exact fun n u hu => (timerIrq_pins n _ u).trans hu
  · exact fun n u hu => (timerSignal_pins n 0 u).trans hu
  · exact fun n u hu => (timerSignal_pins n 1 u).trans hu
  · exact fun n u hu => (timerSignal_pins n 2 u).trans hu

theorem timerFollow_pins (fuel : Nat) (s : State) : (timerFollow fuel s).pins = s.pins := by
  induction fuel generalizing s with
  | zero => rfl
  | succ fuel ih =>
    simp only [timerFollow]
    split
    · rfl
    · rw [ih, timerCclk_pins]
      exact pins_forL rfl fun _ _ hu => hu

theorem timerRun_pins (ticks begun started wrote : List Nat) (s : State) : (timerRun ticks begun started wrote s).pins = s.pins := by
  unfold timerRun
  dsimp only
  rw [timerFollow_pins, timerCclk_pins]
  exact pins_forL rfl fun _ _ hu => hu

theorem timerPins_pins (before s : State) : (timerPins before s).pins = s.pins := by
  unfold timerPins
  dsimp only
  split
  · rfl
  · split
    · exact pins_forL rfl fun _ _ hu => hu
    · exact (timerRun_pins _ _ _ _ _).trans (pins_forL rfl fun _ _ hu => hu)

/-- The edges of the timer pins move only the timers' fields. -/
theorem moves_timerPins {s t : State} (h : Moves timerKey s t) (before : State) : Moves timerKey s (timerPins before t) := by
  unfold timerPins
  dsimp only
  split
  · exact h
  · split
    · exact moves_forL h fun _ _ _ hu => moves_rest hu
    · refine moves_timerRun (moves_forL h fun _ _ _ hu => moves_rest hu) (fun n hn => ?_) (by simp) (by simp) (by simp)
      exact List.mem_range.1 (List.mem_filter.1 (List.mem_filter.1 hn).1).1

/-- Where no timer sees an edge, the timers do nothing. -/
theorem timerPins_eq_self {before s : State} (h : ∀ n, n < 64 → s.timerIn n = before.timerIn n) : timerPins before s = s := by
  have hmoved : (List.range 64).filter (fun n => before.timerIn n != s.timerIn n && s.timerEdge n (s.timerIn n)) = [] := by
    rw [List.filter_eq_nil_iff]
    intro n hn
    simp [h n (List.mem_range.1 hn)]
  unfold timerPins
  dsimp only
  rw [hmoved]
  rfl

/-! ### The fields of the pins -/

/-- The key of a field of the pins' registers (R601). -/
def pinKey (k : Nat) : Bool :=
  let o := k % 2 ^ 30 / 64
  0xC00000 ≤ o && o < 0xC00900

theorem pinKey_not_timer {k : Nat} (h : pinKey k = true) : timerKey k = false := by
  simp [pinKey] at h
  simp [timerKey, deliveryKey]
  omega

theorem pinKey_not_delivery {k : Nat} (h : pinKey k = true) : deliveryKey k = false := by
  simp [pinKey] at h
  simp [deliveryKey]
  omega

theorem pinKey_not_report {k : Nat} (h : pinKey k = true) : reportKey k = false := by
  have hw : k ≠ F.pwrStatus_WAKE_REQ.key := by
    rintro rfl
    exact absurd h (by decide)
  simp [pinKey] at h
  simp [reportKey, deliveryKey, hw]
  omega

theorem pinKey_of {f : Fld} {o : Nat} (ho : f.key % 2 ^ 30 / 64 = o) (h1 : 0xC00000 ≤ o) (h2 : o < 0xC00900) : pinKey f.key = true := by
  simp [pinKey]
  omega

theorem pinKey_state {i : Nat} (hi : i < 112) :
    pinKey (F.pinState_SYNC i).key = true ∧ pinKey (F.pinState_FILTERED i).key = true ∧ pinKey (F.pinState_SWITCHING i).key = true := by
  refine ⟨?_, ?_, ?_⟩ <;> refine pinKey_of (o := 0xC00008 + i * 0x10) ?_ (by omega) (by omega) <;>
    simp [Fld.key, Fld.group, F.pinState_SYNC, F.pinState_FILTERED, F.pinState_SWITCHING] <;> omega

theorem pinKey_cfg {i : Nat} (hi : i < 112) :
    pinKey (F.pinCfg_INV_IN i).key = true ∧ pinKey (F.pinCfg_IRQ i).key = true ∧ pinKey (F.pinCfg_FILT i).key = true ∧
      pinKey (F.pinFilt_N i).key = true := by
  refine ⟨pinKey_of (o := 0xC00000 + i * 0x10) ?_ (by omega) (by omega), pinKey_of (o := 0xC00000 + i * 0x10) ?_ (by omega) (by omega),
    pinKey_of (o := 0xC00000 + i * 0x10) ?_ (by omega) (by omega), pinKey_of (o := 0xC00004 + i * 0x10) ?_ (by omega) (by omega)⟩ <;>
    simp [Fld.key, Fld.group, F.pinCfg_INV_IN, F.pinCfg_IRQ, F.pinCfg_FILT, F.pinFilt_N] <;> omega

/-! ### Bits of the registers that hold a bit per pin (R601) -/

theorem and_mod_two (x y : Nat) : (x &&& y) % 2 = x % 2 * (y % 2) := by
  have h : (x &&& y) % 2 = x % 2 &&& y % 2 := Nat.and_mod_two_pow (n := 1)
  rw [h]
  rcases Nat.mod_two_eq_zero_or_one x with hx | hx <;> rcases Nat.mod_two_eq_zero_or_one y with hy | hy <;> rw [hx, hy] <;> rfl

/-- Taking from a number the bits that it has in common with another clears those. -/
theorem testBit_sub_and (x y j : Nat) : (x - (x &&& y)).testBit j = (x.testBit j && !y.testBit j) := by
  induction j generalizing x y with
  | zero =>
    have hlow := and_mod_two x y
    have hle : (x &&& y) ≤ x := Nat.and_le_left
    simp only [Nat.testBit_zero]
    rcases Nat.mod_two_eq_zero_or_one x with hx | hx <;> rcases Nat.mod_two_eq_zero_or_one y with hy | hy <;>
      rw [hx, hy] at hlow <;> simp [hx, hy] <;> omega
  | succ j ih =>
    have hhalf : (x - (x &&& y)) / 2 = x / 2 - (x / 2 &&& y / 2) := by
      have hlow := and_mod_two x y
      have hdiv : (x &&& y) / 2 = x / 2 &&& y / 2 := Nat.and_div_two
      rcases Nat.mod_two_eq_zero_or_one y with hy | hy <;> rw [hy] at hlow <;> omega
    rw [Nat.testBit_succ, Nat.testBit_succ, Nat.testBit_succ, hhalf, ih]

theorem bitAt_eq_testBit (v j : Nat) : bitAt v j = v.testBit j := by
  rw [Nat.testBit_eq_decide_div_mod_eq]
  rfl

theorem bitAt_toNat {w : Nat} (b : BitVec w) (j : Nat) : bitAt b.toNat j = b.getLsbD j := bitAt_eq_testBit _ _

theorem bit_mod_two (b : Bool) : bit b % 2 = bit b := by cases b <;> rfl

theorem flag_wr_bit {s : State} (h : s.Canonical) {f : Fld} (hf : f.width = 1) (b : Bool) : (s.wr f (bit b)).flag f = b := by
  unfold State.flag
  rw [State.rd_wr_same h, hf]
  cases b <;> rfl

/-- A bit of a field set, read back beside the others. -/
theorem bitOf_setBit {s : State} (h : s.Canonical) {f : Fld} {i j : Nat} (hj : j < f.width) (b : Bool) :
    (s.setBit f i b).bitOf f j = if j = i then b else s.bitOf f j := by
  unfold State.bitOf State.setBit
  rw [State.rd_wr_same h, bitAt_mod hj]
  split
  · rename_i e
    rw [e, bitAt_setBitsAt_same]
  · rename_i e
    exact bitAt_setBitsAt_other _ _ _ _ e

theorem bitOf_setBit_other {s : State} (h : s.Canonical) {f g : Fld} {i : Nat} (j : Nat) (b : Bool) (hk : g.key ≠ f.key) :
    (s.setBit f i b).bitOf g j = s.bitOf g j := congrArg (bitAt · j) (State.rd_wr_other h f g _ hk)

/-! ### What `Does` leaves -/

theorem does_pins {fs : List Fld} {s t : State} (h : Does fs s t) : t.pins = s.pins := by
  obtain ⟨-, -, e⟩ := h
  unfold DeliveryOnly at e
  rw [e]

theorem does_mem {fs : List Fld} {s t : State} (h : Does fs s t) : t.mem = s.mem := by
  obtain ⟨-, -, e⟩ := h
  unfold DeliveryOnly at e
  rw [e]

theorem does_mono {fs gs : List Fld} {s t : State} (h : Does fs s t) (hsub : fs ⊆ gs) : Does gs s t :=
  ⟨h.1, fun g hg hk => h.2.1 g hg fun f hf => hk f (hsub hf), h.2.2⟩

/-- A pins' field that was not named reads the same. -/
theorem does_pin_rd {fs : List Fld} {s t : State} (h : Does fs s t) {g : Fld} (hg : pinKey g.key = true) (hk : ∀ f ∈ fs, g.key ≠ f.key) :
    t.rd g = s.rd g := h.2.1 g (pinKey_not_delivery hg) hk

/-! ### Level sources (R402) -/

theorem intcRaw_not_delivery {g : Nat} (h : g < 16) : deliveryKey (F.intcRaw_SRC g).key = false := by
  have ho : (F.intcRaw_SRC g).key % 2 ^ 30 / 64 = 0x100100 + g * 4 := by simp [Fld.key, Fld.group, F.intcRaw_SRC]; omega
  simp only [deliveryKey, ho]
  simp
  omega

/-- Once the input is written, a delivery is all that follows. -/
theorem does_afterRaw {fs : List Fld} {s : State} (h : s.Canonical) {n : Nat} (hn : n < 512) (b : Bool) :
    Does fs (s.setBit (F.intcRaw_SRC (n / 32)) (n % 32) b) (setLevel n b s) := by
  have hraw := does_refl (fs := fs) (State.setBit_canonical (x0 := s) (x1 := F.intcRaw_SRC (n / 32)) (x2 := n % 32) (x3 := b) h)
  unfold setLevel
  dsimp only
  refine does_deliverAgain ?_ []
  split
  · exact does_wr hraw (deliveryKey_pend (by omega))
  · exact hraw

/-- A change of a level source's input writes its raw word and delivers. -/
theorem does_setLevel {s : State} (h : s.Canonical) {n : Nat} (hn : n < 512) (b : Bool) : Does [F.intcRaw_SRC (n / 32)] s (setLevel n b s) :=
  does_trans (does_wr_named (does_refl h) (List.mem_singleton.2 rfl)) (does_afterRaw h hn b)

theorem isRaw_setLevel {s : State} (h : s.Canonical) {n : Nat} (hn : n < 512) (b : Bool) : (setLevel n b s).isRaw n = b := by
  have hafter := (does_afterRaw (fs := []) h hn b).2.1 (F.intcRaw_SRC (n / 32)) (intcRaw_not_delivery (by omega)) (by simp)
  unfold State.isRaw
  rw [hafter]
  exact (bitOf_setBit h (f := F.intcRaw_SRC (n / 32)) (Nat.mod_lt n (show 0 < 32 by decide)) b).trans (if_pos rfl)

/-! ### Flags of the pins (R599) -/

/-- The registers that a pin's flag and its source are written in: the source of each pin lies in raw word 13. -/
def pinFlagFlds : List Fld := [F.pinFlagLo_PIN, F.pinFlagHi_PIN, F.intcRaw_SRC 13]

theorem pinFlag_of_rd {s t : State} (hlo : t.rd F.pinFlagLo_PIN = s.rd F.pinFlagLo_PIN) (hhi : t.rd F.pinFlagHi_PIN = s.rd F.pinFlagHi_PIN)
    (j : Nat) : t.pinFlag j = s.pinFlag j := by
  unfold State.pinFlag pinBit State.bitOf
  rw [hlo, hhi]

theorem pinFlag_setPinBit {s : State} (h : s.Canonical) {i j : Nat} (hj : j < 112) (b : Bool) :
    (setPinBit F.pinFlagLo_PIN F.pinFlagHi_PIN i b s).pinFlag j = if j = i then b else s.pinFlag j := by
  unfold State.pinFlag pinBit setPinBit
  by_cases hj' : j < 64 <;> by_cases hi' : i < 64
  · simp only [if_pos hj', if_pos hi']
    exact bitOf_setBit h hj' b
  · simp only [if_pos hj', if_neg hi', if_neg (show j ≠ i by omega)]
    exact bitOf_setBit_other h j b (by decide)
  · simp only [if_neg hj', if_pos hi', if_neg (show j ≠ i by omega)]
    exact bitOf_setBit_other h _ b (by decide)
  · simp only [if_neg hj', if_neg hi']
    rw [bitOf_setBit h (show j - 64 < 48 by omega) b]
    exact if_congr (by omega) rfl rfl

theorem does_pinSource {s : State} (h : s.Canonical) {i : Nat} (hi : i < 112) : Does [F.intcRaw_SRC 13] s (pinSource i s) := by
  have hword : (416 + i / 4) / 32 = 13 := by omega
  have hlevel := does_setLevel h (n := 416 + i / 4) (by omega) ((List.range 4).any fun j => s.pinFlag (i / 4 * 4 + j))
  rwa [hword] at hlevel

theorem does_setPinFlag {s : State} (h : s.Canonical) {i : Nat} (hi : i < 112) (b : Bool) : Does pinFlagFlds s (setPinFlag i b s) := by
  have hbit : Does pinFlagFlds s (setPinBit F.pinFlagLo_PIN F.pinFlagHi_PIN i b s) := by
    unfold setPinBit
    split
    · exact does_wr_named (does_refl h) (by simp [pinFlagFlds])
    · exact does_wr_named (does_refl h) (by simp [pinFlagFlds])
  exact does_trans hbit (does_mono (does_pinSource hbit.1 hi) (by simp [pinFlagFlds]))

theorem pinFlag_setPinFlag {s : State} (h : s.Canonical) {i j : Nat} (hi : i < 112) (hj : j < 112) (b : Bool) :
    (setPinFlag i b s).pinFlag j = if j = i then b else s.pinFlag j := by
  have hc : (setPinBit F.pinFlagLo_PIN F.pinFlagHi_PIN i b s).Canonical := setPinBit_canonical h
  have hsource := does_pinSource hc hi
  rw [← pinFlag_setPinBit h hj]
  exact pinFlag_of_rd (hsource.2.1 _ (by decide) (by decide)) (hsource.2.1 _ (by decide) (by decide)) j

/-- A flag that is set asserts the source of its group. -/
theorem isRaw_setPinFlag {s : State} (h : s.Canonical) {i : Nat} (hi : i < 112) : (setPinFlag i true s).isRaw (416 + i / 4) = true := by
  have hc : (setPinBit F.pinFlagLo_PIN F.pinFlagHi_PIN i true s).Canonical := setPinBit_canonical h
  refine (isRaw_setLevel hc (n := 416 + i / 4) (by omega) _).trans (List.any_eq_true.2 ⟨i % 4, ?_, ?_⟩)
  · exact List.mem_range.2 (Nat.mod_lt _ (by decide))
  · rw [show i / 4 * 4 + i % 4 = i by omega, pinFlag_setPinBit h hi, if_pos rfl]

/-! ### Configuration of the pins, and what it reads as -/

theorem pinIrq_eq {i : Nat} {s t : State} (h : t.rd (F.pinCfg_IRQ i) = s.rd (F.pinCfg_IRQ i)) : t.pinIrq i = s.pinIrq i := by
  unfold State.pinIrq
  rw [h]

theorem pinFilt_eq {i : Nat} {s t : State} (h : t.rd (F.pinCfg_FILT i) = s.rd (F.pinCfg_FILT i))
    (hn : t.rd (F.pinFilt_N i) = s.rd (F.pinFilt_N i)) : t.pinFilt i = s.pinFilt i := by
  unfold State.pinFilt
  rw [h, hn]

theorem pinIrq_lt (i : Nat) (s : State) : s.pinIrq i < 6 := by
  unfold State.pinIrq
  split <;> omega

/-- What a new filtered level `v` writes to the flag of pin `i`, if anything (R599): an edge sets the flags of RISE, FALL and BOTH pins,
those of HIGH and LOW pins follow the level, and one of no kind is clear. -/
def State.pinNews (s : State) (i : Nat) (v suppressed : Bool) : Option Bool :=
  let edge := s.flag (F.pinState_FILTERED i) != v && !suppressed && !s.flag (F.pinState_SWITCHING i)
  match s.pinIrq i with
  | 1 => if edge && v then some true else none
  | 2 => if edge && !v then some true else none
  | 3 => if edge then some true else none
  | 4 => some v
  | 5 => some !v
  | _ => some false

/-- The flag of pin `i` written where there is something to write. -/
def putPinFlag (i : Nat) (o : Option Bool) (s : State) : State :=
  match o with
  | some b => setPinFlag i b s
  | none => s

theorem ite_putPinFlag (c : Prop) [Decidable c] (i : Nat) (b : Bool) (s : State) :
    (if c then setPinFlag i b s else s) = putPinFlag i (if c then some b else none) s := by
  split <;> rfl

theorem does_putPinFlag {s : State} (h : s.Canonical) {i : Nat} (hi : i < 112) (o : Option Bool) : Does pinFlagFlds s (putPinFlag i o s) := by
  cases o with
  | none => exact does_refl h
  | some b => exact does_setPinFlag h hi b

theorem pinFlag_putPinFlag {s : State} (h : s.Canonical) {i : Nat} (hi : i < 112) (o : Option Bool) :
    (putPinFlag i o s).pinFlag i = o.getD (s.pinFlag i) := by
  cases o with
  | none => rfl
  | some b => exact (pinFlag_setPinFlag h hi hi b).trans (if_pos rfl)

/-- A new filtered level is its field and, by the pin's kind, its flag. -/
theorem pinFiltered_eq {s : State} (h : s.Canonical) (i : Nat) (v sup : Bool) :
    pinFiltered i v sup s = putPinFlag i (s.pinNews i v sup) (s.wr (F.pinState_FILTERED i) (bit v)) := by
  have hirq : (s.wr (F.pinState_FILTERED i) (bit v)).pinIrq i = s.pinIrq i :=
    pinIrq_eq (State.rd_wr_other h _ _ _ (by simp [Fld.key, Fld.group, F.pinCfg_IRQ, F.pinState_FILTERED]; omega))
  have hsw : (s.wr (F.pinState_FILTERED i) (bit v)).flag (F.pinState_SWITCHING i) = s.flag (F.pinState_SWITCHING i) :=
    State.flag_eq (State.rd_wr_other h _ _ _ (by simp [Fld.key, Fld.group, F.pinState_SWITCHING, F.pinState_FILTERED]))
  have hfil : (s.wr (F.pinState_FILTERED i) (bit v)).flag (F.pinState_FILTERED i) = v := flag_wr_bit h rfl v
  unfold pinFiltered State.pinNews pinFollow
  simp only [hirq, hsw, hfil]
  have hlt := pinIrq_lt i s
  generalize s.pinIrq i = kind at hlt
  interval_cases kind
  · rfl
  · exact ite_putPinFlag _ i true _
  · exact ite_putPinFlag _ i true _
  · exact ite_putPinFlag _ i true _
  · rfl
  · rfl

/-- A pin's flag after a new filtered level, in the order of the kinds. -/
theorem pinNews_getD (i : Nat) (v sup : Bool) (s : State) :
    let edge := s.flag (F.pinState_FILTERED i) != v && !sup && !s.flag (F.pinState_SWITCHING i)
    let old := s.pinFlag i
    [false, old || (edge && v), old || (edge && !v), old || edge, v, !v].getD (s.pinIrq i) false = (s.pinNews i v sup).getD old := by
  dsimp only
  unfold State.pinNews
  dsimp only
  have hlt := pinIrq_lt i s
  generalize s.pinIrq i = kind at hlt
  generalize (s.flag (F.pinState_FILTERED i) != v && !sup && !s.flag (F.pinState_SWITCHING i)) = edge
  generalize s.pinFlag i = old
  interval_cases kind <;> cases edge <;> cases old <;> cases v <;> rfl

theorem does_pinFiltered {s : State} (h : s.Canonical) {i : Nat} (hi : i < 112) (v sup : Bool) :
    Does (F.pinState_FILTERED i :: pinFlagFlds) s (pinFiltered i v sup s) := by
  rw [pinFiltered_eq h]
  exact does_trans (does_wr_named (does_refl h) (by simp)) (does_mono (does_putPinFlag (State.wr_canonical h) hi _) (by simp))

/-- A field of one pin is none of the registers that hold a bit for each pin, nor a raw word. -/
theorem key_not_pinFlagFlds {g : Fld} {o : Nat} (ho : g.key % 2 ^ 30 / 64 = o) (h1 : 0xC00000 ≤ o) (h2 : o < 0xC00700) :
    ∀ f ∈ pinFlagFlds, g.key ≠ f.key := by
  simp only [pinFlagFlds, List.forall_mem_cons, List.not_mem_nil, false_implies, implies_true, and_true]
  refine ⟨?_, ?_, ?_⟩ <;> intro e <;> rw [e] at ho <;>
    simp [Fld.key, Fld.group, F.pinFlagLo_PIN, F.pinFlagHi_PIN, F.intcRaw_SRC] at ho <;> omega

theorem state_not_pinFlagFlds {i : Nat} (hi : i < 112) :
    (∀ f ∈ pinFlagFlds, (F.pinState_SYNC i).key ≠ f.key) ∧ ∀ f ∈ pinFlagFlds, (F.pinState_FILTERED i).key ≠ f.key := by
  refine ⟨?_, ?_⟩ <;> refine key_not_pinFlagFlds (o := 0xC00008 + i * 0x10) ?_ (by omega) (by omega) <;>
    simp [Fld.key, Fld.group, F.pinState_SYNC, F.pinState_FILTERED] <;> omega

theorem rd_sync_pinFiltered {s : State} (h : s.Canonical) {i : Nat} (hi : i < 112) (v sup : Bool) :
    (pinFiltered i v sup s).rd (F.pinState_SYNC i) = s.rd (F.pinState_SYNC i) := by
  refine does_pin_rd (does_pinFiltered h hi v sup) (pinKey_state hi).1 (List.forall_mem_cons.2 ⟨?_, (state_not_pinFlagFlds hi).1⟩)
  simp [Fld.key, Fld.group, F.pinState_SYNC, F.pinState_FILTERED]

theorem rd_filtered_pinFiltered {s : State} (h : s.Canonical) {i : Nat} (hi : i < 112) (v sup : Bool) :
    (pinFiltered i v sup s).rd (F.pinState_FILTERED i) = bit v := by
  rw [pinFiltered_eq h, does_pin_rd (does_putPinFlag (State.wr_canonical h) hi _) (pinKey_state hi).2.1 (state_not_pinFlagFlds hi).2,
    State.rd_wr_same h]
  exact bit_mod_two v

theorem pinFlag_pinFiltered {s : State} (h : s.Canonical) {i : Nat} (hi : i < 112) (v sup : Bool) :
    (pinFiltered i v sup s).pinFlag i = (s.pinNews i v sup).getD (s.pinFlag i) := by
  have hne := (state_not_pinFlagFlds hi).2
  rw [pinFiltered_eq h, pinFlag_putPinFlag (State.wr_canonical h) hi,
    pinFlag_of_rd (State.rd_wr_other h _ _ _ (hne _ (by simp [pinFlagFlds])).symm)
      (State.rd_wr_other h _ _ _ (hne _ (by simp [pinFlagFlds])).symm)]

/-- A flag that a new filtered level sets asserts the source of its group. -/
theorem isRaw_pinFiltered {s : State} (h : s.Canonical) {i : Nat} (hi : i < 112) {v sup : Bool} (hn : s.pinNews i v sup = some true) :
    (pinFiltered i v sup s).isRaw (416 + i / 4) = true := by
  rw [pinFiltered_eq h, hn]
  exact isRaw_setPinFlag (State.wr_canonical h) hi

/-! ### The synchronised level (R595) -/

/-- Pin `i` has the synchronised level `level` in `u`; every other field of the pins reads as in `s`. -/
def SyncedAt (i : Nat) (level : Bool) (s u : State) : Prop :=
  u.Canonical ∧ u.rd (F.pinState_SYNC i) = bit level ∧
    ∀ g : Fld, pinKey g.key = true → g.key ≠ (F.pinState_SYNC i).key → u.rd g = s.rd g

theorem pinSync_pins (i : Nat) (level : Bool) (s : State) : (pinSync i level s).pins = s.pins := timerPins_pins _ _

theorem syncedAt_pinSync {s : State} (h : s.Canonical) {i : Nat} (hi : i < 112) (level : Bool) : SyncedAt i level s (pinSync i level s) := by
  obtain ⟨hc, hrd⟩ := moves_timerPins (moves_refl (State.wr_canonical h (x1 := F.pinState_SYNC i) (x2 := bit level))) s
  refine ⟨hc, ?_, fun g hg hk => ?_⟩
  · exact ((hrd _ (pinKey_not_timer (pinKey_state hi).1)).trans (State.rd_wr_same h _ _)).trans (bit_mod_two level)
  · exact (hrd g (pinKey_not_timer hg)).trans (State.rd_wr_other h _ _ _ hk)

theorem syncedAt_pins {i : Nat} {level : Bool} {s u : State} (h : SyncedAt i level s u) (w : PinsState) :
    SyncedAt i level s { u with pins := w } := by
  obtain ⟨hc, hsync, hrd⟩ := h
  exact ⟨rest_canonical hc, hsync, hrd⟩

section
variable {i : Nat} {level : Bool} {s u : State}

theorem syncedAt_cfg (h : SyncedAt i level s u) (hi : i < 112) :
    u.rd (F.pinCfg_INV_IN i) = s.rd (F.pinCfg_INV_IN i) ∧ u.rd (F.pinCfg_IRQ i) = s.rd (F.pinCfg_IRQ i) ∧
      u.rd (F.pinCfg_FILT i) = s.rd (F.pinCfg_FILT i) ∧ u.rd (F.pinFilt_N i) = s.rd (F.pinFilt_N i) := by
  obtain ⟨-, -, hrd⟩ := h
  obtain ⟨hinv, hirq, hfilt, hn⟩ := pinKey_cfg hi
  refine ⟨hrd _ hinv ?_, hrd _ hirq ?_, hrd _ hfilt ?_, hrd _ hn ?_⟩ <;>
    simp [Fld.key, Fld.group, F.pinCfg_INV_IN, F.pinCfg_IRQ, F.pinCfg_FILT, F.pinFilt_N, F.pinState_SYNC] <;> omega

theorem syncedAt_filtered (h : SyncedAt i level s u) {j : Nat} (hj : j < 112) :
    u.rd (F.pinState_FILTERED j) = s.rd (F.pinState_FILTERED j) :=
  h.2.2 _ (pinKey_state hj).2.1 (by simp [Fld.key, Fld.group, F.pinState_FILTERED, F.pinState_SYNC]; omega)

theorem syncedAt_switching (h : SyncedAt i level s u) (hi : i < 112) :
    u.rd (F.pinState_SWITCHING i) = s.rd (F.pinState_SWITCHING i) :=
  h.2.2 _ (pinKey_state hi).2.2 (by simp [Fld.key, Fld.group, F.pinState_SWITCHING, F.pinState_SYNC])

theorem syncedAt_pinFlag (h : SyncedAt i level s u) (hi : i < 112) (j : Nat) : u.pinFlag j = s.pinFlag j := by
  obtain ⟨-, -, hrd⟩ := h
  have hne := (state_not_pinFlagFlds hi).1
  exact pinFlag_of_rd (hrd _ (by decide) (hne _ (by simp [pinFlagFlds])).symm) (hrd _ (by decide) (hne _ (by simp [pinFlagFlds])).symm) j

/-- The level after INV_IN (R594). -/
theorem syncedAt_pinLevel (h : SyncedAt i level s u) (hi : i < 112) : u.pinLevel i = (level != s.flag (F.pinCfg_INV_IN i)) := by
  have hsync : u.flag (F.pinState_SYNC i) = level := by
    unfold State.flag
    rw [h.2.1]
    cases level <;> rfl
  unfold State.pinLevel
  rw [hsync, State.flag_eq (syncedAt_cfg h hi).1]

theorem syncedAt_pinFilt (h : SyncedAt i level s u) (hi : i < 112) : u.pinFilt i = s.pinFilt i := by
  obtain ⟨-, -, hfilt, hn⟩ := syncedAt_cfg h hi
  exact pinFilt_eq hfilt hn

theorem syncedAt_pinNews (h : SyncedAt i level s u) (hi : i < 112) (v sup : Bool) : u.pinNews i v sup = s.pinNews i v sup := by
  unfold State.pinNews
  rw [pinIrq_eq (syncedAt_cfg h hi).2.1, State.flag_eq (syncedAt_filtered h hi), State.flag_eq (syncedAt_switching h hi)]

end

/-! ### An accepted level (R598) -/

/-- The filtered level takes the synchronised one, and a change under DEBOUNCE opens the pin's window. -/
theorem pinAccept_eq (i : Nat) (sup : Bool) (u : State) : ∃ w : PinsState,
    pinAccept i sup u = pinFiltered i (u.pinLevel i) sup { u with pins := w } ∧
    (u.pins.window.contains i = false →
      w.window.contains i = (u.pinFilt i == 2 && u.pinLevel i != u.flag (F.pinState_FILTERED i))) := by
  unfold pinAccept
  dsimp only
  split
  · rename_i hopen
    exact ⟨_, rfl, fun _ => by simp [hopen]⟩
  · rename_i hshut
    refine ⟨u.pins, rfl, fun hw => ?_⟩
    rw [hw]
    by_cases hf : u.pinFilt i = 2
    · simp_all
    · simp [hf]

/-- What the acceptance of `level` for pin `i` leaves. -/
def AcceptedAt (i : Nat) (level sup : Bool) (s t : State) : Prop :=
  let taken := level != s.flag (F.pinCfg_INV_IN i)
  t.rd (F.pinState_SYNC i) = bit level ∧ t.rd (F.pinState_FILTERED i) = bit taken ∧
    t.pinFlag i = (s.pinNews i taken sup).getD (s.pinFlag i) ∧
    (s.pinNews i taken sup = some true → t.isRaw (416 + i / 4) = true) ∧
    t.pins.window.contains i = (s.pinFilt i == 2 && taken != s.flag (F.pinState_FILTERED i))

theorem acceptedAt_pinAccept {i : Nat} (hi : i < 112) {level : Bool} (sup : Bool) {s u : State} (h : SyncedAt i level s u)
    (hw : u.pins.window.contains i = false) : AcceptedAt i level sup s (pinAccept i sup u) := by
  obtain ⟨w, heq, hwindow⟩ := pinAccept_eq i sup u
  have hopen := hwindow hw
  rw [syncedAt_pinLevel h hi, syncedAt_pinFilt h hi, State.flag_eq (syncedAt_filtered h hi)] at hopen
  rw [syncedAt_pinLevel h hi] at heq
  have hu := syncedAt_pins h w
  rw [AcceptedAt, heq]
  refine ⟨(rd_sync_pinFiltered hu.1 hi _ _).trans hu.2.1, rd_filtered_pinFiltered hu.1 hi _ _, ?_, fun hn => ?_, ?_⟩
  · rw [pinFlag_pinFiltered hu.1 hi, syncedAt_pinNews hu hi, syncedAt_pinFlag hu hi]
  · exact isRaw_pinFiltered hu.1 hi ((syncedAt_pinNews hu hi _ _).trans hn)
  · rw [does_pins (does_pinFiltered hu.1 hi _ _)]
    exact hopen

/-! ### Direct writes of the pins' registers (R26, R31) -/

/-- The initiators that may write a register of the firmware's that no core sees do not stand for the host. -/
theorem isHost_of_mayWrite {who : Initiator} (h : mayWrite false none false (initiatorTag who) = true) : isHost who = false := by
  cases who with
  | bar => cases h
  | dataPort => cases h
  | _ => rfl

/-- No register of the pins lies in a unit that can be trimmed (R534). -/
theorem irsTrimmed_pins (s : State) {off : Nat} (h : off / 0x100000 = 12) : s.irsTrimmed off = false := by
  simp [State.irsTrimmed, trimBits, h]

theorem pinWrite_allowed {who : Initiator} {off : Nat} (ho : off / 0x100000 = 12) (hreach : reaches who .irs = true)
    (hmay : mayWrite false none false (initiatorTag who) = true) (bits : Nat) (f : State → State) (s : State) :
    pinWrite who off bits f s = f s := by
  have hshut : s.shutOut who off = false := by simp [State.shutOut, irsTrimmed_pins s ho, isHost_of_mayWrite hmay]
  simp [pinWrite, writeIrs, onIrs, hreach, hshut, hmay]

theorem pinWrite_dropped {who : Initiator} (off : Nat) (hreach : reaches who .irs = true)
    (hmay : ¬ mayWrite false none false (initiatorTag who) = true) (bits : Nat) (f : State → State) (s : State) :
    pinWrite who off bits f s = droppedBy (initiatorTag who) off bits s := by
  simp [pinWrite, writeIrs, onIrs, hreach, hmay]

theorem pinWrite_unreached {who : Initiator} (off : Nat) (hreach : ¬ reaches who .irs = true) (bits : Nat) (f : State → State) (s : State) :
    pinWrite who off bits f s = decodeError who (irsBase + off) s := by
  simp [pinWrite, writeIrs, onIrs, hreach]

/-- The register of pins' outputs, of pins 64 to 111 where `hi` says so. -/
def pinDoutFld (hi : Bool) : Fld := if hi then F.pinDoutHi_PIN else F.pinDoutLo_PIN

theorem pinWrite_dropped_leaves {s : State} (h : s.Canonical) {who : Initiator} (off : Nat) (hreach : reaches who .irs = true)
    (hmay : ¬ mayWrite false none false (initiatorTag who) = true) (bits : Nat) (f : State → State) (hi : Bool) :
    let t := pinWrite who off bits f s
    Counted F.hifDroppedWr_COUNT s t ∧ Pends 17 s t ∧ t.rd (pinDoutFld hi) = s.rd (pinDoutFld hi) := by
  dsimp only
  rw [pinWrite_dropped off hreach hmay]
  obtain ⟨hcount, hpend, hrd⟩ := droppedBy_counts h who off bits
  exact ⟨hcount, hpend, by cases hi <;> exact hrd _ (by decide) (by decide) (by decide)⟩

theorem pinWrite_unreached_leaves {s : State} (h : s.Canonical) {who : Initiator} (off : Nat) (hreach : ¬ reaches who .irs = true)
    (bits : Nat) (f : State → State) (hi : Bool) :
    let t := pinWrite who off bits f s
    Counted F.hifDecodeErr_COUNT s t ∧ Pends 16 s t ∧ t.rd (pinDoutFld hi) = s.rd (pinDoutFld hi) := by
  dsimp only
  rw [pinWrite_unreached off hreach]
  obtain ⟨-, hcount, hpend, honly⟩ := decodeError_counts h who (irsBase + off)
  exact ⟨hcount, hpend, by cases hi <;> exact honly _ (by decide) (by decide)⟩

/-! ### Writes of ones (R599, R601) -/

/-- Ones in a list of places, from pin `base` on, clear the flags of the pins whose flag does not follow a level; memory stays. -/
theorem pinFlag_clear {base k : Nat} (hk : k < 112) {l : List Nat} (hl : ∀ j ∈ l, base + j < 112) {s : State} (h : s.Canonical) :
    let t := s.forL l fun j s => if s.pinIrq (base + j) = 4 ∨ s.pinIrq (base + j) = 5 then s else setPinFlag (base + j) false s
    t.mem = s.mem ∧ t.pinFlag k = (s.pinFlag k && !(l.any (base + · == k) && s.pinIrq k != 4 && s.pinIrq k != 5)) := by
  induction l generalizing s with
  | nil => simp [State.forL]
  | cons j l ih =>
    have hj : base + j < 112 := hl j (by simp)
    have hl' : ∀ j ∈ l, base + j < 112 := fun j hm => hl j (by simp [hm])
    by_cases hfollow : s.pinIrq (base + j) = 4 ∨ s.pinIrq (base + j) = 5
    · obtain ⟨hmem, hflag⟩ := ih hl' h
      simp only [State.forL, List.foldl_cons, if_pos hfollow]
      refine ⟨hmem, hflag.trans ?_⟩
      by_cases e : base + j = k
      · subst e
        rcases hfollow with h4 | h5 <;> simp [*]
      · simp [beq_false_of_ne e]
    · have hset := does_setPinFlag h hj false
      obtain ⟨hmem, hflag⟩ := ih hl' hset.1
      simp only [State.forL, List.foldl_cons, if_neg hfollow]
      have hirq : (setPinFlag (base + j) false s).pinIrq k = s.pinIrq k := by
        refine pinIrq_eq (does_pin_rd hset (pinKey_cfg hk).2.1 (key_not_pinFlagFlds (o := 0xC00000 + k * 0x10) ?_ (by omega) (by omega)))
        simp [Fld.key, Fld.group, F.pinCfg_IRQ]
        omega
      refine ⟨hmem.trans (does_mem hset), hflag.trans ?_⟩
      rw [hirq, pinFlag_setPinFlag h hj hk]
      by_cases e : base + j = k
      · subst e
        simp_all
      · simp [beq_false_of_ne e, Ne.symm e]

/-- The pins that the ones of a write name, of which one of the high register has 48. -/
theorem any_bitsSet {hi : Bool} (bits : BitVec 64) {k : Nat} (hk : k < 112) :
    (bitsSet (if hi then 48 else 64) bits.toNat).any ((if hi then 64 else 0) + · == k) =
      if hi then decide (64 ≤ k) && bits.getLsbD (k - 64) else decide (k < 64) && bits.getLsbD k := by
  rw [Bool.eq_iff_iff]
  cases hi with
  | false => simp [bitsSet, bitAt_toNat]
  | true =>
    simp only [bitsSet, bitAt_toNat, if_true, List.any_eq_true, List.mem_filter, List.mem_range, beq_iff_eq, Bool.and_eq_true,
      decide_eq_true_eq]
    constructor
    · rintro ⟨x, ⟨-, hx⟩, rfl⟩
      exact ⟨by omega, by rwa [Nat.add_sub_cancel_left]⟩
    · rintro ⟨hge, hx⟩
      exact ⟨k - 64, ⟨by omega, hx⟩, by omega⟩

theorem pinFlagClear_leaves {s : State} (h : s.Canonical) (hi : Bool) (bits : BitVec 64) :
    let t := pinFlagClear hi bits.toNat s
    t.mem = s.mem ∧ ∀ k : Fin 112, t.pinFlag k.val = (s.pinFlag k.val &&
      !((if hi then decide (64 ≤ k.val) && bits.getLsbD (k.val - 64) else decide (k.val < 64) && bits.getLsbD k.val) &&
        s.pinIrq k.val != 4 && s.pinIrq k.val != 5)) := by
  have hl : ∀ j ∈ bitsSet (if hi then 48 else 64) bits.toNat, (if hi then 64 else 0) + j < 112 := fun j hj => by
    have hlt := List.mem_range.1 (List.mem_filter.1 hj).1
    cases hi <;> simp at hlt ⊢ <;> omega
  refine ⟨(pinFlag_clear (k := 0) (by decide) hl h).1, fun k => ?_⟩
  rw [← any_bitsSet bits k.isLt]
  exact (pinFlag_clear k.isLt hl h).2

theorem only_wr {s : State} (h : s.Canonical) (f : Fld) (v : Nat) : Only [f] s (s.wr f v) :=
  ⟨fun g hg => State.rd_wr_other h f g v (hg f (by simp)), rfl⟩

/-- Ones set output bits. -/
theorem pinDout_set_leaves {s : State} (h : s.Canonical) (hi : Bool) (bits : Nat) :
    Only [pinDoutFld hi] s (pinDout hi true bits s) ∧
      (pinDout hi true bits s).rd (pinDoutFld hi) = s.rd (pinDoutFld hi) ||| bits % 2 ^ (pinDoutFld hi).width := by
  refine ⟨only_wr h _ _, (State.rd_wr_same h _ _).trans (Nat.mod_eq_of_lt ?_)⟩
  exact Nat.or_lt_two_pow (State.rd_lt _ _) (Nat.mod_lt _ (Nat.two_pow_pos _))

/-- Ones clear output bits. -/
theorem pinDout_clr_leaves {s : State} (h : s.Canonical) (hi : Bool) (bits : BitVec 64) :
    Only [pinDoutFld hi] s (pinDout hi false bits.toNat s) ∧ ∀ j, j < (pinDoutFld hi).width →
      bitAt ((pinDout hi false bits.toNat s).rd (pinDoutFld hi)) j = (bitAt (s.rd (pinDoutFld hi)) j && !bits.getLsbD j) := by
  refine ⟨only_wr h _ _, fun j hj => ?_⟩
  have hrd : (pinDout hi false bits.toNat s).rd (pinDoutFld hi) = (s.rd (pinDoutFld hi) - (s.rd (pinDoutFld hi) &&&
      bits.toNat % 2 ^ (pinDoutFld hi).width)) % 2 ^ (pinDoutFld hi).width := State.rd_wr_same h _ _
  rw [hrd, bitAt_mod hj, ← bitAt_toNat, ← bitAt_mod (x := bits.toNat) hj]
  simp only [bitAt_eq_testBit]
  exact testBit_sub_and _ _ _

/-! ### The pins' commands -/

/-- The synchronised level alone: the filtered levels, the flags and the windows stay, and so does all else where no timer sees it. -/
theorem pinSync_leaves {s : State} (h : s.Canonical) {i : Nat} (hi : i < 112) (level : Bool) :
    let t := pinSync i level s
    t.rd (F.pinState_SYNC i) = bit level ∧ t.pins = s.pins ∧
      (∀ j : Fin 112, t.rd (F.pinState_FILTERED j.val) = s.rd (F.pinState_FILTERED j.val) ∧ t.pinFlag j.val = s.pinFlag j.val) ∧
      ((∀ n : Fin 64, (s.wr (F.pinState_SYNC i) (bit level)).timerIn n.val = s.timerIn n.val) → Only [F.pinState_SYNC i] s t) := by
  have hat := syncedAt_pinSync h hi level
  refine ⟨hat.2.1, pinSync_pins i level s, fun j => ⟨syncedAt_filtered hat j.isLt, syncedAt_pinFlag hat hi j.val⟩, fun hunseen => ?_⟩
  rw [show pinSync i level s = s.wr (F.pinState_SYNC i) (bit level) from timerPins_eq_self fun n hn => hunseen ⟨n, hn⟩]
  exact only_wr h _ _

/-- A flag that rises was written. -/
theorem eq_some_of_getD {o : Option Bool} {old : Bool} (h : o.getD old = true) (hold : old = false) : o = some true := by
  cases o with
  | none => exact absurd (hold.symm.trans h) (by decide)
  | some b => exact congrArg some h

/-- A level that the filter does not take, or that falls in an open window, is synchronised alone. -/
theorem exec_pinFilterChange_refused {s : State} (h : s.Canonical) (i : Fin 112) (level : Bool) {accept : Bool} (sup : Bool)
    (hno : (accept && !(s.pinFilt i.val == 2 && s.pins.window.contains i.val)) = false) :
    exec (.pinFilterChange i level accept sup) s = .next (pinSync i.val level s) := by
  rw [← syncedAt_pinFilt (syncedAt_pinSync h i.isLt level) i.isLt, ← pinSync_pins i.val level s] at hno
  change execPinFilterChange i level accept sup s = _
  simp only [execPinFilterChange, hno, Bool.false_eq_true, if_false]

/-- A level that the filter takes is synchronised and accepted. -/
theorem exec_pinFilterChange_taken {s : State} (i : Fin 112) (level sup : Bool) (hw : s.pins.window.contains i.val = false) :
    exec (.pinFilterChange i level true sup) s = .next (pinAccept i.val sup (pinSync i.val level s)) := by
  change execPinFilterChange i level true sup s = _
  simp only [execPinFilterChange, pinSync_pins, hw, Bool.and_false, Bool.not_false, Bool.and_self, if_true]

theorem exec_pinDebounceEnd_shut {s : State} (i : Fin 112) (level sup : Bool) (hw : s.pins.window.contains i.val = false) :
    exec (.pinDebounceEnd i level sup) s = .next s := by
  change execPinDebounceEnd i level sup s = _
  simp only [execPinDebounceEnd, hw, Bool.not_false, if_true]

theorem exec_pinDebounceEnd_open {s : State} (i : Fin 112) (level sup : Bool) (hw : s.pins.window.contains i.val = true) :
    exec (.pinDebounceEnd i level sup) s =
      .next (pinAccept i.val sup (onPins (fun p => { p with window := p.window.filter (· != i.val) }) (pinSync i.val level s))) := by
  change execPinDebounceEnd i level sup s = _
  simp only [execPinDebounceEnd, hw, Bool.not_true, Bool.false_eq_true, if_false]

theorem window_shut_filter (l : List Nat) (i : Nat) : (l.filter (· != i)).contains i = false := by
  simp

/-! ### An xSPI write beside a command that waits for a peer

`casc.blocked` and `casc.ask` note that a tunnelled access has no answer yet. `withPeer` clears them before it runs a command (R524);
`execXspiWrite` writes a mailbox area without `withPeer`, so there they stay. `State.Canonical` says nothing of them, and a LOAD section
whose target is a peer window (`loadPiece`) sets them outside `withPeer` too. -/

theorem State.setBytes_casc (s : State) (a : Nat) (bs : List Byte) : (s.setBytes a bs).casc = s.casc := by
  induction bs generalizing s a with
  | nil => rfl
  | cons b bs ih => exact ih (s.setByte a b) (a + 1)

/-- The xSPI target is enabled, and a tunnelled access was left without its answer. -/
def blockedTarget : State :=
  { State.reset with
    cells := [(F.pinStraps_XSPI_TGT_EN.key, 1)]
    casc := { State.reset.casc with blocked := true } }

theorem blockedTarget_canonical : blockedTarget.Canonical where
  cells := by unfold Sparse.Rising; decide
  latched := State.reset_canonical.latched
  snap := State.reset_canonical.snap
  params := State.reset_canonical.params
  mem := State.reset_canonical.mem
  vat := State.reset_canonical.vat
  flash := State.reset_canonical.flash

/-- One byte written over xSPI into the request area of mailbox 0. -/
theorem exec_xspiWrite_blockedTarget :
    exec (.xspiWrite 0x20000 [0]) blockedTarget = .next (blockedTarget.setBytes (irsBase + 0x20000) [0]) := rfl

end Sys2Proof.Machine

section
open Sys2Proof Sys2Proof.Machine
set_option Elab.async false

/-- Settles O2: the meaning of every command of the table is a next state by its form. -/
theorem everyCommandCompletes : Obligations.EveryCommandCompletes := by
  intro c s
  cases c <;> exact ⟨_, rfl⟩

/-- Refutes O52: an xSPI write into a mailbox area leaves what the cascade notes of a waiting command, where the statement has it cleared.
At `blockedTarget` the note stands after the write. -/
theorem not_hostLink : ¬ Obligations.HostLink := by
  unfold Obligations.HostLink
  intro h
  obtain ⟨-, hArea, -⟩ := h blockedTarget 0 0 0 0 0 [0] false false ⟨0, false, 0, 0, 0, 0, 0, false⟩ blockedTarget_canonical
  obtain ⟨t, hexec, ht⟩ := hArea (by decide) (by decide) (by decide) (by decide) (by decide)
  have hblocked : t.casc.blocked = true := by
    rw [← Host.Outcome.next.inj (exec_xspiWrite_blockedTarget.symm.trans hexec), State.setBytes_casc]
    rfl
  rw [ht] at hblocked
  cases hblocked

/-- Settles O60: a level that the filter does not take is synchronised alone (`pinSync_leaves`); one that it takes is accepted
(`acceptedAt_pinAccept`); a direct write reaches its register, is dropped, or is a decode error (`pinWrite_allowed`,
`pinWrite_dropped_leaves`, `pinWrite_unreached_leaves`). -/
theorem pins : Obligations.Pins := by
  unfold Obligations.Pins
  intro s i level suppressed who bits hi h reach allowed taken was edge old flag window out named dropped decodeErr seen unseen synced accepted
  have hi112 := i.isLt
  have hat : SyncedAt i.val level s (pinSync i.val level s) := syncedAt_pinSync h hi112 level
  have hsynced : synced (pinSync i.val level s) := pinSync_leaves h hi112 level
  have haccepted : ∀ t, AcceptedAt i.val level suppressed s t → accepted t := by
    rintro t ⟨hsync, hfiltered, hflag, hraw, hwindow⟩
    have hnews : flag = (s.pinNews i.val taken suppressed).getD old := pinNews_getD i.val taken suppressed s
    exact ⟨hsync, hfiltered, hflag.trans hnews.symm, fun hset hold => hraw (eq_some_of_getD (hnews ▸ hset) hold), hwindow⟩
  refine ⟨?_, ?_, ?_, ?_, ?_, ?_, ?_, ?_, ?_, ?_, ?_⟩
  · exact ⟨s.clr (F.pinState_SWITCHING i.val), rfl, State.rd_wr_same h _ _, only_wr h _ _⟩
  · exact ⟨_, exec_pinFilterChange_refused h i level suppressed rfl, hsynced⟩
  · intro hw
    refine ⟨_, exec_pinFilterChange_taken i level suppressed hw, haccepted _ (acceptedAt_pinAccept hi112 suppressed hat ?_)⟩
    rw [pinSync_pins]
    exact hw
  · intro hw hfilt
    have hno : (true && !(s.pinFilt i.val == 2 && window)) = false := by rw [hfilt, hw]; rfl
    exact ⟨_, exec_pinFilterChange_refused h i level suppressed hno, hsynced⟩
  · exact fun hw => ⟨_, exec_pinDebounceEnd_shut i level suppressed hw, rfl⟩
  · intro hw
    exact ⟨_, exec_pinDebounceEnd_open i level suppressed hw,
      haccepted _ (acceptedAt_pinAccept hi112 suppressed (syncedAt_pins hat _) (window_shut_filter _ _))⟩
  · exact fun hr ha => ⟨_, rfl, by rw [pinWrite_allowed (by cases hi <;> rfl) hr ha]; exact pinFlagClear_leaves h hi bits⟩
  · exact fun hr ha => ⟨_, rfl, by rw [pinWrite_allowed (by cases hi <;> rfl) hr ha]; exact pinDout_set_leaves h hi _⟩
  · exact fun hr ha => ⟨_, rfl, by rw [pinWrite_allowed (by cases hi <;> rfl) hr ha]; exact pinDout_clr_leaves h hi bits⟩
  · exact fun hr ha => ⟨⟨_, rfl, pinWrite_dropped_leaves h _ hr ha _ _ hi⟩, ⟨_, rfl, pinWrite_dropped_leaves h _ hr ha _ _ hi⟩,
      ⟨_, rfl, pinWrite_dropped_leaves h _ hr ha _ _ hi⟩⟩
  · exact fun hr => ⟨⟨_, rfl, pinWrite_unreached_leaves h _ hr _ _ hi⟩, ⟨_, rfl, pinWrite_unreached_leaves h _ hr _ _ hi⟩,
      ⟨_, rfl, pinWrite_unreached_leaves h _ hr _ _ hi⟩⟩
end

namespace Sys2Proof.Machine

-- One declaration after another: the memory limit of the check counts the stack of every thread that elaborates beside them.
set_option Elab.async false

/-! ### What leaves BEAM_NOW (R46, R54) -/

/-- The offset of a field is in its key. -/
theorem Fld.key_offset {f : Fld} (hoff : f.off < 2 ^ 24) (hlsb : f.lsb < 64) : f.key % 2 ^ 30 / 64 = f.off := by
  unfold Fld.key
  omega

/-- Every key but those of BEAM_NOW's fields. -/
def besideBeam (k : Nat) : Bool := k % 2 ^ 30 / 64 != beamNowOff

theorem besideBeam_of {f : Fld} (hoff : f.off < 2 ^ 24) (hlsb : f.lsb < 64) (hne : f.off ≠ beamNowOff) : besideBeam f.key = true := by
  rw [besideBeam, Fld.key_offset hoff hlsb]
  simpa using hne

theorem besideBeam_timer {k : Nat} (h : timerKey k = true) : besideBeam k = true := by
  have hne : k % 2 ^ 30 / 64 ≠ 0x200008 := by
    simp [timerKey, deliveryKey] at h
    omega
  simpa [besideBeam, beamNowOff] using hne

theorem besideBeam_delivery {k : Nat} (h : deliveryKey k = true) : besideBeam k = true := besideBeam_timer (timerKey_delivery h)

theorem moves_ite {K : Nat → Bool} {c : Prop} [Decidable c] {s t u : State} (ht : Moves K s t) (hu : Moves K s u) :
    Moves K s (if c then t else u) := by
  split
  · exact ht
  · exact hu

theorem moves_onCasc {K : Nat → Bool} {s t : State} (h : Moves K s t) (f : CascState → CascState) : Moves K s (onCasc f t) :=
  moves_rest h

/-! Of what a line or frame start does besides moving the beam, no part writes BEAM_NOW. -/

section
variable {s t : State} (h : Moves besideBeam s t)
include h

theorem beam_raise (n : Nat) : Moves besideBeam s (raise n t) := moves_raise h (fun _ => besideBeam_delivery) n

theorem beam_timerSource (src : Nat) : Moves besideBeam s (timerSource src t) :=
  moves_trans h (moves_mono (moves_timerSource (moves_refl h.1) src) fun _ => besideBeam_timer)

theorem beam_pipeRaise (p i : Nat) : Moves besideBeam s (pipeRaise p i t) := by
  unfold pipeRaise
  split
  · exact h
  · exact beam_raise (by exact moves_rest h) _

theorem beam_lockRestart {n : Nat} (hn : n < 8) : Moves besideBeam s (lockRestart n t) := by
  have hfld : besideBeam (F.lockStatus_STATE n).key = true ∧ besideBeam (F.lockStatus_ERROR n).key = true := by
    refine ⟨besideBeam_of ?_ ?_ ?_, besideBeam_of ?_ ?_ ?_⟩ <;> simp [F.lockStatus_STATE, F.lockStatus_ERROR, beamNowOff] <;> omega
  have hstatus (f : LockRun → LockRun) :
      Moves besideBeam s (((onLock n f t).wr (F.lockStatus_STATE n) 1).clr (F.lockStatus_ERROR n)) :=
    moves_clr (moves_wr (by exact moves_rest h) hfld.1) hfld.2
  exact moves_ite (beam_pipeRaise (hstatus _) n 8) (hstatus _)

/-- A waiting setting comes into force (R47). -/
theorem beam_applySetting : Moves besideBeam s (applySetting t) := by
  unfold applySetting
  split
  · exact h
  · next r _ =>
    have hregs : Moves besideBeam s (setRefRegs r t) := by
      unfold setRefRegs
      exact moves_wr (moves_wr (moves_wr (moves_wr (moves_wr (moves_wr h (by decide)) (by decide)) (by decide)) (by decide)) (by decide))
        (by decide)
    refine beam_raise (moves_forL (moves_clr (moves_clr (moves_rest hregs) (by decide)) (by decide)) fun n hn u hu => ?_) 482
    exact beam_lockRestart hu (List.mem_range.1 (List.mem_filter.1 hn).1)

theorem beam_frameFlags : Moves besideBeam s (frameFlags t) := by
  have hlink : ∀ l, l < 2 → besideBeam (F.cascLC0max_SLOTS l).key = true := by decide
  have hrind : Moves besideBeam s (t.wr F.rindC0Maxlat_CCLK (min 65535 t.rind.maxlat)) := moves_wr h (by decide)
  unfold frameFlags
  dsimp only
  refine moves_onCasc (moves_wr (K := besideBeam) (moves_forN ?_ fun l hl u hu => ?_) (f := F.cascTimeMax_ERROR) (by decide)) _
  · exact moves_rest hrind
  · exact moves_rest (moves_wr (v := min 255 (u.link l).c0max) hu (hlink l hl))

theorem beam_countSyncs : Moves besideBeam s (countSyncs t) := moves_forL h fun _ _ _ hu => moves_rest hu

theorem beam_showCounts {id : Nat} (hid : unitKnown id = true) : Moves besideBeam s (showCounts id t) := by
  have hkind : id / 256 < 10 := by
    by_contra hge
    obtain ⟨j, hj⟩ : ∃ j, id / 256 = j + 10 := ⟨id / 256 - 10, by omega⟩
    simp [unitKnown, unitCount, hj] at hid
  have hunit : id % 256 < 256 := Nat.mod_lt _ (by decide)
  have hfld : besideBeam (F.fltU_COUNT60 (id / 256) (id % 256)).key = true ∧
      besideBeam (F.fltU_ATTEMPTS (id / 256) (id % 256)).key = true := by
    refine ⟨besideBeam_of ?_ ?_ ?_, besideBeam_of ?_ ?_ ?_⟩ <;> simp [F.fltU_COUNT60, F.fltU_ATTEMPTS, beamNowOff] <;> omega
  exact moves_wr (moves_wr h hfld.1) hfld.2

theorem beam_refreshCounts : Moves besideBeam s (refreshCounts t) :=
  moves_forL h fun _ hid _ hu => beam_showCounts hu (List.mem_filter.1 hid).2

theorem beam_powers (mw : List Nat) :
    Moves besideBeam s (t.forN 14 fun j u => u.wr (F.cellarPwr_MW j) (min (2 ^ 20 - 1) (mw.getD j 0))) := by
  have hfld : ∀ j, j < 14 → besideBeam (F.cellarPwr_MW j).key = true := by decide
  exact moves_forN h fun j hj _ hu => moves_wr hu (hfld j hj)

theorem beam_lineTick : Moves besideBeam s (lineTick t) := by
  refine moves_forN (moves_forL (beam_timerSource h 3) fun _ _ _ hu => moves_rest hu) fun l _ u hu => ?_
  exact moves_rest hu

theorem beam_line : t.rd F.beamNow_LINE = s.rd F.beamNow_LINE := h.2 _ (by decide)

theorem beam_frame : t.rd F.beamNow_FRAME = s.rd F.beamNow_FRAME := h.2 _ (by decide)

end

/-! ### Line and frame starts (R46) -/

theorem beamRuns_of {s : State} (hruns : (s.rd F.refStatus_STATE = 2 ∨ s.rd F.refStatus_STATE = 3) ∧ s.rd F.pwrStatus_STATE < 3) :
    s.beamRuns = true := by
  simp [State.beamRuns]
  omega

/-- A line start of a beam that runs enters the next line of the frame. -/
theorem refLineStart_advances {s : State} (h : s.Canonical) (hruns : s.beamRuns = true)
    (hline : s.rd F.beamNow_LINE + 1 < s.ref.setting.lines) : Leads .refLineStart s fun t =>
      t.rd F.beamNow_LINE = (s.rd F.beamNow_LINE + 1) % 65536 ∧ t.rd F.beamNow_FRAME = s.rd F.beamNow_FRAME := by
  have hset : ((s.wr F.beamNow_LINE (s.rd F.beamNow_LINE + 1)).clr F.beamNow_DOT).Canonical := State.clr_canonical (State.wr_canonical h)
  have hexec : exec .refLineStart s =
      .next (lineTick ((s.wr F.beamNow_LINE (s.rd F.beamNow_LINE + 1)).clr F.beamNow_DOT)) := by
    change execRefLineStart s = _
    simp only [execRefLineStart, hruns, hline, decide_true, Bool.and_self, if_true]
  have htick := beam_lineTick (moves_refl hset)
  refine ⟨_, hexec, (beam_line htick).trans ?_, (beam_frame htick).trans ?_⟩
  · exact (State.rd_wr_other (State.wr_canonical h) _ _ _ (by decide)).trans (State.rd_wr_same h _ _)
  · exact (State.rd_wr_other (State.wr_canonical h) _ _ _ (by decide)).trans (State.rd_wr_other h _ _ _ (by decide))

/-- The beam moved to dot 0 of line 0 of `frame`. -/
def beamTo (frame : Nat) (s : State) : State := ((s.wr F.beamNow_FRAME frame).clr F.beamNow_LINE).clr F.beamNow_DOT

theorem beamTo_canonical {frame : Nat} {s : State} (h : s.Canonical) : (beamTo frame s).Canonical :=
  State.clr_canonical (State.clr_canonical (State.wr_canonical h))

theorem beamTo_frame {frame : Nat} {s : State} (h : s.Canonical) : (beamTo frame s).rd F.beamNow_FRAME = frame % 65536 := by
  have hframe : (s.wr F.beamNow_FRAME frame).Canonical := State.wr_canonical h
  calc (beamTo frame s).rd F.beamNow_FRAME
      = ((s.wr F.beamNow_FRAME frame).clr F.beamNow_LINE).rd F.beamNow_FRAME :=
        State.rd_wr_other (State.clr_canonical hframe) _ _ _ (by decide)
    _ = (s.wr F.beamNow_FRAME frame).rd F.beamNow_FRAME := State.rd_wr_other hframe _ _ _ (by decide)
    _ = frame % 65536 := State.rd_wr_same h _ _

theorem beamTo_line {frame : Nat} {s : State} (h : s.Canonical) : (beamTo frame s).rd F.beamNow_LINE = 0 := by
  have hframe : (s.wr F.beamNow_FRAME frame).Canonical := State.wr_canonical h
  exact (State.rd_wr_other (State.clr_canonical hframe) _ _ _ (by decide)).trans (State.rd_wr_same hframe _ _)

/-- The beam at dot 0 of line 0 of the next frame, with the wrap of FRAME counted (R55). -/
def beamNext (s : State) : State :=
  beamTo ((s.rd F.beamNow_FRAME + 1) % 65536) (if (s.rd F.beamNow_FRAME + 1) % 65536 = 0 then s.inc F.beamEpoch_EPOCH else s)

/-- What a frame start does once the beam stands at its first dot. -/
def frameBegins (mw : List Nat) (s : State) : State :=
  lineTick (timerSource 4 (refreshCounts (countSyncs ((frameFlags (applySetting s)).forN 14 fun j u =>
    u.wr (F.cellarPwr_MW j) (min (2 ^ 20 - 1) (mw.getD j 0))))))

theorem exec_refFrameStart {s : State} (mw : List Nat) (hruns : s.beamRuns = true)
    (hline : s.ref.setting.lines ≤ s.rd F.beamNow_LINE + 1) : exec (.refFrameStart mw) s = .next (frameBegins mw (beamNext s)) := by
  have hgo : ¬ ((!s.beamRuns || decide (s.rd F.beamNow_LINE + 1 < s.ref.setting.lines)) = true) := by simp [hruns, hline]
  change execRefFrameStart mw s = _
  rw [execRefFrameStart, if_neg hgo]
  rfl

theorem beam_frameBegins {s : State} (h : s.Canonical) (mw : List Nat) : Moves besideBeam s (frameBegins mw s) :=
  beam_lineTick (beam_timerSource (beam_refreshCounts (beam_countSyncs (beam_powers (beam_frameFlags (beam_applySetting (moves_refl h)))
    mw))) 4)

/-- A frame start of a beam that runs and has no line left enters line 0 of the next frame. -/
theorem refFrameStart_advances {s : State} (h : s.Canonical) (mw : List Nat) (hruns : s.beamRuns = true)
    (hline : s.ref.setting.lines ≤ s.rd F.beamNow_LINE + 1) : Leads (.refFrameStart mw) s fun t =>
      t.rd F.beamNow_LINE = 0 ∧ t.rd F.beamNow_FRAME = (s.rd F.beamNow_FRAME + 1) % 65536 := by
  have hepoch : (if (s.rd F.beamNow_FRAME + 1) % 65536 = 0 then s.inc F.beamEpoch_EPOCH else s).Canonical :=
    ite_canonical (State.inc_canonical h) h
  have hmoves := beam_frameBegins (beamTo_canonical (frame := (s.rd F.beamNow_FRAME + 1) % 65536) hepoch) mw
  refine ⟨_, exec_refFrameStart mw hruns hline, (beam_line hmoves).trans (beamTo_line hepoch), ?_⟩
  exact ((beam_frame hmoves).trans (beamTo_frame hepoch)).trans (Nat.mod_mod _ _)

/-! ### The Cellar's reads of the beam (R54, R55) -/

theorem findReg_beamNow : ∃ r : RegHit, findReg beamNowOff = some r ∧ r.off = beamNowOff ∧ r.row.base = 0x200008 ∧
    r.flds = [F.beamNow_FRAME, F.beamNow_LINE, F.beamNow_DOT] := ⟨_, rfl, rfl, rfl, rfl⟩

theorem State.atDot_mem (s : State) (dot : Nat) : (s.atDot dot).mem = s.mem := by
  unfold State.atDot
  split <;> rfl

/-- The value of the register BEAM_NOW is the present stamp. -/
theorem regNow_beamNow {r : RegHit} (hbase : r.row.base = 0x200008) (hflds : r.flds = [F.beamNow_FRAME, F.beamNow_LINE, F.beamNow_DOT])
    (s : State) : regNow r s = (s.now, s) := by
  have hvalue : s.regValue r = s.now := by
    simp [State.regValue, hflds, State.now, stampOf, F.beamNow_FRAME, F.beamNow_LINE, F.beamNow_DOT]
  simp [regNow, hbase, hvalue]

theorem beamNowRead_whole (s : State) (dot : Nat) :
    Leads (.beamNowRead .cellar .whole dot) s fun t => t.lastRead = (s.atDot dot).now ∧ t.mem = s.mem := by
  obtain ⟨r, hfind, hoff, hbase, hflds⟩ := findReg_beamNow
  refine ⟨_, rfl, ?_⟩
  rw [hfind]
  simp only [readIrs, readWide, regNow_beamNow hbase hflds, hoff, if_true]
  exact ⟨rfl, State.atDot_mem s dot⟩

theorem beamEpochRead_live {s : State} (hnone : s.ref.shadows = []) :
    Leads (.beamEpochRead .cellar) s fun t => t.lastRead = s.rd F.beamEpoch_EPOCH ∧ t.cells = s.cells := by
  refine ⟨_, rfl, ?_⟩
  simp [readIrs, readEpoch, takeShadow, hnone, reaches, State.rd]

/-! ### The report of an event leaves the reference's working state (R402, R431 to R435, R471) -/

theorem raise_ref {s : State} (h : s.Canonical) (n : Nat) : (raise n s).ref = s.ref := by
  obtain ⟨-, -, honly⟩ := does_raise (fs := []) (does_refl h) n
  unfold DeliveryOnly at honly
  rw [honly]

theorem mbxNotify_ref {s : State} (h : s.Canonical) (m : Nat) : (mbxNotify m s).ref = s.ref := by
  unfold mbxNotify
  exact raise_ref (rest_canonical (setUnnotified_canonical h)) m

theorem setBytes_ref (s : State) (a : Nat) (l : List Byte) : (s.setBytes a l).ref = s.ref := by
  induction l generalizing s a with
  | nil => rfl
  | cons b l ih => exact ih (s.setByte a b) (a + 1)

theorem ringWriteErr_ref (err : Option Bool) (s : State) : (ringWriteErr err s).2.ref = s.ref := by
  cases err <;> rfl

/-- What follows the bytes of a ring entry. -/
theorem entryTail_ref {s : State} (h : s.Canonical) (m v u : Nat) (c d : Bool) :
    (let r := setUnnotified m u (s.wr (F.mbxStatus_TAIL m) v)
      if c then mbxNotify m r else if d then r else { r with hif := { r.hif with ageOn := m :: r.hif.ageOn } }).ref = s.ref := by
  dsimp only
  split
  · exact mbxNotify_ref (setUnnotified_canonical (State.wr_canonical h)) m
  · split <;> rfl

theorem writeEntry_ref {s : State} (h : s.Canonical) (err : Option Bool) {e : RingEntry} (hc : e.completion = false) :
    (writeEntry err e s).ref = s.ref := by
  have hdone : ∀ u, entryDone e u = u := fun u => by simp [entryDone, hc]
  have hwrite : (if s.prm (P.ringLoc e.mbx) != 0 then ringWriteErr err s else (false, s)).2.Canonical ∧
      (if s.prm (P.ringLoc e.mbx) != 0 then ringWriteErr err s else (false, s)).2.ref = s.ref := by
    split
    · exact ⟨ringWriteErr_canonical h, ringWriteErr_ref err s⟩
    · exact ⟨h, rfl⟩
  unfold writeEntry
  dsimp only
  rw [hdone, hdone]
  generalize (if s.prm (P.ringLoc e.mbx) != 0 then ringWriteErr err s else (false, s)) = q at hwrite
  obtain ⟨hq, href⟩ := hwrite
  rw [← href]
  split
  · exact raise_ref (State.inc_canonical hq) 20
  · split
    · exact entryTail_ref (rest_canonical hq) _ _ _ _ _
    · exact (entryTail_ref (State.setBytes_canonical hq) _ _ _ _ _).trans (setBytes_ref _ _ _)

theorem wakeRequest_ref (s : State) : (wakeRequest s).ref = s.ref := by
  unfold wakeRequest
  split
  · rfl
  · dsimp only
    split <;> rfl

theorem notify_ref {s : State} (h : s.Canonical) (code a b : Nat) : (notify code a b s).ref = s.ref := by
  unfold notify postEntry
  dsimp only
  split
  · split
    · exact raise_ref (State.inc_canonical h) 21
    · unfold State.iff
      split
      · exact wakeRequest_ref _
      · rfl
  · exact writeEntry_ref h none rfl

theorem logEvent_ref {s : State} (h : s.Canonical) (code sev a b : Nat) : (logEvent code sev a b s).ref = s.ref := by
  have hlost : (s.iff (decide (s.cellar.unflushed ≥ 2048)) fun s => s.inc F.cellarLogLost_COUNT).Canonical :=
    State.iff_canonical h fun _ => State.inc_canonical
  have href : (s.iff (decide (s.cellar.unflushed ≥ 2048)) fun s => s.inc F.cellarLogLost_COUNT).ref = s.ref := by
    unfold State.iff
    split <;> rfl
  have hnotify (q : State) (p k : Nat) (hq : q.Canonical) :
      (if p ≤ sev then notify 0x8005 k code (raise 486 q) else q).ref = q.ref := by
    split
    · exact (notify_ref (raise_canonical hq) _ _ _).trans (raise_ref hq 486)
    · rfl
  exact (hnotify _ _ _ (State.wr_canonical (rest_canonical hlost))).trans href

/-! ### The fault manager's record of the reference input (R557 to R562)

The reference input is the unit of kind 7: it has no HEALTH field and no work to move, so what the fault manager does with it stays in its
own registers and in the report. -/

/-- The key of a register field of the fault manager or of the report. -/
def managerKey (k : Nat) : Bool :=
  let o := k % 2 ^ 30 / 64
  reportKey k || (0x83000 ≤ o && o < 0x84000)

/-- From `s` to `t`, only fields of the fault manager and of the report changed, the reference stands beside its registers, and a pending
source `n` stays so. -/
def Manages (n : Nat) (s t : State) : Prop := Moves managerKey s t ∧ t.ref = s.ref ∧ (StaysPending n s → StaysPending n t)

theorem manages_refl {n : Nat} {s : State} (h : s.Canonical) : Manages n s s := ⟨moves_refl h, rfl, id⟩

theorem managerKey_report {k : Nat} (h : reportKey k = true) : managerKey k = true := by simp [managerKey, h]

theorem managerKey_fault {k : Nat} (h1 : 0x83000 ≤ k % 2 ^ 30 / 64) (h2 : k % 2 ^ 30 / 64 < 0x84000) : managerKey k = true := by
  unfold managerKey
  simp only [decide_eq_true h1, decide_eq_true h2, Bool.and_self, Bool.or_true]

theorem not_delivery_of_not_report {k : Nat} (h : reportKey k = false) : deliveryKey k = false := by
  simp only [reportKey, Bool.or_eq_false_iff] at h
  obtain ⟨⟨⟨hdelivery, -⟩, -⟩, -⟩ := h
  exact hdelivery

theorem not_report_of_not_manager {k : Nat} (h : managerKey k = false) : reportKey k = false := by
  simp only [managerKey, Bool.or_eq_false_iff] at h
  exact h.1

/-- A write of a fault manager's field. -/
theorem staysPending_fault {n : Nat} (hn : n < 512) {s : State} (h : StaysPending n s) {f : Fld} (v : Nat)
    (hf : f.key % 2 ^ 30 / 64 < 0x84000) : StaysPending n (s.wr f v) := by
  obtain ⟨hs, hpend, hdest⟩ := h
  refine ⟨State.wr_canonical hs, (isPending_wr hs n ?_).trans hpend, ?_⟩
  · rintro e
    rw [e] at hf
    simp [Fld.key, Fld.group, F.intcPendSet_SRC] at hf
    omega
  · rwa [State.rd_wr_other hs _ _ _ fun e => ?_]
    rw [← e] at hf
    simp [Fld.key, Fld.group, F.intcTgt_DEST] at hf
    omega

theorem manages_fault {n : Nat} {s t : State} (h : Manages n s t) (u : FaultState) : Manages n s { t with fault := u } := by
  obtain ⟨hmoves, href, hpend⟩ := h
  exact ⟨moves_rest hmoves, href, fun hs => staysPending_rest (hpend hs)⟩

theorem manages_setFltUnit {n : Nat} {s t : State} (h : Manages n s t) (u : FltUnit) : Manages n s (setFltUnit u t) := manages_fault h _

section
variable {n : Nat} {s t : State} (hn : n < 512) (h : Manages n s t)
include hn h

theorem manages_wr {f : Fld} {v : Nat} (h1 : 0x83000 ≤ f.key % 2 ^ 30 / 64) (h2 : f.key % 2 ^ 30 / 64 < 0x84000) :
    Manages n s (t.wr f v) := by
  obtain ⟨hmoves, href, hpend⟩ := h
  exact ⟨moves_wr hmoves (managerKey_fault h1 h2), href, fun hs => staysPending_fault hn (hpend hs) v h2⟩

theorem manages_raise (m : Nat) : Manages n s (raise m t) := by
  obtain ⟨hmoves, href, hpend⟩ := h
  exact ⟨moves_raise hmoves (fun _ hk => managerKey_report (reportKey_delivery hk)) m, (raise_ref hmoves.1 m).trans href,
    fun hs => staysPending_raise (hpend hs) hn m⟩

theorem manages_notify (code a b : Nat) : Manages n s (notify code a b t) := by
  obtain ⟨hmoves, href, hpend⟩ := h
  exact ⟨moves_trans hmoves (moves_mono (moves_notify (moves_refl hmoves.1) code a b) fun _ => managerKey_report),
    (notify_ref hmoves.1 code a b).trans href, fun hs => staysPending_notify (hpend hs) hn code a b⟩

theorem manages_logEvent (code sev a b : Nat) : Manages n s (logEvent code sev a b t) := by
  obtain ⟨hmoves, href, hpend⟩ := h
  exact ⟨moves_trans hmoves (moves_mono (moves_logEvent (moves_refl hmoves.1) code sev a b) fun _ => managerKey_report),
    (logEvent_ref hmoves.1 code sev a b).trans href, fun hs => staysPending_logEvent (hpend hs) hn code sev a b⟩

theorem manages_showCounts : Manages n s (showCounts (unitId 7 0) t) :=
  manages_wr hn (manages_wr hn h (by decide) (by decide)) (by decide) (by decide)

theorem manages_moveSummary (old new : Nat) : Manages n s (moveSummary old new t) := by
  have hold : Manages n s (if old = 1 then t.wr F.fltSummary_SUSPECT (t.rd F.fltSummary_SUSPECT - 1)
      else if old = 2 then t.wr F.fltSummary_RETIRED (t.rd F.fltSummary_RETIRED - 1) else t) := by
    split
    · exact manages_wr hn h (by decide) (by decide)
    · split
      · exact manages_wr hn h (by decide) (by decide)
      · exact h
  unfold moveSummary
  dsimp only
  split
  · exact manages_wr hn hold (by decide) (by decide)
  · split
    · exact manages_wr hn hold (by decide) (by decide)
    · exact hold

theorem manages_setUnitState (st cause : Nat) : Manages n s (setUnitState (unitId 7 0) st cause t) := by
  have hunit : Manages n s (((moveSummary (t.unitState (unitId 7 0)) st t).wr (F.fltU_STATE 7 0) st).wr (F.fltU_CAUSE 7 0) cause) :=
    manages_wr hn (manages_wr hn (manages_moveSummary hn h _ _) (by decide) (by decide)) (by decide) (by decide)
  have hlast : ∀ u, Manages n s u → Manages n s (((u.wr F.fltLast_UNIT (unitId 7 0)).wr F.fltLast_CAUSE cause).wr F.fltLast_STATE st) :=
    fun u hu => manages_wr hn (manages_wr hn (manages_wr hn hu (by decide) (by decide)) (by decide) (by decide)) (by decide) (by decide)
  exact manages_wr hn (manages_wr hn (hlast _ hunit) (f := F.fltLastStamp_STAMP) (by decide) (by decide)) (f := F.fltSummary_FAULT_N)
    (by decide) (by decide)

theorem manages_notifyFault (st cause : Nat) : Manages n s (notifyFault (unitId 7 0) st cause t) := manages_notify hn h _ _ _

theorem manages_makeSuspect (cause : Nat) : Manages n s (makeSuspect (unitId 7 0) cause t) := by
  have hlogged := fun a b => manages_logEvent hn (manages_raise hn (manages_setUnitState hn h 1 cause) 490) 0x0800 1 a b
  unfold makeSuspect
  dsimp only
  split
  · exact h
  · split
    · exact manages_notifyFault hn (manages_setFltUnit (hlogged _ _) _) 1 cause
    · exact hlogged _ _

theorem manages_countUpset (cause : Nat) : Manages n s (countUpset (unitId 7 0) cause t) :=
  manages_makeSuspect hn (manages_showCounts hn (manages_wr hn (manages_setFltUnit h _) (by decide) (by decide))) cause

theorem manages_openAttempt : Manages n s (openAttempt (unitId 7 0) t) := manages_showCounts hn (manages_setFltUnit h _)

theorem manages_retire (cause : Nat) : Manages n s (retire (unitId 7 0) cause t) := by
  have hretired := fun u => manages_setFltUnit (manages_fault (manages_setUnitState hn h 2 cause) u)
  unfold retire
  split
  · exact h
  · exact manages_notifyFault hn (manages_logEvent hn (manages_raise hn (hretired _ _) 491) 0x0801 2 _ _) 2 cause

theorem manages_beginAttempt (cause : Nat) : Manages n s (beginAttempt (unitId 7 0) cause t) := by
  unfold beginAttempt
  dsimp only
  split
  · exact manages_retire hn h cause
  · exact manages_openAttempt hn h

theorem manages_upset (cause : Nat) : Manages n s (upset (unitId 7 0) cause t) := by
  have hcounted := manages_countUpset hn h cause
  unfold upset
  dsimp only
  split
  · exact h
  · split
    · exact manages_retire hn hcounted 6
    · exact manages_beginAttempt hn hcounted 5

theorem manages_endAttempt : Manages n s (endAttempt (unitId 7 0) true t) := by
  unfold endAttempt
  dsimp only
  split
  · exact h
  · exact manages_showCounts hn (manages_setFltUnit h _)

end

/-! ### Loss and return of the reference input (R64, R66) -/

/-- REF_STATUS shows `state` and the input's health. -/
def showInput (state ok : Nat) (s : State) : State := (s.wr F.refStatus_STATE state).wr F.refStatus_REF_IN_OK ok

theorem showInput_canonical {s : State} (h : s.Canonical) (state ok : Nat) : (showInput state ok s).Canonical :=
  State.wr_canonical (State.wr_canonical h)

theorem showInput_other {s : State} (h : s.Canonical) (state ok : Nat) {g : Fld} (hstate : g.key ≠ F.refStatus_STATE.key)
    (hok : g.key ≠ F.refStatus_REF_IN_OK.key) : (showInput state ok s).rd g = s.rd g :=
  (State.rd_wr_other (State.wr_canonical h) _ _ _ hok).trans (State.rd_wr_other h _ _ _ hstate)

theorem showInput_state {s : State} (h : s.Canonical) (state ok : Nat) : (showInput state ok s).rd F.refStatus_STATE = state % 4 :=
  (State.rd_wr_other (State.wr_canonical h) _ _ _ (by decide)).trans (State.rd_wr_same h _ _)

theorem showInput_ok {s : State} (h : s.Canonical) (state ok : Nat) : (showInput state ok s).rd F.refStatus_REF_IN_OK = ok % 2 :=
  State.rd_wr_same (State.wr_canonical h) _ _

/-- A change of the input that raised source `n`, after which the fault manager did its part: the beam stays where it is. -/
theorem inputChange_leaves {s t : State} (h : s.Canonical) {state ok n : Nat} (hn : srcAssigned n = true)
    (hdest : (F.intcTgt_DEST n).key ≠ F.refStatus_STATE.key ∧ (F.intcTgt_DEST n).key ≠ F.refStatus_REF_IN_OK.key)
    (ht : Manages n (raise n (showInput state ok s)) t) :
    t.rd F.refStatus_STATE = state % 4 ∧ t.rd F.refStatus_REF_IN_OK = ok % 2 ∧ Pends n s t ∧ t.now = s.now ∧ t.ref = s.ref := by
  obtain ⟨hmoves, href, hstays⟩ := ht
  have hshown := showInput_canonical h state ok
  have hrd : ∀ g : Fld, managerKey g.key = false → t.rd g = (showInput state ok s).rd g := fun g hg =>
    (hmoves.2 g hg).trans (raise_rd hshown n g (not_delivery_of_not_report (not_report_of_not_manager hg)))
  have hbeam : ∀ g ∈ [F.beamNow_FRAME, F.beamNow_LINE, F.beamNow_DOT], t.rd g = s.rd g := fun g hg => by
    refine (hrd g ?_).trans (showInput_other h state ok ?_ ?_) <;> revert g <;> decide
  refine ⟨(hrd _ (by decide)).trans (showInput_state h state ok), (hrd _ (by decide)).trans (showInput_ok h state ok), ?_, ?_,
    href.trans (raise_ref hshown n)⟩
  · by_cases hd : s.rd (F.intcTgt_DEST n) = 3
    · exact .inr hd
    · obtain ⟨hdestState, hdestOk⟩ := hdest
      have hshownDest : (showInput state ok s).rd (F.intcTgt_DEST n) ≠ 3 := by rwa [showInput_other h state ok hdestState hdestOk]
      have hraisedDest : (raise n (showInput state ok s)).rd (F.intcTgt_DEST n) ≠ 3 := by
        rwa [raise_rd hshown n _ (not_delivery_of_not_report (intcTgt_DEST_not_report n (srcAssigned_lt hn)))]
      obtain ⟨-, hpend, -⟩ := hstays ⟨raise_canonical hshown, raise_pending hshown hn hshownDest, hraisedDest⟩
      exact .inl hpend
  · simp only [State.now, hbeam F.beamNow_FRAME (by decide), hbeam F.beamNow_LINE (by decide), hbeam F.beamNow_DOT (by decide)]

/-- Losing the input puts a locked reference into holdover. -/
theorem refLost_holds {s : State} (h : s.Canonical) (hstate : s.rd F.refStatus_STATE = 2) (htrip : s.fault.tripHold = false) :
    Leads .refLost s fun t =>
      t.rd F.refStatus_STATE = 3 ∧ t.rd F.refStatus_REF_IN_OK = 0 ∧ Pends 480 s t ∧ t.now = s.now ∧ t.ref = s.ref := by
  have hexec : exec .refLost s = .next (upset (unitId 7 0) 12 (logEvent 0x0200 2
      ((raise 480 (showInput 3 0 s)).rdReg 0x200000) 0 (raise 480 (showInput 3 0 s)))) := by
    change execRefLost s = _
    simp only [execRefLost, hstate, htrip, State.iff]
    rfl
  have hraised := manages_refl (n := 480) (raise_canonical (x0 := 480) (showInput_canonical h 3 0))
  exact ⟨_, hexec, inputChange_leaves h (by decide) (by decide)
    (manages_upset (by decide) (manages_logEvent (by decide) hraised 0x0200 2 _ 0) 12)⟩

/-- The input's return ends the holdover. -/
theorem refRestored_locks {s : State} (h : s.Canonical) (hstate : s.rd F.refStatus_STATE = 3) : Leads .refRestored s fun t =>
    t.rd F.refStatus_STATE = 2 ∧ t.rd F.refStatus_REF_IN_OK = 1 ∧ Pends 481 s t ∧ t.now = s.now ∧ t.ref = s.ref := by
  have hexec : exec .refRestored s = .next (endAttempt (unitId 7 0) true (logEvent 0x0201 0
      ((raise 481 (showInput 2 1 s)).rdReg 0x200000) 0 (raise 481 (showInput 2 1 s)))) := by
    change execRefRestored s = _
    rw [execRefRestored, if_pos hstate]
    rfl
  have hraised := manages_refl (n := 481) (raise_canonical (x0 := 481) (showInput_canonical h 2 1))
  exact ⟨_, hexec, inputChange_leaves h (by decide) (by decide)
    (manages_endAttempt (by decide) (manages_logEvent (by decide) hraised 0x0201 0 _ 0))⟩

/-! ### A new setting and the start of the beam (R47, R49, R55) -/

theorem refCtlApply_waits {s : State} (h : s.Canonical) : Leads .refCtlApply s fun t =>
    t.rd F.refCtl_APPLY = 1 ∧ t.rd F.refStatus_RECONFIG_PEND = 1 ∧ Only [F.refCtl_APPLY, F.refStatus_RECONFIG_PEND] s t := by
  have hset : (s.set1 F.refCtl_APPLY).Canonical := State.set1_canonical h
  refine ⟨refApply s, rfl, ?_, State.rd_wr_same hset _ _, fun g hg => ?_, rfl⟩
  · exact (State.rd_wr_other hset _ _ _ (by decide)).trans (State.rd_wr_same h _ _)
  · exact (State.rd_wr_other hset _ _ _ (hg _ (by simp))).trans (State.rd_wr_other h _ _ _ (hg _ (by simp)))

/-- BEAM_NOW and BEAM_EPOCH at 0.0000.0000 of epoch 0. -/
def beamZero (s : State) : State := (beamTo 0 s).clr F.beamEpoch_EPOCH

theorem beamZero_other {s : State} (h : s.Canonical) {g : Fld} (hframe : g.key ≠ F.beamNow_FRAME.key)
    (hline : g.key ≠ F.beamNow_LINE.key)
    (hdot : g.key ≠ F.beamNow_DOT.key) (hepoch : g.key ≠ F.beamEpoch_EPOCH.key) : (beamZero s).rd g = s.rd g := by
  have hf : (s.wr F.beamNow_FRAME 0).Canonical := State.wr_canonical h
  have hl : ((s.wr F.beamNow_FRAME 0).clr F.beamNow_LINE).Canonical := State.clr_canonical hf
  calc (beamZero s).rd g
      = (beamTo 0 s).rd g := State.rd_wr_other (beamTo_canonical h) _ _ _ hepoch
    _ = ((s.wr F.beamNow_FRAME 0).clr F.beamNow_LINE).rd g := State.rd_wr_other hl _ _ _ hdot
    _ = (s.wr F.beamNow_FRAME 0).rd g := State.rd_wr_other hf _ _ _ hline
    _ = s.rd g := State.rd_wr_other h _ _ _ hframe

theorem beamZero_now {s : State} (h : s.Canonical) : (beamZero s).now = 0 := by
  have hother : ∀ g : Fld, g.key ≠ F.beamEpoch_EPOCH.key → (beamZero s).rd g = (beamTo 0 s).rd g := fun g hg =>
    State.rd_wr_other (beamTo_canonical h) _ _ _ hg
  have hdot : (beamTo 0 s).rd F.beamNow_DOT = 0 := State.rd_wr_same (State.clr_canonical (State.wr_canonical h)) _ _
  rw [State.now, hother _ (by decide), hother _ (by decide), hother _ (by decide), beamTo_frame h, beamTo_line h, hdot]
  rfl

theorem beamZero_epoch {s : State} (h : s.Canonical) : (beamZero s).rd F.beamEpoch_EPOCH = 0 :=
  State.rd_wr_same (beamTo_canonical h) _ _

/-- The setting that the registers hold is that of their fields. -/
theorem refRegs_eq {s t : State} (h : ∀ f ∈ [F.refGeom_LINES, F.refGeom_DOTS, F.refSynInt_N, F.refSynNum_NUM, F.refSynDen_DEN,
    F.refSynInt_P], t.rd f = s.rd f) : t.refRegs = s.refRegs := by
  simp only [List.forall_mem_cons] at h
  obtain ⟨hlines, hdots, hn, hnum, hden, hp, -⟩ := h
  simp only [State.refRegs, hlines, hdots, hn, hnum, hden, hp]

/-- The synthesiser's lock starts the beam with the setting in the registers. -/
theorem refSynLock_starts {s : State} (h : s.Canonical) (hstate : s.rd F.refStatus_STATE = 1) (htrip : s.fault.tripHold = false) :
    Leads .refSynLock s fun t =>
      t.rd F.refStatus_STATE = 2 ∧ t.rd F.refStatus_REF_IN_OK = 1 ∧ t.now = 0 ∧ t.rd F.beamEpoch_EPOCH = 0 ∧
      t.ref = { s.ref with setting := s.refRegs } ∧
      t = { s with cells := t.cells, ref := t.ref, casc := { s.casc with fresh := true } } ∧
      WroteOnly [F.refStatus_STATE, F.refStatus_REF_IN_OK, F.beamNow_FRAME, F.beamNow_LINE, F.beamNow_DOT, F.beamEpoch_EPOCH] s t := by
  have hexec : exec .refSynLock s = .next (beamBegin (showInput 2 1 s)) := by
    change execRefSynLock s = _
    rw [execRefSynLock, if_pos ⟨hstate, by simp [htrip]⟩]
    rfl
  have hshown := showInput_canonical h 2 1
  have hother : ∀ g : Fld, (∀ f ∈ [F.refStatus_STATE, F.refStatus_REF_IN_OK, F.beamNow_FRAME, F.beamNow_LINE, F.beamNow_DOT,
      F.beamEpoch_EPOCH], g.key ≠ f.key) → (beamZero (showInput 2 1 s)).rd g = s.rd g := fun g hg =>
    (beamZero_other hshown (hg _ (by simp)) (hg _ (by simp)) (hg _ (by simp)) (hg _ (by simp))).trans
      (showInput_other h 2 1 (hg _ (by simp)) (hg _ (by simp)))
  have hregs : (beamZero (showInput 2 1 s)).refRegs = s.refRegs := refRegs_eq fun f hf => by
    refine hother f ?_
    revert f
    decide
  refine ⟨_, hexec, ?_, ?_, beamZero_now hshown, beamZero_epoch hshown, ?_, rfl, hother⟩
  · exact (beamZero_other hshown (by decide) (by decide) (by decide) (by decide)).trans (showInput_state h 2 1)
  · exact (beamZero_other hshown (by decide) (by decide) (by decide) (by decide)).trans (showInput_ok h 2 1)
  · exact congrArg (fun r => { s.ref with setting := r }) hregs

end Sys2Proof.Machine

section
open Sys2Proof Sys2Proof.Machine
set_option Elab.async false

/-- Settles O7: APPLY writes two fields (`refCtlApply_waits`), and the lock starts the beam (`refSynLock_starts`). Nothing that a line or
frame start does besides moves BEAM_NOW (`refLineStart_advances`, `refFrameStart_advances`). A change of the input raises its source and
is an upset, or the end of an attempt, of a unit without a chapter of its own, so the beam goes on (`refLost_holds`,
`refRestored_locks`). -/
theorem referenceSettings : Obligations.ReferenceSettings := by
  unfold Obligations.ReferenceSettings
  refine ⟨fun s h => ⟨refCtlApply_waits h, refSynLock_starts h⟩, fun s mw dot h => ⟨?_, ?_, ?_, ?_, ?_, ?_⟩⟩
  · exact fun hruns => refLineStart_advances h (beamRuns_of hruns)
  · exact fun hruns => refFrameStart_advances h mw (beamRuns_of hruns)
  · exact beamNowRead_whole s dot
  · exact beamEpochRead_live
  · exact refLost_holds h
  · exact refRestored_locks h
end

namespace Sys2Proof.Machine

-- One declaration after another: the memory limit of the check counts the stack of every thread that elaborates beside them.
set_option Elab.async false

/-! ### What the report of an event leaves beside the registers (R402, R431 to R435, R471) -/

/-- Beside the registers, `t` differs from `s` at most in what the report of an event changes. -/
def ReportRest (s t : State) : Prop :=
  t = { s with cells := t.cells, mem := t.mem, intc := t.intc, hif := t.hif, casc := t.casc, cellar := t.cellar, freeCount := t.freeCount }

theorem reportRest_trans {s t u : State} (h : ReportRest s t) (k : ReportRest t u) : ReportRest s u := by
  unfold ReportRest at *
  rw [k, h]

/-- The same after a change that reduces to one. -/
theorem reportRest_after {s t u : State} (k : ReportRest t u) (h : ReportRest s t := by rfl) : ReportRest s u := reportRest_trans h k

theorem reportRest_vat {s t : State} (h : ReportRest s t) : t.vat = s.vat := by
  rw [h]

theorem reportRest_ite {c : Prop} [Decidable c] {s t u : State} (ht : ReportRest s t) (hu : ReportRest s u) :
    ReportRest s (if c then t else u) := by
  split
  · exact ht
  · exact hu

theorem reportRest_raise {s : State} (h : s.Canonical) (n : Nat) : ReportRest s (raise n s) := by
  obtain ⟨-, -, honly⟩ := does_raise (fs := []) (does_refl h) n
  unfold DeliveryOnly at honly
  unfold ReportRest
  rw [honly]

theorem reportRest_mbxNotify {s : State} (h : s.Canonical) (m : Nat) : ReportRest s (mbxNotify m s) := by
  unfold mbxNotify
  exact reportRest_after (reportRest_raise (rest_canonical (setUnnotified_canonical h)) m)

theorem reportRest_setBytes (s : State) (a : Nat) (l : List Byte) : ReportRest s (s.setBytes a l) := by
  induction l generalizing s a with
  | nil => rfl
  | cons b l ih => exact reportRest_after (ih (s.setByte a b) (a + 1))

theorem reportRest_ringWriteErr (err : Option Bool) (s : State) : ReportRest s (ringWriteErr err s).2 := by
  cases err <;> rfl

/-- What follows the bytes of a ring entry. -/
theorem reportRest_entryTail {s : State} (h : s.Canonical) (m v u : Nat) (c d : Bool) :
    ReportRest s (let r := setUnnotified m u (s.wr (F.mbxStatus_TAIL m) v)
      if c then mbxNotify m r else if d then r else { r with hif := { r.hif with ageOn := m :: r.hif.ageOn } }) := by
  have hnotify := reportRest_mbxNotify (setUnnotified_canonical (x0 := m) (x1 := u)
    (State.wr_canonical (x1 := F.mbxStatus_TAIL m) (x2 := v) h)) m
  exact reportRest_ite (reportRest_after hnotify) (reportRest_ite rfl rfl)

theorem reportRest_writeEntry {s : State} (h : s.Canonical) (err : Option Bool) {e : RingEntry} (hc : e.completion = false) :
    ReportRest s (writeEntry err e s) := by
  have hdone : ∀ u, entryDone e u = u := fun u => by simp [entryDone, hc]
  have hwrite : (if s.prm (P.ringLoc e.mbx) != 0 then ringWriteErr err s else (false, s)).2.Canonical ∧
      ReportRest s (if s.prm (P.ringLoc e.mbx) != 0 then ringWriteErr err s else (false, s)).2 := by
    split
    · exact ⟨ringWriteErr_canonical h, reportRest_ringWriteErr err s⟩
    · exact ⟨h, rfl⟩
  unfold writeEntry
  dsimp only
  rw [hdone, hdone]
  generalize (if s.prm (P.ringLoc e.mbx) != 0 then ringWriteErr err s else (false, s)) = q at hwrite
  obtain ⟨hq, hrest⟩ := hwrite
  refine reportRest_trans hrest ?_
  split
  · exact reportRest_after (reportRest_raise (State.inc_canonical (x1 := F.mbxCounts_RING_ERR e.mbx) hq) 20)
  · split
    · exact reportRest_after (reportRest_entryTail (rest_canonical hq) _ _ _ _ _)
    · exact reportRest_trans (reportRest_setBytes _ _ _) (reportRest_entryTail (State.setBytes_canonical hq) _ _ _ _ _)

theorem reportRest_wakeRequest (s : State) : ReportRest s (wakeRequest s) := by
  unfold wakeRequest
  exact reportRest_ite rfl (reportRest_ite rfl rfl)

theorem reportRest_notify {s : State} (h : s.Canonical) (code a b : Nat) : ReportRest s (notify code a b s) := by
  unfold notify postEntry
  dsimp only
  split
  · split
    · exact reportRest_after (reportRest_raise (State.inc_canonical (x1 := F.mbxCounts_LOST (s.prm P.mbxNotify % 16)) h) 21)
    · unfold State.iff
      exact reportRest_ite (reportRest_after (reportRest_wakeRequest _)) rfl
  · exact reportRest_writeEntry h none rfl

theorem reportRest_logEvent {s : State} (h : s.Canonical) (code sev a b : Nat) : ReportRest s (logEvent code sev a b s) := by
  have hlost : (s.iff (decide (s.cellar.unflushed ≥ 2048)) fun s => s.inc F.cellarLogLost_COUNT).Canonical :=
    State.iff_canonical h fun _ => State.inc_canonical
  have hrest : ReportRest s (s.iff (decide (s.cellar.unflushed ≥ 2048)) fun s => s.inc F.cellarLogLost_COUNT) := reportRest_ite rfl rfl
  have hnotify (q : State) (p k : Nat) (hq : q.Canonical) (hs : ReportRest s q) :
      ReportRest s (if p ≤ sev then notify 0x8005 k code (raise 486 q) else q) :=
    reportRest_ite (reportRest_trans (reportRest_trans hs (reportRest_raise hq 486)) (reportRest_notify (raise_canonical hq) _ _ _)) hs
  exact hnotify _ _ _ (State.wr_canonical (rest_canonical hlost)) (reportRest_trans hrest rfl)

end Sys2Proof.Machine

namespace Sys2Proof.Machine

-- One declaration after another: the memory limit of the check counts the stack of every thread that elaborates beside them.
set_option Elab.async false

/-! ### What the fault manager keeps of every unit (R557 to R562)

A property that the manager's single steps keep is kept by its operations on the unit. -/

/-- The fault manager's single steps on unit `id` keep `P`: its own record and registers, the report, the unit's HEALTH field, and the
moving of a retired unit's work. -/
structure FaultClosed (id : Nat) (P : State → Prop) : Prop where
  known : id < 0xA00
  record : ∀ t (u : FaultState), P t → P { t with fault := u }
  reg : ∀ t f v, 0x83000 ≤ f.key % 2 ^ 30 / 64 → f.key % 2 ^ 30 / 64 < 0x84000 → P t → P (t.wr f v)
  raise : ∀ t m, P t → P (raise m t)
  notify : ∀ t code a b, P t → P (notify code a b t)
  log : ∀ t code sev a b, P t → P (logEvent code sev a b t)
  health : ∀ t st, P t → P (setHealth id st t)
  remap : ∀ t, P t → P (remapUnit id t)

/-- The registers of a known unit lie among the fault manager's. -/
theorem fltU_inside {id : Nat} (hid : id < 0xA00) : ∀ f ∈ [F.fltU_STATE (id / 256) (id % 256), F.fltU_CAUSE (id / 256) (id % 256),
    F.fltU_COUNT60 (id / 256) (id % 256), F.fltU_ATTEMPTS (id / 256) (id % 256), F.fltU_TOTAL (id / 256) (id % 256)],
    0x83000 ≤ f.key % 2 ^ 30 / 64 ∧ f.key % 2 ^ 30 / 64 < 0x84000 := by
  have hkind : id / 256 < 10 := by omega
  have hunit : id % 256 < 256 := Nat.mod_lt _ (by decide)
  have hinside (f : Fld) (hoff : f.off = 0x83100 + id / 256 * 0x100 + id % 256 * 0x4) (hlsb : f.lsb < 64) :
      0x83000 ≤ f.key % 2 ^ 30 / 64 ∧ f.key % 2 ^ 30 / 64 < 0x84000 := by
    rw [Fld.key_offset (by omega) hlsb]
    omega
  simp only [List.forall_mem_cons, List.not_mem_nil, false_implies, implies_true, and_true]
  exact ⟨hinside _ rfl (by decide : 0 < 64), hinside _ rfl (by decide : 8 < 64), hinside _ rfl (by decide : 16 < 64),
    hinside _ rfl (by decide : 22 < 64), hinside _ rfl (by decide : 24 < 64)⟩

namespace FaultClosed

variable {id : Nat} {P : State → Prop} (hP : FaultClosed id P) {t : State} (h : P t)
include hP h

theorem unitReg {f : Fld} (v : Nat) (hf : f ∈ [F.fltU_STATE (id / 256) (id % 256), F.fltU_CAUSE (id / 256) (id % 256),
    F.fltU_COUNT60 (id / 256) (id % 256), F.fltU_ATTEMPTS (id / 256) (id % 256), F.fltU_TOTAL (id / 256) (id % 256)]) : P (t.wr f v) := by
  obtain ⟨hlow, hhigh⟩ := fltU_inside hP.known f hf
  exact hP.reg t f v hlow hhigh h

theorem setFltUnit (u : FltUnit) : P (setFltUnit u t) := hP.record t _ h

theorem showCounts : P (showCounts id t) := hP.unitReg (hP.unitReg h _ (by simp)) _ (by simp)

theorem summary {f : Fld} (hf : f ∈ [F.fltSummary_SUSPECT, F.fltSummary_RETIRED, F.fltSummary_FAULT_N, F.fltLast_UNIT, F.fltLast_CAUSE,
    F.fltLast_STATE, F.fltLastStamp_STAMP]) (v : Nat) : P (t.wr f v) := by
  refine hP.reg t f v ?_ ?_ h <;> revert f <;> decide

theorem moveSummary (old new : Nat) : P (moveSummary old new t) := by
  have hold : P (if old = 1 then t.wr F.fltSummary_SUSPECT (t.rd F.fltSummary_SUSPECT - 1)
      else if old = 2 then t.wr F.fltSummary_RETIRED (t.rd F.fltSummary_RETIRED - 1) else t) := by
    split
    · exact hP.summary h (by simp) _
    · split
      · exact hP.summary h (by simp) _
      · exact h
  unfold Machine.moveSummary
  dsimp only
  split
  · exact hP.summary hold (by simp) _
  · split
    · exact hP.summary hold (by simp) _
    · exact hold

theorem setUnitState (st cause : Nat) : P (setUnitState id st cause t) := by
  have hunit := hP.unitReg (hP.unitReg (hP.moveSummary h (t.unitState id) st) (f := F.fltU_STATE (id / 256) (id % 256)) st (by simp))
    (f := F.fltU_CAUSE (id / 256) (id % 256)) cause (by simp)
  have hlast := hP.summary (hP.summary (hP.summary hunit (f := F.fltLast_UNIT) (by simp) id) (f := F.fltLast_CAUSE) (by simp) cause)
    (f := F.fltLast_STATE) (by simp) st
  exact hP.summary (hP.health _ st (hP.summary hlast (f := F.fltLastStamp_STAMP) (by simp) _)) (by simp) _

theorem notifyFault (st cause : Nat) : P (notifyFault id st cause t) := hP.notify t _ _ _ h

theorem makeSuspect (cause : Nat) : P (makeSuspect id cause t) := by
  have hlogged := fun a b => hP.log _ 0x0800 1 a b (hP.raise _ 490 (hP.setUnitState h 1 cause))
  unfold Machine.makeSuspect
  dsimp only
  split
  · exact h
  · split
    · exact hP.notifyFault (hP.setFltUnit (hlogged _ _) _) 1 cause
    · exact hlogged _ _

theorem countUpset (cause : Nat) : P (countUpset id cause t) :=
  hP.makeSuspect (hP.showCounts (hP.unitReg (hP.setFltUnit h _) (f := F.fltU_TOTAL (id / 256) (id % 256)) _ (by simp))) cause

theorem openAttempt : P (openAttempt id t) := hP.showCounts (hP.setFltUnit h _)

theorem retire (cause : Nat) : P (retire id cause t) := by
  unfold Machine.retire
  split
  · exact h
  · have hremapped := fun u => hP.remap _ (hP.record _ u (hP.setUnitState h 2 cause))
    exact hP.notifyFault (hP.log _ 0x0801 2 _ _ (hP.raise _ 491 (hP.setFltUnit (hremapped _) _))) 2 cause

theorem beginAttempt (cause : Nat) : P (beginAttempt id cause t) := by
  unfold Machine.beginAttempt
  dsimp only
  split
  · exact hP.retire h cause
  · exact hP.openAttempt h

theorem upset (cause : Nat) : P (upset id cause t) := by
  have hcounted := hP.countUpset h cause
  unfold Machine.upset
  dsimp only
  split
  · exact h
  · split
    · exact hP.retire hcounted 6
    · exact hP.beginAttempt hcounted 5

theorem endAttempt (ok : Bool) : P (endAttempt id ok t) := by
  unfold Machine.endAttempt
  dsimp only
  split
  · exact h
  · split
    · exact hP.showCounts (hP.setFltUnit h _)
    · exact hP.beginAttempt (hP.setFltUnit h _) 5

end FaultClosed

/-! ### What the fault manager leaves when it deals with a bank of the Vat -/

/-- A write of any field but the pending word and the destination of a pending source. -/
theorem staysPending_wr_beside {n : Nat} {s : State} (h : StaysPending n s) {f : Fld} (v : Nat)
    (hword : f.key ≠ (F.intcPendSet_SRC (n / 32)).key) (hdest : (F.intcTgt_DEST n).key ≠ f.key) : StaysPending n (s.wr f v) := by
  obtain ⟨hs, hpend, hto⟩ := h
  exact ⟨State.wr_canonical hs, (isPending_wr hs n hword).trans hpend, by rwa [State.rd_wr_other hs _ _ _ hdest]⟩

/-- `f` is a field of the registers of bank `k`, at `place`: its register's offset there in bits 10:6, and its LSB. -/
def BankFld (k place : Nat) (f : Fld) : Prop :=
  k < 64 ∧ place < 0x800 ∧ f.off = 0xD01000 + place / 64 + k * 0x20 ∧ f.lsb = place % 64

section
variable {k : Nat} (hk : k < 64)
include hk

theorem bankFld_pwr : BankFld k 0x100 (F.vatBankStatus_PWR k) := ⟨hk, by decide, rfl, rfl⟩
theorem bankFld_health : BankFld k 0x102 (F.vatBankStatus_HEALTH k) := ⟨hk, by decide, rfl, rfl⟩
theorem bankFld_inHash : BankFld k 0x104 (F.vatBankStatus_IN_HASH k) := ⟨hk, by decide, rfl, rfl⟩
theorem bankFld_retVoid : BankFld k 0x105 (F.vatBankStatus_RET_VOID k) := ⟨hk, by decide, rfl, rfl⟩
theorem bankFld_filling : BankFld k 0x106 (F.vatBankStatus_FILLING k) := ⟨hk, by decide, rfl, rfl⟩
theorem bankFld_ce : BankFld k 0x200 (F.vatBankErr_CE k) := ⟨hk, by decide, rfl, rfl⟩
theorem bankFld_ue : BankFld k 0x210 (F.vatBankErr_UE k) := ⟨hk, by decide, rfl, rfl⟩
theorem bankFld_par : BankFld k 0x214 (F.vatBankErr_PAR k) := ⟨hk, by decide, rfl, rfl⟩
theorem bankFld_parked : BankFld k 0x218 (F.vatBankErr_PARKED k) := ⟨hk, by decide, rfl, rfl⟩
theorem bankFld_conflict : BankFld k 0x400 (F.vatBankConflict_COUNT k) := ⟨hk, by decide, rfl, rfl⟩
theorem bankFld_c0max : BankFld k 0x600 (F.vatBankC0max_WAIT k) := ⟨hk, by decide, rfl, rfl⟩

end

section
variable {k place : Nat} {f : Fld} (hf : BankFld k place f)
include hf

theorem bankFld_key : f.key % 2 ^ 30 / 64 = f.off ∧ 0xD01000 ≤ f.off ∧ f.key % 0x800 = place := by
  obtain ⟨hk, hplace, hoff, hlsb⟩ := hf
  refine ⟨Fld.key_offset (by omega) (by omega), by omega, ?_⟩
  unfold Fld.key
  omega

/-- Two fields of banks are of different banks, or stand at different places. -/
theorem bankFld_ne {j at_ : Nat} {g : Fld} (hg : BankFld j at_ g) (hne : k ≠ j ∨ place ≠ at_) : f.key ≠ g.key := by
  obtain ⟨hk, hplace, hoff, hlsb⟩ := hf
  obtain ⟨hj, hat, hgoff, hglsb⟩ := hg
  unfold Fld.key
  omega

/-- A register below the banks' is none of theirs. -/
theorem bankFld_ne_below {g : Fld} (hoff : g.key % 2 ^ 30 / 64 < 0xD01000) : f.key ≠ g.key := by
  obtain ⟨hkey, hbank, -⟩ := bankFld_key hf
  intro e
  rw [e] at hkey
  omega

end

theorem bankFld_not_manager {k place : Nat} {f : Fld} (hf : BankFld k place f) : managerKey f.key = false := by
  obtain ⟨hoff, hbank, -⟩ := bankFld_key hf
  have hwake : f.key ≠ F.pwrStatus_WAKE_REQ.key := bankFld_ne_below hf (by decide)
  simp [managerKey, reportKey, deliveryKey, hwake]
  omega

/-- The key of the HEALTH field of a bank, or of a field of the fault manager or of the report. -/
def bankKey (k : Nat) : Bool := managerKey k || (0xD01000 ≤ k % 2 ^ 30 / 64 && k % 0x800 == 0x102)

theorem bankKey_manager {k : Nat} (h : managerKey k = true) : bankKey k = true := by simp [bankKey, h]

theorem not_manager_of_not_bank {k : Nat} (h : bankKey k = false) : managerKey k = false := by
  simp only [bankKey, Bool.or_eq_false_iff] at h
  exact h.1

theorem bankKey_health {k : Nat} (hk : k < 64) : bankKey (F.vatBankStatus_HEALTH k).key = true := by
  obtain ⟨hoff, hbank, hplace⟩ := bankFld_key (bankFld_health hk)
  simp only [bankKey, hoff, hplace, decide_eq_true hbank, Bool.or_eq_true, Bool.true_and]
  exact .inr rfl

/-- A bank's field but HEALTH is none of these. -/
theorem bankKey_bankFld {k place : Nat} {f : Fld} (hf : BankFld k place f) (hne : place ≠ 0x102) : bankKey f.key = false := by
  obtain ⟨-, -, hplace⟩ := bankFld_key hf
  have hmanager := bankFld_not_manager hf
  simp only [bankKey, hmanager, hplace, Bool.false_or, Bool.and_eq_false_iff]
  exact .inr (by simpa using hne)

/-- From `s` to `t`, only HEALTH fields of banks and fields of the fault manager and of the report changed, the Vat stands beside its
registers, and a pending source `n` stays so. -/
def Tends (n : Nat) (s t : State) : Prop := Moves bankKey s t ∧ t.vat = s.vat ∧ (StaysPending n s → StaysPending n t)

theorem tends_refl (n : Nat) {s : State} (h : s.Canonical) : Tends n s s := ⟨moves_refl h, rfl, id⟩

section
variable {n : Nat} {s t : State} (h : Tends n s t)
include h

theorem tends_canonical : t.Canonical := by
  obtain ⟨⟨hc, -⟩, -⟩ := h
  exact hc

theorem tends_vat : t.vat = s.vat := by
  obtain ⟨-, hvat, -⟩ := h
  exact hvat

theorem tends_rd {g : Fld} (hg : bankKey g.key = false) : t.rd g = s.rd g := by
  obtain ⟨⟨-, hrd⟩, -⟩ := h
  exact hrd g hg

theorem tends_fault (u : FaultState) : Tends n s { t with fault := u } := by
  obtain ⟨hmoves, hvat, hpend⟩ := h
  exact ⟨moves_rest hmoves, hvat, fun hs => staysPending_rest (hpend hs)⟩

theorem tends_manager {f : Fld} (v : Nat) (hn : n < 512) (h1 : 0x83000 ≤ f.key % 2 ^ 30 / 64) (h2 : f.key % 2 ^ 30 / 64 < 0x84000) :
    Tends n s (t.wr f v) := by
  obtain ⟨hmoves, hvat, hpend⟩ := h
  exact ⟨moves_wr hmoves (bankKey_manager (managerKey_fault h1 h2)), hvat, fun hs => staysPending_fault hn (hpend hs) v h2⟩

theorem tends_health {k : Nat} (hk : k < 64) (v : Nat) : Tends n s (t.wr (F.vatBankStatus_HEALTH k) v) := by
  obtain ⟨hmoves, hvat, hpend⟩ := h
  refine ⟨moves_wr hmoves (bankKey_health hk), hvat, fun hs => staysPending_wr_beside (hpend hs) v ?_ ?_⟩ <;>
    simp [Fld.key, Fld.group, F.vatBankStatus_HEALTH, F.intcPendSet_SRC, F.intcTgt_DEST] <;> omega

theorem tends_raise (hn : n < 512) (m : Nat) : Tends n s (raise m t) := by
  obtain ⟨hmoves, hvat, hpend⟩ := h
  exact ⟨moves_raise hmoves (fun _ hk => bankKey_manager (managerKey_report (reportKey_delivery hk))) m,
    (reportRest_vat (reportRest_raise hmoves.1 m)).trans hvat, fun hs => staysPending_raise (hpend hs) hn m⟩

theorem tends_notify (hn : n < 512) (code a b : Nat) : Tends n s (notify code a b t) := by
  obtain ⟨hmoves, hvat, hpend⟩ := h
  exact ⟨moves_trans hmoves (moves_mono (moves_notify (moves_refl hmoves.1) code a b) fun _ hk => bankKey_manager (managerKey_report hk)),
    (reportRest_vat (reportRest_notify hmoves.1 code a b)).trans hvat, fun hs => staysPending_notify (hpend hs) hn code a b⟩

theorem tends_logEvent (hn : n < 512) (code sev a b : Nat) : Tends n s (logEvent code sev a b t) := by
  obtain ⟨hmoves, hvat, hpend⟩ := h
  exact ⟨moves_trans hmoves (moves_mono (moves_logEvent (moves_refl hmoves.1) code sev a b) fun _ hk =>
    bankKey_manager (managerKey_report hk)), (reportRest_vat (reportRest_logEvent hmoves.1 code sev a b)).trans hvat,
    fun hs => staysPending_logEvent (hpend hs) hn code sev a b⟩

end

theorem unitId_bank {k : Nat} (hk : k < 64) : unitId 4 k / 256 = 4 ∧ unitId 4 k % 256 = k := by
  unfold unitId
  omega

theorem setHealth_bank {k : Nat} (hk : k < 64) (st : Nat) (s : State) :
    setHealth (unitId 4 k) st s = s.wr (F.vatBankStatus_HEALTH k) st := by
  obtain ⟨hkind, hunit⟩ := unitId_bank hk
  simp only [setHealth, hkind, hunit]

theorem remapUnit_bank {k : Nat} (hk : k < 64) (s : State) : remapUnit (unitId 4 k) s = raise 452 (logEvent 0x0303 2 k 0 s) := by
  obtain ⟨hkind, hunit⟩ := unitId_bank hk
  simp only [remapUnit, hkind, hunit]

/-- The fault manager's steps on a bank of the Vat. -/
theorem faultClosed_bank {k n : Nat} (hk : k < 64) (hn : n < 512) {s : State} : FaultClosed (unitId 4 k) (Tends n s) where
  known := by unfold unitId; omega
  record _ u h := tends_fault h u
  reg _ _ v h1 h2 h := tends_manager h v hn h1 h2
  raise _ m h := tends_raise h hn m
  notify _ code a b h := tends_notify h hn code a b
  log _ code sev a b h := tends_logEvent h hn code sev a b
  health _ st h := by rw [setHealth_bank hk]; exact tends_health h hk st
  remap _ h := by rw [remapUnit_bank hk]; exact tends_raise (tends_logEvent h hn _ _ _ _) hn 452

end Sys2Proof.Machine

namespace Sys2Proof.Machine

-- One declaration after another: the memory limit of the check counts the stack of every thread that elaborates beside them.
set_option Elab.async false

/-! ### Which fields a command writes, and which source it leaves pending -/

/-- `t` is canonical, and only the fields in `fs` changed. -/
def Writes (fs : List Fld) (s t : State) : Prop := t.Canonical ∧ Only fs s t

theorem writes_refl {fs : List Fld} {s : State} (h : s.Canonical) : Writes fs s s := ⟨h, fun _ _ => rfl, rfl⟩

theorem writes_trans {fs : List Fld} {s t u : State} (h : Writes fs s t) (k : Writes fs t u) : Writes fs s u := by
  obtain ⟨-, hrd, hregs⟩ := h
  obtain ⟨hu, krd, kregs⟩ := k
  refine ⟨hu, fun g hg => (krd g hg).trans (hrd g hg), ?_⟩
  unfold RegsOnly at *
  rw [kregs, hregs]

theorem writes_wr {fs : List Fld} {s t : State} (h : Writes fs s t) {f : Fld} (hf : f ∈ fs) (v : Nat) : Writes fs s (t.wr f v) :=
  writes_trans h ⟨State.wr_canonical h.1, fun g hg => State.rd_wr_other h.1 f g v (hg f hf), rfl⟩

theorem writes_ite {fs : List Fld} {c : Prop} [Decidable c] {s t u : State} (ht : Writes fs s t) (hu : Writes fs s u) :
    Writes fs s (if c then t else u) := by
  split
  · exact ht
  · exact hu

theorem writes_mono {fs gs : List Fld} {s t : State} (h : Writes fs s t) (hsub : fs ⊆ gs) : Writes gs s t :=
  ⟨h.1, fun g hg => h.2.1 g fun f hf => hg f (hsub hf), h.2.2⟩

theorem writes_rd {fs : List Fld} {s t : State} (h : Writes fs s t) {g : Fld} (hg : ∀ f ∈ fs, g.key ≠ f.key) : t.rd g = s.rd g :=
  h.2.1 g hg

theorem writes_vat {fs : List Fld} {s t : State} (h : Writes fs s t) : t.vat = s.vat := by
  obtain ⟨-, -, hregs⟩ := h
  rw [hregs]

/-- Where step `j` of a loop writes the fields in `fs j` alone, the loop leaves every other field. -/
theorem writes_forN {fs : Nat → List Fld} {f : Nat → State → State} {n : Nat} {s : State} (h : s.Canonical)
    (hf : ∀ j u, u.Canonical → Writes (fs j) u (f j u)) :
    (s.forN n f).Canonical ∧ RegsOnly s (s.forN n f) ∧
      ∀ g : Fld, (∀ j, j < n → ∀ d ∈ fs j, g.key ≠ d.key) → (s.forN n f).rd g = s.rd g := by
  obtain ⟨hc, hrd, hregs⟩ : Writes ((List.range n).flatMap fs) s (s.forN n f) := by
    have hloop : ∀ l, (∀ j ∈ l, j < n) → ∀ u, Writes ((List.range n).flatMap fs) s u →
        Writes ((List.range n).flatMap fs) s (u.forL l f) := fun l => by
      induction l with
      | nil => exact fun _ u hu => hu
      | cons j l ih =>
        intro hl u hu
        obtain ⟨hc, hrd, hregs⟩ := hf j u hu.1
        refine ih (fun i hi => hl i (by simp [hi])) _ (writes_trans hu ⟨hc, fun g hg => hrd g fun d hd => hg d ?_, hregs⟩)
        exact List.mem_flatMap.2 ⟨j, List.mem_range.2 (hl j (by simp)), hd⟩
    exact hloop _ (fun j hj => List.mem_range.1 hj) s (writes_refl h)
  refine ⟨hc, hregs, fun g hg => hrd g fun d hd => ?_⟩
  obtain ⟨j, hj, hd⟩ := List.mem_flatMap.1 hd
  exact hg j (List.mem_range.1 hj) d hd

/-- What step `i` of a loop brings about, and every other step keeps, holds after it. -/
theorem forL_at {α : Type} {P Q : State → Prop} {f : α → State → State} {i : α} {l : List α} {s : State} (hs : P s) (hi : i ∈ l ∨ Q s)
    (hP : ∀ j ∈ l, ∀ u, P u → P (f j u)) (hQ : ∀ u, P u → Q (f i u)) (hother : ∀ j ∈ l, j ≠ i → ∀ u, P u → Q u → Q (f j u)) :
    Q (s.forL l f) := by
  induction l generalizing s with
  | nil => exact hi.resolve_left (by simp)
  | cons j l ih =>
    refine ih (hP j (by simp) s hs) ?_ (fun b hb => hP b (by simp [hb])) (fun b hb => hother b (by simp [hb]))
    by_cases e : j = i
    · rw [e]
      exact .inr (hQ s hs)
    · refine hi.imp (fun hm => ?_) (hother j (by simp) e s hs)
      exact (List.mem_cons.1 hm).resolve_left (Ne.symm e)

/-- A source raised at `p`, where it goes as it does in `s`, is pending in the end if what follows keeps it pending. -/
theorem pends_of_raise {n : Nat} {s p t : State} (hp : p.Canonical) (hn : srcAssigned n = true)
    (hdest : p.rd (F.intcTgt_DEST n) = s.rd (F.intcTgt_DEST n)) (hkeep : StaysPending n (raise n p) → StaysPending n t) : Pends n s t := by
  by_cases hd : s.rd (F.intcTgt_DEST n) = 3
  · exact .inr hd
  · have hp3 : p.rd (F.intcTgt_DEST n) ≠ 3 := by rwa [hdest]
    have hraised : (raise n p).rd (F.intcTgt_DEST n) ≠ 3 := by
      rwa [raise_rd hp n _ (not_delivery_of_not_report (intcTgt_DEST_not_report n (srcAssigned_lt hn)))]
    exact .inl (hkeep ⟨raise_canonical hp, raise_pending hp hn hp3, hraised⟩).2.1

theorem raise_vat {s : State} (h : s.Canonical) (n : Nat) : (raise n s).vat = s.vat := reportRest_vat (reportRest_raise h n)

theorem rd_clr_same {s : State} (h : s.Canonical) (f : Fld) : (s.clr f).rd f = 0 := (State.rd_wr_same h f 0).trans (Nat.zero_mod _)

/-- A field that reads 0 goes on doing so where fields are cleared. -/
theorem rd_clr_zero {s : State} (h : s.Canonical) {f g : Fld} (hf : s.rd f = 0) (hreset : f.reset = g.reset := by rfl) :
    (s.clr g).rd f = 0 := by
  by_cases hk : f.key = g.key
  · have hget : Sparse.get f.key f.reset (s.clr g).cells = 0 := by
      rw [hk, hreset]
      exact (get_put_same _ _ _ _ h.cells).trans (Nat.zero_mod _)
    rw [State.rd, hget, Nat.zero_mod]
  · exact (State.rd_wr_other h _ _ _ hk).trans hf

/-- A change of the Vat beside its registers. -/
def onVat (f : VatState → VatState) (s : State) : State := { s with vat := f s.vat }

@[simp] theorem onVat_rd (f : VatState → VatState) (s : State) (g : Fld) : (onVat f s).rd g = s.rd g := rfl

@[simp] theorem onVat_vat (f : VatState → VatState) (s : State) : (onVat f s).vat = f s.vat := rfl

theorem onVat_canonical {f : VatState → VatState} {s : State} (h : s.Canonical) (hf : (f s.vat).data = s.vat.data := by rfl) :
    (onVat f s).Canonical :=
  rest_canonical h (h6 := hf)

/-! ### A Vat initialisation begins (R73, R76) -/

/-- The Vat initialises, with a new key and the width of its parameter, and holds nothing. -/
def vatKeyed (s : State) : State :=
  let key := (Config.trng s.freeCount).toNat
  let u := (s.wr F.vatStatus_STATE 1).incWrap F.vatStatus_KEY_ID
  { u with
    freeCount := s.freeCount + 1
    vat := { s.vat with
      ka := key % 2 ^ 32 / 2 * 2 + 1, kb := key / 2 ^ 32, groupLog2 := min 6 (u.rd F.vatCtl_GROUP_LOG2),
      data := [], poison := [], ceQueue := [], bgt := none, failed := [] } }

/-- A bank is in the hash unless it is RETIRED. -/
def bankHashed (k : Nat) (s : State) : State := s.wr (F.vatBankStatus_IN_HASH k) (bit (s.rd (F.vatBankStatus_HEALTH k) != 2))

/-- What an initialisation makes of one bank. -/
def bankStarts (k : Nat) (s : State) : State :=
  let s := bankHashed k s
  if s.rd (F.vatBankStatus_PWR k) = 0 then s.set1 (F.vatBankStatus_FILLING k)
  else if s.rd (F.vatBankStatus_PWR k) = 2 then s
  else (s.set1 (F.vatBankStatus_RET_VOID k)).iff (s.vat.moving.any fun m => m.1 == k && m.2.2 == 0) (·.set1 (F.vatBankStatus_FILLING k))

/-- The initialisation shows, and the banks in the hash are counted. -/
def initShown (s : State) : State :=
  let u := (s.clr F.vatBgtPos_PHASE).set1 F.vatCtl_INIT
  u.wr F.vatStatus_BANKS ((List.range 64).filter fun k => u.flag (F.vatBankStatus_IN_HASH k)).length

theorem vatInitStart_eq (s : State) : vatInitStart s = initShown ((vatKeyed s).forN 64 bankStarts) := rfl

theorem vatKeyed_canonical {s : State} (h : s.Canonical) : (vatKeyed s).Canonical where
  cells := (State.incWrap_canonical (State.wr_canonical h)).cells
  latched := h.latched
  snap := h.snap
  params := h.params
  mem := h.mem
  vat := wf_nil
  flash := h.flash

/-- The registers that a new key shows in. -/
theorem writes_keyed {s : State} (h : s.Canonical) :
    Writes [F.vatStatus_STATE, F.vatStatus_KEY_ID] s ((s.wr F.vatStatus_STATE 1).incWrap F.vatStatus_KEY_ID) :=
  writes_wr (writes_wr (writes_refl h) (by simp) 1) (by simp) _

theorem writes_initShown {s : State} (h : s.Canonical) :
    Writes [F.vatBgtPos_PHASE, F.vatCtl_INIT, F.vatStatus_BANKS] s (initShown s) :=
  writes_wr (writes_wr (writes_wr (writes_refl h) (by simp) 0) (by simp) 1) (by simp) _

/-- The fields of bank `k` that the start of an initialisation writes. -/
def startFlds (k : Nat) : List Fld := [F.vatBankStatus_IN_HASH k, F.vatBankStatus_RET_VOID k, F.vatBankStatus_FILLING k]

theorem writes_bankHashed (k : Nat) {s : State} (h : s.Canonical) : Writes [F.vatBankStatus_IN_HASH k] s (bankHashed k s) :=
  writes_wr (writes_refl h) (by simp) _

theorem writes_bankFills (k : Nat) {s : State} (h : s.Canonical) :
    Writes [F.vatBankStatus_RET_VOID k, F.vatBankStatus_FILLING k] (bankHashed k s) (bankStarts k s) := by
  have hhash := writes_refl (fs := [F.vatBankStatus_RET_VOID k, F.vatBankStatus_FILLING k]) (writes_bankHashed k h).1
  have hvoid := writes_wr hhash (f := F.vatBankStatus_RET_VOID k) (by simp) 1
  exact writes_ite (writes_wr hhash (by simp) 1) (writes_ite hhash (writes_ite (writes_wr hvoid (by simp) 1) hvoid))

theorem writes_bankStarts (k : Nat) {s : State} (h : s.Canonical) : Writes (startFlds k) s (bankStarts k s) :=
  writes_trans (writes_mono (writes_bankHashed k h) (by simp [startFlds])) (writes_mono (writes_bankFills k h) (by simp [startFlds]))

/-- A bank's field is none that the start of an initialisation writes of bank `j`: it is another bank's, or another field. -/
theorem bankFld_not_start {k place : Nat} {f : Fld} (hf : BankFld k place f) {j : Nat} (hj : j < 64)
    (hne : k ≠ j ∨ place ≠ 0x104 ∧ place ≠ 0x105 ∧ place ≠ 0x106) : ∀ g ∈ startFlds j, f.key ≠ g.key := by
  simp only [startFlds, List.forall_mem_cons, List.not_mem_nil, false_implies, implies_true, and_true]
  exact ⟨bankFld_ne hf (bankFld_inHash hj) (by omega), bankFld_ne hf (bankFld_retVoid hj) (by omega),
    bankFld_ne hf (bankFld_filling hj) (by omega)⟩

/-- What an initialisation of `s` makes of bank `k`, as `t` shows it. -/
def Started (k : Nat) (s t : State) : Prop :=
  t.rd (F.vatBankStatus_IN_HASH k) = (if s.rd (F.vatBankStatus_HEALTH k) = 2 then 0 else 1) ∧
    (s.rd (F.vatBankStatus_PWR k) = 0 → t.rd (F.vatBankStatus_FILLING k) = 1) ∧
    (s.rd (F.vatBankStatus_PWR k) = 1 → t.rd (F.vatBankStatus_RET_VOID k) = 1)

theorem bankStarts_started {k : Nat} (hk : k < 64) {s : State} (h : s.Canonical) : Started k s (bankStarts k s) := by
  have hhash := writes_bankHashed k h
  have hpwr : (bankHashed k s).rd (F.vatBankStatus_PWR k) = s.rd (F.vatBankStatus_PWR k) :=
    writes_rd hhash (by simpa using bankFld_ne (bankFld_pwr hk) (bankFld_inHash hk) (.inr (by decide)))
  refine ⟨?_, fun h0 => ?_, fun h1 => ?_⟩
  · rw [writes_rd (writes_bankFills k h)]
    · rw [bankHashed, State.rd_wr_same h]
      split <;> simp [*, bit, F.vatBankStatus_IN_HASH]
    · simpa using ⟨bankFld_ne (bankFld_inHash hk) (bankFld_retVoid hk) (.inr (by decide)),
        bankFld_ne (bankFld_inHash hk) (bankFld_filling hk) (.inr (by decide))⟩
  · rw [bankStarts, if_pos (hpwr.trans h0)]
    exact State.rd_wr_same hhash.1 _ _
  · have hvoid : ((bankHashed k s).set1 (F.vatBankStatus_RET_VOID k)).rd (F.vatBankStatus_RET_VOID k) = 1 := State.rd_wr_same hhash.1 _ _
    rw [bankStarts, if_neg (by omega), if_neg (by omega), State.iff]
    split
    · exact (State.rd_wr_other (State.set1_canonical hhash.1) _ _ _
        (bankFld_ne (bankFld_retVoid hk) (bankFld_filling hk) (.inr (by decide)))).trans hvoid
    · exact hvoid

theorem started_of_rd {k : Nat} {s t u : State} (h : Started k s t) (hrd : ∀ g ∈ startFlds k, u.rd g = t.rd g) : Started k s u := by
  simp only [startFlds, List.forall_mem_cons] at hrd
  obtain ⟨hhash, hvoid, hfill, -⟩ := hrd
  rwa [Started, hhash, hvoid, hfill]

theorem forN_bankStarts {k : Nat} (hk : k < 64) {s : State} (h : s.Canonical) : Started k s (s.forN 64 bankStarts) := by
  refine forL_at (P := fun u => u.Canonical ∧ u.rd (F.vatBankStatus_PWR k) = s.rd (F.vatBankStatus_PWR k) ∧
    u.rd (F.vatBankStatus_HEALTH k) = s.rd (F.vatBankStatus_HEALTH k)) ⟨h, rfl, rfl⟩ (.inl (List.mem_range.2 hk))
    (fun j hj u hu => ?_) (fun u hu => ?_) (fun j hj hjk u hu hstarted => ?_)
  · obtain ⟨hc, hpwr, hhealth⟩ := hu
    have hwrites := writes_bankStarts j hc
    exact ⟨hwrites.1, (writes_rd hwrites (bankFld_not_start (bankFld_pwr hk) (List.mem_range.1 hj) (.inr (by decide)))).trans hpwr,
      (writes_rd hwrites (bankFld_not_start (bankFld_health hk) (List.mem_range.1 hj) (.inr (by decide)))).trans hhealth⟩
  · obtain ⟨hc, hpwr, hhealth⟩ := hu
    have hstarted := bankStarts_started hk hc
    rwa [Started, hpwr, hhealth] at hstarted
  · refine started_of_rd hstarted fun g hg => writes_rd (writes_bankStarts j hu.1) ?_
    simp only [startFlds, List.mem_cons, List.not_mem_nil, or_false] at hg
    have hj64 := List.mem_range.1 hj
    rcases hg with rfl | rfl | rfl
    · exact bankFld_not_start (bankFld_inHash hk) hj64 (.inl hjk.symm)
    · exact bankFld_not_start (bankFld_retVoid hk) hj64 (.inl hjk.symm)
    · exact bankFld_not_start (bankFld_filling hk) hj64 (.inl hjk.symm)

/-- Every register below the banks' stands as it was when they have started. -/
theorem rd_forN_bankStarts {s : State} (h : s.Canonical) {g : Fld} (hg : ∀ j, j < 64 → ∀ f ∈ startFlds j, g.key ≠ f.key) :
    (s.forN 64 bankStarts).rd g = s.rd g := by
  obtain ⟨-, -, hrd⟩ := writes_forN h fun j _ => writes_bankStarts j
  exact hrd g hg

theorem below_not_start {g : Fld} (hg : g.key % 2 ^ 30 / 64 < 0xD01000) : ∀ j, j < 64 → ∀ f ∈ startFlds j, g.key ≠ f.key := by
  intro j hj
  simp only [startFlds, List.forall_mem_cons, List.not_mem_nil, false_implies, implies_true, and_true]
  exact ⟨(bankFld_ne_below (bankFld_inHash hj) hg).symm, (bankFld_ne_below (bankFld_retVoid hj) hg).symm,
    (bankFld_ne_below (bankFld_filling hj) hg).symm⟩

/-- A field of a bank stands as it was when the initialisation shows. -/
theorem bankFld_not_shown {k place : Nat} {f : Fld} (hf : BankFld k place f) :
    ∀ g ∈ [F.vatBgtPos_PHASE, F.vatCtl_INIT, F.vatStatus_BANKS], f.key ≠ g.key := fun g hg =>
  bankFld_ne_below hf (by revert g; decide)

theorem bankFld_not_keyed {k place : Nat} {f : Fld} (hf : BankFld k place f) :
    ∀ g ∈ [F.vatStatus_STATE, F.vatStatus_KEY_ID], f.key ≠ g.key := fun g hg => bankFld_ne_below hf (by revert g; decide)

/-- What the start of an initialisation leaves of a field: of a bank's, but the three that it writes, all. -/
theorem rd_vatInitStart {s : State} (h : s.Canonical) {g : Fld} (hkeyed : ∀ f ∈ [F.vatStatus_STATE, F.vatStatus_KEY_ID], g.key ≠ f.key)
    (hstart : ∀ j, j < 64 → ∀ f ∈ startFlds j, g.key ≠ f.key)
    (hshown : ∀ f ∈ [F.vatBgtPos_PHASE, F.vatCtl_INIT, F.vatStatus_BANKS], g.key ≠ f.key) : (vatInitStart s).rd g = s.rd g := by
  obtain ⟨hloop, -⟩ := writes_forN (vatKeyed_canonical h) fun j _ => writes_bankStarts j
  rw [vatInitStart_eq, writes_rd (writes_initShown hloop) hshown, rd_forN_bankStarts (vatKeyed_canonical h) hstart]
  exact writes_rd (writes_keyed h) hkeyed

theorem rd_vatInitStart_bank {s : State} (h : s.Canonical) {k place : Nat} {g : Fld} (hg : BankFld k place g)
    (hne : place ≠ 0x104 ∧ place ≠ 0x105 ∧ place ≠ 0x106) : (vatInitStart s).rd g = s.rd g :=
  rd_vatInitStart h (bankFld_not_keyed hg) (fun _ hj => bankFld_not_start hg hj (.inr hne)) (bankFld_not_shown hg)

/-- The registers that show an initialisation. -/
theorem vatInitStart_shows {s : State} (h : s.Canonical) : (vatInitStart s).rd F.vatStatus_STATE = 1 ∧
    (vatInitStart s).rd F.vatCtl_INIT = 1 ∧
    (vatInitStart s).rd F.vatStatus_KEY_ID = (s.rd F.vatStatus_KEY_ID + 1) % 2 ^ F.vatStatus_KEY_ID.width := by
  have hkey := vatKeyed_canonical h
  have hstate : (s.wr F.vatStatus_STATE 1).Canonical := State.wr_canonical h
  obtain ⟨hloop, -⟩ := writes_forN hkey fun j _ => writes_bankStarts j
  have hshown {g : Fld} (hg : g.key % 2 ^ 30 / 64 < 0xD01000)
      (hne : ∀ f ∈ [F.vatBgtPos_PHASE, F.vatCtl_INIT, F.vatStatus_BANKS], g.key ≠ f.key) :
      (vatInitStart s).rd g = (vatKeyed s).rd g := by
    rw [vatInitStart_eq, writes_rd (writes_initShown hloop) hne, rd_forN_bankStarts hkey (below_not_start hg)]
  refine ⟨(hshown (by decide) (by decide)).trans ?_, ?_, (hshown (by decide) (by decide)).trans ?_⟩
  · exact (State.rd_wr_other hstate _ _ _ (by decide)).trans (State.rd_wr_same h _ _)
  · rw [vatInitStart_eq]
    have hphase : (((vatKeyed s).forN 64 bankStarts).clr F.vatBgtPos_PHASE).Canonical := State.clr_canonical hloop
    exact (State.rd_wr_other (State.set1_canonical hphase) _ _ _ (by decide)).trans (State.rd_wr_same hphase _ _)
  · refine (State.rd_wr_same hstate _ _).trans ?_
    rw [State.rd_wr_other h _ _ _ (by decide)]

/-- What it makes of a bank. -/
theorem vatInitStart_starts {s : State} (h : s.Canonical) {k : Nat} (hk : k < 64) : Started k s (vatInitStart s) := by
  have hkey := vatKeyed_canonical h
  obtain ⟨hloop, -⟩ := writes_forN hkey fun j _ => writes_bankStarts j
  have hstarted := forN_bankStarts hk hkey
  have hkeyed {place : Nat} {g : Fld} (hg : BankFld k place g) : (vatKeyed s).rd g = s.rd g :=
    writes_rd (writes_keyed h) (bankFld_not_keyed hg)
  rw [Started, hkeyed (bankFld_pwr hk), hkeyed (bankFld_health hk)] at hstarted
  rw [vatInitStart_eq]
  refine started_of_rd hstarted fun g hg => writes_rd (writes_initShown hloop) ?_
  simp only [startFlds, List.mem_cons, List.not_mem_nil, or_false] at hg
  rcases hg with rfl | rfl | rfl
  · exact bankFld_not_shown (bankFld_inHash hk)
  · exact bankFld_not_shown (bankFld_retVoid hk)
  · exact bankFld_not_shown (bankFld_filling hk)

/-- Beside the registers an initialisation changes the Vat, by a new key and no contents, and draws one free value. -/
theorem vatInitStart_rest {s : State} (h : s.Canonical) : (vatInitStart s).vat = (vatKeyed s).vat ∧
    vatInitStart s = { s with cells := (vatInitStart s).cells, vat := (vatInitStart s).vat, freeCount := s.freeCount + 1 } := by
  obtain ⟨hloop, hregs, -⟩ := writes_forN (vatKeyed_canonical h) fun j _ => writes_bankStarts j
  obtain ⟨-, -, hshown⟩ := writes_initShown hloop
  rw [vatInitStart_eq]
  generalize (vatKeyed s).forN 64 bankStarts = u at hregs hshown
  generalize initShown u = t at hshown
  unfold RegsOnly at hregs hshown
  rw [hshown, hregs]
  exact ⟨rfl, rfl⟩

theorem vatKeyed_groupLog2 {s : State} (h : s.Canonical) : (vatKeyed s).vat.groupLog2 = min 6 (s.rd F.vatCtl_GROUP_LOG2) :=
  congrArg (min 6) (writes_rd (writes_keyed h) (by decide))

theorem vatKeyed_ka_odd (s : State) : (vatKeyed s).vat.ka % 2 = 1 := Nat.mul_add_mod' _ 2 1

/-! ### A Vat initialisation ends (R76, R102) -/

/-- The counters of a bank (R76). -/
def bankCounters (k : Nat) : List Fld := [F.vatBankErr_CE k, F.vatBankErr_UE k, F.vatBankErr_PAR k, F.vatBankErr_PARKED k,
  F.vatBankConflict_COUNT k, F.vatBankC0max_WAIT k]

/-- Fields cleared. -/
def clrAll (fs : List Fld) (s : State) : State := s.forL fs fun f u => u.clr f

theorem clrAll_canonical (fs : List Fld) {s : State} (h : s.Canonical) : (clrAll fs s).Canonical :=
  State.forL_canonical h fun _ _ => State.clr_canonical

theorem writes_clrAll {fs gs : List Fld} (hsub : gs ⊆ fs) {s t : State} (h : Writes fs s t) : Writes fs s (clrAll gs t) := by
  induction gs generalizing t with
  | nil => exact h
  | cons f gs ih => exact ih (List.subset_of_cons_subset hsub) (writes_wr h (hsub (by simp)) 0)

/-- A field that reads 0 still does when others are cleared. -/
theorem clrAll_zero {fs : List Fld} (hfs : ∀ g ∈ fs, g.reset = 0) {f : Fld} (hreset : f.reset = 0) {s : State} (h : s.Canonical)
    (hf : s.rd f = 0) : (clrAll fs s).rd f = 0 := by
  induction fs generalizing s with
  | nil => exact hf
  | cons g fs ih =>
    exact ih (fun d hd => hfs d (by simp [hd])) (State.clr_canonical h) (rd_clr_zero h hf (hreset.trans (hfs g (by simp)).symm))

theorem clrAll_clears {fs : List Fld} (hfs : ∀ g ∈ fs, g.reset = 0) {f : Fld} (hf : f ∈ fs) {s : State} (h : s.Canonical) :
    (clrAll fs s).rd f = 0 :=
  forL_at (P := State.Canonical) (Q := fun u => u.rd f = 0) h (.inl hf) (fun _ _ _ => State.clr_canonical) (fun _ hu => rd_clr_same hu f)
    fun g hg _ _ hu hzero => rd_clr_zero hu hzero ((hfs f hf).trans (hfs g hg).symm)

/-- The end of an initialisation in a bank: its zero-fill is over, and its counters start from zero. -/
def bankEnds (k : Nat) (s : State) : State :=
  ((((((if s.rd (F.vatBankStatus_PWR k) = 0 then s.clr (F.vatBankStatus_FILLING k) else s).clr (F.vatBankErr_CE k)).clr
    (F.vatBankErr_UE k)).clr (F.vatBankErr_PAR k)).clr (F.vatBankErr_PARKED k)).clr (F.vatBankConflict_COUNT k)).clr
    (F.vatBankC0max_WAIT k)

theorem bankEnds_eq (k : Nat) (s : State) : bankEnds k s =
    clrAll (bankCounters k) (if s.rd (F.vatBankStatus_PWR k) = 0 then s.clr (F.vatBankStatus_FILLING k) else s) := rfl

/-- The records of the device that an initialisation clears as it ends. -/
def initCleared : List Fld := [F.vatBgtPos_PASSES, F.vatBgtFail_VALID, F.vatBgtFail_COUNT, F.vatErrLast_VALID]

/-- The records of the device cleared, the longest class-0 response last. -/
def recordsCleared (s : State) : State := (clrAll initCleared s).clr F.rindC0Worst_CCLK

/-- The end of an initialisation, once its banks have ended theirs. -/
def initEnded (s : State) : State := onVat (fun v => { v with ueSince := [], ceStamps := [] }) (recordsCleared s)

/-- What the model does once the banks have ended theirs, in its own words. -/
def initRaised (s : State) : State :=
  let s := (((s.clr F.vatBgtPos_PASSES).clr F.vatBgtFail_VALID).clr F.vatBgtFail_COUNT).clr F.vatErrLast_VALID
  raise 448 { s.clr F.rindC0Worst_CCLK with vat := { s.vat with ueSince := [], ceStamps := [] } }

theorem initRaised_eq (s : State) : initRaised s = raise 448 (initEnded s) := by
  have hvat : (recordsCleared s).vat = s.vat := rfl
  simp only [initRaised, initEnded, onVat, hvat, State.clr_vat]
  rfl

/-- READY, shown before the banks end their initialisation. -/
def initReady (s : State) : State := (s.wr F.vatStatus_STATE 2).clr F.vatCtl_INIT

theorem vatInitEnd_eq (s : State) : vatInitEnd s = raise 448 (initEnded ((initReady s).forN 64 bankEnds)) := by
  rw [← initRaised_eq]
  unfold initReady bankEnds
  rfl

/-- The fields of bank `k` that the end of an initialisation writes. -/
def endFlds (k : Nat) : List Fld := F.vatBankStatus_FILLING k :: bankCounters k

theorem endFlds_reset {k : Nat} : ∀ f ∈ endFlds k, f.reset = 0 := by
  simp only [endFlds, bankCounters, List.forall_mem_cons, List.not_mem_nil, false_implies, implies_true, and_true]
  exact ⟨rfl, rfl, rfl, rfl, rfl, rfl, rfl⟩

theorem bankCounters_reset {k : Nat} : ∀ f ∈ bankCounters k, f.reset = 0 := fun f hf =>
  endFlds_reset f (List.mem_cons_of_mem _ hf)

theorem writes_bankEnds (k : Nat) {s : State} (h : s.Canonical) : Writes (endFlds k) s (bankEnds k s) :=
  bankEnds_eq k s ▸ writes_clrAll (by simp [endFlds]) (writes_ite (writes_wr (writes_refl h) (by simp [endFlds]) 0) (writes_refl h))

/-- The end of an initialisation in a bank clears fields: what reads 0 goes on doing so. -/
theorem bankEnds_zero (k : Nat) {f : Fld} (hreset : f.reset = 0) {s : State} (h : s.Canonical) (hf : s.rd f = 0) :
    (bankEnds k s).rd f = 0 := by
  rw [bankEnds_eq]
  refine clrAll_zero bankCounters_reset hreset (ite_canonical (State.clr_canonical h) h) ?_
  split
  · exact rd_clr_zero h hf hreset
  · exact hf

/-- What the end of an initialisation of `s` makes of bank `k`, as `t` shows it. -/
def Ended (k : Nat) (s t : State) : Prop :=
  (s.rd (F.vatBankStatus_PWR k) = 0 → t.rd (F.vatBankStatus_FILLING k) = 0) ∧ ∀ f ∈ bankCounters k, t.rd f = 0

theorem bankEnds_ended (k : Nat) {s : State} (h : s.Canonical) : Ended k s (bankEnds k s) := by
  refine ⟨fun hpwr => ?_, fun f hf => clrAll_clears bankCounters_reset hf (ite_canonical (State.clr_canonical h) h)⟩
  rw [bankEnds_eq, if_pos hpwr]
  exact clrAll_zero bankCounters_reset rfl (State.clr_canonical h) (rd_clr_same h _)

/-- PWR of a bank is none of the fields that the end of an initialisation writes. -/
theorem pwr_not_end {k : Nat} (hk : k < 64) {j : Nat} (hj : j < 64) : ∀ g ∈ endFlds j, (F.vatBankStatus_PWR k).key ≠ g.key := by
  have hpwr := bankFld_pwr hk
  simp only [endFlds, bankCounters, List.forall_mem_cons, List.not_mem_nil, false_implies, implies_true, and_true]
  exact ⟨bankFld_ne hpwr (bankFld_filling hj) (by omega), bankFld_ne hpwr (bankFld_ce hj) (by omega),
    bankFld_ne hpwr (bankFld_ue hj) (by omega), bankFld_ne hpwr (bankFld_par hj) (by omega), bankFld_ne hpwr (bankFld_parked hj) (by omega),
    bankFld_ne hpwr (bankFld_conflict hj) (by omega), bankFld_ne hpwr (bankFld_c0max hj) (by omega)⟩

theorem below_not_end {g : Fld} (hg : g.key % 2 ^ 30 / 64 < 0xD01000) : ∀ j, j < 64 → ∀ f ∈ endFlds j, g.key ≠ f.key := by
  intro j hj
  simp only [endFlds, bankCounters, List.forall_mem_cons, List.not_mem_nil, false_implies, implies_true, and_true]
  exact ⟨(bankFld_ne_below (bankFld_filling hj) hg).symm, (bankFld_ne_below (bankFld_ce hj) hg).symm,
    (bankFld_ne_below (bankFld_ue hj) hg).symm, (bankFld_ne_below (bankFld_par hj) hg).symm,
    (bankFld_ne_below (bankFld_parked hj) hg).symm, (bankFld_ne_below (bankFld_conflict hj) hg).symm,
    (bankFld_ne_below (bankFld_c0max hj) hg).symm⟩

theorem forN_bankEnds {k : Nat} (hk : k < 64) {s : State} (h : s.Canonical) : Ended k s (s.forN 64 bankEnds) := by
  refine forL_at (P := fun u => u.Canonical ∧ u.rd (F.vatBankStatus_PWR k) = s.rd (F.vatBankStatus_PWR k)) ⟨h, rfl⟩
    (.inl (List.mem_range.2 hk)) (fun j hj u hu => ?_) (fun u hu => ?_) (fun j _ _ u hu hended => ?_)
  · have hwrites := writes_bankEnds j hu.1
    exact ⟨hwrites.1, (writes_rd hwrites (pwr_not_end hk (List.mem_range.1 hj))).trans hu.2⟩
  · have hended := bankEnds_ended k hu.1
    rwa [Ended, hu.2] at hended
  · obtain ⟨hfill, hcounters⟩ := hended
    exact ⟨fun hpwr => bankEnds_zero j rfl hu.1 (hfill hpwr),
      fun f hf => bankEnds_zero j (bankCounters_reset f hf) hu.1 (hcounters f hf)⟩

theorem writes_recordsCleared {s : State} (h : s.Canonical) : Writes (F.rindC0Worst_CCLK :: initCleared) s (recordsCleared s) :=
  writes_wr (writes_clrAll (by simp) (writes_refl h)) (by simp) 0

theorem initEnded_canonical {s : State} (h : s.Canonical) : (initEnded s).Canonical :=
  onVat_canonical (writes_recordsCleared h).1

theorem recordsCleared_clears {s : State} (h : s.Canonical) : ∀ f ∈ F.rindC0Worst_CCLK :: initCleared, (recordsCleared s).rd f = 0 := by
  have hcleared := clrAll_canonical initCleared h
  have hreset : ∀ f ∈ initCleared, f.reset = 0 := by decide
  refine List.forall_mem_cons.2 ⟨rd_clr_same hcleared _, fun f hf => ?_⟩
  exact rd_clr_zero hcleared (clrAll_clears hreset hf h) (hreset f hf)

theorem recordsCleared_zero {f : Fld} (hreset : f.reset = 0) {s : State} (h : s.Canonical) (hf : s.rd f = 0) :
    (recordsCleared s).rd f = 0 :=
  rd_clr_zero (clrAll_canonical initCleared h) (clrAll_zero (by decide) hreset h hf) hreset

theorem writes_initReady {s : State} (h : s.Canonical) : Writes [F.vatStatus_STATE, F.vatCtl_INIT] s (initReady s) :=
  writes_wr (writes_wr (writes_refl h) (by simp) 2) (by simp) 0

section
variable {s : State} (h : s.Canonical)
include h

theorem forN_bankEnds_ready_canonical : ((initReady s).forN 64 bankEnds).Canonical :=
  (writes_forN (writes_initReady h).1 fun j _ => writes_bankEnds j).1

/-- A register below the banks' as the banks end their initialisation. -/
theorem rd_forN_bankEnds_below {g : Fld} (hbelow : g.key % 2 ^ 30 / 64 < 0xD01000) :
    ((initReady s).forN 64 bankEnds).rd g = (initReady s).rd g := by
  obtain ⟨-, -, hrd⟩ := writes_forN (writes_initReady h).1 fun j _ => writes_bankEnds j
  exact hrd g (below_not_end hbelow)

theorem rd_vatInitEnd {g : Fld} (hdelivery : deliveryKey g.key = false) :
    (vatInitEnd s).rd g = (recordsCleared ((initReady s).forN 64 bankEnds)).rd g := by
  rw [vatInitEnd_eq, raise_rd (initEnded_canonical (forN_bankEnds_ready_canonical h)) _ _ hdelivery, initEnded, onVat_rd]

/-- A register below the banks' that the end of an initialisation does not clear. -/
theorem rd_vatInitEnd_below {g : Fld} (hbelow : g.key % 2 ^ 30 / 64 < 0xD01000) (hdelivery : deliveryKey g.key = false)
    (hcleared : ∀ f ∈ F.rindC0Worst_CCLK :: initCleared, g.key ≠ f.key) : (vatInitEnd s).rd g = (initReady s).rd g := by
  rw [rd_vatInitEnd h hdelivery, writes_rd (writes_recordsCleared (forN_bankEnds_ready_canonical h)) hcleared,
    rd_forN_bankEnds_below h hbelow]

theorem vatInitEnd_shows : (vatInitEnd s).rd F.vatStatus_STATE = 2 ∧ (vatInitEnd s).rd F.vatCtl_INIT = 0 := by
  have hstate : (s.wr F.vatStatus_STATE 2).Canonical := State.wr_canonical h
  rw [rd_vatInitEnd_below h (by decide) (by decide) (by decide), rd_vatInitEnd_below h (by decide) (by decide) (by decide)]
  exact ⟨(State.rd_wr_other hstate _ _ _ (by decide)).trans (State.rd_wr_same h _ _), rd_clr_same hstate _⟩

theorem vatInitEnd_clears : ∀ f ∈ F.rindC0Worst_CCLK :: initCleared, (vatInitEnd s).rd f = 0 := fun f hf => by
  rw [rd_vatInitEnd h (by revert f; decide)]
  exact recordsCleared_clears (forN_bankEnds_ready_canonical h) f hf

theorem vatInitEnd_ended {k : Nat} (hk : k < 64) : Ended k s (vatInitEnd s) := by
  have hready := writes_initReady h
  obtain ⟨hfill, hcounters⟩ := forN_bankEnds hk hready.1
  have hpwr : (initReady s).rd (F.vatBankStatus_PWR k) = s.rd (F.vatBankStatus_PWR k) :=
    writes_rd hready fun f hf => bankFld_ne_below (bankFld_pwr hk) (by revert f; decide)
  have hrd {place : Nat} {f : Fld} (hf : BankFld k place f) (hreset : f.reset = 0) (hzero : ((initReady s).forN 64 bankEnds).rd f = 0) :
      (vatInitEnd s).rd f = 0 := by
    rw [rd_vatInitEnd h (not_delivery_of_not_report (not_report_of_not_manager (bankFld_not_manager hf)))]
    exact recordsCleared_zero hreset (forN_bankEnds_ready_canonical h) hzero
  simp only [bankCounters, List.forall_mem_cons] at hcounters
  obtain ⟨hce, hue, hpar, hparked, hconflict, hc0max, -⟩ := hcounters
  refine ⟨fun h0 => hrd (bankFld_filling hk) rfl (hfill (hpwr.trans h0)), ?_⟩
  simp only [bankCounters, List.forall_mem_cons, List.not_mem_nil, false_implies, implies_true, and_true]
  exact ⟨hrd (bankFld_ce hk) rfl hce, hrd (bankFld_ue hk) rfl hue, hrd (bankFld_par hk) rfl hpar, hrd (bankFld_parked hk) rfl hparked,
    hrd (bankFld_conflict hk) rfl hconflict, hrd (bankFld_c0max hk) rfl hc0max⟩

theorem vatInitEnd_data : (vatInitEnd s).vat.data = s.vat.data := by
  obtain ⟨hloop, hregs, -⟩ := writes_forN (writes_initReady h).1 fun j _ => writes_bankEnds j
  have hvat : ((initReady s).forN 64 bankEnds).vat = s.vat := by
    generalize (initReady s).forN 64 bankEnds = u at hregs
    unfold RegsOnly at hregs
    rw [hregs]
    change (initReady s).vat = s.vat
    exact writes_vat (writes_initReady h)
  rw [vatInitEnd_eq, raise_vat (initEnded_canonical hloop), initEnded, onVat_vat, writes_vat (writes_recordsCleared hloop), hvat]

theorem vatInitEnd_pends : Pends 448 s (vatInitEnd s) := by
  have hloop := forN_bankEnds_ready_canonical h
  rw [vatInitEnd_eq]
  refine pends_of_raise (initEnded_canonical hloop) (by decide) ?_ id
  rw [initEnded, onVat_rd, writes_rd (writes_recordsCleared hloop) (by decide),
    rd_forN_bankEnds_below h (by decide)]
  exact writes_rd (writes_initReady h) (by decide)

end

end Sys2Proof.Machine

section
open Sys2Proof Sys2Proof.Machine
set_option Elab.async false

/-- Settles O9: an initialisation starts each bank by its own state (`vatInitStart_starts`, `vatInitStart_rest`), and its end clears fields
that nothing sets again (`vatInitEnd_ended`, `vatInitEnd_clears`). -/
theorem vatInitialises : Obligations.VatInitialises := by
  unfold Obligations.VatInitialises
  refine fun s h => ⟨fun hscan => ?_, fun hstate => ?_⟩
  · have hexec : exec .vatReinit s = .next (vatInitStart s) := by
      change execVatReinit s = _
      simp only [execVatReinit, hscan, Bool.false_eq_true, if_false]
    obtain ⟨hstate, hinit, hkey⟩ := vatInitStart_shows h
    obtain ⟨hvat, hrest⟩ := vatInitStart_rest h
    refine ⟨_, hexec, hstate, hinit, hkey, ?_, ?_, ?_, ?_, fun k => ?_, hrest⟩
    · rw [hvat]; rfl
    · rw [hvat]; rfl
    · rw [hvat]; exact vatKeyed_ka_odd s
    · rw [hvat]; exact vatKeyed_groupLog2 h
    · obtain ⟨hhash, hfill, hvoid⟩ := vatInitStart_starts h k.isLt
      exact ⟨hhash, rd_vatInitStart_bank h (bankFld_pwr k.isLt) (by decide), rd_vatInitStart_bank h (bankFld_health k.isLt) (by decide),
        hfill, hvoid⟩
  · have hexec : exec .vatInitDone s = .next (vatInitEnd s) := by
      change execVatInitDone s = _
      rw [execVatInitDone, if_pos hstate]
    obtain ⟨hready, hinit⟩ := vatInitEnd_shows h
    have hcleared := vatInitEnd_clears h
    refine ⟨_, hexec, hready, hinit, vatInitEnd_data h, vatInitEnd_pends h, hcleared _ (by decide), hcleared _ (by decide),
      hcleared _ (by decide), fun k => ?_⟩
    obtain ⟨hfill, hcounters⟩ := vatInitEnd_ended h k.isLt
    simp only [bankCounters, List.forall_mem_cons] at hcounters
    obtain ⟨hce, hue, hpar, hparked, hconflict, hc0max, -⟩ := hcounters
    exact ⟨hfill, hce, hue, hpar, hparked, hconflict, hc0max⟩
end

namespace Sys2Proof.Machine

-- One declaration after another: the memory limit of the check counts the stack of every thread that elaborates beside them.
set_option Elab.async false

/-! ### The place of a line, and what its bank and its window read (R72 to R74, R83, R96) -/

theorem vatLoc_congr {s u : State} (hvat : u.vat = s.vat) (hhash : ∀ k, u.rd (F.vatBankStatus_IN_HASH k) = s.rd (F.vatBankStatus_IN_HASH k))
    (off : Nat) : u.vatLoc off = s.vatLoc off := by
  have hsize : u.groupSize = s.groupSize := by simp only [State.groupSize, hvat]
  have hbanks : u.groupBanks = s.groupBanks := by
    funext g
    simp only [State.groupBanks, hsize, State.flag, hhash]
  simp only [State.vatLoc, hsize, hbanks, hvat]

/-- All bytes of a line stand in one row of one bank. -/
theorem vatLoc_line (s : State) {off at_ : Nat} (hline : off / 64 = at_ / 64) : s.vatLoc off = s.vatLoc at_ := by
  have hspan : s.groupSize * 0x400000 = 64 * (s.groupSize * 65536) := by ring
  have hgroup : off / (s.groupSize * 0x400000) = at_ / (s.groupSize * 0x400000) := by
    rw [hspan, ← Nat.div_div_eq_div_mul off 64, ← Nat.div_div_eq_div_mul at_ 64, hline]
  have hplace : off % (s.groupSize * 0x400000) / 64 = at_ % (s.groupSize * 0x400000) / 64 := by
    rw [hspan, Nat.mod_mul_right_div_self, Nat.mod_mul_right_div_self, hline]
  have hend : (0x10000000 ≤ off) = (0x10000000 ≤ at_) := by
    rw [eq_iff_iff]
    omega
  simp only [State.vatLoc, hgroup, hplace, hend]

theorem bankServes_congr {s u : State} {k : Nat} (hstate : u.rd F.vatStatus_STATE = s.rd F.vatStatus_STATE)
    (hbank : ∀ f ∈ [F.vatBankStatus_PWR k, F.vatBankStatus_FILLING k, F.vatBankStatus_HEALTH k], u.rd f = s.rd f) :
    u.bankServes k = s.bankServes k := by
  simp only [List.forall_mem_cons] at hbank
  obtain ⟨hpwr, hfill, hhealth, -⟩ := hbank
  simp only [State.bankServes, State.flag, hstate, hpwr, hfill, hhealth]

theorem lockedAgainst_congr {s u : State} (hlock : ∀ k, k < 4 → u.rd (F.vatLock_BASE k) = s.rd (F.vatLock_BASE k) ∧
    u.rd (F.vatLock_SIZE k) = s.rd (F.vatLock_SIZE k)) (who : Initiator) (off : Nat) :
    u.lockedAgainst who off = s.lockedAgainst who off := by
  unfold State.lockedAgainst
  refine congrArg₂ (· && ·) rfl ?_
  rw [Bool.eq_iff_iff, List.any_eq_true, List.any_eq_true]
  refine exists_congr fun k => and_congr_right fun hk => ?_
  obtain ⟨hbase, hsize⟩ := hlock k (List.mem_range.1 hk)
  rw [hbase, hsize]

/-! ### A request granted at its bank (R71, R79, R81, R248) -/

/-- The wait and the conflicts of a granted request, counted at its bank. -/
def grantCounted (who : Initiator) (off c0Wait conflict : Nat) (s : State) : State :=
  match s.vatLoc off with
  | some (k, _) =>
    (if s.isC0 who then s.maxTo (F.vatBankC0max_WAIT k) c0Wait else s).wr (F.vatBankConflict_COUNT k)
      (min (s.rd (F.vatBankConflict_COUNT k) + conflict) (2 ^ 48 - 1))
  | none => s

/-- The state in which a granted request is served. -/
def granted (who : Initiator) (off c0Wait conflict : Nat) (s : State) : State :=
  c0Response who c0Wait (grantCounted who off c0Wait conflict s)

/-- A read whose address parity holds. -/
theorem vatGrant_read (who : Initiator) (off c0Wait conflict : Nat) (s : State) : vatGrant who off .read .none c0Wait conflict s =
    let r := lineRead who vatBase off 64 .none (granted who off c0Wait conflict s)
    keepResp r.1 r.2.1 r.2.2 := by
  simp only [vatGrant, reduceCtorEq, false_and, if_false]
  rfl

/-- A write whose address parity holds. -/
theorem vatGrant_write (who : Initiator) (off c0Wait conflict : Nat) (bytes : List (Option Byte)) (s : State) :
    vatGrant who off (.write bytes) .none c0Wait conflict s =
      let r := lineWrite who off bytes .plain .none (granted who off c0Wait conflict s)
      keepResp [] r.1 r.2 := by
  simp only [vatGrant, reduceCtorEq, false_and, if_false]
  rfl

/-- The fields that a granted request counts in. -/
def grantFlds (k : Nat) : List Fld := [F.vatBankC0max_WAIT k, F.vatBankConflict_COUNT k, F.rindC0Worst_CCLK]

/-- `u` is `s` with a request granted at bank `k`: the Vat and the memory stand, and of the registers all but the counts. -/
def Granted (k : Nat) (s u : State) : Prop := u.Canonical ∧ u.vat = s.vat ∧ u.mem = s.mem ∧ WroteOnly (grantFlds k) s u

theorem granted_wr {k : Nat} {s u : State} (h : Granted k s u) {f : Fld} (hf : f ∈ grantFlds k) (v : Nat) : Granted k s (u.wr f v) := by
  obtain ⟨hc, hvat, hmem, hrd⟩ := h
  exact ⟨State.wr_canonical hc, hvat, hmem, fun g hg => (State.rd_wr_other hc f g v (hg f hf)).trans (hrd g hg)⟩

theorem granted_rind {k : Nat} {s u : State} (h : Granted k s u) (r : RindState) : Granted k s { u with rind := r } := by
  obtain ⟨hc, hvat, hmem, hrd⟩ := h
  exact ⟨rest_canonical hc, hvat, hmem, hrd⟩

theorem granted_c0Response {k : Nat} {s u : State} (h : Granted k s u) (who : Initiator) (wait : Nat) :
    Granted k s (c0Response who wait u) := by
  have hworst := fun r => granted_rind (granted_wr h (f := F.rindC0Worst_CCLK) (by simp [grantFlds])
    (max (u.rd F.rindC0Worst_CCLK) (min (32 + wait) (2 ^ F.rindC0Worst_CCLK.width - 1)))) r
  unfold c0Response
  dsimp only
  split
  · exact h
  · split
    · split
      · exact granted_rind (hworst _) _
      · exact hworst _
    · exact hworst _

theorem granted_leaves {s : State} (h : s.Canonical) (who : Initiator) {off k row : Nat} (hloc : s.vatLoc off = some (k, row))
    (c0Wait conflict : Nat) : Granted k s (granted who off c0Wait conflict s) := by
  have hself : Granted k s s := ⟨h, rfl, rfl, fun _ _ => rfl⟩
  refine granted_c0Response ?_ who c0Wait
  rw [grantCounted, hloc]
  refine granted_wr ?_ (by simp [grantFlds]) _
  split
  · exact granted_wr hself (by simp [grantFlds]) _
  · exact hself

section
variable {k : Nat} {s u : State} (h : Granted k s u)
include h

theorem granted_vat : u.vat = s.vat := by
  obtain ⟨-, hvat, -⟩ := h
  exact hvat

theorem granted_rd {f : Fld} (hf : ∀ g ∈ grantFlds k, f.key ≠ g.key) : u.rd f = s.rd f := by
  obtain ⟨-, -, -, hrd⟩ := h
  exact hrd f hf

/-- A bank's field but the two that a request counts in. -/
theorem granted_rd_bank (hk : k < 64) {j place : Nat} {f : Fld} (hf : BankFld j place f) (hne : place ≠ 0x400 ∧ place ≠ 0x600) :
    u.rd f = s.rd f := by
  refine granted_rd h ?_
  simp only [grantFlds, List.forall_mem_cons, List.not_mem_nil, false_implies, implies_true, and_true]
  exact ⟨bankFld_ne hf (bankFld_c0max hk) (.inr hne.2), bankFld_ne hf (bankFld_conflict hk) (.inr hne.1), bankFld_ne_below hf (by decide)⟩

/-- A register of the Vat below the banks'. -/
theorem granted_rd_below (hk : k < 64) {f : Fld} (hbelow : f.key % 2 ^ 30 / 64 < 0xD01000) (hf : f.key ≠ F.rindC0Worst_CCLK.key) :
    u.rd f = s.rd f := by
  refine granted_rd h ?_
  simp only [grantFlds, List.forall_mem_cons, List.not_mem_nil, false_implies, implies_true, and_true]
  exact ⟨(bankFld_ne_below (bankFld_c0max hk) hbelow).symm, (bankFld_ne_below (bankFld_conflict hk) hbelow).symm, hf⟩

theorem granted_vatLoc (off : Nat) : u.vatLoc off = s.vatLoc off := by
  refine vatLoc_congr (granted_vat h) (fun j => granted_rd h ?_) off
  simp only [grantFlds, List.forall_mem_cons, List.not_mem_nil, false_implies, implies_true, and_true]
  refine ⟨?_, ?_, ?_⟩ <;>
    simp [Fld.key, Fld.group, F.vatBankStatus_IN_HASH, F.vatBankC0max_WAIT, F.vatBankConflict_COUNT, F.rindC0Worst_CCLK] <;> omega

theorem granted_bankServes (hk : k < 64) : u.bankServes k = s.bankServes k := by
  refine bankServes_congr (granted_rd_below h hk (by decide) (by decide)) ?_
  simp only [List.forall_mem_cons, List.not_mem_nil, false_implies, implies_true, and_true]
  exact ⟨granted_rd_bank h hk (bankFld_pwr hk) (by decide), granted_rd_bank h hk (bankFld_filling hk) (by decide),
    granted_rd_bank h hk (bankFld_health hk) (by decide)⟩

theorem granted_lockedAgainst (hk : k < 64) (who : Initiator) (off : Nat) : u.lockedAgainst who off = s.lockedAgainst who off := by
  refine lockedAgainst_congr (fun j hj => ?_) who off
  have hkeys : ∀ j, j < 4 → ((F.vatLock_BASE j).key % 2 ^ 30 / 64 < 0xD01000 ∧ (F.vatLock_BASE j).key ≠ F.rindC0Worst_CCLK.key) ∧
      (F.vatLock_SIZE j).key % 2 ^ 30 / 64 < 0xD01000 ∧ (F.vatLock_SIZE j).key ≠ F.rindC0Worst_CCLK.key := by decide
  obtain ⟨⟨hbase, hbaseNe⟩, hsize, hsizeNe⟩ := hkeys j hj
  exact ⟨granted_rd_below h hk hbase hbaseNe, granted_rd_below h hk hsize hsizeNe⟩

end

/-! ### A line read (R71, R83, R90) -/

/-- No word of the row is poisoned. -/
def CleanRow (k row : Nat) (s : State) : Prop := ∀ w, w < 4 → s.poisoned (eccWord (physAddr k row (16 * w))) = false

theorem readWord_clean {k row w : Nat} {s : State} (h : s.poisoned (eccWord (physAddr k row (16 * w))) = false) :
    readWord k row w .none s = (s, false) := by
  simp [readWord, h]

theorem lineRead_serves {s : State} {off k row : Nat} (hloc : s.vatLoc off = some (k, row)) (hserves : s.bankServes k = true)
    (hclean : CleanRow k row s) (who : Initiator) (base n : Nat) :
    lineRead who base off n .none s = (cellsAt 0#8 s.vat.data (physAddr k row (off % 64)) n, false, s) := by
  have hwords : (wordsOf (off % 64) n).foldl (fun (acc : State × Bool) (w : Nat) =>
      let (s', p) := readWord k row w .none acc.1
      (if p then poisonSeen k row w s' else s', acc.2 || p)) (s, false) = (s, false) := by
    refine List.foldlRecOn (motive := (· = (s, false))) _ _ rfl fun acc hacc w hw => ?_
    have hw4 : w < 4 := List.mem_range.1 (List.mem_filter.1 hw).1
    rw [hacc, readWord_clean (hclean w hw4)]
    rfl
  simp only [lineRead, hloc, hserves, Bool.not_true, Bool.false_eq_true, if_false, reduceCtorEq, hwords]

/-! ### A line written (R71, R87, R94, R95) -/

/-- One byte written at its place in a row. -/
def putAt (kind : WriteKind) (k row : Nat) (l : List Host.Cell) (b : Nat × Byte) : List Host.Cell :=
  Sparse.put (physAddr k row b.1) (kind.apply (Sparse.get (physAddr k row b.1) 0#8 l) b.2) 0#8 l

/-- Bytes written in a row. -/
def written (kind : WriteKind) (k row : Nat) (bs : List (Nat × Byte)) (s : State) : State :=
  onVat (fun v => { v with data := bs.foldl (putAt kind k row) v.data }) s

theorem written_append (kind : WriteKind) (k row : Nat) (bs cs : List (Nat × Byte)) (s : State) :
    written kind k row cs (written kind k row bs s) = written kind k row (bs ++ cs) s := by
  simp only [written, onVat, List.foldl_append]

theorem setPoison_false {w : Nat} {s : State} (h : s.poisoned w = false) : setPoison w false s = s := by
  have hfilter : s.vat.poison.filter (· != w) = s.vat.poison := by
    refine List.filter_eq_self.2 fun v hv => ?_
    simp only [State.poisoned, List.contains_eq_mem, decide_eq_false_iff_not] at h
    simp only [bne_iff_ne]
    exact fun e => h (e ▸ hv)
  simp only [setPoison, Bool.false_eq_true, if_false, hfilter]

/-- Bytes of one word that meets no error and is not poisoned. -/
theorem writeWord_clean {k row w : Nat} {s : State} (h : s.poisoned (eccWord (physAddr k row (16 * w))) = false) (kind : WriteKind)
    (bs : List (Nat × Byte)) : writeWord k row w kind .none bs s = (written kind k row bs s, false) := by
  cases bs with
  | nil => rfl
  | cons b bs =>
    simp only [writeWord, List.isEmpty_cons, Bool.false_eq_true, if_false, setPoison_false h, readWord_clean h, ite_self]
    rfl

end Sys2Proof.Machine

namespace Sys2Proof.Machine

-- One declaration after another: the memory limit of the check counts the stack of every thread that elaborates beside them.
set_option Elab.async false

/-! ### The bytes of a written line -/

/-- A line of a bank that serves and a row that is clean, in no window locked against the writer, is written word by word. -/
theorem lineWrite_serves {s : State} {off k row : Nat} (hloc : s.vatLoc off = some (k, row)) (hserves : s.bankServes k = true)
    (hclean : CleanRow k row s) {who : Initiator} (hlock : s.lockedAgainst who off = false) (bytes : List (Option Byte))
    (kind : WriteKind) :
    lineWrite who off bytes kind .none s =
      (false, written kind k row ((List.range 4).flatMap fun w => wordBytes (off % 64) w bytes) s) := by
  have hwords (l : List Nat) (hl : ∀ w ∈ l, w < 4) (bs : List (Nat × Byte)) :
      l.foldl (fun (acc : State × Bool) (w : Nat) =>
        let (s', e) := writeWord k row w kind .none (wordBytes (off % 64) w bytes) acc.1
        (s', acc.2 || e)) (written kind k row bs s, false) =
      (written kind k row (bs ++ l.flatMap fun w => wordBytes (off % 64) w bytes) s, false) := by
    induction l generalizing bs with
    | nil => simp
    | cons w l ih =>
      have hword : (written kind k row bs s).poisoned (eccWord (physAddr k row (16 * w))) = false := hclean w (hl w (by simp))
      simp only [List.foldl_cons, writeWord_clean hword, written_append, Bool.or_false]
      rw [ih (fun v hv => hl v (by simp [hv])), List.flatMap_cons, List.append_assoc]
  have hall := hwords (List.range 4) (fun _ => List.mem_range.1) []
  simp only [lineWrite, hloc, hlock, hserves, Bool.not_true, Bool.false_eq_true, if_false, reduceCtorEq]
  rw [show s = written kind k row [] s from rfl, hall, List.nil_append]
  rfl

/-- The byte that a write from place `i` of a line brings to place `p`, if it is enabled. -/
def lineByte (i : Nat) (bytes : List (Option Byte)) (p : Nat) : Option Byte := if p < i then none else bytes.getD (p - i) none

/-- A write from the line's start brings its own entries. -/
theorem lineByte_zero (bytes : List (Option Byte)) (p : Nat) : lineByte 0 bytes p = bytes.getD p none := by
  simp [lineByte]

/-- The words of a line hold its 64 places in order. -/
theorem flatMap_wordBytes (i : Nat) (bytes : List (Option Byte)) : (List.range 4).flatMap (fun w => wordBytes i w bytes) =
    (List.range 64).filterMap fun p => (lineByte i bytes p).map (p, ·) := by
  have hword (w : Nat) : wordBytes i w bytes =
      ((List.range 16).map (16 * w + ·)).filterMap fun p => (lineByte i bytes p).map (p, ·) := by
    rw [List.filterMap_map]
    refine List.filterMap_congr fun j _ => ?_
    simp only [Function.comp, lineByte]
    split <;> rfl
  have hplaces : List.range 64 = (List.range 4).flatMap fun w => (List.range 16).map (16 * w + ·) := by decide
  rw [hplaces, List.filterMap_flatMap]
  simp only [hword]

/-- The entries of `new` at some places, written in a row that lists its cells in order. -/
def putRow (kind : WriteKind) (k row : Nat) (new : Nat → Option Byte) (ps : List Nat) (l : List Host.Cell) : List Host.Cell :=
  (ps.filterMap fun p => (new p).map (p, ·)).foldl (putAt kind k row) l

theorem putRow_cons (kind : WriteKind) (k row : Nat) (new : Nat → Option Byte) (p : Nat) (ps : List Nat) (l : List Host.Cell) :
    putRow kind k row new (p :: ps) l =
      putRow kind k row new ps ((new p).elim l fun b => putAt kind k row l (p, b)) := by
  cases h : new p <;> simp [putRow, h]

theorem putAt_rising {kind : WriteKind} {k row : Nat} {l : List Host.Cell} {b : Nat × Byte} (h : Sparse.Rising l) :
    Sparse.Rising (putAt kind k row l b) := put_rising _ _ _ _ h

theorem putAt_elim_rising {kind : WriteKind} {k row p : Nat} {l : List Host.Cell} (h : Sparse.Rising l) (o : Option Byte) :
    Sparse.Rising (o.elim l fun b => putAt kind k row l (p, b)) := by
  cases o with
  | none => exact h
  | some b => exact putAt_rising h

/-- A byte at none of the written places. -/
theorem get_putRow_other {kind : WriteKind} {k row : Nat} {new : Nat → Option Byte} {ps : List Nat} {l : List Host.Cell}
    (h : Sparse.Rising l) {a : Nat} (ha : ∀ p ∈ ps, a ≠ physAddr k row p) :
    Sparse.get a 0#8 (putRow kind k row new ps l) = Sparse.get a 0#8 l := by
  induction ps generalizing l with
  | nil => rfl
  | cons p ps ih =>
    rw [putRow_cons, ih (putAt_elim_rising h _) fun q hq => ha q (by simp [hq])]
    cases new p with
    | none => rfl
    | some b => exact get_put_other _ _ _ _ _ _ h (ha p (by simp))

/-- A byte at a written place takes what the write combines it to. -/
theorem get_putRow_at {kind : WriteKind} {k row : Nat} {new : Nat → Option Byte} {ps : List Nat} {l : List Host.Cell}
    (h : Sparse.Rising l) (hps : ps.Nodup) {p : Nat} (hp : p ∈ ps) : Sparse.get (physAddr k row p) 0#8 (putRow kind k row new ps l) =
      (new p).elim (Sparse.get (physAddr k row p) 0#8 l) (kind.apply (Sparse.get (physAddr k row p) 0#8 l)) := by
  have hplace {q r : Nat} (hne : q ≠ r) : physAddr k row q ≠ physAddr k row r := by
    unfold physAddr
    omega
  induction ps generalizing l with
  | nil => cases hp
  | cons q ps ih =>
    obtain ⟨hq, hps⟩ := List.nodup_cons.1 hps
    rw [putRow_cons]
    by_cases e : p = q
    · subst e
      rw [get_putRow_other (putAt_elim_rising h _) fun r hr => hplace (ne_of_mem_of_not_mem hr hq).symm]
      cases new p with
      | none => rfl
      | some b => exact get_put_same _ _ _ _ h
    · rw [ih (putAt_elim_rising h _) hps ((List.mem_cons.1 hp).resolve_left e)]
      cases new q with
      | none => rfl
      | some b =>
        have hget : Sparse.get (physAddr k row p) 0#8 (putAt kind k row l (q, b)) = Sparse.get (physAddr k row p) 0#8 l :=
          get_put_other _ _ _ _ _ _ h (hplace e)
        exact congrArg (fun old => (new p).elim old (kind.apply old)) hget

/-- Every byte of the Vat after a line's write. -/
theorem get_written {s : State} (h : s.Canonical) (kind : WriteKind) (k row i : Nat) (bytes : List (Option Byte)) (a : Nat) :
    Sparse.get a 0#8 (written kind k row ((List.range 4).flatMap fun w => wordBytes i w bytes) s).vat.data =
      if physAddr k row 0 ≤ a ∧ a < physAddr k row 64 then
        (lineByte i bytes (a - physAddr k row 0)).elim (Sparse.get a 0#8 s.vat.data) (kind.apply (Sparse.get a 0#8 s.vat.data))
      else Sparse.get a 0#8 s.vat.data := by
  have hrow : (written kind k row ((List.range 4).flatMap fun w => wordBytes i w bytes) s).vat.data =
      putRow kind k row (lineByte i bytes) (List.range 64) s.vat.data := by
    rw [flatMap_wordBytes]
    rfl
  rw [hrow]
  split
  · next hin =>
    obtain ⟨p, hp, rfl⟩ : ∃ p, p < 64 ∧ a = physAddr k row p := by
      unfold physAddr at hin ⊢
      exact ⟨a - (k * 0x400000 + row * 64 + 0), by omega, by omega⟩
    have hplace : physAddr k row p - physAddr k row 0 = p := by
      unfold physAddr
      omega
    rw [get_putRow_at h.vat.1 List.nodup_range (List.mem_range.2 hp), hplace]
  · next hout =>
    refine get_putRow_other h.vat.1 fun p hp e => hout ?_
    have hp64 := List.mem_range.1 hp
    unfold physAddr at *
    omega

section
variable (d : List Byte) (e : Bool) (s : State)

@[simp] theorem keepResp_respData : (keepResp d e s).vat.respData = d := rfl
@[simp] theorem keepResp_respError : (keepResp d e s).vat.respError = e := rfl
@[simp] theorem keepResp_data : (keepResp d e s).vat.data = s.vat.data := rfl
@[simp] theorem keepResp_poison : (keepResp d e s).vat.poison = s.vat.poison := rfl
@[simp] theorem keepResp_mem : (keepResp d e s).mem = s.mem := rfl
@[simp] theorem keepResp_rd (g : Fld) : (keepResp d e s).rd g = s.rd g := rfl

end

@[simp] theorem written_poison (kind : WriteKind) (k row : Nat) (bs : List (Nat × Byte)) (s : State) :
    (written kind k row bs s).vat.poison = s.vat.poison := rfl

@[simp] theorem written_mem (kind : WriteKind) (k row : Nat) (bs : List (Nat × Byte)) (s : State) :
    (written kind k row bs s).mem = s.mem := rfl

/-- What the answer to a line's write leaves, where it brings `new` to the places of the line. -/
theorem keepResp_written {s u : State} (hu : u.Canonical) (hvat : u.vat = s.vat) (hmem : u.mem = s.mem) (kind : WriteKind) (k row i : Nat)
    (bytes : List (Option Byte)) {new : Nat → Option Byte} (hnew : ∀ p, p < 64 → lineByte i bytes p = new p) :
    let t := keepResp [] false (written kind k row ((List.range 4).flatMap fun w => wordBytes i w bytes) u)
    t.vat.respError = false ∧ t.mem = s.mem ∧ t.vat.poison = s.vat.poison ∧ ∀ a, Sparse.get a 0#8 t.vat.data =
      if physAddr k row 0 ≤ a ∧ a < physAddr k row 64 then
        (new (a - physAddr k row 0)).elim (Sparse.get a 0#8 s.vat.data) (kind.apply (Sparse.get a 0#8 s.vat.data))
      else Sparse.get a 0#8 s.vat.data := by
  simp only [keepResp_respError, keepResp_mem, written_mem, hmem, keepResp_poison, written_poison, hvat, keepResp_data, true_and]
  intro a
  rw [get_written hu, hvat]
  split
  · rw [hnew _ (by unfold physAddr at *; omega)]
  · rfl

/-! ### Accesses that reach no window (R26, R29) -/

theorem reportRest_decodeError {s : State} (h : s.Canonical) (who : Initiator) (addr : Nat) : ReportRest s (decodeError who addr s) := by
  have hinc : (s.inc F.hifDecodeErr_COUNT).Canonical := State.inc_canonical h
  have hraised : ReportRest s (raise 16 (s.inc F.hifDecodeErr_COUNT)) := reportRest_after (reportRest_raise hinc 16)
  exact reportRest_trans hraised (reportRest_logEvent (raise_canonical hinc) _ _ _ _)

/-- An access refused as a decode error: answered with an error, counted and raised, with the Vat's contents as they were. -/
theorem keepResp_decodeError {s : State} (h : s.Canonical) (who : Initiator) (addr : Nat) (d : List Byte) :
    let t := keepResp d true (decodeError who addr s)
    t.vat.respError = true ∧ t.vat.data = s.vat.data ∧ Counted F.hifDecodeErr_COUNT s t ∧ Pends 16 s t := by
  obtain ⟨-, hcount, hpend, -⟩ := decodeError_counts h who addr
  have hvat := reportRest_vat (reportRest_decodeError h who addr)
  generalize decodeError who addr s = u at hcount hpend hvat
  exact ⟨rfl, by rw [keepResp_data, hvat], hcount, hpend⟩

/-- Whoever reaches the window that sets bits reaches the one that clears them. -/
theorem reaches_clearAlias (who : Initiator) : reaches who .clearAlias = reaches who .setAlias := by
  cases who <;> rfl

/-! ### The commands of an access -/

theorem exec_vatAccess_refused {who : Initiator} (hreach : reaches who .vat = false) (line : Fin 0x400000) (op : LineOp)
    (wait conflict : Nat)
    (s : State) : ∃ d, exec (.vatAccess who line op .none wait conflict) s =
      .next (keepResp d true (decodeError who (vatBase + line.val * 64) s)) := by
  change ∃ d, execVatAccess who line op .none wait conflict s = _
  simp only [execVatAccess, hreach, Bool.false_eq_true, if_false]
  exact ⟨_, rfl⟩

theorem exec_vatAccess_read {who : Initiator} (hreach : reaches who .vat = true) {line : Fin 0x400000} {wait conflict : Nat} {s t : State}
    {d : List Byte} {e : Bool}
    (hread : lineRead who vatBase (line.val * 64) 64 .none (granted who (line.val * 64) wait conflict s) = (d, e, t)) :
    exec (.vatAccess who line .read .none wait conflict) s = .next (keepResp d e t) := by
  change execVatAccess who line .read .none wait conflict s = _
  rw [execVatAccess, if_pos hreach, vatGrant_read, hread]

theorem exec_vatAccess_write {who : Initiator} (hreach : reaches who .vat = true) {line : Fin 0x400000} {bytes : List (Option Byte)}
    {wait conflict : Nat} {s u t : State} {e : Bool} (hgranted : granted who (line.val * 64) wait conflict s = u)
    (hwrite : lineWrite who (line.val * 64) bytes .plain .none u = (e, t)) :
    exec (.vatAccess who line (.write bytes) .none wait conflict) s = .next (keepResp [] e t) := by
  change execVatAccess who line (.write bytes) .none wait conflict s = _
  rw [execVatAccess, if_pos hreach, vatGrant_write, hgranted, hwrite]

theorem exec_vatSetAliasWrite (who : Initiator) (off : Fin 0x10000000) (data : List Byte) (s : State) :
    exec (.vatSetAliasWrite who off data .none) s = .next (aliasWrite who .setBits off.val data .none s) := rfl

theorem exec_vatClearAliasWrite (who : Initiator) (off : Fin 0x10000000) (data : List Byte) (s : State) :
    exec (.vatClearAliasWrite who off data .none) s = .next (aliasWrite who .clearBits off.val data .none s) := rfl

theorem aliasWrite_refused {who : Initiator} (hreach : reaches who .setAlias = false) (kind : WriteKind) (off : Nat) (data : List Byte)
    (err : VatErr) (s : State) : aliasWrite who kind off data err s = keepResp [] true (decodeError who (kind.base + off) s) := by
  simp only [aliasWrite, hreach, Bool.false_eq_true, if_false]

theorem aliasWrite_reaches {who : Initiator} (hreach : reaches who .setAlias = true) {kind : WriteKind} {off : Nat} {data : List Byte}
    {err : VatErr} {s t : State} {e : Bool} (hwrite : lineWrite who off ((data.take (64 - off % 64)).map some) kind err s = (e, t)) :
    aliasWrite who kind off data err s = keepResp [] e t := by
  simp only [aliasWrite, hreach, if_true, hwrite]

/-- The bytes that a write which sets or clears bits brings to a line. -/
theorem lineByte_alias {i p : Nat} (hp : p < 64) (data : List Byte) : lineByte i ((data.take (64 - i)).map some) p =
    if i ≤ p then data[p - i]? else none := by
  unfold lineByte
  split
  · rw [if_neg (by omega)]
  · rw [if_pos (by omega), List.getD_eq_getElem?_getD, List.getElem?_map, List.getElem?_take, if_pos (by omega)]
    cases data[p - i]? <;> rfl

end Sys2Proof.Machine

section
open Sys2Proof Sys2Proof.Machine
set_option Elab.async false

/-- Settles O10: a granted request counts in registers of its own (`granted_leaves`), and then a line is read (`lineRead_serves`) or
written place by place (`lineWrite_serves`, `get_written`). -/
theorem vatServes : Obligations.VatServes := by
  unfold Obligations.VatServes
  intro s who line i bytes data wait conflict k row h hloc hserves hclean byte off puts refused
  have hgranted := granted_leaves h who hloc wait conflict
  have ⟨hu, hvat, hmem, _⟩ := hgranted
  have huloc := (granted_vatLoc hgranted (line.val * 64)).trans hloc
  have huserves := (granted_bankServes hgranted k.isLt).trans hserves
  have huclean : CleanRow k.val row (granted who (line.val * 64) wait conflict s) := fun w hw => by
    rw [State.poisoned, hvat]
    exact hclean w hw
  have hplace : off.val % 64 = i.val := by
    change (line.val * 64 + i.val) % 64 = i.val
    omega
  refine ⟨fun hreach => ⟨?_, ?_⟩, fun hreach => ?_, fun hreach => ?_, fun hreach => ?_, fun hreach hlock => ?_, fun hset _ hlock => ?_⟩
  · obtain ⟨d, hexec⟩ := exec_vatAccess_refused hreach line .read wait conflict s
    exact ⟨_, hexec, keepResp_decodeError h who _ d⟩
  · obtain ⟨d, hexec⟩ := exec_vatAccess_refused hreach line (.write bytes) wait conflict s
    exact ⟨_, hexec, keepResp_decodeError h who _ d⟩
  · refine ⟨_, exec_vatSetAliasWrite who off data s, ?_⟩
    rw [aliasWrite_refused hreach]
    exact keepResp_decodeError h who _ []
  · refine ⟨_, exec_vatClearAliasWrite who off data s, ?_⟩
    rw [aliasWrite_refused (reaches_clearAlias who ▸ hreach)]
    exact keepResp_decodeError h who _ []
  · refine ⟨_, exec_vatAccess_read hreach (lineRead_serves huloc huserves huclean who vatBase 64), keepResp_respError _ _ _, ?_, ?_⟩
    · rw [keepResp_respData, hvat]
      refine List.map_congr_left fun j _ => congrArg (Sparse.get · 0#8 s.vat.data) ?_
      unfold physAddr
      omega
    · rw [keepResp_data, hvat]
  · have hulock := (granted_lockedAgainst hgranted k.isLt who (line.val * 64)).trans hlock
    generalize hgr : granted who (line.val * 64) wait conflict s = u at hu hvat hmem huloc huserves huclean hulock
    have hwrite := lineWrite_serves huloc huserves huclean hulock bytes .plain
    rw [Nat.mul_mod_left] at hwrite
    refine ⟨_, exec_vatAccess_write hreach hgr hwrite, ?_⟩
    exact keepResp_written hu hvat hmem .plain k.val row 0 bytes fun p _ => lineByte_zero bytes p
  · have hoff : s.vatLoc off.val = some (k.val, row) := (vatLoc_line s (by change (line.val * 64 + i.val) / 64 = _; omega)).trans hloc
    have hwrite (kind : WriteKind) := aliasWrite_reaches (data := data) hset
      (lineWrite_serves hoff hserves hclean hlock ((data.take (64 - off.val % 64)).map some) kind)
    have hputs (kind : WriteKind) := keepResp_written h rfl rfl kind k.val row i.val _ fun p hp => lineByte_alias (i := i.val) hp data
    rw [hplace] at hwrite
    refine ⟨⟨_, exec_vatSetAliasWrite who off data s, ?_⟩, ⟨_, exec_vatClearAliasWrite who off data s, ?_⟩⟩
    · rw [hwrite]
      exact hputs .setBits
    · rw [hwrite]
      exact hputs .clearBits
end

namespace Sys2Proof.Machine

-- One declaration after another: the memory limit of the check counts the stack of every thread that elaborates beside them.
set_option Elab.async false

/-! ### Fields written one after another -/

theorem rd_inc_same {s : State} (h : s.Canonical) (f : Fld) : (s.inc f).rd f = min (s.rd f + 1) (2 ^ f.width - 1) :=
  (State.rd_wr_same h f _).trans (Nat.mod_eq_of_lt (by have := Nat.two_pow_pos f.width; omega))

/-- Fields set to values. -/
def setFlds (l : List (Fld × Nat)) (s : State) : State := s.forL l fun p u => u.wr p.1 p.2

theorem writes_setFlds {s : State} (h : s.Canonical) (l : List (Fld × Nat)) : Writes (l.map Prod.fst) s (setFlds l s) := by
  have hall (m : List (Fld × Nat)) (hm : m ⊆ l) (t : State) (ht : Writes (l.map Prod.fst) s t) :
      Writes (l.map Prod.fst) s (setFlds m t) := by
    induction m generalizing t with
    | nil => exact ht
    | cons p m ih =>
      exact ih (List.subset_of_cons_subset hm) _ (writes_wr ht (List.mem_map.2 ⟨p, hm (by simp), rfl⟩) p.2)
  exact hall l (List.Subset.refl l) s (writes_refl h)

/-- Of different fields each shows its own value. -/
theorem rd_setFlds {s : State} (h : s.Canonical) {l : List (Fld × Nat)} (hl : (l.map fun p => p.1.key).Nodup) {f : Fld} {v : Nat}
    (hf : (f, v) ∈ l) : (setFlds l s).rd f = v % 2 ^ f.width := by
  refine forL_at (P := State.Canonical) (Q := fun u => u.rd f = v % 2 ^ f.width) h (.inl hf) (fun _ _ _ hu => State.wr_canonical hu)
    (fun u hu => State.rd_wr_same hu f v) fun p hp hne u hu hshown => ?_
  have hkey : f.key ≠ p.1.key := fun e => hne (List.inj_on_of_nodup_map hl hp hf e.symm)
  rw [State.rd_wr_other hu _ _ _ hkey, hshown]

/-- A loop of which every step leaves the state. -/
theorem forL_fixed {α : Type} {f : α → State → State} {l : List α} (h : ∀ j ∈ l, ∀ u, f j u = u) (s : State) : s.forL l f = s := by
  induction l with
  | nil => rfl
  | cons j l ih =>
    change (f j s).forL l f = s
    rw [h j (by simp), ih fun b hb => h b (by simp [hb])]

/-- A loop of which all steps but one leave the state. -/
theorem forL_single {α : Type} {f : α → State → State} {i : α} {l : List α} (hl : l.Nodup) (hi : i ∈ l)
    (hother : ∀ j ∈ l, j ≠ i → ∀ u, f j u = u) (s : State) : s.forL l f = f i s := by
  induction l with
  | nil => cases hi
  | cons j l ih =>
    obtain ⟨hj, hl⟩ := List.nodup_cons.1 hl
    change (f j s).forL l f = f i s
    by_cases e : j = i
    · subst e
      exact forL_fixed (fun b hb => hother b (by simp [hb]) (ne_of_mem_of_not_mem hb hj)) _
    · rw [hother j (by simp) e]
      exact ih hl ((List.mem_cons.1 hi).resolve_left (Ne.symm e)) fun b hb => hother b (by simp [hb])

/-! ### Poison (R88) -/

theorem poisoned_setPoison_same (w : Nat) (s : State) : (setPoison w true s).poisoned w = true := by
  simp [setPoison, State.poisoned]

theorem poisoned_setPoison_other {w v : Nat} (h : v ≠ w) (s : State) : (setPoison w true s).poisoned v = s.poisoned v := by
  rw [Bool.eq_iff_iff]
  simp only [setPoison, State.poisoned, if_true, List.contains_eq_mem, decide_eq_true_eq, List.mem_append, List.mem_cons, List.mem_filter,
    bne_iff_ne, h, false_or, ne_eq, not_false_eq_true, and_true]
  rw [← and_or_left]
  exact and_iff_left (Nat.lt_or_gt_of_ne h)

/-! ### An uncorrectable word (R88, R92) -/

/-- What VAT_ERR_LAST records. -/
def errLast (k row w : Nat) (parity : Bool) : List (Fld × Nat) :=
  [(F.vatErrLast_BANK, k), (F.vatErrLast_ROW, row), (F.vatErrLast_WORD, w), (F.vatErrLast_PARITY, bit parity), (F.vatErrLast_VALID, 1)]

theorem recordErr_eq (k row w : Nat) (parity : Bool) (s : State) : recordErr k row w parity s = setFlds (errLast k row w parity) s := rfl

/-- The word poisoned, counted and recorded, before the event is raised. -/
def errRecorded (k row w : Nat) (s : State) : State :=
  recordErr k row w false ((setPoison (eccWord (physAddr k row (16 * w))) true s).inc (F.vatBankErr_UE k))

theorem uncorrectable_eq (k row w : Nat) (s : State) : uncorrectable k row w s =
    countUe k 3 (logEvent 0x0300 2 (k + row * 64) w (raise 449 (errRecorded k row w s))) := rfl

/-- A bank with one more uncorrectable error since the last initialisation. -/
def ueSeen (k : Nat) (s : State) : State := onVat (fun v => { v with ueSince := k :: v.ueSince }) s

theorem countUe_eq (k cause : Nat) (s : State) :
    countUe k cause s = (ueSeen k s).iff (s.vat.ueSince.contains k) (retire (unitId 4 k) cause) := rfl

theorem tends_countUe {k n : Nat} (hk : k < 64) (hn : n < 512) {s : State} (h : s.Canonical) (cause : Nat) :
    Tends n (ueSeen k s) (countUe k cause s) := by
  have hseen : Tends n (ueSeen k s) (ueSeen k s) := tends_refl n (onVat_canonical h)
  rw [countUe_eq, State.iff]
  split
  · exact (faultClosed_bank hk hn).retire hseen cause
  · exact hseen

theorem staysPending_onVat {n : Nat} {f : VatState → VatState} {s : State} (h : StaysPending n s) (hf : (f s.vat).data = s.vat.data) :
    StaysPending n (onVat f s) := by
  unfold onVat
  exact staysPending_rest h (h6 := hf)

section
variable {k row w : Nat} (hk : k < 64) {s : State} (h : s.Canonical)
include h

theorem errRecorded_canonical : (errRecorded k row w s).Canonical := recordErr_canonical (State.inc_canonical (setPoison_canonical h))

theorem errRecorded_shows {f : Fld} {v : Nat} (hf : (f, v) ∈ errLast k row w false) : (errRecorded k row w s).rd f = v % 2 ^ f.width :=
  rd_setFlds (State.inc_canonical (setPoison_canonical h)) (by simp only [errLast, List.map]; decide) hf

theorem errRecorded_vat : (errRecorded k row w s).vat = (setPoison (eccWord (physAddr k row (16 * w))) true s).vat := by
  have hpoison : (setPoison (eccWord (physAddr k row (16 * w))) true s).Canonical := setPoison_canonical h
  rw [errRecorded, recordErr_eq, writes_vat (writes_setFlds (State.inc_canonical hpoison) _), State.inc_vat]

/-- The report of an uncorrectable word, once it is recorded. -/
theorem tends_errReported : Tends 449 (errRecorded k row w s)
    (logEvent 0x0300 2 (k + row * 64) w (raise 449 (errRecorded k row w s))) :=
  tends_logEvent (tends_raise (tends_refl 449 (errRecorded_canonical h)) (by decide) 449) (by decide) _ _ _ _

include hk

theorem errRecorded_counted : (errRecorded k row w s).rd (F.vatBankErr_UE k) =
    min (s.rd (F.vatBankErr_UE k) + 1) (2 ^ (F.vatBankErr_UE k).width - 1) := by
  have hpoison : (setPoison (eccWord (physAddr k row (16 * w))) true s).Canonical := setPoison_canonical h
  rw [errRecorded, recordErr_eq, writes_rd (writes_setFlds (State.inc_canonical hpoison) _), rd_inc_same hpoison]
  · rfl
  · exact fun f hf => bankFld_ne_below (bankFld_ue hk) (by simp only [errLast, List.map] at hf; revert f; decide)

theorem errRecorded_dest : (errRecorded k row w s).rd (F.intcTgt_DEST 449) = s.rd (F.intcTgt_DEST 449) := by
  have hpoison : (setPoison (eccWord (physAddr k row (16 * w))) true s).Canonical := setPoison_canonical h
  rw [errRecorded, recordErr_eq, writes_rd (writes_setFlds (State.inc_canonical hpoison) _)]
  · exact State.rd_wr_other hpoison _ _ _ (bankFld_ne_below (bankFld_ue hk) (by decide)).symm
  · intro f hf
    simp only [errLast, List.map] at hf
    revert f
    decide

theorem uncorrectable_rd {g : Fld} (hg : bankKey g.key = false) : (uncorrectable k row w s).rd g = (errRecorded k row w s).rd g := by
  have hreport := tends_errReported (k := k) (row := row) (w := w) h
  rw [uncorrectable_eq, tends_rd (tends_countUe hk (n := 449) (by decide) (tends_canonical hreport) 3) hg, ueSeen, onVat_rd]
  exact tends_rd hreport hg

theorem uncorrectable_vat : (uncorrectable k row w s).vat =
    { (setPoison (eccWord (physAddr k row (16 * w))) true s).vat with ueSince := k :: s.vat.ueSince } := by
  have hreport := tends_errReported (k := k) (row := row) (w := w) h
  rw [uncorrectable_eq, tends_vat (tends_countUe hk (n := 449) (by decide) (tends_canonical hreport) 3), ueSeen, onVat_vat,
    tends_vat hreport, errRecorded_vat h]
  rfl

theorem uncorrectable_pends : Pends 449 s (uncorrectable k row w s) := by
  have hreport := tends_errReported (k := k) (row := row) (w := w) h
  obtain ⟨-, -, hcount⟩ := tends_countUe hk (n := 449) (by decide) (tends_canonical hreport) 3
  rw [uncorrectable_eq]
  exact pends_of_raise (errRecorded_canonical h) (by decide) (errRecorded_dest hk h) fun hraised =>
    hcount (staysPending_onVat (staysPending_logEvent hraised (by decide) _ _ _ _) rfl)

end

/-! ### A corrected word (R86, R92) -/

/-- A corrected word waits for its write-back. -/
def ceWaits (k word : Nat) (s : State) : State :=
  onVat (fun v => { v with
    ceQueue := v.ceQueue ++ [(k, word)], ceStamps := (k, s.now) :: v.ceStamps.filter fun c => s.within 1000 c.2 }) s

/-- A burst of corrected words begins a full scrub of the bank, or comes in one. -/
def ceBurst (k : Nat) (s : State) : State :=
  let again := s.vat.scrubbing.contains k
  onVat (fun v => { v with
    ceStamps := v.ceStamps.filter fun c => c.1 != k
    scrubbing := if again then v.scrubbing else k :: v.scrubbing
    scrubBurst := if again then k :: v.scrubBurst.filter (· != k) else v.scrubBurst }) s

theorem corrected_eq (k row w : Nat) (s : State) : corrected k row w s =
    let counted := s.inc (F.vatBankErr_CE k)
    let waits := ceWaits k (eccWord (physAddr k row (16 * w))) counted
    if (counted.vat.ceStamps.filter fun c => c.1 == k && counted.within 1000 c.2).length < 16 then waits
    else upset (unitId 4 k) 2 (raise 451 (ceBurst k waits)) := rfl

/-- What a corrected word leaves of the state in which it is counted: it waits, and a burst is the fault manager's. -/
theorem corrected_leaves {k : Nat} (hk : k < 64) (row w : Nat) {s : State} (h : s.Canonical) :
    ∃ u, Tends 451 u (corrected k row w s) ∧ (∀ g, u.rd g = (s.inc (F.vatBankErr_CE k)).rd g) ∧ u.vat.data = s.vat.data ∧
      u.vat.poison = s.vat.poison ∧ u.vat.ceQueue = s.vat.ceQueue ++ [(k, eccWord (physAddr k row (16 * w)))] := by
  have hcounted : (s.inc (F.vatBankErr_CE k)).Canonical := State.inc_canonical h
  rw [corrected_eq, ← State.inc_vat s (F.vatBankErr_CE k)]
  generalize s.inc (F.vatBankErr_CE k) = c at hcounted
  dsimp only
  have hwaits : (ceWaits k (eccWord (physAddr k row (16 * w))) c).Canonical := onVat_canonical hcounted
  have hburst : (ceBurst k (ceWaits k (eccWord (physAddr k row (16 * w))) c)).Canonical := by
    unfold ceBurst
    exact onVat_canonical hwaits
  split
  · exact ⟨_, tends_refl 451 hwaits, fun _ => rfl, rfl, rfl, rfl⟩
  · exact ⟨_, (faultClosed_bank hk (by decide)).upset (tends_raise (tends_refl 451 hburst) (by decide) 451) 2, fun _ => rfl, rfl, rfl, rfl⟩

/-! ### One line scrubbed (R91) -/

theorem exec_scrubLine {k : Fin 64} {row : Fin 65536} {err : VatErr} {s : State}
    (hrun : s.rd F.vatCtl_SCRUB_EN = 1 ∨ s.vat.scrubbing.contains k.val = true) (hserves : s.bankServes k.val = true)
    (herr : err ≠ .parity) :
    exec (.scrubLine k row err) s = .next (s.forL (List.range 4) fun w u => (readWord k.val row.val w err u).1) := by
  have hscrubs : (s.flag F.vatCtl_SCRUB_EN || s.vat.scrubbing.contains k.val) = true := by
    rw [Bool.or_eq_true]
    exact hrun.imp_left fun hen => by rw [State.flag, hen]; rfl
  change execScrubLine k row err s = _
  rw [execScrubLine, hscrubs, hserves, Bool.and_self, if_pos rfl, if_neg herr]
  rfl

/-- A word that meets no error of its own. -/
theorem readWord_other {k row j : Nat} {w : Fin 4} (hj : j ≠ w.val) {err : VatErr} (herr : err = .uncorrectable w ∨ err = .corrected w)
    (u : State) : (readWord k row j err u).1 = u := by
  unfold readWord
  split
  · rfl
  · rcases herr with rfl | rfl <;> simp [hj.symm]

/-- A line of which one word meets an error: what that word makes of the state. -/
theorem exec_scrubLine_at {k : Fin 64} {row : Fin 65536} {w : Fin 4} {err : VatErr} {s : State}
    (hrun : s.rd F.vatCtl_SCRUB_EN = 1 ∨ s.vat.scrubbing.contains k.val = true) (hserves : s.bankServes k.val = true)
    (herr : err = .uncorrectable w ∨ err = .corrected w) :
    exec (.scrubLine k row err) s = .next (readWord k.val row.val w.val err s).1 := by
  rw [exec_scrubLine hrun hserves (by rcases herr with rfl | rfl <;> exact nofun)]
  exact congrArg _ (forL_single List.nodup_range (List.mem_range.2 w.isLt) (fun j _ hj u => readWord_other hj herr u) s)

section
variable {k row : Nat} {w : Fin 4} {s : State} (hclean : s.poisoned (eccWord (physAddr k row (16 * w.val))) = false)
include hclean

theorem readWord_uncorrectable : (readWord k row w.val (.uncorrectable w) s).1 = uncorrectable k row w.val s := by
  simp only [readWord, hclean, Bool.false_eq_true, if_false, if_true]

theorem readWord_corrected : (readWord k row w.val (.corrected w) s).1 = corrected k row w.val s := by
  simp only [readWord, hclean, Bool.false_eq_true, if_false, if_true]

end

/-! ### The oldest corrected word of a bank (R86) -/

theorem exec_vatCeWriteback {k : Fin 64} {s : State} {older newer : List (Nat × Nat)} {v : Nat}
    (hqueue : s.vat.ceQueue = older ++ (k.val, v) :: newer) (holder : ∀ c ∈ older, c.1 ≠ k.val) :
    exec (.vatCeWriteback k) s = .next { s with vat := { s.vat with ceQueue := older ++ newer } } := by
  have hnone : older.find? (fun c => c.1 == k.val) = none := List.find?_eq_none.2 fun c hc => by simpa using holder c hc
  have hfind : s.vat.ceQueue.find? (fun c => c.1 == k.val) = some (k.val, v) := by
    rw [hqueue, List.find?_append, hnone]
    simp
  have herase : s.vat.ceQueue.erase (k.val, v) = older ++ newer := by
    rw [hqueue, List.erase_append_right _ fun hmem => holder _ hmem rfl, List.erase_cons_head]
  change execVatCeWriteback k s = _
  simp only [execVatCeWriteback, hfind, herase]

/-! ### The end of a bank's full scrub (R92, R559) -/

/-- The scrub of the bank is over. -/
def scrubEnds (k : Nat) (s : State) : State :=
  onVat (fun v => { v with scrubBurst := v.scrubBurst.filter (· != k), scrubbing := v.scrubbing.filter (· != k) }) s

/-- A bank that is SUSPECT is HEALTHY again. -/
def unitRestored (id : Nat) (s : State) : State := if s.unitState id = 1 then setUnitState id 0 2 s else s

theorem exec_vatBankScrubDone {k : Fin 64} {s : State} (hscrub : s.vat.scrubbing.contains k.val = true)
    (hburst : s.vat.scrubBurst.contains k.val = false) :
    exec (.vatBankScrubDone k) s = .next (unitRestored (unitId 4 k.val) (endAttempt (unitId 4 k.val) true (scrubEnds k.val s))) := by
  change execVatBankScrubDone k s = _
  simp only [execVatBankScrubDone, hscrub, hburst, Bool.not_true, Bool.not_false, Bool.false_eq_true, if_false, Bool.true_and,
    decide_eq_true_eq]
  rfl

theorem writes_updateFaultN {s : State} (h : s.Canonical) : Writes [F.fltSummary_FAULT_N] s (updateFaultN s) :=
  writes_wr (writes_refl h) (by simp) _

section
variable {k : Nat} (hk : k < 64) {s : State} (h : s.Canonical)
include hk

/-- STATE of a bank in the fault manager's registers, beside the others that a change of state writes. -/
theorem bankState_ne {f : Fld} (hf : f ∈ [F.fltU_CAUSE 4 k, F.fltU_COUNT60 4 k, F.fltU_ATTEMPTS 4 k, F.fltLast_UNIT, F.fltLast_CAUSE,
    F.fltLast_STATE, F.fltLastStamp_STAMP, F.vatBankStatus_HEALTH k, F.fltSummary_FAULT_N]) : (F.fltU_STATE 4 k).key ≠ f.key := by
  simp only [List.mem_cons, List.not_mem_nil, or_false] at hf
  rcases hf with rfl | rfl | rfl | rfl | rfl | rfl | rfl | rfl | rfl <;>
    simp [Fld.key, Fld.group, F.fltU_STATE, F.fltU_CAUSE, F.fltU_COUNT60, F.fltU_ATTEMPTS, F.fltLast_UNIT, F.fltLast_CAUSE,
      F.fltLast_STATE, F.fltLastStamp_STAMP, F.vatBankStatus_HEALTH, F.fltSummary_FAULT_N] <;> omega

theorem unitState_bank (t : State) : t.unitState (unitId 4 k) = t.rd (F.fltU_STATE 4 k) := by
  obtain ⟨hkind, hunit⟩ := unitId_bank hk
  rw [State.unitState, hkind, hunit]

include h

theorem endAttempt_unitState : (endAttempt (unitId 4 k) true s).unitState (unitId 4 k) = s.unitState (unitId 4 k) := by
  obtain ⟨hkind, hunit⟩ := unitId_bank hk
  have hshown (t : State) (ht : t.Canonical) : (showCounts (unitId 4 k) t).rd (F.fltU_STATE 4 k) = t.rd (F.fltU_STATE 4 k) := by
    rw [showCounts, hkind, hunit]
    exact (State.rd_wr_other (State.wr_canonical ht) _ _ _ (bankState_ne hk (by simp))).trans
      (State.rd_wr_other ht _ _ _ (bankState_ne hk (by simp)))
  rw [unitState_bank hk, unitState_bank hk]
  unfold endAttempt
  dsimp only
  split
  · rfl
  · exact hshown _ (setFltUnit_canonical h)

/-- A bank's new state shows in the fault manager's registers and in its HEALTH field. -/
theorem setUnitState_bank (st cause : Nat) : (setUnitState (unitId 4 k) st cause s).unitState (unitId 4 k) = st % 4 ∧
    (setUnitState (unitId 4 k) st cause s).rd (F.vatBankStatus_HEALTH k) = st % 4 := by
  obtain ⟨hkind, hunit⟩ := unitId_bank hk
  rw [unitState_bank hk]
  unfold setUnitState
  dsimp only
  rw [setHealth_bank hk, hkind, hunit]
  have hmoved := moveSummary_canonical (x0 := s.unitState (unitId 4 k)) (x1 := st) h
  generalize moveSummary (s.unitState (unitId 4 k)) st s = m at hmoved
  have hstate := writes_refl (fs := [F.fltU_CAUSE 4 k, F.fltLast_UNIT, F.fltLast_CAUSE, F.fltLast_STATE, F.fltLastStamp_STAMP,
    F.vatBankStatus_HEALTH k, F.fltSummary_FAULT_N]) (State.wr_canonical (x1 := F.fltU_STATE 4 k) (x2 := st) hmoved)
  have hlast := writes_wr (writes_wr (writes_wr (writes_wr hstate (f := F.fltU_CAUSE 4 k) (by simp) cause) (f := F.fltLast_UNIT) (by simp)
    (unitId 4 k)) (f := F.fltLast_CAUSE) (by simp) cause) (f := F.fltLast_STATE) (by simp) st
  have hstamp := fun v => writes_wr hlast (f := F.fltLastStamp_STAMP) (by simp) v
  have hhealth := fun v => writes_wr (hstamp v) (f := F.vatBankStatus_HEALTH k) (by simp) st
  constructor
  · rw [writes_rd (writes_trans (hhealth _) (writes_mono (writes_updateFaultN (hhealth _).1) (by simp)))]
    · exact State.rd_wr_same hmoved _ _
    · exact fun f hf => bankState_ne hk (by simp only [List.mem_cons] at hf ⊢; tauto)
  · rw [writes_rd (writes_updateFaultN (hhealth _).1) (by simpa using bankFld_ne_below (bankFld_health hk) (by decide))]
    exact State.rd_wr_same (hstamp _).1 _ _

/-- The end of a scrub without a burst is the fault manager's alone. -/
theorem tends_scrubDone : Tends 0 (scrubEnds k s) (unitRestored (unitId 4 k) (endAttempt (unitId 4 k) true (scrubEnds k s))) := by
  have hends : Tends 0 (scrubEnds k s) (endAttempt (unitId 4 k) true (scrubEnds k s)) :=
    (faultClosed_bank hk (by decide)).endAttempt (tends_refl 0 (onVat_canonical h)) true
  unfold unitRestored
  split
  · exact (faultClosed_bank hk (by decide)).setUnitState hends 0 2
  · exact hends

theorem scrubDone_restores (hstate : s.unitState (unitId 4 k) = 1) :
    let t := unitRestored (unitId 4 k) (endAttempt (unitId 4 k) true (scrubEnds k s))
    t.unitState (unitId 4 k) = 0 ∧ t.rd (F.vatBankStatus_HEALTH k) = 0 := by
  have hends : (scrubEnds k s).Canonical := onVat_canonical h
  have hattempt : (endAttempt (unitId 4 k) true (scrubEnds k s)).unitState (unitId 4 k) = 1 :=
    (endAttempt_unitState hk hends).trans hstate
  dsimp only
  rw [unitRestored, if_pos hattempt]
  exact setUnitState_bank hk (endAttempt_canonical hends) 0 2

end

/-! ### An access refused (R83, R96) -/

theorem lineRead_parked {s : State} {off k row : Nat} (hloc : s.vatLoc off = some (k, row)) (hserves : s.bankServes k = false)
    (who : Initiator) (base n : Nat) (err : VatErr) :
    lineRead who base off n err s = (onesBytes n, true, poisonSeen k row 0 (parked k s)) := by
  simp only [lineRead, hloc, hserves, Bool.not_false, if_true]

theorem lineWrite_locked {s : State} {who : Initiator} {off k row : Nat} (hloc : s.vatLoc off = some (k, row))
    (hlock : s.lockedAgainst who off = true) (bytes : List (Option Byte)) (kind : WriteKind) (err : VatErr) :
    lineWrite who off bytes kind err s = (true, raise 457 s) := by
  simp only [lineWrite, hloc, hlock, if_true]

/-- The first refused access of a frame is noted. -/
def parkedNoted (s : State) : State := onVat (fun v => { v with parkedSeen := true }) s

theorem parked_eq (k : Nat) (s : State) : parked k s =
    let u := s.inc (F.vatBankErr_PARKED k)
    if u.vat.parkedSeen then u else raise 454 (parkedNoted u) := rfl

/-- The first poison returned in a frame is noted. -/
def poisonNoted (s : State) : State := onVat (fun v => { v with poisonSeen := true }) s

theorem poisonSeen_eq (k row w : Nat) (s : State) : poisonSeen k row w s =
    if s.vat.poisonSeen then s else logEvent 0x0301 2 (k + row * 64) w (raise 453 (poisonNoted s)) := rfl

theorem poisonSeen_leaves (k row w : Nat) {s : State} (h : s.Canonical) : Moves reportKey s (poisonSeen k row w s) ∧
    (poisonSeen k row w s).vat.data = s.vat.data ∧ ∀ n, n < 512 → StaysPending n s → StaysPending n (poisonSeen k row w s) := by
  rw [poisonSeen_eq]
  split
  · exact ⟨moves_refl h, rfl, fun _ _ => id⟩
  · have hnoted : (poisonNoted s).Canonical := onVat_canonical h
    have hraised := raise_canonical (x0 := 453) hnoted
    have hmoves : Moves reportKey s (poisonNoted s) := moves_cells (moves_refl h) hnoted rfl
    refine ⟨moves_logEvent (moves_raise_report hmoves 453) _ _ _ _, ?_, fun n hn hs => ?_⟩
    · rw [reportRest_vat (reportRest_logEvent hraised _ _ _ _), raise_vat hnoted]
      rfl
    · exact staysPending_logEvent (staysPending_raise (staysPending_onVat hs rfl) hn 453) hn _ _ _ _

theorem parked_leaves {k : Nat} (hk : k < 64) {s : State} (h : s.Canonical) :
    (parked k s).rd (F.vatBankErr_PARKED k) = min (s.rd (F.vatBankErr_PARKED k) + 1) (2 ^ (F.vatBankErr_PARKED k).width - 1) ∧
      (parked k s).vat.data = s.vat.data := by
  have hinc : (s.inc (F.vatBankErr_PARKED k)).Canonical := State.inc_canonical h
  have hkey := not_delivery_of_not_report (not_report_of_not_manager (bankFld_not_manager (bankFld_parked hk)))
  rw [← rd_inc_same h, ← State.inc_vat s (F.vatBankErr_PARKED k), parked_eq]
  generalize s.inc (F.vatBankErr_PARKED k) = u at hinc
  have hnoted : (parkedNoted u).Canonical := onVat_canonical hinc
  dsimp only
  split
  · exact ⟨rfl, rfl⟩
  · rw [raise_rd hnoted _ _ hkey, raise_vat hnoted]
    exact ⟨rfl, rfl⟩

/-- The first access that a bank refuses in a frame raises VAT_PARKED. -/
theorem parked_pends {k : Nat} (hk : k < 64) {s t : State} (h : s.Canonical) (hfirst : s.vat.parkedSeen = false)
    (hkeep : StaysPending 454 (parked k s) → StaysPending 454 t) : Pends 454 s t := by
  have hinc : (s.inc (F.vatBankErr_PARKED k)).Canonical := State.inc_canonical h
  have hdest : (s.inc (F.vatBankErr_PARKED k)).rd (F.intcTgt_DEST 454) = s.rd (F.intcTgt_DEST 454) :=
    State.rd_wr_other h _ _ _ (bankFld_ne_below (bankFld_parked hk) (by decide)).symm
  rw [parked_eq] at hkeep
  rw [← State.inc_vat s (F.vatBankErr_PARKED k)] at hfirst
  generalize s.inc (F.vatBankErr_PARKED k) = u at hinc hdest hkeep hfirst
  dsimp only at hkeep
  rw [hfirst, if_neg Bool.false_ne_true] at hkeep
  have hnoted : (parkedNoted u).Canonical := onVat_canonical hinc
  exact pends_of_raise hnoted (by decide) hdest hkeep

end Sys2Proof.Machine

namespace Sys2Proof.Machine

-- One declaration after another: the memory limit of the check counts the stack of every thread that elaborates beside them.
set_option Elab.async false

/-! ### The words of a line scrubbed, and the accesses refused (R83, R88, R91, R96) -/

theorem exec_scrubLine_clean {k : Fin 64} {row : Fin 65536} {s : State}
    (hrun : s.rd F.vatCtl_SCRUB_EN = 1 ∨ s.vat.scrubbing.contains k.val = true) (hserves : s.bankServes k.val = true) :
    exec (.scrubLine k row .none) s = .next s := by
  have hword (w : Nat) (u : State) : (readWord k.val row.val w .none u).1 = u := by
    unfold readWord
    split <;> rfl
  rw [exec_scrubLine hrun hserves (by decide)]
  exact congrArg _ (forL_fixed (fun w _ u => hword w u) s)

/-- What VAT_ERR_LAST and the bank's count show of an uncorrectable word. -/
theorem uncorrectable_shows {k row w : Nat} (hk : k < 64) (hrow : row < 65536) (hw : w < 4) {s : State} (h : s.Canonical) :
    let t := uncorrectable k row w s
    Counted (F.vatBankErr_UE k) s t ∧ t.rd F.vatErrLast_BANK = k ∧ t.rd F.vatErrLast_ROW = row ∧ t.rd F.vatErrLast_WORD = w ∧
      t.rd F.vatErrLast_PARITY = 0 ∧ t.rd F.vatErrLast_VALID = 1 := by
  have hue : bankKey (F.vatBankErr_UE k).key = false := bankKey_bankFld (bankFld_ue hk) (by decide)
  have hshown (f : Fld) (v : Nat) (hf : (f, v) ∈ errLast k row w false) (hkey : bankKey f.key = false) (hv : v < 2 ^ f.width) :
      (uncorrectable k row w s).rd f = v := by
    rw [uncorrectable_rd hk h hkey, errRecorded_shows h hf, Nat.mod_eq_of_lt hv]
  refine ⟨(uncorrectable_rd hk h hue).trans (errRecorded_counted hk h), ?_, ?_, ?_, ?_, ?_⟩
  · exact hshown _ _ (by simp [errLast]) (by decide) hk
  · exact hshown _ _ (by simp [errLast]) (by decide) hrow
  · exact hshown _ _ (by simp [errLast]) (by decide) hw
  · exact hshown _ _ (by simp [errLast, bit]) (by decide) (by decide)
  · exact hshown _ _ (by simp [errLast]) (by decide) (by decide)

/-- A word that the scrubber finds uncorrectable is poisoned, and no other, with the contents as they were. -/
theorem uncorrectable_poisons {k row w : Nat} (hk : k < 64) {s : State} (h : s.Canonical) :
    let t := uncorrectable k row w s
    let word := eccWord (physAddr k row (16 * w))
    t.poisoned word = true ∧ (∀ v, v ≠ word → t.poisoned v = s.poisoned v) ∧ t.vat.data = s.vat.data := by
  have hpoisoned (v : Nat) : (uncorrectable k row w s).poisoned v = (setPoison (eccWord (physAddr k row (16 * w))) true s).poisoned v := by
    rw [State.poisoned, uncorrectable_vat hk h]
    rfl
  refine ⟨(hpoisoned _).trans (poisoned_setPoison_same _ s), fun v hv => (hpoisoned v).trans (poisoned_setPoison_other hv s), ?_⟩
  rw [uncorrectable_vat hk h]
  rfl

theorem corrected_counted {k : Nat} (hk : k < 64) (row w : Nat) {s : State} (h : s.Canonical) :
    Counted (F.vatBankErr_CE k) s (corrected k row w s) ∧ (corrected k row w s).vat.data = s.vat.data ∧
      (corrected k row w s).vat.poison = s.vat.poison ∧
      (corrected k row w s).vat.ceQueue = s.vat.ceQueue ++ [(k, eccWord (physAddr k row (16 * w)))] := by
  obtain ⟨u, htends, hrd, hdata, hpoison, hqueue⟩ := corrected_leaves hk row w h
  have hce : bankKey (F.vatBankErr_CE k).key = false := bankKey_bankFld (bankFld_ce hk) (by decide)
  rw [Counted, tends_rd htends hce, hrd, tends_vat htends]
  exact ⟨rd_inc_same h _, hdata, hpoison, hqueue⟩

theorem press_reaches_vat (e : Fin 2) : reaches (.press e) .vat = true := rfl

/-- A window that holds the line is locked against a Press engine. -/
theorem lockedAgainst_press {s : State} (e : Fin 2) {n off : Nat} (hn : n < 4) (hlow : s.rd (F.vatLock_BASE n) * 65536 ≤ off)
    (hhigh : off < (s.rd (F.vatLock_BASE n) + s.rd (F.vatLock_SIZE n)) * 65536) : s.lockedAgainst (.press e) off = true := by
  unfold State.lockedAgainst
  rw [Bool.true_and, List.any_eq_true]
  exact ⟨n, List.mem_range.2 hn, by simp [hlow, hhigh]⟩

end Sys2Proof.Machine

section
open Sys2Proof Sys2Proof.Machine
set_option Elab.async false

/-- Settles O11: at most one word of a scrubbed line meets the error (`exec_scrubLine_at`), and what the fault manager then does with the
bank touches neither the Vat's contents nor what was counted (`faultClosed_bank`); a refused access is counted or raised in the state in
which its request was granted (`granted_leaves`). -/
theorem vatErrors : Obligations.VatErrors := by
  unfold Obligations.VatErrors
  intro s k row w older newer v line n bytes h word
  refine ⟨fun hrun hserves hclean => ⟨?_, ?_, ?_⟩, fun hqueue holder => ?_, fun hscrub hburst => ?_, fun hloc hserves => ?_,
    fun hloc hlow hhigh => ?_⟩
  · exact ⟨s, exec_scrubLine_clean hrun hserves, rfl⟩
  · refine ⟨_, (exec_scrubLine_at hrun hserves (.inl rfl)).trans (congrArg _ (readWord_uncorrectable hclean)), ?_⟩
    obtain ⟨hpoisoned, hothers, hdata⟩ := uncorrectable_poisons (row := row.val) (w := w.val) k.isLt h
    obtain ⟨hcount, hbank, hrow, hword, hparity, hvalid⟩ := uncorrectable_shows k.isLt row.isLt w.isLt h
    exact ⟨hpoisoned, hothers, hdata, hcount, hbank, hrow, hword, hparity, hvalid, uncorrectable_pends k.isLt h⟩
  · exact ⟨_, (exec_scrubLine_at hrun hserves (.inr rfl)).trans (congrArg _ (readWord_corrected hclean)),
      corrected_counted k.isLt row.val w.val h⟩
  · exact ⟨_, exec_vatCeWriteback hqueue holder, rfl⟩
  · have hvat := tends_vat (tends_scrubDone k.isLt h)
    refine ⟨_, exec_vatBankScrubDone hscrub hburst, ?_, ?_, scrubDone_restores k.isLt h⟩
    · rw [hvat, scrubEnds, onVat_vat]
      simp
    · rw [hvat]
      rfl
  · have hgranted := granted_leaves h (.press 0) hloc 0 0
    have hread := lineRead_parked ((granted_vatLoc hgranted _).trans hloc) ((granted_bankServes hgranted k.isLt).trans hserves)
      (.press 0) vatBase 64 .none
    have hcount := granted_rd_bank hgranted k.isLt (bankFld_parked k.isLt) (by decide)
    have hdest := granted_rd_below hgranted k.isLt (f := F.intcTgt_DEST 454) (by decide) (by decide)
    obtain ⟨hu, hvat, -⟩ := hgranted
    refine ⟨_, exec_vatAccess_read (press_reaches_vat 0) hread, ?_⟩
    generalize granted (.press 0) (line.val * 64) 0 0 s = u at hcount hdest hu hvat
    obtain ⟨hparked, hdata⟩ := parked_leaves k.isLt hu
    obtain ⟨hmoves, hseen, hkeep⟩ := poisonSeen_leaves k.val row.val 0 (parked_canonical (x0 := k.val) hu)
    have hreport : reportKey (F.vatBankErr_PARKED k.val).key = false :=
      not_report_of_not_manager (bankFld_not_manager (bankFld_parked k.isLt))
    refine ⟨keepResp_respError _ _ _, keepResp_respData _ _ _, ?_, ?_, fun hfirst => ?_⟩
    · rw [keepResp_data, hseen, hdata, hvat]
    · rw [Counted, keepResp_rd, hmoves.2 _ hreport, hparked, hcount]
    · have hpend := parked_pends k.isLt hu (hvat ▸ hfirst) (hkeep 454 (by decide))
      exact hpend.imp_right fun hd => hdest ▸ hd
  · have hgranted := granted_leaves h (.press 0) hloc 0 0
    have hlock := (granted_lockedAgainst hgranted k.isLt (.press 0) (line.val * 64)).trans (lockedAgainst_press 0 n.isLt hlow hhigh)
    have hwrite := lineWrite_locked ((granted_vatLoc hgranted _).trans hloc) hlock bytes .plain .none
    have hdest := granted_rd_below hgranted k.isLt (f := F.intcTgt_DEST 457) (by decide) (by decide)
    obtain ⟨hu, hvat, -⟩ := hgranted
    refine ⟨_, exec_vatAccess_write (press_reaches_vat 0) rfl hwrite, keepResp_respError _ _ _, ?_⟩
    generalize granted (.press 0) (line.val * 64) 0 0 s = u at hdest hu hvat
    rw [keepResp_data, keepResp_poison, raise_vat hu, hvat]
    exact ⟨rfl, rfl, pends_of_raise hu (by decide) hdest fun hraised => staysPending_rest hraised⟩
end

namespace Sys2Proof.Machine

-- One declaration after another: the memory limit of the check counts the stack of every thread that elaborates beside them.
set_option Elab.async false

/-! ### A bank's power transition ends (R82, R85) -/

/-- A place below every listed key is unlisted. -/
theorem get_below {β : Type} {a : Nat} {l : List (Nat × β)} (h : ∀ c ∈ l, a < c.1) (d : β) : Sparse.get a d l = d := by
  cases l with
  | nil => rfl
  | cons c l =>
    have hc : a < c.1 := h c (by simp)
    rw [Sparse.get, if_neg (by omega), if_pos hc]

/-- Places dropped by their keys read as unlisted, and the others as before. -/
theorem get_filter {β : Type} {l : List (Nat × β)} (h : Sparse.Rising l) (p : Nat → Bool) (a : Nat) (d : β) :
    Sparse.get a d (l.filter fun c => p c.1) = if p a then Sparse.get a d l else d := by
  induction l with
  | nil => simp [Sparse.get]
  | cons c l ih =>
    obtain ⟨hc, hl⟩ := List.pairwise_cons.1 h
    cases hp : p c.1 with
    | true =>
      rw [List.filter_cons_of_pos (by exact hp), Sparse.get, Sparse.get, ih hl]
      by_cases ha : a = c.1
      · rw [if_pos ha, if_pos ha, ha, if_pos hp]
      · rw [if_neg ha, if_neg ha]
        split <;> simp
    | false =>
      rw [List.filter_cons_of_neg (by simp [hp]), ih hl, Sparse.get]
      refine ite_congr rfl (fun hpa => ?_) fun _ => rfl
      rw [if_neg fun e => by rw [e, hp] at hpa; cases hpa]
      split
      · next hlt => exact get_below (fun b hb => hlt.trans (hc b hb)) d
      · rfl

/-- The bank is moving no more. -/
def arrivedVat (k : Nat) (v : VatState) : VatState := { v with moving := v.moving.filter fun m => m.1 != k }

/-- The bank holds nothing. -/
def clearedVat (k : Nat) (v : VatState) : VatState :=
  { v with data := v.data.filter (fun c => c.1 / 0x400000 != k), poison := v.poison.filter (fun w => w / 0x40000 != k) }

/-- The bank in the state that it was moving to, before what its entry brings. -/
def arrived (k target : Nat) (s : State) : State := onVat (arrivedVat k) (s.wr (F.vatBankStatus_PWR k) target)

theorem clearBank_eq (k : Nat) (s : State) : clearBank k s = onVat (clearedVat k) s := rfl

theorem bankArrive_on (k from_ : Nat) (s : State) : bankArrive k from_ 0 s =
    let a := arrived k 0 s
    let c := if from_ = 2 ∨ a.flag (F.vatBankStatus_RET_VOID k) then onVat (clearedVat k) a else a
    raise 455 ((c.clr (F.vatBankStatus_RET_VOID k)).clr (F.vatBankStatus_FILLING k)) := rfl

theorem bankArrive_retention (k from_ : Nat) (s : State) : bankArrive k from_ 1 s =
    let a := arrived k 1 s
    let c := if from_ = 2 then onVat (clearedVat k) (a.set1 (F.vatBankStatus_RET_VOID k)) else a
    if c.above125 then voidBank k c else c := rfl

theorem bankArrive_off (k from_ : Nat) (s : State) : bankArrive k from_ 2 s = onVat (clearedVat k) (arrived k 2 s) := rfl

theorem voidBank_leaves (k : Nat) {s : State} (h : s.Canonical) : (voidBank k s).vat = s.vat ∧
    ∀ g : Fld, reportKey g.key = false → g.key ≠ (F.vatBankStatus_RET_VOID k).key → (voidBank k s).rd g = s.rd g := by
  have hset : (s.set1 (F.vatBankStatus_RET_VOID k)).Canonical := State.set1_canonical h
  have hraised := raise_canonical (x0 := 456) hset
  unfold voidBank
  split
  · refine ⟨?_, fun g hg hk => ?_⟩
    · rw [reportRest_vat (reportRest_logEvent hraised _ _ _ _), raise_vat hset, State.set1_vat]
    · rw [logEvent_rd hraised _ _ _ _ g hg, raise_rd hset _ g (not_delivery_of_not_report hg)]
      exact State.rd_wr_other h _ _ _ hk
  · exact ⟨rfl, fun _ _ _ => rfl⟩

section
variable {s : State} (h : s.Canonical)
include h

theorem arrived_canonical (k target : Nat) : (arrived k target s).Canonical := onVat_canonical (State.wr_canonical h)

theorem arrived_pwr {k target : Nat} (ht : target < 3) : (arrived k target s).rd (F.vatBankStatus_PWR k) = target :=
  (State.rd_wr_same h _ _).trans (Nat.mod_eq_of_lt (ht.trans (by decide : 3 < 2 ^ 2)))

theorem arrived_other {k target : Nat} {g : Fld} (hg : g.key ≠ (F.vatBankStatus_PWR k).key) : (arrived k target s).rd g = s.rd g :=
  State.rd_wr_other h _ _ _ hg

theorem cleared_canonical (k : Nat) : (onVat (clearedVat k) s).Canonical := clearBank_canonical h

/-- What the entry to ON leaves, before it is raised. -/
theorem onEntered_leaves {k : Nat} (hk : k < 64) :
    let e := (s.clr (F.vatBankStatus_RET_VOID k)).clr (F.vatBankStatus_FILLING k)
    e.Canonical ∧ e.rd (F.vatBankStatus_RET_VOID k) = 0 ∧ e.rd (F.vatBankStatus_PWR k) = s.rd (F.vatBankStatus_PWR k) ∧
      e.rd (F.intcTgt_DEST 455) = s.rd (F.intcTgt_DEST 455) := by
  have hvoid : (s.clr (F.vatBankStatus_RET_VOID k)).Canonical := State.clr_canonical h
  refine ⟨State.clr_canonical hvoid, rd_clr_zero hvoid (rd_clr_same h _), ?_, ?_⟩
  · exact (State.rd_wr_other hvoid _ _ _ (bankFld_ne (bankFld_pwr hk) (bankFld_filling hk) (.inr (by decide)))).trans
      (State.rd_wr_other h _ _ _ (bankFld_ne (bankFld_pwr hk) (bankFld_retVoid hk) (.inr (by decide))))
  · exact (State.rd_wr_other hvoid _ _ _ (bankFld_ne_below (bankFld_filling hk) (by decide)).symm).trans
      (State.rd_wr_other h _ _ _ (bankFld_ne_below (bankFld_retVoid hk) (by decide)).symm)

end

theorem bankFld_not_report {k place : Nat} {f : Fld} (hf : BankFld k place f) : reportKey f.key = false :=
  not_report_of_not_manager (bankFld_not_manager hf)

/-- A bank arrives at `target` in `t`: its contents stand, or it was OFF, goes OFF, or was void. -/
def Arrives (k from_ target : Nat) (s t : State) : Prop :=
  t.rd (F.vatBankStatus_PWR k) = target ∧
    (t.vat = arrivedVat k s.vat ∧ from_ ≠ 2 ∧ target ≠ 2 ∨
      t.vat = clearedVat k (arrivedVat k s.vat) ∧ (from_ = 2 ∨ target = 2 ∨ s.rd (F.vatBankStatus_RET_VOID k) ≠ 0))

section
variable {k from_ : Nat} (hk : k < 64) {s : State} (h : s.Canonical)
include hk h

theorem bankArrive_on_leaves : Arrives k from_ 0 s (bankArrive k from_ 0 s) ∧
    (bankArrive k from_ 0 s).rd (F.vatBankStatus_RET_VOID k) = 0 ∧ Pends 455 s (bankArrive k from_ 0 s) := by
  have harrived := arrived_canonical h k 0
  have hpwr := arrived_pwr h (k := k) (target := 0) (by decide)
  have hvoid : (arrived k 0 s).rd (F.vatBankStatus_RET_VOID k) = s.rd (F.vatBankStatus_RET_VOID k) :=
    arrived_other h (bankFld_ne (bankFld_retVoid hk) (bankFld_pwr hk) (.inr (by decide)))
  have hdest : (arrived k 0 s).rd (F.intcTgt_DEST 455) = s.rd (F.intcTgt_DEST 455) :=
    arrived_other h (bankFld_ne_below (bankFld_pwr hk) (by decide)).symm
  have hvat : (arrived k 0 s).vat = arrivedVat k s.vat := rfl
  rw [bankArrive_on]
  generalize arrived k 0 s = a at harrived hpwr hvoid hdest hvat
  have hcontents : ∃ c : State, (if from_ = 2 ∨ a.flag (F.vatBankStatus_RET_VOID k) then onVat (clearedVat k) a else a) = c ∧ c.Canonical ∧
      (∀ g, c.rd g = a.rd g) ∧ (c.vat = arrivedVat k s.vat ∧ from_ ≠ 2 ∨
        c.vat = clearedVat k (arrivedVat k s.vat) ∧ (from_ = 2 ∨ s.rd (F.vatBankStatus_RET_VOID k) ≠ 0)) := by
    split
    · next hlost =>
      refine ⟨_, rfl, cleared_canonical harrived k, fun _ => rfl, .inr ⟨by rw [onVat_vat, hvat], hlost.imp_right fun hflag => ?_⟩⟩
      rw [State.flag, hvoid, bne_iff_ne] at hflag
      exact hflag
    · next hkept => exact ⟨_, rfl, harrived, fun _ => rfl, .inl ⟨hvat, fun e => hkept (.inl e)⟩⟩
  obtain ⟨c, hc, hcanonical, hrd, hcontents⟩ := hcontents
  dsimp only
  rw [hc]
  obtain ⟨he, hzero, hkeep, hto⟩ := onEntered_leaves hcanonical hk
  refine ⟨⟨?_, ?_⟩, ?_, pends_of_raise he (by decide) ?_ id⟩
  · rw [raise_rd he _ _ (not_delivery_of_not_report (bankFld_not_report (bankFld_pwr hk))), hkeep, hrd, hpwr]
  · rw [raise_vat he, State.clr_vat, State.clr_vat]
    exact hcontents.imp (fun ⟨hsame, hfrom⟩ => ⟨hsame, hfrom, by decide⟩) fun ⟨hcleared, hlost⟩ => ⟨hcleared, hlost.imp_right .inr⟩
  · rw [raise_rd he _ _ (not_delivery_of_not_report (bankFld_not_report (bankFld_retVoid hk))), hzero]
  · rw [hto, hrd, hdest]

theorem bankArrive_retention_leaves : Arrives k from_ 1 s (bankArrive k from_ 1 s) := by
  have harrived := arrived_canonical h k 1
  have hpwr := arrived_pwr h (k := k) (target := 1) (by decide)
  have hne : (F.vatBankStatus_PWR k).key ≠ (F.vatBankStatus_RET_VOID k).key :=
    bankFld_ne (bankFld_pwr hk) (bankFld_retVoid hk) (.inr (by decide))
  have hvat : (arrived k 1 s).vat = arrivedVat k s.vat := rfl
  rw [bankArrive_retention]
  generalize arrived k 1 s = a at harrived hpwr hvat
  have hshows (c : State) (hc : c.Canonical) (hcpwr : c.rd (F.vatBankStatus_PWR k) = 1)
      (hcvat : c.vat = arrivedVat k s.vat ∧ from_ ≠ 2 ∨ c.vat = clearedVat k (arrivedVat k s.vat) ∧ from_ = 2) :
      Arrives k from_ 1 s (if c.above125 then voidBank k c else c) := by
    have hcontents {v : VatState} (hv : v = c.vat) : v = arrivedVat k s.vat ∧ from_ ≠ 2 ∧ 1 ≠ 2 ∨
        v = clearedVat k (arrivedVat k s.vat) ∧ (from_ = 2 ∨ 1 = 2 ∨ s.rd (F.vatBankStatus_RET_VOID k) ≠ 0) :=
      hv ▸ hcvat.imp (fun ⟨hsame, hfrom⟩ => ⟨hsame, hfrom, by decide⟩) fun ⟨hcleared, hfrom⟩ => ⟨hcleared, .inl hfrom⟩
    split
    · obtain ⟨hvoidVat, hvoidRd⟩ := voidBank_leaves k hc
      exact ⟨(hvoidRd _ (bankFld_not_report (bankFld_pwr hk)) hne).trans hcpwr, hcontents hvoidVat⟩
    · exact ⟨hcpwr, hcontents rfl⟩
  dsimp only
  refine hshows _ ?_ ?_ ?_ <;> split
  · exact cleared_canonical (State.set1_canonical harrived) k
  · exact harrived
  · exact (State.rd_wr_other harrived _ _ _ hne).trans hpwr
  · exact hpwr
  · next hfrom => exact .inr ⟨by rw [onVat_vat, State.set1_vat, hvat], hfrom⟩
  · next hfrom => exact .inl ⟨hvat, hfrom⟩

omit hk in
theorem bankArrive_off_leaves : Arrives k from_ 2 s (bankArrive k from_ 2 s) := by
  rw [bankArrive_off]
  exact ⟨arrived_pwr h (by decide), .inr ⟨rfl, .inr (.inl rfl)⟩⟩

theorem bankArrive_leaves (target : Fin 3) : Arrives k from_ target.val s (bankArrive k from_ target.val s) :=
  match target with
  | 0 => (bankArrive_on_leaves hk h).1
  | 1 => bankArrive_retention_leaves hk h
  | 2 => bankArrive_off_leaves h

end

section
variable {k from_ target : Nat} {s t : State} (harrives : Arrives k from_ target s t)
include harrives

theorem arrives_moving : ∀ m ∈ t.vat.moving, m.1 ≠ k := by
  have hmoving : t.vat.moving = s.vat.moving.filter fun m => m.1 != k := by
    rcases harrives.2 with ⟨hvat, -⟩ | ⟨hvat, -⟩ <;> rw [hvat] <;> rfl
  intro m hm
  rw [hmoving, List.mem_filter] at hm
  exact bne_iff_ne.1 hm.2

theorem arrives_queued : t.vat.queued = s.vat.queued := by
  rcases harrives.2 with ⟨hvat, -⟩ | ⟨hvat, -⟩ <;> rw [hvat] <;> rfl

theorem arrives_get (h : s.Canonical) (a : Nat) : Sparse.get a 0#8 t.vat.data = Sparse.get a 0#8 s.vat.data ∧ from_ ≠ 2 ∧ target ≠ 2 ∨
    Sparse.get a 0#8 t.vat.data = if a / 0x400000 != k then Sparse.get a 0#8 s.vat.data else 0#8 := by
  rcases harrives.2 with ⟨hvat, hfrom, htarget⟩ | ⟨hvat, -⟩
  · exact .inl ⟨by rw [hvat]; rfl, hfrom, htarget⟩
  · rw [hvat]
    exact .inr (get_filter h.vat.1 (fun b => b / 0x400000 != k) a 0#8)

theorem arrives_others (h : s.Canonical) {a : Nat} (ha : a / 0x400000 ≠ k) : Sparse.get a 0#8 t.vat.data = Sparse.get a 0#8 s.vat.data := by
  rcases arrives_get harrives h a with ⟨hsame, -⟩ | hcleared
  · exact hsame
  · rw [hcleared, if_pos (bne_iff_ne.2 ha)]

theorem arrives_lost (h : s.Canonical) (hlost : from_ = 2 ∨ target = 2) {a : Nat} (ha : a / 0x400000 = k) :
    Sparse.get a 0#8 t.vat.data = 0#8 := by
  rcases arrives_get harrives h a with ⟨-, hfrom, htarget⟩ | hcleared
  · exact absurd hlost (not_or.2 ⟨hfrom, htarget⟩)
  · rw [hcleared, if_neg (by simp [ha])]

theorem arrives_kept (hfrom : from_ ≠ 2) (htarget : target ≠ 2) (hvoid : s.rd (F.vatBankStatus_RET_VOID k) = 0) :
    t.vat.data = s.vat.data := by
  rcases harrives.2 with ⟨hvat, -⟩ | ⟨-, hlost⟩
  · rw [hvat]
    rfl
  · exact absurd hlost (by simp [hfrom, htarget, hvoid])

end

theorem exec_vatBankTransitionDone {k : Fin 64} {s : State} {from_ target : Nat} {t : State}
    (hmoving : (s.vat.moving.find? fun m => m.1 == k.val) = some (k.val, from_, target)) (hdone : bankArrive k.val from_ target s = t)
    (hqueued : t.vat.queued = []) : exec (.vatBankTransitionDone k) s = .next t := by
  change execVatBankTransitionDone k s = _
  simp only [execVatBankTransitionDone, hmoving, hdone, hqueued, List.find?_nil]

end Sys2Proof.Machine

namespace Sys2Proof.Machine

-- One declaration after another: the memory limit of the check counts the stack of every thread that elaborates beside them.
set_option Elab.async false

/-! ### VAT_BGT_POS moves on (R97, R98) -/

/-- A write of a register of the Vat. -/
theorem staysPending_vat {n : Nat} (hn : n < 512) {s : State} (h : StaysPending n s) {f : Fld} (v : Nat)
    (hf : 0xD00000 ≤ f.key % 2 ^ 30 / 64) : StaysPending n (s.wr f v) := by
  refine staysPending_wr_beside h v ?_ ?_
  · intro e
    rw [e] at hf
    simp [Fld.key, Fld.group, F.intcPendSet_SRC] at hf
    omega
  · intro e
    rw [← e] at hf
    simp [Fld.key, Fld.group, F.intcTgt_DEST] at hf
    omega

/-- The fields of VAT_BGT_POS. -/
def bgtPos : List Fld := [F.vatBgtPos_BANK, F.vatBgtPos_REGION, F.vatBgtPos_PASSES, F.vatBgtPos_PHASE]

theorem bgtPos_vat : ∀ f ∈ bgtPos, 0xD00000 ≤ f.key % 2 ^ 30 / 64 := by decide

/-- From `s` to `t`, VAT_BGT_POS changed and interrupts were delivered, the Vat holds what it held, and a pending source `n` stays so. -/
def PosMoves (n : Nat) (s t : State) : Prop :=
  t.Canonical ∧ (∀ g : Fld, deliveryKey g.key = false → (∀ f ∈ bgtPos, g.key ≠ f.key) → t.rd g = s.rd g) ∧
    t.vat.data = s.vat.data ∧ (StaysPending n s → StaysPending n t)

section
variable {n : Nat} (hn : n < 512) {s t : State} (h : PosMoves n s t)
include hn h

theorem posMoves_wr {f : Fld} (hf : f ∈ bgtPos) (v : Nat) : PosMoves n s (t.wr f v) := by
  obtain ⟨hc, hrd, hdata, hpend⟩ := h
  exact ⟨State.wr_canonical hc, fun g hg hne => (State.rd_wr_other hc _ _ _ (hne f hf)).trans (hrd g hg hne), hdata,
    fun hs => staysPending_vat hn (hpend hs) v (bgtPos_vat f hf)⟩

theorem posMoves_raise (m : Nat) : PosMoves n s (raise m t) := by
  obtain ⟨hc, hrd, hdata, hpend⟩ := h
  exact ⟨raise_canonical hc, fun g hg hne => (raise_rd hc m g hg).trans (hrd g hg hne), by rw [raise_vat hc, hdata],
    fun hs => staysPending_raise (hpend hs) hn m⟩

end

/-- The region is closed, and the position still on it. -/
def regionShut (s : State) : State := onVat (fun v => { v with bgt := none }) (s.clr F.vatBgtPos_PHASE)

theorem bgtClose_eq (s : State) : bgtClose s = bgtAdvance (regionShut s) := rfl

theorem posMoves_regionShut {n : Nat} (hn : n < 512) {s : State} (h : s.Canonical) : PosMoves n s (regionShut s) := by
  obtain ⟨hc, hrd, hdata, hpend⟩ := posMoves_wr hn (t := s) ⟨h, fun _ _ _ => rfl, rfl, id⟩ (f := F.vatBgtPos_PHASE) (by simp [bgtPos]) 0
  exact ⟨onVat_canonical hc, hrd, hdata, fun hs => staysPending_onVat (hpend hs) rfl⟩

/-- The wrap past the last region: the position is back at the first, and a pass counts. -/
def regionWrapped (s : State) : State := ((s.clr F.vatBgtPos_BANK).clr F.vatBgtPos_REGION).inc F.vatBgtPos_PASSES

theorem bgtAdvance_eq {s : State} (h : s.Canonical) : bgtAdvance s =
    if s.rd F.vatBgtPos_BANK < 63 then s.wr F.vatBgtPos_BANK (s.rd F.vatBgtPos_BANK + 1)
    else if s.rd F.vatBgtPos_REGION < 1023 then (s.clr F.vatBgtPos_BANK).wr F.vatBgtPos_REGION (s.rd F.vatBgtPos_REGION + 1)
    else raise 459 (regionWrapped s) := by
  have hregion : (s.clr F.vatBgtPos_BANK).rd F.vatBgtPos_REGION = s.rd F.vatBgtPos_REGION := State.rd_wr_other h _ _ _ (by decide)
  unfold bgtAdvance
  dsimp only
  rw [hregion]
  rfl

theorem posMoves_bgtAdvance {n : Nat} (hn : n < 512) {s t : State} (h : PosMoves n s t) : PosMoves n s (bgtAdvance t) := by
  have hbank := posMoves_wr hn h (f := F.vatBgtPos_BANK) (by simp [bgtPos])
  rw [bgtAdvance_eq h.1]
  split
  · exact hbank _
  · have hregion := posMoves_wr hn (hbank 0) (f := F.vatBgtPos_REGION) (by simp [bgtPos])
    split
    · exact hregion _
    · exact posMoves_raise hn (posMoves_wr hn (hregion 0) (f := F.vatBgtPos_PASSES) (by simp [bgtPos]) _) 459

theorem posMoves_bgtClose {n : Nat} (hn : n < 512) {s : State} (h : s.Canonical) : PosMoves n s (bgtClose s) :=
  posMoves_bgtAdvance hn (posMoves_regionShut hn h)

/-- Closed, and on the next region: by bank, then by region, and past the last one a pass. -/
def RegionMoved (s t : State) : Prop :=
  t.vat.bgt = none ∧ t.rd F.vatBgtPos_PHASE = 0 ∧ t.vat.data = s.vat.data ∧
    (s.rd F.vatBgtPos_BANK < 63 → t.rd F.vatBgtPos_BANK = s.rd F.vatBgtPos_BANK + 1 ∧ t.rd F.vatBgtPos_REGION = s.rd F.vatBgtPos_REGION) ∧
    (s.rd F.vatBgtPos_BANK = 63 → s.rd F.vatBgtPos_REGION < 1023 →
      t.rd F.vatBgtPos_BANK = 0 ∧ t.rd F.vatBgtPos_REGION = s.rd F.vatBgtPos_REGION + 1) ∧
    (s.rd F.vatBgtPos_BANK = 63 → s.rd F.vatBgtPos_REGION = 1023 → t.rd F.vatBgtPos_BANK = 0 ∧ t.rd F.vatBgtPos_REGION = 0 ∧
      Pends 459 s t ∧ Counted F.vatBgtPos_PASSES s t)

section
variable {s : State} (h : s.Canonical)
include h

theorem regionWrapped_leaves : (regionWrapped s).Canonical ∧ (regionWrapped s).rd F.vatBgtPos_BANK = 0 ∧
    (regionWrapped s).rd F.vatBgtPos_REGION = 0 ∧ Counted F.vatBgtPos_PASSES s (regionWrapped s) ∧
    (regionWrapped s).rd F.vatBgtPos_PHASE = s.rd F.vatBgtPos_PHASE ∧ (regionWrapped s).vat = s.vat ∧
    (regionWrapped s).rd (F.intcTgt_DEST 459) = s.rd (F.intcTgt_DEST 459) := by
  have hbank : (s.clr F.vatBgtPos_BANK).Canonical := State.clr_canonical h
  have hregion : ((s.clr F.vatBgtPos_BANK).clr F.vatBgtPos_REGION).Canonical := State.clr_canonical hbank
  have hkeep {g : Fld} (hg : g.key ≠ F.vatBgtPos_BANK.key ∧ g.key ≠ F.vatBgtPos_REGION.key) :
      ((s.clr F.vatBgtPos_BANK).clr F.vatBgtPos_REGION).rd g = s.rd g :=
    (State.rd_wr_other hbank _ _ _ hg.2).trans (State.rd_wr_other h _ _ _ hg.1)
  have hpassed {g : Fld} (hg : g.key ≠ F.vatBgtPos_PASSES.key) :
      (regionWrapped s).rd g = ((s.clr F.vatBgtPos_BANK).clr F.vatBgtPos_REGION).rd g := State.rd_wr_other hregion _ _ _ hg
  refine ⟨State.inc_canonical hregion, ?_, ?_, ?_, ?_, rfl, ?_⟩
  · exact (hpassed (by decide)).trans (rd_clr_zero hbank (rd_clr_same h _))
  · exact (hpassed (by decide)).trans (rd_clr_same hbank _)
  · rw [Counted, regionWrapped, rd_inc_same hregion, hkeep (by decide)]
  · exact (hpassed (by decide)).trans (hkeep (by decide))
  · exact (hpassed (by decide)).trans (hkeep (by decide))

/-- The position moves one region on from a region that is shut. -/
theorem bgtAdvance_moves (hphase : s.rd F.vatBgtPos_PHASE = 0) (hshut : s.vat.bgt = none) : RegionMoved s (bgtAdvance s) := by
  have hbank : (s.clr F.vatBgtPos_BANK).Canonical := State.clr_canonical h
  rw [bgtAdvance_eq h]
  split
  · next hlt =>
    refine ⟨hshut, (State.rd_wr_other h _ _ _ (by decide)).trans hphase, rfl, fun _ => ⟨?_, State.rd_wr_other h _ _ _ (by decide)⟩,
      fun hlast => by omega, fun hlast => by omega⟩
    exact (State.rd_wr_same h _ _).trans (Nat.mod_eq_of_lt (Nat.succ_lt_succ hlt))
  · next hge =>
    split
    · next hlt =>
      refine ⟨hshut, ?_, rfl, fun hbelow => absurd hbelow hge, fun _ _ => ⟨?_, ?_⟩, fun _ hlast => by omega⟩
      · exact (State.rd_wr_other hbank _ _ _ (by decide)).trans ((State.rd_wr_other h _ _ _ (by decide)).trans hphase)
      · exact (State.rd_wr_other hbank _ _ _ (by decide)).trans (rd_clr_same h _)
      · exact (State.rd_wr_same hbank _ _).trans (Nat.mod_eq_of_lt (Nat.succ_lt_succ hlt))
    · next hlast =>
      obtain ⟨hc, hfirst, hregion, hpasses, hkeep, hvat, hdest⟩ := regionWrapped_leaves h
      generalize regionWrapped s = w at hc hfirst hregion hpasses hkeep hvat hdest
      have hrd {g : Fld} (hg : deliveryKey g.key = false) : (raise 459 w).rd g = w.rd g := raise_rd hc 459 g hg
      refine ⟨by rw [raise_vat hc, hvat, hshut], by rw [hrd (by decide), hkeep, hphase], by rw [raise_vat hc, hvat],
        fun hbelow => absurd hbelow hge, fun _ hbelow => absurd hbelow hlast, fun _ _ => ⟨?_, ?_, ?_, ?_⟩⟩
      · rw [hrd (by decide), hfirst]
      · rw [hrd (by decide), hregion]
      · exact pends_of_raise hc (by decide) hdest id
      · rw [Counted, hrd (by decide)]
        exact hpasses

end

/-- A region closes from a state that shows the position of `s` and holds the contents of `s`. -/
theorem bgtClose_moves {s u : State} (hu : u.Canonical) (hdata : u.vat.data = s.vat.data)
    (hrd : ∀ g ∈ [F.vatBgtPos_BANK, F.vatBgtPos_REGION, F.vatBgtPos_PASSES, F.intcTgt_DEST 459], u.rd g = s.rd g) :
    RegionMoved s (bgtClose u) := by
  have hclr : (u.clr F.vatBgtPos_PHASE).Canonical := State.clr_canonical hu
  have hshut : (regionShut u).Canonical := onVat_canonical hclr
  have hshown : ∀ g ∈ [F.vatBgtPos_BANK, F.vatBgtPos_REGION, F.vatBgtPos_PASSES, F.intcTgt_DEST 459], (regionShut u).rd g = s.rd g :=
    fun g hg => (State.rd_wr_other hu _ _ _ (by revert g; decide)).trans (hrd g hg)
  have hmoved := bgtAdvance_moves hshut (rd_clr_same hu F.vatBgtPos_PHASE) rfl
  simp only [List.forall_mem_cons] at hshown
  obtain ⟨hbank, hregion, hpasses, hdest, -⟩ := hshown
  have hcontents : (regionShut u).vat.data = s.vat.data := hdata
  rwa [RegionMoved, Pends, Counted, hbank, hregion, hpasses, hdest, hcontents, ← bgtClose_eq] at hmoved

end Sys2Proof.Machine

namespace Sys2Proof.Machine

-- One declaration after another: the memory limit of the check counts the stack of every thread that elaborates beside them.
set_option Elab.async false

/-! ### The failing bits of a region (R92, R99, R571) -/

theorem tends_trans {n : Nat} {s t u : State} (h : Tends n s t) (k : Tends n t u) : Tends n s u := by
  obtain ⟨hmoves, hvat, hpend⟩ := h
  obtain ⟨kmoves, kvat, kpend⟩ := k
  exact ⟨moves_trans hmoves kmoves, kvat.trans hvat, fun hs => kpend (hpend hs)⟩

/-- A repair offered is the fault manager's and the log's. -/
theorem tends_offerRepair {n : Nat} (hn : n < 512) {s t : State} (h : Tends n s t) (id sub addr limit : Nat) :
    Tends n s (offerRepair id sub addr limit t) := by
  unfold offerRepair
  dsimp only
  split
  · exact h
  · exact tends_logEvent (tends_fault (tends_manager h (f := F.fltMap_PENDING) 1 hn (by decide) (by decide)) _) hn _ _ _ _

/-- What VAT_BGT_FAIL records of a bit. -/
def bgtLast (b : BgtRun) (f : BgtBit) : List (Fld × Nat) :=
  [(F.vatBgtFail_BANK, b.bank), (F.vatBgtFail_ROW, b.region * 64 + f.row.val), (F.vatBgtFail_WORD, f.word.val),
    (F.vatBgtFail_BIT, f.bitNo.val), (F.vatBgtFail_VALID, 1)]

/-- The fields of VAT_BGT_FAIL but the count. -/
def bgtRecord : List Fld := [F.vatBgtFail_BANK, F.vatBgtFail_ROW, F.vatBgtFail_WORD, F.vatBgtFail_BIT, F.vatBgtFail_VALID]

theorem bgtLast_fields (b : BgtRun) (f : BgtBit) : (bgtLast b f).map Prod.fst = bgtRecord := rfl

theorem bgtFail_eq (b : BgtRun) (f : BgtBit) (s : State) : bgtFail b f s =
    offerRepair (unitId 4 b.bank) 0 (b.region * 64 + f.row.val) 32 (setFlds (bgtLast b f) s) := rfl

theorem staysPending_setFlds {n : Nat} (hn : n < 512) {l : List (Fld × Nat)} (hl : ∀ p ∈ l, 0xD00000 ≤ p.1.key % 2 ^ 30 / 64) {s : State}
    (h : StaysPending n s) : StaysPending n (setFlds l s) := by
  induction l generalizing s with
  | nil => exact h
  | cons p l ih => exact ih (fun q hq => hl q (by simp [hq])) (staysPending_vat hn h p.2 (hl p (by simp)))

/-- From `s` to `t`, bits failed: beside what the fault manager changes, only the record of VAT_BGT_FAIL did. -/
def BitsFail (n : Nat) (s t : State) : Prop :=
  t.Canonical ∧ (∀ g : Fld, bankKey g.key = false → (∀ f ∈ bgtRecord, g.key ≠ f.key) → t.rd g = s.rd g) ∧ t.vat = s.vat ∧
    (StaysPending n s → StaysPending n t)

section
variable {n : Nat} (hn : n < 512) {s t u : State}

theorem bitsFail_tends (h : BitsFail n s t) (k : Tends n t u) : BitsFail n s u := by
  obtain ⟨-, hrd, hvat, hpend⟩ := h
  obtain ⟨⟨hc, krd⟩, kvat, kpend⟩ := k
  exact ⟨hc, fun g hg hne => (krd g hg).trans (hrd g hg hne), kvat.trans hvat, fun hs => kpend (hpend hs)⟩

include hn

theorem tends_bgtFail (h : t.Canonical) (b : BgtRun) (f : BgtBit) : Tends n (setFlds (bgtLast b f) t) (bgtFail b f t) :=
  bgtFail_eq b f t ▸ tends_offerRepair hn (tends_refl n (writes_setFlds h _).1) _ _ _ _

theorem bitsFail_bgtFail (h : BitsFail n s t) (b : BgtRun) (f : BgtBit) : BitsFail n s (bgtFail b f t) := by
  obtain ⟨hc, hrd, hvat, hpend⟩ := h
  have hwrites := writes_setFlds hc (bgtLast b f)
  have hlast : ∀ p ∈ bgtLast b f, 0xD00000 ≤ p.1.key % 2 ^ 30 / 64 := by
    simp only [bgtLast, List.forall_mem_cons, List.not_mem_nil, false_implies, implies_true, and_true]
    decide
  refine bitsFail_tends ⟨hwrites.1, fun g hg hne => ?_, (writes_vat hwrites).trans hvat, fun hs => ?_⟩ (tends_bgtFail hn hc b f)
  · exact (writes_rd hwrites (bgtLast_fields b f ▸ hne)).trans (hrd g hg hne)
  · exact staysPending_setFlds hn hlast (hpend hs)

theorem bitsFail_forL (h : s.Canonical) (b : BgtRun) (l : List BgtBit) : BitsFail n s (s.forL l (bgtFail b)) :=
  List.foldlRecOn (motive := BitsFail n s) l _ ⟨h, fun _ _ _ => rfl, rfl, id⟩ fun _ hu f _ => bitsFail_bgtFail hn hu b f

end

/-- The last bit that failed is the one recorded. -/
theorem forL_bgtFail_shows {s : State} (h : s.Canonical) (b : BgtRun) (fs : List BgtBit) (f : BgtBit) {g : Fld} {v : Nat}
    (hg : (g, v) ∈ bgtLast b f) (hkey : bankKey g.key = false) : (s.forL (fs ++ [f]) (bgtFail b)).rd g = v % 2 ^ g.width := by
  have happend : s.forL (fs ++ [f]) (bgtFail b) = bgtFail b f (s.forL fs (bgtFail b)) := List.foldl_append
  obtain ⟨hc, -⟩ := bitsFail_forL (n := 0) (by decide) h b fs
  rw [happend, tends_rd (tends_bgtFail (n := 0) (by decide) hc b f) hkey]
  exact rd_setFlds hc (by simp only [bgtLast, List.map]; decide) hg

/-- The upset of a region with failing bits begins a scrub of the bank, which changes nothing but the scrubs to come. -/
def bgtScrub (k : Nat) (s : State) : State :=
  if (s.fltUnit (unitId 4 k)).retrying && !s.vat.scrubbing.contains k then
    onVat (fun v => { v with scrubbing := k :: v.scrubbing }) s
  else s

theorem bgtScrub_leaves (k : Nat) {s : State} (h : s.Canonical) : (bgtScrub k s).Canonical ∧ (∀ g, (bgtScrub k s).rd g = s.rd g) ∧
    (bgtScrub k s).vat.data = s.vat.data ∧ ∀ n, StaysPending n s → StaysPending n (bgtScrub k s) := by
  unfold bgtScrub
  split
  · exact ⟨onVat_canonical h, fun _ => rfl, rfl, fun _ hs => staysPending_onVat hs rfl⟩
  · exact ⟨h, fun _ => rfl, rfl, fun _ => id⟩

/-- The bits of a region that failed, once the region is counted and raised. -/
def bitsFailed (b : BgtRun) (l : List BgtBit) (s : State) : State :=
  bgtScrub b.bank (upset (unitId 4 b.bank) 8 (s.forL l (bgtFail b)))

theorem bgtFails_eq (b : BgtRun) (fs : List BgtBit) (f : BgtBit) (s : State) : bgtFails b (fs ++ [f]) s =
    bitsFailed b (fs ++ [f]) (raise 458 (s.inc F.vatBgtFail_COUNT)) := by
  have hsome : (fs ++ [f]).isEmpty = false := by simp
  simp only [bgtFails, hsome, Bool.false_eq_true, if_false]
  rfl

section
variable {b : BgtRun} (hb : b.bank < 64) {s : State} (h : s.Canonical)
include hb h

theorem tends_bgtUpset (l : List BgtBit) {n : Nat} (hn : n < 512) :
    Tends n (s.forL l (bgtFail b)) (upset (unitId 4 b.bank) 8 (s.forL l (bgtFail b))) :=
  (faultClosed_bank hb hn).upset (tends_refl n (bitsFail_forL hn h b l).1) 8

theorem bitsFailed_leaves (l : List BgtBit) : (bitsFailed b l s).Canonical ∧ (bitsFailed b l s).vat.data = s.vat.data ∧
    (∀ g : Fld, bankKey g.key = false → (∀ f ∈ bgtRecord, g.key ≠ f.key) → (bitsFailed b l s).rd g = s.rd g) ∧
    (StaysPending 458 s → StaysPending 458 (bitsFailed b l s)) := by
  obtain ⟨hc, hrd, hvat, hpend⟩ := bitsFail_tends (bitsFail_forL (n := 458) (by decide) h b l) (tends_bgtUpset hb h l (by decide))
  obtain ⟨hscrub, hscrubRd, hscrubData, hscrubPend⟩ := bgtScrub_leaves b.bank hc
  exact ⟨hscrub, hscrubData.trans (congrArg VatState.data hvat), fun g hg hne => (hscrubRd g).trans (hrd g hg hne),
    fun hs => hscrubPend 458 (hpend hs)⟩

theorem bitsFailed_shows (fs : List BgtBit) (f : BgtBit) {g : Fld} {v : Nat} (hg : (g, v) ∈ bgtLast b f) (hkey : bankKey g.key = false) :
    (bitsFailed b (fs ++ [f]) s).rd g = v % 2 ^ g.width := by
  have hupset := tends_bgtUpset hb h (fs ++ [f]) (n := 0) (by decide)
  obtain ⟨-, hscrubRd, -⟩ := bgtScrub_leaves b.bank (tends_canonical hupset)
  rw [bitsFailed, hscrubRd, tends_rd hupset hkey, forL_bgtFail_shows h b fs f hg hkey]

end

/-! ### The commands of the background test (R97 to R99) -/

theorem exec_bgtRegionOpen {s : State} (hen : s.rd F.vatCtl_BGT_EN = 1) (hshut : s.vat.bgt = none) (hbank : s.rd F.vatBgtPos_BANK < 64)
    (hserves : s.bankServes (s.rd F.vatBgtPos_BANK) = true) : exec .bgtRegionOpen s =
      .next (onVat (fun v => { v with bgt := some { bank := s.rd F.vatBgtPos_BANK, region := s.rd F.vatBgtPos_REGION } })
        (s.wr F.vatBgtPos_PHASE 1)) := by
  have hany : (List.range 64).any s.bankServes = true := List.any_eq_true.2 ⟨_, List.mem_range.2 hbank, hserves⟩
  have hopens : (s.flag F.vatCtl_BGT_EN && s.vat.bgt.isNone && (List.range 64).any s.bankServes) = true := by
    rw [State.flag, hen, hshut, hany]
    rfl
  have hhere : bgtSkipOff 64 s = s := by rw [bgtSkipOff, if_pos hserves]
  change execBgtRegionOpen s = _
  simp only [execBgtRegionOpen, hopens, if_true, hhere]
  rfl

theorem exec_bgtRegionClose {s : State} {b : BgtRun} (hopen : s.vat.bgt = some b) (fails : List BgtBit) :
    exec (.bgtRegionClose fails) s = .next (bgtClose (bgtFails b fails s)) := by
  change execBgtRegionClose fails s = _
  rw [execBgtRegionClose, hopen]

theorem exec_bgtRegionSkip {s : State} {b : BgtRun} (hopen : s.vat.bgt = some b) :
    exec .bgtRegionSkip s = .next (bgtClose (s.inc F.vatBgtSkipped_COUNT)) := by
  change execBgtRegionSkip s = _
  rw [execBgtRegionSkip, hopen]

theorem bgtFails_nil (b : BgtRun) (s : State) : bgtFails b [] s = s := rfl

section
variable {s : State} (h : s.Canonical)
include h

/-- A skip is counted, and the position moves on. -/
theorem regionSkip_leaves : RegionMoved s (bgtClose (s.inc F.vatBgtSkipped_COUNT)) ∧
    Counted F.vatBgtSkipped_COUNT s (bgtClose (s.inc F.vatBgtSkipped_COUNT)) := by
  have hinc : (s.inc F.vatBgtSkipped_COUNT).Canonical := State.inc_canonical h
  have hrd : ∀ g ∈ [F.vatBgtPos_BANK, F.vatBgtPos_REGION, F.vatBgtPos_PASSES, F.intcTgt_DEST 459],
      (s.inc F.vatBgtSkipped_COUNT).rd g = s.rd g := fun g hg => State.rd_wr_other h _ _ _ (by revert g; decide)
  have hcount := rd_inc_same h F.vatBgtSkipped_COUNT
  have hdata : (s.inc F.vatBgtSkipped_COUNT).vat.data = s.vat.data := by rw [State.inc_vat]
  generalize s.inc F.vatBgtSkipped_COUNT = u at hinc hrd hcount hdata
  obtain ⟨-, hkeep, -⟩ := posMoves_bgtClose (n := 0) (by decide) hinc
  exact ⟨bgtClose_moves hinc hdata hrd, (hkeep _ (by decide) (by decide)).trans hcount⟩

/-- A region with failing bits is counted and raised, the last of them recorded, and the position moves on. -/
theorem regionFails_leaves {b : BgtRun} (hbank : b.bank < 64) (hregion : b.region < 1024) (fs : List BgtBit) (f : BgtBit) :
    let t := bgtClose (bgtFails b (fs ++ [f]) s)
    RegionMoved s t ∧ Pends 458 s t ∧ t.rd F.vatBgtFail_BANK = b.bank ∧ t.rd F.vatBgtFail_ROW = b.region * 64 + f.row.val ∧
      t.rd F.vatBgtFail_WORD = f.word.val ∧ t.rd F.vatBgtFail_BIT = f.bitNo.val ∧ t.rd F.vatBgtFail_VALID = 1 ∧
      Counted F.vatBgtFail_COUNT s t := by
  have hinc : (s.inc F.vatBgtFail_COUNT).Canonical := State.inc_canonical h
  have hcount := rd_inc_same h F.vatBgtFail_COUNT
  have hincRd {g : Fld} (hg : g.key ≠ F.vatBgtFail_COUNT.key) : (s.inc F.vatBgtFail_COUNT).rd g = s.rd g := State.rd_wr_other h _ _ _ hg
  have hincData : (s.inc F.vatBgtFail_COUNT).vat.data = s.vat.data := by rw [State.inc_vat]
  rw [bgtFails_eq]
  generalize s.inc F.vatBgtFail_COUNT = c at hinc hcount hincRd hincData
  have hraised := raise_canonical (x0 := 458) hinc
  have hraisedRd {g : Fld} (hg : deliveryKey g.key = false) : (raise 458 c).rd g = c.rd g := raise_rd hinc 458 g hg
  have hraisedData : (raise 458 c).vat.data = s.vat.data := by rw [raise_vat hinc, hincData]
  obtain ⟨hc, hdata, hrd, hpend⟩ := bitsFailed_leaves hbank hraised (fs ++ [f])
  have hshown {g : Fld} {v : Nat} (hg : (g, v) ∈ bgtLast b f) (hkey : bankKey g.key = false) :=
    bitsFailed_shows hbank hraised fs f hg hkey
  obtain ⟨-, hkeep, -, hclosed⟩ := posMoves_bgtClose (n := 458) (by decide) hc
  have hrecord (g : Fld) (v : Nat) (hg : (g, v) ∈ bgtLast b f) (hkey : bankKey g.key = false) (hpos : ∀ f ∈ bgtPos, g.key ≠ f.key)
      (hv : v < 2 ^ g.width) : (bgtClose (bitsFailed b (fs ++ [f]) (raise 458 c))).rd g = v := by
    rw [hkeep g (not_delivery_of_not_report (not_report_of_not_manager (not_manager_of_not_bank hkey))) hpos, hshown hg hkey,
      Nat.mod_eq_of_lt hv]
  refine ⟨bgtClose_moves hc (hdata.trans hraisedData) fun g hg => ?_, ?_, ?_, ?_, ?_, ?_, ?_, ?_⟩
  · rw [hrd g (by revert g; decide) (by revert g; decide), hraisedRd (by revert g; decide), hincRd (by revert g; decide)]
  · exact pends_of_raise hinc (by decide) (hincRd (by decide)) fun hs => hclosed (hpend hs)
  · exact hrecord _ _ (by simp [bgtLast]) (by decide) (by decide) hbank
  · exact hrecord _ _ (by simp [bgtLast]) (by decide) (by decide) (by change _ < 65536; omega)
  · exact hrecord _ _ (by simp [bgtLast]) (by decide) (by decide) f.word.isLt
  · exact hrecord _ _ (by simp [bgtLast]) (by decide) (by decide) (f.bitNo.isLt.trans (by decide : 137 < 256))
  · exact hrecord _ _ (by simp [bgtLast]) (by decide) (by decide) (by decide)
  · rw [Counted, hkeep _ (by decide) (by decide), hrd _ (by decide) (by decide), hraisedRd (by decide), hcount]

end

theorem exec_vatC0ResApply (k : Fin 64) (s : State) : exec (.vatC0ResApply k) s =
    .next { s with vat := { s.vat with c0Res := s.vat.c0Res.set k.val (min 4 (s.rd F.vatCtl_C0_RES)) } } := rfl

theorem getElem?_set_map {α : Type} (l : List α) (k : Nat) (a : α) (j : Nat) :
    (l.set k a)[j]? = if j = k then l[j]?.map (fun _ => a) else l[j]? := by
  by_cases e : j = k
  · subst e
    rw [List.getElem?_set_self', if_pos rfl]
    rfl
  · rw [List.getElem?_set_ne (Ne.symm e), if_neg e]

end Sys2Proof.Machine

section
open Sys2Proof Sys2Proof.Machine
set_option Elab.async false

/-- Settles O12: a bank that arrives keeps or loses its contents whole (`bankArrive_leaves`), and the test's position moves on by cases of
bank and region (`bgtAdvance_moves`), from a state in which the failing bits have left it as it was (`bitsFailed_leaves`). -/
theorem vatBanks : Obligations.VatBanks := by
  unfold Obligations.VatBanks
  refine ⟨fun s k old target h hmoving => ?_, fun s b fs f h => ?_⟩
  · have harrives := bankArrive_leaves (from_ := old.val) k.isLt h target
    refine ⟨fun hqueued => ?_, ⟨_, exec_vatC0ResApply k s, rfl, fun j => getElem?_set_map _ _ _ _⟩⟩
    refine ⟨_, exec_vatBankTransitionDone hmoving rfl ((arrives_queued harrives).trans hqueued), harrives.1, arrives_moving harrives,
      fun a ha => arrives_others harrives h ha, fun hlost a ha => arrives_lost harrives h hlost ha,
      fun hold htarget hvoid => arrives_kept harrives hold htarget hvoid, fun hon => ?_⟩
    rw [hon]
    exact (bankArrive_on_leaves k.isLt h).2
  · refine ⟨fun hen hshut hbank hserves => ?_, fun hopen => ⟨?_, ?_, fun hbank hregion => ?_⟩⟩
    · exact ⟨_, exec_bgtRegionOpen hen hshut hbank hserves, State.rd_wr_same h _ _, rfl, rfl,
        fun g hg => State.rd_wr_other h _ _ _ (hg _ (by simp))⟩
    · exact ⟨_, exec_bgtRegionClose hopen [], bgtFails_nil b s ▸ bgtClose_moves h rfl fun _ _ => rfl⟩
    · exact ⟨_, exec_bgtRegionSkip hopen, regionSkip_leaves h⟩
    · exact ⟨_, exec_bgtRegionClose hopen (fs ++ [f]), regionFails_leaves h hbank hregion fs f⟩
end

namespace Sys2Proof.Machine

-- One declaration after another: the memory limit of the check counts the stack of every thread that elaborates beside them.
set_option Elab.async false

/-! ### A fetch makes and unmakes no engine (R104) -/

/-- The state is canonical and keeps `N` engines. -/
def EngineCount (N : Nat) (s : State) : Prop := s.Canonical ∧ s.planes.length = N

theorem engineCount_report {N : Nat} {s t : State} (h : EngineCount N s) (ht : t.Canonical) (hr : ReportRest s t) : EngineCount N t := by
  obtain ⟨-, hcount⟩ := h
  exact ⟨ht, by rw [hr]; exact hcount⟩

/-- A change that leaves the engines as they are. -/
theorem engineCount_rest {N : Nat} {s t : State} (h : EngineCount N s) (ht : t.Canonical) (hplanes : t.planes = s.planes := by rfl) :
    EngineCount N t := by
  obtain ⟨-, hcount⟩ := h
  exact ⟨ht, by rw [hplanes]; exact hcount⟩

theorem readWord_none (k row w : Nat) (s : State) : (readWord k row w .none s).1 = s := by
  unfold readWord
  split <;> rfl

section
variable {N : Nat} {s : State} (h : EngineCount N s)
include h

theorem engineCount_inc (f : Fld) : EngineCount N (s.inc f) := engineCount_rest h (State.inc_canonical h.1)

theorem engineCount_raise (m : Nat) : EngineCount N (raise m s) := engineCount_report h (raise_canonical h.1) (reportRest_raise h.1 m)

theorem engineCount_onVat {f : VatState → VatState} (hdata : (f s.vat).data = s.vat.data := by rfl) : EngineCount N (onVat f s) :=
  engineCount_rest h (onVat_canonical h.1 hdata)

/-! #### The engine's reads (R26, R71, R83, R90) -/

theorem engineCount_decodeError (who : Initiator) (a : Nat) : EngineCount N (decodeError who a s) :=
  engineCount_report h (decodeError_canonical h.1) (reportRest_decodeError h.1 who a)

theorem engineCount_parked (k : Nat) : EngineCount N (parked k s) := by
  have hinc := engineCount_inc h (F.vatBankErr_PARKED k)
  rw [parked_eq]
  dsimp only
  split
  · exact hinc
  · exact engineCount_raise (engineCount_onVat hinc) 454

theorem engineCount_poisonSeen (k row w : Nat) : EngineCount N (poisonSeen k row w s) := by
  rw [poisonSeen_eq]
  split
  · exact h
  · have hraised := engineCount_raise (s := poisonNoted s) (engineCount_onVat h) 453
    exact engineCount_report hraised (logEvent_canonical hraised.1) (reportRest_logEvent hraised.1 _ _ _ _)

/-- A line read without an error of its own: at most an access refused and poison returned are reported. -/
theorem engineCount_lineRead (who : Initiator) (base off n : Nat) : EngineCount N (lineRead who base off n .none s).2.2 := by
  have hwords (k row : Nat) (l : List Nat) : EngineCount N (l.foldl (fun (acc : State × Bool) (w : Nat) =>
      let (s', p) := readWord k row w .none acc.1
      (if p then poisonSeen k row w s' else s', acc.2 || p)) (s, false)).1 := by
    refine List.foldlRecOn (motive := fun acc : State × Bool => EngineCount N acc.1) _ _ h fun acc hacc w _ => ?_
    have hword : EngineCount N (readWord k row w .none acc.1).1 := (readWord_none k row w acc.1).symm ▸ hacc
    generalize readWord k row w .none acc.1 = r at hword
    dsimp only
    split
    · exact engineCount_poisonSeen hword k row w
    · exact hword
  unfold lineRead
  split
  · exact engineCount_decodeError h _ _
  · next k row _ =>
    split
    · exact engineCount_poisonSeen (engineCount_parked h k) k row 0
    · rw [if_neg (by simp)]
      have hfold := hwords k row (wordsOf (off % 64) n)
      dsimp only at hfold ⊢
      split <;> exact hfold

theorem engineCount_takeFailed (who : Initiator) (off : Nat) : EngineCount N (takeFailed who off s).2 :=
  engineCount_rest h (takeFailed_canonical h.1)

theorem engineCount_vatRead (who : Initiator) (base fuel off n : Nat) : EngineCount N (vatRead who base fuel off n s).2.2 := by
  induction fuel generalizing off n s with
  | zero => exact h
  | succ fuel ih =>
    unfold vatRead
    split
    · exact h
    · have hfailed := engineCount_takeFailed h who off
      generalize takeFailed who off s = r at hfailed
      obtain ⟨f, u⟩ := r
      cases f with
      | true => exact ih hfailed _ _
      | false => exact ih (engineCount_lineRead hfailed who base off _) _ _

theorem engineCount_memRead (who : Initiator) (a n : Nat) : EngineCount N (memRead who a n s).2.2 := by
  unfold memRead
  split
  · exact engineCount_vatRead h _ _ _ _ _
  · split
    · split <;> exact h
    · exact engineCount_decodeError h who a

theorem engineCount_readAll {α β : Type} {f : α → State → β × Bool × State} (hf : ∀ a u, EngineCount N u → EngineCount N (f a u).2.2)
    (l : List α) : EngineCount N (readAll f l s).2.2 := by
  induction l generalizing s with
  | nil => exact h
  | cons a l ih =>
    have hfirst := hf a s h
    unfold readAll
    generalize f a s = r at hfirst
    dsimp only
    split
    · exact hfirst
    · exact ih hfirst

end

/-! ### A status flag of an engine (R139) -/

/-- A flag put where it belongs: in what the engine keeps of line 0's frame, or in its status register. -/
def flagPut (n b : Nat) (zero : Bool) (s : State) : State :=
  if zero then onPlane n (fun r => { r with nxt := r.nxt ||| 2 ^ b }) s else s.set1 (planeFlagFld n b)

section
variable {s : State} (h : s.Canonical)
include h

theorem flagPut_leaves (n b : Nat) (zero : Bool) : (flagPut n b zero s).Canonical ∧ (flagPut n b zero s).planes =
    if zero then s.planes.modify n fun r => { r with nxt := r.nxt ||| 2 ^ b } else s.planes := by
  cases zero with
  | true => exact ⟨onPlane_canonical h, rfl⟩
  | false => exact ⟨State.set1_canonical h, rfl⟩

theorem raise_planes (m : Nat) : (raise m s).planes = s.planes := by
  rw [reportRest_raise h m]

/-- Of the engines' own state, a flag writes what its engine keeps of line 0's frame. -/
theorem planeFlag_planes (n b : Nat) (zero : Bool) : (planeFlag n b zero s).planes =
    if zero && !s.planeFlagged n b zero then s.planes.modify n fun r => { r with nxt := r.nxt ||| 2 ^ b } else s.planes := by
  unfold planeFlag
  split
  · next hflagged => simp [hflagged]
  · next hflagged =>
    obtain ⟨hput, hplanes⟩ := flagPut_leaves h n b zero
    rw [Bool.not_eq_true] at hflagged
    rw [hflagged, Bool.not_false, Bool.and_true, ← hplanes]
    unfold flagPut at hput ⊢
    generalize (if zero then _ else _ : State) = u at hput
    dsimp only
    split
    · rfl
    · split
      · rfl
      · exact raise_planes hput 128
    · split
      · rfl
      · exact raise_planes hput 128
    · exact raise_planes hput 129
    · exact raise_planes hput 130
    · rfl

end

theorem engineCount_planeFlag {N : Nat} {s : State} (h : EngineCount N s) (n b : Nat) (zero : Bool) :
    EngineCount N (planeFlag n b zero s) := by
  obtain ⟨hs, hcount⟩ := h
  refine ⟨planeFlag_canonical hs, ?_⟩
  rw [planeFlag_planes hs]
  split
  · rw [List.length_modify, hcount]
  · exact hcount

/-! ### The pixels of a line (R109 to R129) -/

theorem engineCount_ite {N : Nat} {β : Type} {c : Prop} [Decidable c] {x y : β × Bool × State} (hx : EngineCount N x.2.2)
    (hy : EngineCount N y.2.2) : EngineCount N (if c then x else y).2.2 := by
  split
  · exact hx
  · exact hy

section
variable {N : Nat} {s : State} (h : EngineCount N s)
include h

theorem engineCount_tilePx (n x y : Nat) (zero : Bool) : EngineCount N (tilePx n x y zero s).2.2 := by
  unfold tilePx
  dsimp only
  generalize hread : memRead _ _ 4 s = r
  have hentry : EngineCount N r.2.2 := hread ▸ engineCount_memRead h _ _ 4
  obtain ⟨d, bad, u⟩ := r
  dsimp only
  generalize hread : memRead _ _ 1 u = q
  have hpixel : EngineCount N q.2.2 := hread ▸ engineCount_memRead hentry _ _ 1
  have hbeyond : EngineCount N (planeFlag n 4 zero u) := engineCount_planeFlag hentry n 4 zero
  exact engineCount_ite hentry (engineCount_ite hbeyond (engineCount_ite hpixel (engineCount_ite hpixel hpixel)))

theorem engineCount_planeWord (n a b : Nat) : EngineCount N (planeWord n a b s).2.2 := engineCount_memRead h _ a b

theorem engineCount_yccAt (n code w hgt x y row base2 stride2 : Nat) :
    EngineCount N (yccAt n code w hgt x y row base2 stride2 s).2.2 := by
  unfold yccAt
  split
  · exact engineCount_planeWord h _ _ _
  -- the word of the luma sample, and then those of the chroma samples
  all_goals
    refine engineCount_readAll (engineCount_planeWord h _ _ _) ?_ _
    exact fun c u hu => engineCount_planeWord hu _ _ _

theorem engineCount_formatPx (n code w hgt x y row base2 stride2 : Nat) :
    EngineCount N (formatPx n code w hgt x y row base2 stride2 s).2.2 := by
  unfold formatPx
  split
  · exact engineCount_planeWord h _ _ _
  · exact engineCount_yccAt h ..

theorem engineCount_srcPx (n : Nat) (zero : Bool) (x y : Int) : EngineCount N (srcPx n zero x y s).2.2 := by
  unfold srcPx
  dsimp only
  split
  · split
    · exact engineCount_tilePx h ..
    · split
      · split
        · exact engineCount_formatPx h ..
        · exact h
      · split
        · exact engineCount_formatPx h ..
        · exact h
      · exact engineCount_formatPx h ..
  · exact h

theorem engineCount_horizontalPx (n : Nat) (zero : Bool) (c : Int) (step : Nat) (copies : Bool) (y : Int) :
    EngineCount N (horizontalPx n zero c step copies y s).2.2 := by
  unfold horizontalPx
  split
  · exact engineCount_srcPx h ..
  · split
    · exact engineCount_srcPx h ..
    · exact engineCount_readAll h (fun x u hu => engineCount_srcPx hu n zero x y) _

theorem engineCount_separablePx (n : Nat) (zero : Bool) (w j i : Nat) : EngineCount N (separablePx n zero w j i s).2.2 := by
  unfold separablePx
  dsimp only
  split <;> exact engineCount_readAll h (fun y u hu => engineCount_horizontalPx hu n zero _ _ _ y) _

theorem engineCount_affinePx (n : Nat) (zero : Bool) (x y : Int) : EngineCount N (affinePx n zero x y s).2.2 := by
  unfold affinePx
  split
  · exact engineCount_srcPx h ..
  · dsimp only
    split
    · exact engineCount_srcPx h ..
    · exact engineCount_readAll h (fun q u hu => engineCount_srcPx hu n zero q.1 q.2) _

/-- However a line's pixels are computed, they are reads of the source. -/
theorem engineCount_planeLine (p n l : Nat) : EngineCount N (planeLine p n l s).2.2 := by
  unfold planeLine
  dsimp only
  split
  · exact h
  · split
    · exact engineCount_readAll h (fun i u hu => engineCount_affinePx hu ..) _
    · split
      · exact h
      · exact engineCount_readAll h (fun i u hu => engineCount_affinePx hu ..) _
    · exact engineCount_readAll h (fun i u hu => engineCount_separablePx hu ..) _

end

end Sys2Proof.Machine

namespace Sys2Proof.Machine

-- One declaration after another: the memory limit of the check counts the stack of every thread that elaborates beside them.
set_option Elab.async false

/-! ### One engine's own state -/

/-- An engine that fetches is one of those that the state lists. -/
theorem lt_of_fetch {n l : Nat} {s : State} (h : (s.plane n).fetch = some l) : n < s.planes.length := by
  by_contra hn
  have hdefault : s.plane n = plane0 := List.getD_eq_default _ _ (by omega)
  rw [hdefault] at h
  cases h

theorem plane_of_modify {s t : State} {n : Nat} {f : PlaneRun → PlaneRun} (ht : t.planes = s.planes.modify n f)
    (hn : n < s.planes.length) : t.plane n = f (s.plane n) := by
  simp [State.plane, ht, hn]

theorem plane_of_modify_other {s t : State} {n m : Nat} {f : PlaneRun → PlaneRun} (ht : t.planes = s.planes.modify n f) (hm : m ≠ n) :
    t.plane m = s.plane m := by
  simp [State.plane, ht, hm.symm]

/-! ### An engine underruns (R137, R143) -/

/-- The engine fetches nothing more in the frame. -/
def engineStops (r : PlaneRun) : PlaneRun := { r with stopped := true, fetch := none }

theorem planeUnderrun_eq (n l : Nat) (s : State) :
    planeUnderrun n l s = onPlane n engineStops (planeFlag n 1 (s.ahead (s.planePipe n) l) s) := rfl

section
variable {n : Nat} {s : State} (h : s.Canonical)
include h

theorem planeFlag_other (b : Nat) (zero : Bool) {m : Nat} (hm : m ≠ n) : (planeFlag n b zero s).plane m = s.plane m := by
  have hplanes := planeFlag_planes h n b zero
  split at hplanes
  · exact plane_of_modify_other hplanes hm
  · rw [State.plane, hplanes, State.plane]

/-- UNDERRUN stands once it is flagged, in the frame in progress or in the coming one. -/
theorem planeFlag_underrun (hn : n < s.planes.length) (zero : Bool) : (planeFlag n 1 zero s).planeFlagged n 1 zero = true := by
  cases hflagged : s.planeFlagged n 1 zero with
  | true => rw [planeFlag, if_pos hflagged, hflagged]
  | false =>
    cases zero with
    | true =>
      have hplanes := planeFlag_planes h n 1 true
      rw [hflagged, Bool.not_false, Bool.and_true, if_pos rfl] at hplanes
      rw [State.planeFlagged, if_pos rfl, plane_of_modify hplanes hn, bitAt_eq_testBit, Nat.testBit_or, Nat.testBit_two_pow_self,
        Bool.or_true]
    | false =>
      have hset : planeFlag n 1 false s = (s.set1 (F.planeStatus_UNDERRUN n)).inc (F.planeUnderruns_COUNT n) := by
        rw [planeFlag, hflagged]
        rfl
      have hkey : (F.planeStatus_UNDERRUN n).key ≠ (F.planeUnderruns_COUNT n).key := by
        simp [Fld.key, Fld.group, F.planeStatus_UNDERRUN, F.planeUnderruns_COUNT]
        omega
      have hread : (planeFlag n 1 false s).rd (F.planeStatus_UNDERRUN n) = 1 := by
        rw [hset]
        exact (State.rd_wr_other (State.set1_canonical h) _ _ _ hkey).trans (State.rd_wr_same h _ _)
      rw [State.planeFlagged, if_neg (by simp), planeFlagFld, State.flag, hread]
      rfl

/-- An engine that underruns fetches nothing more in the frame, which flags it, and no other engine changes. -/
theorem planeUnderrun_stops (hn : n < s.planes.length) (l : Nat) :
    let t := planeUnderrun n l s
    (t.plane n).stopped = true ∧ (t.plane n).fetch = none ∧ (∀ m, m ≠ n → t.plane m = s.plane m) ∧
      t.planeFlagged n 1 (s.ahead (s.planePipe n) l) = true := by
  rw [planeUnderrun_eq]
  generalize s.ahead (s.planePipe n) l = zero
  have hflagged := planeFlag_underrun h hn zero
  have hothers := fun m (hm : m ≠ n) => planeFlag_other h 1 zero hm
  obtain ⟨-, hcount⟩ := engineCount_planeFlag ⟨h, rfl⟩ n 1 zero
  generalize planeFlag n 1 zero s = v at hflagged hothers hcount
  have hstop : (onPlane n engineStops v).plane n = engineStops (v.plane n) := plane_of_modify rfl (hcount.symm ▸ hn)
  refine ⟨by rw [hstop, engineStops], by rw [hstop, engineStops], fun m hm => (plane_of_modify_other rfl hm).trans (hothers m hm), ?_⟩
  rw [State.planeFlagged, hstop]
  exact hflagged

end

/-- UNDERRUN reads 1 where the frame in progress flags it. -/
theorem underrun_of_flagged {n : Nat} {s : State} (h : s.planeFlagged n 1 false = true) : s.rd (F.planeStatus_UNDERRUN n) = 1 := by
  have hbit : s.rd (F.planeStatus_UNDERRUN n) < 2 ^ 1 := State.rd_lt s _
  have hset : s.rd (F.planeStatus_UNDERRUN n) ≠ 0 := bne_iff_ne.1 h
  omega

/-! ### The fetch of a line completes (R132, R137, R220) -/

/-- The line stands in the engine's buffer, and its fetch in the frame's maximum. -/
def lineReady (n cclk l : Nat) (px : List Px) (s : State) : State :=
  onPlane n (fun r => { r with fetch := none, ready := some ⟨l, s.snp (F.planeWin_DST_X n), px⟩, cost := max r.cost (min cclk 65535) }) s

theorem exec_planeLineFetched_waits {s : State} {n : Fin 32} {l : Nat} (hfetch : (s.plane n.val).fetch = some l)
    (hraced : s.planeSel n.val = 2) (hwaits : s.racedReady n.val l = false) (cclk : Nat) :
    exec (.planeLineFetched n cclk) s = .next s := by
  change execPlaneLineFetched n cclk s = _
  simp only [execPlaneLineFetched, hfetch, hraced, hwaits, beq_self_eq_true, Bool.not_false, Bool.and_self, if_true]

theorem exec_planeLineFetched {s : State} {n : Fin 32} {l : Nat} (hfetch : (s.plane n.val).fetch = some l)
    (hready : s.planeSel n.val ≠ 2 ∨ s.racedReady n.val l = true) (cclk : Nat) :
    let line := planeLine (s.planePipe n.val) n.val l s
    exec (.planeLineFetched n cclk) s =
      .next (if line.2.1 then planeUnderrun n.val l line.2.2 else lineReady n.val cclk l line.1 line.2.2) := by
  have hgo : (s.planeSel n.val == 2 && !s.racedReady n.val l) = false := by
    rcases hready with h | h <;> simp [h]
  change execPlaneLineFetched n cclk s = _
  rw [execPlaneLineFetched]
  dsimp only
  rw [hfetch]
  dsimp only
  rw [hgo]
  rfl

end Sys2Proof.Machine

section
open Sys2Proof Sys2Proof.Machine
set_option Elab.async false

/-- Settles O13: the reads of a fetch leave the engines as many as they were (`engineCount_planeLine`), so that the engine whose read
fails is there to be stopped and flagged (`planeUnderrun_stops`). -/
theorem planeLines : Obligations.PlaneLines := by
  unfold Obligations.PlaneLines
  intro s n cclk l h hfetch p line u
  refine ⟨fun hraced hwaits => ⟨s, exec_planeLineFetched_waits hfetch hraced hwaits cclk, rfl⟩, fun hready => ?_⟩
  obtain ⟨hu, hcount⟩ : EngineCount s.planes.length u := engineCount_planeLine ⟨h, rfl⟩ p n.val l
  refine ⟨_, exec_planeLineFetched hfetch hready cclk, fun hgood => ?_, fun hbad => ?_⟩
  · exact if_neg (ne_true_of_eq_false hgood)
  · obtain ⟨hstopped, hnone, hothers, hflagged⟩ := planeUnderrun_stops hu (hcount.symm ▸ lt_of_fetch hfetch) l
    rw [if_pos hbad]
    refine ⟨hstopped, hnone, fun m hm => hothers m.val (Fin.val_ne_of_ne hm), fun hnow => ?_, fun hahead => ?_⟩
    · exact underrun_of_flagged (hnow ▸ hflagged)
    · rw [hahead] at hflagged
      exact hflagged
end

namespace Sys2Proof.Machine

-- One declaration after another: the memory limit of the check counts the stack of every thread that elaborates beside them.
set_option Elab.async false

/-! ### The Harp's work for a line with no object (R156)

The work's time belongs to the frame that `State.ahead` names: the coming frame for line 0 of a pipe that is not ACTIVE, else the frame in
progress. -/

/-- No context is enabled, and none is captured for pipe `p`. -/
def NoObjects (p : Nat) (s : State) : Prop := (s.harpRun p).caps = [] ∧ ∀ i, i < 4096 → s.rd (F.harpObjCtl_EN i) = 0

/-- Line `l` stands in the buffer, transparent over `w` dots, and its work of `c` cclk in the maximum of the frame it belongs to. -/
def lineCleared (ahead : Bool) (l w c : Nat) (r : HarpRun) : HarpRun :=
  { (if ahead then { r with nxtCyc := max r.nxtCyc c } else { r with cyc := max r.cyc c }) with
    work := none, ready := some ⟨l, 0, List.replicate w Px.clear⟩ }

theorem harpRun_onHarp {p : Nat} {s : State} (hp : p < s.harp.pipes.length) (f : HarpRun → HarpRun) :
    (onHarp p f s).harpRun p = f (s.harpRun p) := by
  simp [State.harpRun, onHarp, modAt, hp]

theorem onHarp_self {p : Nat} {f : HarpRun → HarpRun} (hf : ∀ r, f r = r) (s : State) : onHarp p f s = s := by
  have hid : f = id := funext hf
  simp [onHarp, modAt, hid]

theorem scanned_noObjects {p : Nat} {s : State} (h : NoObjects p s) :
    ((List.range 4096).filter fun i => s.flag (F.harpObjCtl_EN i) || (s.harpRun p).caps.any fun c => c.index == i) = [] := by
  obtain ⟨hcaps, hen⟩ := h
  rw [List.filter_eq_nil_iff]
  intro i hi
  simp [hcaps, State.flag, hen i (List.mem_range.1 hi)]

theorem harpWork_noObjects {p : Nat} {s : State} (h : NoObjects p s) (l wait : Nat) (avail : Option Nat) :
    harpWork p l wait avail s = onHarp p (lineCleared (s.ahead p l) l (s.hactive p) (wait + 128)) s := by
  have hunits : onHarp p (fun r => if s.ahead p l then { r with nxtUnits := max r.nxtUnits 0 } else { r with units := max r.units 0 }) s = s :=
    onHarp_self (fun r => by simp) s
  simp only [harpWork, scanned_noObjects h, List.map_nil, List.filter_nil, List.filterMap_nil, List.any_nil, drawSort, List.mergeSort_nil,
    selectUnits, dropObjs, List.isEmpty_nil, State.forL, List.foldl_nil, hunits, drawObjs, Bool.false_eq_true, if_true, if_false]
  rfl

theorem exec_harpScan {p : Fin 8} {s : State} {l : Nat} (hwork : (s.harpRun p.val).work = some l)
    (hstage : l = 0 → (s.harpRun p.val).stage = none) (wait : Nat) (avail : Option Nat) :
    exec (.harpScan p wait avail) s = .next (harpWork p.val l wait avail s) := by
  have hgo : (decide (l = 0) && (s.harpRun p.val).stage.isSome) = false := by
    by_cases hl : l = 0
    · simp [hstage hl]
    · simp [hl]
  change execHarpScan p wait avail s = _
  simp [execHarpScan, hwork, hgo]

/-! ### Line-0 work while the pipe is ACTIVE

A frame start makes the pipe ACTIVE before its line 0 is shown. Line-0 work that is still in progress then belongs to the frame in
progress. -/

/-- Pipe 0 is ACTIVE, and the Harp's work for its line 0 is in progress. -/
def activeLineZero : State := onHarp 0 (fun r => { r with work := some 0 }) (State.reset.wr (F.pipeStatus_STATE 0) 2)

theorem activeLineZero_canonical : activeLineZero.Canonical := onHarp_canonical (State.wr_canonical State.reset_canonical)

theorem activeLineZero_run : activeLineZero.harpRun 0 = { harp0 with work := some 0 } := rfl

/-- Of the register fields, only the pipe's state differs from the reset state. -/
theorem activeLineZero_rd {f : Fld} (hf : f.key ≠ (F.pipeStatus_STATE 0).key) : activeLineZero.rd f = State.reset.rd f :=
  (onHarp_rd ..).trans (State.rd_wr_other State.reset_canonical _ _ _ hf)

theorem activeLineZero_noObjects : NoObjects 0 activeLineZero := by
  refine ⟨rfl, fun i _ => ?_⟩
  have hpipe : (F.harpObjCtl_EN i).key ≠ (F.pipeStatus_STATE 0).key := by
    simp [Fld.key, Fld.group, F.harpObjCtl_EN, F.pipeStatus_STATE]
    omega
  have href : (F.harpObjCtl_EN i).key ≠ F.refStatus_STATE.key := by
    simp [Fld.key, Fld.group, F.harpObjCtl_EN, F.refStatus_STATE]
    omega
  rw [activeLineZero_rd hpipe, reset_rd_other href]
  rfl

/-- Line 0 of an ACTIVE pipe is of the frame in progress. -/
theorem activeLineZero_ahead : activeLineZero.ahead 0 0 = false := by
  have hstate : activeLineZero.rd (F.pipeStatus_STATE 0) = 2 :=
    (onHarp_rd ..).trans (State.rd_wr_same State.reset_canonical _ _)
  simp [State.ahead, hstate]

/-- The scan's 128 cclk go to the maximum of the frame in progress. -/
theorem activeLineZero_scan : ∃ t, exec (.harpScan 0 0 none) activeLineZero = .next t ∧ (t.harpRun 0).cyc = 128 := by
  refine ⟨_, exec_harpScan (p := 0) (by rw [Fin.val_zero, activeLineZero_run]) (fun _ => rfl) 0 none, ?_⟩
  have hlen : 0 < activeLineZero.harp.pipes.length := by decide
  rw [Fin.val_zero, harpWork_noObjects activeLineZero_noObjects, activeLineZero_ahead, harpRun_onHarp hlen, activeLineZero_run]
  rfl

end Sys2Proof.Machine

section
open Sys2Proof Sys2Proof.Machine
set_option Elab.async false

/-- Refutes O14: the statement books the time of all line-0 work to the coming frame (R156), the model only that of a pipe that is not
ACTIVE (`State.ahead`). At `activeLineZero` the scan raises the maximum of the frame in progress to 128, where the statement leaves 0. -/
theorem not_harp : ¬ Obligations.Harp := by
  unfold Obligations.Harp
  intro h
  obtain ⟨hscan, -⟩ := h.2 activeLineZero 0 0 0 none 0 0 [] activeLineZero activeLineZero_canonical
  obtain ⟨hcaps, hen⟩ := activeLineZero_noObjects
  obtain ⟨t, hexec, ht⟩ := hscan rfl (fun _ => rfl) hcaps fun i => hen i.val i.isLt
  obtain ⟨u, hu, hcyc⟩ := activeLineZero_scan
  have hzero : (t.harpRun 0).cyc = 0 := by
    rw [ht]
    rfl
  rw [← Host.Outcome.next.inj (hexec.symm.trans hu), hzero] at hcyc
  cases hcyc
end

namespace Sys2Proof.Machine

-- One declaration after another: the memory limit of the check counts the stack of every thread that elaborates beside them.
set_option Elab.async false

/-! ### The fields of a pipe's registers (R199 to R202) -/

/-- `f` is a field of the registers of pipe `p`, at `place`: its register's offset there times 64, and its LSB. -/
def PipeFld (p place : Nat) (f : Fld) : Prop :=
  p < 8 ∧ place < 0x80000 ∧ f.off = 0x300000 + place / 64 + p * 0x2000 ∧ f.lsb = place % 64

section
variable {p : Nat} (hp : p < 8)
include hp

theorem pipeFld_pending : PipeFld p 0x400 (F.pipeCommitStatus_PENDING p) := ⟨hp, by decide, rfl, rfl⟩
theorem pipeFld_result : PipeFld p 0x402 (F.pipeCommitStatus_RESULT p) := ⟨hp, by decide, rfl, rfl⟩
theorem pipeFld_superseded : PipeFld p 0x408 (F.pipeCommitStatus_SUPERSEDED p) := ⟨hp, by decide, rfl, rfl⟩
theorem pipeFld_seqPending : PipeFld p 0x510 (F.pipeCommitSeq_PENDING p) := ⟨hp, by decide, rfl, rfl⟩
theorem pipeFld_state : PipeFld p 0x18000 (F.pipeStatus_STATE p) := ⟨hp, by decide, rfl, rfl⟩
theorem pipeFld_retired : PipeFld p 0x800 (F.pipeRetired_COUNT p) := ⟨hp, by decide, rfl, rfl⟩
theorem pipeFld_wbIndex : PipeFld p 0x14600 (F.pipeWbStatus_INDEX p) := ⟨hp, by decide, rfl, rfl⟩
theorem pipeFld_wbIncomplete : PipeFld p 0x14604 (F.pipeWbStatus_INCOMPLETE p) := ⟨hp, by decide, rfl, rfl⟩
theorem pipeFld_wbBusy : PipeFld p 0x14605 (F.pipeWbStatus_BUSY p) := ⟨hp, by decide, rfl, rfl⟩
theorem pipeFld_wbStamp : PipeFld p 0x14800 (F.pipeWbStamp_STAMP p) := ⟨hp, by decide, rfl, rfl⟩

theorem pipeFld_relAddr {a : Nat} (ha : a < 12) : PipeFld p (0x8000 + a * 0x400) (F.pipeSlotRel_ADDR p a) :=
  ⟨hp, by omega, by simp only [F.pipeSlotRel_ADDR]; omega, by simp only [F.pipeSlotRel_ADDR]; omega⟩

theorem pipeFld_relSkipped {a : Nat} (ha : a < 12) : PipeFld p (0x8028 + a * 0x400) (F.pipeSlotRel_SKIPPED p a) :=
  ⟨hp, by omega, by simp only [F.pipeSlotRel_SKIPPED]; omega, by simp only [F.pipeSlotRel_SKIPPED]; omega⟩

theorem pipeFld_relCount {a : Nat} (ha : a < 12) : PipeFld p (0x8030 + a * 0x400) (F.pipeSlotRel_COUNT p a) :=
  ⟨hp, by omega, by simp only [F.pipeSlotRel_COUNT]; omega, by simp only [F.pipeSlotRel_COUNT]; omega⟩

theorem pipeFld_relfrm {a : Nat} (ha : a < 12) : PipeFld p (0x8200 + a * 0x400) (F.pipeSlotRelfrm_RETIRED p a) :=
  ⟨hp, by omega, by simp only [F.pipeSlotRelfrm_RETIRED]; omega, by simp only [F.pipeSlotRelfrm_RETIRED]; omega⟩

end

section
variable {p place : Nat} {f : Fld} (hf : PipeFld p place f)
include hf

theorem pipeFld_key : f.key % 2 ^ 30 / 64 = 0x300000 + place / 64 + p * 0x2000 ∧ f.key % 0x80000 = place := by
  obtain ⟨hp, hplace, hoff, hlsb⟩ := hf
  refine ⟨(Fld.key_offset (by omega) (by omega)).trans hoff, ?_⟩
  unfold Fld.key
  omega

/-- Fields at different places, or of different pipes, have different keys. -/
theorem pipeFld_ne {q at_ : Nat} {g : Fld} (hg : PipeFld q at_ g) (hne : p ≠ q ∨ place ≠ at_) : f.key ≠ g.key := by
  obtain ⟨hp, hplace, hoff, hlsb⟩ := hf
  obtain ⟨hq, hat, hgoff, hglsb⟩ := hg
  unfold Fld.key
  omega

theorem pipeFld_not_report : reportKey f.key = false := by
  obtain ⟨hoff, -⟩ := pipeFld_key hf
  have hwake : f.key ≠ F.pwrStatus_WAKE_REQ.key := fun e => by
    rw [e] at hoff
    have : F.pwrStatus_WAKE_REQ.key % 2 ^ 30 / 64 = 0x82000 := rfl
    omega
  simp [reportKey, deliveryKey, hwake]
  omega

theorem pipeFld_not_delivery : deliveryKey f.key = false := not_delivery_of_not_report (pipeFld_not_report hf)

/-- A source's destination is no field of a pipe. -/
theorem pipeFld_not_dest {n : Nat} (hn : n < 512) : (F.intcTgt_DEST n).key ≠ f.key := fun e => by
  obtain ⟨hoff, -⟩ := pipeFld_key hf
  rw [← e, Fld.key_offset (by simp [F.intcTgt_DEST]; omega) (by simp [F.intcTgt_DEST])] at hoff
  simp [F.intcTgt_DEST] at hoff
  omega

end

/-! ### An edge source of a pipe (R198) -/

/-- The number of an edge source. -/
theorem srcAssigned_pipe {p i : Nat} (hp : p < 8) (hi : i < 12) : srcAssigned (32 + 12 * p + i) = true := by
  simp [srcAssigned]
  omega

/-- An edge source that was not raised in this frame is pending once it is. -/
theorem pipeRaise_pends {p i : Nat} (hp : p < 8) (hi : i < 12) {s u : State} (hu : u.Canonical)
    (hdest : u.rd (F.intcTgt_DEST (32 + 12 * p + i)) = s.rd (F.intcTgt_DEST (32 + 12 * p + i)))
    (hraised : i = 3 ∨ bitAt (u.pipe p).raised i = false) : Pends (32 + 12 * p + i) s (pipeRaise p i u) := by
  have hgo : ¬ ((i != 3 && bitAt (u.pipe p).raised i) = true) := by
    rcases hraised with h | h <;> simp [h]
  rw [pipeRaise, if_neg hgo]
  exact pends_of_raise (onPipe_canonical hu) (srcAssigned_pipe hp hi) hdest id

theorem pipeRaise_rd {p i : Nat} {s : State} (h : s.Canonical) {g : Fld} (hg : deliveryKey g.key = false) :
    (pipeRaise p i s).rd g = s.rd g := by
  unfold pipeRaise
  split
  · rfl
  · exact (raise_rd (onPipe_canonical h) _ g hg).trans (onPipe_rd ..)

/-- What a change of a pipe's own state leaves of it. -/
theorem onPipe_proj {α : Type} {g : PipeRun → α} {f : PipeRun → PipeRun} (hg : ∀ r, g (f r) = g r) (p q : Nat) (s : State) :
    g ((onPipe p f s).pipe q) = g (s.pipe q) := by
  by_cases hq : q < s.pipes.length
  · by_cases e : p = q
    · subst e
      simp [State.pipe, onPipe, modAt, hq, hg]
    · simp [State.pipe, onPipe, modAt, hq, e]
  · rw [State.pipe, State.pipe, List.getD_eq_default _ _ (by simpa [onPipe, modAt] using hq), List.getD_eq_default _ _ (by omega)]

/-- A change of a pipe's writeback leaves the rest of the pipe's state. -/
theorem onWb_proj {α : Type} {g : PipeRun → α} (hg : ∀ r w, g { r with wb := w } = g r) (p q : Nat) (f : WbRun → WbRun) (s : State) :
    g ((onWb p f s).pipe q) = g (s.pipe q) :=
  onPipe_proj (f := fun r => { r with wb := f r.wb }) (fun r => hg r _) p q s

/-- What a change of a pipe's writeback leaves of it. -/
theorem onWb_wb {α : Type} {g : WbRun → α} {f : WbRun → WbRun} (hg : ∀ w, g (f w) = g w) (p q : Nat) (s : State) :
    g ((onWb p f s).pipe q).wb = g (s.pipe q).wb :=
  onPipe_proj (g := fun r => g r.wb) (f := fun r => { r with wb := f r.wb }) (fun r => hg r.wb) p q s

/-! ### The release of an address (R186) -/

/-- What a release shows in the registers of the address's slot. -/
def relShown (p : Nat) (skipped : Bool) (a : Nat × Nat) (s : State) : List (Fld × Nat) :=
  [(F.pipeSlotRel_ADDR p a.1, a.2), (F.pipeSlotRel_SKIPPED p a.1, bit skipped),
   (F.pipeSlotRel_COUNT p a.1, s.rd (F.pipeSlotRel_COUNT p a.1) + 1), (F.pipeSlotRelfrm_RETIRED p a.1, s.rd (F.pipeRetired_COUNT p))]

section
variable {p : Nat} (hp : p < 8) {s : State} (h : s.Canonical) {a : Nat × Nat} (ha : a.1 < 12)
include hp ha

theorem relShown_nodup (skipped : Bool) : ((relShown p skipped a s).map fun c => c.1.key).Nodup := by
  have hne := fun {x y : Nat} {f g : Fld} (hf : PipeFld p x f) (hg : PipeFld p y g) (hxy : x ≠ y) => pipeFld_ne hf hg (.inr hxy)
  simp only [relShown, List.map_cons, List.map_nil, List.nodup_cons, List.mem_cons, List.not_mem_nil, or_false, not_or, List.nodup_nil,
    not_false_eq_true, and_true]
  exact ⟨⟨hne (pipeFld_relAddr hp ha) (pipeFld_relSkipped hp ha) (by omega), hne (pipeFld_relAddr hp ha) (pipeFld_relCount hp ha) (by omega),
    hne (pipeFld_relAddr hp ha) (pipeFld_relfrm hp ha) (by omega)⟩, ⟨hne (pipeFld_relSkipped hp ha) (pipeFld_relCount hp ha) (by omega),
    hne (pipeFld_relSkipped hp ha) (pipeFld_relfrm hp ha) (by omega)⟩, hne (pipeFld_relCount hp ha) (pipeFld_relfrm hp ha) (by omega)⟩

include h

theorem release_eq (skipped : Bool) : release p skipped a s = setFlds (relShown p skipped a s) s := by
  have haddr : (s.wr (F.pipeSlotRel_ADDR p a.1) a.2).Canonical := State.wr_canonical h
  have hskip : ((s.wr (F.pipeSlotRel_ADDR p a.1) a.2).wr (F.pipeSlotRel_SKIPPED p a.1) (bit skipped)).Canonical := State.wr_canonical haddr
  have hcount : ((s.wr (F.pipeSlotRel_ADDR p a.1) a.2).wr (F.pipeSlotRel_SKIPPED p a.1) (bit skipped)).rd (F.pipeSlotRel_COUNT p a.1) =
      s.rd (F.pipeSlotRel_COUNT p a.1) :=
    (State.rd_wr_other haddr _ _ _ (pipeFld_ne (pipeFld_relCount hp ha) (pipeFld_relSkipped hp ha) (by omega))).trans
      (State.rd_wr_other h _ _ _ (pipeFld_ne (pipeFld_relCount hp ha) (pipeFld_relAddr hp ha) (by omega)))
  have hretired : (((s.wr (F.pipeSlotRel_ADDR p a.1) a.2).wr (F.pipeSlotRel_SKIPPED p a.1) (bit skipped)).incWrap
      (F.pipeSlotRel_COUNT p a.1)).rd (F.pipeRetired_COUNT p) = s.rd (F.pipeRetired_COUNT p) :=
    ((State.rd_wr_other hskip _ _ _ (pipeFld_ne (pipeFld_retired hp) (pipeFld_relCount hp ha) (by omega))).trans
      (State.rd_wr_other haddr _ _ _ (pipeFld_ne (pipeFld_retired hp) (pipeFld_relSkipped hp ha) (by omega)))).trans
      (State.rd_wr_other h _ _ _ (pipeFld_ne (pipeFld_retired hp) (pipeFld_relAddr hp ha) (by omega)))
  rw [release, if_neg (by omega)]
  dsimp only
  rw [hretired, State.incWrap, hcount]
  rfl

/-- What a release shows, and that no other field changes. -/
theorem release_shows (skipped : Bool) : Writes ((relShown p skipped a s).map Prod.fst) s (release p skipped a s) ∧
    ∀ f v, (f, v) ∈ relShown p skipped a s → (release p skipped a s).rd f = v % 2 ^ f.width := by
  rw [release_eq hp h ha]
  exact ⟨writes_setFlds h _, fun f v hf => rd_setFlds h (relShown_nodup hp ha skipped) hf⟩

end

/-- The fence of a drained fetch releases its address. -/
theorem fetchDrainRelease_releases {s : State} (h : s.Canonical) {p : Fin 8} {slot a : Nat} (hslot : slot < 12) (ha : a < 2 ^ 40)
    (hdrain : (s.pipe p.val).drain = [(slot, a)]) : Leads (.fetchDrainRelease p) s fun t =>
      t.rd (F.pipeSlotRel_ADDR p.val slot) = a ∧ t.rd (F.pipeSlotRel_SKIPPED p.val slot) = 0 ∧
      t.rd (F.pipeSlotRel_COUNT p.val slot) =
        (s.rd (F.pipeSlotRel_COUNT p.val slot) + 1) % 2 ^ (F.pipeSlotRel_COUNT p.val slot).width ∧
      t.rd (F.pipeSlotRelfrm_RETIRED p.val slot) = s.rd (F.pipeRetired_COUNT p.val) ∧ Pends (32 + 12 * p.val + 3) s t := by
  have hp := p.isLt
  have hu : (onPipe p.val (fun r => { r with drain := [] }) s).Canonical := onPipe_canonical h
  have hexec : exec (.fetchDrainRelease p) s =
      .next (pipeRaise p.val 3 (release p.val false (slot, a) (onPipe p.val (fun r => { r with drain := [] }) s))) := by
    change execFetchDrainRelease p s = _
    rw [execFetchDrainRelease, hdrain]
    rfl
  obtain ⟨hwrites, hshows⟩ := release_shows hp hu (a := (slot, a)) hslot false
  have hrd {place : Nat} {f : Fld} (hf : PipeFld p.val place f) {v : Nat}
      (hmem : (f, v) ∈ relShown p.val false (slot, a) (onPipe p.val (fun r => { r with drain := [] }) s)) :
      (pipeRaise p.val 3 (release p.val false (slot, a) (onPipe p.val (fun r => { r with drain := [] }) s))).rd f = v % 2 ^ f.width :=
    (pipeRaise_rd hwrites.1 (pipeFld_not_delivery hf)).trans (hshows f v hmem)
  refine ⟨_, hexec, ?_, ?_, ?_, ?_, pipeRaise_pends hp (by decide) hwrites.1 (writes_rd hwrites ?_) (.inl rfl)⟩
  · exact (hrd (pipeFld_relAddr hp hslot) (by simp [relShown])).trans (Nat.mod_eq_of_lt ha)
  · exact hrd (v := bit false) (pipeFld_relSkipped hp hslot) (by simp [relShown])
  · exact hrd (pipeFld_relCount hp hslot) (by simp [relShown])
  · exact (hrd (pipeFld_relfrm hp hslot) (by simp [relShown])).trans (Nat.mod_eq_of_lt (State.rd_lt s _))
  · simp only [relShown, List.map_cons, List.map_nil, List.forall_mem_cons, List.not_mem_nil, false_implies, implies_true, and_true]
    exact ⟨pipeFld_not_dest (pipeFld_relAddr hp hslot) (by omega), pipeFld_not_dest (pipeFld_relSkipped hp hslot) (by omega),
      pipeFld_not_dest (pipeFld_relCount hp hslot) (by omega), pipeFld_not_dest (pipeFld_relfrm hp hslot) (by omega)⟩

/-! ### A commit (R179, R180) -/

/-- A pipe after a commit of `addrs` joined its pending set, which held no address. -/
def commitJoins (addrs : List (Nat × Nat × Nat)) (seq : Nat) (r : PipeRun) : PipeRun :=
  { r with pend := true, addrs := addrs ++ r.addrs.filter fun a => !(addrs.any fun b => b.1 == a.1), seq := some seq, fw := r.fw || false }

/-- The registers that show a commit that replaced no address, but the state of the pending set. -/
def commitShown (p : Nat) (addrs : List (Nat × Nat × Nat)) (seq : Nat) (s : State) : State :=
  ((onPipe p (commitJoins addrs seq) s).incBy (F.pipeCommitStatus_SUPERSEDED p) 0).wr (F.pipeCommitSeq_PENDING p) seq

/-- A set that waits for the frame after. -/
def deferred (r : PipeRun) : PipeRun := { r with deferred := true }

theorem commitShown_writes {p : Nat} {s : State} (h : s.Canonical) (addrs : List (Nat × Nat × Nat)) (seq : Nat) :
    Writes [F.pipeCommitStatus_SUPERSEDED p, F.pipeCommitSeq_PENDING p] (onPipe p (commitJoins addrs seq) s) (commitShown p addrs seq s) :=
  writes_wr (writes_wr (writes_refl (onPipe_canonical h)) (by simp) _) (by simp) _

section
variable {p : Nat} (hp : p < 8) {s : State} (h : s.Canonical)
include hp h

theorem commitShown_state (addrs : List (Nat × Nat × Nat)) (seq : Nat) :
    (commitShown p addrs seq s).rd (F.pipeStatus_STATE p) = s.rd (F.pipeStatus_STATE p) := by
  rw [writes_rd (commitShown_writes h addrs seq), onPipe_rd]
  simp only [List.forall_mem_cons, List.not_mem_nil, false_implies, implies_true, and_true]
  exact ⟨pipeFld_ne (pipeFld_state hp) (pipeFld_superseded hp) (.inr (by decide)),
    pipeFld_ne (pipeFld_state hp) (pipeFld_seqPending hp) (.inr (by decide))⟩

/-- Whether a set comes too late is the same once the commit is shown. -/
theorem commitShown_late (addrs : List (Nat × Nat × Nat)) (seq : Nat) :
    (commitShown p addrs seq s).commitLate p = s.commitLate p := by
  have hstate := commitShown_state hp h addrs seq
  have hkept {α : Type} {g : PipeRun → α} (hg : ∀ r, g (commitJoins addrs seq r) = g r) :
      g ((commitShown p addrs seq s).pipe p) = g (s.pipe p) := onPipe_proj hg p p s
  have hdone := hkept (g := (·.latchDone)) fun _ => rfl
  have hline := hkept (g := (·.latchLine)) fun _ => rfl
  have hblank := hkept (g := (·.blank)) fun _ => rfl
  have hgate : (commitShown p addrs seq s).readyGate p = s.readyGate p := rfl
  have hvmax : (commitShown p addrs seq s).vmax p = s.vmax p := rfl
  simp only [State.commitLate, State.inBlanking, hstate, hdone, hline, hblank, hgate, hvmax]

theorem commit_eq {addrs : List (Nat × Nat × Nat)} {seq : Nat} (hon : s.pipeOn p = true) (haddrs : (s.pipe p).addrs = []) :
    commit p addrs (some seq) s = if s.commitLate p then
      pipeRaise p 2 (onPipe p deferred ((commitShown p addrs seq s).wr (F.pipeCommitStatus_PENDING p) 2))
    else (commitShown p addrs seq s).wr (F.pipeCommitStatus_PENDING p) 1 := by
  have hon' : (commitShown p addrs seq s).pipeOn p = true := by
    rw [State.pipeOn, commitShown_state hp h addrs seq]
    exact hon
  have hlate := commitShown_late hp h addrs seq
  unfold commitShown at hon' hlate ⊢
  unfold commitJoins at hon' hlate ⊢
  simp only [commit, haddrs, List.filter_nil, List.length_nil, List.map_nil, releaseAll, List.isEmpty_nil, if_true, Option.some_or,
    Option.getD_some, Option.isNone_some, hon', hlate, Bool.not_true, Bool.false_eq_true, if_false]
  rfl

end

/-! ### The pipes' own states after a commit -/

/-- Two changes that agree at the state pipe `p` is in change the pipes alike. -/
theorem modify_pipes_congr {p : Nat} {s : State} {f g : PipeRun → PipeRun} (h : f (s.pipe p) = g (s.pipe p)) :
    s.pipes.modify p f = s.pipes.modify p g := by
  refine List.ext_getElem? fun i => ?_
  rw [List.getElem?_modify, List.getElem?_modify]
  by_cases e : p = i
  · subst e
    cases hi : s.pipes[p]? with
    | none => rfl
    | some r =>
      have hr : s.pipe p = r := by simp [State.pipe, List.getD, hi]
      rw [hr] at h
      simp [h]
  · simp [e]

theorem raise_pipes {s : State} (h : s.Canonical) (n : Nat) : (raise n s).pipes = s.pipes := by
  rw [reportRest_raise h n]

/-- An edge source is noted as raised in its pipe's frame. -/
theorem pipeRaise_pipes {p i : Nat} {s : State} (h : s.Canonical) :
    (pipeRaise p i s).pipes = s.pipes.modify p fun r => { r with raised := r.raised ||| 2 ^ i } := by
  unfold pipeRaise
  split
  · next hraised =>
    rw [Bool.and_eq_true, bitAt_eq_testBit] at hraised
    have hor : (s.pipe p).raised ||| 2 ^ i = (s.pipe p).raised := by
      refine Nat.eq_of_testBit_eq fun j => ?_
      rw [Nat.testBit_or, Nat.testBit_two_pow]
      by_cases e : i = j
      · subst e
        simp [hraised.2]
      · simp [e]
    rw [modify_pipes_congr (g := id) (by rw [hor]; rfl), List.modify_id]
  · exact raise_pipes (onPipe_canonical h) _

section
variable {p : Nat} (hp : p < 8) {s : State} (h : s.Canonical) {addrs : List (Nat × Nat × Nat)} {seq : Nat}
  (hon : s.pipeOn p = true) (haddrs : (s.pipe p).addrs = [])
include hp h hon haddrs

/-- The commit joins the pending set, and is deferred where it comes too late. -/
theorem commit_pipes : (commit p addrs (some seq) s).pipes = s.pipes.modify p fun q => { q with
    pend := true, seq := some seq, deferred := q.deferred || s.commitLate p,
    raised := if s.commitLate p then q.raised ||| 4 else q.raised, addrs := addrs } := by
  rw [commit_eq hp h hon haddrs]
  cases s.commitLate p with
  | false =>
    change s.pipes.modify p (commitJoins addrs seq) = _
    exact modify_pipes_congr (by simp [commitJoins, haddrs])
  | true =>
    rw [if_pos rfl, pipeRaise_pipes (onPipe_canonical (State.wr_canonical (commitShown_writes h addrs seq).1))]
    change ((s.pipes.modify p (commitJoins addrs seq)).modify p deferred).modify p _ = _
    rw [List.modify_modify_eq, List.modify_modify_eq]
    exact modify_pipes_congr (by simp [commitJoins, deferred, haddrs])

/-- What the registers show of it. -/
theorem commit_shows : let t := commit p addrs (some seq) s
    t.rd (F.pipeCommitSeq_PENDING p) = seq % 2 ^ 16 ∧
    t.rd (F.pipeCommitStatus_SUPERSEDED p) = s.rd (F.pipeCommitStatus_SUPERSEDED p) ∧
    t.rd (F.pipeCommitStatus_PENDING p) = if s.commitLate p then 2 else 1 := by
  have hjoined : (onPipe p (commitJoins addrs seq) s).Canonical := onPipe_canonical h
  have hinc := State.incBy_canonical (x1 := F.pipeCommitStatus_SUPERSEDED p) (x2 := 0) hjoined
  have hshown := (commitShown_writes h (p := p) addrs seq).1
  have hne := fun {x y : Nat} {f g : Fld} (hf : PipeFld p x f) (hg : PipeFld p y g) (hxy : x ≠ y) => pipeFld_ne hf hg (.inr hxy)
  have hseq : (commitShown p addrs seq s).rd (F.pipeCommitSeq_PENDING p) = seq % 2 ^ 16 := State.rd_wr_same hinc _ _
  have hsup : (commitShown p addrs seq s).rd (F.pipeCommitStatus_SUPERSEDED p) = s.rd (F.pipeCommitStatus_SUPERSEDED p) := by
    refine (State.rd_wr_other hinc _ _ _ (hne (pipeFld_superseded hp) (pipeFld_seqPending hp) (by decide))).trans
      ((State.rd_wr_same hjoined _ _).trans ?_)
    rw [onPipe_rd, Nat.add_zero, min_eq_left (Nat.le_sub_one_of_lt (State.rd_lt s _)), Nat.mod_eq_of_lt (State.rd_lt s _)]
  have hwritten (v : Nat) := State.wr_canonical (x1 := F.pipeCommitStatus_PENDING p) (x2 := v) hshown
  have hother (v : Nat) {f : Fld} {x : Nat} (hf : PipeFld p x f) (hx : x ≠ 0x400) :
      ((commitShown p addrs seq s).wr (F.pipeCommitStatus_PENDING p) v).rd f = (commitShown p addrs seq s).rd f :=
    State.rd_wr_other hshown _ _ _ (hne hf (pipeFld_pending hp) hx)
  have hraised {f : Fld} {x : Nat} (hf : PipeFld p x f) :
      (pipeRaise p 2 (onPipe p deferred ((commitShown p addrs seq s).wr (F.pipeCommitStatus_PENDING p) 2))).rd f =
        ((commitShown p addrs seq s).wr (F.pipeCommitStatus_PENDING p) 2).rd f :=
    (pipeRaise_rd (onPipe_canonical (hwritten 2)) (pipeFld_not_delivery hf)).trans (onPipe_rd ..)
  dsimp only
  rw [commit_eq hp h hon haddrs]
  cases s.commitLate p with
  | false =>
    exact ⟨(hother 1 (pipeFld_seqPending hp) (by decide)).trans hseq, (hother 1 (pipeFld_superseded hp) (by decide)).trans hsup,
      State.rd_wr_same hshown _ _⟩
  | true =>
    rw [if_pos rfl, hraised (pipeFld_seqPending hp), hraised (pipeFld_superseded hp), hraised (pipeFld_pending hp)]
    exact ⟨(hother 2 (pipeFld_seqPending hp) (by decide)).trans hseq, (hother 2 (pipeFld_superseded hp) (by decide)).trans hsup,
      State.rd_wr_same hshown _ _⟩

end

/-! ### Who commits (R29, R31, R179, R477) -/

/-- Every initiator that may write a register reaches the IRS. -/
theorem reaches_of_mayWrite {who : Initiator} {host audio : Bool} {q : Option Nat} (h : mayWrite host q audio (initiatorTag who) = true) :
    reaches who .irs = true := by
  cases who with
  | bar => rfl
  | dataPort => rfl
  | cellar => rfl
  | seq => rfl
  | audio => rfl
  | peer => rfl
  | dma => rfl
  | _ => cases h

theorem exec_pipeCommit_joins {who : Initiator} {p : Fin 8} {s : State} (hopen : s.shutOut who (pipeOff p.val) = false)
    (hmay : mayWrite true (some p.val) false (initiatorTag who) = true) (hheld : s.heldRes 0x30 p.val = false) (mask : BitVec 12)
    (seq : BitVec 16) : exec (.pipeCommit who p mask seq) s = .next (commit p.val ((bitsSet 12 mask.toNat).map fun sl =>
      (sl, s.rd (F.pipeSlotAddr_ADDR p.val sl) / 64 * 64, s.rd (F.pipeSlotAddr2_ADDR p.val sl) / 64 * 64)) (some seq.toNat) s) := by
  change execPipeCommit who p mask seq s = _
  simp [execPipeCommit, writeIrs, onIrs, pipeCommit, reaches_of_mayWrite hmay, hopen, hmay, hheld]

theorem reportRest_droppedWrite {s : State} (h : s.Canonical) (off data : Nat) : ReportRest s (droppedWrite off data s) := by
  have hraise := reportRest_raise (State.inc_canonical (x1 := F.hifDroppedWr_COUNT) h) 17
  have hraised := raise_canonical (x0 := 17) (State.inc_canonical (x1 := F.hifDroppedWr_COUNT) h)
  have hcounted : ReportRest s (raise 17 (s.inc F.hifDroppedWr_COUNT)) := reportRest_after hraise
  unfold droppedWrite
  dsimp only
  refine reportRest_ite hcounted (reportRest_trans (t := { raise 17 (s.inc F.hifDroppedWr_COUNT) with
    hif := { (raise 17 (s.inc F.hifDroppedWr_COUNT)).hif with dropLogged := true } }) ?_ (reportRest_logEvent (rest_canonical hraised) _ _ _ _))
  rw [ReportRest] at hcounted ⊢
  rw [hcounted]

theorem droppedBy_pipes {s : State} (h : s.Canonical) (tag : Tag) (off data : Nat) : (droppedBy tag off data s).pipes = s.pipes := by
  have hdropped : (droppedWrite off data s).pipes = s.pipes := by rw [reportRest_droppedWrite h]
  cases tag <;> exact hdropped

/-- A commit by one that may not write the register joins no pending set. -/
theorem exec_pipeCommit_dropped {who : Initiator} {p : Fin 8} {s : State} (h : s.Canonical)
    (hmay : mayWrite true (some p.val) false (initiatorTag who) = false) (mask : BitVec 12) (seq : BitVec 16) :
    Leads (.pipeCommit who p mask seq) s fun t => t.pipes = s.pipes := by
  refine ⟨_, rfl, ?_⟩
  unfold writeIrs onIrs
  split
  · change (if _ then _ else _ : State).pipes = _
    split
    · exact droppedBy_pipes h _ _ _
    · simp only [pipeCommit, hmay, Bool.not_false, Bool.true_or, if_true]
      exact droppedBy_pipes h _ _ _
  · rw [reportRest_decodeError h]

/-! ### A written-back frame is complete (R192) -/

/-- What a complete frame of buffer and stamp `f` shows, `busy` where lines of another are still to be written. -/
def wbShown (p : Nat) (f : Nat × Nat) (busy : Bool) : List (Fld × Nat) :=
  [(F.pipeWbStatus_INDEX p, f.1), (F.pipeWbStamp_STAMP p, f.2), (F.pipeWbStatus_INCOMPLETE p, 0), (F.pipeWbStatus_BUSY p, bit busy)]

theorem wbDone_eq (p : Nat) (f : Nat × Nat) (s : State) : wbDone p f s =
    pipeRaise p 11 (setFlds (wbShown p f ((s.pipe p).wb.active || !(s.pipe p).wb.ending.isEmpty)) s) := rfl

theorem wbShown_nodup {p : Nat} (hp : p < 8) (f : Nat × Nat) (busy : Bool) : ((wbShown p f busy).map fun c => c.1.key).Nodup := by
  have hne := fun {x y : Nat} {f g : Fld} (hf : PipeFld p x f) (hg : PipeFld p y g) (hxy : x ≠ y) => pipeFld_ne hf hg (.inr hxy)
  simp only [wbShown, List.map_cons, List.map_nil, List.nodup_cons, List.mem_cons, List.not_mem_nil, or_false, not_or, List.nodup_nil,
    not_false_eq_true, and_true]
  exact ⟨⟨hne (pipeFld_wbIndex hp) (pipeFld_wbStamp hp) (by decide), hne (pipeFld_wbIndex hp) (pipeFld_wbIncomplete hp) (by decide),
    hne (pipeFld_wbIndex hp) (pipeFld_wbBusy hp) (by decide)⟩, ⟨hne (pipeFld_wbStamp hp) (pipeFld_wbIncomplete hp) (by decide),
    hne (pipeFld_wbStamp hp) (pipeFld_wbBusy hp) (by decide)⟩, hne (pipeFld_wbIncomplete hp) (pipeFld_wbBusy hp) (by decide)⟩

theorem pipeRaise_mem {p i : Nat} {s : State} (h : s.Canonical) : (pipeRaise p i s).mem = s.mem := by
  unfold pipeRaise
  split
  · rfl
  · exact (does_mem (does_raise (does_refl (fs := []) (onPipe_canonical h)) _)).trans rfl

/-- Writing the lines held, where none is. -/
theorem wbFlush_nil {p : Nat} {s : State} (hheld : (s.pipe p).wb.held = []) :
    wbFlush p s = onWb p (fun w => { w with held := [] }) (onWb p (fun w => { w with held := w.held.filter fun h => !h.old }) s) := by
  have hold : wbFlushOld p s = onWb p (fun w => { w with held := w.held.filter fun h => !h.old }) s := by
    simp only [wbFlushOld, hheld, List.filter_nil, wbWrite, List.foldl_nil, Bool.false_eq_true, if_false]
  have hnone : ((onWb p (fun w => { w with held := w.held.filter fun h => !h.old }) s).pipe p).wb.held = [] := by
    by_cases hlen : p < s.pipes.length
    · have hfound : (s.pipes[p]).wb.held = [] := by simpa [State.pipe, hlen] using hheld
      simp [onWb, onPipe, modAt, State.pipe, hlen, hfound]
    · simp [onWb, onPipe, modAt, State.pipe, hlen, pipe0]
  simp only [wbFlush, hold, hnone, wbWrite, List.foldl_nil, Bool.false_eq_true, if_false]

/-- A pipe whose writeback is active is one of those that the state lists. -/
theorem lt_of_wbActive {p : Nat} {s : State} (h : (s.pipe p).wb.active = true) : p < s.pipes.length := by
  by_contra hp
  have hdefault : s.pipe p = pipe0 := List.getD_eq_default _ _ (by omega)
  rw [hdefault] at h
  cases h

/-- The frame in writing leaves the pipe, with its lines. -/
def wbEnded (p : Nat) (s : State) : State :=
  onWb p (fun w => { w with active := false })
    (onWb p (fun w => { w with held := [] }) (onWb p (fun w => { w with held := w.held.filter fun h => !h.old }) s))

theorem wbEnded_raised (p : Nat) (s : State) : ((wbEnded p s).pipe p).raised = (s.pipe p).raised := by
  have hkept {f : WbRun → WbRun} {t : State} : ((onWb p f t).pipe p).raised = (t.pipe p).raised :=
    onWb_proj (g := (·.raised)) (fun _ _ => rfl) p p f t
  rw [wbEnded, hkept, hkept, hkept]

theorem writes_pipe {fs : List Fld} {s t : State} (h : Writes fs s t) (p : Nat) : t.pipe p = s.pipe p := by
  obtain ⟨-, -, hregs⟩ := h
  rw [hregs]
  rfl

theorem wbEnded_canonical {p : Nat} {s : State} (h : s.Canonical) : (wbEnded p s).Canonical :=
  onWb_canonical (onWb_canonical (onWb_canonical h))

theorem exec_wbFrameDone {p : Fin 8} {s : State} (hactive : (s.pipe p.val).wb.active = true)
    (hstate : s.rd (F.pipeStatus_STATE p.val) ≠ 2) (hheld : (s.pipe p.val).wb.held = []) (hending : (s.pipe p.val).wb.ending = []) :
    exec (.wbFrameDone p) s = .next (pipeRaise p.val 11
      (setFlds (wbShown p.val ((s.pipe p.val).wb.buf, (s.pipe p.val).wb.stamp) false) (wbEnded p.val s))) := by
  have hflushed {α : Type} {g : WbRun → α} (hg : ∀ (w : WbRun) (l : List WbLine), g { w with held := l } = g w) :
      g ((wbFlush p.val s).pipe p.val).wb = g (s.pipe p.val).wb := by
    rw [wbFlush_nil hheld]
    exact (onWb_wb (fun w => hg w _) _ _ _).trans (onWb_wb (fun w => hg w _) _ _ _)
  have hflushedActive := (hflushed (g := (·.active)) fun _ _ => rfl).trans hactive
  have hflushedBuf := hflushed (g := (·.buf)) fun _ _ => rfl
  have hflushedStamp := hflushed (g := (·.stamp)) fun _ _ => rfl
  have hended : onWb p.val (fun w => { w with active := false }) (wbFlush p.val s) = wbEnded p.val s := by
    rw [wbFlush_nil hheld]
    rfl
  have hidle : (((wbEnded p.val s).pipe p.val).wb.active || !((wbEnded p.val s).pipe p.val).wb.ending.isEmpty) = false := by
    have hlen := lt_of_wbActive hactive
    have hfound : (s.pipes[p.val]).wb.ending = [] := by simpa [State.pipe, hlen] using hending
    simp [wbEnded, onWb, onPipe, modAt, State.pipe, hlen, hfound]
  change execWbFrameDone p s = _
  simp only [execWbFrameDone, hending, hactive, hstate, beq_iff_eq, List.isEmpty_nil, Bool.not_true, Bool.false_or, Bool.false_eq_true,
    if_false, hflushedActive, hflushedBuf, hflushedStamp, hended, wbDone_eq, hidle]

theorem wbFrameDone_records {p : Fin 8} {s : State} (h : s.Canonical) (hactive : (s.pipe p.val).wb.active = true)
    (hstate : s.rd (F.pipeStatus_STATE p.val) ≠ 2) (hheld : (s.pipe p.val).wb.held = []) (hending : (s.pipe p.val).wb.ending = []) :
    Leads (.wbFrameDone p) s fun t =>
      t.rd (F.pipeWbStatus_INDEX p.val) = (s.pipe p.val).wb.buf % 16 ∧ t.rd (F.pipeWbStamp_STAMP p.val) = (s.pipe p.val).wb.stamp % 2 ^ 48 ∧
      t.rd (F.pipeWbStatus_BUSY p.val) = 0 ∧ t.rd (F.pipeWbStatus_INCOMPLETE p.val) = 0 ∧ t.mem = s.mem ∧
      (bitAt (s.pipe p.val).raised 11 = false → Pends (32 + 12 * p.val + 11) s t) := by
  have hp := p.isLt
  have hended := wbEnded_canonical (p := p.val) h
  have hwrites := writes_setFlds hended (wbShown p.val ((s.pipe p.val).wb.buf, (s.pipe p.val).wb.stamp) false)
  have hrd {place : Nat} {f : Fld} (hf : PipeFld p.val place f) {v : Nat}
      (hmem : (f, v) ∈ wbShown p.val ((s.pipe p.val).wb.buf, (s.pipe p.val).wb.stamp) false) :
      (pipeRaise p.val 11 (setFlds (wbShown p.val ((s.pipe p.val).wb.buf, (s.pipe p.val).wb.stamp) false) (wbEnded p.val s))).rd f =
        v % 2 ^ f.width :=
    (pipeRaise_rd (p := p.val) (i := 11) hwrites.1 (pipeFld_not_delivery hf)).trans (rd_setFlds hended (wbShown_nodup hp _ _) hmem)
  refine ⟨_, exec_wbFrameDone hactive hstate hheld hending, hrd (pipeFld_wbIndex hp) (by simp [wbShown]),
    hrd (pipeFld_wbStamp hp) (by simp [wbShown]), hrd (v := bit false) (pipeFld_wbBusy hp) (by simp [wbShown]),
    hrd (v := 0) (pipeFld_wbIncomplete hp) (by simp [wbShown]), ?_, fun hraised => pipeRaise_pends hp (by decide) hwrites.1 ?_ (.inr ?_)⟩
  · rw [pipeRaise_mem hwrites.1]
    obtain ⟨-, -, hregs⟩ := hwrites
    rw [hregs]
    rfl
  · rw [writes_rd hwrites]
    · rfl
    · simp only [wbShown, List.map_cons, List.map_nil, List.forall_mem_cons, List.not_mem_nil, false_implies, implies_true, and_true]
      exact ⟨pipeFld_not_dest (pipeFld_wbIndex hp) (by omega), pipeFld_not_dest (pipeFld_wbStamp hp) (by omega),
        pipeFld_not_dest (pipeFld_wbIncomplete hp) (by omega), pipeFld_not_dest (pipeFld_wbBusy hp) (by omega)⟩
  · rw [writes_pipe hwrites, wbEnded_raised]
    exact hraised

end Sys2Proof.Machine

section
open Sys2Proof Sys2Proof.Machine
set_option Elab.async false

/-- Settles O17: a commit replaces no address and only marks the set deferred where it comes too late (`commit_pipes`, `commit_shows`), every
initiator that may commit reaches the register (`reaches_of_mayWrite`), and a release and a written-back frame show in fields of their
own (`release_shows`, `wbFrameDone_records`). -/
theorem pipeCommits : Obligations.PipeCommits := by
  unfold Obligations.PipeCommits
  intro s who p mask seq slot a h r tag
  refine ⟨fun hopen hmay hheld hon haddrs => ?_, fun hmay => exec_pipeCommit_dropped h hmay mask seq,
    fun hdrain => fetchDrainRelease_releases h slot.isLt a.isLt hdrain, wbFrameDone_records h⟩
  obtain ⟨hseq, hsup, hpending⟩ := commit_shows p.isLt h hon haddrs (seq := seq.toNat)
    (addrs := (bitsSet 12 mask.toNat).map fun sl =>
      (sl, s.rd (F.pipeSlotAddr_ADDR p.val sl) / 64 * 64, s.rd (F.pipeSlotAddr2_ADDR p.val sl) / 64 * 64))
  exact ⟨_, exec_pipeCommit_joins hopen hmay hheld mask seq, hseq.trans (Nat.mod_eq_of_lt seq.isLt), hsup,
    commit_pipes p.isLt h hon haddrs, hpending⟩
end

namespace Sys2Proof.Machine

-- One declaration after another: the memory limit of the check counts the stack of every thread that elaborates beside them.
set_option Elab.async false

/-! ### The fault manager and the unit of a display port (R557 to R559) -/

theorem unitId_port {k : Nat} (hk : k < 8) : unitId 0 k / 256 = 0 ∧ unitId 0 k % 256 = k := by
  unfold unitId
  omega

theorem fltUnit_id (id : Nat) (s : State) : (s.fltUnit id).id = id := by
  unfold State.fltUnit
  cases hfound : s.fault.units.find? fun u => u.id == id with
  | none => rfl
  | some u => simpa using List.find?_some hfound

/-- The manager's record of a unit reads as it was last set. -/
theorem fltUnit_setFltUnit {id : Nat} {u : FltUnit} (hu : u.id = id) (s : State) : (setFltUnit u s).fltUnit id = u := by
  simp [State.fltUnit, setFltUnit, hu]

/-- Reporting leaves the manager's records. -/
theorem fltUnit_report {s t : State} (h : ReportRest s t) (id : Nat) : t.fltUnit id = s.fltUnit id := by
  rw [h]
  rfl

/-- A stamp is within every span of itself. -/
theorem within_now {s t : State} (h : t.now = s.now) (us : Nat) : t.within us s.now = true := by
  have hzero : t.dotsBetween s.now s.now = 0 := by
    have hframe : (s.now / 2 ^ 32 + 65536 - s.now / 2 ^ 32 % 65536) % 65536 = 0 := by omega
    rw [State.dotsBetween, hframe]
    simp [signedAt]
  simp [State.within, h, hzero]

theorem manages_now {n : Nat} {s t : State} (h : Manages n s t) : t.now = s.now := by
  obtain ⟨⟨-, hrd⟩, -, -⟩ := h
  simp only [State.now, hrd _ (show managerKey F.beamNow_FRAME.key = false by decide), hrd _ (show managerKey F.beamNow_LINE.key = false by decide),
    hrd _ (show managerKey F.beamNow_DOT.key = false by decide)]

section
variable {n id : Nat} (hn : n < 512) (hid : id < 0xA00) {s t : State} (h : Manages n s t)
include hn hid h

theorem manages_unitReg {f : Fld} (hf : f ∈ [F.fltU_STATE (id / 256) (id % 256), F.fltU_CAUSE (id / 256) (id % 256),
    F.fltU_COUNT60 (id / 256) (id % 256), F.fltU_ATTEMPTS (id / 256) (id % 256), F.fltU_TOTAL (id / 256) (id % 256)]) (v : Nat) :
    Manages n s (t.wr f v) := by
  obtain ⟨hlow, hhigh⟩ := fltU_inside hid f hf
  exact manages_wr hn h hlow hhigh

theorem manages_unitCounts : Manages n s (showCounts id t) :=
  manages_unitReg hn hid (manages_unitReg hn hid h (by simp) _) (by simp) _

/-- An attempt that ended well leaves the unit in service. -/
theorem manages_attemptDone : Manages n s (endAttempt id true t) := by
  unfold endAttempt
  dsimp only
  split
  · exact h
  · exact manages_unitCounts hn hid (manages_setFltUnit h _)

end

/-! ### The first upset of a port's unit (R558, R559) -/

theorem writes_moveSummary {s : State} (h : s.Canonical) (old new : Nat) :
    Writes [F.fltSummary_SUSPECT, F.fltSummary_RETIRED] s (moveSummary old new s) := by
  have hold : Writes [F.fltSummary_SUSPECT, F.fltSummary_RETIRED] s (if old = 1 then s.wr F.fltSummary_SUSPECT (s.rd F.fltSummary_SUSPECT - 1)
      else if old = 2 then s.wr F.fltSummary_RETIRED (s.rd F.fltSummary_RETIRED - 1) else s) :=
    writes_ite (writes_wr (writes_refl h) (by simp) _) (writes_ite (writes_wr (writes_refl h) (by simp) _) (writes_refl h))
  exact writes_ite (writes_wr hold (by simp) _) (writes_ite (writes_wr hold (by simp) _) hold)

/-- The fields of a unit's change of state, beside STATE and the summary counts. -/
def unitChange (k : Nat) : List Fld :=
  [F.fltU_CAUSE 0 k, F.fltLast_UNIT, F.fltLast_CAUSE, F.fltLast_STATE, F.fltLastStamp_STAMP, F.fltSummary_FAULT_N]

/-- The unit's own fields have keys of their own. -/
theorem unitShown_nodup (k : Nat) : ([F.fltU_STATE 0 k, F.fltU_COUNT60 0 k, F.fltU_ATTEMPTS 0 k, F.fltU_TOTAL 0 k].map Fld.key).Nodup := by
  simp [Fld.key, Fld.group, F.fltU_STATE, F.fltU_COUNT60, F.fltU_ATTEMPTS, F.fltU_TOTAL]

section
variable {k : Nat} (hk : k < 8)
include hk

/-- The unit's fields that the manager counts and shows are none of the others of a change of state. -/
theorem unitShown_ne {f g : Fld} (hf : f ∈ [F.fltU_STATE 0 k, F.fltU_COUNT60 0 k, F.fltU_ATTEMPTS 0 k, F.fltU_TOTAL 0 k])
    (hg : g ∈ F.fltSummary_SUSPECT :: F.fltSummary_RETIRED :: unitChange k) : f.key ≠ g.key := by
  simp only [unitChange, List.mem_cons, List.not_mem_nil, or_false] at hf hg
  rcases hf with rfl | rfl | rfl | rfl <;> rcases hg with rfl | rfl | rfl | rfl | rfl | rfl | rfl | rfl <;>
    simp [Fld.key, Fld.group, F.fltU_STATE, F.fltU_CAUSE, F.fltU_COUNT60, F.fltU_ATTEMPTS, F.fltU_TOTAL, F.fltLast_UNIT, F.fltLast_CAUSE,
      F.fltLast_STATE, F.fltLastStamp_STAMP, F.fltSummary_FAULT_N, F.fltSummary_SUSPECT, F.fltSummary_RETIRED] <;> omega

theorem unitShown_not_report {f : Fld} (hf : f ∈ [F.fltU_STATE 0 k, F.fltU_COUNT60 0 k, F.fltU_ATTEMPTS 0 k, F.fltU_TOTAL 0 k]) :
    reportKey f.key = false := by
  have hinside : 0x83000 ≤ f.key % 2 ^ 30 / 64 ∧ f.key % 2 ^ 30 / 64 < 0x84000 := by
    obtain ⟨hkind, hunit⟩ := unitId_port hk
    have hall := fltU_inside (id := unitId 0 k) (by unfold unitId; omega)
    rw [hkind, hunit] at hall
    refine hall f ?_
    simp only [List.mem_cons, List.not_mem_nil, or_false] at hf ⊢
    tauto
  have hwake : f.key ≠ F.pwrStatus_WAKE_REQ.key := fun e => by
    rw [e] at hinside
    exact absurd hinside.1 (by decide)
  simp [reportKey, deliveryKey, hwake]
  omega

/-- A port's unit takes a state. -/
theorem setUnitState_port {s : State} (h : s.Canonical) (st cause : Nat) : ∃ m : State, Writes [F.fltSummary_SUSPECT, F.fltSummary_RETIRED] s m ∧
    Writes (unitChange k) (m.wr (F.fltU_STATE 0 k) st) (setUnitState (unitId 0 k) st cause s) := by
  obtain ⟨hkind, hunit⟩ := unitId_port hk
  have hhealth : ∀ u, setHealth (unitId 0 k) st u = u := fun u => by
    rw [setHealth, hkind]
    rfl
  have hmoved := writes_moveSummary h (s.unitState (unitId 0 k)) st
  refine ⟨_, hmoved, ?_⟩
  unfold setUnitState
  dsimp only
  rw [hhealth, hkind, hunit]
  have hstate := writes_refl (fs := unitChange k) (State.wr_canonical (x1 := F.fltU_STATE 0 k) (x2 := st) hmoved.1)
  have hlast := writes_wr (writes_wr (writes_wr (writes_wr hstate (f := F.fltU_CAUSE 0 k) (by simp [unitChange]) cause)
    (f := F.fltLast_UNIT) (by simp [unitChange]) (unitId 0 k)) (f := F.fltLast_CAUSE) (by simp [unitChange]) cause)
    (f := F.fltLast_STATE) (by simp [unitChange]) st
  have hstamp := fun v => writes_wr hlast (f := F.fltLastStamp_STAMP) (by simp [unitChange]) v
  exact writes_trans (hstamp _) (writes_mono (writes_updateFaultN (hstamp _).1) (by simp [unitChange]))

/-- Its counts stand, and its STATE shows the new one. -/
theorem setUnitState_shows {s : State} (h : s.Canonical) (st cause : Nat) : let t := setUnitState (unitId 0 k) st cause s
    t.Canonical ∧ t.rd (F.fltU_STATE 0 k) = st % 4 ∧ t.fault = s.fault ∧
      ∀ f ∈ [F.fltU_COUNT60 0 k, F.fltU_ATTEMPTS 0 k, F.fltU_TOTAL 0 k], t.rd f = s.rd f := by
  obtain ⟨m, hmoved, hchanged⟩ := setUnitState_port hk h st cause
  have hne := unitShown_nodup k
  simp only [List.map_cons, List.map_nil, List.nodup_cons, List.mem_cons, List.not_mem_nil, or_false, not_or] at hne
  obtain ⟨⟨hcount, hattempts, htotal⟩, -⟩ := hne
  refine ⟨hchanged.1, (writes_rd hchanged fun f hf => unitShown_ne hk (by simp) (by simp [hf])).trans (State.rd_wr_same hmoved.1 _ _), ?_,
    fun f hf => ?_⟩
  · rw [hchanged.2.2, hmoved.2.2]
    rfl
  · have hkey : f.key ≠ (F.fltU_STATE 0 k).key := by
      simp only [List.mem_cons, List.not_mem_nil, or_false] at hf
      rcases hf with rfl | rfl | rfl
      · exact Ne.symm hcount
      · exact Ne.symm hattempts
      · exact Ne.symm htotal
    have hshown : f ∈ [F.fltU_STATE 0 k, F.fltU_COUNT60 0 k, F.fltU_ATTEMPTS 0 k, F.fltU_TOTAL 0 k] := List.mem_cons_of_mem _ hf
    exact (writes_rd hchanged fun g hg => unitShown_ne hk hshown (by simp [hg])).trans ((State.rd_wr_other hmoved.1 _ _ _ hkey).trans
      (writes_rd hmoved fun g hg => unitShown_ne hk hshown (List.mem_append_left (unitChange k) hg)))

theorem manages_setUnitState_port {n : Nat} (hn : n < 512) {s t : State} (h : Manages n s t) (st cause : Nat) :
    Manages n s (setUnitState (unitId 0 k) st cause t) := by
  have hid : unitId 0 k < 0xA00 := by unfold unitId; omega
  have hhealth : ∀ u, setHealth (unitId 0 k) st u = u := fun u => by
    rw [setHealth, (unitId_port hk).1]
    rfl
  unfold setUnitState
  dsimp only
  rw [hhealth]
  have hunit := manages_unitReg hn hid (manages_unitReg hn hid (manages_moveSummary hn h (t.unitState (unitId 0 k)) st)
    (f := F.fltU_STATE (unitId 0 k / 256) (unitId 0 k % 256)) (by simp) st) (f := F.fltU_CAUSE (unitId 0 k / 256) (unitId 0 k % 256)) (by simp) cause
  have hlast := manages_wr hn (manages_wr hn (manages_wr hn hunit (f := F.fltLast_UNIT) (v := unitId 0 k) (by decide) (by decide))
    (f := F.fltLast_CAUSE) (v := cause) (by decide) (by decide)) (f := F.fltLast_STATE) (v := st) (by decide) (by decide)
  exact manages_wr hn (manages_wr hn hlast (f := F.fltLastStamp_STAMP) (by decide) (by decide)) (f := F.fltSummary_FAULT_N)
    (by decide) (by decide)

end

/-- From `s` to `t`, events are reported and no more is done with unit `id` than to note it. -/
def KeepsUnit (id : Nat) (s t : State) : Prop :=
  Moves reportKey s t ∧ t.ref = s.ref ∧ (StaysPending 490 s → StaysPending 490 t) ∧
    (t.fltUnit id).upsets = (s.fltUnit id).upsets ∧ (t.fltUnit id).attempts = (s.fltUnit id).attempts

theorem keepsUnit_trans {id : Nat} {s t u : State} (h : KeepsUnit id s t) (k : KeepsUnit id t u) : KeepsUnit id s u := by
  obtain ⟨hmoves, href, hpend, hupsets, hattempts⟩ := h
  obtain ⟨kmoves, kref, kpend, kupsets, kattempts⟩ := k
  exact ⟨moves_trans hmoves kmoves, kref.trans href, kpend ∘ hpend, kupsets.trans hupsets, kattempts.trans hattempts⟩

section
variable {id : Nat} {s : State} (h : s.Canonical)
include h

theorem keepsUnit_notify (code a b : Nat) : KeepsUnit id s (notify code a b s) := by
  have hunit := fltUnit_report (reportRest_notify h code a b) id
  exact ⟨moves_notify (moves_refl h) _ _ _, notify_ref h _ _ _, fun hs => staysPending_notify hs (by decide) _ _ _,
    congrArg FltUnit.upsets hunit, congrArg FltUnit.attempts hunit⟩

theorem keepsUnit_logEvent (code sev a b : Nat) : KeepsUnit id s (logEvent code sev a b s) := by
  have hunit := fltUnit_report (reportRest_logEvent h code sev a b) id
  exact ⟨moves_logEvent (moves_refl h) _ _ _ _, logEvent_ref h _ _ _ _, fun hs => staysPending_logEvent hs (by decide) _ _ _ _,
    congrArg FltUnit.upsets hunit, congrArg FltUnit.attempts hunit⟩

theorem keepsUnit_noted (noted : Option Nat) : KeepsUnit id s (setFltUnit { s.fltUnit id with noted := noted } s) := by
  have hunit := fltUnit_setFltUnit (u := { s.fltUnit id with noted := noted }) (fltUnit_id id s) s
  exact ⟨moves_rest (moves_refl h), rfl, fun hs => staysPending_rest hs, by rw [hunit], by rw [hunit]⟩

/-- A HEALTHY unit becomes SUSPECT: its state, then what is reported of it. -/
theorem makeSuspect_reports (hstate : s.unitState id = 0) (cause : Nat) :
    KeepsUnit id (raise 490 (setUnitState id 1 cause s)) (makeSuspect id cause s) := by
  have hraised : (raise 490 (setUnitState id 1 cause s)).Canonical := raise_canonical (setUnitState_canonical h)
  have hlogged := fun a b => keepsUnit_logEvent (id := id) hraised 0x0800 1 a b
  unfold makeSuspect
  rw [hstate]
  dsimp only
  split
  · cases ‹(0 != 0) = true›
  · split
    · exact keepsUnit_trans (keepsUnit_trans (hlogged _ _) (keepsUnit_noted (hlogged _ _).1.1 _))
        (keepsUnit_notify (keepsUnit_noted (hlogged _ _).1.1 _).1.1 _ _ _)
    · exact hlogged _ _

end

section
variable {k : Nat} (hk : k < 8) {s : State} (h : s.Canonical)
include hk h

/-- The counts of a port's unit shown from the manager's record; nothing else of the unit changes. -/
theorem showCounts_port : let t := showCounts (unitId 0 k) s
    t.rd (F.fltU_COUNT60 0 k) = min 31 (((s.fltUnit (unitId 0 k)).upsets.filter (s.within 60000000)).length) ∧
    t.rd (F.fltU_ATTEMPTS 0 k) = min 3 (((s.fltUnit (unitId 0 k)).attempts.filter (s.within 1000000)).length) ∧
    t.rd (F.fltU_STATE 0 k) = s.rd (F.fltU_STATE 0 k) ∧ t.rd (F.fltU_TOTAL 0 k) = s.rd (F.fltU_TOTAL 0 k) := by
  obtain ⟨hkind, hunit⟩ := unitId_port hk
  have hne := unitShown_nodup k
  simp only [List.map_cons, List.map_nil, List.nodup_cons, List.mem_cons, List.not_mem_nil, or_false, not_or] at hne
  obtain ⟨⟨hstateCount, hstateAttempts, -⟩, ⟨hcountAttempts, hcountTotal⟩, hattemptsTotal, -⟩ := hne
  have hcounted (v : Nat) := State.wr_canonical (x1 := F.fltU_COUNT60 0 k) (x2 := v) h
  dsimp only
  rw [showCounts, hkind, hunit]
  refine ⟨?_, ?_, ?_, ?_⟩
  · rw [State.rd_wr_other (hcounted _) _ _ _ hcountAttempts, State.rd_wr_same h]
    exact Nat.mod_eq_of_lt (lt_of_le_of_lt (Nat.min_le_left _ _) (by decide : 31 < 2 ^ 5))
  · rw [State.rd_wr_same (hcounted _)]
    exact Nat.mod_eq_of_lt (lt_of_le_of_lt (Nat.min_le_left _ _) (by decide : 3 < 2 ^ 2))
  · rw [State.rd_wr_other (hcounted _) _ _ _ hstateAttempts, State.rd_wr_other h _ _ _ hstateCount]
  · rw [State.rd_wr_other (hcounted _) _ _ _ (Ne.symm hattemptsTotal), State.rd_wr_other h _ _ _ (Ne.symm hcountTotal)]

end

/-- The manager's record of a unit that is upset for the first time. -/
def upsetNoted (id : Nat) (s : State) : State := setFltUnit { s.fltUnit id with upsets := [s.now] } s

/-- A unit after its first upset, before its state changes: counted, and upset once. -/
def firstUpset (id : Nat) (s : State) : State := showCounts id ((upsetNoted id s).inc (F.fltU_TOTAL (id / 256) (id % 256)))

theorem fltUnit_upsetNoted (id : Nat) (s : State) : (upsetNoted id s).fltUnit id = { s.fltUnit id with upsets := [s.now] } :=
  fltUnit_setFltUnit (u := { s.fltUnit id with upsets := [s.now] }) (fltUnit_id id s) s

/-- The manager's record of a unit whose attempt begins. -/
def attemptNoted (id : Nat) (s : State) : State :=
  setFltUnit { s.fltUnit id with attempts := (s.now :: (s.fltUnit id).attempts).take 4, retrying := true } s

theorem fltUnit_attemptNoted (id : Nat) (s : State) : (attemptNoted id s).fltUnit id =
    { s.fltUnit id with attempts := (s.now :: (s.fltUnit id).attempts).take 4, retrying := true } :=
  fltUnit_setFltUnit (u := { s.fltUnit id with attempts := (s.now :: (s.fltUnit id).attempts).take 4, retrying := true }) (fltUnit_id id s) s

/-- An upset of a fresh unit is counted. -/
theorem countUpset_fresh {id : Nat} {s : State} (hfresh : Fresh id s) (cause : Nat) : s.upsetCounts id = true ∧
    countUpset id cause s = makeSuspect id cause (firstUpset id s) := by
  obtain ⟨hstate, htrimmed, hstopped, hupsets, -, hretrying⟩ := hfresh
  refine ⟨by simp [State.upsetCounts, hstate, htrimmed, hstopped, hretrying], ?_⟩
  simp only [countUpset, hupsets]
  rfl

section
variable {k : Nat} (hk : k < 8) {s : State} (h : s.Canonical) (hfresh : Fresh (unitId 0 k) s)
include hk h hfresh

theorem firstUpset_shows : let t := firstUpset (unitId 0 k) s
    Manages 490 s t ∧ t.rd (F.fltU_STATE 0 k) = 0 ∧ t.rd (F.fltU_COUNT60 0 k) = 1 ∧ Counted (F.fltU_TOTAL 0 k) s t ∧
    (t.fltUnit (unitId 0 k)).upsets = [s.now] ∧ (t.fltUnit (unitId 0 k)).attempts = [] := by
  obtain ⟨hstate, -, -, -, hattempts, -⟩ := hfresh
  obtain ⟨hkind, hunit⟩ := unitId_port hk
  have hid : unitId 0 k < 0xA00 := by unfold unitId; omega
  have hset : (upsetNoted (unitId 0 k) s).Canonical := setFltUnit_canonical h
  have hrecord := fltUnit_upsetNoted (unitId 0 k) s
  have hmanaged : Manages 490 s ((upsetNoted (unitId 0 k) s).inc (F.fltU_TOTAL (unitId 0 k / 256) (unitId 0 k % 256))) :=
    manages_unitReg (by decide) hid (manages_setFltUnit (manages_refl h) _) (by simp) _
  have hcounts : Manages 490 s (firstUpset (unitId 0 k) s) := manages_unitCounts (by decide) hid hmanaged
  have hnow := manages_now hmanaged
  have hne := unitShown_nodup k
  simp only [List.map_cons, List.map_nil, List.nodup_cons, List.mem_cons, List.not_mem_nil, or_false, not_or] at hne
  obtain ⟨⟨-, -, hstateTotal⟩, -⟩ := hne
  rw [State.unitState, hkind, hunit] at hstate
  unfold firstUpset at hcounts ⊢
  rw [hkind, hunit] at hmanaged hcounts hnow ⊢
  obtain ⟨hcount, -, hstateShown, htotal⟩ := showCounts_port hk hmanaged.1.1
  refine ⟨hcounts, ?_, ?_, ?_, congrArg FltUnit.upsets hrecord, (congrArg FltUnit.attempts hrecord).trans hattempts⟩
  · rw [hstateShown]
    exact (State.rd_wr_other hset _ _ _ hstateTotal).trans hstate
  · have hupsets : (((upsetNoted (unitId 0 k) s).inc (F.fltU_TOTAL 0 k)).fltUnit (unitId 0 k)).upsets = [s.now] := congrArg FltUnit.upsets hrecord
    rw [hcount, hupsets, List.filter_cons_of_pos (within_now hnow _)]
    rfl
  · rw [Counted, htotal, rd_inc_same hset]
    rfl

/-- The unit is SUSPECT and counted once, and what is reported of it keeps source 490 pending. -/
theorem countUpset_shows (cause : Nat) : let t := countUpset (unitId 0 k) cause s
    Manages 490 s t ∧ t.rd (F.fltU_STATE 0 k) = 1 ∧ t.rd (F.fltU_COUNT60 0 k) = 1 ∧ Counted (F.fltU_TOTAL 0 k) s t ∧
    (t.fltUnit (unitId 0 k)).upsets = [s.now] ∧ (t.fltUnit (unitId 0 k)).attempts = [] ∧
    (∀ u, (StaysPending 490 t → StaysPending 490 u) → Pends 490 s u) := by
  obtain ⟨hkind, hunit⟩ := unitId_port hk
  obtain ⟨-, hcounts⟩ := countUpset_fresh hfresh cause
  obtain ⟨hmanaged, hstate, hcount, htotal, hupsets, hattempts⟩ := firstUpset_shows hk h hfresh
  have hhealthy : (firstUpset (unitId 0 k) s).unitState (unitId 0 k) = 0 := by rwa [State.unitState, hkind, hunit]
  obtain ⟨hset, hsuspect, hfault, hshown⟩ := setUnitState_shows hk hmanaged.1.1 1 cause
  obtain ⟨hmoves, href, hpend, kupsets, kattempts⟩ := makeSuspect_reports hmanaged.1.1 hhealthy cause
  have hsuspected := manages_setUnitState_port hk (n := 490) (by decide) hmanaged 1 cause
  have hraised := manages_raise (by decide) hsuspected 490
  have hrd {f : Fld} (hf : f ∈ [F.fltU_STATE 0 k, F.fltU_COUNT60 0 k, F.fltU_ATTEMPTS 0 k, F.fltU_TOTAL 0 k]) :
      (makeSuspect (unitId 0 k) cause (firstUpset (unitId 0 k) s)).rd f = (setUnitState (unitId 0 k) 1 cause (firstUpset (unitId 0 k) s)).rd f :=
    (hmoves.2 f (unitShown_not_report hk hf)).trans (raise_rd hset 490 f (not_delivery_of_not_report (unitShown_not_report hk hf)))
  have hunits : (raise 490 (setUnitState (unitId 0 k) 1 cause (firstUpset (unitId 0 k) s))).fltUnit (unitId 0 k) =
      (firstUpset (unitId 0 k) s).fltUnit (unitId 0 k) := by
    rw [fltUnit_report (reportRest_raise hset 490), State.fltUnit, hfault]
    rfl
  dsimp only
  rw [hcounts]
  refine ⟨⟨moves_trans hraised.1 (moves_mono hmoves fun _ => managerKey_report), href.trans hraised.2.1, hpend ∘ hraised.2.2⟩,
    (hrd (by simp)).trans hsuspect, (hrd (by simp)).trans ((hshown _ (by simp)).trans hcount), ?_, kupsets.trans ((congrArg _ hunits).trans hupsets),
    kattempts.trans ((congrArg _ hunits).trans hattempts), fun u hu => pends_of_raise hset (by decide) ?_ (hu ∘ hpend)⟩
  · rw [Counted, hrd (by simp), hshown _ (by simp)]
    exact htotal
  · exact hsuspected.1.2 _ (by decide)

/-- The first upset of a port's unit, and that nothing but the manager's and the report's fields changes. -/
theorem upset_suspects (cause : Nat) : Suspected (unitId 0 k) s (upset (unitId 0 k) cause s) ∧ Manages 490 s (upset (unitId 0 k) cause s) := by
  obtain ⟨hkind, hunit⟩ := unitId_port hk
  have hid : unitId 0 k < 0xA00 := by unfold unitId; omega
  obtain ⟨hmanaged, hstate, hcount, htotal, hupsets, hattempts, hpends⟩ := countUpset_shows hk h hfresh cause
  obtain ⟨hcounts, -⟩ := countUpset_fresh hfresh cause
  have hupset : upset (unitId 0 k) cause s = openAttempt (unitId 0 k) (countUpset (unitId 0 k) cause s) := by
    simp [upset, hcounts, beginAttempt, hkind, hunit, hcount, hattempts]
  rw [hupset]
  generalize countUpset (unitId 0 k) cause s = t at *
  have hnow := manages_now hmanaged
  have hrecord := fltUnit_attemptNoted (unitId 0 k) t
  rw [hattempts, hnow] at hrecord
  have hopened : Manages 490 t (openAttempt (unitId 0 k) t) :=
    manages_unitCounts (by decide) hid (manages_setFltUnit (manages_refl hmanaged.1.1) _)
  obtain ⟨scount, sattempts, sstate, stotal⟩ := showCounts_port hk (s := attemptNoted (unitId 0 k) t) (setFltUnit_canonical hmanaged.1.1)
  rw [hrecord] at scount sattempts
  have hwithin (us : Nat) : (attemptNoted (unitId 0 k) t).within us s.now = true := within_now hnow us
  refine ⟨⟨?_, ?_, ?_, ?_, congrArg FltUnit.retrying hrecord, hpends _ hopened.2.2⟩,
    moves_trans hmanaged.1 hopened.1, hopened.2.1.trans hmanaged.2.1, hopened.2.2 ∘ hmanaged.2.2⟩
  · rw [State.unitState, hkind, hunit]
    exact sstate.trans hstate
  · rw [hkind, hunit]
    exact stotal.trans htotal
  · rw [hkind, hunit]
    exact scount.trans (by simp [hupsets, hwithin])
  · rw [hkind, hunit]
    exact sattempts.trans (by simp [hwithin])

end

/-! ### The fields of a display port's registers (R203) -/

/-- `f` is a field of the registers of port `k`, at `place`: its register's offset there times 64, and its LSB. -/
def PortFld (k place : Nat) (f : Fld) : Prop :=
  k < 8 ∧ place < 0x4000 ∧ f.off = 0x310000 + place / 64 + k * 0x100 ∧ f.lsb = place % 64

section
variable {k : Nat} (hk : k < 8)
include hk

theorem portFld_en : PortFld k 0 (F.portCtl_EN k) := ⟨hk, by decide, rfl, rfl⟩
theorem portFld_ctlPipe : PortFld k 2 (F.portCtl_PIPE k) := ⟨hk, by decide, rfl, rfl⟩
theorem portFld_lanes : PortFld k 5 (F.portCtl_LANES k) := ⟨hk, by decide, rfl, rfl⟩
theorem portFld_ctlRate : PortFld k 8 (F.portCtl_RATE k) := ⟨hk, by decide, rfl, rfl⟩
theorem portFld_state : PortFld k 0x200 (F.portStatus_STATE k) := ⟨hk, by decide, rfl, rfl⟩
theorem portFld_lanesActive : PortFld k 0x203 (F.portStatus_LANES_ACTIVE k) := ⟨hk, by decide, rfl, rfl⟩
theorem portFld_rate : PortFld k 0x208 (F.portStatus_RATE k) := ⟨hk, by decide, rfl, rfl⟩
theorem portFld_hpd : PortFld k 0x20C (F.portStatus_HPD k) := ⟨hk, by decide, rfl, rfl⟩
theorem portFld_pipe : PortFld k 0x210 (F.portStatus_PIPE k) := ⟨hk, by decide, rfl, rfl⟩

end

section
variable {k place : Nat} {f : Fld} (hf : PortFld k place f)
include hf

theorem portFld_key : f.key % 2 ^ 30 / 64 = 0x310000 + place / 64 + k * 0x100 ∧ f.key % 0x4000 = place := by
  obtain ⟨hk, hplace, hoff, hlsb⟩ := hf
  refine ⟨(Fld.key_offset (by omega) (by omega)).trans hoff, ?_⟩
  unfold Fld.key
  omega

/-- Fields of a port at different places have different keys. -/
theorem portFld_ne {at_ : Nat} {g : Fld} (hg : PortFld k at_ g) (hne : place ≠ at_) : f.key ≠ g.key := by
  obtain ⟨-, hplace⟩ := portFld_key hf
  intro e
  rw [e, (portFld_key hg).2] at hplace
  exact hne hplace.symm

/-- A field of a register outside the ports' has another key. -/
theorem portFld_ne_outside {g : Fld} (hlow : g.off < 0x310000) (hlsb : g.lsb < 64) : g.key ≠ f.key := by
  obtain ⟨hoff, -⟩ := portFld_key hf
  intro e
  rw [← e, Fld.key_offset (by omega) hlsb] at hoff
  omega

theorem portFld_not_manager : managerKey f.key = false := by
  obtain ⟨hoff, -⟩ := portFld_key hf
  obtain ⟨hk, hplace, -, -⟩ := hf
  have hwake : f.key ≠ F.pwrStatus_WAKE_REQ.key := fun e => by
    rw [e] at hoff
    have : F.pwrStatus_WAKE_REQ.key % 2 ^ 30 / 64 = 0x82000 := rfl
    omega
  simp [managerKey, reportKey, deliveryKey, hwake]
  omega

theorem portFld_not_report : reportKey f.key = false := not_report_of_not_manager (portFld_not_manager hf)

end

theorem pipeFld_not_manager {p place : Nat} {f : Fld} (hf : PipeFld p place f) : managerKey f.key = false := by
  obtain ⟨hoff, -⟩ := pipeFld_key hf
  simp only [managerKey, pipeFld_not_report hf, Bool.false_or]
  simp
  omega

/-! ### A port that sends nothing (R195) -/

/-- Port `k` took state `st` and has no lane active; of the register fields, nothing else changed. -/
def PortDowned (k st : Nat) (s t : State) : Prop :=
  t.Canonical ∧ t.rd (F.portStatus_STATE k) = st ∧ t.rd (F.portStatus_LANES_ACTIVE k) = 0 ∧
    (∀ g : Fld, g.key ≠ (F.portStatus_STATE k).key → g.key ≠ (F.portStatus_LANES_ACTIVE k).key → t.rd g = s.rd g) ∧
    t.fault = s.fault

section
variable {k : Nat} (hk : k < 8) {s : State} (h : s.Canonical)
include hk h

theorem portDown_downs {st : Nat} (hst : st < 8) : PortDowned k st s (portDown k st s) := by
  have hstate : (s.wr (F.portStatus_STATE k) st).Canonical := State.wr_canonical h
  refine ⟨portDown_canonical h, ?_, ?_, fun g hg hlanes => ?_, rfl⟩
  · exact (State.rd_wr_other hstate _ _ _ (portFld_ne (portFld_state hk) (portFld_lanesActive hk) (by decide))).trans
      ((State.rd_wr_same h _ _).trans (Nat.mod_eq_of_lt hst))
  · exact rd_clr_same hstate _
  · exact (State.rd_wr_other hstate _ _ _ hlanes).trans (State.rd_wr_other h _ _ _ hg)

theorem portTrain_downs : PortDowned k 1 s (portTrain k s) := by
  obtain ⟨hdown, hrest⟩ := portDown_downs hk h (st := 1) (by decide)
  exact ⟨onPort_canonical hdown, hrest⟩

end

section
variable {k st : Nat} (hk : k < 8) {s t : State} (h : PortDowned k st s t)
include hk h

/-- What is no field of a port's registers stands. -/
theorem portDowned_outside {g : Fld} (hlow : g.off < 0x310000) (hlsb : g.lsb < 64) : t.rd g = s.rd g := by
  obtain ⟨-, -, -, hother, -⟩ := h
  exact hother g (portFld_ne_outside (portFld_state hk) hlow hlsb) (portFld_ne_outside (portFld_lanesActive hk) hlow hlsb)

/-- The port's other fields stand. -/
theorem portDowned_port {place : Nat} {g : Fld} (hg : PortFld k place g) (hstate : place ≠ 0x200) (hlanes : place ≠ 0x203) : t.rd g = s.rd g := by
  obtain ⟨-, -, -, hother, -⟩ := h
  exact hother g (portFld_ne hg (portFld_state hk) hstate) (portFld_ne hg (portFld_lanesActive hk) hlanes)

/-- The fault manager's record of the port's unit stands, and with it what says that it is fresh. -/
theorem portDowned_fresh (hfresh : Fresh (unitId 0 k) s) : Fresh (unitId 0 k) t := by
  obtain ⟨hkind, hunit⟩ := unitId_port hk
  obtain ⟨hstate, htrimmed, hstopped, hupsets, hattempts, hretrying⟩ := hfresh
  have hfault : t.fault = s.fault := h.2.2.2.2
  have hrecord : t.fltUnit (unitId 0 k) = s.fltUnit (unitId 0 k) := by rw [State.fltUnit, hfault]; rfl
  have hpipe : t.rd (F.portCtl_PIPE k) = s.rd (F.portCtl_PIPE k) := portDowned_port hk h (portFld_ctlPipe hk) (by decide) (by decide)
  have htrim : t.rd F.pwrTrimmed_UNIT = s.rd F.pwrTrimmed_UNIT := portDowned_outside hk h (by decide) (by decide)
  have hpower : t.rd F.pwrStatus_STATE = s.rd F.pwrStatus_STATE := portDowned_outside hk h (by decide) (by decide)
  have htest : t.rd F.stStatus_STATE = s.rd F.stStatus_STATE := portDowned_outside hk h (by decide) (by decide)
  refine ⟨?_, ?_, ?_, by rw [hrecord, hupsets], by rw [hrecord, hattempts], by rw [hrecord, hretrying]⟩
  · rw [State.unitState, hkind, hunit] at hstate ⊢
    exact (portDowned_outside hk h (by simp [F.fltU_STATE]; omega) (by simp [F.fltU_STATE])).trans hstate
  · rw [State.trimmedUnit, hkind, hunit] at htrimmed ⊢
    simp only [hpipe, htrim]
    exact htrimmed
  · rw [State.stopped, State.flag_eq htest, hpower, hfault]
    exact hstopped

end

/-- A notification after a first upset leaves what the upset shows. -/
theorem suspected_notify {k : Nat} (hk : k < 8) {s t : State} (hsuspected : Suspected (unitId 0 k) s t) (hmanaged : Manages 490 s t)
    (code a b : Nat) : Suspected (unitId 0 k) s (notify code a b t) := by
  obtain ⟨hstate, htotal, hcount, hattempts, hretrying, hpends⟩ := hsuspected
  obtain ⟨⟨ht, hrd⟩, -, -⟩ := hmanaged
  obtain ⟨hkind, hunit⟩ := unitId_port hk
  have hkept {f : Fld} (hf : f ∈ [F.fltU_STATE 0 k, F.fltU_COUNT60 0 k, F.fltU_ATTEMPTS 0 k, F.fltU_TOTAL 0 k]) :
      (notify code a b t).rd f = t.rd f := (moves_notify (moves_refl ht) code a b).2 f (unitShown_not_report hk hf)
  unfold Suspected
  rw [State.unitState] at hstate ⊢
  rw [hkind, hunit] at hstate htotal hcount hattempts ⊢
  refine ⟨(hkept (by simp)).trans hstate, (hkept (by simp)).trans htotal, (hkept (by simp)).trans hcount, (hkept (by simp)).trans hattempts,
    (congrArg FltUnit.retrying (fltUnit_report (reportRest_notify ht code a b) _)).trans hretrying, ?_⟩
  by_cases hdest : s.rd (F.intcTgt_DEST 490) = 3
  · exact .inr hdest
  · have hstays : StaysPending 490 t := ⟨ht, hpends.resolve_right hdest, by rwa [hrd _ (by decide)]⟩
    exact .inl (staysPending_notify hstays (by decide) code a b).2.1

section
variable {k st : Nat} (hk : k < 8) {s t : State} (h : PortDowned k st s t)
include hk h

/-- An upset of the port's fresh unit that follows, and the report of it. -/
theorem portDowned_upset (hfresh : Fresh (unitId 0 k) s) (cause ev : Nat) : let u := portNotify k ev (upset (unitId 0 k) cause t)
    (u.rd (F.portStatus_STATE k) = st ∧ u.rd (F.portStatus_LANES_ACTIVE k) = 0) ∧ Suspected (unitId 0 k) s u := by
  obtain ⟨hkind, hunit⟩ := unitId_port hk
  have hdown := h
  obtain ⟨ht, hstate, hlanes, -, -⟩ := hdown
  obtain ⟨hsuspected, hmanaged⟩ := upset_suspects hk ht (portDowned_fresh hk h hfresh) cause
  have hrd {place : Nat} {f : Fld} (hf : PortFld k place f) : (portNotify k ev (upset (unitId 0 k) cause t)).rd f = t.rd f :=
    ((moves_notify (moves_refl hmanaged.1.1) _ _ _).2 f (portFld_not_report hf)).trans (hmanaged.1.2 f (portFld_not_manager hf))
  obtain ⟨hsuspect, htotal, hrest⟩ := suspected_notify hk hsuspected hmanaged 0x8001 (Config.dpLinkTag k ev) 0
  obtain ⟨hcount, hattempts, hretrying, hpends⟩ := hrest
  refine ⟨⟨(hrd (portFld_state hk)).trans hstate, (hrd (portFld_lanesActive hk)).trans hlanes⟩, hsuspect, ?_, hcount, hattempts, hretrying, ?_⟩
  · rw [hkind, hunit] at htotal ⊢
    rw [Counted, ← portDowned_outside hk h (by simp [F.fltU_TOTAL]; omega) (by simp [F.fltU_TOTAL])]
    exact htotal
  · rw [Pends, ← portDowned_outside hk h (by simp [F.intcTgt_DEST]) (by simp [F.intcTgt_DEST])]
    exact hpends

end

/-! ### Hot-plug (R195) -/

/-- Fields that no write of HPD or of the beam's dot changes. -/
def HpdOnly (k : Nat) (s t : State) : Prop :=
  t.Canonical ∧ ∀ g : Fld, g.key ≠ (F.portStatus_HPD k).key → g.key ≠ F.beamNow_DOT.key → t.rd g = s.rd g

section
variable (k : Nat) {s : State} (h : s.Canonical)
include h

theorem hpdRise_only (dot : Nat) : HpdOnly k s ((s.atDot dot).set1 (F.portStatus_HPD k)) := by
  refine ⟨State.set1_canonical (State.atDot_canonical h), fun g hhpd hdot => ?_⟩
  refine (State.rd_wr_other (State.atDot_canonical h) _ _ _ hhpd).trans ?_
  unfold State.atDot
  split
  · exact State.rd_wr_other h _ _ _ hdot
  · rfl

theorem hpdFall_only : HpdOnly k s (s.clr (F.portStatus_HPD k)) :=
  ⟨State.clr_canonical h, fun _ hhpd _ => State.rd_wr_other h _ _ _ hhpd⟩

end

section
variable {k : Nat} (hk : k < 8) {s t : State} (h : HpdOnly k s t)
include hk h

/-- What is not in a port's status nor of the beam stands. -/
theorem hpdOnly_outside {g : Fld} (hlow : g.off < 0x310000) (hlsb : g.lsb < 64) (hbeam : g.off ≠ 0x200008) : t.rd g = s.rd g := by
  refine h.2 g (portFld_ne_outside (portFld_hpd hk) hlow hlsb) fun e => hbeam ?_
  rw [← Fld.key_offset (by omega) hlsb, e]
  rfl

theorem hpdOnly_port {place : Nat} {g : Fld} (hg : PortFld k place g) (hhpd : place ≠ 0x20C) : t.rd g = s.rd g :=
  h.2 g (portFld_ne hg (portFld_hpd hk) hhpd) (portFld_ne_outside hg (by decide) (by decide)).symm

/-- A lane of the port is as it was. -/
theorem hpdOnly_lane {l : Nat} (hl : l < 4) : t.unitState (unitId 1 (2 * k + l)) = s.unitState (unitId 1 (2 * k + l)) :=
  hpdOnly_outside hk h (by simp [F.fltU_STATE, unitId]; omega) (by simp [F.fltU_STATE]) (by simp [F.fltU_STATE, unitId]; omega)

/-- So are the lanes that the port trains on. -/
theorem hpdOnly_portLanes : t.portLanes k = s.portLanes k := by
  have hall (f : Nat → Bool) : (List.range 4).all f = (f 0 && (f 1 && (f 2 && (f 3 && true)))) := rfl
  have hpipe : t.rd (F.portCtl_PIPE k) = s.rd (F.portCtl_PIPE k) := hpdOnly_port hk h (portFld_ctlPipe hk) (by decide)
  have hwidth : t.portWidth k = s.portWidth k := by rw [State.portWidth, State.portWidth, hpdOnly_port hk h (portFld_lanes hk) (by decide)]
  have hrate : t.rd (F.portCtl_RATE k) = s.rd (F.portCtl_RATE k) := hpdOnly_port hk h (portFld_ctlRate hk) (by decide)
  have hp : s.rd (F.portCtl_PIPE k) < 8 := State.rd_lt s _
  have hlock : t.flag (F.lockCtl_EN (s.rd (F.portCtl_PIPE k))) = s.flag (F.lockCtl_EN (s.rd (F.portCtl_PIPE k))) :=
    State.flag_eq (hpdOnly_outside hk h (by simp [F.lockCtl_EN]; omega) (by simp [F.lockCtl_EN]) (by simp [F.lockCtl_EN]; omega))
  have hslew : t.rd (F.lockCtl_SLEW (s.rd (F.portCtl_PIPE k))) = s.rd (F.lockCtl_SLEW (s.rd (F.portCtl_PIPE k))) :=
    hpdOnly_outside hk h (by simp [F.lockCtl_SLEW]; omega) (by simp [F.lockCtl_SLEW]) (by simp [F.lockCtl_SLEW]; omega)
  have hfreq : t.rd (F.pipeFreq_HZ (s.rd (F.portCtl_PIPE k))) = s.rd (F.pipeFreq_HZ (s.rd (F.portCtl_PIPE k))) :=
    hpdOnly_outside hk h (by simp [F.pipeFreq_HZ]; omega) (by simp [F.pipeFreq_HZ]) (by simp [F.pipeFreq_HZ]; omega)
  have hdepth : t.rd (F.pipeCtl_DEPTH (s.rd (F.portCtl_PIPE k))) = s.rd (F.pipeCtl_DEPTH (s.rd (F.portCtl_PIPE k))) :=
    hpdOnly_outside hk h (by simp [F.pipeCtl_DEPTH]; omega) (by simp [F.pipeCtl_DEPTH]) (by simp [F.pipeCtl_DEPTH]; omega)
  simp only [State.portLanes, hall, hpipe, hwidth, hrate, hlock, hslew, hfreq, hdepth, hpdOnly_lane hk h (show 0 < 4 by decide),
    hpdOnly_lane hk h (show 1 < 4 by decide), hpdOnly_lane hk h (show 2 < 4 by decide), hpdOnly_lane hk h (show 3 < 4 by decide)]

end

/-- The report of an event leaves the ports' registers. -/
theorem portNotify_rd {k ev : Nat} {s : State} (h : s.Canonical) {g : Fld} (hg : reportKey g.key = false) :
    (portNotify k ev s).rd g = s.rd g := (moves_notify (moves_refl h) _ _ _).2 g hg

section
variable {k : Fin 8} {s : State} (h : s.Canonical)
include h

/-- A rise of HPD trains an enabled port that has lanes in service. -/
theorem portHpdRise_trains (dot : Nat) (hon : s.rd (F.portCtl_EN k.val) = 1) (hunit : s.unitState (unitId 0 k.val) ≠ 2)
    (hlanes : s.portLanes k.val ≠ 0) : Leads (.portHpdRise k dot) s fun t =>
      (t.rd (F.portStatus_STATE k.val) = 1 ∧ t.rd (F.portStatus_LANES_ACTIVE k.val) = 0) ∧ t.rd (F.portStatus_HPD k.val) = 1 := by
  have hk := k.isLt
  have honly := hpdRise_only k.val h dot
  have hhpd : ((s.atDot dot).set1 (F.portStatus_HPD k.val)).rd (F.portStatus_HPD k.val) = 1 :=
    State.rd_wr_same (State.atDot_canonical h) _ _
  refine ⟨_, rfl, ?_⟩
  generalize (s.atDot dot).set1 (F.portStatus_HPD k.val) = u at honly hhpd
  have hen : u.flag (F.portCtl_EN k.val) = true := by
    rw [State.flag, hpdOnly_port hk honly (portFld_en hk) (by decide), hon]
    rfl
  have hstart : portStart k.val u = portTrain k.val (onPort k.val (fun r => { r with hpdStamp := u.now }) u) := by
    have hkept : u.unitState (unitId 0 k.val) = s.unitState (unitId 0 k.val) :=
      hpdOnly_outside hk honly (by simp [F.fltU_STATE, unitId]; omega) (by simp [F.fltU_STATE]) (by simp [F.fltU_STATE, unitId]; omega)
    have hflag : u.flag (F.portStatus_HPD k.val) = true := by rw [State.flag, hhpd]; rfl
    rw [portStart, hkept, hpdOnly_portLanes hk honly, if_neg (by simp [hunit, hlanes]), if_pos hflag]
  rw [if_pos hen, hstart]
  have hdown := portTrain_downs hk (onPort_canonical (x0 := k.val) (x1 := fun r => { r with hpdStamp := u.now }) honly.1)
  have hrd {place : Nat} {f : Fld} (hf : PortFld k.val place f) := portNotify_rd (k := k.val) (ev := 0) hdown.1 (portFld_not_report hf)
  refine ⟨⟨(hrd (portFld_state hk)).trans hdown.2.1, (hrd (portFld_lanesActive hk)).trans hdown.2.2.1⟩, (hrd (portFld_hpd hk)).trans ?_⟩
  exact (portDowned_port hk hdown (portFld_hpd hk) (by decide) (by decide)).trans hhpd

/-- A fall of HPD leaves an enabled port without a sink. -/
theorem portHpdFall_stops (hon : s.rd (F.portCtl_EN k.val) = 1) : Leads (.portHpdFall k) s fun t =>
    (t.rd (F.portStatus_STATE k.val) = 5 ∧ t.rd (F.portStatus_LANES_ACTIVE k.val) = 0) ∧ t.rd (F.portStatus_HPD k.val) = 0 := by
  have hk := k.isLt
  have honly := hpdFall_only k.val h
  have hhpd := rd_clr_same h (F.portStatus_HPD k.val)
  refine ⟨_, rfl, ?_⟩
  generalize s.clr (F.portStatus_HPD k.val) = u at honly hhpd
  have hen : u.flag (F.portCtl_EN k.val) = true := by
    rw [State.flag, hpdOnly_port hk honly (portFld_en hk) (by decide), hon]
    rfl
  rw [if_pos hen]
  have hdown := portDown_downs hk honly.1 (st := 5) (by decide)
  have hrd {place : Nat} {f : Fld} (hf : PortFld k.val place f) := portNotify_rd (k := k.val) (ev := 1) hdown.1 (portFld_not_report hf)
  refine ⟨⟨(hrd (portFld_state hk)).trans hdown.2.1, (hrd (portFld_lanesActive hk)).trans hdown.2.2.1⟩, (hrd (portFld_hpd hk)).trans ?_⟩
  exact (portDowned_port hk hdown (portFld_hpd hk) (by decide) (by decide)).trans hhpd

/-- On a port that is disabled, the event is reported and HPD shows the level. -/
theorem portHpd_disabled (hoff : s.rd (F.portCtl_EN k.val) ≠ 1) (dot : Nat) :
    Leads (.portHpdRise k dot) s (fun t => t.rd (F.portStatus_HPD k.val) = 1 ∧ ReportedOnly [F.portStatus_HPD k.val, F.beamNow_DOT] s t) ∧
      Leads (.portHpdFall k) s (fun t => t.rd (F.portStatus_HPD k.val) = 0 ∧ ReportedOnly [F.portStatus_HPD k.val] s t) := by
  have hk := k.isLt
  have hlt : s.rd (F.portCtl_EN k.val) < 2 := State.rd_lt s _
  have hzero : s.rd (F.portCtl_EN k.val) = 0 := by omega
  have hen {u : State} (hu : HpdOnly k.val s u) : u.flag (F.portCtl_EN k.val) = false := by
    rw [State.flag, hpdOnly_port hk hu (portFld_en hk) (by decide), hzero]
    rfl
  have hrise := hpdRise_only k.val h dot
  have hfall := hpdFall_only k.val h
  refine ⟨⟨_, rfl, ?_⟩, ⟨_, rfl, ?_⟩⟩
  · rw [hen hrise]
    refine ⟨(portNotify_rd hrise.1 (portFld_not_report (portFld_hpd hk))).trans (State.rd_wr_same (State.atDot_canonical h) _ _), fun g hg hfs => ?_⟩
    simp only [List.forall_mem_cons, List.not_mem_nil, false_implies, implies_true, and_true] at hfs
    exact (portNotify_rd hrise.1 hg).trans (hrise.2 g hfs.1 hfs.2)
  · rw [hen hfall]
    refine ⟨(portNotify_rd hfall.1 (portFld_not_report (portFld_hpd hk))).trans (rd_clr_same h _), fun g hg hfs => ?_⟩
    exact (portNotify_rd hfall.1 hg).trans (State.rd_wr_other h _ _ _ (hfs _ (by simp)))

end

/-! ### The end of a training (R195, R559) -/

/-- A port trains on four lanes at most. -/
theorem portLanes_le (s : State) (k : Nat) : s.portLanes k ≤ 4 := by
  have hwidest {a b c : Prop} [Decidable a] [Decidable b] [Decidable c] : (if a then 4 else if b then 2 else if c then 1 else 0 : Nat) ≤ 4 := by
    split_ifs <;> decide
  have hbound {c : Prop} [Decidable c] {n : Nat} (hn : n ≤ 4) : (if c then n else 0) ≤ 4 := by
    split
    · exact hn
    · exact Nat.zero_le 4
  exact hbound hwidest

/-- What the attempts of the port's unit and of its lanes leave when they end well. -/
theorem attemptsDone_manages {k : Nat} (hk : k < 8) {s : State} (h : s.Canonical) :
    let t := endAttempt (unitId 0 k) true s
    Manages 0 s (t.forL (t.laneUnits k) fun u s => endAttempt u true s) ∧ (t.forL (t.laneUnits k) fun u s => endAttempt u true s).ports = s.ports := by
  have hports (id : Nat) (u : State) : (endAttempt id true u).ports = u.ports := by
    unfold endAttempt
    dsimp only
    split
    · rfl
    · rfl
  have hport : Manages 0 s (endAttempt (unitId 0 k) true s) :=
    manages_attemptDone (by decide) (by unfold unitId; omega) (manages_refl h)
  have hlane (id : Nat) (hid : id ∈ (endAttempt (unitId 0 k) true s).laneUnits k) : id < 0xA00 := by
    have hlanes := portLanes_le (endAttempt (unitId 0 k) true s) k
    simp only [State.laneUnits, List.mem_filter, List.mem_map, List.mem_range] at hid
    obtain ⟨⟨l, hl, rfl⟩, -⟩ := hid
    unfold unitId
    omega
  have hloop (l : List Nat) (hl : ∀ id ∈ l, id < 0xA00) (u : State) (hu : Manages 0 s u ∧ u.ports = s.ports) :
      Manages 0 s (u.forL l fun id s => endAttempt id true s) ∧ (u.forL l fun id s => endAttempt id true s).ports = s.ports := by
    induction l generalizing u with
    | nil => exact hu
    | cons id l ih =>
      exact ih (fun j hj => hl j (by simp [hj])) _ ⟨manages_attemptDone (by decide) (hl id (by simp)) hu.1, (hports id u).trans hu.2⟩
  exact hloop _ hlane _ ⟨hport, hports _ s⟩

/-- The registers of a port that is trained. -/
def trainedRegs (k : Nat) (s : State) : State :=
  ((s.wr (F.portStatus_LANES_ACTIVE k) (s.portLanes k)).wr (F.portStatus_RATE k) (s.rd (F.portCtl_RATE k))).wr (F.portStatus_STATE k) 3

/-- A port that is trained, with its lanes. -/
def trained (k : Nat) (s : State) : State :=
  onPort k (fun r => { r with lanes := (List.range ((trainedRegs k s).portLanes k)).map ((trainedRegs k s).laneOf k ((trainedRegs k s).portLanes k)) }) (trainedRegs k s)

theorem trained_rd (k : Nat) (s : State) (g : Fld) : (trained k s).rd g = (trainedRegs k s).rd g := by
  rw [trained, onPort_rd]

theorem trained_route (k : Nat) (s : State) : ((trained k s).port k).route = (s.port k).route := by
  have hports : (trained k s).ports = s.ports.modify k fun r =>
      { r with lanes := (List.range ((trainedRegs k s).portLanes k)).map ((trainedRegs k s).laneOf k ((trainedRegs k s).portLanes k)) } := rfl
  rw [State.port, hports]
  generalize (List.range ((trainedRegs k s).portLanes k)).map ((trainedRegs k s).laneOf k ((trainedRegs k s).portLanes k)) = lanes
  by_cases hlen : k < s.ports.length
  · simp [State.port, hlen]
  · simp [State.port, hlen]

/-- A port that takes state 3 sends its pipe's lines where it has a route to a pipe that is on, else the idle pattern. -/
theorem portSends_shows {k : Nat} {s : State} (h : s.Canonical) (hstate : s.rd (F.portStatus_STATE k) = 3) :
    (portSends k s).Canonical ∧ (portSends k s).rd (F.portStatus_STATE k) =
      (if (s.port k).route ≠ 2 ∧ 2 ≤ s.rd (F.pipeStatus_STATE (s.rd (F.portStatus_PIPE k))) then 2 else 3) ∧
    ∀ g : Fld, g.key ≠ (F.portStatus_STATE k).key → (portSends k s).rd g = s.rd g := by
  have hlt : s.rd (F.pipeStatus_STATE (s.rd (F.portStatus_PIPE k))) < 4 := State.rd_lt s _
  have hon : ((s.port k).route != 2 && (s.rd (F.pipeStatus_STATE (s.rd (F.portStatus_PIPE k))) == 2 ||
      s.rd (F.pipeStatus_STATE (s.rd (F.portStatus_PIPE k))) == 3)) =
      decide ((s.port k).route ≠ 2 ∧ 2 ≤ s.rd (F.pipeStatus_STATE (s.rd (F.portStatus_PIPE k)))) := by
    rw [Bool.eq_iff_iff]
    simp only [Bool.and_eq_true, Bool.or_eq_true, bne_iff_ne, beq_iff_eq, decide_eq_true_eq]
    omega
  rw [portSends, if_pos (.inr hstate)]
  dsimp only
  rw [hon]
  refine ⟨onPort_canonical (State.wr_canonical h), ?_, fun g hg => State.rd_wr_other h _ _ _ hg⟩
  refine (State.rd_wr_same h _ _).trans ?_
  simp only [decide_eq_true_eq]
  split <;> rfl

section
variable {k : Nat} (hk : k < 8) {s : State} (h : s.Canonical)
include hk h

theorem trained_shows : (trained k s).Canonical ∧ (trained k s).rd (F.portStatus_LANES_ACTIVE k) = s.portLanes k ∧
    (trained k s).rd (F.portStatus_RATE k) = s.rd (F.portCtl_RATE k) ∧ (trained k s).rd (F.portStatus_STATE k) = 3 ∧
    (∀ g : Fld, g.key ≠ (F.portStatus_LANES_ACTIVE k).key → g.key ≠ (F.portStatus_RATE k).key → g.key ≠ (F.portStatus_STATE k).key →
      (trained k s).rd g = s.rd g) := by
  have hlanes := State.wr_canonical (x1 := F.portStatus_LANES_ACTIVE k) (x2 := s.portLanes k) h
  have hrate := State.wr_canonical (x1 := F.portStatus_RATE k) (x2 := s.rd (F.portCtl_RATE k)) hlanes
  have hregs : (trainedRegs k s).Canonical := State.wr_canonical hrate
  simp only [trained_rd]
  refine ⟨onPort_canonical hregs, ?_, ?_, State.rd_wr_same hrate _ _, fun g hl hr hs => ?_⟩
  · have hfour : s.portLanes k < 2 ^ 3 := lt_of_le_of_lt (portLanes_le s k) (by decide)
    exact (State.rd_wr_other hrate _ _ _ (portFld_ne (portFld_lanesActive hk) (portFld_state hk) (by decide))).trans
      ((State.rd_wr_other hlanes _ _ _ (portFld_ne (portFld_lanesActive hk) (portFld_rate hk) (by decide))).trans
        ((State.rd_wr_same h _ _).trans (Nat.mod_eq_of_lt hfour)))
  · exact (State.rd_wr_other hrate _ _ _ (portFld_ne (portFld_rate hk) (portFld_state hk) (by decide))).trans
      ((State.rd_wr_same hlanes _ _).trans (Nat.mod_eq_of_lt (State.rd_lt s (F.portCtl_RATE k))))
  · exact (State.rd_wr_other hrate _ _ _ hs).trans ((State.rd_wr_other hlanes _ _ _ hr).trans (State.rd_wr_other h _ _ _ hl))

end

section
variable {k : Fin 8} {s : State} (h : s.Canonical)
include h

/-- A training that is done shows the lanes in service and the rate, and the port sends. -/
theorem portTrainingDone_sends (hstate : s.rd (F.portStatus_STATE k.val) = 1) : Leads (.portTrainingDone k) s fun t =>
    t.rd (F.portStatus_LANES_ACTIVE k.val) = s.portLanes k.val ∧ t.rd (F.portStatus_RATE k.val) = s.rd (F.portCtl_RATE k.val) ∧
    t.rd (F.portStatus_STATE k.val) = (if (s.port k.val).route ≠ 2 ∧
      2 ≤ s.rd (F.pipeStatus_STATE (s.rd (F.portStatus_PIPE k.val))) then 2 else 3) := by
  have hk := k.isLt
  have htrains : s.portTrains k.val = true := by simp [State.portTrains, hstate]
  obtain ⟨htrained, hlanes, hrate, hready, hother⟩ := trained_shows hk h
  obtain ⟨⟨⟨hdone, hmoves⟩, -, -⟩, hports⟩ := attemptsDone_manages hk htrained
  have hexec : exec (.portTrainingDone k) s = .next (portNotify k.val 2 (portSends k.val ((endAttempt (unitId 0 k.val) true (trained k.val s)).forL
      ((endAttempt (unitId 0 k.val) true (trained k.val s)).laneUnits k.val) fun u s => endAttempt u true s))) := by
    change execPortTrainingDone k s = _
    unfold execPortTrainingDone trained trainedRegs
    dsimp only
    rw [htrains, Bool.not_true, if_neg Bool.false_ne_true]
  refine ⟨_, hexec, ?_⟩
  generalize (endAttempt (unitId 0 k.val) true (trained k.val s)).forL
    ((endAttempt (unitId 0 k.val) true (trained k.val s)).laneUnits k.val) (fun u s => endAttempt u true s) = u at hdone hmoves hports ⊢
  have hkept {place : Nat} {f : Fld} (hf : PortFld k.val place f) : u.rd f = (trained k.val s).rd f := hmoves f (portFld_not_manager hf)
  have hroute : (u.port k.val).route = (s.port k.val).route := by
    rw [State.port, hports]
    exact trained_route k.val s
  have hpipe : u.rd (F.portStatus_PIPE k.val) = s.rd (F.portStatus_PIPE k.val) :=
    (hkept (portFld_pipe hk)).trans (hother _ (portFld_ne (portFld_pipe hk) (portFld_lanesActive hk) (by decide))
      (portFld_ne (portFld_pipe hk) (portFld_rate hk) (by decide)) (portFld_ne (portFld_pipe hk) (portFld_state hk) (by decide)))
  have hscan : u.rd (F.pipeStatus_STATE (s.rd (F.portStatus_PIPE k.val))) = s.rd (F.pipeStatus_STATE (s.rd (F.portStatus_PIPE k.val))) := by
    have hp : s.rd (F.portStatus_PIPE k.val) < 8 := State.rd_lt s _
    have hlow : (F.pipeStatus_STATE (s.rd (F.portStatus_PIPE k.val))).off < 0x310000 := by simp only [F.pipeStatus_STATE]; omega
    have hne {place : Nat} {g : Fld} (hg : PortFld k.val place g) := portFld_ne_outside hg hlow (by simp [F.pipeStatus_STATE])
    exact (hmoves _ (pipeFld_not_manager (pipeFld_state hp))).trans (hother _ (hne (portFld_lanesActive hk)) (hne (portFld_rate hk)) (hne (portFld_state hk)))
  obtain ⟨hsends, hshown, hrest⟩ := portSends_shows hdone ((hkept (portFld_state hk)).trans hready)
  have hrd {place : Nat} {f : Fld} (hf : PortFld k.val place f) := portNotify_rd (k := k.val) (ev := 2) hsends (portFld_not_report hf)
  refine ⟨?_, ?_, ?_⟩
  · exact (hrd (portFld_lanesActive hk)).trans ((hrest _ (portFld_ne (portFld_lanesActive hk) (portFld_state hk) (by decide))).trans
      ((hkept (portFld_lanesActive hk)).trans hlanes))
  · exact (hrd (portFld_rate hk)).trans ((hrest _ (portFld_ne (portFld_rate hk) (portFld_state hk) (by decide))).trans
      ((hkept (portFld_rate hk)).trans hrate))
  · rw [hrd (portFld_state hk), hshown, hroute, hpipe, hscan]

/-- A training that times out leaves the port LOST, and is an upset of its unit. -/
theorem portTrainingTimeout_lost (hstate : s.rd (F.portStatus_STATE k.val) = 1) (hfresh : Fresh (unitId 0 k.val) s) :
    Leads (.portTrainingTimeout k) s fun t =>
      (t.rd (F.portStatus_STATE k.val) = 4 ∧ t.rd (F.portStatus_LANES_ACTIVE k.val) = 0) ∧ Suspected (unitId 0 k.val) s t := by
  have hdown := portDown_downs k.isLt h (st := 4) (by decide)
  have htrains : s.portTrains k.val = true := by simp [State.portTrains, hstate]
  obtain ⟨-, -, -, -, -, hretrying⟩ := portDowned_fresh k.isLt hdown hfresh
  refine ⟨portNotify k.val 3 (upset (unitId 0 k.val) 1 (portDown k.val 4 s)), ?_, portDowned_upset k.isLt hdown hfresh 1 3⟩
  change execPortTrainingTimeout k s = _
  simp only [execPortTrainingTimeout, htrains, hretrying, Bool.not_true, Bool.false_eq_true, if_false]

/-- A lost link is an upset of the port's unit, and the port trains again. -/
theorem portLinkLoss_trains (hhpd : s.rd (F.portStatus_HPD k.val) = 1)
    (hstate : s.rd (F.portStatus_STATE k.val) = 2 ∨ s.rd (F.portStatus_STATE k.val) = 3) (hfresh : Fresh (unitId 0 k.val) s) :
    Leads (.portLinkLoss k 0) s fun t =>
      (t.rd (F.portStatus_STATE k.val) = 1 ∧ t.rd (F.portStatus_LANES_ACTIVE k.val) = 0) ∧ Suspected (unitId 0 k.val) s t := by
  have hdown := portTrain_downs k.isLt h
  have hnone : (List.range 4).filter (fun l => (0 : BitVec 4).getLsbD l) = [] := by decide
  have hgo : (!s.flag (F.portStatus_HPD k.val) || (s.rd (F.portStatus_STATE k.val) != 2 && s.rd (F.portStatus_STATE k.val) != 3)) = false := by
    rcases hstate with hstate | hstate <;> simp [State.flag, hhpd, hstate]
  refine ⟨portNotify k.val 4 (upset (unitId 0 k.val) 1 (portTrain k.val s)), ?_, portDowned_upset k.isLt hdown hfresh 1 4⟩
  change execPortLinkLoss k 0 s = _
  simp only [execPortLinkLoss, hgo, hnone, List.isEmpty_nil, Bool.false_eq_true, if_false, if_true]

end

end Sys2Proof.Machine

section
open Sys2Proof Sys2Proof.Machine
set_option Elab.async false

/-- Settles O18: a port that trains or goes down writes two fields of its own (`portDown_downs`), HPD and the beam's dot are none of those
that say on which lanes it trains (`hpdOnly_portLanes`), and a first upset leaves its unit SUSPECT (`upset_suspects`). -/
theorem displayPorts : Obligations.DisplayPorts := by
  unfold Obligations.DisplayPorts
  intro s k dot h trains on
  exact ⟨portHpdRise_trains h dot, portHpdFall_stops h, fun hoff => portHpd_disabled h hoff dot,
    fun hstate => ⟨portTrainingDone_sends h hstate, portTrainingTimeout_lost h hstate⟩, portLinkLoss_trains h⟩
end

namespace Sys2Proof.Machine

-- One declaration after another: the memory limit of the check counts the stack of every thread that elaborates beside them.
set_option Elab.async false

/-! ### A part of a store replaced (R131, R184) -/

theorem get_of_mem {β : Type} {l : List (Nat × β)} (h : Sparse.Rising l) {k : Nat} {v : β} (hmem : (k, v) ∈ l) (d : β) :
    Sparse.get k d l = v := by
  induction l with
  | nil => cases hmem
  | cons c l ih =>
    obtain ⟨hc, hl⟩ := List.pairwise_cons.1 h
    unfold Sparse.get
    rcases List.mem_cons.1 hmem with e | htail
    · rw [← e, if_pos rfl]
    · have hlt : c.1 < k := hc _ htail
      rw [if_neg (by omega), if_neg (by omega), ih hl htail]

theorem get_of_unlisted {β : Type} {l : List (Nat × β)} {k : Nat} (h : ∀ c ∈ l, c.1 ≠ k) (d : β) : Sparse.get k d l = d := by
  induction l with
  | nil => rfl
  | cons c l ih =>
    have hc : c.1 ≠ k := h c (by simp)
    unfold Sparse.get
    rw [if_neg (Ne.symm hc), ih fun b hb => h b (by simp [hb])]
    split <;> rfl

/-- Stores that list the same entries under a key read alike there. -/
theorem get_congr {β : Type} {l m : List (Nat × β)} (hl : Sparse.Rising l) (hm : Sparse.Rising m) {k : Nat}
    (h : ∀ v, (k, v) ∈ l ↔ (k, v) ∈ m) (d : β) : Sparse.get k d l = Sparse.get k d m := by
  by_cases hlisted : ∃ v, (k, v) ∈ l
  · obtain ⟨v, hv⟩ := hlisted
    rw [get_of_mem hl hv, get_of_mem hm ((h v).1 hv)]
  · have hunlisted (n : List (Nat × β)) (hn : ∀ v, (k, v) ∉ n) : ∀ c ∈ n, c.1 ≠ k := by
      rintro ⟨j, v⟩ hc rfl
      exact hn v hc
    rw [get_of_unlisted (hunlisted l fun v hv => hlisted ⟨v, hv⟩), get_of_unlisted (hunlisted m fun v hv => hlisted ⟨v, (h v).2 hv⟩)]

section
variable {β : Type} {lo hi k : Nat} {src dst : List (Nat × β)} (hs : Sparse.Rising src) (hd : Sparse.Rising dst)
include hs hd

theorem get_moveRange_inside (hlo : lo ≤ k) (hhi : k < hi) (d : β) : Sparse.get k d (moveRange lo hi src dst) = Sparse.get k d src := by
  refine get_congr (moveRange_rising hs hd) hs (fun v => ?_) d
  simp only [moveRange, List.mem_append, List.mem_filter, decide_eq_true_eq, Bool.and_eq_true]
  constructor
  · rintro ((⟨-, hlt⟩ | ⟨hmem, -⟩) | ⟨-, hge⟩)
    · omega
    · exact hmem
    · omega
  · exact fun hmem => .inl (.inr ⟨hmem, hlo, hhi⟩)

theorem get_moveRange_outside (hout : k < lo ∨ max lo hi ≤ k) (d : β) : Sparse.get k d (moveRange lo hi src dst) = Sparse.get k d dst := by
  refine get_congr (moveRange_rising hs hd) hd (fun v => ?_) d
  simp only [moveRange, List.mem_append, List.mem_filter, decide_eq_true_eq, Bool.and_eq_true]
  constructor
  · rintro ((⟨hmem, -⟩ | ⟨-, hin⟩) | ⟨hmem, -⟩)
    · exact hmem
    · omega
    · exact hmem
  · intro hmem
    rcases hout with hlt | hge
    · exact .inl (.inl ⟨hmem, hlt⟩)
    · exact .inr ⟨hmem, hge⟩

end

/-- A frame-latched field of a register in the range is in force as last written. -/
theorem latchRange_lat {lo hi : Nat} {s : State} (h : s.Canonical) {f : Fld} (hgroup : f.group = 1) (hlsb : f.lsb < 64) (hlo : lo ≤ f.off)
    (hhi : f.off < hi) : (latchRange lo hi s).lat f = s.rd f := by
  have hkey : f.key = 2 ^ 30 + f.off * 64 + f.lsb := by rw [Fld.key, hgroup, Nat.one_mul]
  simp only [State.lat, State.rd, latchRange]
  rw [get_moveRange_inside h.cells (moveRange_rising h.cells h.latched)] <;> simp only [offKey] <;> omega

/-- What the scan-out of a pipe shows: the pipe's fields at these places (PENDING, RESULT and LINE of the commit, LATCH_STAMP, RETIRED, EN,
DITHER, OBJ_ABOVE, STATE, WAITING, LINE, FRAMES). -/
def shownPlaces : List Nat := [0x400, 0x402, 0x410, 0x600, 0x800, 0x10000, 0x10006, 0x10008, 0x18000, 0x18002, 0x18010, 0x18400]

/-- The key of a field that the work for a line or a frame leaves: a source's destination, the beam, the stamp of a frame's start, and what
the pipes show. -/
def frameKey (k : Nat) : Bool :=
  let o := k % 2 ^ 30 / 64
  (0x101000 ≤ o && o < 0x101800) || o == 0x200008 || (0x200100 ≤ o && o < 0x200200 && o % 0x20 == 0x10) ||
    (0x300000 ≤ o && o < 0x310000 && shownPlaces.contains (k % 0x80000))

/-- `f` is neither shown by a pipe's scan-out nor written by an interrupt's delivery. -/
def Work (f : Fld) : Prop := frameKey f.key = false ∧ deliveryKey f.key = false

/-- From `s` to `t`, only the work for a line or a frame was done: what the pipes show stands, and what of their registers is in force; no
pipe was noted to have started a frame or to have latched, and pending sources stay so. -/
def Quiet (s t : State) : Prop :=
  Moves (fun k => !frameKey k) s t ∧
    (∀ f : Fld, 0x300000 ≤ f.key % 2 ^ 30 / 64 → f.key % 2 ^ 30 / 64 < 0x310000 → t.lat f = s.lat f) ∧
    (∀ q, (t.pipe q).raised % 4 = (s.pipe q).raised % 4) ∧ ∀ n, n < 512 → StaysPending n s → StaysPending n t

theorem reportKey_quiet {k : Nat} (h : reportKey k = true) : (!frameKey k) = true := by
  simp only [reportKey, deliveryKey, Bool.or_eq_true, Bool.and_eq_true, decide_eq_true_eq, beq_iff_eq] at h
  rw [Bool.not_eq_true']
  simp only [frameKey, Bool.or_eq_false_iff, Bool.and_eq_false_iff, decide_eq_false_iff_not, beq_eq_false_iff_ne]
  rcases h with ((h | h) | h) | rfl
  · omega
  · omega
  · omega
  · decide

theorem work_not_dest {f : Fld} (h : Work f) {n : Nat} (hn : n < 512) : (F.intcTgt_DEST n).key ≠ f.key := by
  obtain ⟨hframe, -⟩ := h
  intro e
  have hoff : (F.intcTgt_DEST n).key % 2 ^ 30 / 64 = 0x101000 + n * 4 :=
    Fld.key_offset (by simp only [F.intcTgt_DEST]; omega) (by decide : 0 < 64)
  rw [← e, frameKey, hoff] at hframe
  simp at hframe
  omega

theorem work_not_pend {f : Fld} (h : Work f) {n : Nat} (hn : n < 512) : f.key ≠ (F.intcPendSet_SRC (n / 32)).key := by
  obtain ⟨-, hdelivery⟩ := h
  intro e
  rw [e, deliveryKey_pend (by omega)] at hdelivery
  cases hdelivery

/-- A field of a register beyond those of the pipes. -/
theorem work_beyond {f : Fld} (hlow : 0x310000 ≤ f.off) (hhigh : f.off < 2 ^ 24) (hlsb : f.lsb < 64) : Work f := by
  have hoff := Fld.key_offset hhigh hlsb
  constructor
  · rw [frameKey, hoff]
    simp
    omega
  · rw [deliveryKey, hoff]
    simp
    omega

/-- A field of a pipe that its scan-out does not show. -/
theorem work_pipe {p place : Nat} {f : Fld} (hf : PipeFld p place f) (hplace : shownPlaces.contains place = false) : Work f := by
  obtain ⟨hoff, hkey⟩ := pipeFld_key hf
  refine ⟨?_, pipeFld_not_delivery hf⟩
  rw [frameKey, hkey, hplace]
  simp
  omega

theorem quiet_refl {s : State} (h : s.Canonical) : Quiet s s := ⟨moves_refl h, fun _ _ _ => rfl, fun _ => rfl, fun _ _ => id⟩

theorem quiet_trans {s t u : State} (h : Quiet s t) (k : Quiet t u) : Quiet s u := by
  obtain ⟨hmoves, hlat, hraised, hpend⟩ := h
  obtain ⟨kmoves, klat, kraised, kpend⟩ := k
  exact ⟨moves_trans hmoves kmoves, fun f h1 h2 => (klat f h1 h2).trans (hlat f h1 h2), fun q => (kraised q).trans (hraised q),
    fun n hn hs => kpend n hn (hpend n hn hs)⟩

/-- A field of what the pipes show stands. -/
theorem quiet_rd {s t : State} (h : Quiet s t) {g : Fld} (hg : frameKey g.key = true) : t.rd g = s.rd g :=
  h.1.2 g (by simp [hg])

theorem quiet_ite {c : Prop} [Decidable c] {s t u : State} (ht : Quiet s t) (hu : Quiet s u) : Quiet s (if c then t else u) := by
  split
  · exact ht
  · exact hu

/-- A change beside the registers, their values in force and the pipes' own states. -/
theorem quiet_beside {s t u : State} (h : Quiet s t) (hu : u.Canonical) (hcells : u.cells = t.cells := by rfl)
    (hlatched : u.latched = t.latched := by rfl) (hpipes : u.pipes = t.pipes := by rfl) : Quiet s u := by
  obtain ⟨hmoves, hlat, hraised, hpend⟩ := h
  refine ⟨moves_cells hmoves hu hcells, fun f h1 h2 => ?_, fun q => ?_, fun n hn hs => staysPending_cells (hpend n hn hs) hu hcells⟩
  · rw [State.lat, hlatched]
    exact hlat f h1 h2
  · rw [State.pipe, hpipes]
    exact hraised q

section
variable {s t : State} (h : Quiet s t)
include h

theorem quiet_wr {f : Fld} (hf : Work f) (v : Nat) : Quiet s (t.wr f v) := by
  obtain ⟨hmoves, hlat, hraised, hpend⟩ := h
  refine ⟨moves_wr hmoves (by rw [hf.1]; rfl), hlat, hraised, fun n hn hs => ?_⟩
  exact staysPending_wr_beside (hpend n hn hs) v (work_not_pend hf hn) (work_not_dest hf hn)

theorem quiet_iff {c : Bool} {f : State → State} (hf : ∀ u, Quiet s u → Quiet s (f u)) : Quiet s (t.iff c f) := quiet_ite (hf t h) h

theorem quiet_forL {α : Type} {l : List α} {f : α → State → State} (hf : ∀ a ∈ l, ∀ u, Quiet s u → Quiet s (f a u)) :
    Quiet s (t.forL l f) := by
  induction l generalizing t with
  | nil => exact h
  | cons a l ih => exact ih (hf a (by simp) t h) fun b hb => hf b (by simp [hb])

theorem quiet_forN {n : Nat} {f : Nat → State → State} (hf : ∀ i, i < n → ∀ u, Quiet s u → Quiet s (f i u)) : Quiet s (t.forN n f) :=
  quiet_forL h fun i hi => hf i (List.mem_range.1 hi)

theorem quiet_foldl {α : Type} {l : List α} {f : State → α → State} (hf : ∀ u a, Quiet s u → Quiet s (f u a)) : Quiet s (l.foldl f t) := by
  induction l generalizing t with
  | nil => exact h
  | cons a l ih => exact ih (hf t a h)

/-- A report changes no pipe and no value in force. -/
theorem quiet_report {u : State} (hmoves : Moves reportKey t u) (hrest : ReportRest t u)
    (hpend : ∀ n, n < 512 → StaysPending n t → StaysPending n u) : Quiet s u := by
  refine quiet_trans h ⟨moves_mono hmoves fun _ => reportKey_quiet, fun f _ _ => ?_, fun q => ?_, hpend⟩
  · rw [hrest]
    rfl
  · rw [hrest]
    rfl

theorem quiet_raise (n : Nat) : Quiet s (raise n t) :=
  quiet_report h (moves_raise_report (moves_refl h.1.1) n) (reportRest_raise h.1.1 n) fun _ hn hs => staysPending_raise hs hn n

theorem quiet_logEvent (code sev a b : Nat) : Quiet s (logEvent code sev a b t) :=
  quiet_report h (moves_logEvent (moves_refl h.1.1) code sev a b) (reportRest_logEvent h.1.1 code sev a b)
    fun _ hn hs => staysPending_logEvent hs hn code sev a b

/-- A change of a pipe's own state that leaves whether it noted its frame's start and its latch. -/
theorem quiet_onPipe (p : Nat) {f : PipeRun → PipeRun} (hf : ∀ r, (f r).raised % 4 = r.raised % 4 := by exact fun _ => rfl) :
    Quiet s (onPipe p f t) := by
  obtain ⟨hmoves, hlat, hraised, hpend⟩ := h
  refine ⟨moves_cells hmoves (onPipe_canonical hmoves.1) rfl, hlat, fun q => ?_,
    fun n hn hs => staysPending_cells (hpend n hn hs) (onPipe_canonical hmoves.1) rfl⟩
  exact (onPipe_proj (g := fun r => r.raised % 4) hf p q t).trans (hraised q)

theorem quiet_pipeRaise (p : Nat) {i : Nat} (hi : 2 ≤ i) : Quiet s (pipeRaise p i t) := by
  have hmask (r : PipeRun) : (r.raised ||| 2 ^ i) % 4 = r.raised % 4 := by
    have hzero : 2 ^ i % 2 ^ 2 = 0 := Nat.mod_eq_zero_of_dvd (Nat.pow_dvd_pow 2 hi)
    rw [show 4 = 2 ^ 2 from rfl, Nat.or_mod_two_pow, hzero, Nat.or_zero]
  unfold pipeRaise
  exact quiet_ite h (quiet_raise (quiet_onPipe h p hmask) _)

/-- Registers beyond the pipes' latch. -/
theorem quiet_latchRange {lo hi : Nat} (hlo : 0x310000 ≤ lo) (hhi : hi < 2 ^ 24) : Quiet s (latchRange lo hi t) := by
  have hcanonical := latchRange_canonical (x0 := lo) (x1 := hi) h.1.1
  have ht := h.1.1
  obtain ⟨hmoves, hlat, hraised, hpend⟩ := h
  refine ⟨moves_cells hmoves hcanonical rfl, fun f h1 h2 => ?_, hraised, fun n hn hs => staysPending_cells (hpend n hn hs) hcanonical rfl⟩
  rw [← hlat f h1 h2]
  have hout (g : Nat) (hg : f.key / 2 ^ 30 = g ∨ ¬ f.key / 2 ^ 30 = g) : f.key < offKey g lo ∨ max (offKey g lo) (offKey g hi) ≤ f.key := by
    unfold offKey
    omega
  simp only [State.lat, latchRange]
  rw [get_moveRange_outside ht.cells (moveRange_rising ht.cells ht.latched) (hout 1 (Decidable.em _)),
    get_moveRange_outside ht.cells ht.latched (hout 0 (Decidable.em _))]

end

/-! ### The units' own states, beside the registers -/

section
variable {s t : State} (h : Quiet s t)
include h

theorem quiet_onPlane (n : Nat) (f : PlaneRun → PlaneRun) : Quiet s (onPlane n f t) := quiet_beside h (onPlane_canonical h.1.1)
theorem quiet_onHarp (p : Nat) (f : HarpRun → HarpRun) : Quiet s (onHarp p f t) := quiet_beside h (onHarp_canonical h.1.1)
theorem quiet_onRind (p : Nat) (f : RindRun → RindRun) : Quiet s (onRind p f t) := quiet_beside h (onRind_canonical h.1.1)
theorem quiet_onPort (k : Nat) (f : PortRun → PortRun) : Quiet s (onPort k f t) := quiet_beside h (onPort_canonical h.1.1)
theorem quiet_onStream (n : Nat) (f : StreamRun → StreamRun) : Quiet s (onStream n f t) := quiet_beside h (onStream_canonical h.1.1)
theorem quiet_onLink (l : Nat) (f : CascLink → CascLink) : Quiet s (onLink l f t) := quiet_beside h (onLink_canonical h.1.1)
theorem quiet_onCore (k : Nat) (f : CoreRun → CoreRun) : Quiet s (onCore k f t) := quiet_beside h (onCore_canonical h.1.1)
theorem quiet_onLock (n : Nat) (f : LockRun → LockRun) : Quiet s (onLock n f t) := quiet_beside h (onLock_canonical h.1.1)

theorem quiet_onVat {f : VatState → VatState} (hdata : (f t.vat).data = t.vat.data := by rfl) : Quiet s (onVat f t) :=
  quiet_beside h (onVat_canonical h.1.1 hdata)

/-- A change of the writeback of a pipe. -/
theorem quiet_onWb (p : Nat) (f : WbRun → WbRun) : Quiet s (onWb p f t) := quiet_onPipe h p

theorem quiet_fresh : Quiet s t.fresh.2 := quiet_beside h (State.fresh_canonical h.1.1)

theorem quiet_setPrm (p : Prm) (v : Nat) : Quiet s (t.setPrm p v) := quiet_beside h (State.setPrm_canonical h.1.1)

theorem quiet_snapRange (lo hi : Nat) : Quiet s (snapRange lo hi t) := quiet_beside h (snapRange_canonical h.1.1)

end

/-! ### Reads and writes of memory by the scan-out (R26, R71, R83, R90, R96) -/

/-- The bank of an address is one of the 64. -/
theorem vatLoc_lt {s : State} {off k row : Nat} (h : s.vatLoc off = some (k, row)) : k < 64 := by
  unfold State.vatLoc at h
  dsimp only at h
  split at h
  · cases h
  · next hin =>
    simp only [not_or, not_le] at hin
    obtain ⟨hoff, -, -⟩ := hin
    have hgroup : (off / (s.groupSize * 0x400000) + 1) * s.groupSize ≤ 64 := by
      have hlog : min 6 s.vat.groupLog2 ≤ 6 := Nat.min_le_left _ _
      unfold State.groupSize
      generalize min 6 s.vat.groupLog2 = g at hlog
      interval_cases g <;> omega
    have hbanks : ∀ b ∈ s.groupBanks (off / (s.groupSize * 0x400000)), b < 64 := by
      intro b hb
      simp only [State.groupBanks, List.mem_filter, List.mem_map, List.mem_range] at hb
      obtain ⟨⟨i, hi, rfl⟩, -⟩ := hb
      rw [Nat.add_mul] at hgroup
      omega
    rw [Option.some.injEq, Prod.mk.injEq] at h
    obtain ⟨rfl, -⟩ := h
    generalize s.groupBanks (off / (s.groupSize * 0x400000)) = banks at hbanks
    generalize (_ : Nat) % banks.length = i
    by_cases hi : i < banks.length
    · rw [List.getD_eq_getElem _ _ hi]
      exact hbanks _ (List.getElem_mem hi)
    · rw [List.getD_eq_default _ _ (by omega)]
      decide

theorem setBytes_rest (s : State) (a : Nat) (bs : List Byte) : s.setBytes a bs = { s with mem := (s.setBytes a bs).mem } := by
  induction bs generalizing s a with
  | nil => rfl
  | cons b bs ih => exact ih (s.setByte a b) (a + 1)

theorem work_parked {k : Nat} (hk : k < 64) : Work (F.vatBankErr_PARKED k) :=
  work_beyond (by simp only [F.vatBankErr_PARKED]; omega) (by simp only [F.vatBankErr_PARKED]; omega) (by decide : 24 < 64)

section
variable {s t : State} (h : Quiet s t)
include h

theorem quiet_decodeError (who : Initiator) (a : Nat) : Quiet s (decodeError who a t) :=
  quiet_logEvent (quiet_raise (quiet_wr h ⟨by decide, by decide⟩ _) 16) _ _ _ _

theorem quiet_parked {k : Nat} (hk : k < 64) : Quiet s (parked k t) := by
  have hinc : Quiet s (t.inc (F.vatBankErr_PARKED k)) := quiet_wr h (work_parked hk) _
  rw [parked_eq]
  exact quiet_ite hinc (quiet_raise (quiet_onVat hinc) 454)

theorem quiet_poisonSeen (k row w : Nat) : Quiet s (poisonSeen k row w t) := by
  rw [poisonSeen_eq]
  exact quiet_ite h (quiet_logEvent (quiet_raise (quiet_onVat h) 453) _ _ _ _)

theorem quiet_lineRead (who : Initiator) (base off n : Nat) : Quiet s (lineRead who base off n .none t).2.2 := by
  have hwords (k row : Nat) (l : List Nat) : Quiet s (l.foldl (fun (acc : State × Bool) (w : Nat) =>
      let (s', p) := readWord k row w .none acc.1
      (if p then poisonSeen k row w s' else s', acc.2 || p)) (t, false)).1 := by
    refine List.foldlRecOn (motive := fun acc : State × Bool => Quiet s acc.1) _ _ h fun acc hacc w _ => ?_
    have hword : Quiet s (readWord k row w .none acc.1).1 := (readWord_none k row w acc.1).symm ▸ hacc
    generalize readWord k row w .none acc.1 = r at hword
    exact quiet_ite (quiet_poisonSeen hword k row w) hword
  unfold lineRead
  split
  · exact quiet_decodeError h _ _
  · next k row hloc =>
    split
    · exact quiet_poisonSeen (quiet_parked h (vatLoc_lt hloc)) k row 0
    · rw [if_neg (by simp)]
      have hfold := hwords k row (wordsOf (off % 64) n)
      dsimp only at hfold ⊢
      split <;> exact hfold

theorem quiet_takeFailed (who : Initiator) (off : Nat) : Quiet s (takeFailed who off t).2 := quiet_beside h (takeFailed_canonical h.1.1)

theorem quiet_writeWord (k row w : Nat) (kind : WriteKind) (bs : List (Nat × Byte)) : Quiet s (writeWord k row w kind .none bs t).1 := by
  have hcanonical := writeWord_canonical (x0 := k) (x1 := row) (x2 := w) (x3 := kind) (x4 := .none) (x5 := bs) h.1.1
  have hkept : (writeWord k row w kind .none bs t).1 = { t with vat := (writeWord k row w kind .none bs t).1.vat } := by
    have hword := readWord_none k row w t
    unfold writeWord
    split
    · rfl
    · dsimp only
      generalize readWord k row w .none t = r at hword
      obtain ⟨u, bad⟩ := r
      dsimp only at hword
      subst hword
      cases (bs.length == 16 && kind == WriteKind.plain) with
      | true => rfl
      | false => cases bad <;> rfl
  rw [hkept] at hcanonical ⊢
  exact quiet_beside h hcanonical

theorem quiet_lineWrite (who : Initiator) (off : Nat) (bytes : List (Option Byte)) (kind : WriteKind) :
    Quiet s (lineWrite who off bytes kind .none t).2 := by
  have hwords (k row : Nat) (l : List Nat) : Quiet s (l.foldl (fun (acc : State × Bool) (w : Nat) =>
      let (s', e) := writeWord k row w kind .none (wordBytes (off % 64) w bytes) acc.1
      (s', acc.2 || e)) (t, false)).1 :=
    List.foldlRecOn (motive := fun acc : State × Bool => Quiet s acc.1) _ _ h fun acc hacc w _ => quiet_writeWord hacc k row w kind _
  unfold lineWrite
  split
  · exact quiet_decodeError h _ _
  · next k row hloc =>
    split
    · exact quiet_raise h 457
    · split
      · exact quiet_parked h (vatLoc_lt hloc)
      · rw [if_neg (by simp)]
        exact hwords k row (List.range 4)

theorem quiet_vatRead (who : Initiator) (base fuel off n : Nat) : Quiet s (vatRead who base fuel off n t).2.2 := by
  induction fuel generalizing off n t with
  | zero => exact h
  | succ fuel ih =>
    unfold vatRead
    split
    · exact h
    · have hfailed := quiet_takeFailed h who off
      generalize takeFailed who off t = r at hfailed
      obtain ⟨f, u⟩ := r
      cases f with
      | true => exact ih hfailed _ _
      | false => exact ih (quiet_lineRead hfailed who base off _) _ _

theorem quiet_vatWrite (who : Initiator) (kind : WriteKind) (fuel off : Nat) (bs : List Byte) : Quiet s (vatWrite who kind fuel off bs t).2 := by
  induction fuel generalizing off bs t with
  | zero => exact h
  | succ fuel ih =>
    unfold vatWrite
    split
    · exact h
    · have hfailed := quiet_takeFailed h who off
      generalize takeFailed who off t = r at hfailed
      obtain ⟨f, u⟩ := r
      cases f with
      | true => exact ih hfailed _ _
      | false => exact ih (quiet_lineWrite hfailed who off _ kind) _ _

theorem quiet_memRead (who : Initiator) (a n : Nat) : Quiet s (memRead who a n t).2.2 := by
  unfold memRead
  split
  · exact quiet_vatRead h _ _ _ _ _
  · split
    · split <;> exact h
    · exact quiet_decodeError h who a

theorem quiet_memWrite (who : Initiator) (a : Nat) (bs : List Byte) : Quiet s (memWrite who a bs t).2 := by
  have hset := State.setBytes_canonical (x1 := a) (x2 := bs) h.1.1
  unfold memWrite
  split
  · exact quiet_vatWrite h _ _ _ _ _
  · split
    · split
      · rw [setBytes_rest] at hset ⊢
        exact quiet_beside h hset
      · exact h
    · exact quiet_decodeError h who a

theorem quiet_readAll {α β : Type} {f : α → State → β × Bool × State} (hf : ∀ a u, Quiet s u → Quiet s (f a u).2.2) (l : List α) :
    Quiet s (readAll f l t).2.2 := by
  induction l generalizing t with
  | nil => exact h
  | cons a l ih =>
    have hfirst := hf a t h
    unfold readAll
    generalize f a t = r at hfirst
    dsimp only
    split
    · exact hfirst
    · exact ih hfirst

end

/-! ### The fields that the units' work writes -/

/-- A field of the registers of unit `n` of `N`, which stand `stride` apart beyond those of the pipes. -/
theorem work_row {f : Fld} {base n stride N : Nat} (hoff : f.off = base + n * stride) (hn : n < N)
    (hfile : 0x310000 ≤ base ∧ base + N * stride < 2 ^ 24) (hlsb : Nat.ble f.lsb 63 = true) : Work f := by
  obtain ⟨hlow, hhigh⟩ := hfile
  have hrow : n * stride ≤ N * stride := Nat.mul_le_mul_right _ (Nat.le_of_lt hn)
  exact work_beyond (by omega) (by omega) (Nat.lt_succ_of_le (Nat.le_of_ble_eq_true hlsb))

/-- The fields of engine `n` that its work writes. -/
def planeFlds (n : Nat) : List Fld :=
  [F.planeStatus_ACTIVE n, F.planeStatus_UNDERRUN n, F.planeStatus_CLAMP_H n, F.planeStatus_CLAMP_V n, F.planeStatus_BAD_TILE n,
   F.planeStatus_ZERO_SRC n, F.planeStatus_NO_FRAME n, F.planeStatus_LAST n, F.planeStatus_FETCH_LINE n, F.planeCost_MAXC n,
   F.planeUnderruns_COUNT n, F.planeBase_ADDR n, F.planeBase2_ADDR n]

theorem work_plane {n : Nat} (hn : n < 32) : ∀ f ∈ planeFlds n, Work f := by
  simp only [planeFlds, List.forall_mem_cons, List.not_mem_nil, false_implies, implies_true, and_true]
  refine ⟨?_, ?_, ?_, ?_, ?_, ?_, ?_, ?_, ?_, ?_, ?_, ?_, ?_⟩ <;> exact work_row rfl hn (by decide) rfl

theorem work_planeFlag {n : Nat} (hn : n < 32) (b : Nat) : Work (planeFlagFld n b) := by
  refine work_plane hn _ ?_
  unfold planeFlagFld
  split <;> simp [planeFlds]

theorem work_assigned : Work F.planeAssigned_ENGINE := work_beyond (by decide) (by decide) (by decide)

/-- The fields of the Harp for pipe `p` that its work writes. -/
def harpFlds (p : Nat) : List Fld :=
  [F.harpPipeStatus_OVF_COUNT p, F.harpPipeStatus_OVF_TIME p, F.harpPipeStatus_UNDERRUN p, F.harpPipeStatus_BAD_OBJ p,
   F.harpPipeStatus_STAGE_ERR p, F.harpPipeStatus_LAST p, F.harpPipeStatus_MAXUNITS p, F.harpPipeDrops_COUNT p,
   F.harpPipeUnderruns_COUNT p, F.harpPipeMaxcyc_CCLK p]

section
variable {p : Nat} (hp : p < 8)
include hp

theorem work_harp : ∀ f ∈ harpFlds p, Work f := by
  simp only [harpFlds, List.forall_mem_cons, List.not_mem_nil, false_implies, implies_true, and_true]
  refine ⟨?_, ?_, ?_, ?_, ?_, ?_, ?_, ?_, ?_, ?_⟩ <;> exact work_row rfl hp (by decide) rfl

theorem work_harpFlag (b : Nat) : Work (harpFlagFld p b) := by
  refine work_harp hp _ ?_
  unfold harpFlagFld
  split <;> simp [harpFlds]

/-- The fields of a pipe that its work writes. -/
theorem work_pipeFlds : ∀ f ∈ [F.pipeUnderrun_SLOT p, F.pipeUnderrun_OBJ p, F.pipeUnderrun_SAFE p, F.pipeUnderrun_LAST p, F.pipeBadaddr_SLOT p,
    F.pipeBadaddr_SAFE p, F.pipeFirstUr_LINE p, F.pipeFirstUr_LAYER p, F.pipeRepeats_COUNT p, F.pipeUrFrames_COUNT p, F.pipeWbStatus_INCOMPLETE p,
    F.pipeWbStatus_BUSY p, F.pipeWbStatus_OVERFLOWS p, F.pipeCommitStatus_FW p, F.pipeCommitStatus_REPEAT p,
    F.pipeCommitSeq_LATCHED p, F.pipeCommitSeq_PENDING p, F.pipeStatus_LP5X_REASON p], Work f := by
  have hwork {f : Fld} (place : Nat) (hoff : f.off = 0x300000 + place / 64 + p * 0x2000) (hlsb : f.lsb = place % 64)
      (hplace : place < 0x80000 ∧ shownPlaces.contains place = false) : Work f := work_pipe ⟨hp, hplace.1, hoff, hlsb⟩ hplace.2
  simp only [List.forall_mem_cons, List.not_mem_nil, false_implies, implies_true, and_true]
  exact ⟨hwork 0x18100 rfl rfl (by decide), hwork 0x1810C rfl rfl (by decide), hwork 0x1810D rfl rfl (by decide),
    hwork 0x18110 rfl rfl (by decide), hwork 0x18200 rfl rfl (by decide), hwork 0x1820D rfl rfl (by decide),
    hwork 0x18300 rfl rfl (by decide), hwork 0x18310 rfl rfl (by decide), hwork 0x18500 rfl rfl (by decide),
    hwork 0x18600 rfl rfl (by decide), hwork 0x14604 rfl rfl (by decide), hwork 0x14605 rfl rfl (by decide),
    hwork 0x14610 rfl rfl (by decide), hwork 0x404 rfl rfl (by decide), hwork 0x405 rfl rfl (by decide),
    hwork 0x500 rfl rfl (by decide), hwork 0x510 rfl rfl (by decide), hwork 0x18003 rfl rfl (by decide)⟩

end

/-! ### The engines (R104 to R139) -/

theorem planesOf_lt {s : State} {p n : Nat} (h : n ∈ s.planesOf p) : n < 32 := List.mem_range.1 (List.mem_filter.1 h).1

theorem joiners_lt {s : State} {p n : Nat} (h : n ∈ s.joiners p) : n < 32 := List.mem_range.1 (List.mem_filter.1 h).1

theorem leavers_lt {s : State} {p n : Nat} (h : n ∈ s.leavers p) : n < 32 := planesOf_lt (List.mem_filter.1 h).1

section
variable {n : Nat} (hn : n < 32) {s t : State} (h : Quiet s t)
include hn h

theorem quiet_planeFlag (b : Nat) (zero : Bool) : Quiet s (planeFlag n b zero t) := by
  have hput : Quiet s (if zero then onPlane n (fun r => { r with nxt := r.nxt ||| 2 ^ b }) t else t.set1 (planeFlagFld n b)) :=
    quiet_ite (quiet_onPlane h _ _) (quiet_wr h (work_planeFlag hn b) 1)
  refine quiet_ite h ?_
  dsimp only
  split
  · exact quiet_wr hput (work_plane hn _ (by simp [planeFlds])) _
  · exact quiet_ite hput (quiet_raise hput 128)
  · exact quiet_ite hput (quiet_raise hput 128)
  · exact quiet_raise hput 129
  · exact quiet_raise hput 130
  · exact hput

theorem quiet_planeUnderrun (l : Nat) : Quiet s (planeUnderrun n l t) := quiet_onPlane (quiet_planeFlag hn h _ _) _ _

theorem quiet_planeFrameStart : Quiet s (planeFrameStart n t) := by
  have hlast (v c : Nat) : Quiet s ((t.wr (F.planeStatus_LAST n) v).wr (F.planeCost_MAXC n) c) :=
    quiet_wr (quiet_wr h (work_plane hn _ (by simp [planeFlds])) v) (work_plane hn _ (by simp [planeFlds])) c
  exact quiet_onPlane (quiet_forN (hlast _ _) fun b _ u hu => quiet_wr hu (work_planeFlag hn _) _) _ _

theorem quiet_planeLatch : Quiet s (planeLatch n t) :=
  quiet_latchRange h (by unfold planeOff; omega) (by unfold planeOff; omega)

theorem quiet_planeChecks (zero : Bool) : Quiet s (planeChecks n zero t) := by
  have hflag {u : State} (hu : Quiet s u) (c : Bool) (b : Nat) : Quiet s (if c then planeFlag n b zero u else u) :=
    quiet_ite (quiet_planeFlag hn hu b zero) hu
  exact hflag (hflag (hflag h _ 2) _ 3) _ 5

theorem quiet_planeSnapshot (p l : Nat) : Quiet s (planeSnapshot p n l t) := by
  have hsnap := quiet_snapRange (quiet_snapRange h (planeOff n + 0x40) (planeOff n + 0x98)) (0x480000 + n * 0x800) (0x480800 + n * 0x800)
  have hopen {u : State} (hu : Quiet s u) (f : PlaneRun → PlaneRun) : Quiet s (if l = 0 then onPlane n f u else u) :=
    quiet_ite (quiet_onPlane hu n f) hu
  have haffine (dmx dmy : Int) {u : State} (hu : Quiet s u) : Quiet s (affineAdvance p n l dmx dmy u) := quiet_onPlane hu n _
  have hstart := hopen (haffine (signedAt 24 (t.snp (F.planeAffDmx_STEP n))) (signedAt 24 (t.snp (F.planeAffDmy_STEP n))) hsnap)
    fun r => { r with stopped := false, slack0 := none, latency0 := none, replaced0 := 0, late0 := false }
  refine quiet_ite hstart ?_
  have hchecked {u : State} (hu : Quiet s u) (c zero : Bool) : Quiet s (if c then planeChecks n zero u else u) :=
    quiet_ite (quiet_planeChecks hn hu zero) hu
  exact quiet_ite (quiet_onPlane (quiet_wr (hchecked hstart _ _) (work_plane hn _ (by simp [planeFlds])) l) n _)
    (quiet_onPlane (hchecked hstart _ _) n _)

end

theorem quiet_showHolders {s t : State} (h : Quiet s t) (n b : Nat) : Quiet s (showHolders n b t) := by
  unfold showHolders
  split
  · exact h
  · next hin =>
    refine quiet_wr h (work_beyond ?_ ?_ (by decide : 53 < 64)) _ <;> simp only [F.streamBuf_HOLDERS] <;> omega

section
variable {n : Nat} (hn : n < 32) {s t : State} (h : Quiet s t)
include h

theorem quiet_ringRelease : Quiet s (ringRelease n t) := by
  unfold ringRelease
  split
  · exact h
  · exact quiet_showHolders (quiet_onPlane h n _) _ _

theorem quiet_raceOpen : Quiet s (raceOpen n t) := quiet_onPlane h n _

include hn

theorem quiet_ringTake : Quiet s (ringTake n t) := by
  have hreleased := quiet_onPlane (quiet_ringRelease h (n := n)) n fun r => { r with noFrame := false }
  refine quiet_ite hreleased ?_
  dsimp only
  split
  · exact quiet_showHolders (quiet_onPlane hreleased n _) _ _
  · exact quiet_planeFlag hn (quiet_onPlane hreleased n _) 6 true

theorem quiet_planeLeave : Quiet s (planeLeave n t) :=
  quiet_wr (quiet_wr (quiet_onPlane (quiet_ringRelease h) n _) (work_plane hn _ (by simp [planeFlds])) _) work_assigned _

theorem quiet_planeJoin (p : Nat) : Quiet s (planeJoin p n t) :=
  quiet_raise (quiet_wr (quiet_wr (quiet_onPlane h n _) (work_plane hn _ (by simp [planeFlds])) _) work_assigned _) 131

theorem quiet_joinPrepare (p : Nat) : Quiet s (joinPrepare p n t) := by
  have hbases {u : State} (hu : Quiet s u) (a b : Nat) : Quiet s ((u.wr (F.planeBase_ADDR n) a).wr (F.planeBase2_ADDR n) b) :=
    quiet_wr (quiet_wr hu (work_plane hn _ (by simp [planeFlds])) a) (work_plane hn _ (by simp [planeFlds])) b
  have hring (a b : Nat) (f : PlaneRun → PlaneRun) := quiet_ringTake hn (quiet_onPlane (hbases (quiet_planeLatch hn h) a b) n f)
  exact quiet_ite (quiet_pipeRaise (quiet_onPipe (hring _ _ _) p) p (by decide)) (hring _ _ _)

theorem quiet_joinLate : Quiet s (joinLate n t) :=
  quiet_ite (quiet_planeSnapshot hn (quiet_joinPrepare hn h _) _ _) (quiet_ite (quiet_onPlane h n _) h)

theorem quiet_paramBases : Quiet s (paramBases n t) :=
  quiet_ite (quiet_wr (quiet_wr h (work_plane hn _ (by simp [planeFlds])) _) (work_plane hn _ (by simp [planeFlds])) _) h

end

theorem quiet_planesAtFrameStart {s t : State} (h : Quiet s t) (p : Nat) : Quiet s (planesAtFrameStart p t) :=
  quiet_forL (quiet_forL h fun _ hn _ hu => quiet_planeLeave (leavers_lt hn) hu) fun _ hn _ hu => quiet_planeJoin (joiners_lt hn) hu p

/-! ### The object layer (R151 to R168) -/

/-- Of two outcomes with a state each, either is one that did the work alone. -/
theorem quiet_outcome {β : Type} {g : β → State} {s : State} {c : Prop} [Decidable c] {x y : β} (hx : Quiet s (g x)) (hy : Quiet s (g y)) :
    Quiet s (g (if c then x else y)) := by
  split
  · exact hx
  · exact hy

theorem quiet_ite₃ {β : Type} {s : State} {c : Prop} [Decidable c] {x y : β × Bool × State} (hx : Quiet s x.2.2) (hy : Quiet s y.2.2) :
    Quiet s (if c then x else y).2.2 := quiet_outcome (β := β × Bool × State) (g := fun r => r.2.2) hx hy

section
variable {p : Nat} {s t : State} (h : Quiet s t)
include h

theorem quiet_patternPx (o : Obj) (x y : Nat) : Quiet s (patternPx p o x y t).2.2 := quiet_memRead h _ _ _

theorem quiet_patternAt (o : Obj) (x y : Int) : Quiet s (patternAt p o x y t).2.2 := quiet_ite₃ (quiet_patternPx h o _ _) h

theorem quiet_objPx (o : Obj) (aff : List Nat) (l x : Nat) : Quiet s (objPx p o aff l x t).2.2 := by
  unfold objPx
  dsimp only
  split
  · exact quiet_patternPx h o _ _
  · refine quiet_ite₃ h (quiet_ite₃ (quiet_patternAt h o _ _) (quiet_ite₃ (quiet_patternAt h o _ _) ?_))
    exact quiet_readAll h (fun q u hu => quiet_patternAt hu o q.1 q.2) _

theorem quiet_capture (o : Obj) : Quiet s (capture p o t) := quiet_ite h (quiet_onHarp h p _)

theorem quiet_drawObjs (l : Nat) (avail : Option Nat) (time : Nat) (objs : List (Obj × Nat × Nat)) (row : List Px) :
    Quiet s (drawObjs p l avail time objs row t).2.2.2.2 := by
  induction objs generalizing time row t with
  | nil => exact h
  | cons first rest ih =>
    obtain ⟨o, x0, x1⟩ := first
    have hread (aff : List Nat) (xs : List Nat) : Quiet s (readAll (fun i s => objPx p o aff l (x0 + i) s) xs t.fresh.2).2.2 :=
      quiet_readAll (quiet_fresh h) (fun i u hu => quiet_objPx hu o aff l (x0 + i)) xs
    unfold drawObjs
    have hbranch {c : Prop} [Decidable c] {x y : List Px × List (Obj × Nat × Nat) × Bool × Nat × State} (hx : Quiet s x.2.2.2.2)
        (hy : Quiet s y.2.2.2.2) : Quiet s (if c then x else y).2.2.2.2 := 
      quiet_outcome (β := List Px × List (Obj × Nat × Nat) × Bool × Nat × State) (g := fun r => r.2.2.2.2) hx hy
    exact hbranch (hread _ _) (hbranch (hread _ _) (ih (hread _ _) _ _))

theorem quiet_harpStart (l : Nat) : Quiet s (harpStart p l t) := by
  have hopen (f : HarpRun → HarpRun) : Quiet s (if l = 0 then onHarp p f t else t) := quiet_ite (quiet_onHarp h p f) h
  exact quiet_ite (quiet_onHarp (hopen _) p _) (quiet_onHarp (hopen _) p _)

theorem quiet_stageStart : Quiet s (stageStart p t) := quiet_ite h (quiet_onHarp h p _)

end

section
variable {p : Nat} (hp : p < 8) {s t : State} (h : Quiet s t)
include hp h

theorem quiet_harpFlag (b : Nat) (zero : Bool) : Quiet s (harpFlag p b zero t) := by
  have hput : Quiet s (if zero then onHarp p (fun r => { r with nxt := r.nxt ||| 2 ^ b }) t else t.set1 (harpFlagFld p b)) :=
    quiet_ite (quiet_onHarp h _ _) (quiet_wr h (work_harpFlag hp b) 1)
  have hcount {u : State} (hu : Quiet s u) : Quiet s (if b = 2 then u.inc (F.harpPipeUnderruns_COUNT p) else u) :=
    quiet_ite (quiet_wr hu (work_harp hp _ (by simp [harpFlds])) _) hu
  exact quiet_ite h (quiet_ite (quiet_raise (hcount hput) _) (hcount hput))

theorem quiet_dropObjs (b : Nat) (zero : Bool) (l : List (Obj × Nat × Nat)) : Quiet s (dropObjs p b zero l t) :=
  quiet_ite h (quiet_onHarp (quiet_harpFlag hp (quiet_wr h (work_harp hp _ (by simp [harpFlds])) _) b zero) p _)

theorem quiet_harpUnderrun (zero : Bool) : Quiet s (harpUnderrun p zero t) := quiet_onHarp (quiet_harpFlag hp h 2 zero) p _

theorem quiet_harpWork (l scanWait : Nat) (avail : Option Nat) : Quiet s (harpWork p l scanWait avail t) := by
  have hbad (c zero : Bool) : Quiet s (if c then harpFlag p 3 zero t else t) := quiet_ite (quiet_harpFlag hp h 3 zero) h
  have hselected (c zero : Bool) (drop sel : List (Obj × Nat × Nat)) (f : HarpRun → HarpRun) (row : List Px) : Quiet s (drawObjs p l avail 0 sel row
      (onHarp p f ((dropObjs p 0 zero drop (if c then harpFlag p 3 zero t else t)).forL sel fun o s => capture p o.1 s))).2.2.2.2 :=
    quiet_drawObjs (quiet_onHarp (quiet_forL (quiet_dropObjs hp (hbad c zero) 0 zero drop) fun o _ _ hu => quiet_capture hu o.1) p f)
      l avail 0 sel row
  exact quiet_ite (quiet_harpUnderrun hp (hselected _ _ _ _ _ _) _) (quiet_onHarp (quiet_dropObjs hp (hselected _ _ _ _ _ _) 1 _ _) p _)

theorem quiet_harpDeadline (l : Nat) : Quiet s (harpDeadline p l t) := quiet_ite (quiet_harpWork hp h _ _ _) h

theorem quiet_harpFrameStart : Quiet s (harpFrameStart p t) := by
  have hlast (a b c : Nat) : Quiet s (((t.wr (F.harpPipeStatus_LAST p) a).wr (F.harpPipeStatus_MAXUNITS p) b).wr (F.harpPipeMaxcyc_CCLK p) c) :=
    quiet_wr (quiet_wr (quiet_wr h (work_harp hp _ (by simp [harpFlds])) a) (work_harp hp _ (by simp [harpFlds])) b)
      (work_harp hp _ (by simp [harpFlds])) c
  have hflags := fun a b c => quiet_forN (n := 5) (f := fun b s => s.wr (harpFlagFld p b) (bit (bitAt (t.harpRun p).nxt b))) (hlast a b c)
    fun i _ _ hu => quiet_wr hu (work_harpFlag hp i) _
  exact quiet_latchRange (quiet_onHarp (hflags _ _ _) p _) (by omega) (by omega)

/-! ### A layer that is off (R188) -/

theorem quiet_layerOff (layer l : Nat) : Quiet s (layerOff p layer l t) := by
  have hwork := work_pipeFlds hp
  have hoff (b : Bool) : Quiet s (if layer < 12 then t.setBit (F.pipeUnderrun_SLOT p) layer b
      else if layer = 12 then t.set1 (F.pipeUnderrun_OBJ p) else t.setBit (F.pipeUnderrun_SAFE p) (layer - 13) b) :=
    quiet_ite (quiet_wr h (hwork _ (by simp)) _) (quiet_ite (quiet_wr h (hwork _ (by simp)) _) (quiet_wr h (hwork _ (by simp)) _))
  have hfirst (c : Bool) {u : State} (hu : Quiet s u) : Quiet s (u.iff c fun s =>
      ((s.wr (F.pipeFirstUr_LINE p) l).wr (F.pipeFirstUr_LAYER p) layer).inc (F.pipeUrFrames_COUNT p)) :=
    quiet_iff hu fun v hv => quiet_wr (quiet_wr (quiet_wr hv (hwork _ (by simp)) _) (hwork _ (by simp)) _) (hwork _ (by simp)) _
  refine quiet_ite h (quiet_pipeRaise (quiet_iff (hfirst _ (hoff true)) fun v hv => quiet_onRind hv p _) p ?_)
  split <;> decide

/-! ### Safety planes and the underruns of a line (R137, R156, R174, R188) -/

theorem quiet_lineUnderruns (l : Nat) (late : BitVec 2) : Quiet s (lineUnderruns p l late t) := by
  have hplanes : Quiet s (t.forL (t.planesOf p) fun n s =>
      if (s.plane n).stopped then layerOff p (s.plane n).slot l s
      else if s.planeWants p n l && !((s.plane n).ready.any fun b => b.line == l) then
        layerOff p (s.plane n).slot l (planeUnderrun n l s)
      else s) :=
    quiet_forL h fun n hn u hu => quiet_ite (quiet_layerOff hp hu _ _)
      (quiet_ite (quiet_layerOff hp (quiet_planeUnderrun (planesOf_lt hn) hu l) _ _) hu)
  have hobjects {u : State} (hu : Quiet s u) : Quiet s (if (u.harpRun p).stopped then layerOff p 12 l u else u) :=
    quiet_ite (quiet_layerOff hp hu _ _) hu
  exact quiet_forN (hobjects (quiet_harpDeadline hp hplanes l)) fun j _ u hu => quiet_ite (quiet_layerOff hp hu _ _) hu

end

section
variable {p : Nat} {s t : State} (h : Quiet s t)
include h

theorem quiet_safeFetch (j l : Nat) : Quiet s (safeFetch p j l t).2 := by
  unfold safeFetch
  dsimp only
  refine quiet_readAll h ?_ _
  exact fun _ _ hu => quiet_memRead hu _ _ _

theorem quiet_safeFetches (l : Nat) : Quiet s (safeFetches p l t) := by
  have hget {u : State} (hu : Quiet s u) (c : Bool) (j : Nat) : Quiet s (if c then safeFetch p j l u else (none, u)).2 := by
    split
    · exact quiet_safeFetch hu j l
    · exact hu
  exact quiet_onPipe (hget (hget h _ 0) _ 1) p

end

/-! ### Writeback and the composed line (R173, R192, R193, R519) -/

section
variable {s t : State} (h : Quiet s t)
include h

theorem quiet_unsend (l ch : Nat) (class0 : Bool) (upTo : Nat) : Quiet s (unsend l ch class0 upTo t) := quiet_onLink h l _

theorem quiet_sendLine (l ch n : Nat) (class0 fs fe : Bool) (format : Nat) (d : List Byte) :
    Quiet s (sendLine l ch n class0 fs fe format d t).2 := by
  unfold sendLine
  split
  · exact quiet_unsend h l ch class0 16384
  · exact quiet_foldl h fun u _ hu => quiet_onLink hu l _

theorem quiet_wbWriteLine (p : Nat) (w : WbLine) : Quiet s (wbWriteLine p w t).2 := by
  unfold wbWriteLine
  split
  · exact quiet_sendLine h ..
  · exact quiet_memWrite h _ _ _

theorem quiet_wbWrite (p : Nat) (l : List WbLine) : Quiet s (wbWrite p l t).2 := by
  refine List.foldlRecOn (motive := fun acc : Bool × State => Quiet s acc.2) _ _ h fun acc hacc w _ => ?_
  split
  · exact hacc
  · exact quiet_wbWriteLine hacc p w

theorem quiet_rindLine (p l : Nat) (a b : List Px) : Quiet s (rindLine p l a b t) := quiet_ite h (quiet_onRind h p _)

end

section
variable {p : Nat} (hp : p < 8) {s t : State} (h : Quiet s t)
include hp h

theorem quiet_wbIncomplete : Quiet s (wbIncomplete p t) := by
  have hwork := work_pipeFlds hp
  exact quiet_pipeRaise (quiet_wr (quiet_wr (quiet_wr h (hwork _ (by simp)) _) (hwork _ (by simp)) _) (hwork _ (by simp)) _) p (by decide)

theorem quiet_wbOverflow (l : Nat) : Quiet s (wbOverflow p l t) := by
  unfold wbOverflow
  dsimp only
  split
  · exact quiet_wbIncomplete hp (quiet_onWb (quiet_unsend h ..) p _)
  · exact quiet_wbIncomplete hp (quiet_onWb h p _)

theorem quiet_wbFlushOld : Quiet s (wbFlushOld p t) := by
  have hwritten := fun f l => quiet_wbWrite (quiet_onWb h p f) p l
  exact quiet_ite (quiet_wbIncomplete hp (quiet_onWb (hwritten _ _) p _)) (hwritten _ _)

theorem quiet_wbFlush : Quiet s (wbFlush p t) := by
  have hwritten := fun f l => quiet_wbWrite (quiet_onWb (quiet_wbFlushOld hp h) p f) p l
  exact quiet_ite (quiet_wbOverflow hp (hwritten _ _) 16384) (hwritten _ _)

theorem quiet_wbHold (l : Nat) (row : List Px) : Quiet s (wbHold p l row t) :=
  quiet_ite h (quiet_ite (quiet_wbOverflow hp h l) (quiet_onWb h p _))

theorem quiet_wbFrameStart : Quiet s (wbFrameStart p t) := by
  have hbusy : Work (F.pipeWbStatus_BUSY p) := work_pipeFlds hp _ (by simp)
  have hended := fun f => quiet_onWb h p f
  exact quiet_ite (quiet_onWb (hended _) p _) (quiet_ite (quiet_onWb (hended _) p _) (quiet_onWb (quiet_wr (hended _) hbusy 1) p _))

theorem quiet_composeLine (l : Nat) : Quiet s (composeLine p l t) :=
  quiet_onPipe (quiet_wbHold hp (quiet_rindLine h p l _ _) l _) p

end

/-! ### The lines of a pipe (R132, R169, R289) -/

section
variable {p : Nat} {s t : State} (h : Quiet s t)
include h

theorem quiet_seqLine : Quiet s (seqLine p t) := quiet_ite (quiet_onCore h p _) h

theorem quiet_lineBegins : Quiet s (lineBegins p t) := quiet_seqLine (quiet_onPipe h p)

end

/-- The engines' work for the next line, and the Harp's and the safety planes'. -/
theorem quiet_nextLine {p : Nat} {s t : State} (h : Quiet s t) {ns : List Nat} (hns : ∀ n ∈ ns, n < 32) (lo hi l : Nat) :
    Quiet s (safeFetches p l (harpStart p l (snapRange lo hi (t.forL ns fun n s => planeSnapshot p n l s)))) :=
  quiet_safeFetches (quiet_harpStart (quiet_snapRange (quiet_forL h fun n hn _ hu => quiet_planeSnapshot (hns n hn) hu p l) lo hi) l) l

theorem quiet_line0Start {p : Nat} {s t : State} (h : Quiet s t) : Quiet s (line0Start p t) := by
  have hprepared := quiet_forL h (l := t.joiners p) (f := joinPrepare p) fun _ hn _ hu => quiet_joinPrepare (joiners_lt hn) hu p
  refine quiet_onPipe (quiet_nextLine hprepared (fun n hn => ?_) _ _ 0) p
  exact (List.mem_append.1 hn).elim planesOf_lt joiners_lt

section
variable {p : Nat} (hp : p < 8) {s t : State} (h : Quiet s t)
include hp h

/-- An active line, but for its number and the pipe's state. -/
theorem quiet_activeWork (l : Nat) (late : BitVec 2) (stall : Bool) :
    let u := composeLine p l ((lineUnderruns p l late (lineBegins p t)).iff (!stall) (wbFlush p))
    Quiet s (if l + 1 < u.vactive p then
      safeFetches p (l + 1) (harpStart p (l + 1) (snapRange (pipeOff p + 0x430) (pipeOff p + 0x438)
        (u.forL (u.planesOf p) fun n s => planeSnapshot p n (l + 1) s)))
      else u) := by
  have hcomposed : Quiet s (composeLine p l ((lineUnderruns p l late (lineBegins p t)).iff (!stall) (wbFlush p))) :=
    quiet_composeLine hp (quiet_iff (quiet_lineUnderruns hp (quiet_lineBegins h) l late) fun _ hu => quiet_wbFlush hp hu) l
  exact quiet_ite (quiet_nextLine hcomposed (fun _ hn => planesOf_lt hn) _ _ _) hcomposed

/-- A blanking line, but for its number and the pipe's state. -/
theorem quiet_blankWork (k : Nat) (stall : Bool) {f : PipeRun → PipeRun} (hf : ∀ r, (f r).raised % 4 = r.raised % 4) :
    let u := (onPipe p f t).iff (!stall && k = 0) (wbFlush p)
    Quiet s (if k + 2 = u.vmin p then line0Start p u else u) := by
  have hflushed : Quiet s ((onPipe p f t).iff (!stall && k = 0) (wbFlush p)) :=
    quiet_iff (quiet_onPipe h p hf) fun _ hu => quiet_wbFlush hp hu
  exact quiet_ite (quiet_line0Start hflushed) hflushed

end

/-! ### What a pipe shows of its scan-out (R202) -/

theorem pipeFld_line {p : Nat} (hp : p < 8) : PipeFld p 0x18010 (F.pipeStatus_LINE p) := ⟨hp, by decide, rfl, rfl⟩
theorem pipeFld_waiting {p : Nat} (hp : p < 8) : PipeFld p 0x18002 (F.pipeStatus_WAITING p) := ⟨hp, by decide, rfl, rfl⟩
theorem pipeFld_frames {p : Nat} (hp : p < 8) : PipeFld p 0x18400 (F.pipeFrames_COUNT p) := ⟨hp, by decide, rfl, rfl⟩

theorem frameKey_pipe {p place : Nat} {f : Fld} (hf : PipeFld p place f) (hplace : shownPlaces.contains place = true) :
    frameKey f.key = true := by
  obtain ⟨hoff, hkey⟩ := pipeFld_key hf
  obtain ⟨hp, hlt, -, -⟩ := hf
  have hlow : 0x300000 ≤ f.key % 2 ^ 30 / 64 := by omega
  have hhigh : f.key % 2 ^ 30 / 64 < 0x310000 := by omega
  simp only [frameKey, hkey, hplace, decide_eq_true hlow, decide_eq_true hhigh, Bool.and_self, Bool.or_true]

/-- The beam stands where it stood. -/
theorem quiet_now {s t : State} (h : Quiet s t) : t.now = s.now := by
  simp only [State.now, quiet_rd h (show frameKey F.beamNow_FRAME.key = true by decide), quiet_rd h (show frameKey F.beamNow_LINE.key = true by decide),
    quiet_rd h (show frameKey F.beamNow_DOT.key = true by decide)]

/-- A write of a field of a pipe leaves the beam. -/
theorem now_wr_pipe {s : State} (h : s.Canonical) {p place : Nat} {f : Fld} (hf : PipeFld p place f) (v : Nat) : (s.wr f v).now = s.now := by
  obtain ⟨hoff, -⟩ := pipeFld_key hf
  have hbeam {g : Fld} (hg : g.key % 2 ^ 30 / 64 = 0x200008) : (s.wr f v).rd g = s.rd g :=
    State.rd_wr_other h _ _ _ fun e => by rw [e] at hg; omega
  simp only [State.now, hbeam (show F.beamNow_FRAME.key % 2 ^ 30 / 64 = 0x200008 by decide),
    hbeam (show F.beamNow_LINE.key % 2 ^ 30 / 64 = 0x200008 by decide), hbeam (show F.beamNow_DOT.key % 2 ^ 30 / 64 = 0x200008 by decide)]

/-- A line starts where the beam stands within its own line; beside the beam's dot, nothing changes. -/
theorem atDot_rest (s : State) (dot : Nat) : s.atDot dot = { s with cells := (s.atDot dot).cells } := by
  unfold State.atDot
  split <;> rfl

theorem atDot_rd_pipe {s : State} (h : s.Canonical) (dot : Nat) {p place : Nat} {f : Fld} (hf : PipeFld p place f) :
    (s.atDot dot).rd f = s.rd f := by
  obtain ⟨hoff, -⟩ := pipeFld_key hf
  unfold State.atDot
  split
  · refine State.rd_wr_other h _ _ _ fun e => ?_
    rw [e] at hoff
    have : F.beamNow_DOT.key % 2 ^ 30 / 64 = 0x200008 := by decide
    omega
  · rfl

theorem atDot_pipe (s : State) (dot p : Nat) : (s.atDot dot).pipe p = s.pipe p := by
  rw [atDot_rest]
  rfl

theorem atDot_vactive (s : State) (dot p : Nat) : (s.atDot dot).vactive p = s.vactive p := by
  rw [atDot_rest]
  rfl

theorem vactive_le (s : State) (p : Nat) : s.vactive p ≤ 16383 := by
  have hlt : s.lat (F.pipeV_VACTIVE p) < 2 ^ 14 := Nat.mod_lt _ (by decide : 0 < 2 ^ 14)
  unfold State.vactive size14
  split <;> omega

/-- Pipe `p` shows line `n` in state `st`, with the beam at `stamp`. -/
def ShowsLine (p st n stamp : Nat) (t : State) : Prop :=
  t.rd (F.pipeStatus_STATE p) = st ∧ t.rd (F.pipeStatus_LINE p) = n ∧ t.now = stamp

theorem quiet_showsLine {p : Nat} (hp : p < 8) {st n stamp : Nat} {s t : State} (h : Quiet s t) (hs : ShowsLine p st n stamp s) :
    ShowsLine p st n stamp t := by
  obtain ⟨hstate, hline, hnow⟩ := hs
  exact ⟨(quiet_rd h (frameKey_pipe (pipeFld_state hp) (by decide))).trans hstate,
    (quiet_rd h (frameKey_pipe (pipeFld_line hp) (by decide))).trans hline, (quiet_now h).trans hnow⟩

section
variable {p : Nat} (hp : p < 8) {s : State} (h : s.Canonical)
include hp h

/-- The pipe's state written leaves the line that it shows. -/
theorem showsLine_wr_state {st n stamp : Nat} (hs : ShowsLine p st n stamp s) (v : Nat) :
    ShowsLine p (v % 4) n stamp (s.wr (F.pipeStatus_STATE p) v) := by
  obtain ⟨-, hline, hnow⟩ := hs
  exact ⟨State.rd_wr_same h _ _, (State.rd_wr_other h _ _ _ (pipeFld_ne (pipeFld_line hp) (pipeFld_state hp) (.inr (by decide)))).trans hline,
    (now_wr_pipe h (pipeFld_state hp) v).trans hnow⟩

theorem showsLine_wr_line {n : Nat} (hn : n < 65536) :
    ShowsLine p (s.rd (F.pipeStatus_STATE p)) n s.now (s.wr (F.pipeStatus_LINE p) n) :=
  ⟨State.rd_wr_other h _ _ _ (pipeFld_ne (pipeFld_state hp) (pipeFld_line hp) (.inr (by decide))),
    (State.rd_wr_same h _ _).trans (Nat.mod_eq_of_lt hn), now_wr_pipe h (pipeFld_line hp) n⟩

/-- An active line is shown in the active state. -/
theorem activeLine_shows {l : Nat} (hl : l < 65536) (late : BitVec 2) (stall : Bool) :
    ShowsLine p 2 l s.now (activeLine p l late stall s) := by
  have hline : (s.wr (F.pipeStatus_LINE p) l).Canonical := State.wr_canonical h
  exact quiet_showsLine hp (quiet_activeWork hp (quiet_refl (State.wr_canonical hline)) l late stall)
    (showsLine_wr_state hp hline (showsLine_wr_line hp h hl) 2)

/-- A blanking line is shown in vertical blanking; an active state ends with it. -/
theorem blankLine_shows (k : Nat) (stall : Bool) : ShowsLine p (if s.rd (F.pipeStatus_STATE p) = 2 then 3 else s.rd (F.pipeStatus_STATE p))
    (min 65535 (s.vactive p + k)) s.now (blankLine p k stall s) := by
  have hline : (s.wr (F.pipeStatus_LINE p) (min 65535 (s.vactive p + k))).Canonical := State.wr_canonical h
  have hbegins := quiet_lineBegins (p := p) (quiet_refl hline)
  have hshown := quiet_showsLine hp hbegins (showsLine_wr_line hp h (n := min 65535 (s.vactive p + k)) (by omega))
  have hstate := hshown.1
  have hwork {u : State} (hu : u.Canonical) {st n stamp : Nat} (hs : ShowsLine p st n stamp u) {f : PipeRun → PipeRun}
      (hf : ∀ r, (f r).raised % 4 = r.raised % 4) := quiet_showsLine hp (quiet_blankWork hp (quiet_refl hu) k stall hf) hs
  unfold blankLine
  dsimp only
  rw [hstate]
  split
  · exact hwork (State.wr_canonical hbegins.1.1) (showsLine_wr_state hp hbegins.1.1 hshown 3) fun _ => rfl
  · exact hwork hbegins.1.1 hshown fun _ => rfl

end

/-! ### Which line starts (R169) -/

section
variable {p : Fin 8} {s : State} (h : s.Canonical) (dot : Nat) (late : BitVec 2) (stall : Bool)
include h

/-- A disabled pipe starts no line. -/
theorem pipeLineStart_off (hoff : s.rd (F.pipeStatus_STATE p.val) = 0) : Leads (.pipeLineStart p dot late stall) s (· = s.atDot dot) := by
  have hstate : (s.atDot dot).pipeOn p.val = false := by
    rw [State.pipeOn, atDot_rd_pipe h dot (pipeFld_state p.isLt), hoff]
    rfl
  refine ⟨s.atDot dot, ?_, rfl⟩
  change execPipeLineStart p dot late stall s = _
  simp only [execPipeLineStart, hstate, Bool.not_false, if_true]

theorem pipeOn_atDot (hon : s.rd (F.pipeStatus_STATE p.val) ≠ 0) : (s.atDot dot).pipeOn p.val = true := by
  rw [State.pipeOn, atDot_rd_pipe h dot (pipeFld_state p.isLt)]
  simpa using hon

/-- Line 0 of a frame that has started. -/
theorem pipeLineStart_first (hon : s.rd (F.pipeStatus_STATE p.val) ≠ 0) (hfirst : (s.pipe p.val).atLine0 = true) :
    Leads (.pipeLineStart p dot late stall) s (ShowsLine p.val 2 0 (s.atDot dot).now) := by
  have hu := State.atDot_canonical (x1 := dot) h
  have hbegun := onPipe_canonical (x0 := p.val) (x1 := fun r => { r with atLine0 := false }) hu
  refine ⟨_, ?_, activeLine_shows p.isLt hbegun (l := 0) (by decide) late stall⟩
  change execPipeLineStart p dot late stall s = _
  simp only [execPipeLineStart, pipeOn_atDot h dot hon, atDot_pipe, hfirst, Bool.not_true, Bool.false_eq_true, if_false, if_true]

/-- After an active line comes the next one, or blanking line 0. -/
theorem pipeLineStart_active (hactive : s.rd (F.pipeStatus_STATE p.val) = 2) (hline0 : (s.pipe p.val).atLine0 = false) :
    let line := s.rd (F.pipeStatus_LINE p.val)
    (line + 1 < s.vactive p.val → Leads (.pipeLineStart p dot late stall) s (ShowsLine p.val 2 (line + 1) (s.atDot dot).now)) ∧
    (s.vactive p.val ≤ line + 1 → Leads (.pipeLineStart p dot late stall) s (ShowsLine p.val 3 (s.vactive p.val) (s.atDot dot).now)) := by
  have hu := State.atDot_canonical (x1 := dot) h
  have hon := pipeOn_atDot (p := p) h dot (by omega)
  have hstate := (atDot_rd_pipe h dot (pipeFld_state p.isLt)).trans hactive
  have hline := atDot_rd_pipe h dot (pipeFld_line p.isLt)
  have hmost := vactive_le s p.val
  refine ⟨fun hnext => ⟨activeLine p.val (s.rd (F.pipeStatus_LINE p.val) + 1) late stall (s.atDot dot), ?_,
      activeLine_shows p.isLt hu (by omega) late stall⟩,
    fun hlast => ⟨blankLine p.val 0 stall (s.atDot dot), ?_, ?_⟩⟩
  · change execPipeLineStart p dot late stall s = _
    simp only [execPipeLineStart, hon, atDot_pipe, atDot_vactive, hline0, hstate, hline, hnext, Bool.not_true, Bool.false_eq_true, if_false, if_true]
  · change execPipeLineStart p dot late stall s = _
    simp only [execPipeLineStart, hon, atDot_pipe, atDot_vactive, hline0, hstate, hline, Nat.not_lt.2 hlast, Bool.not_true, Bool.false_eq_true,
      if_false, if_true]
  · have hshown := blankLine_shows p.isLt hu 0 stall
    rw [if_pos hstate, atDot_vactive, Nat.add_zero, Nat.min_eq_right (by omega)] at hshown
    exact hshown

/-- In vertical blanking, where no frame is due, the next blanking line starts. -/
theorem pipeLineStart_blanking (hblank : s.inBlanking p.val = true) (hline0 : (s.pipe p.val).atLine0 = false)
    (hblank0 : (s.pipe p.val).atBlank0 = false) (hdue : (s.atDot dot).frameDue p.val = false) :
    Leads (.pipeLineStart p dot late stall) s (ShowsLine p.val (s.rd (F.pipeStatus_STATE p.val))
      (min 65535 (s.vactive p.val + (s.pipe p.val).blank + 1)) (s.atDot dot).now) := by
  have hu := State.atDot_canonical (x1 := dot) h
  have hstate := atDot_rd_pipe h dot (pipeFld_state p.isLt)
  have hscan : s.rd (F.pipeStatus_STATE p.val) = 1 ∨ s.rd (F.pipeStatus_STATE p.val) = 3 := by simpa [State.inBlanking] using hblank
  have hon := pipeOn_atDot (p := p) h dot (by omega)
  have hscan2 : s.rd (F.pipeStatus_STATE p.val) ≠ 2 := by omega
  refine ⟨blankLine p.val ((s.pipe p.val).blank + 1) stall (s.atDot dot), ?_, ?_⟩
  · change execPipeLineStart p dot late stall s = _
    simp only [execPipeLineStart, hon, atDot_pipe, hline0, hblank0, hstate, hscan2, hdue, Bool.not_true, Bool.false_eq_true, if_false]
  · have hshown := blankLine_shows p.isLt hu ((s.pipe p.val).blank + 1) stall
    rw [hstate, if_neg hscan2, atDot_vactive] at hshown
    exact hshown

end

/-! ### What else starts with a frame (R58, R197, R216, R230) -/

theorem work_lock {n : Nat} (hn : n < 8) : ∀ f ∈ [F.lockCtl_NUM n, F.lockCtl_DEN n, F.lockPhase_LINE n, F.lockPhase_DOT n, F.lockCtl_FIXED n,
    F.lockCtl_SLEW n, F.lockStatus_ERROR n, F.lockStatus_STATE n, F.lockStatus_SLEWING n, F.lockStatus_SLOW n], Work f := by
  have hwork {f : Fld} (r : Nat) (hoff : f.off = 0x200100 + r + n * 0x20) (hr : r < 0x10) (hlsb : Nat.ble f.lsb 63 = true) : Work f := by
    have hkey := Fld.key_offset (f := f) (by omega) (Nat.lt_succ_of_le (Nat.le_of_ble_eq_true hlsb))
    constructor
    · simp only [frameKey, hkey, Bool.or_eq_false_iff, Bool.and_eq_false_iff, decide_eq_false_iff_not, beq_eq_false_iff_ne]
      omega
    · simp only [deliveryKey, hkey, Bool.or_eq_false_iff, Bool.and_eq_false_iff, decide_eq_false_iff_not, beq_eq_false_iff_ne]
      omega
  simp only [List.forall_mem_cons, List.not_mem_nil, false_implies, implies_true, and_true]
  exact ⟨hwork 0 rfl (by decide) rfl, hwork 0 rfl (by decide) rfl, hwork 4 rfl (by decide) rfl, hwork 4 rfl (by decide) rfl,
    hwork 0 rfl (by decide) rfl, hwork 0 rfl (by decide) rfl, hwork 8 rfl (by decide) rfl, hwork 8 rfl (by decide) rfl,
    hwork 8 rfl (by decide) rfl, hwork 8 rfl (by decide) rfl⟩

theorem work_rect {p r : Nat} (hp : p < 8) (hr : r < 64) :
    ∀ f ∈ [F.rectVerdict_VERDICT p r, F.rectVerdict_FRAME p r, F.rectVerdict_RUN p r], Work f := by
  simp only [List.forall_mem_cons, List.not_mem_nil, false_implies, implies_true, and_true]
  refine ⟨?_, ?_, ?_⟩ <;> refine work_beyond ?_ ?_ ?_ <;>
    simp only [F.rectVerdict_VERDICT, F.rectVerdict_FRAME, F.rectVerdict_RUN] <;> omega

theorem engineAt_lt {s : State} {p sl n : Nat} (hn : s.engineAt p sl = some n) : n < 32 := planesOf_lt (List.mem_of_find?_eq_some hn)

section
variable {n : Nat} (hn : n < 8) {s t : State} (h : Quiet s t)
include hn h

theorem quiet_showSlew (old new : Nat) : Quiet s (showSlew n old new t) :=
  quiet_wr (quiet_wr h (work_lock hn _ (by simp)) _) (work_lock hn _ (by simp)) _

theorem quiet_lockApply : Quiet s (lockApply n t) := by
  have hratio := fun a b => quiet_wr (quiet_wr h (work_lock hn (F.lockCtl_NUM n) (by simp)) a) (work_lock hn (F.lockCtl_DEN n) (by simp)) b
  have hphase := fun a b c d => quiet_wr (quiet_wr (hratio a b) (work_lock hn (F.lockPhase_LINE n) (by simp)) c)
    (work_lock hn (F.lockPhase_DOT n) (by simp)) d
  exact quiet_wr (quiet_wr (hphase _ _ _ _) (work_lock hn _ (by simp)) _) (work_lock hn _ (by simp)) _

theorem quiet_lockMeasured (e : Int) (frame shift : Nat) (told : Bool) (slew : Nat) : Quiet s (lockMeasured n e frame shift told slew t) := by
  have hmeasured := fun v w => quiet_wr (quiet_wr h (work_lock hn (F.lockStatus_ERROR n) (by simp)) v) (work_lock hn (F.lockStatus_STATE n) (by simp)) w
  have happlied := fun v w old new f => quiet_onLock (quiet_lockApply hn (quiet_showSlew hn (hmeasured v w) old new)) n f
  have htold {u : State} (hu : Quiet s u) : Quiet s (if told then pipeRaise n 10 u else u) := quiet_ite (quiet_pipeRaise hu n (by decide)) hu
  refine quiet_ite (htold (happlied _ _ _ _ _)) (quiet_pipeRaise (htold (happlied _ _ _ _ _)) n ?_)
  split <;> decide

theorem quiet_lockAnchor : Quiet s (lockAnchor n t) := quiet_lockMeasured hn h _ _ _ _ _

/-- The lock's part in a frame start, but for the stamp. -/
theorem quiet_lockWork : Quiet s (if !t.lockOn n then t else if t.nextIsAnchor n then lockAnchor n t
    else onLock n (fun r => { r with since := r.since.map (· + 1) }) (showSlew n (t.lock n).slew (t.lock n).slew t)) :=
  quiet_ite h (quiet_ite (quiet_lockAnchor hn h) (quiet_onLock (quiet_showSlew hn h _ _) n _))

end

section
variable {s t : State} (h : Quiet s t)
include h

theorem quiet_syncArmPipe (p : Nat) : Quiet s (syncArmPipe p t) := quiet_forL h fun n _ _ hu => quiet_onStream hu n _

theorem quiet_portSends {k : Nat} (hk : k < 8) : Quiet s (portSends k t) :=
  quiet_ite (quiet_onPort (quiet_wr h (work_row rfl hk (by decide) rfl) _) k _) h

theorem quiet_portsAtFrameStart (p : Nat) : Quiet s (portsAtFrameStart p t) :=
  quiet_forN h fun k hk _ hu => quiet_ite
    (quiet_portSends (quiet_onPort (quiet_wr (quiet_wr hu (work_row rfl hk (by decide) rfl) _) (work_row rfl hk (by decide) rfl) _) k _) hk)
    (quiet_ite (quiet_portSends (quiet_onPort hu k _) hk) (quiet_portSends hu hk))

theorem quiet_rindSkips {p : Nat} (hp : p < 8) : Quiet s (rindSkips p t) :=
  quiet_ite (quiet_forN h fun _ hr _ hu => quiet_ite hu
    (quiet_wr (quiet_wr hu (work_rect hp hr _ (by simp)) 7) (work_rect hp hr _ (by simp)) _)) h

theorem quiet_badClass0 (p : Nat) : Quiet s (badClass0 p t) := quiet_ite (quiet_onRind h p _) h

end

/-! ### What else a latch does (R179, R184, R186, R189, R233, R239, R242) -/

section
variable {p : Nat} {s t : State} (h : Quiet s t)
include h

theorem quiet_takeBases (a : Nat × Nat × Nat) : Quiet s (takeBases p a t) := by
  unfold takeBases
  split
  · exact h
  · next n hn =>
    have hlt := engineAt_lt hn
    exact quiet_onPlane (quiet_wr (quiet_wr h (work_plane hlt _ (by simp [planeFlds])) _) (work_plane hlt _ (by simp [planeFlds])) _) n _

theorem quiet_clusterSettles : Quiet s (clusterSettles p t) := quiet_ite (quiet_setPrm h _ _) h

theorem quiet_checkAddrs : Quiet s (checkAddrs p t) := by
  have hbad := quiet_forL h (l := t.planesOf p) (f := fun n s => onPlane n (fun r => { r with bad := !s.planeAddrOk p n }) s)
    fun n _ _ hu => quiet_onPlane hu n _
  exact quiet_ite (quiet_onPipe hbad p) (quiet_pipeRaise (quiet_onPipe hbad p) p (by decide))

theorem quiet_rindEntries : Quiet s (rindEntries p t) := by
  refine quiet_ite h (quiet_forL (quiet_onRind h p _) fun r _ u hu => ?_)
  have hread := fun a => quiet_memRead hu (.rind (Fin.ofNat 8 p)) a 64
  exact quiet_ite (quiet_ite (quiet_onRind (hread _) p _) (quiet_raise (quiet_onRind (hread _) p _) 211)) (quiet_onRind (hread _) p _)

end

section
variable {p : Nat} (hp : p < 8) {s t : State} (h : Quiet s t)
include hp h

theorem quiet_release (skipped : Bool) (a : Nat × Nat) : Quiet s (release p skipped a t) := by
  unfold release
  split
  · exact h
  · have ha : a.1 < 12 := by omega
    have hplace {r : Nat} (hr : 0x8000 ≤ r) (hr2 : r < 0x10000) : shownPlaces.contains r = false := by
      simp [shownPlaces]
      omega
    exact quiet_wr (quiet_wr (quiet_wr (quiet_wr h (work_pipe (pipeFld_relAddr hp ha) (hplace (by omega) (by omega))) _)
      (work_pipe (pipeFld_relSkipped hp ha) (hplace (by omega) (by omega))) _)
      (work_pipe (pipeFld_relCount hp ha) (hplace (by omega) (by omega))) _)
      (work_pipe (pipeFld_relfrm hp ha) (hplace (by omega) (by omega))) _

theorem quiet_rindSafe : Quiet s (rindSafe p t) :=
  quiet_forN h fun j _ u hu => by
    have hbit (b : Bool) : Quiet s (u.setBit (F.rindSafe_UNLOCKED p) j b) := quiet_wr hu (work_row rfl hp (by decide) rfl) _
    exact quiet_ite (quiet_logEvent (quiet_raise (hbit _) 210) _ _ _ _) (hbit _)

theorem quiet_rindLatch (all : Bool) : Quiet s (rindLatch p all t) := by
  have hcleared := quiet_forL h (l := (List.range 64).filter fun r => all || t.rectResets p r) (f := rectClear p) fun r hr u hu =>
    quiet_onRind (quiet_wr hu (work_rect hp (List.mem_range.1 (List.mem_filter.1 hr).1) _ (by simp)) 0) p _
  have hfresh := quiet_forL hcleared (l := (List.range 64).filter fun r => t.flag (F.rectCtl_EN p r) && !t.latFlag (F.rectCtl_EN p r))
    (f := fun r s => s.clr (F.rectVerdict_VERDICT p r)) fun r hr u hu =>
    quiet_wr hu (work_rect hp (List.mem_range.1 (List.mem_filter.1 hr).1) _ (by simp)) 0
  have hlatched := quiet_latchRange (quiet_latchRange hfresh (lo := rindOff p) (hi := rindOff p + 0x10) (by unfold rindOff; omega)
    (by unfold rindOff; omega)) (lo := rindOff p + 0x400) (hi := rindOff p + 0xC00) (by unfold rindOff; omega) (by unfold rindOff; omega)
  exact quiet_ite hlatched (quiet_wr hlatched (work_beyond (by decide) (by decide) (by decide)) _)

end

/-! ### Verdicts and the class-0 report (R231 to R248)

The rectangles and the raced streams that Rind holds are taken as they come, so that what is kept is told by the keys alone. -/

/-- The key of no configured or counted field of the interrupt routing, the display reference and the pipes. -/
def judgedKey (k : Nat) : Bool := !(decide (2 ^ 30 + 0x100400 * 64 ≤ k) && decide (k < 2 ^ 30 + 0x400000 * 64))

/-- From `s` to `t`, Rind judged and reported: those fields and the pipes' own states stand. -/
def Judged (s t : State) : Prop := Moves judgedKey s t ∧ t.pipes = s.pipes

theorem judgedKey_far {f : Fld} (hoff : 0x400000 ≤ f.off) (hgroup : 1 ≤ f.group) : judgedKey f.key = true := by
  have hkey : ¬ f.key < 2 ^ 30 + 0x400000 * 64 := by
    have := Nat.mul_le_mul_right (2 ^ 30) hgroup
    unfold Fld.key
    omega
  rw [judgedKey, decide_eq_false hkey, Bool.and_false]
  rfl

theorem judgedKey_report {k : Nat} (h : reportKey k = true) : judgedKey k = true := by
  simp only [reportKey, deliveryKey, Bool.or_eq_true, Bool.and_eq_true, decide_eq_true_eq, beq_iff_eq] at h
  simp only [judgedKey, Bool.not_eq_true', Bool.and_eq_false_iff, decide_eq_false_iff_not]
  rcases h with ((h | h) | h) | rfl
  · omega
  · omega
  · omega
  · decide

theorem judged_refl {s : State} (h : s.Canonical) : Judged s s := ⟨moves_refl h, rfl⟩

theorem judged_ite {c : Prop} [Decidable c] {s t u : State} (ht : Judged s t) (hu : Judged s u) : Judged s (if c then t else u) := by
  split
  · exact ht
  · exact hu

section
variable {s t : State} (h : Judged s t)
include h

theorem judged_beside {u : State} (hu : u.Canonical) (hcells : u.cells = t.cells := by rfl) (hpipes : u.pipes = t.pipes := by rfl) :
    Judged s u :=
  ⟨moves_cells h.1 hu hcells, hpipes.trans h.2⟩

theorem judged_wr {f : Fld} (hf : judgedKey f.key = true) (v : Nat) : Judged s (t.wr f v) := ⟨moves_wr h.1 hf, h.2⟩

theorem judged_far {f : Fld} (hoff : 0x400000 ≤ f.off) (v : Nat) (hgroup : Nat.ble 1 f.group = true := by rfl) : Judged s (t.wr f v) :=
  judged_wr h (judgedKey_far hoff (Nat.le_of_ble_eq_true hgroup)) v

theorem judged_report {u : State} (hmoves : Moves reportKey t u) (hrest : ReportRest t u) : Judged s u := by
  refine ⟨moves_trans h.1 (moves_mono hmoves fun _ => judgedKey_report), ?_⟩
  rw [hrest]
  exact h.2

theorem judged_raise (n : Nat) : Judged s (raise n t) :=
  judged_report h (moves_raise_report (moves_refl h.1.1) n) (reportRest_raise h.1.1 n)

theorem judged_notify (code a b : Nat) : Judged s (notify code a b t) :=
  judged_report h (moves_notify (moves_refl h.1.1) code a b) (reportRest_notify h.1.1 code a b)

theorem judged_logEvent (code sev a b : Nat) : Judged s (logEvent code sev a b t) :=
  judged_report h (moves_logEvent (moves_refl h.1.1) code sev a b) (reportRest_logEvent h.1.1 code sev a b)

theorem judged_onRind (p : Nat) (f : RindRun → RindRun) : Judged s (onRind p f t) := judged_beside h (onRind_canonical h.1.1)

theorem judged_onPlane (n : Nat) (f : PlaneRun → PlaneRun) : Judged s (onPlane n f t) := judged_beside h (onPlane_canonical h.1.1)

theorem judged_fresh : Judged s t.fresh.2 := judged_beside h (State.fresh_canonical h.1.1)

theorem judged_forL {α : Type} {l : List α} {f : α → State → State} (hf : ∀ a u, Judged s u → Judged s (f a u)) : Judged s (t.forL l f) := by
  induction l generalizing t with
  | nil => exact h
  | cons a l ih => exact ih (hf a t h)

/-! The verdicts -/

theorem judged_rectFails (p r verdict crc : Nat) : Judged s (rectFails p r verdict crc t) := by
  have hcur := judged_far h (f := F.rindFailCur_RECT p) (by simp only [F.rindFailCur_RECT]; omega)
    (setBitsAt (t.rd (F.rindFailCur_RECT p)) r 1 (bit true))
  have hcounted := fun v => judged_far hcur (f := F.rectFails_COUNT p r) (by simp only [F.rectFails_COUNT]; omega) v
  have hraised {u : State} (hu : Judged s u) (c : Bool) (f : RindRun → RindRun) :
      Judged s (if c then raise (192 + p) (onRind p f u) else u) := judged_ite (judged_raise (judged_onRind hu p f) _) hu
  have halert {u : State} (hu : Judged s u) (c : Bool) (f : RindRun → RindRun) :
      Judged s (if c then (onRind p f u).setBit F.rindAlertState_PIPE p true else u) :=
    judged_ite (judged_far (judged_onRind hu p f) (by decide) _) hu
  have hlogged {u : State} (hu : Judged s u) (c : Bool) (l : List (Nat × Nat)) (a : Nat) :
      Judged s (if c then u else logEvent 0x0500 1 a crc { u with rind := { u.rind with logged := l } }) :=
    judged_ite hu (judged_logEvent (judged_beside hu (rest_canonical hu.1.1)) _ _ _ _)
  exact hlogged (halert (hraised (hcounted _) _ _) _ _) _ _ _

theorem judged_writeVerdict (p r v : Nat) : Judged s (writeVerdict p r v t) :=
  judged_far (judged_far h (by simp only [F.rectVerdict_VERDICT]; omega) v) (by simp only [F.rectVerdict_FRAME]; omega) _

theorem judged_judge (p r : Nat) (q : RectRun) : Judged s (judge p r q t) := by
  have hwritten (f : RindRun → RindRun) (v crc run : Nat) := judged_far (judged_far (judged_writeVerdict (judged_onRind h p f) p r v)
    (f := F.rectCrc_CRC p r) (by simp only [F.rectCrc_CRC]; omega) crc) (f := F.rectVerdict_RUN p r) (by simp only [F.rectVerdict_RUN]; omega) run
  have hindex {u : State} (hu : Judged s u) (c : Bool) (idx : Option Nat) :
      Judged s (match c, idx with | true, some i => u.wr (F.rectVerdict_MATCH_IDX p r) i | _, _ => u) := by
    split
    · exact judged_far hu (by simp only [F.rectVerdict_MATCH_IDX]; omega) _
    · exact hu
  exact judged_ite (judged_rectFails (hindex (hwritten _ _ _ _) _ _) p r _ _) (hindex (hwritten _ _ _ _) _ _)

theorem judged_rindDue (p : Nat) : Judged s (rindDue p t) :=
  judged_ite h (judged_forL h fun q _ hu => judged_judge hu p q.rect q)

/-! The report of the frame that ends -/

theorem judged_breach (p part : Nat) : Judged s (breach p part t) := by
  have hcounted := fun v => judged_wr h (f := F.rindC0Breaches_COUNT) (by decide) v
  exact judged_notify (judged_logEvent (judged_raise (judged_beside (hcounted _) (rest_canonical (hcounted _).1.1)) 209) _ _ _ _) _ _ _

theorem judged_rindReport (p : Nat) : Judged s (rindReport p t) := by
  have hshown (a b c d e : Nat) := judged_far (judged_far (judged_far (judged_far (judged_far h
    (f := F.rindC0_C0_OK p) (by simp only [F.rindC0_C0_OK]; omega) a) (f := F.rindC0_UR p) (by simp only [F.rindC0_UR]; omega) b)
    (f := F.rindC0_SLACK p) (by simp only [F.rindC0_SLACK]; omega) c) (f := F.rindC0_COND p) (by simp only [F.rindC0_COND]; omega) d)
    (f := F.rindC0_REPLACED p) (by simp only [F.rindC0_REPLACED]; omega) e
  exact judged_ite h (judged_ite (hshown _ _ _ _ _)
    (judged_raise (judged_far (hshown _ _ _ _ _) (by simp only [F.rindC0Bad_COUNT]; omega) _) _))

theorem judged_rindBreaches (p : Nat) : Judged s (rindBreaches p t) := by
  have hbreach {u : State} (hu : Judged s u) (c : Bool) (part : Nat) : Judged s (if c then breach p part u else u) :=
    judged_ite (judged_breach hu p part) hu
  exact judged_ite h (hbreach (hbreach (hbreach h _ 1) _ 2) _ 3)

theorem judged_raceFrame (p n st : Nat) : Judged s (raceFrame p n st t) := by
  have hshown (a b c : Nat) := judged_far (judged_far (judged_far (judged_fresh h)
    (f := F.streamMinslack_CCLK st) (by simp only [F.streamMinslack_CCLK]; omega) a)
    (f := F.streamMaxlat_NS10 st) (by simp only [F.streamMaxlat_NS10]; omega) b)
    (f := F.streamStatus_PACED st) (by simp only [F.streamStatus_PACED]; omega) c
  exact judged_ite (hshown _ _ _) (judged_far (hshown _ _ _) (by simp only [F.streamFsyncLead_DOTS]; omega) _)

theorem judged_rindFrameEnd (p : Nat) : Judged s (rindFrameEnd p t) := by
  have hclosed := judged_forL h (l := (t.rindRun p).raced) (f := fun e s => raceClose e.1 s) fun e _ hu => judged_onPlane (judged_fresh hu) e.1 _
  exact judged_forL (judged_rindBreaches (judged_rindReport hclosed p) p) fun e _ hu => judged_raceFrame hu p e.1 e.2

theorem judged_rindFrameStart (p : Nat) (ended : Bool) : Judged s (rindFrameStart p ended t) := by
  have hdue := judged_rindDue h p
  have hended : Judged s (if ended then rindFrameEnd p (rindDue p t) else rindDue p t) := judged_ite (judged_rindFrameEnd hdue p) hdue
  have hfails := fun v => judged_far (judged_far hended (f := F.rindFailLast_RECT p) (by simp only [F.rindFailLast_RECT]; omega) v)
    (f := F.rindFailCur_RECT p) (by simp only [F.rindFailCur_RECT]; omega) 0
  exact judged_onRind (judged_ite (hfails _) (judged_far (hfails _) (by decide) _)) p _

end

/-! What is kept -/

theorem judged_rd {s t : State} (h : Judged s t) {f : Fld} (hgroup : f.group = 1) (hlow : 0x100400 ≤ f.off) (hhigh : f.off < 0x400000)
    (hlsb : f.lsb < 64) : t.rd f = s.rd f := by
  refine h.1.2 f ?_
  simp only [judgedKey, Fld.key, hgroup, Bool.not_eq_false', Bool.and_eq_true, decide_eq_true_eq]
  omega

/-! ### A frame starts (R183, R197, R202) -/

/-- A write of a field of a pipe leaves a pending source pending. -/
theorem staysPending_wr_pipe {n : Nat} (hn : n < 512) {s : State} (h : StaysPending n s) {p place : Nat} {f : Fld} (hf : PipeFld p place f)
    (v : Nat) : StaysPending n (s.wr f v) := by
  refine staysPending_wr_beside h v (fun e => ?_) (pipeFld_not_dest hf hn)
  have hnot := pipeFld_not_delivery hf
  rw [e, deliveryKey_pend (by omega)] at hnot
  cases hnot

theorem now_lt (s : State) : s.now < 2 ^ 48 := by
  have hframe : s.rd F.beamNow_FRAME < 2 ^ 16 := State.rd_lt s _
  have hline : s.rd F.beamNow_LINE < 2 ^ 16 := State.rd_lt s _
  have hdot : s.rd F.beamNow_DOT < 2 ^ 16 := State.rd_lt s _
  unfold State.now stampOf
  omega

theorem onPipe_same (p : Nat) (f : PipeRun → PipeRun) (s : State) : (onPipe p f s).pipe p = if p < s.pipes.length then f (s.pipe p) else pipe0 := by
  split
  · next hp => simp [State.pipe, onPipe, modAt, hp]
  · next hp => rw [State.pipe, List.getD_eq_default _ _ (by simpa [onPipe, modAt] using hp)]

/-- The pipe's sources are to be noted anew, and whether its frame repeats is shown. -/
def noteRepeat (p : Nat) (repeats : Bool) (s : State) : State :=
  let s := (onPipe p (fun r => { r with raised := 0, repeating := repeats }) s).wr (F.pipeCommitStatus_REPEAT p) (bit repeats)
  if repeats then pipeRaise p 6 (s.inc (F.pipeRepeats_COUNT p)) else s

theorem noteRepeat_begins {p : Nat} (hp : p < 8) {s t : State} (h : Quiet s t) (repeats : Bool) :
    Moves (fun k => !frameKey k) s (noteRepeat p repeats t) ∧ ((noteRepeat p repeats t).pipe p).raised % 4 = 0 := by
  have hwork := work_pipeFlds hp
  have hu : (onPipe p (fun r => { r with raised := 0, repeating := repeats }) t).Canonical := onPipe_canonical h.1.1
  have hnone : ((onPipe p (fun r => { r with raised := 0, repeating := repeats }) t).pipe p).raised % 4 = 0 := by
    rw [onPipe_same]
    split <;> rfl
  have hshown := quiet_wr (quiet_refl hu) (hwork (F.pipeCommitStatus_REPEAT p) (by simp)) (bit repeats)
  have hquiet : Quiet (onPipe p (fun r => { r with raised := 0, repeating := repeats }) t) (noteRepeat p repeats t) :=
    quiet_ite (quiet_pipeRaise (quiet_wr hshown (hwork _ (by simp)) _) p (by decide)) hshown
  exact ⟨moves_trans (moves_cells h.1 hu rfl) hquiet.1, (hquiet.2.2.1 p).trans hnone⟩

theorem frameKey_dest {n : Nat} (hn : n < 512) : frameKey (F.intcTgt_DEST n).key = true := by
  have hoff : (F.intcTgt_DEST n).key % 2 ^ 30 / 64 = 0x101000 + n * 4 := Fld.key_offset (by simp only [F.intcTgt_DEST]; omega) (by decide : 0 < 64)
  have hlow : decide (0x101000 ≤ 0x101000 + n * 4) = true := decide_eq_true (by omega)
  have hhigh : decide (0x101000 + n * 4 < 0x101800) = true := decide_eq_true (by omega)
  simp only [frameKey, hoff, hlow, hhigh, Bool.and_self, Bool.true_or]

section
variable {p : Nat} (hp : p < 8) {s : State} (h : s.Canonical)
include hp h

/-- The ending frame's status moves nothing that the pipes show, and no source of the pipe is noted any more. -/
theorem frameStatus_begins : Moves (fun k => !frameKey k) s (frameStatus p s) ∧ ((frameStatus p s).pipe p).raised % 4 = 0 := by
  have hwork := work_pipeFlds hp
  have hunderrun (v : Nat) := quiet_wr (quiet_wr (quiet_wr (quiet_wr (quiet_refl h) (hwork (F.pipeUnderrun_LAST p) (by simp)) v)
    (hwork (F.pipeUnderrun_SLOT p) (by simp)) 0) (hwork (F.pipeUnderrun_OBJ p) (by simp)) 0) (hwork (F.pipeUnderrun_SAFE p) (by simp)) 0
  have hbad (u v w : Nat) := quiet_wr (quiet_wr (hunderrun u) (hwork (F.pipeBadaddr_SLOT p) (by simp)) v)
    (hwork (F.pipeBadaddr_SAFE p) (by simp)) w
  have hstatus (u v w m : Nat) := quiet_onPipe (quiet_wr (hbad u v w) (work_row (f := F.seqSlot_MAXLAT p) rfl hp (by decide) rfl) m) p
    (f := fun r => { r with slotLat := 0 })
  exact noteRepeat_begins hp (hstatus _ _ _ _) _

end

/-- What the frame's start brings the engines, the Harp and the class-0 report. -/
def frameLayers (p : Nat) (s : State) : State :=
  let s := s.forL (s.planesOf p) planeFrameStart
  let join := s.joiners p
  let left := (s.leavers p).filter fun n => s.rd (F.planeCfg_PIPE n) != p
  let s := (planesAtFrameStart p s).forL left joinLate
  let s := s.forL (s.planesOf p) raceOpen
  let s := s.forL join planeFrameStart
  badClass0 p (rindFrameOpen p (harpFrameStart p s))

theorem quiet_frameLayers {p : Nat} (hp : p < 8) {s t : State} (h : Quiet s t) : Quiet s (frameLayers p t) := by
  have hstarted := quiet_forL h (l := t.planesOf p) (f := planeFrameStart) fun _ hn _ hu => quiet_planeFrameStart (planesOf_lt hn) hu
  have hjoined := quiet_planesAtFrameStart hstarted p
  have hlate := quiet_forL hjoined (f := joinLate) (l := (State.leavers (t.forL (t.planesOf p) planeFrameStart) p).filter fun n =>
    (t.forL (t.planesOf p) planeFrameStart).rd (F.planeCfg_PIPE n) != p) fun _ hn _ hu => quiet_joinLate (leavers_lt (List.mem_filter.1 hn).1) hu
  have hraced := fun l => quiet_forL hlate (l := l) (f := raceOpen) fun _ _ _ hu => quiet_raceOpen hu
  have hnew := fun l => quiet_forL (hraced l) (l := (t.forL (t.planesOf p) planeFrameStart).joiners p) (f := planeFrameStart)
    fun _ hn _ hu => quiet_planeFrameStart (joiners_lt hn) hu
  exact quiet_badClass0 (quiet_onRind (quiet_harpFrameStart hp (hnew _)) p _) p

/-- The frame's count, after all that goes before it. -/
def frameOpens (p : Nat) (s : State) : State :=
  (frameLayers p (frameStatus p (rindFrameStart p (s.rd (F.pipeStatus_STATE p) == 3) s))).incWrap (F.pipeFrames_COUNT p)

/-- What follows the frame's source. -/
def frameShown (p : Nat) (s : State) : State :=
  let s := syncArmPipe p (lockFrameStart p (rindSkips p s))
  let s := ((s.wr (F.pipeStatus_STATE p) 2).wr (F.pipeStatus_LINE p) 0).clr (F.pipeStatus_WAITING p)
  let s := wbFrameStart p (portsAtFrameStart p s)
  onPipe p (fun r => { r with atLine0 := true, firstWait := false, latchDone := false, latchLine := none, line0 := false }) s

theorem frameStart_eq (p : Nat) (s : State) : frameStart p s = frameShown p (pipeRaise p 0 (frameOpens p s)) := rfl

section
variable {p : Nat} (hp : p < 8) {s : State} (h : s.Canonical)
include hp h

/-- The frame is counted, and its source not noted yet. -/
theorem frameOpens_counts : let t := frameOpens p s
    t.Canonical ∧ t.now = s.now ∧ t.rd (F.pipeFrames_COUNT p) = (s.rd (F.pipeFrames_COUNT p) + 1) % 2 ^ (F.pipeFrames_COUNT p).width ∧
      (∀ n, n < 512 → t.rd (F.intcTgt_DEST n) = s.rd (F.intcTgt_DEST n)) ∧ (t.pipe p).raised % 4 = 0 := by
  have hjudged := judged_rindFrameStart (judged_refl h) p (s.rd (F.pipeStatus_STATE p) == 3)
  obtain ⟨hmoves, hnone⟩ := frameStatus_begins hp hjudged.1.1
  have hlayers := quiet_frameLayers hp (quiet_refl hmoves.1)
  have hkept {f : Fld} (hf : frameKey f.key = true) :
      (frameLayers p (frameStatus p (rindFrameStart p (s.rd (F.pipeStatus_STATE p) == 3) s))).rd f =
        (rindFrameStart p (s.rd (F.pipeStatus_STATE p) == 3) s).rd f :=
    (quiet_rd hlayers hf).trans (hmoves.2 f (by simp [hf]))
  have hbeam {f : Fld} (hf : frameKey f.key = true) (hg : f.group = 1) (hlow : 0x100400 ≤ f.off) (hhigh : f.off < 0x400000) (hlsb : f.lsb < 64) :=
    (hkept hf).trans (judged_rd hjudged hg hlow hhigh hlsb)
  refine ⟨State.wr_canonical hlayers.1.1, ?_, ?_, fun n hn => ?_, (hlayers.2.2.1 p).trans hnone⟩
  · refine (now_wr_pipe hlayers.1.1 (pipeFld_frames hp) _).trans ?_
    unfold State.now
    rw [hbeam (by decide) rfl (by decide) (by decide) (by decide), hbeam (by decide) rfl (by decide) (by decide) (by decide),
      hbeam (by decide) rfl (by decide) (by decide) (by decide)]
  · refine (State.rd_wr_same hlayers.1.1 _ _).trans ?_
    rw [hbeam (frameKey_pipe (pipeFld_frames hp) (by decide)) rfl (by simp only [F.pipeFrames_COUNT]; omega)
      (by simp only [F.pipeFrames_COUNT]; omega) (by decide : 0 < 64)]
  · refine (State.rd_wr_other hlayers.1.1 _ _ _ (pipeFld_not_dest (pipeFld_frames hp) hn)).trans (hbeam ?_ rfl ?_ ?_ (by decide : 0 < 64))
    · exact frameKey_dest hn
    · simp only [F.intcTgt_DEST]; omega
    · simp only [F.intcTgt_DEST]; omega

omit h in
theorem fstamp_offset : (F.lockFstamp_STAMP p).key % 2 ^ 30 / 64 = 0x200110 + p * 0x20 :=
  Fld.key_offset (by simp only [F.lockFstamp_STAMP]; omega) (by decide : 0 < 64)

omit h in
theorem frameKey_fstamp : frameKey (F.lockFstamp_STAMP p).key = true := by
  have hlow : decide (0x200100 ≤ 0x200110 + p * 0x20) = true := decide_eq_true (by omega)
  have hhigh : decide (0x200110 + p * 0x20 < 0x200200) = true := decide_eq_true (by omega)
  have hstamp : ((0x200110 + p * 0x20) % 0x20 == 0x10) = true := beq_iff_eq.2 (by omega)
  simp only [frameKey, fstamp_offset hp, hlow, hhigh, hstamp, Bool.and_self, Bool.or_true, Bool.true_or]

/-- The stamp of the frame's start, and that the lock's part leaves the rest. -/
theorem lockFrameStart_stamps : (lockFrameStart p s).Canonical ∧ (lockFrameStart p s).rd (F.lockFstamp_STAMP p) = s.now ∧
    (lockFrameStart p s).now = s.now ∧ (lockFrameStart p s).rd (F.pipeFrames_COUNT p) = s.rd (F.pipeFrames_COUNT p) ∧
    ∀ n, n < 512 → StaysPending n s → StaysPending n (lockFrameStart p s) := by
  have hoff := fstamp_offset hp
  have hstamped : (s.wr (F.lockFstamp_STAMP p) s.now).Canonical := State.wr_canonical h
  have hquiet := quiet_lockWork hp (quiet_refl hstamped)
  have hother {g : Fld} (hg : frameKey g.key = true) (hne : g.key % 2 ^ 30 / 64 < 0x200100 ∨ 0x200200 ≤ g.key % 2 ^ 30 / 64) :
      (lockFrameStart p s).rd g = s.rd g :=
    (quiet_rd hquiet hg).trans (State.rd_wr_other h _ _ _ fun e => by rw [e, hoff] at hne; omega)
  refine ⟨hquiet.1.1, ?_, ?_, ?_, fun n hn hs => hquiet.2.2.2 n hn (staysPending_wr_beside hs _ (fun e => ?_) fun e => ?_)⟩
  · exact (quiet_rd hquiet (frameKey_fstamp hp)).trans ((State.rd_wr_same h _ _).trans (Nat.mod_eq_of_lt (now_lt s)))
  · unfold State.now
    rw [hother (by decide) (.inl (by decide)), hother (by decide) (.inl (by decide)), hother (by decide) (.inl (by decide))]
  · obtain ⟨hat, -⟩ := pipeFld_key (pipeFld_frames hp)
    exact hother (frameKey_pipe (pipeFld_frames hp) (by decide)) (by omega)
  · have hpend := deliveryKey_pend (g := n / 32) (by omega)
    rw [← e, deliveryKey, hoff] at hpend
    simp at hpend
    omega
  · rw [← e, Fld.key_offset (f := F.intcTgt_DEST n) (by simp only [F.intcTgt_DEST]; omega) (by decide : 0 < 64)] at hoff
    simp only [F.intcTgt_DEST] at hoff
    omega

/-- The frame's first line is shown, beside its stamp and its count. -/
theorem frameLine_shows : let t := ((s.wr (F.pipeStatus_STATE p) 2).wr (F.pipeStatus_LINE p) 0).clr (F.pipeStatus_WAITING p)
    t.Canonical ∧ ShowsLine p 2 0 s.now t ∧ t.rd (F.pipeStatus_WAITING p) = 0 ∧ t.rd (F.lockFstamp_STAMP p) = s.rd (F.lockFstamp_STAMP p) ∧
      t.rd (F.pipeFrames_COUNT p) = s.rd (F.pipeFrames_COUNT p) ∧ ∀ n, n < 512 → StaysPending n s → StaysPending n t := by
  have hstate : (s.wr (F.pipeStatus_STATE p) 2).Canonical := State.wr_canonical h
  have hline : ((s.wr (F.pipeStatus_STATE p) 2).wr (F.pipeStatus_LINE p) 0).Canonical := State.wr_canonical hstate
  have hother {g : Fld} (h1 : g.key ≠ (F.pipeStatus_STATE p).key) (h2 : g.key ≠ (F.pipeStatus_LINE p).key)
      (h3 : g.key ≠ (F.pipeStatus_WAITING p).key) :
      (((s.wr (F.pipeStatus_STATE p) 2).wr (F.pipeStatus_LINE p) 0).clr (F.pipeStatus_WAITING p)).rd g = s.rd g :=
    (State.rd_wr_other hline _ _ _ h3).trans ((State.rd_wr_other hstate _ _ _ h2).trans (State.rd_wr_other h _ _ _ h1))
  have hfstamp {place : Nat} {f : Fld} (hf : PipeFld p place f) : (F.lockFstamp_STAMP p).key ≠ f.key := fun e => by
    obtain ⟨hoff, -⟩ := pipeFld_key hf
    rw [← e, fstamp_offset hp] at hoff
    omega
  have hne {x y : Nat} {f g : Fld} (hg : PipeFld p x g) (hf : PipeFld p y f) (hxy : x ≠ y) : g.key ≠ f.key := pipeFld_ne hg hf (.inr hxy)
  refine ⟨State.wr_canonical hline, ⟨?_, ?_, ?_⟩, State.rd_wr_same hline _ _, ?_, ?_, fun n hn hs => ?_⟩
  · exact (State.rd_wr_other hline _ _ _ (hne (pipeFld_state hp) (pipeFld_waiting hp) (by decide))).trans
      ((State.rd_wr_other hstate _ _ _ (hne (pipeFld_state hp) (pipeFld_line hp) (by decide))).trans (State.rd_wr_same h _ _))
  · exact (State.rd_wr_other hline _ _ _ (hne (pipeFld_line hp) (pipeFld_waiting hp) (by decide))).trans (State.rd_wr_same hstate _ _)
  · exact (now_wr_pipe hline (pipeFld_waiting hp) 0).trans ((now_wr_pipe hstate (pipeFld_line hp) 0).trans (now_wr_pipe h (pipeFld_state hp) 2))
  · exact hother (hfstamp (pipeFld_state hp)) (hfstamp (pipeFld_line hp)) (hfstamp (pipeFld_waiting hp))
  · exact hother (hne (pipeFld_frames hp) (pipeFld_state hp) (by decide)) (hne (pipeFld_frames hp) (pipeFld_line hp) (by decide))
      (hne (pipeFld_frames hp) (pipeFld_waiting hp) (by decide))
  · exact staysPending_wr_pipe hn (staysPending_wr_pipe hn (staysPending_wr_pipe hn hs (pipeFld_state hp) 2) (pipeFld_line hp) 0) (pipeFld_waiting hp) 0

/-- The frame that starts is shown at its line 0. -/
theorem frameShown_shows : let t := frameShown p s
    ShowsLine p 2 0 s.now t ∧ t.rd (F.pipeStatus_WAITING p) = 0 ∧ t.rd (F.lockFstamp_STAMP p) = s.now ∧
      t.rd (F.pipeFrames_COUNT p) = s.rd (F.pipeFrames_COUNT p) ∧ ∀ n, n < 512 → StaysPending n s → StaysPending n t := by
  have hskips := quiet_rindSkips (quiet_refl h) hp
  obtain ⟨hlocked, hstamp, hnow, hframes, hpend⟩ := lockFrameStart_stamps hp hskips.1.1
  have harm := quiet_syncArmPipe (quiet_refl hlocked) p
  obtain ⟨hline, hshows, hwaiting, hstamp2, hframes2, hpend2⟩ := frameLine_shows hp harm.1.1
  have hrest := quiet_onPipe (quiet_wbFrameStart hp (quiet_portsAtFrameStart (quiet_refl hline) p)) p
    (f := fun r => { r with atLine0 := true, firstWait := false, latchDone := false, latchLine := none, line0 := false })
  have hcount : frameKey (F.pipeFrames_COUNT p).key = true := frameKey_pipe (pipeFld_frames hp) (by decide)
  rw [quiet_now harm, hnow, quiet_now hskips] at hshows
  refine ⟨quiet_showsLine hp hrest hshows, ?_, ?_, ?_, fun n hn hs => ?_⟩
  · exact (quiet_rd hrest (frameKey_pipe (pipeFld_waiting hp) (by decide))).trans hwaiting
  · rw [← quiet_now hskips, ← hstamp, ← quiet_rd harm (frameKey_fstamp hp), ← hstamp2]
    exact quiet_rd hrest (frameKey_fstamp hp)
  · exact (quiet_rd hrest hcount).trans (hframes2.trans ((quiet_rd harm hcount).trans (hframes.trans (quiet_rd hskips hcount))))
  · exact hrest.2.2.2 n hn (hpend2 n hn (harm.2.2.2 n hn (hpend n hn (hskips.2.2.2 n hn hs))))

end

/-- A source of a pipe that was not noted in this frame is pending from its raise on, where what follows keeps it so. -/
theorem pends_of_pipeRaise {p i : Nat} (hp : p < 8) (hi : i < 12) {s u t : State} (hu : u.Canonical)
    (hdest : u.rd (F.intcTgt_DEST (32 + 12 * p + i)) = s.rd (F.intcTgt_DEST (32 + 12 * p + i)))
    (hnoted : bitAt (u.pipe p).raised i = false)
    (hkeep : StaysPending (32 + 12 * p + i) (pipeRaise p i u) → StaysPending (32 + 12 * p + i) t) : Pends (32 + 12 * p + i) s t := by
  rw [pipeRaise, hnoted, Bool.and_false, if_neg (by decide)] at hkeep
  exact pends_of_raise (onPipe_canonical hu) (srcAssigned_pipe hp hi) hdest hkeep

theorem atDot_rd_dest {s : State} (h : s.Canonical) (dot : Nat) {n : Nat} (hn : n < 512) :
    (s.atDot dot).rd (F.intcTgt_DEST n) = s.rd (F.intcTgt_DEST n) := by
  have hoff : (F.intcTgt_DEST n).key % 2 ^ 30 / 64 = 0x101000 + n * 4 := Fld.key_offset (by simp only [F.intcTgt_DEST]; omega) (by decide : 0 < 64)
  have hbeam : F.beamNow_DOT.key % 2 ^ 30 / 64 = 0x200008 := by decide
  unfold State.atDot
  split
  · refine State.rd_wr_other h _ _ _ fun e => ?_
    rw [e, hbeam] at hoff
    omega
  · rfl

/-- A frame that is due starts: it is shown, counted and stamped, and its source pends. -/
theorem pipeFrameStart_starts {p : Fin 8} {s : State} (h : s.Canonical) (dot : Nat) (hon : s.rd (F.pipeStatus_STATE p.val) ≠ 0)
    (hdue : (s.atDot dot).frameDue p.val = true) : Leads (.pipeFrameStart p dot) s fun t =>
      ShowsLine p.val 2 0 (s.atDot dot).now t ∧ t.rd (F.pipeStatus_WAITING p.val) = 0 ∧ t.rd (F.lockFstamp_STAMP p.val) = (s.atDot dot).now ∧
      t.rd (F.pipeFrames_COUNT p.val) = (s.rd (F.pipeFrames_COUNT p.val) + 1) % 2 ^ (F.pipeFrames_COUNT p.val).width ∧
      Pends (32 + 12 * p.val) s t := by
  have hp := p.isLt
  have hu := State.atDot_canonical (x1 := dot) h
  obtain ⟨hopen, hnow, hframes, hdest, hraised⟩ := frameOpens_counts hp hu
  have hnoted : bitAt ((frameOpens p.val (s.atDot dot)).pipe p.val).raised 0 = false := by
    rw [bitAt]
    simp
    omega
  have hsource : (pipeRaise p.val 0 (frameOpens p.val (s.atDot dot))).Canonical := pipeRaise_canonical hopen
  obtain ⟨hshows, hwaiting, hstamp, hcount, hpend⟩ := frameShown_shows hp hsource
  have hbeam {f : Fld} (hf : deliveryKey f.key = false) := pipeRaise_rd (p := p.val) (i := 0) hopen hf
  have hsame : (pipeRaise p.val 0 (frameOpens p.val (s.atDot dot))).now = (s.atDot dot).now := by
    rw [← hnow]
    unfold State.now
    rw [hbeam (by decide), hbeam (by decide), hbeam (by decide)]
  rw [hsame] at hshows hstamp
  refine ⟨frameShown p.val (pipeRaise p.val 0 (frameOpens p.val (s.atDot dot))), ?_, hshows, hwaiting, hstamp, ?_, ?_⟩
  · change execPipeFrameStart p dot s = _
    rw [execPipeFrameStart, pipeOn_atDot h dot hon, hdue, frameStart_eq]
    rfl
  · rw [← atDot_rd_pipe h dot (pipeFld_frames hp), ← hframes]
    exact hcount.trans (hbeam (pipeFld_not_delivery (pipeFld_frames hp)))
  · exact pends_of_pipeRaise (i := 0) hp (by decide) hopen ((hdest _ (by omega)).trans (atDot_rd_dest h dot (by omega))) hnoted
      (hpend _ (by omega))

end Sys2Proof.Machine

section
open Sys2Proof Sys2Proof.Machine

-- One declaration after another: the memory limit of the check counts the stack of every thread that elaborates beside them.
set_option Elab.async false

/-- Settles O15, by which line the command starts: every work done for a line or a frame leaves what the pipe shows of its scan-out. -/
theorem pipeLines : Obligations.PipeLines := by
  intro s p dot late stall h
  dsimp only
  have hon (hpipe : s.pipeOn p.val = true) : s.rd (F.pipeStatus_STATE p.val) ≠ 0 := by simpa [State.pipeOn] using hpipe
  exact ⟨pipeLineStart_off h dot late stall, fun hpipe hfirst => pipeLineStart_first h dot late stall (hon hpipe) hfirst,
    fun hactive hline0 => pipeLineStart_active h dot late stall hactive hline0,
    fun hblank hline0 hblank0 hdue => pipeLineStart_blanking h dot late stall hblank hline0 hblank0 hdue,
    fun hpipe hdue => pipeFrameStart_starts h dot (hon hpipe) hdue⟩

end

namespace Sys2Proof.Machine

-- One declaration after another: the memory limit of the check counts the stack of every thread that elaborates beside them.
set_option Elab.async false

/-! ### A latch keeps what it does not show (R181 to R184) -/

theorem pipeFld_commitLine {p : Nat} (hp : p < 8) : PipeFld p 0x410 (F.pipeCommitStatus_LINE p) := ⟨hp, by decide, rfl, rfl⟩
theorem pipeFld_latchStamp {p : Nat} (hp : p < 8) : PipeFld p 0x600 (F.pipeLatchStamp_STAMP p) := ⟨hp, by decide, rfl, rfl⟩
theorem pipeFld_en {p : Nat} (hp : p < 8) : PipeFld p 0x10000 (F.pipeCtl_EN p) := ⟨hp, by decide, rfl, rfl⟩
theorem pipeFld_dither {p : Nat} (hp : p < 8) : PipeFld p 0x10006 (F.pipeCtl_DITHER p) := ⟨hp, by decide, rfl, rfl⟩
theorem pipeFld_objAbove {p : Nat} (hp : p < 8) : PipeFld p 0x10008 (F.pipeCtl_OBJ_ABOVE p) := ⟨hp, by decide, rfl, rfl⟩

/-- From `s` to `t`, the work for a frame was done and at most the fields in `fs` were written of what the pipes show. -/
def Shows (fs : List Fld) (s t : State) : Prop :=
  t.Canonical ∧ (∀ g : Fld, frameKey g.key = true → (∀ f ∈ fs, g.key ≠ f.key) → t.rd g = s.rd g) ∧
    (∀ f : Fld, 0x300000 ≤ f.key % 2 ^ 30 / 64 → f.key % 2 ^ 30 / 64 < 0x310000 → t.lat f = s.lat f) ∧
    ∀ q, (t.pipe q).raised % 4 = (s.pipe q).raised % 4

theorem shows_quiet {fs : List Fld} {s t : State} (h : Quiet s t) : Shows fs s t := by
  obtain ⟨hmoves, hlat, hraised, -⟩ := h
  exact ⟨hmoves.1, fun g hg _ => hmoves.2 g (by simp [hg]), hlat, hraised⟩

theorem shows_trans {fs gs : List Fld} {s t u : State} (h : Shows fs s t) (k : Shows gs t u) : Shows (fs ++ gs) s u := by
  obtain ⟨-, hrd, hlat, hraised⟩ := h
  obtain ⟨kcanonical, krd, klat, kraised⟩ := k
  exact ⟨kcanonical, fun g hg hne => (krd g hg fun f hf => hne f (List.mem_append_right _ hf)).trans
    (hrd g hg fun f hf => hne f (List.mem_append_left _ hf)), fun f h1 h2 => (klat f h1 h2).trans (hlat f h1 h2),
    fun q => (kraised q).trans (hraised q)⟩

theorem shows_wr {s : State} (h : s.Canonical) (f : Fld) (v : Nat) : Shows [f] s (s.wr f v) :=
  ⟨State.wr_canonical h, fun g _ hne => State.rd_wr_other h f g v (hne f (by simp)), fun _ _ _ => rfl, fun _ => rfl⟩

/-- A field of the pipe that is none of those written. -/
theorem shows_pipe {p place : Nat} {fs : List Fld} {s t : State} (h : Shows fs s t) {g : Fld} (hg : PipeFld p place g)
    (hshown : shownPlaces.contains place = true) (hne : ∀ f ∈ fs, g.key ≠ f.key) : t.rd g = s.rd g :=
  h.2.1 g (frameKey_pipe hg hshown) hne

/-- The beam and a source's destination are no fields of a pipe. -/
theorem shows_beyond {p : Nat} {fs : List Fld} {s t : State} (h : Shows fs s t) (hfs : ∀ f ∈ fs, ∃ place, PipeFld p place f) {g : Fld}
    (hg : frameKey g.key = true) (hoff : g.key % 2 ^ 30 / 64 < 0x300000) : t.rd g = s.rd g := by
  refine h.2.1 g hg fun f hf e => ?_
  obtain ⟨place, hplace⟩ := hfs f hf
  obtain ⟨hat, -⟩ := pipeFld_key hplace
  rw [e] at hoff
  omega

theorem shows_now {p : Nat} {fs : List Fld} {s t : State} (h : Shows fs s t) (hfs : ∀ f ∈ fs, ∃ place, PipeFld p place f) : t.now = s.now := by
  unfold State.now
  rw [shows_beyond h hfs (by decide) (by decide), shows_beyond h hfs (by decide) (by decide), shows_beyond h hfs (by decide) (by decide)]

/-! ### The steps of a latch (R184) -/

/-- The addresses that the latch replaces. -/
def replacedBy (r : PipeRun) : List (Nat × Nat) := r.addrs.filterMap fun a => (r.slots.find? fun b => b.1 == a.1).map fun b => (b.1, b.2.1)

/-- The slots' addresses once the latch has placed the set's. -/
def slotsAfter (r : PipeRun) : List (Nat × Nat × Nat) := r.addrs ++ r.slots.filter fun b => !(r.addrs.any fun a => a.1 == b.1)

/-- Step 1, the engines. -/
def latchLayers (p : Nat) (addrs : List (Nat × Nat × Nat)) (s : State) : State :=
  let s := s.forL (s.planesOf p) fun n s => planeLatch n s
  let s := s.forL addrs (takeBases p)
  clusterSettles p (s.forL (s.planesOf p) paramBases)

/-- Step 1, the report of a set that is not empty. -/
def latchSet (p result k : Nat) (r : PipeRun) (s : State) : State :=
  if r.pend then
    let s := ((s.wr (F.pipeCommitStatus_RESULT p) result).wr (F.pipeCommitStatus_FW p) (bit r.fw)).wr (F.pipeCommitStatus_LINE p) k
    match r.seq with
    | some q => s.wr (F.pipeCommitSeq_LATCHED p) q
    | none => s
  else s

/-- Step 1, the set's report: nothing is pending any more. -/
def latchReports (p result k : Nat) (r : PipeRun) (s : State) : State :=
  ((latchSet p result k r s).clr (F.pipeCommitStatus_PENDING p)).clr (F.pipeCommitSeq_PENDING p)

/-- Steps 2 and 3. -/
def latchFrees (p : Nat) (drains : Bool) (r : PipeRun) (s : State) : State :=
  let s := checkAddrs p s
  if drains then onPipe p (fun q => { q with drain := q.drain ++ replacedBy r }) s else s.forL (replacedBy r) (release p false)

/-- A pipe whose set, as `r` held it, has latched at blanking line `k`. -/
def setLatched (r : PipeRun) (k : Nat) (q : PipeRun) : PipeRun :=
  { q with pend := false, addrs := [], seq := none, fw := false, deferred := false, aged := false, slots := slotsAfter r,
           latchLine := some k, latchDone := true }

/-- Step 4. -/
def latchRetires (p k : Nat) (late : Bool) (r : PipeRun) (s : State) : State :=
  (onPipe p (setLatched r k) (if late then s else s.incWrap (F.pipeRetired_COUNT p))).clr (F.pipeStatus_WAITING p)

/-- Steps 5 and 6. -/
def latchPrepares (p : Nat) (line0 : Bool) (s : State) : State :=
  let s := stageStart p s
  let s := s.forL (s.planesOf p) ringTake
  if line0 then line0Start p s else s

/-- What follows LATCH. -/
def latchEnds (p : Nat) (kept : Bool) (s : State) : State := rindSafe p (rindEntries p (if kept then s else pipeRaise p 3 s))

/-- Step 1. -/
def latchReported (p result k : Nat) (r : PipeRun) (s : State) : State :=
  latchReports p result k r (latchLayers p r.addrs (pipeLatchRegs p false s))

/-- A latch, up to the stamp. -/
def latchStamped (p result k : Nat) (late : Bool) (r : PipeRun) (s : State) : State :=
  let t := latchPrepares p r.line0 (latchRetires p k late r (latchFrees p (late && r.line0) r (latchReported p result k r s)))
  t.wr (F.pipeLatchStamp_STAMP p) t.now

theorem latchSteps_eq (p result k : Nat) (late : Bool) (s : State) : latchSteps p result k late s =
    latchEnds p (late && (s.pipe p).line0 || (replacedBy (s.pipe p)).isEmpty) (pipeRaise p 1 (latchStamped p result k late (s.pipe p) s)) := rfl

section
variable {p : Nat} {s t : State} (h : Quiet s t)
include h

theorem quiet_latchLayers (addrs : List (Nat × Nat × Nat)) : Quiet s (latchLayers p addrs t) := by
  have hplanes := quiet_forL h (l := t.planesOf p) (f := fun n s => planeLatch n s) fun _ hn _ hu => quiet_planeLatch (planesOf_lt hn) hu
  have hbases := quiet_forL hplanes (l := addrs) (f := takeBases p) fun a _ _ hu => quiet_takeBases hu a
  exact quiet_clusterSettles (quiet_forL hbases fun _ hn _ hu => quiet_paramBases (planesOf_lt hn) hu)

theorem quiet_latchPrepares (line0 : Bool) : Quiet s (latchPrepares p line0 t) := by
  have htaken := quiet_forL (quiet_stageStart h (p := p)) (f := ringTake) (l := (stageStart p t).planesOf p) fun _ hn _ hu =>
    quiet_ringTake (planesOf_lt hn) hu
  exact quiet_ite (quiet_line0Start htaken) htaken

theorem quiet_latchFrees (hp : p < 8) (drains : Bool) (r : PipeRun) : Quiet s (latchFrees p drains r t) := by
  have hchecked := quiet_checkAddrs h (p := p)
  exact quiet_ite (quiet_onPipe hchecked p) (quiet_forL hchecked fun a _ _ hu => quiet_release hp hu false a)

theorem quiet_latchEnds (hp : p < 8) (kept : Bool) : Quiet s (latchEnds p kept t) :=
  quiet_rindSafe hp (quiet_rindEntries (quiet_ite h (quiet_pipeRaise h p (by decide))))

end

/-- A latch moves no register. -/
theorem latchRange_rd (lo hi : Nat) (s : State) (f : Fld) : (latchRange lo hi s).rd f = s.rd f := rfl

/-- A latch of registers beyond a frame-latched field's leaves its value in force. -/
theorem latchRange_lat_outside {lo hi : Nat} {s : State} (h : s.Canonical) {f : Fld} (hgroup : f.group = 1) (hlsb : f.lsb < 64)
    (hhi : lo ≤ hi ∧ hi < 2 ^ 24) (hout : f.off < lo) : (latchRange lo hi s).lat f = s.lat f := by
  have hkey : f.key = 2 ^ 30 + f.off * 64 + f.lsb := by rw [Fld.key, hgroup, Nat.one_mul]
  simp only [State.lat, latchRange]
  rw [get_moveRange_outside h.cells (moveRange_rising h.cells h.latched), get_moveRange_outside h.cells h.latched] <;>
    simp only [offKey] <;> omega

/-- Step 1, the pipe's registers and its tables. -/
def pipeRegsLatch (p : Nat) (s : State) : State :=
  let s := (rindDue p s).wr (F.pipeStatus_LP5X_REASON p) (s.prm (P.pipeLp5x p))
  let s := latchRange (pipeOff p + 0x400) (pipeOff p + 0x424) s
  let s := latchRange (pipeOff p + 0x480) (pipeOff p + 0x4C0) s
  let s := latchRange (pipeOff p + 0x500) (pipeOff p + 0x518) s
  latchRange (0x320000 + p * 0x8000) (0x320000 + p * 0x8000 + 0x6400) s

theorem pipeLatchRegs_eq (p : Nat) (enable : Bool) (s : State) : pipeLatchRegs p enable s = rindLatch p enable (pipeRegsLatch p s) := rfl

/-- `f` is a configured or counted field of what the work for a frame leaves. -/
def PipeRegFld (f : Fld) : Prop := frameKey f.key = true ∧ f.group = 1 ∧ 0x100400 ≤ f.off ∧ f.off < 0x310000 ∧ f.lsb < 64

section
variable {p : Nat} (hp : p < 8) {s : State} (h : s.Canonical)
include hp h

/-- The pipe's registers and its tables: its control fields are in force as last written. -/
theorem pipeRegsLatch_latches : let t := pipeRegsLatch p s
    t.Canonical ∧ (∀ f : Fld, PipeRegFld f → t.rd f = s.rd f) ∧
      (∀ f : Fld, PipeRegFld f → f.off = pipeOff p + 0x400 → t.lat f = s.rd f) ∧ t.pipes = s.pipes := by
  have hjudged := judged_rindDue (judged_refl h) p
  have hread {f : Fld} (hf : PipeRegFld f) (v : Nat) : ((rindDue p s).wr (F.pipeStatus_LP5X_REASON p) v).rd f = s.rd f := by
    obtain ⟨hframe, hgroup, hlow, hhigh, hlsb⟩ := hf
    have hwork : Work (F.pipeStatus_LP5X_REASON p) := work_pipeFlds hp _ (by simp)
    refine (State.rd_wr_other hjudged.1.1 _ _ _ fun e => ?_).trans (judged_rd hjudged hgroup hlow (by omega) hlsb)
    rw [e, hwork.1] at hframe
    cases hframe
  have hpipes : (pipeRegsLatch p s).pipes = s.pipes := hjudged.2
  unfold pipeRegsLatch at hpipes ⊢
  dsimp only at hpipes ⊢
  generalize hu : (rindDue p s).wr (F.pipeStatus_LP5X_REASON p) (s.prm (P.pipeLp5x p)) = u at hpipes ⊢
  have hreason : u.Canonical := hu ▸ State.wr_canonical hjudged.1.1
  have hctl := latchRange_canonical (x0 := pipeOff p + 0x400) (x1 := pipeOff p + 0x424) hreason
  have hline := latchRange_canonical (x0 := pipeOff p + 0x480) (x1 := pipeOff p + 0x4C0) hctl
  have hwb := latchRange_canonical (x0 := pipeOff p + 0x500) (x1 := pipeOff p + 0x518) hline
  refine ⟨latchRange_canonical hwb, fun f hf => ?_, fun f hf hoff => ?_, hpipes⟩
  · simp only [latchRange_rd]
    exact hu ▸ hread hf _
  · have hval : u.rd f = s.rd f := hu ▸ hread hf _
    obtain ⟨-, hgroup, -, -, hlsb⟩ := hf
    have hp0 : pipeOff p = 0x300000 + p * 0x2000 := rfl
    rw [latchRange_lat_outside hwb hgroup hlsb (by omega) (by omega), latchRange_lat_outside hline hgroup hlsb (by omega) (by omega),
      latchRange_lat_outside hctl hgroup hlsb (by omega) (by omega), latchRange_lat hreason hgroup hlsb (by omega) (by omega), hval]

/-- Step 1, the registers. -/
theorem pipeLatchRegs_latches : let t := pipeLatchRegs p false s
    t.Canonical ∧ (∀ f : Fld, PipeRegFld f → t.rd f = s.rd f) ∧
      (∀ f : Fld, PipeRegFld f → f.off = pipeOff p + 0x400 → t.lat f = s.rd f) ∧
      ∀ q, (t.pipe q).raised % 4 = (s.pipe q).raised % 4 := by
  obtain ⟨hcanonical, hrd, hlat, hpipes⟩ := pipeRegsLatch_latches hp h
  have hrind := quiet_rindLatch hp (quiet_refl hcanonical) false
  have hp0 : pipeOff p = 0x300000 + p * 0x2000 := rfl
  rw [pipeLatchRegs_eq]
  refine ⟨hrind.1.1, fun f hf => (quiet_rd hrind hf.1).trans (hrd f hf), fun f hf hoff => ?_, fun q => (hrind.2.2.1 q).trans ?_⟩
  · have hkey := Fld.key_offset (f := f) (by omega) hf.2.2.2.2
    exact (hrind.2.1 f (by omega) (by omega)).trans (hlat f hf hoff)
  · exact congrArg (fun l : List PipeRun => (l.getD q pipe0).raised % 4) hpipes

/-- A set that is not empty is reported. -/
theorem latchSet_reports (result k : Nat) (r : PipeRun) : let t := latchSet p result k r s
    Shows [F.pipeCommitStatus_RESULT p, F.pipeCommitStatus_LINE p] s t ∧
      (r.pend = true → t.rd (F.pipeCommitStatus_RESULT p) = result % 4 ∧ t.rd (F.pipeCommitStatus_LINE p) = k % 8192) := by
  have hresult := shows_wr h (F.pipeCommitStatus_RESULT p) result
  have hfw := quiet_wr (quiet_refl hresult.1) (work_pipeFlds hp (F.pipeCommitStatus_FW p) (by simp)) (bit r.fw)
  have hline := shows_wr hfw.1.1 (F.pipeCommitStatus_LINE p) k
  have hreported := shows_trans hresult (shows_trans (shows_quiet (fs := []) hfw) hline)
  have hresult_line : (F.pipeCommitStatus_RESULT p).key ≠ (F.pipeCommitStatus_LINE p).key :=
    pipeFld_ne (pipeFld_result hp) (pipeFld_commitLine hp) (.inr (by decide))
  have hvalues : (((s.wr (F.pipeCommitStatus_RESULT p) result).wr (F.pipeCommitStatus_FW p) (bit r.fw)).wr (F.pipeCommitStatus_LINE p) k).rd
      (F.pipeCommitStatus_RESULT p) = result % 4 :=
    (State.rd_wr_other hfw.1.1 _ _ _ hresult_line).trans
      ((quiet_rd hfw (frameKey_pipe (pipeFld_result hp) (by decide))).trans (State.rd_wr_same h _ _))
  have hseq (q : Nat) := quiet_wr (quiet_refl hline.1) (work_pipeFlds hp (F.pipeCommitSeq_LATCHED p) (by simp)) q
  unfold latchSet
  by_cases hpend : r.pend = true
  · rw [if_pos hpend]
    cases r.seq with
    | none => exact ⟨hreported, fun _ => ⟨hvalues, State.rd_wr_same hfw.1.1 _ _⟩⟩
    | some q =>
      exact ⟨shows_trans hreported (shows_quiet (fs := []) (hseq q)), fun _ =>
        ⟨(quiet_rd (hseq q) (frameKey_pipe (pipeFld_result hp) (by decide))).trans hvalues,
          (quiet_rd (hseq q) (frameKey_pipe (pipeFld_commitLine hp) (by decide))).trans (State.rd_wr_same hfw.1.1 _ _)⟩⟩
  · rw [if_neg hpend]
    exact ⟨shows_quiet (quiet_refl h), fun hyes => absurd hyes hpend⟩

/-- Step 1, the report: nothing is pending any more, and a set that was is reported. -/
theorem latchReports_reports (result k : Nat) (r : PipeRun) : let t := latchReports p result k r s
    Shows [F.pipeCommitStatus_RESULT p, F.pipeCommitStatus_LINE p, F.pipeCommitStatus_PENDING p] s t ∧
      t.rd (F.pipeCommitStatus_PENDING p) = 0 ∧
      (r.pend = true → t.rd (F.pipeCommitStatus_RESULT p) = result % 4 ∧ t.rd (F.pipeCommitStatus_LINE p) = k % 8192) := by
  have hne {x y : Nat} {f g : Fld} (hg : PipeFld p x g) (hf : PipeFld p y f) (hxy : x ≠ y) : g.key ≠ f.key := pipeFld_ne hg hf (.inr hxy)
  obtain ⟨hshows, hreport⟩ := latchSet_reports hp h result k r
  have hcleared := shows_wr hshows.1 (F.pipeCommitStatus_PENDING p) 0
  have hquiet := quiet_wr (quiet_refl hcleared.1) (work_pipeFlds hp (F.pipeCommitSeq_PENDING p) (by simp)) 0
  have hall := shows_trans hshows (shows_trans hcleared (shows_quiet (fs := []) hquiet))
  have hkept {place : Nat} {f : Fld} (hf : PipeFld p place f) (hshown : shownPlaces.contains place = true) (hplace : place ≠ 0x400) :
      (latchReports p result k r s).rd f = (latchSet p result k r s).rd f :=
    (quiet_rd hquiet (frameKey_pipe hf hshown)).trans (State.rd_wr_other hshows.1 _ _ _ (hne hf (pipeFld_pending hp) hplace))
  refine ⟨hall, (quiet_rd hquiet (frameKey_pipe (pipeFld_pending hp) (by decide))).trans (State.rd_wr_same hshows.1 _ _), fun hpend => ?_⟩
  obtain ⟨hresult, hline⟩ := hreport hpend
  exact ⟨(hkept (pipeFld_result hp) (by decide) (by decide)).trans hresult, (hkept (pipeFld_commitLine hp) (by decide) (by decide)).trans hline⟩

/-- Step 4: the pipe waits no longer, and the frame is retired unless the latch is late. -/
theorem latchRetires_retires (k : Nat) (late : Bool) (r : PipeRun) : let t := latchRetires p k late r s
    Shows [F.pipeRetired_COUNT p, F.pipeStatus_WAITING p] s t ∧ t.rd (F.pipeStatus_WAITING p) = 0 ∧
      t.rd (F.pipeRetired_COUNT p) = if late then s.rd (F.pipeRetired_COUNT p) else
        (s.rd (F.pipeRetired_COUNT p) + 1) % 2 ^ (F.pipeRetired_COUNT p).width := by
  have hcount : Shows [F.pipeRetired_COUNT p] s (if late then s else s.incWrap (F.pipeRetired_COUNT p)) := by
    split
    · exact shows_quiet (quiet_refl h)
    · exact shows_wr h _ _
  have hpipe := quiet_onPipe (quiet_refl hcount.1) p (f := setLatched r k)
  have hwaiting := shows_wr hpipe.1.1 (F.pipeStatus_WAITING p) 0
  refine ⟨shows_trans hcount (shows_trans (shows_quiet (fs := []) hpipe) hwaiting), State.rd_wr_same hpipe.1.1 _ _, ?_⟩
  refine (State.rd_wr_other hpipe.1.1 _ _ _ (pipeFld_ne (pipeFld_retired hp) (pipeFld_waiting hp) (.inr (by decide)))).trans ?_
  rw [onPipe_rd]
  split
  · rfl
  · exact State.rd_wr_same h _ _

end

/-! ### What a latch shows (R182 to R184) -/

/-- What stands up to the latch's report, beside the set's report itself. -/
def LatchKeeps (p : Nat) (s t : State) : Prop :=
  t.now = s.now ∧ t.rd (F.pipeCtl_EN p) = s.rd (F.pipeCtl_EN p) ∧ (∀ n, n < 512 → t.rd (F.intcTgt_DEST n) = s.rd (F.intcTgt_DEST n)) ∧
    t.lat (F.pipeCtl_OBJ_ABOVE p) = s.rd (F.pipeCtl_OBJ_ABOVE p) ∧ t.lat (F.pipeCtl_DITHER p) = s.rd (F.pipeCtl_DITHER p) ∧
    ∀ q, (t.pipe q).raised % 4 = (s.pipe q).raised % 4

theorem dest_offset {n : Nat} (hn : n < 512) : (F.intcTgt_DEST n).key % 2 ^ 30 / 64 = 0x101000 + n * 4 :=
  Fld.key_offset (by simp only [F.intcTgt_DEST]; omega) (by decide : 0 < 64)

section
variable {p : Nat} (hp : p < 8)
include hp

theorem latchKeeps_shows {fs : List Fld} {s t u : State} (h : LatchKeeps p s t) (k : Shows fs t u)
    (hfs : ∀ f ∈ fs, ∃ place, PipeFld p place f ∧ place ≠ 0x10000) : LatchKeeps p s u := by
  obtain ⟨hnow, hen, hdest, habove, hdither, hraised⟩ := h
  have hpipe : ∀ f ∈ fs, ∃ place, PipeFld p place f := fun f hf => (hfs f hf).imp fun _ => And.left
  have hlat {place : Nat} {f : Fld} (hf : PipeFld p place f) (hplace : place < 0x80000) : u.lat f = t.lat f := by
    obtain ⟨hoff, -⟩ := pipeFld_key hf
    exact k.2.2.1 f (by omega) (by omega)
  refine ⟨(shows_now k hpipe).trans hnow, (shows_pipe k (pipeFld_en hp) (by decide) fun f hf => ?_).trans hen, fun n hn => ?_,
    (hlat (pipeFld_objAbove hp) (by decide)).trans habove, (hlat (pipeFld_dither hp) (by decide)).trans hdither,
    fun q => (k.2.2.2 q).trans (hraised q)⟩
  · obtain ⟨place, hplace, hne⟩ := hfs f hf
    exact pipeFld_ne (pipeFld_en hp) hplace (.inr (Ne.symm hne))
  · have hoff := dest_offset hn
    exact (shows_beyond k hpipe (frameKey_dest hn) (by omega)).trans (hdest n hn)

theorem latchKeeps_quiet {s t u : State} (h : LatchKeeps p s t) (k : Quiet t u) : LatchKeeps p s u :=
  latchKeeps_shows hp h (shows_quiet (fs := []) k) (by simp)

theorem latchKeeps_regs {s : State} (h : s.Canonical) : LatchKeeps p s (pipeLatchRegs p false s) := by
  obtain ⟨-, hrd, hlat, hraised⟩ := pipeLatchRegs_latches hp h
  have hreg {place : Nat} {f : Fld} (hf : PipeFld p place f) (hshown : shownPlaces.contains place = true) (hgroup : f.group = 1)
      (hoff : 0x100400 ≤ f.off ∧ f.off < 0x310000) (hlsb : f.lsb < 64) : PipeRegFld f :=
    ⟨frameKey_pipe hf hshown, hgroup, hoff.1, hoff.2, hlsb⟩
  have hbeam {f : Fld} (hf : frameKey f.key = true ∧ f.group = 1 ∧ 0x100400 ≤ f.off ∧ f.off < 0x310000 ∧ f.lsb < 64) := hrd f hf
  refine ⟨?_, hrd _ (hreg (pipeFld_en hp) (by decide) rfl ?_ (by decide : 0 < 64)),
    fun n hn => hrd _ ⟨frameKey_dest hn, rfl, ?_, ?_, (by decide : 0 < 64)⟩,
    hlat _ (hreg (pipeFld_objAbove hp) (by decide) rfl ?_ (by decide : 8 < 64)) ?_,
    hlat _ (hreg (pipeFld_dither hp) (by decide) rfl ?_ (by decide : 6 < 64)) ?_, hraised⟩
  · unfold State.now
    rw [hbeam (by decide), hbeam (by decide), hbeam (by decide)]
  all_goals simp only [F.pipeCtl_EN, F.pipeCtl_OBJ_ABOVE, F.pipeCtl_DITHER, F.intcTgt_DEST, pipeOff]; omega

variable {s : State} (h : s.Canonical) (result k : Nat) (late : Bool) (r : PipeRun)
include h

/-- Step 1: the registers have latched and the set is reported. -/
theorem latchReported_shows : let t := latchReported p result k r s
    LatchKeeps p s t ∧ t.Canonical ∧ t.rd (F.pipeRetired_COUNT p) = s.rd (F.pipeRetired_COUNT p) ∧ t.rd (F.pipeCommitStatus_PENDING p) = 0 ∧
      (r.pend = true → t.rd (F.pipeCommitStatus_RESULT p) = result % 4 ∧ t.rd (F.pipeCommitStatus_LINE p) = k % 8192) := by
  obtain ⟨hregs, hread, -, -⟩ := pipeLatchRegs_latches hp h
  have hlayers := quiet_latchLayers (p := p) (quiet_refl hregs) r.addrs
  obtain ⟨hreports, hpending, hset⟩ := latchReports_reports hp hlayers.1.1 result k r
  have hframe : frameKey (F.pipeRetired_COUNT p).key = true := frameKey_pipe (pipeFld_retired hp) (by decide)
  refine ⟨latchKeeps_shows hp (latchKeeps_quiet hp (latchKeeps_regs hp h) hlayers) hreports ?_, hreports.1, ?_, hpending, hset⟩
  · simp only [List.forall_mem_cons, List.not_mem_nil, false_implies, implies_true, and_true]
    exact ⟨⟨_, pipeFld_result hp, by decide⟩, ⟨_, pipeFld_commitLine hp, by decide⟩, ⟨_, pipeFld_pending hp, by decide⟩⟩
  · refine (shows_pipe hreports (pipeFld_retired hp) (by decide) ?_).trans ((quiet_rd hlayers hframe).trans (hread _ ⟨hframe, rfl, ?_, ?_, ?_⟩))
    · simp only [List.forall_mem_cons, List.not_mem_nil, false_implies, implies_true, and_true]
      exact ⟨pipeFld_ne (pipeFld_retired hp) (pipeFld_result hp) (.inr (by decide)),
        pipeFld_ne (pipeFld_retired hp) (pipeFld_commitLine hp) (.inr (by decide)),
        pipeFld_ne (pipeFld_retired hp) (pipeFld_pending hp) (.inr (by decide))⟩
    all_goals simp only [F.pipeRetired_COUNT]; omega

/-- Up to the stamp, the set has latched and the frame is retired. -/
theorem latchStamped_shows : let t := latchStamped p result k late r s
    LatchKeeps p s t ∧ t.Canonical ∧ t.rd (F.pipeStatus_WAITING p) = 0 ∧ t.rd (F.pipeCommitStatus_PENDING p) = 0 ∧
      t.rd (F.pipeLatchStamp_STAMP p) = s.now ∧
      t.rd (F.pipeRetired_COUNT p) = (if late then s.rd (F.pipeRetired_COUNT p) else
        (s.rd (F.pipeRetired_COUNT p) + 1) % 2 ^ (F.pipeRetired_COUNT p).width) ∧
      (r.pend = true → t.rd (F.pipeCommitStatus_RESULT p) = result % 4 ∧ t.rd (F.pipeCommitStatus_LINE p) = k % 8192) := by
  obtain ⟨hkeeps, hreported, hcount, hpending, hset⟩ := latchReported_shows hp h result k r
  have hfrees := quiet_latchFrees (quiet_refl hreported) hp (late && r.line0) r
  obtain ⟨hretires, hwaiting, hretired⟩ := latchRetires_retires hp hfrees.1.1 k late r
  have hprepares := quiet_latchPrepares (p := p) (quiet_refl hretires.1) r.line0
  have hprepared := latchKeeps_quiet hp (latchKeeps_shows hp (latchKeeps_quiet hp hkeeps hfrees) hretires (by
    simp only [List.forall_mem_cons, List.not_mem_nil, false_implies, implies_true, and_true]
    exact ⟨⟨_, pipeFld_retired hp, by decide⟩, ⟨_, pipeFld_waiting hp, by decide⟩⟩)) hprepares
  have hstamp := shows_wr hprepares.1.1 (F.pipeLatchStamp_STAMP p)
    (latchPrepares p r.line0 (latchRetires p k late r (latchFrees p (late && r.line0) r (latchReported p result k r s)))).now
  have hends {place : Nat} {f : Fld} (hf : PipeFld p place f) (hshown : shownPlaces.contains place = true) (hplace : place ≠ 0x600) :
      (latchStamped p result k late r s).rd f =
        (latchRetires p k late r (latchFrees p (late && r.line0) r (latchReported p result k r s))).rd f :=
    (shows_pipe hstamp hf hshown (by simpa using pipeFld_ne hf (pipeFld_latchStamp hp) (.inr hplace))).trans
      (quiet_rd hprepares (frameKey_pipe hf hshown))
  have hreport {place : Nat} {f : Fld} (hf : PipeFld p place f) (hshown : shownPlaces.contains place = true)
      (hplace : place ≠ 0x600 ∧ place ≠ 0x800 ∧ place ≠ 0x18002) :
      (latchStamped p result k late r s).rd f = (latchReported p result k r s).rd f := by
    obtain ⟨hnstamp, hnretired, hnwaiting⟩ := hplace
    refine (hends hf hshown hnstamp).trans ((shows_pipe hretires hf hshown ?_).trans (quiet_rd hfrees (frameKey_pipe hf hshown)))
    simpa using ⟨pipeFld_ne hf (pipeFld_retired hp) (.inr hnretired), pipeFld_ne hf (pipeFld_waiting hp) (.inr hnwaiting)⟩
  refine ⟨latchKeeps_shows hp hprepared hstamp ?_, hstamp.1, (hends (pipeFld_waiting hp) (by decide) (by decide)).trans hwaiting,
    (hreport (pipeFld_pending hp) (by decide) (by decide)).trans hpending, ?_, (hends (pipeFld_retired hp) (by decide) (by decide)).trans ?_,
    fun hpend => ⟨(hreport (pipeFld_result hp) (by decide) (by decide)).trans (hset hpend).1,
      (hreport (pipeFld_commitLine hp) (by decide) (by decide)).trans (hset hpend).2⟩⟩
  · simpa using ⟨_, pipeFld_latchStamp hp, by decide⟩
  · refine (State.rd_wr_same hprepares.1.1 _ _).trans ((Nat.mod_eq_of_lt (now_lt _)).trans hprepared.1)
  · rw [hretired, quiet_rd hfrees (frameKey_pipe (pipeFld_retired hp) (by decide)), hcount]

omit hp in
/-- A raise changes no value in force. -/
theorem pipeRaise_lat {i : Nat} {f : Fld} : (pipeRaise p i s).lat f = s.lat f := by
  unfold pipeRaise
  split
  · rfl
  · rw [reportRest_raise (onPipe_canonical h)]
    rfl

/-- A latch shows that it came, and raises LATCH. -/
theorem latchSteps_shows (result k : Nat) (late : Bool) : let t := latchSteps p result k late s
    (t.rd (F.pipeStatus_WAITING p) = 0 ∧ t.rd (F.pipeCommitStatus_PENDING p) = 0 ∧ t.rd (F.pipeLatchStamp_STAMP p) = s.now ∧
      t.lat (F.pipeCtl_OBJ_ABOVE p) = s.rd (F.pipeCtl_OBJ_ABOVE p) ∧ t.lat (F.pipeCtl_DITHER p) = s.rd (F.pipeCtl_DITHER p) ∧
      (bitAt (s.pipe p).raised 1 = false → Pends (32 + 12 * p + 1) s t)) ∧
    t.rd (F.pipeCtl_EN p) = s.rd (F.pipeCtl_EN p) ∧
    t.rd (F.pipeRetired_COUNT p) = (if late then s.rd (F.pipeRetired_COUNT p) else
        (s.rd (F.pipeRetired_COUNT p) + 1) % 2 ^ (F.pipeRetired_COUNT p).width) ∧
    ((s.pipe p).pend = true → t.rd (F.pipeCommitStatus_RESULT p) = result % 4 ∧ t.rd (F.pipeCommitStatus_LINE p) = k % 8192) := by
  obtain ⟨⟨-, hen, hdest, habove, hdither, hraised⟩, hcanonical, hwaiting, hpending, hstamp, hretired, hset⟩ :=
    latchStamped_shows hp h result k late (s.pipe p)
  have hsource := pipeRaise_canonical (x0 := p) (x1 := 1) hcanonical
  have hends := quiet_latchEnds (quiet_refl hsource) hp (late && (s.pipe p).line0 || (replacedBy (s.pipe p)).isEmpty)
  have hrd {place : Nat} {f : Fld} (hf : PipeFld p place f) (hshown : shownPlaces.contains place = true) :
      (latchSteps p result k late s).rd f = (latchStamped p result k late (s.pipe p) s).rd f := by
    rw [latchSteps_eq, quiet_rd hends (frameKey_pipe hf hshown), pipeRaise_rd hcanonical (pipeFld_not_delivery hf)]
  have hlat {place : Nat} {f : Fld} (hf : PipeFld p place f) (hplace : place < 0x80000) :
      (latchSteps p result k late s).lat f = (latchStamped p result k late (s.pipe p) s).lat f := by
    obtain ⟨hoff, -⟩ := pipeFld_key hf
    rw [latchSteps_eq, hends.2.1 f (by omega) (by omega), pipeRaise_lat hcanonical]
  refine ⟨⟨(hrd (pipeFld_waiting hp) (by decide)).trans hwaiting, (hrd (pipeFld_pending hp) (by decide)).trans hpending,
    (hrd (pipeFld_latchStamp hp) (by decide)).trans hstamp, (hlat (pipeFld_objAbove hp) (by decide)).trans habove,
    (hlat (pipeFld_dither hp) (by decide)).trans hdither, fun hnoted => ?_⟩, (hrd (pipeFld_en hp) (by decide)).trans hen,
    (hrd (pipeFld_retired hp) (by decide)).trans hretired,
    fun hpend => ⟨(hrd (pipeFld_result hp) (by decide)).trans (hset hpend).1, (hrd (pipeFld_commitLine hp) (by decide)).trans (hset hpend).2⟩⟩
  rw [latchSteps_eq]
  refine pends_of_pipeRaise hp (by decide) hcanonical (hdest _ (by omega)) ?_ (hends.2.2.2 _ (by omega))
  rw [← hnoted]
  have hbit (v : Nat) : bitAt v 1 = bitAt (v % 4) 1 := by simp only [bitAt]; congr 1; omega
  rw [hbit, hraised p, ← hbit]

end

/-! ### The latch line (R181, R182) -/

/-- A gated pipe with nothing pending: it waits, and the frame that its repeat retires is counted. -/
def latchWaits (p : Nat) (s : State) : State :=
  onPipe p (fun r => { r with latchDone := true }) ((s.set1 (F.pipeStatus_WAITING p)).incWrap (F.pipeRetired_COUNT p))

section
variable {p : Fin 8} {s : State} (hblank : s.inBlanking p.val = true)
include hblank

/-- At the latch line of an enabled pipe, its set latches or it waits. -/
theorem pipeLatch_exec (hdone : (s.pipe p.val).latchDone = false) (hblank0 : (s.pipe p.val).atBlank0 = false) (hline : (s.pipe p.val).blank = 0)
    {t : State} (ht : (if s.readyGate p.val && !(s.pipe p.val).pend then latchWaits p.val s
      else latchSteps p.val (if (s.pipe p.val).deferred then 3 else 1) 0 false s) = t)
    (hen : t.rd (F.pipeCtl_EN p.val) = 1) : exec (.pipeLatch p) s = .next t := by
  have hflag : t.flag (F.pipeCtl_EN p.val) = true := by
    rw [State.flag, hen]
    rfl
  unfold latchWaits at ht
  change execPipeLatch p s = _
  simp only [execPipeLatch, hblank, hdone, hblank0, hline, Bool.not_true, Bool.or_false, bne_self_eq_false, Bool.false_eq_true, if_false, ht,
    hflag, if_true]

theorem pipeLateLatch_exec (hdone : (s.pipe p.val).latchDone = true) (hgate : s.readyGate p.val = true)
    (hline : (s.pipe p.val).latchLine = none) (hpend : (s.pipe p.val).pend = true) (haged : (s.pipe p.val).aged = true)
    (hfirst : 1 ≤ (s.pipe p.val).blank) (hlast : (s.pipe p.val).blank ≤ s.vmax p.val - 2) :
    exec (.pipeLateLatch p) s = .next (latchSteps p.val 2 (s.pipe p.val).blank true s) := by
  change execPipeLateLatch p s = _
  simp only [execPipeLateLatch, hblank, hdone, hgate, hline, hpend, haged, hfirst, hlast, Option.isNone_none, decide_true, Bool.and_self, if_true]

end

/-- What a pipe shows that waits, and that it changes nothing else. -/
theorem latchWaits_shows {p : Nat} (hp : p < 8) {s : State} (h : s.Canonical) : let t := latchWaits p s
    t.rd (F.pipeStatus_WAITING p) = 1 ∧
      t.rd (F.pipeRetired_COUNT p) = (s.rd (F.pipeRetired_COUNT p) + 1) % 2 ^ (F.pipeRetired_COUNT p).width ∧
      WroteOnly [F.pipeStatus_WAITING p, F.pipeRetired_COUNT p] s t := by
  have hwaits : (s.set1 (F.pipeStatus_WAITING p)).Canonical := State.wr_canonical h
  have hne : (F.pipeStatus_WAITING p).key ≠ (F.pipeRetired_COUNT p).key := pipeFld_ne (pipeFld_waiting hp) (pipeFld_retired hp) (.inr (by decide))
  refine ⟨(State.rd_wr_other hwaits _ _ _ hne).trans (State.rd_wr_same h _ _), (State.rd_wr_same hwaits _ _).trans ?_, fun g hg => ?_⟩
  · rw [State.set1, State.rd_wr_other h _ _ _ (Ne.symm hne)]
  · exact (State.rd_wr_other hwaits _ _ _ (hg _ (by simp))).trans (State.rd_wr_other h _ _ _ (hg _ (by simp)))

end Sys2Proof.Machine

section
open Sys2Proof Sys2Proof.Machine
set_option Elab.async false

/-- Settles O16: of what the pipe shows, the steps of a latch write the fields that the statement names and no other
(`latchStamped_shows`), and what follows LATCH leaves them and keeps it pending (`latchSteps_shows`). -/
theorem pipeLatches : Obligations.PipeLatches := by
  intro s p h hblank hen
  dsimp only
  refine ⟨fun hdone hblank0 hline => ⟨fun hgate hpend => ?_, fun hlatch => ?_⟩, fun hdone hgate hline hpend haged hfirst hwidth hlast => ?_⟩
  · obtain ⟨hwaiting, hretired, honly⟩ := latchWaits_shows p.isLt h
    have hkept : (latchWaits p.val s).rd (F.pipeCtl_EN p.val) = 1 := (honly _ (by
      simpa using ⟨pipeFld_ne (pipeFld_en p.isLt) (pipeFld_waiting p.isLt) (.inr (by decide)),
        pipeFld_ne (pipeFld_en p.isLt) (pipeFld_retired p.isLt) (.inr (by decide))⟩)).trans hen
    exact ⟨latchWaits p.val s, pipeLatch_exec hblank hdone hblank0 hline (by rw [hgate, hpend]; rfl) hkept, hwaiting, hretired, rfl, honly⟩
  · obtain ⟨hlatched, hkept, hretired, hset⟩ := latchSteps_shows p.isLt h (if (s.pipe p.val).deferred then 3 else 1) 0 false
    have hgo : ¬ (s.readyGate p.val && !(s.pipe p.val).pend) = true := by
      rcases hlatch with hfree | hpend
      · simp [hfree]
      · simp [hpend]
    refine ⟨_, pipeLatch_exec hblank hdone hblank0 hline (if_neg hgo) (hkept.trans hen), hlatched, hretired, fun hpend => (hset hpend).1.trans ?_⟩
    split <;> rfl
  · obtain ⟨hlatched, -, hretired, hset⟩ := latchSteps_shows p.isLt h 2 (s.pipe p.val).blank true
    obtain ⟨hresult, hshown⟩ := hset hpend
    exact ⟨_, pipeLateLatch_exec hblank hdone hgate hline hpend haged hfirst hlast, hlatched, hretired, hresult,
      hshown.trans (Nat.mod_eq_of_lt hwidth)⟩

end

namespace Sys2Proof.Machine

-- One declaration after another: the memory limit of the check counts the stack of every thread that elaborates beside them.
set_option Elab.async false

/-! ### The fields of the camera ports and streams (R225, R226) -/

/-- `f` is a field of row `row` of camera ingest, at `place`: its register's offset in the row times 64, and its LSB. Port `k` has row `k`,
stream `n` row `16 + n`. -/
def CamFld (row place : Nat) (f : Fld) : Prop :=
  row < 32 ∧ place < 0x4000 ∧ f.off = 0x600000 + row * 0x100 + place / 64 ∧ f.lsb = place % 64

section
variable {k : Nat} (hk : k < 4)
include hk

theorem camFld_csiEn : CamFld k 0 (F.csiCtl_EN k) := ⟨by omega, by decide, rfl, rfl⟩
theorem camFld_csiState : CamFld k 0x200 (F.csiStatus_STATE k) := ⟨by omega, by decide, by simp only [F.csiStatus_STATE]; omega, rfl⟩
theorem camFld_csiHealth : CamFld k 0x202 (F.csiStatus_HEALTH k) := ⟨by omega, by decide, by simp only [F.csiStatus_HEALTH]; omega, rfl⟩
theorem camFld_eccCe : CamFld k 0x400 (F.csiErr0_ECC_CE k) := ⟨by omega, by decide, by simp only [F.csiErr0_ECC_CE]; omega, rfl⟩
theorem camFld_dtUnsupp : CamFld k 0x510 (F.csiErr1_DT_UNSUPP k) := ⟨by omega, by decide, by simp only [F.csiErr1_DT_UNSUPP]; omega, rfl⟩
theorem camFld_resync : CamFld k 0x518 (F.csiErr1_RESYNC k) := ⟨by omega, by decide, by simp only [F.csiErr1_RESYNC]; omega, rfl⟩

end

/-- A field of stream `n`, from its offset. -/
theorem camFld_stream {n place : Nat} (hn : n < 16) {f : Fld} (hplace : place < 0x4000) (hoff : f.off = 0x601000 + n * 0x100 + place / 64)
    (hlsb : f.lsb = place % 64) : CamFld (16 + n) place f := ⟨by omega, hplace, by omega, hlsb⟩

section
variable {n : Nat} (hn : n < 16)
include hn

theorem camFld_streamEn : CamFld (16 + n) 0 (F.streamCtl_EN n) := camFld_stream hn (by decide) rfl rfl
theorem camFld_raced : CamFld (16 + n) 0xE (F.streamCtl_RACED n) := camFld_stream hn (by decide) rfl rfl
theorem camFld_height : CamFld (16 + n) 0x110 (F.streamSize_H n) := camFld_stream hn (by decide) (by simp only [F.streamSize_H]; omega) rfl
theorem camFld_ringBase : CamFld (16 + n) 0x200 (F.streamRingBase_ADDR n) := camFld_stream hn (by decide) (by simp only [F.streamRingBase_ADDR]; omega) rfl
theorem camFld_stride : CamFld (16 + n) 0x400 (F.streamStride_BYTES n) := camFld_stream hn (by decide) (by simp only [F.streamStride_BYTES]; omega) rfl
theorem camFld_spacing : CamFld (16 + n) 0x500 (F.streamSpacing_BYTES n) := camFld_stream hn (by decide) (by simp only [F.streamSpacing_BYTES]; omega) rfl
theorem camFld_landBase : CamFld (16 + n) 0x600 (F.streamLandBase_ADDR n) := camFld_stream hn (by decide) (by simp only [F.streamLandBase_ADDR]; omega) rfl
theorem camFld_landLines : CamFld (16 + n) 0x800 (F.streamLand_LINES n) := camFld_stream hn (by decide) (by simp only [F.streamLand_LINES]; omega) rfl
theorem camFld_timeout : CamFld (16 + n) 0x900 (F.streamTimeout_US n) := camFld_stream hn (by decide) (by simp only [F.streamTimeout_US]; omega) rfl
theorem camFld_state : CamFld (16 + n) 0x1000 (F.streamStatus_STATE n) := camFld_stream hn (by decide) (by simp only [F.streamStatus_STATE]; omega) rfl
theorem camFld_newest : CamFld (16 + n) 0x1004 (F.streamStatus_NEWEST n) := camFld_stream hn (by decide) (by simp only [F.streamStatus_NEWEST]; omega) rfl
theorem camFld_newestValid : CamFld (16 + n) 0x1007 (F.streamStatus_NEWEST_VALID n) := camFld_stream hn (by decide) (by simp only [F.streamStatus_NEWEST_VALID]; omega) rfl
theorem camFld_writing : CamFld (16 + n) 0x1008 (F.streamStatus_WRITING n) := camFld_stream hn (by decide) (by simp only [F.streamStatus_WRITING]; omega) rfl
theorem camFld_line : CamFld (16 + n) 0x1010 (F.streamStatus_LINE n) := camFld_stream hn (by decide) (by simp only [F.streamStatus_LINE]; omega) rfl
theorem camFld_short : CamFld (16 + n) 0x1100 (F.streamErrs_SHORT n) := camFld_stream hn (by decide) (by simp only [F.streamErrs_SHORT]; omega) rfl
theorem camFld_long : CamFld (16 + n) 0x1108 (F.streamErrs_LONG n) := camFld_stream hn (by decide) (by simp only [F.streamErrs_LONG]; omega) rfl
theorem camFld_corrupt : CamFld (16 + n) 0x1110 (F.streamErrs_CORRUPT n) := camFld_stream hn (by decide) (by simp only [F.streamErrs_CORRUPT]; omega) rfl
theorem camFld_late : CamFld (16 + n) 0x1200 (F.streamRace_LATE n) := camFld_stream hn (by decide) (by simp only [F.streamRace_LATE]; omega) rfl
theorem camFld_overrun : CamFld (16 + n) 0x1210 (F.streamRace_OVERRUN n) := camFld_stream hn (by decide) (by simp only [F.streamRace_OVERRUN]; omega) rfl
theorem camFld_orphanFe : CamFld (16 + n) 0x1510 (F.streamOrphan_FE n) := camFld_stream hn (by decide) (by simp only [F.streamOrphan_FE]; omega) rfl
theorem camFld_feStamp : CamFld (16 + n) 0x1600 (F.streamFeStamp_STAMP n) := camFld_stream hn (by decide) (by simp only [F.streamFeStamp_STAMP]; omega) rfl

section
variable {b : Nat} (hb : b < 8)
include hb

theorem camFld_fsStamp : CamFld (16 + n) (0x2000 + b * 0x400) (F.streamBuf_FS_STAMP n b) :=
  camFld_stream hn (by omega) (by simp only [F.streamBuf_FS_STAMP]; omega) (by simp only [F.streamBuf_FS_STAMP]; omega)
theorem camFld_complete : CamFld (16 + n) (0x2030 + b * 0x400) (F.streamBuf_COMPLETE n b) :=
  camFld_stream hn (by omega) (by simp only [F.streamBuf_COMPLETE]; omega) (by simp only [F.streamBuf_COMPLETE]; omega)
theorem camFld_bufErr : CamFld (16 + n) (0x2031 + b * 0x400) (F.streamBuf_ERR n b) :=
  camFld_stream hn (by omega) (by simp only [F.streamBuf_ERR]; omega) (by simp only [F.streamBuf_ERR]; omega)
theorem camFld_bufLong : CamFld (16 + n) (0x2033 + b * 0x400) (F.streamBuf_LONG n b) :=
  camFld_stream hn (by omega) (by simp only [F.streamBuf_LONG]; omega) (by simp only [F.streamBuf_LONG]; omega)
theorem camFld_bufWriting : CamFld (16 + n) (0x2034 + b * 0x400) (F.streamBuf_WRITING n b) :=
  camFld_stream hn (by omega) (by simp only [F.streamBuf_WRITING]; omega) (by simp only [F.streamBuf_WRITING]; omega)
theorem camFld_seq : CamFld (16 + n) (0x2200 + b * 0x400) (F.streamBufSeq_SEQ n b) :=
  camFld_stream hn (by omega) (by simp only [F.streamBufSeq_SEQ]; omega) (by simp only [F.streamBufSeq_SEQ]; omega)
theorem camFld_frameNum : CamFld (16 + n) (0x2220 + b * 0x400) (F.streamBufSeq_FRAME_NUM n b) :=
  camFld_stream hn (by omega) (by simp only [F.streamBufSeq_FRAME_NUM]; omega) (by simp only [F.streamBufSeq_FRAME_NUM]; omega)

end

end

/-- The registers of a source's destination stand before those of camera ingest. -/
theorem intcTgt_DEST_low {n : Nat} (hn : n < 512) : (F.intcTgt_DEST n).key % 2 ^ 30 / 64 < 0x600000 := by
  rw [Fld.key_offset (by simp only [F.intcTgt_DEST]; omega) (by decide : 0 < 64)]
  simp only [F.intcTgt_DEST]
  omega

section
variable {row place : Nat} {f : Fld} (hf : CamFld row place f)
include hf

theorem camFld_key : f.key % 2 ^ 30 / 64 = 0x600000 + row * 0x100 + place / 64 ∧ f.key % 0x4000 = place := by
  obtain ⟨hrow, hplace, hoff, hlsb⟩ := hf
  refine ⟨(Fld.key_offset (by omega) (by omega)).trans hoff, ?_⟩
  unfold Fld.key
  omega

/-- Fields at different places have different keys. -/
theorem camFld_ne {row' place' : Nat} {g : Fld} (hg : CamFld row' place' g) (hne : place ≠ place') : f.key ≠ g.key := by
  obtain ⟨-, hplace⟩ := camFld_key hf
  intro e
  rw [e, (camFld_key hg).2] at hplace
  exact hne hplace.symm

/-- A field of a register outside camera ingest has another key. -/
theorem camFld_ne_outside {g : Fld} (hg : g.key % 2 ^ 30 / 64 < 0x600000 ∨ 0x602000 ≤ g.key % 2 ^ 30 / 64) : f.key ≠ g.key := by
  obtain ⟨hoff, -⟩ := camFld_key hf
  obtain ⟨hrow, hplace, -, -⟩ := hf
  intro e
  rw [e] at hoff
  omega

theorem camFld_not_manager : managerKey f.key = false := by
  have hwake : f.key ≠ F.pwrStatus_WAKE_REQ.key := camFld_ne_outside hf (.inl (by decide))
  obtain ⟨hoff, -⟩ := camFld_key hf
  simp [managerKey, reportKey, deliveryKey, hwake]
  omega

theorem camFld_not_report : reportKey f.key = false := not_report_of_not_manager (camFld_not_manager hf)

theorem camFld_not_delivery : deliveryKey f.key = false := not_delivery_of_not_report (camFld_not_report hf)

theorem camFld_not_dest {n : Nat} (hn : n < 512) : (F.intcTgt_DEST n).key ≠ f.key :=
  (camFld_ne_outside hf (.inl (intcTgt_DEST_low hn))).symm

theorem camFld_not_pend {n : Nat} (hn : n < 512) : f.key ≠ (F.intcPendSet_SRC (n / 32)).key := by
  refine camFld_ne_outside hf (.inl ?_)
  rw [Fld.key_offset (by simp only [F.intcPendSet_SRC]; omega) (by decide : 0 < 64)]
  simp only [F.intcPendSet_SRC]
  omega

end

end Sys2Proof.Machine

namespace Sys2Proof.Machine

-- One declaration after another: the memory limit of the check counts the stack of every thread that elaborates beside them.
set_option Elab.async false

/-! ### The beam moved within its line (R54) -/

section
variable {s : State} (h : s.Canonical) (dot : Nat)
include h

theorem atDot_rd_other {g : Fld} (hg : g.key ≠ F.beamNow_DOT.key) : (s.atDot dot).rd g = s.rd g := by
  unfold State.atDot
  split
  · exact State.rd_wr_other h _ _ _ hg
  · rfl

theorem atDot_cam {row place : Nat} {f : Fld} (hf : CamFld row place f) : (s.atDot dot).rd f = s.rd f :=
  atDot_rd_other h dot (camFld_ne_outside hf (.inl (by decide)))

end

/-! ### A stream beside its registers (R208 to R219) -/

/-- A stream in a frame, or with a frame to complete, is one of those that the state lists. -/
theorem stream_lt {s : State} {n : Nat} (h : s.stream n ≠ stream0) : n < s.cam.streams.length := by
  by_contra hn
  exact h (List.getD_eq_default _ _ (by omega))

theorem stream_lt_of_inFrame {s : State} {n : Nat} (h : (s.stream n).inFrame = true) : n < s.cam.streams.length :=
  stream_lt fun e => by rw [e] at h; cases h

theorem stream_lt_of_done {s : State} {n : Nat} {d : Nat × Bool × Bool} (h : (s.stream n).done = some d) : n < s.cam.streams.length :=
  stream_lt fun e => by rw [e] at h; cases h

theorem onStream_stream {n : Nat} {f : StreamRun → StreamRun} {s : State} (hn : n < s.cam.streams.length) :
    (onStream n f s).stream n = f (s.stream n) := by
  simp [State.stream, onStream, modAt, hn]

/-- What a change of a stream leaves of it. -/
theorem onStream_proj {α : Type} {g : StreamRun → α} {f : StreamRun → StreamRun} (hg : ∀ r, g (f r) = g r) (n : Nat) (s : State) :
    g ((onStream n f s).stream n) = g (s.stream n) := by
  by_cases hn : n < s.cam.streams.length
  · rw [onStream_stream hn, hg]
  · rw [State.stream, State.stream, List.getD_eq_default _ _ (by simpa [onStream, modAt] using hn), List.getD_eq_default _ _ (by omega)]

@[simp] theorem onStream_length (n : Nat) (f : StreamRun → StreamRun) (s : State) : (onStream n f s).cam.streams.length = s.cam.streams.length :=
  List.length_modify ..

@[simp] theorem onStream_now (n : Nat) (f : StreamRun → StreamRun) (s : State) : (onStream n f s).now = s.now := rfl

theorem writes_cam {fs : List Fld} {s t : State} (h : Writes fs s t) : t.cam = s.cam := by
  obtain ⟨-, -, hregs⟩ := h
  rw [hregs]

theorem writes_mem {fs : List Fld} {s t : State} (h : Writes fs s t) : t.mem = s.mem := by
  obtain ⟨-, -, hregs⟩ := h
  rw [hregs]

/-! ### What the events of camera ingest leave (R224) -/

/-- From `s` to `t`, of the register fields at most those in `fs` and the delivery's changed, and beside them only what a delivery changes
and the notes of the events raised in this reference frame. -/
def Notes (fs : List Fld) (s t : State) : Prop :=
  t.Canonical ∧ RaisedOnly fs s t ∧ t = { s with
    cells := t.cells, intc := t.intc, hif := { s.hif with out := t.hif.out }, casc := { s.casc with intrOut := t.casc.intrOut },
    cam := { s.cam with evtCur := t.cam.evtCur, evtSeen := t.cam.evtSeen, portSeen := t.cam.portSeen } }

theorem notes_refl {fs : List Fld} {s : State} (h : s.Canonical) : Notes fs s s := ⟨h, fun _ _ _ => rfl, rfl⟩

section
variable {fs : List Fld} {s t : State} (h : Notes fs s t)
include h

theorem notes_canonical : t.Canonical := h.1

theorem notes_trans {u : State} (k : Notes fs t u) : Notes fs s u := by
  obtain ⟨-, hrd, hrest⟩ := h
  obtain ⟨hu, krd, krest⟩ := k
  refine ⟨hu, fun g hg hf => (krd g hg hf).trans (hrd g hg hf), ?_⟩
  rw [krest, hrest]

theorem notes_mono {gs : List Fld} (hsub : fs ⊆ gs) : Notes gs s t := by
  obtain ⟨hc, hrd, hrest⟩ := h
  exact ⟨hc, fun g hg hgs => hrd g hg fun f hf => hgs f (hsub hf), hrest⟩

theorem notes_wr {f : Fld} (hf : f ∈ fs) (v : Nat) : Notes fs s (t.wr f v) :=
  notes_trans h ⟨State.wr_canonical h.1, fun g _ hg => State.rd_wr_other h.1 f g v (hg f hf), rfl⟩

theorem notes_inc {f : Fld} (hf : f ∈ fs) : Notes fs s (t.inc f) := notes_wr h hf _

theorem notes_does {u : State} (k : Does fs t u) : Notes fs s u := by
  obtain ⟨hu, hrd, hrest⟩ := k
  refine notes_trans h ⟨hu, hrd, ?_⟩
  unfold DeliveryOnly at hrest
  rw [hrest]

theorem notes_raise (n : Nat) : Notes fs s (raise n t) := notes_does h (does_raise (does_refl h.1) n)

theorem notes_ite {c : Prop} [Decidable c] {u : State} (hu : Notes fs s u) : Notes fs s (if c then t else u) := by
  split
  · exact h
  · exact hu

/-- Beside the registers, only notes of events changed. -/
theorem notes_events {u : State} (hu : u = { t with cam := { t.cam with
    evtCur := u.cam.evtCur, evtSeen := u.cam.evtSeen, portSeen := u.cam.portSeen } }) : Notes fs s u := by
  have hc : u.Canonical := by
    rw [hu]
    exact rest_canonical h.1
  refine notes_trans h ⟨hc, fun g _ _ => ?_, ?_⟩
  · rw [hu]
    rfl
  · rw [hu]

theorem notes_rd {g : Fld} (hg : deliveryKey g.key = false) (hfs : ∀ f ∈ fs, g.key ≠ f.key) : t.rd g = s.rd g := h.2.1 g hg hfs

theorem notes_rest : t = { s with
    cells := t.cells, intc := t.intc, hif := { s.hif with out := t.hif.out }, casc := { s.casc with intrOut := t.casc.intrOut },
    cam := { s.cam with evtCur := t.cam.evtCur, evtSeen := t.cam.evtSeen, portSeen := t.cam.portSeen } } := h.2.2

theorem notes_mem : t.mem = s.mem := by rw [notes_rest h]
theorem notes_planes : t.planes = s.planes := by rw [notes_rest h]
theorem notes_fault : t.fault = s.fault := by rw [notes_rest h]
theorem notes_streams : t.cam.streams = s.cam.streams := by rw [notes_rest h]

theorem notes_stream (n : Nat) : t.stream n = s.stream n := by rw [State.stream, notes_streams h, State.stream]

end

/-- Event `e` of stream `n` is noted for the current reference frame, and as raised in it. -/
def eventNoted (n e : Nat) (s : State) : State :=
  { s with cam := { s.cam with evtCur := s.cam.evtCur.set e (s.cam.evtCur.getD e 0 ||| 2 ^ n)
                               evtSeen := s.cam.evtSeen.set e (s.cam.evtSeen.getD e 0 ||| 2 ^ n) } }

theorem streamEvent_raises {n e : Nat} {s : State} (hseen : bitAt (s.cam.evtSeen.getD e 0) n = false) :
    streamEvent n e s = raise (180 + e) (eventNoted n e s) := by
  unfold streamEvent
  dsimp only
  rw [hseen]
  rfl

theorem notes_streamEvent {fs : List Fld} {s t : State} (h : Notes fs s t) (n e : Nat) : Notes fs s (streamEvent n e t) := by
  unfold streamEvent
  exact notes_ite (notes_events h rfl) (notes_raise (notes_events h rfl) _)

theorem notes_csiError {fs : List Fld} {s t : State} (h : Notes fs s t) (k : Nat) : Notes fs s (csiError k t) := by
  unfold csiError
  exact notes_ite h (notes_raise (notes_events h rfl) _)

/-- An event leaves which streams raised another one. -/
theorem streamEvent_seen {n e e' : Nat} (hne : e ≠ e') {s : State} (h : s.Canonical) :
    (streamEvent n e s).cam.evtSeen.getD e' 0 = s.cam.evtSeen.getD e' 0 := by
  unfold streamEvent
  dsimp only
  split
  · rfl
  · have hraised (m : Nat) {u : State} (hu : u.Canonical) : (raise m u).cam = u.cam := by
      rw [reportRest_raise hu m]
    rw [hraised _ (rest_canonical h)]
    simp [List.getD_eq_getElem?_getD, List.getElem?_set_ne hne]

/-! ### Who receives a packet (R206, R208) -/

section
variable {s : State} (h : s.Canonical) (dot : Nat)
include h

theorem atDot_csiReceives {k : Nat} (hk : k < 4) : (s.atDot dot).csiReceives k = s.csiReceives k := by
  rw [State.csiReceives, State.csiReceives, State.flag_eq (atDot_cam h dot (camFld_csiEn hk)), atDot_cam h dot (camFld_csiState hk)]

theorem atDot_vcStreams (k vc : Nat) : (s.atDot dot).vcStreams k vc = s.vcStreams k vc := by
  have hdot (g : Fld) (hg : g.key ≠ F.beamNow_DOT.key) : (s.atDot dot).rd g = s.rd g := atDot_rd_other h dot hg
  have hfeed (n : Nat) : (s.atDot dot).feedOf n = s.feedOf n := by
    unfold State.feedOf State.flag
    congr 1
    funext k
    rw [hdot (F.cascFeedCtl_EN k) (by simp [Fld.key, Fld.group, F.cascFeedCtl_EN, F.beamNow_DOT]; omega),
      hdot (F.cascFeedCtl_STREAM k) (by simp [Fld.key, Fld.group, F.cascFeedCtl_STREAM, F.beamNow_DOT]; omega)]
  have hctl (n : Nat) : (s.atDot dot).rd (F.streamCtl_EN n) = s.rd (F.streamCtl_EN n) ∧
      (s.atDot dot).rd (F.streamCtl_PORT n) = s.rd (F.streamCtl_PORT n) ∧ (s.atDot dot).rd (F.streamCtl_VC n) = s.rd (F.streamCtl_VC n) := by
    refine ⟨hdot _ ?_, hdot _ ?_, hdot _ ?_⟩ <;>
      simp [Fld.key, Fld.group, F.streamCtl_EN, F.streamCtl_PORT, F.streamCtl_VC, F.beamNow_DOT] <;> omega
  unfold State.vcStreams State.portStreams
  simp only [hfeed, State.flag, hctl]

end

/-- A packet that is used, of a port that receives. -/
theorem csiPacket_none {k : Nat} {s : State} (hreceives : s.csiReceives k = true) (f : State → State) : csiPacket k .none f s = f s := by
  simp only [csiPacket, csiHeader, hreceives, Bool.not_true, Bool.false_eq_true, if_false, if_true]

/-- A packet that one stream of its port and channel takes. -/
theorem csiPacket_one {k vc n : Nat} (hk : k < 4) {s : State} (h : s.Canonical) (dot : Nat)
    (hone : s.csiReceives k = true ∧ s.vcStreams k vc = [n]) (f : Nat → State → State) :
    csiPacket k .none (fun u => u.forL (u.vcStreams k vc) f) (s.atDot dot) = f n (s.atDot dot) := by
  obtain ⟨hreceives, hstreams⟩ := hone
  rw [csiPacket_none ((atDot_csiReceives h dot hk).trans hreceives), atDot_vcStreams h dot, hstreams]
  rfl

end Sys2Proof.Machine

namespace Sys2Proof.Machine

-- One declaration after another: the memory limit of the check counts the stack of every thread that elaborates beside them.
set_option Elab.async false

/-! ### Fields of one row written one after another -/

/-- The fields `fs` are those of row `row` at `places`, in order. -/
def Placed (row : Nat) (places : List Nat) (fs : List Fld) : Prop := List.Forall₂ (CamFld row) places fs

section
variable {row : Nat} {places : List Nat}

theorem placed_ne {fs : List Fld} (h : Placed row places fs) {row' place : Nat} {f : Fld} (hf : CamFld row' place f) (hplace : place ∉ places) :
    ∀ g ∈ fs, f.key ≠ g.key := by
  induction h with
  | nil => simp
  | cons hg _ ih =>
    rw [List.mem_cons, not_or] at hplace
    simpa using ⟨camFld_ne hf hg hplace.1, ih hplace.2⟩

theorem placed_outside {fs : List Fld} (h : Placed row places fs) {g : Fld} (hg : g.key % 2 ^ 30 / 64 < 0x600000) : ∀ f ∈ fs, g.key ≠ f.key := by
  induction h with
  | nil => simp
  | cons hf _ ih => simpa using ⟨(camFld_ne_outside hf (.inl hg)).symm, ih⟩

theorem placed_nodup {fs : List Fld} (h : Placed row places fs) (hnodup : places.Nodup) : (fs.map Fld.key).Nodup := by
  induction h with
  | nil => exact List.nodup_nil
  | cons hf htail ih =>
    obtain ⟨hplace, hnodup⟩ := List.nodup_cons.1 hnodup
    refine List.nodup_cons.2 ⟨fun hmem => ?_, ih hnodup⟩
    obtain ⟨g, hg, e⟩ := List.mem_map.1 hmem
    exact placed_ne htail hf hplace g hg e.symm

/-- A write of fields of camera ingest leaves the beam. -/
theorem writes_now {fs : List Fld} (hfs : Placed row places fs) {s t : State} (h : Writes fs s t) : t.now = s.now := by
  have hbeam (g : Fld) (hg : g.key % 2 ^ 30 / 64 < 0x600000) : t.rd g = s.rd g := writes_rd h (placed_outside hfs hg)
  simp only [State.now, hbeam F.beamNow_FRAME (by decide), hbeam F.beamNow_LINE (by decide), hbeam F.beamNow_DOT (by decide)]

section
variable {s : State} (h : s.Canonical) {l : List (Fld × Nat)} (hl : Placed row places (l.map Prod.fst))
include h hl

theorem setFlds_shows (hnodup : places.Nodup) {f : Fld} {v : Nat} (hf : (f, v) ∈ l) : (setFlds l s).rd f = v % 2 ^ f.width := by
  refine rd_setFlds h ?_ hf
  simpa [Function.comp_def] using placed_nodup hl hnodup

theorem setFlds_leaves {row' place : Nat} {f : Fld} (hf : CamFld row' place f) (hplace : place ∉ places) : (setFlds l s).rd f = s.rd f :=
  writes_rd (writes_setFlds h l) (placed_ne hl hf hplace)

theorem setFlds_now : (setFlds l s).now = s.now := writes_now hl (writes_setFlds h l)

end

end

/-! ### A frame starts (R211, R214) -/

theorem frameEnd_outside {n : Nat} {s : State} (h : (s.stream n).inFrame = false) (fe : Bool) : frameEnd n fe s = s := by
  simp [frameEnd, h]

theorem frameComplete_none {n : Nat} {s : State} (h : (s.stream n).done = none) : frameComplete n s = s := by
  simp [frameComplete, h]

/-- The stream's own state in a frame that has just started. -/
def frameOpened (frameNum now : Nat) (buf : Option Nat) (r : StreamRun) : StreamRun :=
  { r with frames := r.frames + 1, inFrame := true, buf := buf, frameNum := frameNum, lines := 0, corrupt := false, since := now }

/-- What STATUS shows of a frame that has just started. -/
def startShown (n : Nat) : List (Fld × Nat) := [(F.streamStatus_STATE n, 2), (F.streamStatus_LINE n, 0)]

/-- NEWEST no longer counts where it is the buffer taken. -/
def newestTaken (n b : Nat) (s : State) : State :=
  if s.flag (F.streamStatus_NEWEST_VALID n) && s.rd (F.streamStatus_NEWEST n) == b then s.clr (F.streamStatus_NEWEST_VALID n) else s

/-- What the buffer that a frame takes shows. -/
def bufTaken (n b now : Nat) : List (Fld × Nat) :=
  [(F.streamBuf_COMPLETE n b, 0), (F.streamBuf_ERR n b, 0), (F.streamBuf_LONG n b, 0), (F.streamBuf_FS_STAMP n b, now),
   (F.streamBuf_WRITING n b, 1), (F.streamStatus_WRITING n, b)]

/-- The places of the fields of buffer `b`, and that of WRITING in STATUS. -/
def bufTakenPlaces (b : Nat) : List Nat :=
  [0x2030 + b * 0x400, 0x2031 + b * 0x400, 0x2033 + b * 0x400, 0x2000 + b * 0x400, 0x2034 + b * 0x400, 0x1008]

theorem writes_newestTaken {n b : Nat} {s : State} (h : s.Canonical) : Writes [F.streamStatus_NEWEST_VALID n] s (newestTaken n b s) :=
  writes_ite (writes_wr (writes_refl h) (by simp) _) (writes_refl h)

section
variable {n : Nat} (hn : n < 16) {b : Nat} (hb : b < 8)
include hn

theorem startShown_placed : Placed (16 + n) [0x1000, 0x1010] ((startShown n).map Prod.fst) :=
  .cons (camFld_state hn) (.cons (camFld_line hn) .nil)

include hb

theorem bufTaken_placed (now : Nat) : Placed (16 + n) (bufTakenPlaces b) ((bufTaken n b now).map Prod.fst) :=
  .cons (camFld_complete hn hb) (.cons (camFld_bufErr hn hb) (.cons (camFld_bufLong hn hb) (.cons (camFld_fsStamp hn hb)
    (.cons (camFld_bufWriting hn hb) (.cons (camFld_writing hn) .nil)))))

variable {s : State} (h : s.Canonical)
include h

/-- A frame that takes buffer `b`: its fields are written one after another. -/
theorem frameBegin_takes (hframe : (s.stream n).inFrame = false) (hdone : (s.stream n).done = none) (hring : s.ringChoose n = some b)
    (frameNum : Nat) : frameBegin n frameNum s =
      setFlds (bufTaken n b s.now) (newestTaken n b (setFlds (startShown n) (onStream n (frameOpened frameNum s.now (some b)) s))) := by
  have hopened : (onStream n (frameOpened frameNum s.now (some b)) s).Canonical := onStream_canonical h
  have hshown := writes_setFlds hopened (startShown n)
  have hnewest := writes_newestTaken (n := n) (b := b) hshown.1
  have hcleared : Placed (16 + n) ((bufTakenPlaces b).take 3) (((bufTaken n b 0).take 3).map Prod.fst) :=
    .cons (camFld_complete hn hb) (.cons (camFld_bufErr hn hb) (.cons (camFld_bufLong hn hb) .nil))
  have hnow : (setFlds ((bufTaken n b 0).take 3) (newestTaken n b (setFlds (startShown n)
      (onStream n (frameOpened frameNum s.now (some b)) s)))).now = s.now :=
    (setFlds_now hnewest.1 hcleared).trans
      ((writes_now (.cons (camFld_newestValid hn) .nil) hnewest).trans (setFlds_now hopened (startShown_placed hn)))
  have hbegin : frameBegin n frameNum s = setFlds (bufTaken n b (setFlds ((bufTaken n b 0).take 3) (newestTaken n b (setFlds (startShown n)
      (onStream n (frameOpened frameNum s.now (some b)) s)))).now)
      (newestTaken n b (setFlds (startShown n) (onStream n (frameOpened frameNum s.now (some b)) s))) := by
    unfold frameBegin
    rw [frameEnd_outside hframe, frameComplete_none hdone]
    dsimp only
    rw [hring]
    rfl
  rw [hbegin, hnow]

/-- What the stream shows in a frame that has just started. -/
theorem frameBegin_shows (hstream : n < s.cam.streams.length) (hframe : (s.stream n).inFrame = false) (hdone : (s.stream n).done = none)
    (hring : s.ringChoose n = some b) (frameNum : Nat) : let t := frameBegin n frameNum s
    t.rd (F.streamStatus_STATE n) = 2 ∧ t.rd (F.streamStatus_LINE n) = 0 ∧ t.rd (F.streamStatus_WRITING n) = b ∧
      t.rd (F.streamBuf_WRITING n b) = 1 ∧ t.rd (F.streamBuf_COMPLETE n b) = 0 ∧ t.rd (F.streamBuf_FS_STAMP n b) = s.now ∧
      t.stream n = frameOpened frameNum s.now (some b) (s.stream n) ∧ t.mem = s.mem := by
  have hopened : (onStream n (frameOpened frameNum s.now (some b)) s).Canonical := onStream_canonical h
  have hshown := writes_setFlds hopened (startShown n)
  have hnewest := writes_newestTaken (n := n) (b := b) hshown.1
  have htaken := writes_setFlds hnewest.1 (bufTaken n b s.now)
  have hplaced := bufTaken_placed hn hb s.now
  have hnodup : (bufTakenPlaces b).Nodup := by
    simp [bufTakenPlaces]
    omega
  dsimp only
  rw [frameBegin_takes hn hb h hframe hdone hring]
  have hstatus {place : Nat} {f : Fld} {v : Nat} (hf : CamFld (16 + n) place f) (hmem : (f, v) ∈ startShown n)
      (hbuf : place < 0x1008 ∨ 0x1008 < place ∧ place < 0x2000) (hvalid : place ≠ 0x1007) :
      (setFlds (bufTaken n b s.now) (newestTaken n b (setFlds (startShown n) (onStream n (frameOpened frameNum s.now (some b)) s)))).rd f =
        v % 2 ^ f.width := by
    refine (setFlds_leaves hnewest.1 hplaced hf ?_).trans ((writes_rd hnewest (placed_ne (.cons (camFld_newestValid hn) .nil) hf (by simpa using hvalid))).trans
      (setFlds_shows hopened (startShown_placed hn) (by decide) hmem))
    simp [bufTakenPlaces]
    omega
  have hbuf {f : Fld} {v : Nat} (hmem : (f, v) ∈ bufTaken n b s.now) := setFlds_shows hnewest.1 hplaced hnodup hmem
  refine ⟨hstatus (v := 2) (camFld_state hn) (by simp [startShown]) (by decide) (by decide),
    hstatus (v := 0) (camFld_line hn) (by simp [startShown]) (by decide) (by decide),
    (hbuf (v := b) (by simp [bufTaken])).trans (Nat.mod_eq_of_lt hb), hbuf (v := 1) (by simp [bufTaken]), hbuf (v := 0) (by simp [bufTaken]),
    (hbuf (v := s.now) (by simp [bufTaken])).trans (Nat.mod_eq_of_lt (now_lt s)), ?_, ?_⟩
  · rw [State.stream, writes_cam htaken, writes_cam hnewest, writes_cam hshown]
    exact onStream_stream hstream
  · rw [writes_mem htaken, writes_mem hnewest, writes_mem hshown, onStream_mem]

end

/-! ### A frame ends (R212, R213) -/

/-- The stream's own state after its frame. -/
def frameClosed (r : StreamRun) : StreamRun := { r with inFrame := false, buf := none }

/-- A frame that ended short, counted, and noted where it is the stream's first faulty one in the reference frame. -/
def shortCounted (n : Nat) (s : State) : State :=
  let t := streamEvent n 0 (s.inc (F.streamErrs_SHORT n))
  let t := if s.rd (F.streamSize_H n) < (s.stream n).lines then streamEvent n 0 (t.inc (F.streamErrs_LONG n)) else t
  if (s.stream n).corrupt then t.inc (F.streamErrs_CORRUPT n) else t

/-- A frame that ends short leaves its buffer free. -/
def shortEnded (n : Nat) (s : State) : State :=
  match (s.stream n).buf with
  | some b => (shortCounted n s).clr (F.streamBuf_WRITING n b)
  | none => shortCounted n s

section
variable {n : Nat} {s : State}

theorem frameEnd_short (hframe : (s.stream n).inFrame = true) {fe : Bool} (hshort : fe = false ∨ (s.stream n).lines < s.rd (F.streamSize_H n)) :
    frameEnd n fe s = onStream n frameClosed (shortEnded n s) := by
  have hgood : (!fe || decide ((s.stream n).lines < s.rd (F.streamSize_H n))) = true := by
    rcases hshort with rfl | hlines
    · rfl
    · simp [hlines]
  unfold frameEnd shortEnded shortCounted
  simp only [hframe, hgood, Bool.not_true, Bool.false_eq_true, if_false, if_true, Bool.false_and]
  rfl

theorem frameEnd_complete (hframe : (s.stream n).inFrame = true) (hlines : (s.stream n).lines = s.rd (F.streamSize_H n))
    (hcorrupt : (s.stream n).corrupt = false) {b : Nat} (hbuf : (s.stream n).buf = some b) :
    frameEnd n true s = onStream n frameClosed (onStream n (fun q => { q with done := some (b, false, false) }) s) := by
  unfold frameEnd frameClosed
  simp [hframe, hlines, hcorrupt, hbuf]

end

section
variable {n : Nat} {s : State} (h : s.Canonical)
include h

/-- What follows the count of a short frame. -/
theorem notes_afterShort : Notes [F.streamErrs_LONG n, F.streamErrs_CORRUPT n] (s.inc (F.streamErrs_SHORT n)) (shortCounted n s) := by
  have hinc : (s.inc (F.streamErrs_SHORT n)).Canonical := State.inc_canonical h
  have hshort := notes_streamEvent (notes_refl (fs := [F.streamErrs_LONG n, F.streamErrs_CORRUPT n]) hinc) n 0
  have hlong := notes_ite (c := s.rd (F.streamSize_H n) < (s.stream n).lines)
    (notes_streamEvent (notes_inc hshort (f := F.streamErrs_LONG n) (by simp)) n 0) hshort
  exact notes_ite (notes_inc hlong (f := F.streamErrs_CORRUPT n) (by simp)) hlong

theorem notes_shortCounted : Notes [F.streamErrs_SHORT n, F.streamErrs_LONG n, F.streamErrs_CORRUPT n] s (shortCounted n s) :=
  notes_trans (notes_inc (notes_refl h) (by simp)) (notes_mono (notes_afterShort h) (List.subset_cons_self _ _))

theorem shortCounted_counts (hn : n < 16) : Counted (F.streamErrs_SHORT n) s (shortCounted n s) :=
  (notes_rd (notes_afterShort h) (camFld_not_delivery (camFld_short hn))
    (placed_ne (.cons (camFld_long hn) (.cons (camFld_corrupt hn) .nil)) (camFld_short hn) (by decide))).trans (rd_inc_same h _)

end

end Sys2Proof.Machine

namespace Sys2Proof.Machine

-- One declaration after another: the memory limit of the check counts the stack of every thread that elaborates beside them.
set_option Elab.async false

/-! ### The frame's last write is acknowledged (R212) -/

/-- What STATUS, FE_STAMP and the buffer show of a complete frame. -/
def completeShown (n b : Nat) (err long : Bool) (seq frameNum now : Nat) : List (Fld × Nat) :=
  [(F.streamBuf_COMPLETE n b, 1), (F.streamBuf_ERR n b, bit err), (F.streamBuf_LONG n b, bit long), (F.streamBuf_WRITING n b, 0),
   (F.streamStatus_NEWEST n, b), (F.streamStatus_NEWEST_VALID n, 1), (F.streamBufSeq_SEQ n b, seq), (F.streamBufSeq_FRAME_NUM n b, frameNum),
   (F.streamFeStamp_STAMP n, now)]

def completePlaces (b : Nat) : List Nat :=
  [0x2030 + b * 0x400, 0x2031 + b * 0x400, 0x2033 + b * 0x400, 0x2034 + b * 0x400, 0x1004, 0x1007, 0x2200 + b * 0x400, 0x2220 + b * 0x400, 0x1600]

/-- The stream's own state after a complete frame. -/
def frameDone (age : List Nat) (r : StreamRun) : StreamRun := { r with done := none, count := r.count + 1, age := age }

/-- Each buffer's count at its last completion, after one in buffer `b`. -/
def agesAfter (b : Nat) (r : StreamRun) : List Nat := (List.range 8).map fun c => if c = b then r.count + 1 else r.age.getD c 0

section
variable {n : Nat} (hn : n < 16) {b : Nat} (hb : b < 8)
include hn hb

theorem completeShown_placed (err long : Bool) (seq frameNum now : Nat) :
    Placed (16 + n) (completePlaces b) ((completeShown n b err long seq frameNum now).map Prod.fst) :=
  .cons (camFld_complete hn hb) (.cons (camFld_bufErr hn hb) (.cons (camFld_bufLong hn hb) (.cons (camFld_bufWriting hn hb)
    (.cons (camFld_newest hn) (.cons (camFld_newestValid hn) (.cons (camFld_seq hn hb) (.cons (camFld_frameNum hn hb)
    (.cons (camFld_feStamp hn) .nil))))))))

/-- The same up to FE_STAMP. -/
theorem completeShown_placed8 (err long : Bool) (seq frameNum now : Nat) :
    Placed (16 + n) ((completePlaces b).take 8) (((completeShown n b err long seq frameNum now).take 8).map Prod.fst) :=
  .cons (camFld_complete hn hb) (.cons (camFld_bufErr hn hb) (.cons (camFld_bufLong hn hb) (.cons (camFld_bufWriting hn hb)
    (.cons (camFld_newest hn) (.cons (camFld_newestValid hn) (.cons (camFld_seq hn hb) (.cons (camFld_frameNum hn hb) .nil)))))))

variable {err long : Bool} {s : State} (h : s.Canonical) (hdone : (s.stream n).done = some (b, err, long))
include h hdone

theorem frameComplete_eq : frameComplete n s = raise (160 + n) (onStream n (frameDone (agesAfter b (s.stream n)))
    (setFlds (completeShown n b err long ((s.stream n).count + 1) (s.stream n).frameNum s.now) s)) := by
  have hnow := setFlds_now h (completeShown_placed8 hn hb err long ((s.stream n).count + 1) (s.stream n).frameNum 0)
  have hcomplete : frameComplete n s = raise (160 + n) (onStream n (frameDone (agesAfter b (s.stream n)))
      (setFlds (completeShown n b err long ((s.stream n).count + 1) (s.stream n).frameNum
        (setFlds ((completeShown n b err long ((s.stream n).count + 1) (s.stream n).frameNum 0).take 8) s).now) s)) := by
    unfold frameComplete
    dsimp only
    rw [hdone]
    rfl
  rw [hcomplete, hnow]

/-- The buffer becomes NEWEST, and FRAME_DONE of the stream is raised. -/
theorem frameComplete_shows : let t := frameComplete n s
    t.rd (F.streamStatus_NEWEST n) = b ∧ t.rd (F.streamStatus_NEWEST_VALID n) = 1 ∧ t.rd (F.streamBuf_COMPLETE n b) = 1 ∧
      t.rd (F.streamBuf_WRITING n b) = 0 ∧ t.rd (F.streamBuf_ERR n b) = (if err then 1 else 0) ∧
      t.rd (F.streamBuf_LONG n b) = (if long then 1 else 0) ∧ t.rd (F.streamFeStamp_STAMP n) = s.now ∧ (t.stream n).done = none ∧
      Pends (160 + n) s t ∧ t.mem = s.mem := by
  have hplaced := completeShown_placed hn hb err long ((s.stream n).count + 1) (s.stream n).frameNum s.now
  have hwrites := writes_setFlds h (completeShown n b err long ((s.stream n).count + 1) (s.stream n).frameNum s.now)
  have hsource : (onStream n (frameDone (agesAfter b (s.stream n)))
      (setFlds (completeShown n b err long ((s.stream n).count + 1) (s.stream n).frameNum s.now) s)).Canonical := onStream_canonical hwrites.1
  have hnotes := notes_raise (notes_refl (fs := []) hsource) (160 + n)
  have hbit (c : Bool) : bit c % 2 ^ 1 = if c then 1 else 0 := by cases c <;> rfl
  have hnodup : (completePlaces b).Nodup := by
    simp [completePlaces]
    omega
  have hassigned : srcAssigned (160 + n) = true := by
    simp [srcAssigned]
    omega
  dsimp only
  rw [frameComplete_eq hn hb h hdone]
  have hrd {place : Nat} {f : Fld} {v : Nat} (hf : CamFld (16 + n) place f)
      (hmem : (f, v) ∈ completeShown n b err long ((s.stream n).count + 1) (s.stream n).frameNum s.now) :
      (raise (160 + n) (onStream n (frameDone (agesAfter b (s.stream n)))
        (setFlds (completeShown n b err long ((s.stream n).count + 1) (s.stream n).frameNum s.now) s))).rd f = v % 2 ^ f.width :=
    (raise_rd hsource _ f (camFld_not_delivery hf)).trans ((onStream_rd _ _ _ f).trans (setFlds_shows h hplaced hnodup hmem))
  refine ⟨(hrd (v := b) (camFld_newest hn) (by simp [completeShown])).trans (Nat.mod_eq_of_lt hb),
    hrd (v := 1) (camFld_newestValid hn) (by simp [completeShown]), hrd (v := 1) (camFld_complete hn hb) (by simp [completeShown]),
    hrd (v := 0) (camFld_bufWriting hn hb) (by simp [completeShown]),
    (hrd (v := bit err) (camFld_bufErr hn hb) (by simp [completeShown])).trans (hbit err),
    (hrd (v := bit long) (camFld_bufLong hn hb) (by simp [completeShown])).trans (hbit long),
    (hrd (v := s.now) (camFld_feStamp hn) (by simp [completeShown])).trans (Nat.mod_eq_of_lt (now_lt s)), ?_, ?_, ?_⟩
  · have hlisted : n < (setFlds (completeShown n b err long ((s.stream n).count + 1) (s.stream n).frameNum s.now) s).cam.streams.length := by
      rw [writes_cam hwrites]
      exact stream_lt_of_done hdone
    rw [notes_stream hnotes, onStream_stream hlisted]
    rfl
  · refine pends_of_raise hsource hassigned ?_ id
    have hdest : (F.intcTgt_DEST (160 + n)).key % 2 ^ 30 / 64 < 0x600000 := intcTgt_DEST_low (by omega)
    exact (onStream_rd ..).trans (writes_rd hwrites (placed_outside hplaced hdest))
  · rw [notes_mem hnotes, onStream_mem, writes_mem hwrites]

end

/-! ### The packets that start and end frames (R211 to R214) -/

/-- Camera `n` is the one that receives on a virtual channel of a port. -/
def Receives (port vc n : Nat) (s : State) : Prop := s.csiReceives port = true ∧ s.vcStreams port vc = [n]

theorem atDot_mem_cam (s : State) (dot : Nat) : (s.atDot dot).mem = s.mem ∧ (s.atDot dot).cam = s.cam := by
  rw [atDot_rest]
  exact ⟨rfl, rfl⟩

theorem atDot_stream (s : State) (dot n : Nat) : (s.atDot dot).stream n = s.stream n := by
  rw [State.stream, (atDot_mem_cam s dot).2, State.stream]

theorem atDot_ringChoose {s : State} (h : s.Canonical) (dot n : Nat) : (s.atDot dot).ringChoose n = s.ringChoose n := by
  have hdot (g : Fld) (hg : g.key ≠ F.beamNow_DOT.key) : (s.atDot dot).rd g = s.rd g := atDot_rd_other h dot hg
  have hrd : (s.atDot dot).rd (F.streamCtl_RING_M1 n) = s.rd (F.streamCtl_RING_M1 n) ∧
      (s.atDot dot).rd (F.streamStatus_NEWEST n) = s.rd (F.streamStatus_NEWEST n) ∧
      (s.atDot dot).rd (F.streamStatus_NEWEST_VALID n) = s.rd (F.streamStatus_NEWEST_VALID n) := by
    refine ⟨hdot _ ?_, hdot _ ?_, hdot _ ?_⟩ <;>
      simp [Fld.key, Fld.group, F.streamCtl_RING_M1, F.streamStatus_NEWEST, F.streamStatus_NEWEST_VALID, F.beamNow_DOT] <;> omega
  obtain ⟨hring, hnewest, hvalid⟩ := hrd
  have hplanes : (s.atDot dot).planes = s.planes := by rw [atDot_rest]
  unfold State.ringChoose State.ringCount State.flag
  rw [hring, hnewest, hvalid, hplanes, atDot_stream]

/-- An FE that ends a frame. -/
theorem frameFe_ends {n : Nat} {s : State} (hframe : (s.stream n).inFrame = true) :
    frameFe n s = onStream n (fun r => { r with since := s.now }) (frameEnd n true s) := by
  rw [frameFe, if_pos hframe]

section
variable {s : State} (h : s.Canonical) {port : Fin 4} {vc n : Fin 16} (frameNum : BitVec 16) (dot : Nat) {b : Fin 8}
include h

theorem csiFs_exec (hone : Receives port.val vc.val n.val s) :
    exec (.csiFs port vc frameNum .none dot) s = .next (frameBegin n.val frameNum.toNat (s.atDot dot)) := by
  change execCsiFs port vc frameNum .none dot s = _
  rw [execCsiFs, csiPacket_one port.isLt h dot hone]

theorem csiFe_exec (hone : Receives port.val vc.val n.val s) :
    exec (.csiFe port vc frameNum .none dot) s = .next (frameFe n.val (s.atDot dot)) := by
  change execCsiFe port vc frameNum .none dot s = _
  rw [execCsiFe, csiPacket_one port.isLt h dot hone]

/-- An FS takes a buffer of the ring and starts the frame. -/
theorem csiFs_starts (hone : Receives port.val vc.val n.val s) (hstream : n.val < s.cam.streams.length) (hframe : (s.stream n.val).inFrame = false)
    (hdone : (s.stream n.val).done = none) (hring : s.ringChoose n.val = some b.val) :
    Leads (.csiFs port vc frameNum .none dot) s fun t =>
      t.rd (F.streamStatus_STATE n.val) = 2 ∧ t.rd (F.streamStatus_LINE n.val) = 0 ∧ t.rd (F.streamStatus_WRITING n.val) = b.val ∧
      t.rd (F.streamBuf_WRITING n.val b.val) = 1 ∧ t.rd (F.streamBuf_COMPLETE n.val b.val) = 0 ∧
      t.rd (F.streamBuf_FS_STAMP n.val b.val) = (s.atDot dot).now ∧
      t.stream n.val = frameOpened frameNum.toNat (s.atDot dot).now (some b.val) (s.stream n.val) ∧ t.mem = s.mem := by
  obtain ⟨hmem, hcam⟩ := atDot_mem_cam s dot
  have hstart := frameBegin_shows n.isLt b.isLt (State.atDot_canonical (x1 := dot) h) (by rwa [hcam]) (by rwa [atDot_stream])
    (by rwa [atDot_stream]) (by rwa [atDot_ringChoose h]) frameNum.toNat
  rw [hmem, atDot_stream] at hstart
  exact ⟨_, csiFs_exec h frameNum dot hone, hstart⟩

/-- An FE after all lines of a frame, none corrupt, leaves it to be completed with its last write. -/
theorem csiFe_completes (hone : Receives port.val vc.val n.val s) (hframe : (s.stream n.val).inFrame = true)
    (hlines : (s.stream n.val).lines = s.rd (F.streamSize_H n.val)) (hcorrupt : (s.stream n.val).corrupt = false)
    (hbuf : (s.stream n.val).buf = some b.val) : Leads (.csiFe port vc frameNum .none dot) s fun t =>
      t.stream n.val = { s.stream n.val with inFrame := false, buf := none, done := some (b.val, false, false), since := (s.atDot dot).now } ∧
      t.rd (F.streamErrs_SHORT n.val) = s.rd (F.streamErrs_SHORT n.val) ∧ t.mem = s.mem := by
  obtain ⟨hmem, hcam⟩ := atDot_mem_cam s dot
  have hstream := atDot_stream s dot n.val
  have hheight := atDot_cam h dot (camFld_height n.isLt)
  have hshort := atDot_cam h dot (camFld_short n.isLt)
  have hlisted : n.val < (s.atDot dot).cam.streams.length := hcam ▸ stream_lt_of_inFrame hframe
  refine ⟨_, csiFe_exec h frameNum dot hone, ?_⟩
  rw [← hstream] at hframe hlines hcorrupt hbuf ⊢
  rw [← hheight] at hlines
  rw [frameFe_ends hframe, frameEnd_complete hframe hlines hcorrupt hbuf]
  refine ⟨?_, hshort, hmem⟩
  rw [onStream_stream (by simpa using hlisted), onStream_stream (by simpa using hlisted), onStream_stream hlisted]
  rfl

/-- An FE before all lines of a frame ends it short. -/
theorem csiFe_short (hone : Receives port.val vc.val n.val s) (hframe : (s.stream n.val).inFrame = true)
    (hlines : (s.stream n.val).lines < s.rd (F.streamSize_H n.val)) (hbuf : (s.stream n.val).buf = some b.val) :
    Leads (.csiFe port vc frameNum .none dot) s fun t =>
      Counted (F.streamErrs_SHORT n.val) s t ∧ (t.stream n.val).inFrame = false ∧
      (t.stream n.val).done = (s.stream n.val).done ∧ t.rd (F.streamBuf_WRITING n.val b.val) = 0 := by
  have hstream := atDot_stream s dot n.val
  have hshort := atDot_cam h dot (camFld_short n.isLt)
  have hu := State.atDot_canonical (x1 := dot) h
  refine ⟨_, csiFe_exec h frameNum dot hone, ?_⟩
  rw [← atDot_cam h dot (camFld_height n.isLt)] at hlines
  rw [← hstream] at hframe hlines hbuf ⊢
  rw [Counted, ← hshort, frameFe_ends hframe, frameEnd_short hframe (.inr hlines)]
  have hended : shortEnded n.val (s.atDot dot) = (shortCounted n.val (s.atDot dot)).clr (F.streamBuf_WRITING n.val b.val) := by
    rw [shortEnded, hbuf]
  have hnotes := notes_shortCounted (n := n.val) hu
  have hlisted : n.val < (shortEnded n.val (s.atDot dot)).cam.streams.length := by
    rw [hended, State.clr_cam, notes_streams hnotes]
    exact stream_lt_of_inFrame hframe
  simp only [onStream_rd]
  rw [onStream_stream (by simpa using hlisted), onStream_stream hlisted, hended]
  have hdone : ((shortCounted n.val (s.atDot dot)).stream n.val).done = ((s.atDot dot).stream n.val).done := by rw [notes_stream hnotes]
  refine ⟨?_, rfl, hdone, rd_clr_same hnotes.1 _⟩
  exact (State.rd_wr_other hnotes.1 _ _ _ (camFld_ne (camFld_short n.isLt) (camFld_bufWriting n.isLt b.isLt) (by omega))).trans
    (shortCounted_counts hu n.isLt)

/-- An FE outside a frame is counted, and ignored. -/
theorem csiFe_orphan (hone : Receives port.val vc.val n.val s) (hframe : (s.stream n.val).inFrame = false) :
    Leads (.csiFe port vc frameNum .none dot) s fun t => Counted (F.streamOrphan_FE n.val) s t ∧ t.cam = s.cam := by
  have hout : frameFe n.val (s.atDot dot) = (s.atDot dot).inc (F.streamOrphan_FE n.val) := by
    rw [frameFe, atDot_stream, hframe, if_neg Bool.false_ne_true]
  refine ⟨_, (csiFe_exec h frameNum dot hone).trans (congrArg _ hout), ?_, (atDot_mem_cam s dot).2⟩
  rw [Counted, rd_inc_same (State.atDot_canonical h), atDot_cam h dot (camFld_orphanFe n.isLt)]

/-- The acknowledgement of a frame's last write makes its buffer NEWEST. -/
theorem streamFrameComplete_completes {err long : Bool} (hdone : (s.stream n.val).done = some (b.val, err, long)) :
    Leads (.streamFrameComplete n dot) s fun t =>
      t.rd (F.streamStatus_NEWEST n.val) = b.val ∧ t.rd (F.streamStatus_NEWEST_VALID n.val) = 1 ∧
      t.rd (F.streamBuf_COMPLETE n.val b.val) = 1 ∧ t.rd (F.streamBuf_WRITING n.val b.val) = 0 ∧
      t.rd (F.streamBuf_ERR n.val b.val) = (if err then 1 else 0) ∧ t.rd (F.streamBuf_LONG n.val b.val) = (if long then 1 else 0) ∧
      t.rd (F.streamFeStamp_STAMP n.val) = (s.atDot dot).now ∧ (t.stream n.val).done = none ∧ Pends (160 + n.val) s t ∧ t.mem = s.mem := by
  have hn := n.isLt
  obtain ⟨hnewest, hvalid, hcomplete, hwriting, herr, hlong, hstamp, hnone, hpends, hmem⟩ :=
    frameComplete_shows hn b.isLt (State.atDot_canonical (x1 := dot) h) (by rwa [atDot_stream])
  rw [Pends, atDot_rd_dest h dot (by omega)] at hpends
  exact ⟨_, rfl, hnewest, hvalid, hcomplete, hwriting, herr, hlong, hstamp, hnone, hpends, hmem.trans (atDot_mem_cam s dot).1⟩

end

end Sys2Proof.Machine

section
open Sys2Proof Sys2Proof.Machine
set_option Elab.async false

/-- Settles O19: an FS writes the fields of STATUS and of the buffer that it takes one after another (`frameBegin_shows`), an FE either
leaves a whole frame to be completed or counts a short one (`frameEnd_complete`, `frameEnd_short`), and the completion writes fields of
the buffer and of STATUS and raises FRAME_DONE (`frameComplete_shows`). That a frame with a missing line is not complete, whatever
ACCEPT_ERR, is the model's choice (log entry 15). -/
theorem cameraFrames : Obligations.CameraFrames := by
  unfold Obligations.CameraFrames
  intro s port vc n frameNum dot b err long h u r only
  exact ⟨csiFs_starts h frameNum dot, csiFe_completes h frameNum dot, csiFe_short h frameNum dot, csiFe_orphan h frameNum dot,
    streamFrameComplete_completes h dot⟩
end

namespace Sys2Proof.Machine

-- One declaration after another: the memory limit of the check counts the stack of every thread that elaborates beside them.
set_option Elab.async false

/-! ### The first upset of a unit whose HEALTH its own chapter shows (R557 to R559) -/

/-- The fields in which a unit's state and counts show. -/
def unitFlds (id : Nat) : List Fld :=
  [F.fltU_STATE (id / 256) (id % 256), F.fltU_COUNT60 (id / 256) (id % 256), F.fltU_ATTEMPTS (id / 256) (id % 256),
   F.fltU_TOTAL (id / 256) (id % 256)]

/-- The fields of a unit's change of state, beside STATE, the summary counts and HEALTH. -/
def changeFlds (id : Nat) : List Fld :=
  [F.fltU_CAUSE (id / 256) (id % 256), F.fltLast_UNIT, F.fltLast_CAUSE, F.fltLast_STATE, F.fltLastStamp_STAMP, F.fltSummary_FAULT_N]

theorem unitFlds_nodup (id : Nat) : ((unitFlds id).map Fld.key).Nodup := by
  simp [unitFlds, Fld.key, Fld.group, F.fltU_STATE, F.fltU_COUNT60, F.fltU_ATTEMPTS, F.fltU_TOTAL]

section
variable {id : Nat} (hid : id < 0xA00)
include hid

theorem unitFlds_offset {f : Fld} (hf : f ∈ unitFlds id) :
    f.key % 2 ^ 30 / 64 = 0x83100 + id / 256 * 0x100 + id % 256 * 0x4 ∧ f.key % 64 ≠ 8 := by
  simp only [unitFlds, List.mem_cons, List.not_mem_nil, or_false] at hf
  rcases hf with rfl | rfl | rfl | rfl <;>
    simp [Fld.key, Fld.group, F.fltU_STATE, F.fltU_COUNT60, F.fltU_ATTEMPTS, F.fltU_TOTAL] <;> omega

/-- A unit's state and counts are none of the other fields of a change of state. -/
theorem unitFlds_ne_change {f g : Fld} (hf : f ∈ unitFlds id) (hg : g ∈ F.fltSummary_SUSPECT :: F.fltSummary_RETIRED :: changeFlds id) :
    f.key ≠ g.key := by
  obtain ⟨hoff, hlsb⟩ := unitFlds_offset hid hf
  intro e
  rw [e] at hoff hlsb
  simp only [changeFlds, List.mem_cons, List.not_mem_nil, or_false] at hg
  rcases hg with rfl | rfl | rfl | rfl | rfl | rfl | rfl | rfl <;>
    simp [Fld.key, Fld.group, F.fltU_CAUSE, F.fltLast_UNIT, F.fltLast_CAUSE, F.fltLast_STATE, F.fltLastStamp_STAMP, F.fltSummary_FAULT_N,
      F.fltSummary_SUSPECT, F.fltSummary_RETIRED] at hoff hlsb <;> omega

theorem unitFlds_not_report {f : Fld} (hf : f ∈ unitFlds id) : reportKey f.key = false := by
  obtain ⟨hoff, -⟩ := unitFlds_offset hid hf
  have hwake : f.key ≠ F.pwrStatus_WAKE_REQ.key := fun e => by
    rw [e, show F.pwrStatus_WAKE_REQ.key % 2 ^ 30 / 64 = 0x82000 from rfl] at hoff
    omega
  simp [reportKey, deliveryKey, hwake]
  omega

omit hid in
/-- The counts of a unit shown from the manager's record; its state and total stand. -/
theorem showCounts_unit {s : State} (h : s.Canonical) : let t := showCounts id s
    t.rd (F.fltU_COUNT60 (id / 256) (id % 256)) = min 31 ((s.fltUnit id).upsets.filter (s.within 60000000)).length ∧
    t.rd (F.fltU_ATTEMPTS (id / 256) (id % 256)) = min 3 ((s.fltUnit id).attempts.filter (s.within 1000000)).length ∧
    t.rd (F.fltU_STATE (id / 256) (id % 256)) = s.rd (F.fltU_STATE (id / 256) (id % 256)) ∧
    t.rd (F.fltU_TOTAL (id / 256) (id % 256)) = s.rd (F.fltU_TOTAL (id / 256) (id % 256)) := by
  have hne := unitFlds_nodup id
  simp only [unitFlds, List.map_cons, List.map_nil, List.nodup_cons, List.mem_cons, List.not_mem_nil, or_false, not_or] at hne
  obtain ⟨⟨hstateCount, hstateAttempts, -⟩, ⟨hcountAttempts, hcountTotal⟩, hattemptsTotal, -⟩ := hne
  have hcounted (v : Nat) := State.wr_canonical (x1 := F.fltU_COUNT60 (id / 256) (id % 256)) (x2 := v) h
  dsimp only
  rw [showCounts]
  refine ⟨?_, ?_, ?_, ?_⟩
  · rw [State.rd_wr_other (hcounted _) _ _ _ hcountAttempts, State.rd_wr_same h]
    exact Nat.mod_eq_of_lt (lt_of_le_of_lt (Nat.min_le_left _ _) (by decide : 31 < 2 ^ 5))
  · rw [State.rd_wr_same (hcounted _)]
    exact Nat.mod_eq_of_lt (lt_of_le_of_lt (Nat.min_le_left _ _) (by decide : 3 < 2 ^ 2))
  · rw [State.rd_wr_other (hcounted _) _ _ _ hstateAttempts, State.rd_wr_other h _ _ _ hstateCount]
  · rw [State.rd_wr_other (hcounted _) _ _ _ (Ne.symm hattemptsTotal), State.rd_wr_other h _ _ _ (Ne.symm hcountTotal)]

end

/-- Unit `id` stands in state `st`, counted `total` times in all and once in the last minute, with the manager's record of one upset at
`stamp` and no attempt. -/
def UpsetOnce (id st total stamp : Nat) (t : State) : Prop :=
  t.rd (F.fltU_STATE (id / 256) (id % 256)) = st ∧ t.rd (F.fltU_COUNT60 (id / 256) (id % 256)) = 1 ∧
    t.rd (F.fltU_TOTAL (id / 256) (id % 256)) = total ∧ (t.fltUnit id).upsets = [stamp] ∧ (t.fltUnit id).attempts = []

/-- The total after one more upset. -/
def totalNext (id : Nat) (s : State) : Nat :=
  min (s.rd (F.fltU_TOTAL (id / 256) (id % 256)) + 1) (2 ^ (F.fltU_TOTAL (id / 256) (id % 256)).width - 1)

section
variable {id : Nat} (hid : id < 0xA00) {s : State} (h : s.Canonical)
include hid h

theorem firstUpset_once (hfresh : Fresh id s) :
    Manages 490 s (firstUpset id s) ∧ UpsetOnce id 0 (totalNext id s) s.now (firstUpset id s) := by
  obtain ⟨hstate, -, -, -, hattempts, -⟩ := hfresh
  have hset : (upsetNoted id s).Canonical := setFltUnit_canonical h
  have hrecord := fltUnit_upsetNoted id s
  have hmanaged : Manages 490 s ((upsetNoted id s).inc (F.fltU_TOTAL (id / 256) (id % 256))) :=
    manages_unitReg (by decide) hid (manages_setFltUnit (manages_refl h) _) (by simp) _
  have hcounts : Manages 490 s (firstUpset id s) := manages_unitCounts (by decide) hid hmanaged
  obtain ⟨hcount, -, hshown, htotal⟩ := showCounts_unit (id := id) hmanaged.1.1
  have hne := unitFlds_nodup id
  simp only [unitFlds, List.map_cons, List.map_nil, List.nodup_cons, List.mem_cons, List.not_mem_nil, or_false, not_or] at hne
  obtain ⟨⟨-, -, hstateTotal⟩, -⟩ := hne
  refine ⟨hcounts, hshown.trans ((State.rd_wr_other hset _ _ _ hstateTotal).trans hstate), hcount.trans ?_,
    htotal.trans (rd_inc_same hset _), congrArg FltUnit.upsets hrecord, (congrArg FltUnit.attempts hrecord).trans hattempts⟩
  have hupsets : (((upsetNoted id s).inc (F.fltU_TOTAL (id / 256) (id % 256))).fltUnit id).upsets = [s.now] := congrArg FltUnit.upsets hrecord
  rw [hupsets, List.filter_cons_of_pos (within_now (manages_now hmanaged) _)]
  rfl

end

/-- The HEALTH of unit `id` is shown in field `health` of a chapter beyond the manager, the interrupts and the beam. -/
def ShowsHealth (id : Nat) (health : Fld) : Prop :=
  0x300000 ≤ health.key % 2 ^ 30 / 64 ∧ ∀ (st : Nat) (u : State), setHealth id st u = u.wr health st

section
variable {id : Nat} (hid : id < 0xA00) {health : Fld} (hhealth : ShowsHealth id health) {s : State} (h : s.Canonical)
include hid hhealth h

omit hid in
/-- A unit takes a state. -/
theorem setUnitState_writes (st cause : Nat) : ∃ m : State, Writes [F.fltSummary_SUSPECT, F.fltSummary_RETIRED] s m ∧
    Writes (health :: changeFlds id) (m.wr (F.fltU_STATE (id / 256) (id % 256)) st) (setUnitState id st cause s) := by
  obtain ⟨-, hwrites⟩ := hhealth
  have hmoved := writes_moveSummary h (s.unitState id) st
  refine ⟨_, hmoved, ?_⟩
  unfold setUnitState
  dsimp only
  rw [hwrites]
  have hstate := writes_refl (fs := health :: changeFlds id) (State.wr_canonical (x1 := F.fltU_STATE (id / 256) (id % 256)) (x2 := st) hmoved.1)
  have hlast := writes_wr (writes_wr (writes_wr (writes_wr hstate (f := F.fltU_CAUSE (id / 256) (id % 256)) (by simp [changeFlds]) cause)
    (f := F.fltLast_UNIT) (by simp [changeFlds]) id) (f := F.fltLast_CAUSE) (by simp [changeFlds]) cause)
    (f := F.fltLast_STATE) (by simp [changeFlds]) st
  have hshown := fun v => writes_wr (writes_wr hlast (f := F.fltLastStamp_STAMP) (by simp [changeFlds]) v) (f := health) (by simp) st
  exact writes_trans (hshown _) (writes_mono (writes_updateFaultN (hshown _).1) (by simp [changeFlds]))

/-- STATE shows it, the unit's counts and the manager's records stand, and so does every field outside the manager but HEALTH. -/
theorem setUnitState_leaves (st cause : Nat) : let t := setUnitState id st cause s
    t.Canonical ∧ t.rd (F.fltU_STATE (id / 256) (id % 256)) = st % 4 ∧ t.fault = s.fault ∧
      (∀ f ∈ unitFlds id, f.key ≠ (F.fltU_STATE (id / 256) (id % 256)).key → t.rd f = s.rd f) ∧
      ∀ g : Fld, g.key % 2 ^ 30 / 64 < 0x83000 ∨ 0x84000 ≤ g.key % 2 ^ 30 / 64 → g.key ≠ health.key → t.rd g = s.rd g := by
  obtain ⟨m, hmoved, hchanged⟩ := setUnitState_writes hhealth h st cause
  have hne {f : Fld} (hf : f ∈ unitFlds id) : ∀ g ∈ health :: changeFlds id, f.key ≠ g.key := by
    intro g hg
    rcases List.mem_cons.1 hg with rfl | hg
    · obtain ⟨hoff, -⟩ := unitFlds_offset hid hf
      obtain ⟨hfar, -⟩ := hhealth
      intro e
      rw [e] at hoff
      omega
    · exact unitFlds_ne_change hid hf (List.mem_cons_of_mem _ (List.mem_cons_of_mem _ hg))
  refine ⟨hchanged.1, (writes_rd hchanged (hne (by simp [unitFlds]))).trans (State.rd_wr_same hmoved.1 _ _), ?_, fun f hf hkey => ?_, fun g hg hgh => ?_⟩
  · rw [hchanged.2.2, hmoved.2.2]
    rfl
  · exact (writes_rd hchanged (hne hf)).trans ((State.rd_wr_other hmoved.1 _ _ _ hkey).trans
      (writes_rd hmoved fun g hg => unitFlds_ne_change hid hf (List.mem_append_left (changeFlds id) hg)))
  · have hmanager (d : Fld) (hd : 0x83000 ≤ d.key % 2 ^ 30 / 64 ∧ d.key % 2 ^ 30 / 64 < 0x84000) : g.key ≠ d.key := fun e => by
      rw [e] at hg
      omega
    have hunit {d : Fld} (hd : d ∈ [F.fltU_STATE (id / 256) (id % 256), F.fltU_CAUSE (id / 256) (id % 256)]) : g.key ≠ d.key := by
      refine hmanager d (fltU_inside hid d ?_)
      rcases List.mem_pair.1 hd with rfl | rfl <;> simp
    have hfixed : ∀ d ∈ [F.fltSummary_SUSPECT, F.fltSummary_RETIRED, F.fltLast_UNIT, F.fltLast_CAUSE, F.fltLast_STATE, F.fltLastStamp_STAMP,
        F.fltSummary_FAULT_N], g.key ≠ d.key := fun d hd => hmanager d (by revert d; decide)
    refine (writes_rd hchanged ?_).trans ((State.rd_wr_other hmoved.1 _ _ _ (hunit (by simp))).trans
      (writes_rd hmoved fun d hd => hfixed d (List.mem_append_left [_, _, _, _, _] hd)))
    simp only [changeFlds, List.forall_mem_cons, List.not_mem_nil, false_implies, implies_true, and_true] at hfixed ⊢
    obtain ⟨-, -, hfixed⟩ := hfixed
    exact ⟨hgh, hunit (by simp), hfixed⟩

/-- The unit is SUSPECT and counted once; the beam stands, and a source 490 left pending stays so. -/
theorem countUpset_once (hfresh : Fresh id s) (cause : Nat) : let t := countUpset id cause s
    t.Canonical ∧ UpsetOnce id 1 (totalNext id s) s.now t ∧ t.now = s.now ∧
      ∀ u, (StaysPending 490 t → StaysPending 490 u) → Pends 490 s u := by
  obtain ⟨-, hcounts⟩ := countUpset_fresh hfresh cause
  obtain ⟨hmanaged, hstate, hcount, htotal, hupsets, hattempts⟩ := firstUpset_once hid h hfresh
  have hnow := manages_now hmanaged
  obtain ⟨⟨hfirst, hkept⟩, -, -⟩ := hmanaged
  obtain ⟨hset, hsuspect, hfault, hshown, hother⟩ := setUnitState_leaves hid hhealth hfirst 1 cause
  obtain ⟨hmoves, -, hpend, kupsets, kattempts⟩ := makeSuspect_reports hfirst hstate cause
  rw [hcounts]
  generalize firstUpset id s = p at *
  generalize makeSuspect id cause p = t at *
  have hunit : (raise 490 (setUnitState id 1 cause p)).fltUnit id = p.fltUnit id := by
    rw [fltUnit_report (reportRest_raise hset 490), State.fltUnit, hfault]
    rfl
  have hreported (g : Fld) (hg : reportKey g.key = false) : t.rd g = (setUnitState id 1 cause p).rd g :=
    (hmoves.2 g hg).trans (raise_rd hset 490 g (not_delivery_of_not_report hg))
  have hbefore (g : Fld) (hg : g.key % 2 ^ 30 / 64 = 0x200008 ∨ g.key = (F.intcTgt_DEST 490).key) :
      (setUnitState id 1 cause p).rd g = p.rd g := by
    have hdest : (F.intcTgt_DEST 490).key % 2 ^ 30 / 64 = 0x1017A8 := rfl
    obtain ⟨hfar, -⟩ := hhealth
    have hoff : g.key % 2 ^ 30 / 64 = 0x200008 ∨ g.key % 2 ^ 30 / 64 = 0x1017A8 := hg.imp (fun e => e) fun e => by rw [e, hdest]
    refine hother g (by omega) fun e => ?_
    rw [← e] at hfar
    omega
  have hne := unitFlds_nodup id
  simp only [unitFlds, List.map_cons, List.map_nil, List.nodup_cons, List.mem_cons, List.not_mem_nil, or_false, not_or] at hne
  obtain ⟨⟨hstateCount, -, hstateTotal⟩, -⟩ := hne
  have hrd {f : Fld} (hf : f ∈ unitFlds id) : t.rd f = (setUnitState id 1 cause p).rd f := hreported f (unitFlds_not_report hid hf)
  refine ⟨hmoves.1, ⟨(hrd (by simp [unitFlds])).trans hsuspect, ?_, ?_, ?_, ?_⟩, ?_, fun u hu => pends_of_raise hset (by decide) ?_ (hu ∘ hpend)⟩
  · exact (hrd (by simp [unitFlds])).trans ((hshown _ (by simp [unitFlds]) (Ne.symm hstateCount)).trans hcount)
  · exact (hrd (by simp [unitFlds])).trans ((hshown _ (by simp [unitFlds]) (Ne.symm hstateTotal)).trans htotal)
  · rw [kupsets, hunit, hupsets]
  · rw [kattempts, hunit, hattempts]
  · have hbeam (g : Fld) (hg : g ∈ [F.beamNow_FRAME, F.beamNow_LINE, F.beamNow_DOT]) : t.rd g = p.rd g :=
      (hreported g (by revert g; decide)).trans (hbefore g (.inl (by revert g; decide)))
    rw [← hnow]
    simp only [State.now, hbeam F.beamNow_FRAME (by decide), hbeam F.beamNow_LINE (by decide), hbeam F.beamNow_DOT (by decide)]
  · exact (hbefore _ (.inr rfl)).trans (hkept _ (by decide))

/-- The first upset of a unit leaves it SUSPECT and in its first attempt. -/
theorem upset_suspected (hfresh : Fresh id s) (cause : Nat) : Suspected id s (upset id cause s) := by
  obtain ⟨hc, ⟨hstate, hcount, htotal, hupsets, hattempts⟩, hnow, hpends⟩ := countUpset_once hid hhealth h hfresh cause
  obtain ⟨hcounts, -⟩ := countUpset_fresh hfresh cause
  have hupset : upset id cause s = openAttempt id (countUpset id cause s) := by
    simp [upset, hcounts, beginAttempt, hcount, hattempts]
  rw [hupset]
  generalize countUpset id cause s = t at *
  have hrecord := fltUnit_attemptNoted id t
  rw [hattempts, hnow] at hrecord
  have hopened : Manages 490 t (openAttempt id t) :=
    manages_unitCounts (by decide) hid (manages_setFltUnit (manages_refl hc) _)
  obtain ⟨scount, sattempts, sstate, stotal⟩ := showCounts_unit (s := attemptNoted id t) (setFltUnit_canonical hc)
  rw [hrecord] at scount sattempts
  have hwithin (us : Nat) : (attemptNoted id t).within us s.now = true := within_now hnow us
  exact ⟨sstate.trans hstate, stotal.trans htotal, scount.trans (by simp [hupsets, hwithin]), sattempts.trans (by simp [hwithin]),
    congrArg FltUnit.retrying hrecord, hpends _ hopened.2.2⟩

end

end Sys2Proof.Machine

namespace Sys2Proof.Machine

-- One declaration after another: the memory limit of the check counts the stack of every thread that elaborates beside them.
set_option Elab.async false

/-! ### A write of device memory that meets no error (R26, R71, R96) -/

/-- Beside the bytes of memory and the Vat, `t` differs from `s` in nothing. -/
def BytesOnly (s t : State) : Prop := t = { s with mem := t.mem, vat := t.vat }

theorem bytesOnly_trans {s t u : State} (h : BytesOnly s t) (k : BytesOnly t u) : BytesOnly s u := by
  unfold BytesOnly at *
  rw [k, h]

theorem bytesOnly_setBytes (s : State) (a : Nat) (bs : List Byte) : BytesOnly s (s.setBytes a bs) := by
  induction bs generalizing s a with
  | nil => rfl
  | cons b bs ih => exact bytesOnly_trans (t := s.setByte a b) rfl (ih (s.setByte a b) (a + 1))

theorem bytesOnly_writeWord (k row w : Nat) (kind : WriteKind) (bs : List (Nat × Byte)) (s : State) :
    BytesOnly s (writeWord k row w kind .none bs s).1 := by
  have hread := readWord_none k row w s
  unfold writeWord
  split
  · rfl
  · dsimp only
    generalize readWord k row w .none s = r at hread
    obtain ⟨u, bad⟩ := r
    dsimp only at hread
    subst hread
    cases bs.length == 16 && kind == WriteKind.plain with
    | true => rfl
    | false => cases bad <;> rfl

/-- A line written with no error. -/
theorem bytesOnly_lineWrite {who : Initiator} {off : Nat} {bytes : List (Option Byte)} {kind : WriteKind} {s : State}
    (hok : (lineWrite who off bytes kind .none s).1 = false) : BytesOnly s (lineWrite who off bytes kind .none s).2 := by
  have hwords (k row : Nat) (l : List Nat) : BytesOnly s (l.foldl (fun (acc : State × Bool) (w : Nat) =>
      let (s', e) := writeWord k row w kind .none (wordBytes (off % 64) w bytes) acc.1
      (s', acc.2 || e)) (s, false)).1 :=
    List.foldlRecOn (motive := fun acc : State × Bool => BytesOnly s acc.1) _ _ rfl fun acc hacc w _ =>
      bytesOnly_trans hacc (bytesOnly_writeWord k row w kind _ acc.1)
  unfold lineWrite at hok ⊢
  split at hok
  · cases hok
  · next k row _ =>
    split at hok
    · cases hok
    · next hlocked =>
      split at hok
      · cases hok
      · next hserves =>
        rw [if_neg hlocked, if_neg hserves, if_neg (by simp)]
        exact hwords k row (List.range 4)

theorem bytesOnly_vatWrite {who : Initiator} {kind : WriteKind} {fuel off : Nat} {bs : List Byte} {s : State}
    (hok : (vatWrite who kind fuel off bs s).1 = false) : BytesOnly s (vatWrite who kind fuel off bs s).2 := by
  induction fuel generalizing off bs s with
  | zero => rfl
  | succ fuel ih =>
    unfold vatWrite at hok ⊢
    split at hok
    · next hempty => rw [if_pos hempty]; rfl
    · next hempty =>
      rw [if_neg hempty]
      have hfailed : BytesOnly s (takeFailed who off s).2 := rfl
      generalize takeFailed who off s = r at hok hfailed
      obtain ⟨f, u⟩ := r
      cases f with
      | true => cases hok
      | false =>
        obtain ⟨hline, hrest⟩ := Bool.or_eq_false_iff.1 hok
        exact bytesOnly_trans hfailed (bytesOnly_trans (bytesOnly_lineWrite hline) (ih hrest))

theorem bytesOnly_memWrite {who : Initiator} {a : Nat} {bs : List Byte} {s : State} (hok : (memWrite who a bs s).1 = false) :
    BytesOnly s (memWrite who a bs s).2 := by
  unfold memWrite at hok ⊢
  split at hok
  · next hvat =>
    rw [if_pos hvat]
    exact bytesOnly_vatWrite hok
  · next hvat =>
    rw [if_neg hvat]
    split at hok
    · next hlp5x =>
      rw [if_pos hlp5x]
      split at hok
      · next hserves =>
        rw [if_pos hserves]
        exact bytesOnly_setBytes s a bs
      · cases hok
    · cases hok

section
variable {s t : State} (h : BytesOnly s t)
include h

theorem bytesOnly_rd (f : Fld) : t.rd f = s.rd f := by rw [h]; rfl
theorem bytesOnly_stream (n : Nat) : t.stream n = s.stream n := by rw [h]; rfl

end

/-! ### A line of a frame (R208, R210, R213, R217) -/

/-- One more line of the frame arrived, which STATUS shows. -/
def lineTaken (n : Nat) (s : State) : State :=
  onStream n (fun r => { r with lines := r.lines + 1 }) (s.wr (F.streamStatus_LINE n) (s.stream n).lines)

/-- A landing write in progress takes its slot. -/
def slotTaken (tag : LandTag) (q : StreamRun) : StreamRun :=
  { q with tags := q.tags.filter (·.slot != tag.slot), slots := tag :: q.slots.filter (·.slot != tag.slot),
           landing := q.landing.filter (·.slot != tag.slot) ++ [tag] }

section
variable {n : Nat} (hn : n < 16) {s : State} (h : s.Canonical)
include hn h

/-- The fields that say where a line lands stand when it arrives. -/
theorem lineTaken_rd {place : Nat} {f : Fld} (hf : CamFld (16 + n) place f) (hne : place ≠ 0x1010) : (lineTaken n s).rd f = s.rd f :=
  State.rd_wr_other h _ _ _ (camFld_ne hf (camFld_line hn) hne)

omit hn h in
theorem lineTaken_stream (hframe : (s.stream n).inFrame = true) :
    (lineTaken n s).stream n = { s.stream n with lines := (s.stream n).lines + 1 } :=
  onStream_stream (s := s.wr (F.streamStatus_LINE n) (s.stream n).lines) (stream_lt_of_inFrame hframe)

theorem lineTaken_ring (b : Nat) : (lineTaken n s).ringBuf n b = s.ringBuf n b := by
  rw [State.ringBuf, State.ringBuf, lineTaken_rd hn h (camFld_ringBase hn) (by decide), lineTaken_rd hn h (camFld_spacing hn) (by decide)]

theorem lineTaken_land : (lineTaken n s).landLines n = s.landLines n ∧ ∀ slot, (lineTaken n s).landSlot n slot = s.landSlot n slot := by
  refine ⟨?_, fun slot => ?_⟩
  · rw [State.landLines, State.landLines, lineTaken_rd hn h (camFld_landLines hn) (by decide)]
  · rw [State.landSlot, State.landSlot, lineTaken_rd hn h (camFld_landBase hn) (by decide), lineTaken_rd hn h (camFld_stride hn) (by decide)]

/-- A good line of a frame: it is written into the frame's buffer, then into its landing slot. -/
theorem streamLine_lands {who : Bool → Initiator} {bytes : List Byte} {b : Nat} (hframe : (s.stream n).inFrame = true)
    (hlines : (s.stream n).lines < s.rd (F.streamSize_H n)) (hbuf : (s.stream n).buf = some b)
    (hok : (memWrite (who false) (s.ringBuf n b + (s.stream n).lines * s.rd (F.streamStride_BYTES n)) bytes (lineTaken n s)).1 = false) :
    streamLine n who true bytes s = slotLine n (s.stream n).lines (who true) true bytes
      (memWrite (who false) (s.ringBuf n b + (s.stream n).lines * s.rd (F.streamStride_BYTES n)) bytes (lineTaken n s)).2 := by
  have hring : ringLine n (s.stream n).lines (who false) bytes (lineTaken n s) =
      (memWrite (who false) (s.ringBuf n b + (s.stream n).lines * s.rd (F.streamStride_BYTES n)) bytes (lineTaken n s)).2 := by
    unfold ringLine
    rw [lineTaken_stream hframe]
    dsimp only
    rw [hbuf]
    dsimp only
    rw [lineTaken_ring hn h, lineTaken_rd hn h (camFld_stride hn) (by decide), hok, if_neg Bool.false_ne_true]
  rw [← hring]
  unfold streamLine
  have hmore : ¬ s.rd (F.streamSize_H n) ≤ (s.stream n).lines := by omega
  simp only [hframe, Bool.not_true, Bool.false_eq_true, if_false, if_true, onStream_rd, hmore]
  rfl

end

/-- A stream that is not raced has no landing slot. -/
theorem slotLine_unraced {n c : Nat} {who : Initiator} {good : Bool} {bytes : List Byte} {s : State} (h : s.rd (F.streamCtl_RACED n) = 0) :
    slotLine n c who good bytes s = s := by
  simp [slotLine, State.flag, h]

/-- A good line of a raced stream, whose landing write meets no error, takes its slot. -/
theorem slotLine_raced {n c : Nat} {who : Initiator} {bytes : List Byte} {s : State} (h : s.rd (F.streamCtl_RACED n) = 1)
    (hok : (memWrite who (s.landSlot n (c % s.landLines n)) bytes s).1 = false) : slotLine n c who true bytes s =
      onStream n (slotTaken ⟨c % s.landLines n, (s.stream n).frames, c⟩) (memWrite who (s.landSlot n (c % s.landLines n)) bytes s).2 := by
  have hstream := bytesOnly_stream (bytesOnly_memWrite hok) n
  unfold slotLine
  simp only [State.flag, h, hok, hstream]
  rfl

end Sys2Proof.Machine

namespace Sys2Proof.Machine

-- One declaration after another: the memory limit of the check counts the stack of every thread that elaborates beside them.
set_option Elab.async false

/-! ### The fault manager and a CSI-2 port (R215, R557 to R559) -/

/-- The key of a field of the fault manager or of the report, or of the HEALTH of port `k`. -/
def csiFaultKey (k x : Nat) : Bool := managerKey x || x == (F.csiStatus_HEALTH k).key

/-- From `s` to `t`, the fault manager dealt with port `k`: only its own fields, those of the report and the port's HEALTH changed, and
camera ingest stands beside its registers. -/
def Attends (k : Nat) (s t : State) : Prop := Moves (csiFaultKey k) s t ∧ t.cam = s.cam

theorem csiFaultKey_manager {k x : Nat} (h : managerKey x = true) : csiFaultKey k x = true := by simp [csiFaultKey, h]

theorem csiFaultKey_report {k x : Nat} (h : reportKey x = true) : csiFaultKey k x = true := csiFaultKey_manager (managerKey_report h)

theorem attends_refl {k : Nat} {s : State} (h : s.Canonical) : Attends k s s := ⟨moves_refl h, rfl⟩

/-- What reports an event leaves camera ingest. -/
theorem attends_report {k : Nat} {s t u : State} (h : Attends k s t) (hmoves : Moves reportKey t u) (hrest : ReportRest t u) : Attends k s u := by
  obtain ⟨hbefore, hcam⟩ := h
  refine ⟨moves_trans hbefore (moves_mono hmoves fun _ => csiFaultKey_report), Eq.trans ?_ hcam⟩
  rw [hrest]

section
variable {k : Nat} (hk : k < 4)
include hk

theorem csiUnit_kind : csiUnit k / 256 = 2 ∧ csiUnit k % 256 = k ∧ csiUnit k < 0xA00 := by
  unfold csiUnit unitId
  omega

theorem setHealth_csi (st : Nat) (s : State) : setHealth (csiUnit k) st s = s.wr (F.csiStatus_HEALTH k) st := by
  obtain ⟨hkind, hunit, -⟩ := csiUnit_kind hk
  simp only [setHealth, hkind, hunit]

theorem showsHealth_csi : ShowsHealth (csiUnit k) (F.csiStatus_HEALTH k) := by
  obtain ⟨hoff, -⟩ := camFld_key (camFld_csiHealth hk)
  exact ⟨by omega, setHealth_csi hk⟩

/-- A retired port has no work to move (R215). -/
theorem remapUnit_csi (s : State) : remapUnit (csiUnit k) s = s := by
  obtain ⟨hkind, -, -⟩ := csiUnit_kind hk
  simp only [remapUnit, hkind]

/-- The fault manager's steps on a CSI-2 port. -/
theorem faultClosed_csi {s : State} : FaultClosed (csiUnit k) (Attends k s) where
  known := (csiUnit_kind hk).2.2
  record _ _ h := ⟨moves_rest h.1, h.2⟩
  reg _ _ _ hlow hhigh h := ⟨moves_wr h.1 (csiFaultKey_manager (managerKey_fault hlow hhigh)), h.2⟩
  raise _ m h := attends_report h (moves_raise_report (moves_refl h.1.1) m) (reportRest_raise h.1.1 m)
  notify _ code a b h := attends_report h (moves_notify (moves_refl h.1.1) code a b) (reportRest_notify h.1.1 code a b)
  log _ code sev a b h := attends_report h (moves_logEvent (moves_refl h.1.1) code sev a b) (reportRest_logEvent h.1.1 code sev a b)
  health _ _ h := by
    rw [setHealth_csi hk]
    exact ⟨moves_wr h.1 (by simp [csiFaultKey]), h.2⟩
  remap _ h := by
    rw [remapUnit_csi hk]
    exact h

/-- The port's other fields stand while the fault manager deals with it. -/
theorem attends_rd {s t : State} (h : Attends k s t) {place : Nat} {f : Fld} (hf : CamFld k place f) (hplace : place ≠ 0x202) :
    t.rd f = s.rd f := by
  refine h.1.2 f ?_
  simp only [csiFaultKey, camFld_not_manager hf, Bool.false_or, beq_eq_false_iff_ne]
  exact camFld_ne hf (camFld_csiHealth hk) hplace

end

/-! ### A port is resynchronised (R215) -/

/-- What leaves a unit's fields, the manager's records and a pending source 490 leaves the unit SUSPECT. -/
theorem suspected_kept {id : Nat} {s p t : State} (h : Suspected id s p) (hp : p.Canonical)
    (hdest : p.rd (F.intcTgt_DEST 490) = s.rd (F.intcTgt_DEST 490)) (hrd : ∀ f ∈ unitFlds id, t.rd f = p.rd f) (hfault : t.fault = p.fault)
    (hstays : StaysPending 490 p → StaysPending 490 t) : Suspected id s t := by
  obtain ⟨hstate, htotal, hcount, hattempts, hretrying, hpends⟩ := h
  refine ⟨(hrd _ (by simp [unitFlds])).trans hstate, (hrd _ (by simp [unitFlds])).trans htotal, (hrd _ (by simp [unitFlds])).trans hcount,
    (hrd _ (by simp [unitFlds])).trans hattempts, ?_, ?_⟩
  · rw [State.fltUnit, hfault]
    exact hretrying
  · by_cases hd : s.rd (F.intcTgt_DEST 490) = 3
    · exact .inr hd
    · exact .inl (hstays ⟨hp, hpends.resolve_right hd, by rwa [hdest]⟩).2.1

/-- A loop of which every step leaves the state that it starts from. -/
theorem forL_idle {α : Type} {f : α → State → State} {l : List α} {s : State} (h : ∀ a ∈ l, f a s = s) : s.forL l f = s := by
  induction l with
  | nil => rfl
  | cons a l ih =>
    change (f a s).forL l f = s
    rw [h a (by simp), ih fun b hb => h b (by simp [hb])]

/-- A write of a field of camera ingest, and the events that follow it, leave a pending source so. -/
theorem staysPending_cam {n row place : Nat} (hn : n < 512) {f : Fld} (hf : CamFld row place f) {s : State} (h : StaysPending n s) (v : Nat) :
    StaysPending n (s.wr f v) := staysPending_wr_beside h v (camFld_not_pend hf hn) (camFld_not_dest hf hn)

theorem staysPending_csiError {n : Nat} (hn : n < 512) {s : State} (h : StaysPending n s) (k : Nat) : StaysPending n (csiError k s) := by
  unfold csiError
  split
  · exact h
  · exact staysPending_raise (staysPending_rest h) hn _

/-- Port `k` seeks synchronisation again, which is counted. -/
def resyncCounted (k : Nat) (s : State) : State := csiError k ((s.wr (F.csiStatus_STATE k) 1).inc (F.csiErr1_RESYNC k))

/-- The resynchronisation is in progress. -/
def resyncNoted (k : Nat) (s : State) : State := { s with cam := { s.cam with resync := k :: s.cam.resync.filter (· != k) } }

theorem csiResync_begins {k : Nat} {s : State} (hretrying : (s.fltUnit (csiUnit k)).retrying = true) :
    csiResync k s = resyncNoted k (resyncCounted k s) := by
  rw [csiResync, hretrying]
  rfl

section
variable {k : Nat} (hk : k < 4) {s : State} (h : s.Canonical)
include h

theorem notes_resyncCounted : Notes [F.csiStatus_STATE k, F.csiErr1_RESYNC k] s (resyncCounted k s) :=
  notes_csiError (notes_inc (notes_wr (notes_refl h) (by simp) 1) (by simp)) k

include hk

theorem resyncCounted_shows : (resyncCounted k s).rd (F.csiStatus_STATE k) = 1 ∧ Counted (F.csiErr1_RESYNC k) s (resyncCounted k s) := by
  have hstate : (s.wr (F.csiStatus_STATE k) 1).Canonical := State.wr_canonical h
  have hcounted : ((s.wr (F.csiStatus_STATE k) 1).inc (F.csiErr1_RESYNC k)).Canonical := State.inc_canonical hstate
  have hnotes := notes_csiError (notes_refl (fs := []) hcounted) k
  have hne := camFld_ne (camFld_csiState hk) (camFld_resync hk) (by decide)
  refine ⟨?_, ?_⟩
  · exact (notes_rd hnotes (camFld_not_delivery (camFld_csiState hk)) (by simp)).trans
      ((State.rd_wr_other hstate _ _ _ hne).trans (State.rd_wr_same h _ _))
  · exact (notes_rd hnotes (camFld_not_delivery (camFld_resync hk)) (by simp)).trans
      ((rd_inc_same hstate _).trans (by rw [State.rd_wr_other h _ _ _ (Ne.symm hne)]))

/-- A resynchronisation that begins: the port seeks synchronisation, which is counted, and the fault manager's records stand. -/
theorem csiResync_shows (hretrying : (s.fltUnit (csiUnit k)).retrying = true) : let t := csiResync k s
    t.rd (F.csiStatus_STATE k) = 1 ∧ Counted (F.csiErr1_RESYNC k) s t ∧ t.cam.resync.contains k = true ∧ t.fault = s.fault := by
  obtain ⟨hstate, hcount⟩ := resyncCounted_shows hk h
  dsimp only
  rw [csiResync_begins hretrying]
  exact ⟨hstate, hcount, by simp [resyncNoted], (notes_fault (notes_resyncCounted h) :)⟩

end

end Sys2Proof.Machine

namespace Sys2Proof.Machine

-- One declaration after another: the memory limit of the check counts the stack of every thread that elaborates beside them.
set_option Elab.async false

/-! ### A lost PHY (R215) -/

/-- A port that receives and loses its synchronisation outside every frame seeks it again, which is the first upset of its unit. -/
theorem csiSyncLoss_seeks {port : Fin 4} {s : State} (h : s.Canonical) (hreceives : s.csiReceives port.val = true)
    (hidle : ∀ m ∈ s.portStreams port.val, (s.stream m).inFrame = false) (hfresh : Fresh (csiUnit port.val) s) :
    Leads (.csiSyncLoss port) s fun t => t.rd (F.csiStatus_STATE port.val) = 1 ∧ Counted (F.csiErr1_RESYNC port.val) s t ∧
      t.cam.resync.contains port.val = true ∧ Suspected (csiUnit port.val) s t := by
  have hk := port.isLt
  obtain ⟨-, -, hid⟩ := csiUnit_kind hk
  have hexec : exec (.csiSyncLoss port) s = .next (csiResync port.val (upset (csiUnit port.val) 7 s)) := by
    have hactive : ¬ (s.rd (F.csiStatus_STATE port.val) != 2) = true := by
      obtain ⟨-, hstate⟩ := Bool.and_eq_true_iff.1 hreceives
      simpa using hstate
    change execCsiSyncLoss port s = _
    rw [execCsiSyncLoss, csiUpset, if_neg hactive, forL_idle fun m hm => frameEnd_outside (hidle m hm) false]
  have hsuspected := upset_suspected hid (showsHealth_csi hk) h hfresh 7
  have hattends := (faultClosed_csi hk).upset (attends_refl h) 7
  refine ⟨_, hexec, ?_⟩
  generalize upset (csiUnit port.val) 7 s = p at hsuspected hattends ⊢
  have hp := hattends.1.1
  have hretrying : (p.fltUnit (csiUnit port.val)).retrying = true := by
    obtain ⟨-, -, -, -, hretrying, -⟩ := hsuspected
    exact hretrying
  obtain ⟨hstate, hcount, hresync, hfault⟩ := csiResync_shows hk hp hretrying
  have hnotes := notes_resyncCounted (k := port.val) hp
  refine ⟨hstate, ?_, hresync, suspected_kept hsuspected hp ?_ (fun f hf => ?_) hfault fun hstays => ?_⟩
  · rwa [Counted, attends_rd hk hattends (camFld_resync hk) (by decide)] at hcount
  · refine hattends.1.2 _ ?_
    have hhealth : (F.intcTgt_DEST 490).key ≠ (F.csiStatus_HEALTH port.val).key := camFld_not_dest (camFld_csiHealth hk) (by decide)
    simp only [csiFaultKey, show managerKey (F.intcTgt_DEST 490).key = false by decide, Bool.false_or, beq_eq_false_iff_ne]
    exact hhealth
  · have hlow : f.key % 2 ^ 30 / 64 < 0x600000 := by
      obtain ⟨hoff, -⟩ := unitFlds_offset hid hf
      omega
    rw [csiResync_begins hretrying]
    exact notes_rd hnotes (not_delivery_of_not_report (unitFlds_not_report hid hf))
      (placed_outside (.cons (camFld_csiState hk) (.cons (camFld_resync hk) .nil)) hlow)
  · rw [csiResync_begins hretrying]
    exact staysPending_rest (staysPending_csiError (by decide)
      (staysPending_cam (by decide) (camFld_resync hk) (staysPending_cam (by decide) (camFld_csiState hk) hstays 1) _) port.val)

/-- A counter of the port that moved, and the event that it may raise. -/
theorem csiError_counted {k : Nat} {s : State} (h : s.Canonical) {place : Nat} {f : Fld} (hf : CamFld k place f) :
    (csiError k (s.inc f)).rd f = min (s.rd f + 1) (2 ^ f.width - 1) ∧ (csiError k (s.inc f)).mem = s.mem := by
  have hnotes := notes_csiError (notes_refl (fs := []) (State.inc_canonical (x1 := f) h)) k
  exact ⟨(notes_rd hnotes (camFld_not_delivery hf) (by simp)).trans (rd_inc_same h f), (notes_mem hnotes :)⟩

/-! ### Long packets (R206, R208, R213) -/

section
variable {k vc dt : Nat} (data : List Byte) {s : State}

theorem longPacket_untaken (hdt : dt ≠ 0x12) (htaker : ((s.vcStreams k vc).find? fun m => s.rd (F.streamCtl_DT m) == dt) = none) :
    longPacket k vc dt data false s = csiError k (s.inc (F.csiErr1_DT_UNSUPP k)) := by
  simp only [longPacket, hdt, State.iff, htaker, Bool.false_eq_true, if_false]

theorem longPacket_taken {n : Nat} (hdt : dt ≠ 0x12) (htaker : ((s.vcStreams k vc).find? fun m => s.rd (F.streamCtl_DT m) == dt) = some n) :
    longPacket k vc dt data false s = streamLine n (Initiator.camera (Fin.ofNat 16 n)) (data.length * 8 / wireBits dt == s.rd (F.streamSize_W n))
      (landLine dt (s.rd (F.streamSize_W n)) data) s := by
  simp only [longPacket, hdt, State.iff, htaker, Bool.false_eq_true, if_false, Bool.not_false, Bool.true_and]

end

/-- The write of a good line of frame buffer `b`, as the camera's own. -/
def ringLanded (n : Fin 16) (b : Nat) (bytes : List Byte) (s : State) : Bool × State :=
  memWrite (.camera n false) (s.ringBuf n.val b + (s.stream n.val).lines * s.rd (F.streamStride_BYTES n.val)) bytes (lineTaken n.val s)

theorem bytesOnly_ringLanded {n : Fin 16} {b : Nat} {bytes : List Byte} {s : State} (hok : (ringLanded n b bytes s).1 = false) :
    BytesOnly (lineTaken n.val s) (ringLanded n b bytes s).2 := bytesOnly_memWrite hok

section
variable {s : State} (h : s.Canonical) {port : Fin 4} (hreceives : s.csiReceives port.val = true) {vc n : Fin 16} {dt : BitVec 6} {data : List Byte}
include hreceives

theorem csiLongPacket_exec : exec (.csiLongPacket port vc dt data .none false) s = .next (longPacket port.val vc.val dt.toNat data false s) := by
  change execCsiLongPacket port vc dt data .none false s = _
  rw [execCsiLongPacket, csiPacket_none hreceives]

/-- Embedded data is discarded. -/
theorem csiLongPacket_embedded : exec (.csiLongPacket port vc 0x12 data .none false) s = .next s := csiLongPacket_exec hreceives

theorem csiShortIgnored_exec : exec (.csiShortIgnored port vc dt .none) s = .next s := by
  change execCsiShortIgnored port vc dt .none s = _
  rw [execCsiShortIgnored, csiPacket_none hreceives]
  rfl

include h

/-- A corrected header is counted. -/
theorem csiShortIgnored_corrected : Leads (.csiShortIgnored port vc dt .corrected) s fun t =>
    t.rd (F.csiErr0_ECC_CE port.val) = min (s.rd (F.csiErr0_ECC_CE port.val) + 1) (2 ^ (F.csiErr0_ECC_CE port.val).width - 1) ∧ t.mem = s.mem := by
  refine ⟨_, ?_, csiError_counted h (camFld_eccCe port.isLt)⟩
  change execCsiShortIgnored port vc dt .corrected s = _
  simp only [execCsiShortIgnored, csiPacket, csiHeader, hreceives, Bool.not_true, Bool.false_eq_true, if_false, if_true]
  rfl

variable (hdt : dt ≠ 0x12)
include hdt

/-- A packet that no stream takes is counted. -/
theorem csiLongPacket_untaken (htaker : ((s.vcStreams port.val vc.val).find? fun m => s.rd (F.streamCtl_DT m) == dt.toNat) = none) :
    Leads (.csiLongPacket port vc dt data .none false) s fun t => t.rd (F.csiErr1_DT_UNSUPP port.val) =
      min (s.rd (F.csiErr1_DT_UNSUPP port.val) + 1) (2 ^ (F.csiErr1_DT_UNSUPP port.val).width - 1) ∧ t.mem = s.mem := by
  have hdt' : dt.toNat ≠ 0x12 := fun e => hdt (BitVec.eq_of_toNat_eq e)
  rw [Leads, csiLongPacket_exec hreceives, longPacket_untaken data hdt' htaker]
  exact ⟨_, rfl, csiError_counted h (camFld_dtUnsupp port.isLt)⟩

variable (htaker : ((s.vcStreams port.val vc.val).find? fun m => s.rd (F.streamCtl_DT m) == dt.toNat) = some n.val)
include htaker

/-- A line outside a frame is counted. -/
theorem csiLongPacket_orphan (hframe : (s.stream n.val).inFrame = false) : Leads (.csiLongPacket port vc dt data .none false) s fun t =>
    t.rd (F.streamOrphan_LINES n.val) = min (s.rd (F.streamOrphan_LINES n.val) + 1) (2 ^ (F.streamOrphan_LINES n.val).width - 1) ∧ t.mem = s.mem := by
  have hdt' : dt.toNat ≠ 0x12 := fun e => hdt (BitVec.eq_of_toNat_eq e)
  rw [Leads, csiLongPacket_exec hreceives, longPacket_taken data hdt' htaker]
  refine ⟨s.inc (F.streamOrphan_LINES n.val), ?_, rd_inc_same h _, rfl⟩
  simp only [streamLine, hframe, Bool.not_false, if_true]

variable {b : Nat} (hwidth : data.length * 8 / wireBits dt.toNat = s.rd (F.streamSize_W n.val)) (hframe : (s.stream n.val).inFrame = true)
  (hlines : (s.stream n.val).lines < s.rd (F.streamSize_H n.val)) (hbuf : (s.stream n.val).buf = some b)
  (hok : (ringLanded n b (landLine dt.toNat (s.rd (F.streamSize_W n.val)) data) s).1 = false)
include hwidth hframe hlines hbuf hok

theorem csiLongPacket_line : exec (.csiLongPacket port vc dt data .none false) s = .next (slotLine n.val (s.stream n.val).lines (.camera n true) true
    (landLine dt.toNat (s.rd (F.streamSize_W n.val)) data) (ringLanded n b (landLine dt.toNat (s.rd (F.streamSize_W n.val)) data) s).2) := by
  have hdt' : dt.toNat ≠ 0x12 := fun e => hdt (BitVec.eq_of_toNat_eq e)
  have hgood : (data.length * 8 / wireBits dt.toNat == s.rd (F.streamSize_W n.val)) = true := by simpa using hwidth
  have hself : Fin.ofNat 16 n.val = n := Fin.ofNat_val_eq_self n
  rw [csiLongPacket_exec hreceives, longPacket_taken data hdt' htaker, hgood, hself, streamLine_lands n.isLt h hframe hlines hbuf hok]
  rfl

/-- A line lands in its frame's buffer. -/
theorem csiLongPacket_lands (hraced : s.rd (F.streamCtl_RACED n.val) = 0) : Leads (.csiLongPacket port vc dt data .none false) s
    (· = (ringLanded n b (landLine dt.toNat (s.rd (F.streamSize_W n.val)) data) s).2) := by
  refine ⟨_, csiLongPacket_line h hreceives hdt htaker hwidth hframe hlines hbuf hok, slotLine_unraced ?_⟩
  rw [bytesOnly_rd (bytesOnly_ringLanded hok), lineTaken_rd n.isLt h (camFld_raced n.isLt) (by decide), hraced]

/-- On a raced stream it takes its landing slot too, and its tag waits for that write. -/
theorem csiLongPacket_races (hraced : s.rd (F.streamCtl_RACED n.val) = 1) (hslot : (memWrite (.camera n true)
      (s.landSlot n.val ((s.stream n.val).lines % s.landLines n.val)) (landLine dt.toNat (s.rd (F.streamSize_W n.val)) data)
      (ringLanded n b (landLine dt.toNat (s.rd (F.streamSize_W n.val)) data) s).2).1 = false) :
    Leads (.csiLongPacket port vc dt data .none false) s (· = onStream n.val
      (slotTaken ⟨(s.stream n.val).lines % s.landLines n.val, (s.stream n.val).frames, (s.stream n.val).lines⟩)
      (memWrite (.camera n true) (s.landSlot n.val ((s.stream n.val).lines % s.landLines n.val))
        (landLine dt.toNat (s.rd (F.streamSize_W n.val)) data) (ringLanded n b (landLine dt.toNat (s.rd (F.streamSize_W n.val)) data) s).2).2) := by
  have hbytes := bytesOnly_ringLanded hok
  obtain ⟨hlandLines, hlandSlot⟩ := lineTaken_land n.isLt h
  have hraced' : (ringLanded n b (landLine dt.toNat (s.rd (F.streamSize_W n.val)) data) s).2.rd (F.streamCtl_RACED n.val) = 1 := by
    rw [bytesOnly_rd hbytes, lineTaken_rd n.isLt h (camFld_raced n.isLt) (by decide), hraced]
  have hland : (ringLanded n b (landLine dt.toNat (s.rd (F.streamSize_W n.val)) data) s).2.landLines n.val = s.landLines n.val := by
    rw [State.landLines, bytesOnly_rd hbytes]
    exact hlandLines
  have hat (slot : Nat) : (ringLanded n b (landLine dt.toNat (s.rd (F.streamSize_W n.val)) data) s).2.landSlot n.val slot = s.landSlot n.val slot := by
    rw [State.landSlot, bytesOnly_rd hbytes, bytesOnly_rd hbytes]
    exact hlandSlot slot
  have hframes : ((ringLanded n b (landLine dt.toNat (s.rd (F.streamSize_W n.val)) data) s).2.stream n.val).frames = (s.stream n.val).frames := by
    rw [bytesOnly_stream hbytes, lineTaken_stream hframe]
  refine ⟨_, csiLongPacket_line h hreceives hdt htaker hwidth hframe hlines hbuf hok, ?_⟩
  rw [slotLine_raced hraced' (by rwa [hland, hat]), hland, hat, hframes]

end

end Sys2Proof.Machine

section
open Sys2Proof Sys2Proof.Machine
set_option Elab.async false

/-- Settles O20: a line that a stream takes is written into the frame's buffer and, where the stream is raced, into its landing slot
(`csiLongPacket_line`); of neither write anything but the bytes remains (`bytesOnly_memWrite`), so that the fields which say where the
second goes stand. A lost PHY is the first upset of the port's unit (`upset_suspected`), whose retry is the resynchronisation. -/
theorem cameraPackets : Obligations.CameraPackets := by
  unfold Obligations.CameraPackets
  intro s port vc n dt data b h hreceives r bytes a line landed slot raced tag taker good counts
  refine ⟨fun hgood hraced => ?_, fun hgood hraced hslot => ?_, fun hdt htaker hframe => csiLongPacket_orphan h hreceives hdt htaker hframe,
    fun hdt htaker => csiLongPacket_untaken h hreceives hdt htaker, ⟨s, csiLongPacket_embedded hreceives, rfl⟩,
    ⟨s, csiShortIgnored_exec hreceives, rfl⟩, csiShortIgnored_corrected h hreceives, csiSyncLoss_seeks h hreceives⟩
  · obtain ⟨hdt, htaker, hwidth, hframe, hlines, hbuf, hok⟩ := hgood
    exact csiLongPacket_lands h hreceives hdt htaker hwidth hframe hlines hbuf hok hraced
  · obtain ⟨hdt, htaker, hwidth, hframe, hlines, hbuf, hok⟩ := hgood
    exact csiLongPacket_races h hreceives hdt htaker hwidth hframe hlines hbuf hok hraced hslot
end

namespace Sys2Proof.Machine

-- One declaration after another: the memory limit of the check counts the stack of every thread that elaborates beside them.
set_option Elab.async false

/-! ### Synchronisation of a port (R206, R215, R559) -/

/-- A port that seeks synchronisation becomes ACTIVE with it. -/
theorem csiPhySyncAcquired_active {k : Fin 4} {s : State} (h : s.Canonical) (hen : s.rd (F.csiCtl_EN k.val) = 1)
    (hstate : s.rd (F.csiStatus_STATE k.val) = 1) (hidle : s.cam.resync.contains k.val = false) :
    Leads (.csiPhySyncAcquired k) s fun t => t.rd (F.csiStatus_STATE k.val) = 2 ∧ Only [F.csiStatus_STATE k.val] s t := by
  refine ⟨s.wr (F.csiStatus_STATE k.val) 2, ?_, State.rd_wr_same h _ _, only_wr h _ _⟩
  change execCsiPhySyncAcquired k s = _
  rw [execCsiPhySyncAcquired, if_pos (by simp only [State.flag, hen, hstate, hidle]; rfl)]

/-- The resynchronisation of port `k` is no longer in progress. -/
def resyncEnded (k : Nat) (s : State) : State := { s with cam := { s.cam with resync := s.cam.resync.filter (· != k) } }

theorem csiResyncDone_exec {k : Fin 4} {s : State} (hresync : s.cam.resync.contains k.val = true) (synced : Bool) :
    exec (.csiResyncDone k synced) s = .next (if synced then (endAttempt (csiUnit k.val) synced (resyncEnded k.val s)).wr (F.csiStatus_STATE k.val) 2
      else csiResync k.val (endAttempt (csiUnit k.val) synced (resyncEnded k.val s))) := by
  change execCsiResyncDone k synced s = _
  rw [execCsiResyncDone, hresync]
  rfl

/-- The manager's record of a unit of which no attempt runs. -/
def attemptEnded (id : Nat) (s : State) : State := setFltUnit { s.fltUnit id with retrying := false } s

theorem fltUnit_attemptEnded (id : Nat) (s : State) : (attemptEnded id s).fltUnit id = { s.fltUnit id with retrying := false } :=
  fltUnit_setFltUnit (u := { s.fltUnit id with retrying := false }) (fltUnit_id id s) s

/-- An attempt that succeeds ends. -/
theorem endAttempt_succeeds (id : Nat) (s : State) : ((endAttempt id true s).fltUnit id).retrying = false := by
  cases hretrying : (s.fltUnit id).retrying with
  | false =>
    rw [endAttempt, hretrying]
    exact hretrying
  | true =>
    rw [endAttempt, hretrying]
    exact congrArg FltUnit.retrying (fltUnit_attemptEnded id s)

/-- An attempt that fails, with none on record, is followed by the next. -/
theorem endAttempt_fails {id : Nat} {s : State} (hretrying : (s.fltUnit id).retrying = true) (hattempts : (s.fltUnit id).attempts = []) :
    endAttempt id false s = openAttempt id (attemptEnded id s) := by
  have hnone : ((attemptEnded id s).fltUnit id).attempts = [] := (congrArg FltUnit.attempts (fltUnit_attemptEnded id s)).trans hattempts
  have hbegins : endAttempt id false s = beginAttempt id 5 (attemptEnded id s) := by
    rw [endAttempt, hretrying]
    rfl
  rw [hbegins, beginAttempt, hnone]
  rfl

theorem openAttempt_retrying (id : Nat) (s : State) : ((openAttempt id s).fltUnit id).retrying = true :=
  congrArg FltUnit.retrying (fltUnit_attemptNoted id s)

section
variable {k : Fin 4} {s : State} (h : s.Canonical) (hresync : s.cam.resync.contains k.val = true)
include h hresync

/-- The retry that a resynchronisation was ends with its success. -/
theorem csiResyncDone_synced : Leads (.csiResyncDone k true) s fun t => t.rd (F.csiStatus_STATE k.val) = 2 ∧
    t.cam.resync = s.cam.resync.filter (· != k.val) ∧ (t.fltUnit (csiUnit k.val)).retrying = false := by
  obtain ⟨⟨hended, -⟩, hcam⟩ := (faultClosed_csi k.isLt).endAttempt (attends_refl (s := resyncEnded k.val s) (rest_canonical h)) true
  exact ⟨_, csiResyncDone_exec hresync true, State.rd_wr_same hended _ _, congrArg (·.resync) hcam, endAttempt_succeeds _ (resyncEnded k.val s)⟩

/-- It goes on to the next attempt where it failed. -/
theorem csiResyncDone_failed (hretrying : (s.fltUnit (csiUnit k.val)).retrying = true) (hattempts : (s.fltUnit (csiUnit k.val)).attempts = []) :
    Leads (.csiResyncDone k false) s fun t => t.rd (F.csiStatus_STATE k.val) = 1 ∧ t.cam.resync.contains k.val = true ∧
      (t.fltUnit (csiUnit k.val)).retrying = true ∧ Counted (F.csiErr1_RESYNC k.val) s t := by
  have hk := k.isLt
  have hattends := (faultClosed_csi hk).endAttempt (attends_refl (s := resyncEnded k.val s) (rest_canonical h)) false
  have hnext : ((endAttempt (csiUnit k.val) false (resyncEnded k.val s)).fltUnit (csiUnit k.val)).retrying = true := by
    rw [endAttempt_fails (s := resyncEnded k.val s) hretrying hattempts]
    exact openAttempt_retrying _ _
  refine ⟨_, csiResyncDone_exec hresync false, ?_⟩
  rw [if_neg Bool.false_ne_true]
  obtain ⟨hstate, hcount, hagain, hfault⟩ := csiResync_shows hk hattends.1.1 hnext
  refine ⟨hstate, hagain, ?_, ?_⟩
  · rwa [State.fltUnit, hfault]
  · rw [Counted, attends_rd hk hattends (camFld_resync hk) (by decide)] at hcount
    exact hcount

end

/-! ### Frame-sync pulses (R216) -/

theorem atDot_streamEn {n : Fin 16} {s : State} (h : s.Canonical) (dot : Nat) :
    (s.atDot dot).flag (F.streamCtl_EN n.val) = s.flag (F.streamCtl_EN n.val) :=
  State.flag_eq (atDot_cam h dot (camFld_streamEn n.isLt))

/-- The pulse of a stream begins, at the oldest of its targets. -/
def pulseBegun (now : Nat) (r : StreamRun) : StreamRun := { r with pulse := some now, syncArmed := r.syncArmed.tail }

theorem camFsyncPulse_exec {n : Fin 16} {dot : Nat} {s : State} (h : s.Canonical) : exec (.camFsyncPulse n dot) s =
    .next (if s.flag (F.streamCtl_EN n.val) && (s.atDot dot).fsyncDue n.val then onStream n.val (pulseBegun (s.atDot dot).now) (s.atDot dot)
      else s.atDot dot) := by
  change execCamFsyncPulse n dot s = _
  rw [execCamFsyncPulse, atDot_streamEn h]
  rfl

/-- The pulse of stream `n` is over: PULSE microseconds have passed, or the reference does not count. -/
def State.pulseOver (s : State) (n : Nat) : Bool :=
  match (s.stream n).pulse with
  | some at_ => s.rd F.refStatus_STATE < 2 || reached (s.advance at_ (s.usDots (max 1 (s.rd (F.streamFsync_PULSE n))))) s.now
  | none => false

theorem camFsyncEnd_exec (n : Fin 16) (dot : Nat) (s : State) : exec (.camFsyncEnd ⟨n, dot⟩) s =
    .next (if (s.atDot dot).pulseOver n.val then onStream n.val (fun r => { r with pulse := none }) (s.atDot dot) else s.atDot dot) := by
  change execCamFsyncEnd ⟨n, dot⟩ s = _
  unfold execCamFsyncEnd State.pulseOver
  dsimp only
  cases ((s.atDot dot).stream n.val).pulse with
  | none => rfl
  | some at_ => simp only [Bool.or_eq_true, decide_eq_true_eq]

end Sys2Proof.Machine

section
open Sys2Proof Sys2Proof.Machine
set_option Elab.async false

/-- Settles O21: the resynchronisation is the retry of the port's unit, so its end is the end of an attempt (`endAttempt_succeeds`,
`endAttempt_fails`), and the fault manager leaves camera ingest beside the port's HEALTH (`faultClosed_csi`). That the sender's word ends
a pulse while the reference does not count is the model's own choice. -/
theorem cameraPorts : Obligations.CameraPorts := by
  unfold Obligations.CameraPorts
  intro s k n dot h u unit over_
  refine ⟨csiPhySyncAcquired_active h, csiResyncDone_synced h, csiResyncDone_failed h, fun hen hdue => ?_, fun hidle => ?_,
    fun hover => ?_, fun hover => ?_⟩
  · refine ⟨_, camFsyncPulse_exec h, ?_⟩
    rw [if_pos (Bool.and_eq_true_iff.2 ⟨by rw [State.flag, hen]; rfl, hdue⟩)]
    rfl
  · refine ⟨_, camFsyncPulse_exec h, if_neg fun hpulse => ?_⟩
    obtain ⟨hon, hfire⟩ := Bool.and_eq_true_iff.1 hpulse
    rcases hidle with hoff | hearly
    · rw [State.flag, hoff] at hon
      cases hon
    · exact Bool.false_ne_true (hearly.symm.trans hfire)
  · exact ⟨_, camFsyncEnd_exec n dot s, (if_pos hover).trans rfl⟩
  · exact ⟨_, camFsyncEnd_exec n dot s, if_neg (Bool.eq_false_iff.1 hover)⟩
end

namespace Sys2Proof.Machine

-- One declaration after another: the memory limit of the check counts the stack of every thread that elaborates beside them.
set_option Elab.async false

/-! ### A landing write completes (R217) -/

/-- The oldest landing write in progress completes; its tag is valid unless it failed. -/
def tagLanded (err : Bool) (tag : LandTag) (rest : List LandTag) (r : StreamRun) : StreamRun :=
  { r with landing := rest, tags := if err then r.tags else tag :: r.tags }

theorem landingTagValid_lands {n : Fin 16} {tag : LandTag} {rest : List LandTag} {s : State} (hlanding : (s.stream n.val).landing = tag :: rest)
    (err : Bool) : exec (.landingTagValid n err) s = .next (onStream n.val (tagLanded err tag rest) s) := by
  change execLandingTagValid n err s = _
  rw [execLandingTagValid, hlanding]
  rfl

/-! ### A stream is lost (R214) -/

/-- The frame in progress is over: no frame is in progress, and neither where a source goes nor which streams timed out before changed. -/
def FrameOver (n : Nat) (s t : State) : Prop :=
  t.Canonical ∧ (t.stream n).inFrame = false ∧ t.cam.evtSeen.getD 1 0 = s.cam.evtSeen.getD 1 0 ∧
    ∀ m < 512, t.rd (F.intcTgt_DEST m) = s.rd (F.intcTgt_DEST m)

section
variable {n : Nat} {s : State}

theorem shortEnded_cam : (shortEnded n s).cam = (shortCounted n s).cam := by
  unfold shortEnded
  split <;> rfl

/-- The buffer of the frame may be any: it is a field of the live registers, which the destinations are not. -/
theorem shortEnded_dest (h : (shortCounted n s).Canonical) (m : Nat) :
    (shortEnded n s).rd (F.intcTgt_DEST m) = (shortCounted n s).rd (F.intcTgt_DEST m) := by
  unfold shortEnded
  split
  · next b _ =>
    refine State.rd_wr_other h _ _ _ ?_
    simp [Fld.key, Fld.group, F.intcTgt_DEST, F.streamBuf_WRITING]
    omega
  · rfl

variable (h : s.Canonical)
include h

/-- A short frame raises no timeout. -/
theorem shortCounted_seen : (shortCounted n s).cam.evtSeen.getD 1 0 = s.cam.evtSeen.getD 1 0 := by
  have hshort : (s.inc (F.streamErrs_SHORT n)).Canonical := State.inc_canonical h
  have hnoted : (streamEvent n 0 (s.inc (F.streamErrs_SHORT n))).Canonical := streamEvent_canonical hshort
  have hfirst : (streamEvent n 0 (s.inc (F.streamErrs_SHORT n))).cam.evtSeen.getD 1 0 = s.cam.evtSeen.getD 1 0 := streamEvent_seen (by decide) hshort
  have hlong : (streamEvent n 0 ((streamEvent n 0 (s.inc (F.streamErrs_SHORT n))).inc (F.streamErrs_LONG n))).cam.evtSeen.getD 1 0 =
      s.cam.evtSeen.getD 1 0 := (streamEvent_seen (by decide) (State.inc_canonical hnoted)).trans hfirst
  unfold shortCounted
  dsimp only
  split <;> split
  · exact hlong
  · exact hfirst
  · exact hlong
  · exact hfirst

theorem frameEnd_over (hn : n < 16) : FrameOver n s (frameEnd n false s) := by
  cases hframe : (s.stream n).inFrame with
  | false =>
    rw [frameEnd_outside hframe]
    exact ⟨h, hframe, rfl, fun _ _ => rfl⟩
  | true =>
    have hcounted := notes_shortCounted (n := n) h
    have hstream : n < (shortEnded n s).cam.streams.length := by
      rw [shortEnded_cam, notes_streams hcounted]
      exact stream_lt_of_inFrame hframe
    refine ⟨frameEnd_canonical h, ?_⟩
    rw [frameEnd_short hframe (.inl rfl)]
    refine ⟨?_, (congrArg (·.evtSeen.getD 1 0) shortEnded_cam).trans (shortCounted_seen h), fun m hm => ?_⟩
    · rw [onStream_stream hstream]
      rfl
    · rw [onStream_rd, shortEnded_dest (notes_canonical hcounted)]
      exact notes_rd hcounted (not_delivery_of_not_report (intcTgt_DEST_not_report m hm))
        (placed_outside (.cons (camFld_short hn) (.cons (camFld_long hn) (.cons (camFld_corrupt hn) .nil))) (intcTgt_DEST_low hm))

end

/-- No frame of the stream waits for its last write. -/
def doneDropped (r : StreamRun) : StreamRun := { r with done := none }

/-- The loss shows, and no frame is newest. -/
def lostShown (n : Nat) (s : State) : State :=
  ((onStream n doneDropped s).wr (F.streamStatus_STATE n) 3).clr (F.streamStatus_NEWEST_VALID n)

/-- Buffer `b` holds no frame. -/
def bufFreed (n b : Nat) (s : State) : State := (s.clr (F.streamBuf_COMPLETE n b)).clr (F.streamBuf_WRITING n b)

/-- The engines that race the stream are bound to none of its frames. -/
def racersLoosed (n : Nat) (s : State) : State := s.forL (s.racers n) fun e s => onPlane e (fun r => { r with bound := none }) s

/-- A lost stream, before the loss is reported. -/
def streamGone (n : Nat) (s : State) : State := racersLoosed n ((lostShown n (frameEnd n false s)).forN 8 (bufFreed n))

theorem streamLost_eq (n : Nat) (s : State) :
    streamLost n s = logEvent 0x0400 2 n ((streamGone n s).rd (F.streamCtl_PORT n)) (streamEvent n 1 (streamGone n s)) := rfl

/-- Steps on engines change nothing but engines. -/
theorem forL_onPlane (f : PlaneRun → PlaneRun) (l : List Nat) (s : State) :
    s.forL l (fun e s => onPlane e f s) = { s with planes := (s.forL l fun e s => onPlane e f s).planes } := by
  induction l generalizing s with
  | nil => rfl
  | cons e l ih => exact ih (onPlane e f s)

theorem racersLoosed_only (n : Nat) (s : State) : racersLoosed n s = { s with planes := (racersLoosed n s).planes } := forL_onPlane ..

theorem racersLoosed_rd (n : Nat) (s : State) (g : Fld) : (racersLoosed n s).rd g = s.rd g := by
  rw [racersLoosed_only]
  rfl

theorem racersLoosed_cam (n : Nat) (s : State) : (racersLoosed n s).cam = s.cam := by rw [racersLoosed_only]

theorem bufsFreed_shows {n b : Nat} (hb : b < 8) {s : State} (h : s.Canonical) :
    (s.forN 8 (bufFreed n)).rd (F.streamBuf_COMPLETE n b) = 0 ∧ (s.forN 8 (bufFreed n)).rd (F.streamBuf_WRITING n b) = 0 := by
  refine forL_at (P := State.Canonical) (Q := fun u => u.rd (F.streamBuf_COMPLETE n b) = 0 ∧ u.rd (F.streamBuf_WRITING n b) = 0) h
    (.inl (List.mem_range.2 hb)) (fun j _ u hu => State.clr_canonical (State.clr_canonical hu)) (fun u hu => ?_) (fun j _ _ u hu hzero => ?_)
  · have hcleared : (u.clr (F.streamBuf_COMPLETE n b)).Canonical := State.clr_canonical hu
    exact ⟨rd_clr_zero hcleared (rd_clr_same hu _), rd_clr_same hcleared _⟩
  · have hcleared : (u.clr (F.streamBuf_COMPLETE n j)).Canonical := State.clr_canonical hu
    obtain ⟨hcomplete, hwriting⟩ := hzero
    exact ⟨rd_clr_zero hcleared (rd_clr_zero hu hcomplete), rd_clr_zero hcleared (rd_clr_zero hu hwriting)⟩

section
variable {n : Nat} (hn : n < 16)
include hn

variable {s : State} (h : s.Canonical)
include h

/-- What the freeing of its buffers leaves: the stream's status, where a source goes, and all beside the registers. -/
theorem bufsFreed_leaves : let t := s.forN 8 (bufFreed n)
    t.Canonical ∧ t.cam = s.cam ∧ (∀ m < 512, t.rd (F.intcTgt_DEST m) = s.rd (F.intcTgt_DEST m)) ∧
      ∀ {place f}, CamFld (16 + n) place f → place < 0x2000 → t.rd f = s.rd f := by
  obtain ⟨hfreed, hregs, hrd⟩ := writes_forN (fs := fun b => [F.streamBuf_COMPLETE n b, F.streamBuf_WRITING n b]) (f := bufFreed n) (n := 8) h
    fun b u hu => writes_wr (writes_wr (writes_refl hu) (f := F.streamBuf_COMPLETE n b) (by simp) 0) (f := F.streamBuf_WRITING n b) (by simp) 0
  refine ⟨hfreed, ?_, fun m hm => hrd _ fun b hb d hd => ?_, fun {place f} hf hplace => hrd f fun b hb d hd => ?_⟩
  · generalize s.forN 8 (bufFreed n) = t at hregs
    rw [hregs]
  · rcases List.mem_pair.1 hd with rfl | rfl
    · exact camFld_not_dest (camFld_complete hn hb) hm
    · exact camFld_not_dest (camFld_bufWriting hn hb) hm
  · rcases List.mem_pair.1 hd with rfl | rfl
    · exact camFld_ne hf (camFld_complete hn hb) (by omega)
    · exact camFld_ne hf (camFld_bufWriting hn hb) (by omega)

theorem lostShown_shows : let t := lostShown n s
    t.Canonical ∧ t.rd (F.streamStatus_STATE n) = 3 ∧ t.rd (F.streamStatus_NEWEST_VALID n) = 0 ∧
      ∀ m < 512, t.rd (F.intcTgt_DEST m) = s.rd (F.intcTgt_DEST m) := by
  have hopen : (onStream n doneDropped s).Canonical := onStream_canonical h
  have hstate : ((onStream n doneDropped s).wr (F.streamStatus_STATE n) 3).Canonical := State.wr_canonical hopen
  refine ⟨State.clr_canonical hstate, ?_, rd_clr_same hstate _, fun m hm => ?_⟩
  · exact (State.rd_wr_other hstate _ _ _ (camFld_ne (camFld_state hn) (camFld_newestValid hn) (by decide))).trans (State.rd_wr_same hopen _ _)
  · exact (State.rd_wr_other hstate _ _ _ (camFld_not_dest (camFld_newestValid hn) hm)).trans
      (State.rd_wr_other hopen _ _ _ (camFld_not_dest (camFld_state hn) hm))

/-- What a lost stream shows, before the loss is reported. -/
theorem streamGone_shows : let t := streamGone n s
    FrameOver n s t ∧ t.rd (F.streamStatus_STATE n) = 3 ∧ t.rd (F.streamStatus_NEWEST_VALID n) = 0 ∧
      ∀ b < 8, t.rd (F.streamBuf_COMPLETE n b) = 0 ∧ t.rd (F.streamBuf_WRITING n b) = 0 := by
  obtain ⟨hended, hframe, hseen, hdest⟩ := frameEnd_over h hn
  dsimp only
  unfold streamGone
  generalize frameEnd n false s = p at hended hframe hseen hdest ⊢
  obtain ⟨hshown, hstate, hnewest, sdest⟩ := lostShown_shows hn hended
  obtain ⟨hfreed, hcam, bdest, hstatus⟩ := bufsFreed_leaves hn hshown
  simp only [FrameOver, State.stream, racersLoosed_rd, racersLoosed_cam, hcam]
  refine ⟨⟨State.forL_canonical hfreed fun _ _ => onPlane_canonical, ?_, hseen, fun m hm => ?_⟩, ?_, ?_, fun b hb => bufsFreed_shows hb hshown⟩
  · exact (onStream_proj (g := StreamRun.inFrame) (f := doneDropped) (fun _ => rfl) n p).trans hframe
  · exact (bdest m hm).trans ((sdest m hm).trans (hdest m hm))
  · exact (hstatus (camFld_state hn) (by decide)).trans hstate
  · exact (hstatus (camFld_newestValid hn) (by decide)).trans hnewest

/-- A lost stream: the loss is reported, and leaves what shows of it. -/
theorem streamLost_shows : let t := streamLost n s
    t.rd (F.streamStatus_STATE n) = 3 ∧ t.rd (F.streamStatus_NEWEST_VALID n) = 0 ∧
      (∀ b < 8, t.rd (F.streamBuf_COMPLETE n b) = 0 ∧ t.rd (F.streamBuf_WRITING n b) = 0) ∧ (t.stream n).inFrame = false ∧
      (bitAt (s.cam.evtSeen.getD 1 0) n = false → Pends 181 s t) := by
  obtain ⟨⟨hgone, hframe, hseen, hdest⟩, hstate, hnewest, hbufs⟩ := streamGone_shows hn h
  dsimp only
  rw [streamLost_eq]
  generalize streamGone n s = p at hgone hframe hseen hdest hstate hnewest hbufs ⊢
  have hevent := notes_streamEvent (notes_refl (fs := []) hgone) n 1
  have hlogged := moves_logEvent (moves_refl (notes_canonical hevent)) 0x0400 2 n (p.rd (F.streamCtl_PORT n))
  have hrd {place : Nat} {f : Fld} (hf : CamFld (16 + n) place f) :
      (logEvent 0x0400 2 n (p.rd (F.streamCtl_PORT n)) (streamEvent n 1 p)).rd f = p.rd f :=
    (hlogged.2 f (camFld_not_report hf)).trans (notes_rd hevent (camFld_not_delivery hf) (by simp))
  refine ⟨(hrd (camFld_state hn)).trans hstate, (hrd (camFld_newestValid hn)).trans hnewest, fun b hb => ?_, ?_, fun hfirst => ?_⟩
  · obtain ⟨hcomplete, hwriting⟩ := hbufs b hb
    exact ⟨(hrd (camFld_complete hn hb)).trans hcomplete, (hrd (camFld_bufWriting hn hb)).trans hwriting⟩
  · rw [reportRest_logEvent (notes_canonical hevent)]
    exact (congrArg StreamRun.inFrame (notes_stream hevent n)).trans hframe
  · rw [streamEvent_raises (by rwa [hseen])]
    exact pends_of_raise (p := eventNoted n 1 p) (rest_canonical hgone) (by decide) (hdest 181 (by decide)) fun hraised =>
      staysPending_logEvent hraised (by decide) _ _ _ _

end

/-- A stream that waits or receives is lost once its timeout has passed. -/
theorem streamTimeout_loses {st : Fin 16} {dot : Nat} {s : State} (h : s.Canonical)
    (hstate : s.rd (F.streamStatus_STATE st.val) = 1 ∨ s.rd (F.streamStatus_STATE st.val) = 2)
    (hpassed : (s.atDot dot).rd F.refStatus_STATE < 2 ∨ reached ((s.atDot dot).advance (s.stream st.val).since
      ((s.atDot dot).usDots (max 1 (s.rd (F.streamTimeout_US st.val))))) (s.atDot dot).now = true) :
    exec (.streamTimeout st dot) s = .next (streamLost st.val (s.atDot dot)) := by
  have hlives : (s.rd (F.streamStatus_STATE st.val) == 1 || s.rd (F.streamStatus_STATE st.val) == 2) = true := by simpa using hstate
  change execStreamTimeout st dot s = _
  simp only [execStreamTimeout, atDot_cam h dot (camFld_timeout st.isLt), atDot_cam h dot (camFld_state st.isLt), atDot_stream, hlives,
    Bool.and_true, Bool.or_eq_true, decide_eq_true_eq, hpassed, if_true]

end Sys2Proof.Machine

namespace Sys2Proof.Machine

-- One declaration after another: the memory limit of the check counts the stack of every thread that elaborates beside them.
set_option Elab.async false

/-! ### The cut-off of output line 0 (R217 to R220) -/

/-- The engine is bound to a camera frame, or to none. -/
def planeBound (frame : Option Nat) (q : PlaneRun) : PlaneRun := { q with bound := frame }

/-- A line is substituted, which the measures of the frame in progress count, or with `early` those of the coming one. -/
def lineSubbed (early later : Bool) (sub : Nat × Option Nat) (q : PlaneRun) : PlaneRun :=
  if early then { q with subs := q.subs ++ [sub], replaced0 := q.replaced0 + 1, late0 := q.late0 || !later }
  else { q with subs := q.subs ++ [sub], replaced := q.replaced + 1, late := q.late || !later }

/-- The cut-off of line 0 has passed, with the measures of the lines that it takes. -/
def cutoffPassed (early : Bool) (slack latency : Option Nat) (q : PlaneRun) : PlaneRun :=
  if early then { q with cutoff := some 0, slack0 := leastOf q.slack0 slack, latency0 := mostOf q.latency0 latency }
  else { q with cutoff := some 0, slack := leastOf q.slack slack, latency := mostOf q.latency latency }

/-- The cut-off of line 0 of engine `n` has passed. -/
def cutoffTaken (n : Nat) (slack latency : Option Nat) (s : State) : State :=
  onPlane n (cutoffPassed (s.ahead (s.planePipe n) 0) slack latency) s

theorem lineSubbed_pipe (early later : Bool) (sub : Nat × Option Nat) (q : PlaneRun) : (lineSubbed early later sub q).pipe = q.pipe := by
  cases early <;> rfl

/-- The slot of line `c` holds a later line than that of the bound frame. -/
def State.slotLater (s : State) (st frame c : Nat) : Bool :=
  (s.stream st).slots.any fun g => g.slot == c % s.landLines st && (frame < g.frame || (g.frame == frame && c < g.line))

/-- Where a line that is not valid counts. -/
def missedFld (later : Bool) (st : Nat) : Fld := if later then F.streamRace_OVERRUN st else F.streamRace_LATE st

/-- A line that is not valid is substituted and counted; its event is noted. -/
theorem replaceLine_eq (n l frame c : Nat) (s : State) : replaceLine n l frame c s =
    streamEvent (s.planeStream n) (if s.slotLater (s.planeStream n) frame c then 4 else 3)
      ((onPlane n (lineSubbed (s.ahead (s.planePipe n) l) (s.slotLater (s.planeStream n) frame c)
        (c, (s.stream (s.planeStream n)).replacement frame c)) s).inc (missedFld (s.slotLater (s.planeStream n) frame c) (s.planeStream n))) := by
  have hsplit (later : Bool) (st : Nat) (u : State) : (if later then streamEvent st 4 (u.inc (F.streamRace_OVERRUN st))
      else streamEvent st 3 (u.inc (F.streamRace_LATE st))) = streamEvent st (if later then 4 else 3) (u.inc (missedFld later st)) := by
    cases later <;> rfl
  exact hsplit _ _ _

theorem camFld_missed {st : Nat} (hst : st < 16) (later : Bool) : ∃ place, CamFld (16 + st) place (missedFld later st) := by
  cases later
  · exact ⟨_, camFld_late hst⟩
  · exact ⟨_, camFld_overrun hst⟩

/-- The state of a pipe, of whatever index, is among the live registers, which the counts are not. -/
theorem pipeState_ne_missed (st : Nat) (later : Bool) (p : Nat) : (F.pipeStatus_STATE p).key ≠ (missedFld later st).key := by
  cases later <;> simp [missedFld, Fld.key, Fld.group, F.pipeStatus_STATE, F.streamRace_LATE, F.streamRace_OVERRUN] <;> omega

theorem planeStream_lt (s : State) (n : Nat) : s.planeStream n < 16 := Nat.mod_lt _ (by decide : 0 < 2 ^ 4)

section
variable {n f : Nat} {s : State}

/-- What the cut-off of output line 0 takes of an engine that races a stream in a frame. -/
theorem raceCutoff_exec {n : Fin 32} {slack latency : Option Nat} (hsel : s.planeSel n.val = 2) (hfetch : (s.plane n.val).fetch = some 0)
    (hn : n.val < s.planes.length) (hbinding : s.raceBinding (s.planeStream n.val) = some f) {missing : List Nat}
    (hmissing : (s.racedLines n.val 0).eraseDups.filter (fun c => !s.landed (s.planeStream n.val) f c) = missing) :
    exec (.raceCutoff n slack latency) s = .next (cutoffTaken n.val slack latency
      ((onPlane n.val (planeBound (some f)) s).forL missing (replaceLine n.val 0 f))) := by
  have hbound : ((onPlane n.val (planeBound (some f)) s).plane n.val).bound = some f := by
    rw [plane_of_modify (s := s) (f := planeBound (some f)) rfl hn]
    rfl
  have hlines : ((onPlane n.val (planeBound (some f)) s).racedLines n.val 0).eraseDups.filter
      (fun c => !(onPlane n.val (planeBound (some f)) s).landed ((onPlane n.val (planeBound (some f)) s).planeStream n.val) f c) = missing := hmissing
  have hbegun : onPlane n.val (fun q => { q with bound := s.raceBinding (s.planeStream n.val) }) s = onPlane n.val (planeBound (some f)) s := by
    rw [hbinding]
    rfl
  change execRaceCutoff n slack latency s = _
  unfold execRaceCutoff
  simp only [hsel, hfetch, Option.or, bne_self_eq_false, Bool.false_eq_true, if_false, if_true, hbegun, hbound, hlines]
  rfl

/-- Where the engine's work for line 0 belongs does not change with its frame or with the lines substituted. -/
theorem ahead_eq {t : State} (hplane : (t.plane n).pipe = (s.plane n).pipe) (hcfg : t.rd (F.planeCfg_PIPE n) = s.rd (F.planeCfg_PIPE n))
    (hpipe : ∀ p, t.rd (F.pipeStatus_STATE p) = s.rd (F.pipeStatus_STATE p)) (l : Nat) :
    t.ahead (t.planePipe n) l = s.ahead (s.planePipe n) l := by
  simp only [State.ahead, State.planePipe, hplane, hcfg, hpipe]

theorem ahead_onPlane {g : PlaneRun → PlaneRun} (hg : ∀ q, (g q).pipe = q.pipe) (hn : n < s.planes.length) (l : Nat) :
    (onPlane n g s).ahead ((onPlane n g s).planePipe n) l = s.ahead (s.planePipe n) l := by
  refine ahead_eq (n := n) (t := onPlane n g s) ?_ (onPlane_rd ..) (fun _ => onPlane_rd ..) l
  rw [plane_of_modify (s := s) (f := g) rfl hn, hg]

/-- Nor does it with a count of the lines replaced and its event. -/
theorem ahead_counted {st place : Nat} {later : Bool} (hmissed : CamFld (16 + st) place (missedFld later st)) (hn : n < 32) {t : State}
    (hnotes : Notes [missedFld later st] s t) (hplane : t.plane n = s.plane n) (l : Nat) :
    t.ahead (t.planePipe n) l = s.ahead (s.planePipe n) l := by
  refine ahead_eq (congrArg PlaneRun.pipe hplane) (notes_rd hnotes ?_ ?_) (fun p => notes_rd hnotes ?_ ?_) l
  · simp [deliveryKey, Fld.key, Fld.group, F.planeCfg_PIPE]
    omega
  · simpa using (camFld_ne_outside hmissed (.inl (by simp [Fld.key, Fld.group, F.planeCfg_PIPE]; omega))).symm
  · simp [deliveryKey, Fld.key, Fld.group, F.pipeStatus_STATE]
    omega
  · simpa using pipeState_ne_missed st later p

/-- One line replaced: the engine's own state, and the count of it. -/
theorem replaceLine_shows (h : s.Canonical) (hn : n < s.planes.length) (hn32 : n < 32) (c : Nat) : let t := replaceLine n 0 f c s
    let later := s.slotLater (s.planeStream n) f c
    t.planes = s.planes.modify n (lineSubbed (s.ahead (s.planePipe n) 0) later (c, (s.stream (s.planeStream n)).replacement f c)) ∧
      Counted (missedFld later (s.planeStream n)) s t ∧ t.ahead (t.planePipe n) 0 = s.ahead (s.planePipe n) 0 := by
  dsimp only
  rw [replaceLine_eq]
  generalize hlater : s.slotLater (s.planeStream n) f c = later
  obtain ⟨place, hmissed⟩ := camFld_missed (planeStream_lt s n) later
  generalize hsub : lineSubbed (s.ahead (s.planePipe n) 0) later (c, (s.stream (s.planeStream n)).replacement f c) = subbed
  have hc : (onPlane n subbed s).Canonical := onPlane_canonical h
  have hcounted : ((onPlane n subbed s).inc (missedFld later (s.planeStream n))).Canonical := State.inc_canonical hc
  have hevent := notes_streamEvent (notes_refl (fs := []) hcounted) (s.planeStream n) (if later then 4 else 3)
  have hnotes := notes_streamEvent (notes_inc (notes_refl hc) (f := missedFld later (s.planeStream n)) (List.mem_singleton_self _))
    (s.planeStream n) (if later then 4 else 3)
  generalize streamEvent (s.planeStream n) (if later then 4 else 3) ((onPlane n subbed s).inc (missedFld later (s.planeStream n))) = t at hevent hnotes ⊢
  have hplanes : t.planes = s.planes.modify n subbed := notes_planes hnotes
  refine ⟨hplanes, ?_, (ahead_counted (n := n) hmissed hn32 hnotes ?_ 0).trans (ahead_onPlane (fun q => ?_) hn 0)⟩
  · exact (notes_rd hevent (camFld_not_delivery hmissed) (by simp)).trans (rd_inc_same hc _)
  · rw [plane_of_modify hplanes hn, plane_of_modify (s := s) (t := onPlane n subbed s) (f := subbed) rfl hn]
  · rw [← hsub, lineSubbed_pipe]

end

theorem onPlane_onPlane (n : Nat) (f g : PlaneRun → PlaneRun) (s : State) : onPlane n g (onPlane n f s) = onPlane n (g ∘ f) s := by
  simp [onPlane, modAt, List.modify_modify_eq]

section
variable {s : State} {n : Fin 32} {f c : Nat} {slack latency : Option Nat} (hsel : s.planeSel n.val = 2) (hfetch : (s.plane n.val).fetch = some 0)
  (hn : n.val < s.planes.length) (hbinding : s.raceBinding (s.planeStream n.val) = some f)
include hsel hfetch hn hbinding

/-- Every line has landed: the engine is bound, and nothing is substituted. -/
theorem raceCutoff_binds (hall : (s.racedLines n.val 0).all (fun c => s.landed (s.planeStream n.val) f c) = true) :
    exec (.raceCutoff n slack latency) s =
      .next (onPlane n.val (cutoffPassed (s.ahead (s.planePipe n.val) 0) slack latency ∘ planeBound (some f)) s) := by
  have hmissing : (s.racedLines n.val 0).eraseDups.filter (fun c => !s.landed (s.planeStream n.val) f c) = [] := by
    refine List.filter_eq_nil_iff.2 fun c hc => ?_
    simpa using List.all_eq_true.1 hall c (List.mem_eraseDups.1 hc)
  rw [raceCutoff_exec hsel hfetch hn hbinding hmissing, State.forL, List.foldl_nil, cutoffTaken, ahead_onPlane (g := planeBound (some f)) (fun _ => rfl) hn,
    onPlane_onPlane]

/-- One line is not valid: it is substituted and counted. -/
theorem raceCutoff_replaces (h : s.Canonical)
    (hone : (s.racedLines n.val 0).eraseDups.filter (fun c => !s.landed (s.planeStream n.val) f c) = [c]) :
    let later := s.slotLater (s.planeStream n.val) f c
    let early := s.ahead (s.planePipe n.val) 0
    Leads (.raceCutoff n slack latency) s fun t => t.planes = s.planes.modify n.val (cutoffPassed early slack latency ∘
      (lineSubbed early later (c, (s.stream (s.planeStream n.val)).replacement f c) ∘ planeBound (some f))) ∧
      Counted (missedFld later (s.planeStream n.val)) s t := by
  have hlisted : n.val < (onPlane n.val (planeBound (some f)) s).planes.length := by simpa [onPlane, modAt] using hn
  obtain ⟨hplanes, hcounted, hahead⟩ := replaceLine_shows (f := f) (onPlane_canonical h) hlisted n.isLt c
  rw [ahead_onPlane (g := planeBound (some f)) (fun _ => rfl) hn] at hplanes hahead
  refine ⟨_, raceCutoff_exec hsel hfetch hn hbinding hone, ?_, hcounted⟩
  rw [State.forL, List.foldl_cons, List.foldl_nil, cutoffTaken, hahead]
  change (replaceLine n.val 0 f c (onPlane n.val (planeBound (some f)) s)).planes.modify n.val _ = _
  rw [hplanes, ← List.modify_modify_eq, ← List.modify_modify_eq]
  rfl

end

end Sys2Proof.Machine

section
open Sys2Proof Sys2Proof.Machine
set_option Elab.async false

/-- Settles O22: a timeout ends the frame in progress short (log 15) and is reported after the loss shows (`streamLost_shows`); that the
sender's word stands for the time while the reference does not count is log 111. At the cut-off the replaced line changes the engine's own
state and one count, and neither moves the frame to which the line-0 work belongs (`replaceLine_shows`). -/
theorem cameraRaces : Obligations.CameraRaces := by
  unfold Obligations.CameraRaces
  intro s n st dot f c tag rest err slack latency h u cam early bindings later replaces
  refine ⟨fun hlanding => ⟨_, landingTagValid_lands hlanding err, rfl⟩, fun hstate hpassed => ?_,
    fun hsel hfetch hn hbinding => ⟨fun hall => ?_, fun hone => ?_⟩⟩
  · obtain ⟨hlost, hnewest, hbufs, hframe, hpends⟩ := streamLost_shows st.isLt (State.atDot_canonical (x1 := dot) h)
    have hdest : (s.atDot dot).rd (F.intcTgt_DEST 181) = s.rd (F.intcTgt_DEST 181) := atDot_rd_other h dot (by decide)
    obtain ⟨-, hcam⟩ := atDot_mem_cam s dot
    rw [Pends, hdest, hcam] at hpends
    exact ⟨_, streamTimeout_loses h hstate hpassed, hlost, hnewest, fun b => hbufs b.val b.isLt, hframe, hpends⟩
  · have hbindings : bindings = cutoffPassed early slack latency ∘ planeBound (some f) := by
      funext q
      cases hearly : early <;> simp only [bindings, hearly] <;> rfl
    rw [hbindings]
    exact ⟨_, raceCutoff_binds hsel hfetch hn hbinding hall, rfl⟩
  · have hreplaces : replaces = cutoffPassed early slack latency ∘
        (lineSubbed early later (c, (s.stream cam).replacement f c) ∘ planeBound (some f)) := by
      funext q
      cases hearly : early <;> simp only [replaces, bindings, hearly] <;> rfl
    rw [hreplaces]
    exact raceCutoff_replaces hsel hfetch hn hbinding h hone
end
